-- ==== Sys2Proof/Word.lean ====
section
/-! DEFINITION. The words of the controller: bytes, 64-byte host lines (sectors), and the plainest arithmetic on
them. -/
namespace Sys2Proof

/-- One byte. -/
abbrev Byte := BitVec 8

/-- A 64-byte host line, the sector of a media line (R24); byte 0 is bits [7:0] (R6). -/
abbrev Sector := BitVec 512

/-- A 256-byte media line, the four sectors of R24. -/
structure Line where
  s0 : Sector
  s1 : Sector
  s2 : Sector
  s3 : Sector
  deriving DecidableEq, Repr, Inhabited

/-- The wheels of the largest configuration, WHL0 to WHL15 (R1). -/
abbrev Wheel := Fin 16

/-- A die on a channel (R28). -/
abbrev Die := Fin 8

/-- A bank in a die (R28). -/
abbrev Bank := Fin 16

/-- A rail channel, RAIL00 to RAIL31 (R209). -/
abbrev Chan := Fin 32

/-- A converter, MC0 to MC7 (R238). -/
abbrev Conv := Fin 8

/-- A device number on the sync ring (R310). -/
abbrev Devid := Fin 16

end Sys2Proof
end

