-- ==== Sys2Proof/Syntax.lean ====
section
/-! DEFINITION. The commands the block takes: one constructor of `Instr` for each row of the opcode table, with the
operands the row's event brings from outside (an address, a frame, a payload, what an array or a die reads as).
Times `t` are GTC stamps in nanoseconds (R19). -/
namespace Sys2Proof

/-- A home bank: wheel, die on the wheel's channel, bank in the die (R14, R28). -/
structure BankId where
  w : Wheel
  d : Die
  b : Bank
  deriving DecidableEq, Repr

/-- What the words of a directory entry read as (R70). -/
inductive DirCheck where
  | good
  | corrected
  | bad
  deriving DecidableEq, Repr

/-- What a slice's arrays read as when a command looks a line up (R70): the SRAM's bits are the hardware's, so the
event brings the finding with it. -/
inductive ArrayCheck where
  /-- every word reads good -/
  | clean
  /-- a single-bit data error in the sector read -/
  | sec
  /-- a double-bit data error in the sector read -/
  | ded
  /-- the tag of this way of the set fails its parity, and what the directory entry's words read as -/
  | tagPar (way : Fin 16) (dir : DirCheck)
  /-- a single-bit error in a directory word of this way, its tag parity good -/
  | dirSec (way : Fin 16)
  /-- an uncorrectable directory word of this way, its tag parity good -/
  | dirWord (way : Fin 16)
  /-- a corrected single-bit error in the port's own buffers (R52) -/
  | portSec
  deriving DecidableEq, Repr

/-- One finding of the scrub's visit to a set (R71): a way and what it read as; `sector` tells which sector of the
line a data error lies in. -/
structure ScrubFinding where
  way : Fin 16
  sector : Fin 4
  found : ArrayCheck
  deriving DecidableEq, Repr

/-- Whose data a decode finished: the demand read of a context, the background or merge sense of a bank. -/
inductive DecodeSource where
  | demand (tag : BitVec 16)
  | bank (b : BankId)
  deriving DecidableEq, Repr

/-- The errors of a codeword that the decode pass meets (R148): how many bits, and whether the soft map lists every erroneous
cell. -/
structure BitErrors where
  bits : Nat
  listed : Bool
  deriving DecidableEq, Repr

/-- The outcomes of the single decode pass (R103). -/
inductive DecodeOutcome where
  | clean
  | softCorrected
  | failed
  deriving DecidableEq, Repr

/-- Soft counts of one boundary (R101, R167): values 01, 10 and 11. -/
structure SoftCount where
  n01 : Nat
  n10 : Nat
  n11 : Nat
  deriving DecidableEq, Repr

/-- The soft map of a read (R102): its overflow flag and its counts for the three boundaries. -/
structure SoftMap where
  overflow : Bool
  b0 : SoftCount
  b1 : SoftCount
  b2 : SoftCount
  deriving DecidableEq, Repr

/-- A die's event frame (R176), less its kind, which is the command. -/
structure EventFrame where
  w : Wheel
  d : Die
  bank : Bank
  id : Byte
  detail : Byte
  crc : Byte
  deriving DecidableEq, Repr

/-- One way of one set of a slice (R61). -/
structure WayId where
  slice : Wheel
  set : Fin 4096
  way : Fin 16
  deriving DecidableEq, Repr

/-- What RECOVER's reads of the media give (R193, R197): the checkpoint slots whose seal block has a bad MAGIC or CRC, those whose
digest does not match, the drain index lines that do not read with good MAGIC and CRC, and the drain slots that fail to decode. -/
structure RecoverReads where
  badSeal : List (Fin 4)
  badDigest : List (Fin 4)
  /-- (area, wheel, index line) -/
  badIndex : List (Fin 2 × Wheel × Nat)
  /-- (area, wheel, slot) -/
  badSlot : List (Fin 2 × Wheel × Nat)
  deriving DecidableEq, Repr

/-- A sequencer target (R218): a channel, or a gang when G is set. -/
inductive Target where
  | chan (c : Chan)
  | gang (g : Fin 8)
  deriving DecidableEq, Repr

/-- A sync-ring frame less its comma and type (R310). -/
structure RingFrame where
  origin : Devid
  hops : Fin 16
  epoch : Byte
  payload : BitVec 64
  delay : BitVec 16
  crc : BitVec 16
  deriving DecidableEq, Repr

/-- MWR (R320): SECT, TAG, SLOT, LINE and DATA. -/
structure MwrMsg where
  sect : Byte
  tag : BitVec 16
  slot : BitVec 16
  line : BitVec 32
  data : Sector
  deriving DecidableEq, Repr

/-- RSYNC (R320): the poison mask, SLOT, LINE and a media line. -/
structure RsyncMsg where
  sp : BitVec 4
  slot : BitVec 16
  line : BitVec 32
  data : Line
  deriving DecidableEq, Repr

/-- CONFIG (R320): identity, state flags, mirror base and mirrored regions; `bitmap` lists the set bits. The flags
are those of TND_STATUS the message carries (`peerCopy`, `own`, `diverged`). -/
structure ConfigMsg where
  serial : BitVec 64
  configuration : Byte
  peerCopy : Fin 4
  own : Fin 4
  diverged : Bool
  mirrorBase : BitVec 16
  mirrored : BitVec 16
  bitmap : List Nat
  deriving DecidableEq, Repr

/-- The registers of one HDM decoder as the host commits it (R45, R46). -/
structure DecoderWords where
  base : Nat
  size : Nat
  skip : Nat
  iw : BitVec 4
  ig : BitVec 4
  lock : Bool
  deriving DecidableEq, Repr

/-- The three mailbox transports (R332). -/
inductive Transport where
  | primary
  | secondary
  | mctp
  deriving DecidableEq, Repr

/-- The two transports of the SPDM responder (R56). -/
inductive SpdmTransport where
  | doe
  | mctp
  deriving DecidableEq, Repr

/-- What an SPDM request brings that the manual speaks of: the session it names, the certificate slot, the
measurement index, and its data. -/
structure SpdmMessage where
  session : BitVec 32
  slot : Fin 8
  index : Byte
  data : List Byte
  deriving DecidableEq, Repr

/-- A key-management request (R56): the secured session it came over, whether it starts or stops a stream's keys, and
the mode (containment or skid). -/
structure IdeKmMessage where
  session : BitVec 32
  go : Bool
  skid : Bool
  deriving DecidableEq, Repr

/-- How a register write arrives: the host's through BAR0 (R39, R59), the host's configuration write of the CXL DVSEC's Control
register or of its Range 1 base (R38; the address is not looked at), or the controller's own firmware. -/
inductive WritePath where
  | bar0
  | dvsecControl
  | rangeBaseLow
  | rangeBaseHigh
  | firmware
  deriving DecidableEq, Repr

/-- The commands, one constructor for each row of the opcode table, in its order, those without operands after the others
(Lean's compiler takes fewer than 245 constructors with operands). -/
inductive Instr where
  /-- MEMRD (R58). A MemRd request is decoded, looked up and answered from cache, media or per R49. -/
  | memrd (tag : BitVec 16) (hpa : Nat) (t : Nat) (chk : ArrayCheck)
  /-- MEMRDDATA (R58). A MemRdData request is handled as a load. -/
  | memrddata (tag : BitVec 16) (hpa : Nat) (t : Nat) (chk : ArrayCheck)
  /-- MEMWR (R50). A MemWr full-sector store is written into the cache and acknowledged per condition and mirroring. -/
  | memwr (tag : BitVec 16) (hpa : Nat) (t : Nat) (data : Sector) (poison : Bool) (chk : ArrayCheck)
  /-- MEMWRPTL (R48). A MemWrPtl writes the enabled bytes, merging from media first when the sector is invalid. -/
  | memwrptl (tag : BitVec 16) (hpa : Nat) (t : Nat) (data : Sector) (be : BitVec 64) (poison : Bool) (chk : ArrayCheck)
  /-- MEMINV (R89). A MemInv completes at once with Cmp and changes nothing. -/
  | meminv (tag : BitVec 16) (hpa : Nat)
  /-- MEMINVNT (R89). A MemInvNT completes at once with Cmp and changes nothing. -/
  | meminvnt (tag : BitVec 16) (hpa : Nat)
  /-- MEMSPECRD (R89). A MemSpecRd is accepted and dropped without a response or context. -/
  | memspecrd (hpa : Nat)
  /-- DEMAND_READ_DISPATCH (R108). The bank gate dispatches a demand sense when the bank is ready and books its bus window. -/
  | demandReadDispatch (tag : BitVec 16) (t : Nat)
  /-- SENSE_LATCHED (R107). A sense completes and the line is held in the bank's output latch. -/
  | senseLatched (b : BankId) (t : Nat)
  /-- DEMAND_WINDOW_START (R108). A booked demand bus window starts and the latched line is transferred. -/
  | demandWindowStart (tag : BitVec 16) (t : Nat)
  /-- NON_DEMAND_TRANSFER (R108). A non-demand transfer starts on the bus when it can end before the next booked window. -/
  | nonDemandTransfer (b : BankId) (t : Nat)
  /-- DECODE_COMPLETE (R103). The single-pass soft decode ends clean, soft-corrected or failed, and the sector is selected. -/
  | decodeComplete (src : DecodeSource) (errs : BitErrors) (soft : SoftMap) (t : Nat)
  /-- RESPONSE_TRANSMIT (R91). A ready response leaves in earliest-deadline order and the context is freed. -/
  | responseTransmit (tag : BitVec 16) (t : Nat)
  /-- BACKGROUND_AGE_PROMOTION (R95). A background entry that has waited 64 ticks goes ahead of write entries once. -/
  | backgroundAgePromotion (b : BankId)
  /-- SUSPEND_LONG (R98). A program suspended for 100 us is counted in SPKg_SUSP_LONG. -/
  | suspendLong (b : BankId)
  /-- JOB_COMPLETE (R106). A cross-wheel decode or bookkeeping job posts its result as a completion. -/
  | jobComplete (w : Wheel) (s : Fin 16)
  /-- PROGRAM_VERIFIED (R176). A kind 0 event frame reports a program verified, completing write-back, drain, copy or training writes. -/
  | programVerified (f : EventFrame)
  /-- VERIFY_FAILED (R155). A kind 1 event frame reports a verify failure, leading to retry or retirement. -/
  | verifyFailed (f : EventFrame)
  /-- SUSPENDED_AT_SAFE_POINT (R96). A kind 2 event frame reports a program suspended at a safe point. -/
  | suspendedAtSafePoint (f : EventFrame)
  /-- CA_CRC_ERROR (R173). A kind 3 event frame reports a command packet CRC error and the wheel reissues the packet. -/
  | caCrcError (f : EventFrame)
  /-- WRITE_CRC_ERROR (R175). A kind 4 event frame reports a write-data CRC error and the wheel resends PROG. -/
  | writeCrcError (f : EventFrame)
  /-- TAG_OPERATION_DONE (R174). A kind 5 event frame reports a TAGCLR or TAGAGE complete. -/
  | tagOperationDone (f : EventFrame)
  /-- THERMAL_LIMIT (R176). A kind 6 event frame reports a die thermal limit. -/
  | thermalLimit (f : EventFrame)
  /-- SELF_CHECK_RESULT (R178). A kind 7 event frame reports a die CHECK result; a fault latches BRAKE. -/
  | selfCheckResult (f : EventFrame)
  /-- BAND_MISMATCH (R174). A kind 8 event frame refuses a SENSE whose band mismatches; the wheel sends REFLOAD and the SENSE again. -/
  | bandMismatch (f : EventFrame)
  /-- ROW_FAULT (R155). A kind 9 event frame reports a row fault and the slot is retired. -/
  | rowFault (f : EventFrame)
  /-- MMB_ALERT (R172). A die asserts MMBn_ALERT_N for a fault or thermal alert. -/
  | mmbAlert (w : Wheel)
  /-- SCRUB_SET_VISIT (R71). The cache scrub visits a set, correcting words, checking parity and returning ways to use. -/
  | scrubSetVisit (w : Wheel) (found : List ScrubFinding)
  /-- PATROL_STEP (R162). Patrol visits its next slot, senses it and rewrites, refreshes or poisons weak lines; `t` is its stamp. -/
  | patrolStep (w : Wheel) (t : Nat)
  /-- DIE_TEMPERATURE_READ (R166). Every 1 ms the wheel reads each die's temperature and changes its band when needed. -/
  | dieTemperatureRead (w : Wheel) (d : Die) (celsius : Int)
  /-- DQS_DRIFT_TRACK (R178). Every 10 ms each wheel reads the die oscillator and corrects DQS delays. -/
  | dqsDriftTrack (w : Wheel)
  /-- RECALL_COMPLETE (R292). Saddlebag recall ends, AON_READY rises and DEVID straps are sampled. `corrected` names the page of each
corrected word, `ue` the pages with an uncorrectable word. -/
  | recallComplete (straps : Devid) (corrected : List Nat) (ue : List Nat)
  /-- VIN_FALL_TRIP (R214). The 12 V input falls through VIN_FALL, a freewheel trip. -/
  | vinFallTrip (t : Nat)
  /-- VIN_RISE (R214). The 12 V input rises above VIN_RISE and counts as good for the debounce; while it counts as good, the
  crossing is its fall back through VIN_RISE, from which on it counts as good no longer. -/
  | vinRise
  /-- PWRFAIL_N_ASSERT (R215). PWRFAIL_N goes low, a freewheel trip. -/
  | pwrfailNAssert (t : Nat)
  /-- HOLD_UV_TRIP (R216). The reservoir comparator trips during a drain, cutting the freewheel short at once; off hold-up
  energy, and while HOLD_LOW shows it, it is its release, once the sense is back by 4 codes (R212). -/
  | holdUvTrip
  /-- FIRMWARE_AUTHENTICATED (R189). The hub finishes loading and authenticating the firmware image, or latches BRAKE if both slots fail. -/
  | firmwareAuthenticated (newerOk : Bool) (otherOk : Bool)
  /-- MICROCODE_LOADED (R189). The spoke microcode load completes. -/
  | microcodeLoaded (version : BitVec 16)
  /-- RST_WAIT_END (R178). The 1 ms wait after RST_N release ends and CA training begins. -/
  | rstWaitEnd (w : Wheel)
  /-- TRAINING_COMPLETE (R178). Channel training ends, with RAMP completing or BRAKE on failure. -/
  | trainingComplete (w : Wheel) (passed : BitVec 8)
  /-- CACHE_TEST_COMPLETE (R190). The cache memory test finishes, taking bad ways out of use or latching BRAKE. -/
  | cacheTestComplete (badWays : List WayId) (otherBad : Bool)
  /-- RECOVER_READ_COMPLETE (R193). The checkpoint body, journal and drain index reads complete and the case is decided. -/
  | recoverReadComplete (r : RecoverReads)
  /-- UV_TRIP (R212). An undervoltage comparator trips on a rail sense. -/
  | uvTrip (c : Chan) (t : Nat)
  /-- OV_TRIP (R212). An overvoltage comparator trips on a rail sense. -/
  | ovTrip (c : Chan) (t : Nat)
  /-- PG_EDGE (R213). A rail PG edge is processed, completing waits, arming UV or raising PG_LOST. -/
  | pgEdge (c : Chan) (high : Bool) (t : Nat)
  /-- PG_TIMEOUT_EXPIRY (R219). A WAIT_PG or retry timeout expires without power good, a PG_TIMEOUT fault. -/
  | pgTimeoutExpiry (tgt : Target)
  /-- RETRY_BACKOFF_END (R228). A retry backoff ends and the target's enable request is placed. -/
  | retryBackoffEnd (tgt : Target)
  /-- MARGIN_SETTLE_END (R232). A margin's settling time ends and the new window is applied and checked. -/
  | marginSettleEnd (c : Chan)
  /-- TRIM_NEUTRAL_HOLD_END (R233). The 4-tick NEUTRAL hold of a trim output ends. -/
  | trimNeutralHoldEnd (c : Chan)
  /-- NOMINAL_SETTLE_END (R235). The 400-tick settling after a return to nominal ends and the stored window is restored. -/
  | nominalSettleEnd (c : Chan)
  /-- PMBUS_TRANSACTION_COMPLETE (R234). A PMBus transaction ends, retried once or faulted on NACK or PEC error. -/
  | pmbusTransactionComplete (port : Fin 2) (ok : Bool) (data : BitVec 16)
  /-- PMBUS_STRETCH_TIMEOUT (R380). PMBus clock stretching beyond 25 ms becomes a PMBUS fault. -/
  | pmbusStretchTimeout (port : Fin 2)
  /-- SLOT_DUE (R244). A converter schedule slot falls due and its conversion starts or is skipped. -/
  | slotDue (n : Conv)
  /-- TRIGGER_PERIOD_EXPIRY (R249). A periodic converter trigger fires every PERIOD ticks. -/
  | triggerPeriodExpiry (n : Conv)
  /-- CONVERSION_COMPLETE (R242). A conversion completes and its result feeds filters, limits, FIFO, ring and consumers. -/
  | conversionComplete (n : Conv) (u : BitVec 12)
  /-- INJECTED_REQUEST (R247). A write of MCVn_SEL with INJ places an injected conversion request. -/
  | injectedRequest (n : Conv) (ch : Fin 16)
  /-- CALIBRATION_START (R253). A write of MCVn_CAL.START starts a converter calibration. -/
  | calibrationStart (n : Conv)
  /-- DIAGNOSIS_START (R261). A write of MCV_DIAG.START starts a diagnosis of an input. -/
  | diagnosisStart (input : BitVec 7)
  /-- FIFO_READ (R260). A read of MCVn_FIFO2 removes the oldest FIFO entry. -/
  | fifoRead (n : Conv)
  /-- RECORD_WRITE_VERIFY (R279). A record's stored copies are read back and compared, degrading or going volatile on failure. -/
  | recordWriteVerify (aOk : Bool) (bOk : Bool)
  /-- LAZY_STORE_EXPIRY (R296). A dirty page left for LAZY_MS gets a store, and failed stores are retried. -/
  | lazyStoreExpiry (page : Fin 4096)
  /-- STORE_START (R297). A bank starts a page store when the supply and its capacitor allow. -/
  | storeStart (bank : Fin 16)
  /-- SADDLEBAG_STORE_COMPLETE (R297). A page store ends and verifies, or is repeated or failed. -/
  | saddlebagStoreComplete (bank : Fin 16) (ok : Bool)
  /-- CAPACITOR_RECHARGE (R297). A bank's storage capacitor recharges and CAP_OK sets. -/
  | capacitorRecharge (bank : Fin 16)
  /-- TIME_FRAME (R312). A TIME frame is received, aligning the GTC and forwarded. -/
  | timeFrame (f : RingFrame) (t : Nat)
  /-- PRESENT_FRAME (R311). A PRESENT frame is received, updating presence and duplicate checks. -/
  | presentFrame (f : RingFrame) (t : Nat)
  /-- BRAKE_FRAME (R317). A BRAKE frame from another device is recorded. -/
  | brakeFrame (f : RingFrame)
  /-- FAULT_FRAME (R317). A FAULT frame from another device is recorded. -/
  | faultFrame (f : RingFrame)
  /-- RECORD_FRAME (R317). A RECORD fragment arrives; a complete record is captured as PARTNER and acknowledged. -/
  | recordFrame (f : RingFrame)
  /-- RECACK_FRAME (R317). A RECACK frame confirms a forwarded record. -/
  | recackFrame (f : RingFrame)
  /-- TANDEM_LINK_UP (R320). The tandem link trains and CONFIG is exchanged. -/
  | tandemLinkUp (x4at64 : Bool)
  /-- MACK_DEADLINE (R323). A mirrored store reaches its deadline without MACK and the link is declared lost. -/
  | mackDeadline (tag : BitVec 16)
  /-- MWR (R322). A mirrored sector arrives and is written into the holder's persistence domain. -/
  | mwr (m : MwrMsg)
  /-- MACK (R322). A MACK arrives and the mirrored store is acknowledged. -/
  | mack (tag : BitVec 16)
  /-- MCRED (R321). Mirror credits are granted by the holder. -/
  | mcred (count : BitVec 16)
  /-- MREL (R322). The holder releases an extent of a mirror slot. -/
  | mrel (slot : BitVec 16) (extent : BitVec 16)
  /-- RSYNC (R327). A resynchronised line arrives and is kept unless MWR wrote it since. -/
  | rsync (m : RsyncMsg)
  /-- RDONE (R327). An extent's resynchronisation is complete and its divergence bit clears. -/
  | rdone (slot : BitVec 16) (extent : BitVec 16)
  /-- CONFIG (R320). A CONFIG message is checked for identity, configuration and region match. -/
  | config (m : ConfigMsg)
  /-- ROLE (R326). A ROLE message returns promoted regions to their owner. -/
  | role (reqAck : Byte)
  /-- LINK_TRAINED (R33). Link training settles and CXL.mem is enabled or the port is marked degraded. -/
  | linkTrained (width : Nat) (rate : Fin 6)
  /-- LINK_RETRAIN (R34). The link retrains while CXL.mem is enabled. -/
  | linkRetrain (width : Nat) (rate : Fin 6)
  /-- FLIT_CRC_THRESHOLD (R52). Flit CRC or retry thresholds are reached and a correctable error is reported. -/
  | flitCrcThreshold (retry : Bool)
  /-- HDM_DECODER_COMMIT (R45). Setting Commit on an HDM decoder commits it or sets Error Not Committed. -/
  | hdmDecoderCommit (n : Fin 8) (v : DecoderWords)
  /-- DOE_DISCOVERY (R37). A DOE Discovery request lists the supported DOE protocols. -/
  | doeDiscovery (index : Byte)
  /-- CXL_TABLE_ACCESS (R44). A DOE Table Access request returns CDAT entries. -/
  | cxlTableAccess (entry : BitVec 16)
  /-- CXL_IDE_KM (R56). CXL_IDE_KM programs CXL.mem IDE keys over an SPDM session. -/
  | cxlIdeKm (m : IdeKmMessage)
  /-- IDE_KM (R56). IDE_KM programs the CXL.io link IDE stream. -/
  | ideKm (m : IdeKmMessage)
  /-- GET_VERSION (R56). SPDM GET_VERSION request. -/
  | getVersion (via : SpdmTransport) (m : SpdmMessage)
  /-- GET_CAPABILITIES (R56). SPDM GET_CAPABILITIES request. -/
  | getCapabilities (via : SpdmTransport) (m : SpdmMessage)
  /-- NEGOTIATE_ALGORITHMS (R56). SPDM NEGOTIATE_ALGORITHMS request. -/
  | negotiateAlgorithms (via : SpdmTransport) (m : SpdmMessage)
  /-- GET_DIGESTS (R56). SPDM GET_DIGESTS request. -/
  | getDigests (via : SpdmTransport) (m : SpdmMessage)
  /-- GET_CERTIFICATE (R56). SPDM GET_CERTIFICATE request. -/
  | getCertificate (via : SpdmTransport) (m : SpdmMessage)
  /-- CHALLENGE (R56). SPDM CHALLENGE request. -/
  | challenge (via : SpdmTransport) (m : SpdmMessage)
  /-- GET_MEASUREMENTS (R56). SPDM GET_MEASUREMENTS request returning five measurement indices. -/
  | getMeasurements (via : SpdmTransport) (m : SpdmMessage)
  /-- KEY_EXCHANGE (R56). SPDM KEY_EXCHANGE request opening a secured session. -/
  | keyExchange (via : SpdmTransport) (m : SpdmMessage)
  /-- FINISH (R56). SPDM FINISH request. -/
  | finish (via : SpdmTransport) (m : SpdmMessage)
  /-- KEY_UPDATE (R56). SPDM KEY_UPDATE request. -/
  | keyUpdate (via : SpdmTransport) (m : SpdmMessage)
  /-- HEARTBEAT (R56). SPDM HEARTBEAT request. -/
  | heartbeat (via : SpdmTransport) (m : SpdmMessage)
  /-- END_SESSION (R56). SPDM END_SESSION request. -/
  | endSession (via : SpdmTransport) (m : SpdmMessage)
  /-- GET_CSR (R56). SPDM GET_CSR request. -/
  | getCsr (via : SpdmTransport) (m : SpdmMessage)
  /-- SET_CERTIFICATE (R56). SPDM SET_CERTIFICATE writes an owner slot in MAINTENANCE. -/
  | setCertificate (via : SpdmTransport) (m : SpdmMessage)
  /-- SET_ENDPOINT_ID (R345). MCTP control Set Endpoint ID. -/
  | setEndpointId (eid : Byte)
  /-- IDENTIFY (R338). Standard Identify command. -/
  | identify (via : Transport) (input : List Byte)
  /-- BACKGROUND_OPERATION_STATUS (R335). Reports the running background operation and its progress. -/
  | backgroundOperationStatus (via : Transport) (input : List Byte)
  /-- REQUEST_ABORT_BACKGROUND_OPERATION (R336). Requests the running background operation to stop at its next safe point. -/
  | requestAbortBackgroundOperation (via : Transport) (input : List Byte)
  /-- GET_EVENT_RECORDS (R53). Returns records from an event log. -/
  | getEventRecords (via : Transport) (input : List Byte)
  /-- CLEAR_EVENT_RECORDS (R53). Clears records from an event log. -/
  | clearEventRecords (via : Transport) (input : List Byte)
  /-- GET_EVENT_INTERRUPT_POLICY (R338). Returns the event interrupt policy. -/
  | getEventInterruptPolicy (via : Transport) (input : List Byte)
  /-- SET_EVENT_INTERRUPT_POLICY (R338). Sets the MSI-X event interrupt policy. -/
  | setEventInterruptPolicy (via : Transport) (input : List Byte)
  /-- GET_FW_INFO (R338). Returns firmware slot information. -/
  | getFwInfo (via : Transport) (input : List Byte)
  /-- TRANSFER_FW (R338). Transfers a firmware image part into the slot not running. -/
  | transferFw (via : Transport) (input : List Byte)
  /-- ACTIVATE_FW (R338). Activates firmware offline or online as a background operation. -/
  | activateFw (via : Transport) (input : List Byte)
  /-- FW_ACTIVATION_COMPLETE (R338). Online activation finishes restarting on the new image and raises vector 6. -/
  | fwActivationComplete (authentic : Bool)
  /-- GET_TIMESTAMP (R338). Returns the timestamp. -/
  | getTimestamp (via : Transport) (input : List Byte)
  /-- SET_TIMESTAMP (R338). Sets the timestamp and captures a TIMESTAMP record. -/
  | setTimestamp (via : Transport) (input : List Byte)
  /-- GET_SUPPORTED_LOGS (R338). Lists the Command Effects Log. -/
  | getSupportedLogs (via : Transport) (input : List Byte)
  /-- GET_LOG (R338). Returns the Command Effects Log. -/
  | getLog (via : Transport) (input : List Byte)
  /-- IDENTIFY_MEMORY_DEVICE (R42). Reports capacities and log sizes of the configuration. -/
  | identifyMemoryDevice (via : Transport) (input : List Byte)
  /-- GET_PARTITION_INFO (R338). Reports no partitionable capacity. -/
  | getPartitionInfo (via : Transport) (input : List Byte)
  /-- SET_PARTITION_INFO (R338). Unsupported set-partition command returning 0003h. -/
  | setPartitionInfo (via : Transport) (input : List Byte)
  /-- GET_LSA (R338). Reads the label storage area from the saddlebag. -/
  | getLsa (via : Transport) (input : List Byte)
  /-- SET_LSA (R338). Writes and stores the label storage area unless protected. -/
  | setLsa (via : Transport) (input : List Byte)
  /-- GET_HEALTH_INFO (R54). Reports health, media status, life, temperature and counts. -/
  | getHealthInfo (via : Transport) (input : List Byte)
  /-- GET_ALERT_CONFIGURATION (R338). Returns the alert configuration. -/
  | getAlertConfiguration (via : Transport) (input : List Byte)
  /-- SET_ALERT_CONFIGURATION (R338). Sets the alert configuration. -/
  | setAlertConfiguration (via : Transport) (input : List Byte)
  /-- GET_SHUTDOWN_STATE (R54). Returns the stored shutdown state. -/
  | getShutdownState (via : Transport) (input : List Byte)
  /-- SET_SHUTDOWN_STATE (R54). Stores the host's shutdown state without changing the dirty shutdown count. -/
  | setShutdownState (via : Transport) (input : List Byte)
  /-- GET_POISON_LIST (R51). Returns the poison list. -/
  | getPoisonList (via : Transport) (input : List Byte)
  /-- INJECT_POISON (R338). Injects poison into up to 64 sectors. -/
  | injectPoison (via : Transport) (input : List Byte)
  /-- CLEAR_POISON (R338). Clears poison by a full-sector store of the supplied data. -/
  | clearPoison (via : Transport) (input : List Byte)
  /-- SCAN_MEDIA (R338). Background operation reading every line of a range once. -/
  | scanMedia (via : Transport) (input : List Byte)
  /-- GET_SCAN_MEDIA_CAPABILITIES (R338). Returns Scan Media capabilities. -/
  | getScanMediaCapabilities (via : Transport) (input : List Byte)
  /-- GET_SCAN_MEDIA_RESULTS (R338). Returns Scan Media results. -/
  | getScanMediaResults (via : Transport) (input : List Byte)
  /-- SANITIZE (R339). Performs the crypto erase in MAINTENANCE. -/
  | sanitize (via : Transport) (input : List Byte)
  /-- SECURE_ERASE (R339). Performs the crypto erase in MAINTENANCE. -/
  | secureErase (via : Transport) (input : List Byte)
  /-- UNSUPPORTED_OPCODE (R338). An unlisted standard or vendor opcode returns 0003h Unsupported. -/
  | unsupportedOpcode (via : Transport) (opcode : BitVec 16)
  /-- GET_DEVICE_STATUS (R346). Returns configuration, mode, condition, serial and GTC. -/
  | getDeviceStatus (via : Transport) (input : List Byte)
  /-- NONCE_FETCH (R340). Get Device Status with NONCE_REQ issues a fresh nonce for the transport. -/
  | nonceFetch (via : Transport) (input : List Byte)
  /-- NONCE_EXPIRY (R340). A nonce expires 60 s after issue. -/
  | nonceExpiry (via : Transport)
  /-- CHANGE_MODE_RAMP (R347). Change Mode TARGET 2 requests RAMP from STANDBY. -/
  | changeModeRamp (via : Transport) (input : List Byte)
  /-- CHANGE_MODE_SERVICE (R202). Change Mode TARGET 4 returns from MAINTENANCE to SERVICE. -/
  | changeModeService (via : Transport) (input : List Byte)
  /-- CHANGE_MODE_MAINTENANCE (R200). Authorised Change Mode TARGET 5 requests MAINTENANCE. -/
  | changeModeMaintenance (via : Transport) (input : List Byte)
  /-- BRAKE_RELEASE (R205). Authorised Brake Release leaves the hold for STANDBY. -/
  | brakeRelease (via : Transport) (input : List Byte)
  /-- SET_OWNER_KEY (R343). Stores the 256-bit owner key twice in the key area. -/
  | setOwnerKey (via : Transport) (input : List Byte)
  /-- CRYPTO_ERASE (R339). Vendor crypto erase regenerating keys and clearing cache and media. -/
  | cryptoErase (via : Transport) (input : List Byte)
  /-- GET_SERVICE_CONFIG (R346). Returns the stored service configuration words. -/
  | getServiceConfig (via : Transport) (input : List Byte)
  /-- SET_SERVICE_CONFIG (R347). Stores the RW fields of the service configuration words. -/
  | setServiceConfig (via : Transport) (input : List Byte)
  /-- GET_BACKGROUND_RESULT (R335). Returns the output of the last background operation. -/
  | getBackgroundResult (via : Transport) (input : List Byte)
  /-- GET_RAIL_CONFIG (R348). Returns a rail table, channel configuration or globals. -/
  | getRailConfig (via : Transport) (input : List Byte)
  /-- SET_RAIL_TABLE (R349). Checks and stores a power-up table. -/
  | setRailTable (via : Transport) (input : List Byte)
  /-- SET_RAIL_CHANNEL (R349). Checks and stores a channel's configuration. -/
  | setRailChannel (via : Transport) (input : List Byte)
  /-- SET_RAIL_GLOBALS (R349). Checks and stores gangs, input thresholds, inrush and sequencer configuration. -/
  | setRailGlobals (via : Transport) (input : List Byte)
  /-- MARGIN_RAIL_TRIM (R232). Margin Rail ACTION 0 moves a rail by trim to a target code. -/
  | marginRailTrim (via : Transport) (input : List Byte)
  /-- MARGIN_RAIL_HIGH (R234). Margin Rail ACTION 1 sets PMBus margin high. -/
  | marginRailHigh (via : Transport) (input : List Byte)
  /-- MARGIN_RAIL_LOW (R234). Margin Rail ACTION 2 sets PMBus margin low. -/
  | marginRailLow (via : Transport) (input : List Byte)
  /-- MARGIN_RAIL_SETPOINT (R234). Margin Rail ACTION 3 writes a PMBus setpoint. -/
  | marginRailSetpoint (via : Transport) (input : List Byte)
  /-- MARGIN_RAIL_NOMINAL (R235). Margin Rail ACTION 4 returns the rail to nominal. -/
  | marginRailNominal (via : Transport) (input : List Byte)
  /-- RAIL_COMMAND_ENABLE (R349). Rail Command enables a channel or gang through admission. -/
  | railCommandEnable (via : Transport) (input : List Byte)
  /-- RAIL_COMMAND_DISABLE (R349). Rail Command disables a non-CRIT channel or gang. -/
  | railCommandDisable (via : Transport) (input : List Byte)
  /-- READ_RECORDS (R282). Returns recorder slots resolved by the copy rules. -/
  | readRecords (via : Transport) (input : List Byte)
  /-- READ_CURSOR (R283). Returns records in SEQ order from a cursor. -/
  | readCursor (via : Transport) (input : List Byte)
  /-- GET_SNAPSHOT_LIST (R350). Returns a class's snapshot list and LIST_ID. -/
  | getSnapshotList (via : Transport) (input : List Byte)
  /-- CLEAR_RECORDER (R285). Authorised clear of the circulating area. -/
  | clearRecorder (via : Transport) (input : List Byte)
  /-- SET_SNAPSHOT_LIST (R351). Stores a class's snapshot list with a new LIST_ID. -/
  | setSnapshotList (via : Transport) (input : List Byte)
  /-- READ_PAGES (R351). Reads saddlebag working-copy bytes outside the key area. -/
  | readPages (via : Transport) (input : List Byte)
  /-- WRITE_PAGES (R351). Writes and stores saddlebag pages in the allowed ranges. -/
  | writePages (via : Transport) (input : List Byte)
  /-- SET_SADDLEBAG_PROTECTION (R302). Authorised change of the block-protection setting. -/
  | setSaddlebagProtection (via : Transport) (input : List Byte)
  /-- GET_CONVERTER_CONFIG (R352). Returns a converter's configuration, trigger, slots and calibration. -/
  | getConverterConfig (via : Transport) (input : List Byte)
  /-- SET_CONVERTER_SCHEDULE (R353). Checks and stores a converter schedule. -/
  | setConverterSchedule (via : Transport) (input : List Byte)
  /-- SET_INPUT_CONFIG (R352). Stores an input's filter and limit configuration or the junction limits. -/
  | setInputConfig (via : Transport) (input : List Byte)
  /-- CALIBRATE_CONVERTER (R353). Runs a converter calibration in MAINTENANCE. -/
  | calibrateConverter (via : Transport) (input : List Byte)
  /-- DIAGNOSE_INPUT (R353). Runs a path diagnosis of an input. -/
  | diagnoseInput (via : Transport) (input : List Byte)
  /-- GET_LEDGER_STATUS (R352). Returns the LDG registers, E_base and e_cover. -/
  | getLedgerStatus (via : Transport) (input : List Byte)
  /-- SET_LEDGER_CONFIG (R353). Stores ledger constants, refusing promise-raising changes outside MAINTENANCE. -/
  | setLedgerConfig (via : Transport) (input : List Byte)
  /-- MEASURE_CAPACITANCE (R353). Background capacitance measurement from step 1 of R120. -/
  | measureCapacitance (via : Transport) (input : List Byte)
  /-- GET_CACHE_STATUS (R354). Returns cache mode and per-slice status. -/
  | getCacheStatus (via : Transport) (input : List Byte)
  /-- SET_CACHE_MODE_NORMAL (R82). Returns the cache to normal mode from the next tick. -/
  | setCacheModeNormal (via : Transport) (input : List Byte)
  /-- SET_CACHE_MODE_BYPASS (R81). Background flush of dirty lines into bypass mode. -/
  | setCacheModeBypass (via : Transport) (input : List Byte)
  /-- LOCK_CACHE_LINES (R75). Background fill and lock of lines in the given ranges. -/
  | lockCacheLines (via : Transport) (input : List Byte)
  /-- UNLOCK_CACHE_LINES (R75). Clears locks of the given ranges or of all lines. -/
  | unlockCacheLines (via : Transport) (input : List Byte)
  /-- SET_SCRATCH_CARVE_OUT (R80). Stores a new scratch size applied at the next SERVICE entry. -/
  | setScratchCarveOut (via : Transport) (input : List Byte)
  /-- RELEASE_RANGE (R158). Releases whole 2 MiB extents, zeroing reads and queueing TAGCLRs. -/
  | releaseRange (via : Transport) (input : List Byte)
  /-- GET_RELEASE_BITMAP (R354). Returns bits of the release bitmap. -/
  | getReleaseBitmap (via : Transport) (input : List Byte)
  /-- GET_MEDIA_STATUS (R354). Returns placement, patrol and checkpoint registers. -/
  | getMediaStatus (via : Transport) (input : List Byte)
  /-- SET_PATROL (R355). Stores patrol settings and optionally restarts the pass. -/
  | setPatrol (via : Transport) (input : List Byte)
  /-- GET_PELOTON_STATUS (R356). Returns the PEL registers. -/
  | getPelotonStatus (via : Transport) (input : List Byte)
  /-- SET_PELOTON_CONFIG (R357). Stores PEL_CFG in MAINTENANCE. -/
  | setPelotonConfig (via : Transport) (input : List Byte)
  /-- GET_TANDEM_STATUS (R356). Returns the TND registers, partner serial and region bitmap. -/
  | getTandemStatus (via : Transport) (input : List Byte)
  /-- SET_TANDEM_CONFIGURATION (R357). Stores TND_CFG, the partner serial and the mirrored-region bitmap. -/
  | setTandemConfiguration (via : Transport) (input : List Byte)
  /-- PROMOTE_MIRROR_HOLDER (R326). Authorised promotion of the partner's mirror on the holder side. -/
  | promoteMirrorHolder (via : Transport) (input : List Byte)
  /-- PROMOTE_MIRROR_OWNER (R326). Authorised return of promoted regions to their owner. -/
  | promoteMirrorOwner (via : Transport) (input : List Byte)
  /-- READ_REGISTERS (R358). Reads registers through the pass-through address map. -/
  | readRegisters (via : Transport) (input : List Byte)
  /-- WRITE_REGISTERS (R359). Writes masked register entries in one tick in MAINTENANCE. -/
  | writeRegisters (via : Transport) (input : List Byte)
  /-- REGISTER_WRITE (R9). A write to a register without its own row acts by its fields' access codes. -/
  | registerWrite (path : WritePath) (addr : BitVec 24) (value : BitVec 32)
  /-- PRESENT_HEARD_EXPIRY (R329). When no PRESENT frame has come from device d for 256 us, bit d of PEL_PRESENT.HEARD clears. -/
  | presentHeardExpiry (d : Devid)
  /-- STORE_SUPPLY_THRESHOLD (R297). The internal AON supply crosses 2.5 V, so SBG_STATUS.SUPPLY_OK changes and saddlebag stores stop or may start again. -/
  | storeSupplyThreshold (ok : Bool)
  /-- COMPARATOR_RELEASE (R212). A tripped UV or OV window comparator releases once its sense is back by 4 codes, clearing its tripped state. -/
  | comparatorRelease (c : Chan) (ov : Bool)
  /-- SHADOW_READ_COMPLETE (R304). A refresh margin read of one saddlebag page from the shadow ends, and the page is judged weak or not before the next read. -/
  | shadowReadComplete (page : Fin 4096) (differs : Bool)
  /-- CADENCE_TICK (R18). The 250 ns cadence tick boundary starts the tick's supervisor, ledger, admission and drafting work. -/
  | cadenceTick
  /-- EPOCH_ADVANCE (R164). The epoch length expires and TAGAGE is issued to every bank before PE advances. -/
  | epochAdvance
  /-- SERVICE_CHECKPOINT_DUE (R169). The checkpoint period expires and the hub writes a KIND 1 checkpoint. -/
  | serviceCheckpointDue
  /-- VAON_POWER_ON (R185). VAON rises through its power-on threshold and the controller leaves OFF. -/
  | vaonPowerOn
  /-- RECORDER_SCAN_COMPLETE (R277). The recorder scan ends, sets the write pointer and sequence, and captures AON_UP. -/
  | recorderScanComplete
  /-- VAON_POWER_OFF (R185). VAON falls below its power-off threshold and the controller enters OFF. -/
  | vaonPowerOff
  /-- VAON_WARNING (R300). VAON falls below its warning threshold and autostore starts. -/
  | vaonWarning
  /-- VAON_WARN_CLEAR (R364). The VAON warning clears after 1 ms above the threshold. -/
  | vaonWarnClear
  /-- PWRFAIL_N_DEASSERT (R215). PWRFAIL_N returns high, allowing the debounce to run. -/
  | pwrfailNDeassert
  /-- FREEWHEEL_T1 (R133). At T+1 drain queues open, autostore starts, the record and checkpoint counter are written and quiesce begins. -/
  | freewheelT1
  /-- AUTOSTORE_COMPLETE (R300). Autostore finishes in every bank, allowing the seal to start. -/
  | autostoreComplete
  /-- DEBOUNCE_EXPIRY (R185). The input has been good for DEBOUNCE_MS and STANDBY moves to RAMP. -/
  | debounceExpiry
  /-- CORE_RAIL_DETECT (R368). The VDD_CORE detector goes good and the hub boot ROM starts. -/
  | coreRailDetect
  /-- MMB_RAIL_DETECT (R368). The VDDIO_MMB detector goes good, gating channel training. -/
  | mmbRailDetect
  /-- SRAM_RAIL_DETECT (R368). The VDD_SRAM detector goes good and the cache memory test starts. -/
  | sramRailDetect
  /-- MAINTENANCE_ENTRY (R200). MAINTENANCE is entered in the tick after the authorised mode change. -/
  | maintenanceEntry
  /-- SERVICE_RETURN (R202). SERVICE is re-entered once margins are nominal and calibration has finished. -/
  | serviceReturn
  /-- BRAKE_T1 (R204). From T+1 of a brake the drain runs or the rails are lowered. -/
  | brakeT1
  /-- HUB_WATCHDOG_EXPIRY (R203). The 250 ms hub watchdog expires and BRAKE is latched with drain. -/
  | hubWatchdogExpiry
  /-- HUB_MEMORY_ERROR (R203). An uncorrectable hub memory error latches BRAKE with drain. -/
  | hubMemoryError
  /-- PORT_BUFFER_ERROR (R52). An uncorrectable error in the port's own buffers latches BRAKE. -/
  | portBufferError
  /-- GANG_SYNC_TIMEOUT (R219). A GANG_SYNC timeout expires without agreement, a GANG_SKEW fault. -/
  | gangSyncTimeout
  /-- WAIT_TICKS_EXPIRY (R219). A WAIT_TICKS count expires and the step completes. -/
  | waitTicksExpiry
  /-- OFF_DELAY_EXPIRY (R225). A power-down OFF_DELAY passes and the next log entry is lowered or power-down completes. -/
  | offDelayExpiry
  /-- END (R219). Sequence instruction END completes the power-up sequence. -/
  | seqEnd
  /-- ENABLE (R219). Sequence instruction ENABLE places an enable request for the target. -/
  | seqEnable
  /-- DISABLE (R219). Sequence instruction DISABLE drives the target's disable edge. -/
  | seqDisable
  /-- WAIT_PG (R219). Sequence instruction WAIT_PG waits for the target's power good. -/
  | waitPg
  /-- WAIT_TICKS (R219). Sequence instruction WAIT_TICKS waits a number of ticks. -/
  | waitTicks
  /-- CHECK_WINDOW (R219). Sequence instruction CHECK_WINDOW faults a target whose comparator is tripped. -/
  | checkWindow
  /-- GANG_SYNC (R219). Sequence instruction GANG_SYNC waits until a gang's EN and power good agree. -/
  | gangSync
  /-- BRANCH_ON_FAULT (R219). Sequence instruction BRANCH_ON_FAULT branches forward if FAULT_SEEN is set. -/
  | branchOnFault
  /-- SLOT_UNSYNC_TIMEOUT (R224). 10 ms after RAMP entry without alignment the device admits on its own GTC. -/
  | slotUnsyncTimeout
  /-- CAP_TEST_DUE (R120). The capacitance test period expires and a measurement begins. -/
  | capTestDue
  /-- CAP_TEST_DEFER_END (R120). A one-minute test deferral ends. -/
  | capTestDeferEnd
  /-- CAP_TEST_DISCARD_END (R120). The first 16 us of the test load end and recording starts. -/
  | capTestDiscardEnd
  /-- CAP_TEST_TIMEOUT (R121). 20 ms pass without the 2 % drop and the measurement is rejected. -/
  | capTestTimeout
  /-- RECORD_CAPTURE (R270). An event is captured in the tick after it lands, numbered and queued. -/
  | recordCapture
  /-- RECORD_WRITE_START (R275). The recorder takes the head of the queue and writes it to its slots. -/
  | recordWriteStart
  /-- RECACK_TIMEOUT (R317). No RECACK arrives within 100 us and the record is resent or FWD_FAIL set. -/
  | recackTimeout
  /-- REFRESH_PASS_START (R304). The 24-hour saddlebag refresh pass begins reading clean pages. -/
  | refreshPassStart
  /-- TIME_FRAME_SEND (R310). Every 16 ticks a master sends a TIME frame. -/
  | timeFrameSend
  /-- PRESENT_FRAME_SEND (R310). Every 256 ticks a device sends a PRESENT frame. -/
  | presentFrameSend
  /-- MASTER_LOSS_TIMEOUT (R315). No TIME frame from the master for 16 us; the device follows another or becomes master. -/
  | masterLossTimeout
  /-- MASTER_CLAIM_WINDOW_END (R313). The 1 ms window after AON power-up ends for master election. -/
  | masterClaimWindowEnd
  /-- SPLIT_CLEAR (R315). 256 us of single-epoch TIME frames clear SPLIT. -/
  | splitClear
  /-- TANDEM_LINK_DOWN (R323). The tandem physical link goes down and the link is declared lost. -/
  | tandemLinkDown
  /-- TANDEM_MESSAGE_TIMEOUT (R323). No tandem message arrives for 4 us and the link is declared lost. -/
  | tandemMessageTimeout
  /-- ELECTRICAL_IDLE_END (R323). The 100 us electrical idle after link loss ends. -/
  | electricalIdleEnd
  /-- HB_SEND (R320). A heartbeat message is sent every 1 us. -/
  | hbSend
  /-- HB (R320). A heartbeat message is received. -/
  | hb
  /-- QUIESCE (R323). The partner reports it has stopped writing with every write mirrored. -/
  | quiesce
  /-- PERST_N_ASSERT (R57). PERST_N is asserted, resetting the port, decoders and contexts. -/
  | perstNAssert
  /-- PERST_N_RELEASE (R370). PERST_N is released and the link trains once VDDIO and VDD_PHYH are good. -/
  | perstNRelease
  /-- HOT_RESET (R57). A hot reset resets the port, decoders and contexts. -/
  | hotReset
  /-- LINK_DOWN (R57). The CXL link goes down, aborting contexts and resetting decoders. -/
  | linkDown
  /-- FLR (R57). A function level reset resets CXL.io state and aborts the foreground command. -/
  | flr
  /-- CXL_RESET (R57). A CXL Reset resets decoders and aborts contexts with the link up. -/
  | cxlReset
  /-- CXL_RESET_COMPLETE (R57). CXL Reset completes and Memory_Active is set again in SERVICE. -/
  | cxlResetComplete
  /-- IDE_RX_ERROR (R52). An IDE integrity failure on receive puts the link into the insecure state. -/
  | ideRxError
  /-- VIRAL_RECEIVED (R52). Viral from the host stops RwD credits and refuses later stores. -/
  | viralReceived
  /-- GPF_PHASE1 (R55). A GPF Phase 1 request is answered within 1 us with no cache or media action. -/
  | gpfPhase1
  /-- GPF_PHASE2 (R55). A GPF Phase 2 request is answered within 1 us with no cache or media action. -/
  | gpfPhase2
  /-- GET_ENDPOINT_ID (R345). MCTP control Get Endpoint ID. -/
  | getEndpointId
  /-- GET_ENDPOINT_UUID (R345). MCTP control Get Endpoint UUID. -/
  | getEndpointUuid
  /-- GET_MCTP_VERSION_SUPPORT (R345). MCTP control Get MCTP Version Support. -/
  | getMctpVersionSupport
  /-- GET_MESSAGE_TYPE_SUPPORT (R345). MCTP control Get Message Type Support. -/
  | getMessageTypeSupport
  /-- SMBUS_CLOCK_LOW_TIMEOUT (R380). SMBus clock held low past the timeout and the controller releases the bus. -/
  | smbusClockLowTimeout
  /-- BACKGROUND_ABORT_STOP (R336). An aborted background operation reaches its safe point and completes with Aborted. -/
  | backgroundAbortStop
  /-- LOCKOUT_END (R344). The 10 s authorisation lockout ends. -/
  | lockoutEnd
  /-- OWN_TIME_FRAME_RETURN_TIMEOUT (R315). In a master whose own TIME frames have not returned around the ring for 16 us, PEL_STATUS.SPLIT is set. -/
  | ownTimeFrameReturnTimeout
  deriving DecidableEq, Repr

end Sys2Proof
end

