-- ==== Sys2Proof/Decode.lean ====
section
/-! DEFINITION. The opcode table gives no command bits: the block takes events, not words. -/
namespace Sys2Proof

/-- The command a word spells: the table gives no row bits, so no word spells one. -/
def decodeTableWord (_nbits _w : Nat) : Option Instr := none

end Sys2Proof
end

