-- ==== Sys2Proof/Machine/Codes.lean ====
section
/-! DEFINITION. Little-endian bytes (R6), the check codes of R384, and HMAC-SHA-256 (R341). SHA-256 and HMAC are
published standards the manual names and does not restate: PRESUMED from them (log 7). -/
namespace Sys2Proof.Machine

/-- The `n` low bytes of `v`, least significant first (R6). -/
def leBytes : Nat → Nat → List Byte
  | 0, _ => []
  | n + 1, v => BitVec.ofNat 8 v :: leBytes n (v / 256)

/-- The number a little-endian byte list spells (R6). -/
def ofLe : List Byte → Nat
  | [] => 0
  | b :: t => b.toNat + 256 * ofLe t

/-- Bytes `off` to `off + n` - 1 of a payload, as a number. -/
def leAt (off n : Nat) (bs : List Byte) : Nat := ofLe ((bs.drop off).take n)

/-- The 32-bit words a byte list spells. -/
def wordsOf : Nat → List Byte → List Nat
  | 0, _ => []
  | n + 1, bs => leAt 0 4 bs :: wordsOf n (bs.drop 4)

/-- One reflected CRC step: a byte already mixed in, eight shifts. -/
def crcShiftRight (poly : Nat) : Nat → Nat → Nat
  | 0, c => c
  | n + 1, c => crcShiftRight poly n (if c % 2 = 1 then Nat.xor (c / 2) poly else c / 2)

/-- One non-reflected CRC step of `n` shifts in a register of `w` bits. -/
def crcShiftLeft (w poly : Nat) : Nat → Nat → Nat
  | 0, c => c
  | n + 1, c =>
    crcShiftLeft w poly n
      (if c / 2 ^ (w - 1) % 2 = 1 then Nat.xor (c * 2 % 2 ^ w) poly else c * 2 % 2 ^ w)

/-- CRC-32 (IEEE 802.3), reflected, final XOR of all ones (R384); the polynomial is 0x04C1_1DB7 reflected. -/
def crc32Go : List Byte → Nat → Nat
  | [], c => c
  | b :: t, c => crc32Go t (crcShiftRight 0xEDB88320 8 (Nat.xor c b.toNat))

/-- CRC-32 over bytes in ascending address order (R384). -/
def crc32 (bs : List Byte) : Nat := Nat.xor (crc32Go bs 0xFFFFFFFF) 0xFFFFFFFF

/-- CRC-16 (CCITT), not reflected (R384). -/
def crc16Go : List Byte → Nat → Nat
  | [], c => c
  | b :: t, c => crc16Go t (crcShiftLeft 16 0x1021 8 (Nat.xor c (b.toNat * 256)))

/-- CRC-16 (CCITT) over bytes in ascending address order (R384). -/
def crc16 (bs : List Byte) : Nat := crc16Go bs 0xFFFF

/-- CRC-8, polynomial 0x07 (R384). -/
def crc8Go : List Byte → Nat → Nat
  | [], c => c
  | b :: t, c => crc8Go t (crcShiftLeft 8 0x07 8 (Nat.xor c b.toNat))

/-- CRC-8 over bytes in ascending order (R384). -/
def crc8 (bs : List Byte) : Nat := crc8Go bs 0

/-! ### SHA-256 and HMAC (PRESUMED from the published standards, log 7) -/

/-- The round constants. -/
def shaK : List (BitVec 32) :=
  [0x428a2f98, 0x71374491, 0xb5c0fbcf, 0xe9b5dba5, 0x3956c25b, 0x59f111f1, 0x923f82a4, 0xab1c5ed5,
   0xd807aa98, 0x12835b01, 0x243185be, 0x550c7dc3, 0x72be5d74, 0x80deb1fe, 0x9bdc06a7, 0xc19bf174,
   0xe49b69c1, 0xefbe4786, 0x0fc19dc6, 0x240ca1cc, 0x2de92c6f, 0x4a7484aa, 0x5cb0a9dc, 0x76f988da,
   0x983e5152, 0xa831c66d, 0xb00327c8, 0xbf597fc7, 0xc6e00bf3, 0xd5a79147, 0x06ca6351, 0x14292967]
  ++
  [0x27b70a85, 0x2e1b2138, 0x4d2c6dfc, 0x53380d13, 0x650a7354, 0x766a0abb, 0x81c2c92e, 0x92722c85,
   0xa2bfe8a1, 0xa81a664b, 0xc24b8b70, 0xc76c51a3, 0xd192e819, 0xd6990624, 0xf40e3585, 0x106aa070,
   0x19a4c116, 0x1e376c08, 0x2748774c, 0x34b0bcb5, 0x391c0cb3, 0x4ed8aa4a, 0x5b9cca4f, 0x682e6ff3,
   0x748f82ee, 0x78a5636f, 0x84c87814, 0x8cc70208, 0x90befffa, 0xa4506ceb, 0xbef9a3f7, 0xc67178f2]

/-- The eight working words of SHA-256. -/
structure ShaState where
  a : BitVec 32
  b : BitVec 32
  c : BitVec 32
  d : BitVec 32
  e : BitVec 32
  f : BitVec 32
  g : BitVec 32
  h : BitVec 32
  deriving DecidableEq, Repr

/-- The initial hash value. -/
def shaInit : ShaState :=
  ⟨0x6a09e667, 0xbb67ae85, 0x3c6ef372, 0xa54ff53a, 0x510e527f, 0x9b05688c, 0x1f83d9ab, 0x5be0cd19⟩

/-- One round with schedule word `w` and constant `k`. -/
def shaRound (s : ShaState) (k w : BitVec 32) : ShaState :=
  let s1 := s.e.rotateRight 6 ^^^ s.e.rotateRight 11 ^^^ s.e.rotateRight 25
  let ch := (s.e &&& s.f) ^^^ (~~~s.e &&& s.g)
  let t1 := s.h + s1 + ch + k + w
  let s0 := s.a.rotateRight 2 ^^^ s.a.rotateRight 13 ^^^ s.a.rotateRight 22
  let mj := (s.a &&& s.b) ^^^ (s.a &&& s.c) ^^^ (s.b &&& s.c)
  ⟨t1 + (s0 + mj), s.a, s.b, s.c, s.d + t1, s.e, s.f, s.g⟩

/-- The rounds over the constants, the message schedule kept as a window of sixteen words, oldest first. -/
def shaRounds : List (BitVec 32) → List (BitVec 32) → ShaState → ShaState
  | [], _, s => s
  | k :: ks, win, s =>
    match win with
    | [] => s
    | w :: rest =>
      let w1 := rest.getD 0 0
      let w9 := rest.getD 8 0
      let w14 := rest.getD 13 0
      let g0 := w1.rotateRight 7 ^^^ w1.rotateRight 18 ^^^ (w1 >>> 3)
      let g1 := w14.rotateRight 17 ^^^ w14.rotateRight 19 ^^^ (w14 >>> 10)
      shaRounds ks (rest ++ [w + g0 + w9 + g1]) (shaRound s k w)

/-- Big-endian 32-bit words of a byte list. -/
def beWords : Nat → List Byte → List (BitVec 32)
  | 0, _ => []
  | n + 1, bs =>
    BitVec.ofNat 32 (((((bs.getD 0 0).toNat * 256 + (bs.getD 1 0).toNat) * 256
      + (bs.getD 2 0).toNat) * 256) + (bs.getD 3 0).toNat) :: beWords n (bs.drop 4)

/-- One 64-byte block. -/
def shaBlock (s : ShaState) (blk : List Byte) : ShaState :=
  let r := shaRounds shaK (beWords 16 blk) s
  ⟨s.a + r.a, s.b + r.b, s.c + r.c, s.d + r.d, s.e + r.e, s.f + r.f, s.g + r.g, s.h + r.h⟩

/-- `n` blocks in order. -/
def shaBlocks : Nat → List Byte → ShaState → ShaState
  | 0, _, s => s
  | n + 1, bs, s => shaBlocks n (bs.drop 64) (shaBlock s (bs.take 64))

/-- The `n` low bytes of `v`, most significant first. -/
def beBytes (n v : Nat) : List Byte := (leBytes n v).reverse

/-- SHA-256 of a byte list. -/
def sha256 (m : List Byte) : List Byte :=
  let len := m.length
  let pad := (119 - len % 64) % 64
  let full := m ++ [(0x80 : Byte)] ++ List.replicate pad 0 ++ beBytes 8 (len * 8)
  let s := shaBlocks (full.length / 64) full shaInit
  beBytes 4 s.a.toNat ++ beBytes 4 s.b.toNat ++ beBytes 4 s.c.toNat ++ beBytes 4 s.d.toNat
    ++ beBytes 4 s.e.toNat ++ beBytes 4 s.f.toNat ++ beBytes 4 s.g.toNat ++ beBytes 4 s.h.toNat

/-- HMAC-SHA-256 under a key of at most 64 bytes. -/
def hmacSha256 (key msg : List Byte) : List Byte :=
  let k := key ++ List.replicate (64 - key.length) 0
  sha256 (k.map (· ^^^ 0x5c) ++ sha256 (k.map (· ^^^ 0x36) ++ msg))

end Sys2Proof.Machine
end

