-- ==== Sys2Proof/Config.lean ====
section
/-! DEFINITION. What manufacture fixes (the three configurations of R1, R13 and their figures) and the values the
manual leaves open: opaque constants, of which nothing can be proved. -/
namespace Sys2Proof

/-- The fused configurations (R1, R3). -/
inductive DevConfig where
  | s416
  | s208
  | s104
  deriving DecidableEq, Repr

namespace Config

/-- Media channels (R1). -/
def wheels : DevConfig → Nat
  | .s416 => 16
  | .s208 => 8
  | .s104 => 4

/-- Banks (R1): 128 per wheel. -/
def banks (c : DevConfig) : Nat := 128 * wheels c

/-- Host-visible persistent capacity in GiB (R1). -/
def capacityGiB : DevConfig → Nat
  | .s416 => 3584
  | .s208 => 1792
  | .s104 => 896

/-- The persistent partition ends here (R23). -/
def capacity (c : DevConfig) : Nat := capacityGiB c * 2 ^ 30

/-- The S416's scratch window starts here (R43). -/
def scratchBase : Nat := 0x38000000000

/-- Release extents (R13). -/
def extents : DevConfig → Nat
  | .s416 => 1835008
  | .s208 => 917504
  | .s104 => 458752

/-- Host request contexts (R13), and the credits that the port advertises (R48). -/
def contexts : Nat := 4096
def reqCredits : Nat := 1024
def rwdCredits : Nat := 512

/-- Placement regions (R13). -/
def regions : DevConfig → Nat
  | .s416 => 4096
  | .s208 => 2048
  | .s104 => 1024

/-- Shared queue descriptors (R92). -/
def sharedPool : DevConfig → Nat
  | .s416 => 49152
  | .s208 => 57344
  | .s104 => 61440

/-- The dirty budget ceiling in lines (R124). -/
def ceiling : DevConfig → Nat
  | .s416 => 786432
  | .s208 => 393216
  | .s104 => 196608

/-- Exception-table entries (R154). -/
def xtabSize : DevConfig → Nat
  | .s416 => 1048576
  | .s208 => 524288
  | .s104 => 262144

/-- PCI Device ID (R36). -/
def deviceId : DevConfig → Nat
  | .s416 => 0x5416
  | .s208 => 0x5208
  | .s104 => 0x5104

/-- Total Capacity of Identify Memory Device in 256 MiB units, without scratch (R42). -/
def capacityUnits : DevConfig → Nat
  | .s416 => 14336
  | .s208 => 7168
  | .s104 => 3584

/-- The CONFIG byte of Get Device Status (R346). -/
def configByte : DevConfig → Nat
  | .s416 => 1
  | .s208 => 2
  | .s104 => 3

/-- The S208 and S104 offer way locking, the S416 the scratch carve-out (R1). -/
def lockCapable : DevConfig → Bool
  | .s416 => false
  | _ => true

/-- Program-current units a die carries (R99). -/
def unitsPerDie : Nat := 8

/-- The device's full program-current budget: 8 per die (R99). -/
def fullBudget (c : DevConfig) : Nat := 64 * wheels c

/-- CDAT bandwidths of handle 0, in tenths of GB/s: read, write (R44). -/
def cdatBandwidth : DevConfig → Nat × Nat
  | .s416 => (1000, 210)
  | .s208 => (500, 105)
  | .s104 => (250, 52)

/-- Rotation slots of a region that carry host blocks, N of R149. -/
def rotN : Nat := 229376

/-- First spare row offset of a region (R144). -/
def spareFirst : Nat := 229465

/-- Spare rows of a region (R144). -/
def spareRows : Nat := 32679

/-- The wheel ceiling in lines (R124). -/
def wheelCeiling : Nat := 51200

/-- A wheel's share of the pinned reserve (R130). -/
def pinnedPerWheel : Nat := 16384

/-- Drain slots of a wheel in one area (R137). -/
def drainSlots : Nat := 67584

/-! ### Open values -/

/-- A free natural number: what the manual leaves undefined or to a random source (log 6). -/
opaque freeNat : Nat → Nat

/-- Which slot of a dual-slot counter is current when both are good and neither SEQ is ahead of the other by 1 to
2,047 and they differ (R305 gives no rule for a distance of 2,048; log 6): true for the second. -/
opaque seqTie : (seqA seqB : Nat) → Bool

/-- The SEQ of a dual-slot counter's first update, and the slot it takes is the first (R306 gives no start; log 6). -/
opaque firstSeq : (addr : Nat) → Fin 4096

/-- The nonces of the AON random source (R340). -/
opaque nonce : Nat → BitVec 128

/-- Ψ of R25 under the key set `key`: a permutation of the extents. -/
opaque psi : (key : Nat) → (n : Nat) → Equiv.Perm (Fin n)

/-- P_e of R25: a permutation of the lines of extent `e`. -/
opaque lineShuffle : (key e : Nat) → Equiv.Perm (Fin 8192)

/-- Π_r of R149: a permutation of the logical blocks of region `r`. -/
opaque blockShuffle : (key r : Nat) → Equiv.Perm (Fin 229376)

/-- The keyed hash of R62: the set of a line. -/
opaque setHash : (key line : Nat) → Fin 4096

/-- What decrypting under another key set or tweak than the line was encrypted with gives (R27): unknown data. -/
opaque wrongKeyData : (key tweak key' tweak' : Nat) → Line

/-- AES-XTS-256 of a line under a key set and a tweak (R27): the keys are random and never leave the chip. -/
opaque cipherText : (key tweak : Nat) → Line → Line

/-- The 224 check bits over DATA, SPMETA, LEPOCH and the reserved bytes (R148): the code's polynomial is not given. -/
opaque parityBits : (codeBytes : Nat) → Fin (2 ^ 224)

/-- The pattern of the write-eye training (R178): not given. -/
opaque trainPattern : Line

/-- The factory reference code of a die's band, bucket and boundary (R167). -/
opaque factoryRef : (wheel die band bucket boundary : Nat) → Fin 256

/-- The factory spread of a die's band, bucket and boundary, 2 to 31 steps (R167): 2 plus a value below 30. -/
opaque factorySpread : (wheel die band bucket boundary : Nat) → Fin 30

/-- The device certificate chain, measurements and signatures of the SPDM responder (R56): contents the manual does
not give. -/
opaque spdmData : Nat → List Byte

/-- The timeout exponent and the message sizes of the responder's CAPABILITIES (R56): not given. -/
opaque spdmTimeout : Fin 256
opaque spdmTransfer : Fin (2 ^ 32)
opaque spdmMessage : Fin (2 ^ 32)

/-- Figures of CXL command payloads that the manual does not give: a command's effects, the poison and QoS capabilities of Identify
Memory Device, the critical alert thresholds, and the estimated time of a media scan of some lines. -/
opaque commandEffect : (opcode : Nat) → Fin 65536
opaque identifyTail : DevConfig → Fin 65536
opaque alertCritical : Nat → Fin 256
opaque scanEstimate : (lines : Nat) → Nat

/-- The MCTP endpoint's UUID, and the versions it lists (R345): contents the manual does not give. -/
opaque endpointUuid : (serial : BitVec 64) → List Byte
opaque mctpVersions : List Byte

/-- The firmware version in a slot at manufacture (R189). -/
opaque factoryFirmware : Nat → BitVec 32

/-- The media endurance consumed against the five-year rating, in per cent, at a count of accumulator units (R54): the
manual states no rating. -/
opaque endurancePct : (units : Nat) → Fin 101

/-- Words of the port's component registers that the manual leaves to CXL 3.1 and names no field of (R39). -/
opaque portWord : (offset : Nat) → Fin (2 ^ 32)

/-- The 16-byte identifier and the 80 bytes of record-specific data of a CXL event record, as 24 words (R53, R269):
their layout is CXL 3.1's, which the manual does not restate. -/
opaque eventWord : (kind sub dpa handle stamp i : Nat) → Fin (2 ^ 32)

end Config
end Sys2Proof
end

