-- ==== Sys2Proof/Machine/Regs.lean ====
section
/-! DEFINITION. The registers: every field of every register table of the spec, with its place in the pass-through
address map (R360), its width, its access code (R9), and the value it reads as until something writes it: the Reset
column, or for a field loaded from the saddlebag its value if not stored (R11). Instance `i` of a repeated register lies `stride` bytes on. -/
namespace Sys2Proof.Machine

/-- The access codes of R9; reserved bits are no field. -/
inductive Acc where
  | ro
  | rw
  | rw1c
  | rw1s
  | wo
  deriving DecidableEq, Repr

/-- A register field: pass-through address of instance 0, byte distance of the instances, lowest bit, width,
access code, default, and whether it is kept in the AON domain and stored in the saddlebag. -/
structure Fld where
  base : Nat
  stride : Nat
  lo : Nat
  width : Nat
  acc : Acc
  dflt : Nat
  aon : Bool
  sbg : Bool
  deriving DecidableEq, Repr

/-- The bit address of instance `i` of a field: the key it is held under. -/
def Fld.key (f : Fld) (i : Nat) : Nat := (f.base + f.stride * i) * 8 + f.lo

/-- A register: its name, place, how many instances, its domain, its stored word in the saddlebag (byte address of
instance 0 and the distance of the instances, log 8), and its fields. -/
structure RegDef where
  name : String
  base : Nat
  stride : Nat
  count : Nat
  aon : Bool
  home : Option (Nat × Nat)
  fields : List Fld
  deriving DecidableEq, Repr

namespace F

/-- R59 HPT_LINK_STATUS_WIDTH: negotiated width in lanes: 1, 2, 4, 8 or 16; 0 while the link is down -/
def HPT_LINK_STATUS_WIDTH : Fld := ⟨0x60000, 0x0, 0, 5, .ro, 0, false, false⟩
/-- R59 HPT_LINK_STATUS_RATE: 0: 2.5 GT/s, 1: 5, 2: 8, 3: 16, 4: 32, 5: 64 GT/s -/
def HPT_LINK_STATUS_RATE : Fld := ⟨0x60000, 0x0, 5, 3, .ro, 0, false, false⟩
/-- R59 HPT_LINK_STATUS_MEM_ENABLED: CXL.mem enabled (R33) -/
def HPT_LINK_STATUS_MEM_ENABLED : Fld := ⟨0x60000, 0x0, 8, 1, .ro, 0, false, false⟩
/-- R59 HPT_LINK_STATUS_DEGRADED: width below x8 or rate below 32 GT/s -/
def HPT_LINK_STATUS_DEGRADED : Fld := ⟨0x60000, 0x0, 9, 1, .ro, 0, false, false⟩
/-- R59 HPT_LINK_STATUS_IDE_ACTIVE: CXL.mem IDE stream active -/
def HPT_LINK_STATUS_IDE_ACTIVE : Fld := ⟨0x60000, 0x0, 10, 1, .ro, 0, false, false⟩
/-- R59 HPT_LINK_STATUS_VIRAL_TX: the controller has signalled viral -/
def HPT_LINK_STATUS_VIRAL_TX : Fld := ⟨0x60000, 0x0, 11, 1, .ro, 0, false, false⟩
/-- R59 HPT_LINK_STATUS_VIRAL_RX: viral received from the host -/
def HPT_LINK_STATUS_VIRAL_RX : Fld := ⟨0x60000, 0x0, 12, 1, .ro, 0, false, false⟩
/-- R59 HPT_LINK_STATUS_RETRAIN_COUNT: retrains since entry to RAMP; saturates at 0xFFFF -/
def HPT_LINK_STATUS_RETRAIN_COUNT : Fld := ⟨0x60000, 0x0, 16, 16, .ro, 0, false, false⟩
/-- R59 HPT_CREDIT_RWD_ADV: RwD credits advertised -/
def HPT_CREDIT_RWD_ADV : Fld := ⟨0x60008, 0x0, 0, 10, .ro, 512, false, false⟩
/-- R59 HPT_CREDIT_RWD_OUT: RwD credits currently held by the host -/
def HPT_CREDIT_RWD_OUT : Fld := ⟨0x60008, 0x0, 10, 10, .ro, 0, false, false⟩
/-- R59 HPT_CREDIT_HELD: RwD credit return withheld this tick (R48) -/
def HPT_CREDIT_HELD : Fld := ⟨0x60008, 0x0, 20, 1, .ro, 0, false, false⟩
/-- R59 HPT_CREDIT_STALL_TICKS: ticks with RwD credit return withheld; saturates -/
def HPT_CREDIT_STALL_TICKS : Fld := ⟨0x6000C, 0x0, 0, 32, .ro, 0, false, false⟩
/-- R59 HPT_DECODE_MISS_COUNT: requests matching no decoder -/
def HPT_DECODE_MISS_COUNT : Fld := ⟨0x60010, 0x0, 0, 32, .ro, 0, false, false⟩
/-- R59 HPT_POISON_TX_COUNT: requests matching no decoder -/
def HPT_POISON_TX_COUNT : Fld := ⟨0x60014, 0x0, 0, 32, .ro, 0, false, false⟩
/-- R59 HPT_MAINT_REFUSED_COUNT: requests matching no decoder -/
def HPT_MAINT_REFUSED_COUNT : Fld := ⟨0x60018, 0x0, 0, 32, .ro, 0, false, false⟩
/-- R59 HPT_ERR_STATUS_DECODE_MISS: a request matched no committed decoder -/
def HPT_ERR_STATUS_DECODE_MISS : Fld := ⟨0x6001C, 0x0, 0, 1, .rw1c, 0, false, false⟩
/-- R59 HPT_ERR_STATUS_REFUSED: a request was answered under R49 -/
def HPT_ERR_STATUS_REFUSED : Fld := ⟨0x6001C, 0x0, 1, 1, .rw1c, 0, false, false⟩
/-- R59 HPT_ERR_STATUS_UNBACKED_SCRATCH: an access reached the unbacked part of the scratch window -/
def HPT_ERR_STATUS_UNBACKED_SCRATCH : Fld := ⟨0x6001C, 0x0, 2, 1, .rw1c, 0, false, false⟩
/-- R59 HPT_ERR_STATUS_VIRAL_RX: viral received since last cleared -/
def HPT_ERR_STATUS_VIRAL_RX : Fld := ⟨0x6001C, 0x0, 3, 1, .rw1c, 0, false, false⟩
/-- R59 HPT_ERR_STATUS_LINK_DEGRADED: the link settled below R33's minimum -/
def HPT_ERR_STATUS_LINK_DEGRADED : Fld := ⟨0x6001C, 0x0, 4, 1, .rw1c, 0, false, false⟩
/-- R59 HPT_ERR_STATUS_RETRAIN: the link retrained while CXL.mem was enabled -/
def HPT_ERR_STATUS_RETRAIN : Fld := ⟨0x6001C, 0x0, 5, 1, .rw1c, 0, false, false⟩
/-- R59 HPT_RESET_CAUSE_LAST: last port reset: 0 none since RAMP, 1 PERST_N, 2 hot reset, 3 link … -/
def HPT_RESET_CAUSE_LAST : Fld := ⟨0x60020, 0x0, 0, 3, .ro, 0, false, false⟩
/-- R86 CCH_MODE_STATE: 0: normal, 1: flushing, 2: bypass; 3 is not used -/
def CCH_MODE_STATE : Fld := ⟨0x80000, 0x0, 0, 2, .ro, 0, false, true⟩
/-- R86 CCH_MODE_FLUSH_ABORTED: a flush was aborted -/
def CCH_MODE_FLUSH_ABORTED : Fld := ⟨0x80000, 0x0, 2, 1, .rw1c, 0, false, false⟩
/-- R86 CCH_MODE_SCRATCH_STEPS: 4 MiB steps of scratch in effect, 0 to 16; 0 in the S208 and S104 -/
def CCH_MODE_SCRATCH_STEPS : Fld := ⟨0x80000, 0x0, 3, 5, .ro, 0, false, true⟩
/-- R86 CCH_MODE_SCRATCH_NEXT: steps to apply at the next entry to SERVICE -/
def CCH_MODE_SCRATCH_NEXT : Fld := ⟨0x80000, 0x0, 8, 5, .ro, 0, false, true⟩
/-- R86 CCH_MODE_LOCK_CAPABLE: way locking offered -/
def CCH_MODE_LOCK_CAPABLE : Fld := ⟨0x80000, 0x0, 13, 1, .ro, 0, false, false⟩
/-- R86 CCH_MODE_SCRATCH_CAPABLE: scratch carve-out offered -/
def CCH_MODE_SCRATCH_CAPABLE : Fld := ⟨0x80000, 0x0, 14, 1, .ro, 0, false, false⟩
/-- R86 CCH_FLUSH_REMAIN_LINES: lines still to verify in the running flush -/
def CCH_FLUSH_REMAIN_LINES : Fld := ⟨0x80004, 0x0, 0, 21, .ro, 0, false, false⟩
/-- R86 CCH_SCRUB_CFG_PASS_S: scrub pass length in seconds; values below 10 act as 10 -/
def CCH_SCRUB_CFG_PASS_S : Fld := ⟨0x80008, 0x0, 0, 8, .rw, 60, false, true⟩
/-- R86 CCHn_STATUS_DIRTY: dirty lines in the slice, scratch included -/
def CCHn_STATUS_DIRTY : Fld := ⟨0x81000, 0x1000, 0, 17, .ro, 0, false, false⟩
/-- R86 CCHn_STATUS_OVF_USED: occupied overflow slots, 0 to 512 -/
def CCHn_STATUS_OVF_USED : Fld := ⟨0x81000, 0x1000, 17, 10, .ro, 0, false, false⟩
/-- R86 CCHn_LOCKED_COUNT: locked lines -/
def CCHn_LOCKED_COUNT : Fld := ⟨0x81004, 0x1000, 0, 17, .ro, 0, false, false⟩
/-- R86 CCHn_WAY_OFF_COUNT:  ways out of use until the next scrub -/
def CCHn_WAY_OFF_COUNT : Fld := ⟨0x81008, 0x1000, 0, 17, .ro, 0, false, false⟩
/-- R86 CCHn_WAY_PERM_COUNT:  ways out of use until RAMP (R72), respectively -/
def CCHn_WAY_PERM_COUNT : Fld := ⟨0x8100C, 0x1000, 0, 17, .ro, 0, false, false⟩
/-- R86 CCHn_SEC_COUNT: single-bit data corrections -/
def CCHn_SEC_COUNT : Fld := ⟨0x81010, 0x1000, 0, 32, .ro, 0, false, false⟩
/-- R86 CCHn_DED_COUNT:  double-bit data errors -/
def CCHn_DED_COUNT : Fld := ⟨0x81014, 0x1000, 0, 32, .ro, 0, false, false⟩
/-- R86 CCHn_TAGPAR_COUNT:  tag parity errors -/
def CCHn_TAGPAR_COUNT : Fld := ⟨0x81018, 0x1000, 0, 32, .ro, 0, false, false⟩
/-- R86 CCHn_TAGREBUILD_COUNT:  tags rebuilt from the directory, respectively -/
def CCHn_TAGREBUILD_COUNT : Fld := ⟨0x8101C, 0x1000, 0, 32, .ro, 0, false, false⟩
/-- R86 CCHn_ERR_SEC: a single-bit data error was corrected -/
def CCHn_ERR_SEC : Fld := ⟨0x81020, 0x1000, 0, 1, .rw1c, 0, false, false⟩
/-- R86 CCHn_ERR_DED_CLEAN: a double-bit error invalidated a clean line -/
def CCHn_ERR_DED_CLEAN : Fld := ⟨0x81020, 0x1000, 1, 1, .rw1c, 0, false, false⟩
/-- R86 CCHn_ERR_DED_DIRTY: a double-bit error poisoned a dirty or scratch sector -/
def CCHn_ERR_DED_DIRTY : Fld := ⟨0x81020, 0x1000, 2, 1, .rw1c, 0, false, false⟩
/-- R86 CCHn_ERR_TAGPAR_CLEAN: a tag parity error took a way out of use -/
def CCHn_ERR_TAGPAR_CLEAN : Fld := ⟨0x81020, 0x1000, 3, 1, .rw1c, 0, false, false⟩
/-- R86 CCHn_ERR_TAGPAR_DIRTY: a tag was rebuilt from the directory -/
def CCHn_ERR_TAGPAR_DIRTY : Fld := ⟨0x81020, 0x1000, 4, 1, .rw1c, 0, false, false⟩
/-- R86 CCHn_ERR_DIR_ERR: a directory word was corrected or rebuilt -/
def CCHn_ERR_DIR_ERR : Fld := ⟨0x81020, 0x1000, 5, 1, .rw1c, 0, false, false⟩
/-- R86 CCHn_ERR_DIR_LOST: tag and directory both lost (R73) -/
def CCHn_ERR_DIR_LOST : Fld := ⟨0x81020, 0x1000, 6, 1, .rw1c, 0, false, false⟩
/-- R86 CCHn_LAST_ERR_SET: set of the last error; 0 if IN_OVF is set -/
def CCHn_LAST_ERR_SET : Fld := ⟨0x81024, 0x1000, 0, 12, .ro, 0, false, false⟩
/-- R86 CCHn_LAST_ERR_WAY: way of the last error; 0 if IN_OVF is set -/
def CCHn_LAST_ERR_WAY : Fld := ⟨0x81024, 0x1000, 12, 4, .ro, 0, false, false⟩
/-- R86 CCHn_LAST_ERR_IN_OVF: the last error was in the overflow buffer -/
def CCHn_LAST_ERR_IN_OVF : Fld := ⟨0x81024, 0x1000, 16, 1, .ro, 0, false, false⟩
/-- R86 CCHn_LAST_ERR_OVF_SLOT: overflow slot of the last error -/
def CCHn_LAST_ERR_OVF_SLOT : Fld := ⟨0x81024, 0x1000, 17, 9, .ro, 0, false, false⟩
/-- R86 CCHn_LAST_ERR_KIND: bit number in CCHn_ERR of the last error, 0 to 6 -/
def CCHn_LAST_ERR_KIND : Fld := ⟨0x81024, 0x1000, 26, 3, .ro, 0, false, false⟩
/-- R114 WHL_PCUR_BUDGET: device program-current units (R99); 8 per die if not stored; … -/
def WHL_PCUR_BUDGET : Fld := ⟨0x20000, 0x0, 0, 12, .rw, 1024, false, true⟩
/-- R114 WHL_PCUR_USED: units held by running programs -/
def WHL_PCUR_USED : Fld := ⟨0x20000, 0x0, 12, 12, .ro, 0, false, false⟩
/-- R114 WHL_DRAFT_CFG_THRESH: backlog that makes a spoke busy; 4 if not stored; 0 acts as 1 -/
def WHL_DRAFT_CFG_THRESH : Fld := ⟨0x20004, 0x0, 0, 6, .rw, 4, false, true⟩
/-- R114 WHL_DRAFT_CFG_BATCH: operations drafted per idle spoke per tick, 1 to 15; 2 if not … -/
def WHL_DRAFT_CFG_BATCH : Fld := ⟨0x20004, 0x0, 6, 4, .rw, 2, false, true⟩
/-- R114 WHL_DRAFT_CFG_XW_EN: cross-wheel jobs enabled; 1 if not stored -/
def WHL_DRAFT_CFG_XW_EN : Fld := ⟨0x20004, 0x0, 10, 1, .rw, 1, false, true⟩
/-- R114 WHL_DRAFT_CFG_EN: drafting enabled; 1 if not stored -/
def WHL_DRAFT_CFG_EN : Fld := ⟨0x20004, 0x0, 11, 1, .rw, 1, false, true⟩
/-- R114 WHL_BG_ALLOW_PER_TICK: background starts per wheel per tick, 1 to 16; 4 if not stored; 0 … -/
def WHL_BG_ALLOW_PER_TICK : Fld := ⟨0x20008, 0x0, 0, 5, .rw, 4, false, true⟩
/-- R114 WHL_CTX_INUSE: contexts in use -/
def WHL_CTX_INUSE : Fld := ⟨0x2000C, 0x0, 0, 13, .ro, 0, false, false⟩
/-- R114 WHL_CTX_HWM: most contexts in use since RAMP -/
def WHL_CTX_HWM : Fld := ⟨0x2000C, 0x0, 13, 13, .ro, 0, false, false⟩
/-- R114 WHL_POOL_SHARED_FREE: free shared descriptors now -/
def WHL_POOL_SHARED_FREE : Fld := ⟨0x20010, 0x0, 0, 17, .ro, 49152, false, false⟩
/-- R114 WHL_POOL_MIN_SHARED_FREE:  fewest free since RAMP, respectively -/
def WHL_POOL_MIN_SHARED_FREE : Fld := ⟨0x20014, 0x0, 0, 17, .ro, 49152, false, false⟩
/-- R114 WHLn_QSTATUS_DR_PENDING: demand reads queued or sensing in the wheel -/
def WHLn_QSTATUS_DR_PENDING : Fld := ⟨0x21000, 0x1000, 0, 14, .ro, 0, false, false⟩
/-- R114 WHLn_QSTATUS_NONDEMAND: write, background and drain entries queued in the wheel -/
def WHLn_QSTATUS_NONDEMAND : Fld := ⟨0x21000, 0x1000, 14, 14, .ro, 0, false, false⟩
/-- R114 WHLn_EXC_COUNT_COUNT: excursions (R112) -/
def WHLn_EXC_COUNT_COUNT : Fld := ⟨0x21004, 0x1000, 0, 32, .ro, 0, false, false⟩
/-- R114 WHLn_DISPLACED_COUNT:  displaced windows -/
def WHLn_DISPLACED_COUNT : Fld := ⟨0x21010, 0x1000, 0, 32, .ro, 0, false, false⟩
/-- R114 WHLn_SOFT_OVF_COUNT:  soft-map overflows (R102) -/
def WHLn_SOFT_OVF_COUNT : Fld := ⟨0x21014, 0x1000, 0, 32, .ro, 0, false, false⟩
/-- R114 WHLn_DECODE_FAIL_COUNT:  failed decodes, demand and background, respectively -/
def WHLn_DECODE_FAIL_COUNT : Fld := ⟨0x21018, 0x1000, 0, 32, .ro, 0, false, false⟩
/-- R114 WHLn_EXC_LAST_LAT: latency of the last excursion in ns; 4,095 means 4,095 or more -/
def WHLn_EXC_LAST_LAT : Fld := ⟨0x21008, 0x1000, 0, 12, .ro, 0, false, false⟩
/-- R114 WHLn_EXC_LAST_D: its d, saturating at 63 -/
def WHLn_EXC_LAST_D : Fld := ⟨0x21008, 0x1000, 12, 6, .ro, 0, false, false⟩
/-- R114 WHLn_EXC_LAST_C: its c, saturating at 63 -/
def WHLn_EXC_LAST_C : Fld := ⟨0x21008, 0x1000, 18, 6, .ro, 0, false, false⟩
/-- R114 WHLn_EXC_LAST_QWAIT: it waited in QWAIT -/
def WHLn_EXC_LAST_QWAIT : Fld := ⟨0x21008, 0x1000, 24, 1, .ro, 0, false, false⟩
/-- R114 WHLn_EXC_LAST_REISSUE: its demand sense was reissued after a CA CRC error or a band … -/
def WHLn_EXC_LAST_REISSUE : Fld := ⟨0x21008, 0x1000, 25, 1, .ro, 0, false, false⟩
/-- R114 WHLn_LAT_MAX_NS: longest load latency since RAMP, in ns -/
def WHLn_LAT_MAX_NS : Fld := ⟨0x2100C, 0x1000, 0, 16, .ro, 0, false, false⟩
/-- R114 WHLn_ERR_EXCURSION: an excursion occurred -/
def WHLn_ERR_EXCURSION : Fld := ⟨0x2101C, 0x1000, 0, 1, .rw1c, 0, false, false⟩
/-- R114 WHLn_ERR_QFULL: a demand read waited in QWAIT -/
def WHLn_ERR_QFULL : Fld := ⟨0x2101C, 0x1000, 1, 1, .rw1c, 0, false, false⟩
/-- R114 WHLn_ERR_SOFT_OVF: a soft map overflowed -/
def WHLn_ERR_SOFT_OVF : Fld := ⟨0x2101C, 0x1000, 2, 1, .rw1c, 0, false, false⟩
/-- R114 WHLn_ERR_DECODE_FAIL: a decode failed -/
def WHLn_ERR_DECODE_FAIL : Fld := ⟨0x2101C, 0x1000, 3, 1, .rw1c, 0, false, false⟩
/-- R115 SPKg_STATUS_BANK_BUSY: bit b: home bank b has an operation in progress -/
def SPKg_STATUS_BANK_BUSY : Fld := ⟨0x40000, 0x40, 0, 8, .ro, 0, false, false⟩
/-- R115 SPKg_STATUS_BANK_SUSP: bit b: home bank b holds a suspended program -/
def SPKg_STATUS_BANK_SUSP : Fld := ⟨0x40000, 0x40, 8, 8, .ro, 0, false, false⟩
/-- R115 SPKg_STATUS_BACKLOG: backlog of R104, saturating at 1,023 -/
def SPKg_STATUS_BACKLOG : Fld := ⟨0x40000, 0x40, 16, 10, .ro, 0, false, false⟩
/-- R115 SPKg_STATUS_ENGINE_BUSY: the engine ran an operation or job in the last tick -/
def SPKg_STATUS_ENGINE_BUSY : Fld := ⟨0x40000, 0x40, 26, 1, .ro, 0, false, false⟩
/-- R115 SPKg_SUSPEND_COUNT: programs suspended -/
def SPKg_SUSPEND_COUNT : Fld := ⟨0x40004, 0x40, 0, 32, .ro, 0, false, false⟩
/-- R115 SPKg_CANCEL_COUNT:  senses cancelled (R97) -/
def SPKg_CANCEL_COUNT : Fld := ⟨0x40008, 0x40, 0, 32, .ro, 0, false, false⟩
/-- R115 SPKg_SUSP_LONG_COUNT:  programs suspended 100 µs or more (R98), respectively -/
def SPKg_SUSP_LONG_COUNT : Fld := ⟨0x40014, 0x40, 0, 32, .ro, 0, false, false⟩
/-- R115 SPKg_DRAFT_TAKEN: operations and jobs this spoke's engine drafted -/
def SPKg_DRAFT_TAKEN : Fld := ⟨0x4000C, 0x40, 0, 16, .ro, 0, false, false⟩
/-- R115 SPKg_DRAFT_GIVEN: operations of this spoke's banks drafted by others -/
def SPKg_DRAFT_GIVEN : Fld := ⟨0x4000C, 0x40, 16, 16, .ro, 0, false, false⟩
/-- R115 SPKg_SUSP_MAX_US: longest single suspension of a program, in µs -/
def SPKg_SUSP_MAX_US : Fld := ⟨0x40010, 0x40, 0, 20, .ro, 0, false, false⟩
/-- R115 SPKg_UCODE_VERSION: version of the microcode tables loaded (R15) -/
def SPKg_UCODE_VERSION : Fld := ⟨0x40018, 0x40, 0, 16, .ro, 0, false, false⟩
/-- R143 LDG_STATUS_BACKPRESSURE: RwD credit return withheld (R125) -/
def LDG_STATUS_BACKPRESSURE : Fld := ⟨0xA0000, 0x0, 0, 1, .ro, 1, false, false⟩
/-- R143 LDG_STATUS_COND: 0: full, 1: write-through, 2: write-limited; 3 is not used -/
def LDG_STATUS_COND : Fld := ⟨0xA0000, 0x0, 1, 2, .ro, 1, false, false⟩
/-- R143 LDG_STATUS_DEFICIT: e_cover below E_base (R129) -/
def LDG_STATUS_DEFICIT : Fld := ⟨0xA0000, 0x0, 3, 1, .ro, 1, false, false⟩
/-- R143 LDG_STATUS_CAP_VALID: at least one valid history entry -/
def LDG_STATUS_CAP_VALID : Fld := ⟨0xA0000, 0x0, 4, 1, .ro, 0, false, false⟩
/-- R143 LDG_STATUS_CAP_TEST: capacitance test in progress -/
def LDG_STATUS_CAP_TEST : Fld := ⟨0xA0000, 0x0, 5, 1, .ro, 0, false, false⟩
/-- R143 LDG_STATUS_FW_ACTIVE: freewheel or brake with drain running -/
def LDG_STATUS_FW_ACTIVE : Fld := ⟨0xA0000, 0x0, 6, 1, .ro, 0, false, false⟩
/-- R143 LDG_STATUS_RESTORE_LIVE: a drain area is live (R141) -/
def LDG_STATUS_RESTORE_LIVE : Fld := ⟨0xA0000, 0x0, 7, 1, .ro, 0, false, false⟩
/-- R143 LDG_ALLOW_LINES: ALLOW of this tick -/
def LDG_ALLOW_LINES : Fld := ⟨0xA0004, 0x0, 0, 20, .ro, 0, false, false⟩
/-- R143 LDG_NDIRTY_LINES:  N_dirty, credits included, respectively -/
def LDG_NDIRTY_LINES : Fld := ⟨0xA0008, 0x0, 0, 20, .ro, 0, false, false⟩
/-- R143 LDG_NSCRATCH_SCRATCH: N_scratch -/
def LDG_NSCRATCH_SCRATCH : Fld := ⟨0xA000C, 0x0, 0, 19, .ro, 0, false, false⟩
/-- R143 LDG_NSCRATCH_SBGDIRTY: N_sbgdirty -/
def LDG_NSCRATCH_SBGDIRTY : Fld := ⟨0xA000C, 0x0, 19, 13, .ro, 0, false, false⟩
/-- R143 LDG_EAVAIL_UJ: E_avail -/
def LDG_EAVAIL_UJ : Fld := ⟨0xA0010, 0x0, 0, 32, .ro, 0, false, false⟩
/-- R143 LDG_ENEED_UJ:  E_need, in µJ, respectively -/
def LDG_ENEED_UJ : Fld := ⟨0xA0014, 0x0, 0, 32, .ro, 0, false, false⟩
/-- R143 LDG_VCAP_MV: V_cap in mV (R118) -/
def LDG_VCAP_MV : Fld := ⟨0xA0018, 0x0, 0, 16, .ro, 0, true, false⟩
/-- R143 LDG_VCAP_CODE: MC0 code used -/
def LDG_VCAP_CODE : Fld := ⟨0xA0018, 0x0, 16, 12, .ro, 0, true, false⟩
/-- R143 LDG_CEFF_UF: C_eff in µF; 0 if no entry is valid -/
def LDG_CEFF_UF : Fld := ⟨0xA001C, 0x0, 0, 16, .ro, 0, true, false⟩
/-- R143 LDG_CEFF_COUNT: valid history entries, 0 to 8 -/
def LDG_CEFF_COUNT : Fld := ⟨0xA001C, 0x0, 16, 4, .ro, 0, true, false⟩
/-- R143 LDG_CAPn_UF: measured capacitance in µF -/
def LDG_CAPn_UF : Fld := ⟨0xA0020, 0x4, 0, 16, .ro, 0, true, false⟩
/-- R143 LDG_CAPn_VALID: entry holds an accepted measurement -/
def LDG_CAPn_VALID : Fld := ⟨0xA0020, 0x4, 16, 1, .ro, 0, true, false⟩
/-- R143 LDG_CAPn_NEWEST: entry was written last -/
def LDG_CAPn_NEWEST : Fld := ⟨0xA0020, 0x4, 17, 1, .ro, 0, true, false⟩
/-- R143 LDG_CFG_MARGIN: margin in sixteenths; 24 (1.5) if not stored; values below 20 act … -/
def LDG_CFG_MARGIN : Fld := ⟨0xA0040, 0x0, 0, 8, .rw, 24, false, true⟩
/-- R143 LDG_CFG_WT_MIN: W_min in units of 1,024 lines; 4 if not stored; 0 acts as 1 -/
def LDG_CFG_WT_MIN : Fld := ⟨0xA0040, 0x0, 8, 8, .rw, 4, false, true⟩
/-- R143 LDG_CFG_RESUME: RESUME in units of 16 lines; 4 if not stored; 0 acts as 1 -/
def LDG_CFG_RESUME : Fld := ⟨0xA0040, 0x0, 16, 8, .rw, 4, false, true⟩
/-- R143 LDG_CFG_CAP_EN: periodic capacitance test enabled; 1 if not stored -/
def LDG_CFG_CAP_EN : Fld := ⟨0xA0040, 0x0, 24, 1, .rw, 1, false, true⟩
/-- R143 LDG_CONST0_E_LINE: e_line in nJ; 240 if not stored; values below the characterised … -/
def LDG_CONST0_E_LINE : Fld := ⟨0xA0044, 0x0, 0, 12, .rw, 240, false, true⟩
/-- R143 LDG_CONST0_E_PAGE: e_page in nJ; 2,000 if not stored -/
def LDG_CONST0_E_PAGE : Fld := ⟨0xA0044, 0x0, 12, 12, .rw, 2000, false, true⟩
/-- R143 LDG_CONST1_ETA: η in thousandths; 900 if not stored; values above 1,000 act as 1,000 -/
def LDG_CONST1_ETA : Fld := ⟨0xA0048, 0x0, 0, 10, .rw, 900, false, true⟩
/-- R143 LDG_CONST1_V_MIN: V_min in mV; 6,000 if not stored -/
def LDG_CONST1_V_MIN : Fld := ⟨0xA0048, 0x0, 10, 16, .rw, 6000, false, true⟩
/-- R143 LDG_CONST2_E_FIXED: E_fixed in µJ; 135,000 if not stored -/
def LDG_CONST2_E_FIXED : Fld := ⟨0xA004C, 0x0, 0, 20, .rw, 135000, false, true⟩
/-- R143 LDG_CONST3_KDIV_X256: HOLD_SENSE divider ratio × 256; 4,096 (16) if not stored -/
def LDG_CONST3_KDIV_X256 : Fld := ⟨0xA0050, 0x0, 0, 16, .rw, 4096, true, true⟩
/-- R143 LDG_CAP_CFG_PERIOD: test period in minutes; 10 if not stored; 0 acts as 1 -/
def LDG_CAP_CFG_PERIOD : Fld := ⟨0xA0054, 0x0, 0, 8, .rw, 10, true, true⟩
/-- R143 LDG_CAP_CFG_ITEST: I_T in mA; 2,000 if not stored -/
def LDG_CAP_CFG_ITEST : Fld := ⟨0xA0054, 0x0, 8, 12, .rw, 2000, true, true⟩
/-- R143 LDG_FW_LAST_TICKS: duration of the last freewheel or brake with drain, T+0 to rails … -/
def LDG_FW_LAST_TICKS : Fld := ⟨0xA0058, 0x0, 0, 16, .ro, 0, true, false⟩
/-- R143 LDG_FW_LAST_SEALED: its checkpoint was sealed -/
def LDG_FW_LAST_SEALED : Fld := ⟨0xA0058, 0x0, 16, 1, .ro, 0, true, false⟩
/-- R143 LDG_FW_LAST_CUT_SHORT: it was cut short (R135) -/
def LDG_FW_LAST_CUT_SHORT : Fld := ⟨0xA0058, 0x0, 17, 1, .ro, 0, true, false⟩
/-- R143 LDG_FW_LAST_AREA: drain area written -/
def LDG_FW_LAST_AREA : Fld := ⟨0xA0058, 0x0, 18, 1, .ro, 0, true, false⟩
/-- R143 LDG_FW_LINES_LINES: lines drained in the last freewheel or brake with drain -/
def LDG_FW_LINES_LINES : Fld := ⟨0xA005C, 0x0, 0, 20, .ro, 0, true, false⟩
/-- R143 LDG_ERR_CAP_REJECT: a capacitance measurement was rejected -/
def LDG_ERR_CAP_REJECT : Fld := ⟨0xA0060, 0x0, 0, 1, .rw1c, 0, false, false⟩
/-- R143 LDG_ERR_CAP_FAIL3: three rejections in a row -/
def LDG_ERR_CAP_FAIL3 : Fld := ⟨0xA0060, 0x0, 1, 1, .rw1c, 0, false, false⟩
/-- R143 LDG_ERR_WT_ENTER: SERVICE entered write-through -/
def LDG_ERR_WT_ENTER : Fld := ⟨0xA0060, 0x0, 2, 1, .rw1c, 0, false, false⟩
/-- R143 LDG_ERR_DEFICIT: deficit was entered -/
def LDG_ERR_DEFICIT : Fld := ⟨0xA0060, 0x0, 3, 1, .rw1c, 0, false, false⟩
/-- R143 LDG_ERR_SHORT_FW: a freewheel was cut short -/
def LDG_ERR_SHORT_FW : Fld := ⟨0xA0060, 0x0, 4, 1, .rw1c, 0, false, false⟩
/-- R143 LDG_ERR_SENSE_RANGE: HOLD_SENSE read 0 or full scale -/
def LDG_ERR_SENSE_RANGE : Fld := ⟨0xA0060, 0x0, 5, 1, .rw1c, 0, false, false⟩
/-- R143 LDG_CAP_REJECTS_COUNT: rejected capacitance measurements since AON power-up -/
def LDG_CAP_REJECTS_COUNT : Fld := ⟨0xA0064, 0x0, 0, 32, .ro, 0, true, false⟩
/-- R181 HUB_PLC_CFG_CKPT_MIN: service checkpoint period in minutes; 10 if not stored; 0 acts as 1 -/
def HUB_PLC_CFG_CKPT_MIN : Fld := ⟨0x100, 0x0, 0, 8, .rw, 10, false, true⟩
/-- R181 HUB_PLC_CFG_GAP_EN: gap moves enabled; 1 if not stored -/
def HUB_PLC_CFG_GAP_EN : Fld := ⟨0x100, 0x0, 8, 1, .rw, 1, false, true⟩
/-- R181 HUB_PLC_STATUS_WRITE_LIMITED: a dead slot exists (R170) -/
def HUB_PLC_STATUS_WRITE_LIMITED : Fld := ⟨0x104, 0x0, 0, 1, .ro, 0, false, false⟩
/-- R181 HUB_PLC_STATUS_XTAB_FULL: exception table full -/
def HUB_PLC_STATUS_XTAB_FULL : Fld := ⟨0x104, 0x0, 1, 1, .ro, 0, false, false⟩
/-- R181 HUB_PLC_STATUS_RETIRE_BUSY: a retirement is in progress -/
def HUB_PLC_STATUS_RETIRE_BUSY : Fld := ⟨0x104, 0x0, 2, 1, .ro, 0, false, false⟩
/-- R181 HUB_PLC_STATUS_DEAD: dead slots, saturating at 8,191 -/
def HUB_PLC_STATUS_DEAD : Fld := ⟨0x104, 0x0, 3, 13, .ro, 0, false, false⟩
/-- R181 HUB_PLC_STATUS_FROZEN: regions with gap moves stopped -/
def HUB_PLC_STATUS_FROZEN : Fld := ⟨0x104, 0x0, 16, 16, .ro, 0, false, false⟩
/-- R181 HUB_XTAB_USED: exception entries in use -/
def HUB_XTAB_USED : Fld := ⟨0x108, 0x0, 0, 21, .ro, 0, false, false⟩
/-- R181 HUB_XTAB_SPARE_PCT: per cent of the fullest wheel's spare rows used -/
def HUB_XTAB_SPARE_PCT : Fld := ⟨0x108, 0x0, 21, 7, .ro, 0, false, false⟩
/-- R181 HUB_XTAB_LOST: regions lost (R152), set in RECOVER; saturates at 15 -/
def HUB_XTAB_LOST : Fld := ⟨0x108, 0x0, 28, 4, .ro, 0, false, false⟩
/-- R181 HUB_EPOCH_PE: low 24 bits of PE -/
def HUB_EPOCH_PE : Fld := ⟨0x10C, 0x0, 0, 24, .ro, 0, false, false⟩
/-- R181 HUB_EPOCH_LEN: epoch length in hours, 1 to 12; 4 if not stored; 0 acts as 1 -/
def HUB_EPOCH_LEN : Fld := ⟨0x10C, 0x0, 24, 4, .rw, 4, false, true⟩
/-- R181 HUB_EPOCH_CLAMPED: a reference reached its clamp (R167) -/
def HUB_EPOCH_CLAMPED : Fld := ⟨0x10C, 0x0, 28, 1, .rw1c, 0, false, false⟩
/-- R181 HUB_EPOCH_AGING: TAGAGE in progress -/
def HUB_EPOCH_AGING : Fld := ⟨0x10C, 0x0, 29, 1, .ro, 0, false, false⟩
/-- R181 HUB_PATROL_CFG_HOURS: pass length; 48 if not stored; below 6 acts as 6; above 168 acts … -/
def HUB_PATROL_CFG_HOURS : Fld := ⟨0x110, 0x0, 0, 8, .rw, 48, false, true⟩
/-- R181 HUB_PATROL_CFG_LINE_THRESH: weakness for a line rewrite, 1 to 20; 8 if not stored -/
def HUB_PATROL_CFG_LINE_THRESH : Fld := ⟨0x110, 0x0, 8, 5, .rw, 8, false, true⟩
/-- R181 HUB_PATROL_CFG_EN: patrol enabled; 1 if not stored -/
def HUB_PATROL_CFG_EN : Fld := ⟨0x110, 0x0, 13, 1, .rw, 1, false, true⟩
/-- R181 HUB_PATROL_POS_REGION: region now patrolled -/
def HUB_PATROL_POS_REGION : Fld := ⟨0x114, 0x0, 0, 12, .ro, 0, false, false⟩
/-- R181 HUB_PATROL_POS_PCT: per cent of the pass done -/
def HUB_PATROL_POS_PCT : Fld := ⟨0x114, 0x0, 12, 7, .ro, 0, false, false⟩
/-- R181 HUB_PATROL_POS_PASSES: passes completed since RAMP -/
def HUB_PATROL_POS_PASSES : Fld := ⟨0x114, 0x0, 19, 13, .ro, 0, false, false⟩
/-- R181 HUB_CKPT_SEQ: low 24 bits of the newest sealed CKPT_SEQ -/
def HUB_CKPT_SEQ : Fld := ⟨0x118, 0x0, 0, 24, .ro, 0, false, false⟩
/-- R181 HUB_CKPT_KIND: its KIND -/
def HUB_CKPT_KIND : Fld := ⟨0x118, 0x0, 24, 3, .ro, 0, false, false⟩
/-- R181 HUB_CKPT_SLOT: its slot, 0 to 3 -/
def HUB_CKPT_SLOT : Fld := ⟨0x118, 0x0, 27, 2, .ro, 0, false, false⟩
/-- R182 MMBn_STATUS_TRAINED: bit d: die d passed training -/
def MMBn_STATUS_TRAINED : Fld := ⟨0xA1000, 0x100, 0, 8, .ro, 0, false, false⟩
/-- R182 MMBn_STATUS_CHECKED: bit d: die d passed CHECK -/
def MMBn_STATUS_CHECKED : Fld := ⟨0xA1000, 0x100, 8, 8, .ro, 0, false, false⟩
/-- R182 MMBn_STATUS_BANDS: bits [2d+1:2d]: loaded band of die d -/
def MMBn_STATUS_BANDS : Fld := ⟨0xA1000, 0x100, 16, 16, .ro, 0, false, false⟩
/-- R182 MMBn_CACRC_COUNT: CA CRC errors reported -/
def MMBn_CACRC_COUNT : Fld := ⟨0xA1004, 0x100, 0, 32, .ro, 0, false, false⟩
/-- R182 MMBn_WCRC_COUNT:  write-data CRC errors -/
def MMBn_WCRC_COUNT : Fld := ⟨0xA1008, 0x100, 0, 32, .ro, 0, false, false⟩
/-- R182 MMBn_REISSUE_COUNT:  packets issued again for any reason, respectively -/
def MMBn_REISSUE_COUNT : Fld := ⟨0xA100C, 0x100, 0, 32, .ro, 0, false, false⟩
/-- R182 MMBn_ERR_CA_BURST: more than 16 CA CRC errors in one second -/
def MMBn_ERR_CA_BURST : Fld := ⟨0xA1010, 0x100, 0, 1, .rw1c, 0, false, false⟩
/-- R182 MMBn_ERR_TRAIN_FAIL: a die failed training -/
def MMBn_ERR_TRAIN_FAIL : Fld := ⟨0xA1010, 0x100, 1, 1, .rw1c, 0, false, false⟩
/-- R182 MMBn_ERR_CHECK_FAIL: a die failed CHECK -/
def MMBn_ERR_CHECK_FAIL : Fld := ⟨0xA1010, 0x100, 2, 1, .rw1c, 0, false, false⟩
/-- R182 MMBn_ERR_ALERT: ALERT_N was asserted -/
def MMBn_ERR_ALERT : Fld := ⟨0xA1010, 0x100, 3, 1, .rw1c, 0, false, false⟩
/-- R182 MMBn_ERR_ROW_FAULT: a die reported a row fault -/
def MMBn_ERR_ROW_FAULT : Fld := ⟨0xA1010, 0x100, 4, 1, .rw1c, 0, false, false⟩
/-- R182 MMBn_TEMP_MAX_C: hottest die on the channel, °C -/
def MMBn_TEMP_MAX_C : Fld := ⟨0xA1014, 0x100, 0, 8, .ro, 0, false, false⟩
/-- R182 MMBn_TEMP_MAX_DIE: which die -/
def MMBn_TEMP_MAX_DIE : Fld := ⟨0xA1014, 0x100, 8, 3, .ro, 0, false, false⟩
/-- R208 HUB_MODE_MODE: 1 STANDBY, 2 RAMP, 3 RECOVER, 4 SERVICE, 5 MAINTENANCE, 6 … -/
def HUB_MODE_MODE : Fld := ⟨0x0, 0x0, 0, 3, .ro, 1, true, false⟩
/-- R208 HUB_MODE_PREV: mode before the last change, same encoding; 0 if none since AON … -/
def HUB_MODE_PREV : Fld := ⟨0x0, 0x0, 3, 3, .ro, 0, true, false⟩
/-- R208 HUB_MODE_SHORT_FW: the current or last freewheel took the short form (R198) -/
def HUB_MODE_SHORT_FW : Fld := ⟨0x0, 0x0, 6, 1, .ro, 0, true, false⟩
/-- R208 HUB_MODE_BRAKE_DRAIN: the current or last BRAKE drained -/
def HUB_MODE_BRAKE_DRAIN : Fld := ⟨0x0, 0x0, 7, 1, .ro, 0, true, false⟩
/-- R208 HUB_MODE_HOLD: hold reached (R205) -/
def HUB_MODE_HOLD : Fld := ⟨0x0, 0x0, 8, 1, .ro, 0, true, false⟩
/-- R208 HUB_MODE_REC_CLOSED: this session's RECOVER has written the shutdown record with STATE … -/
def HUB_MODE_REC_CLOSED : Fld := ⟨0x0, 0x0, 9, 1, .ro, 0, true, false⟩
/-- R208 HUB_MODE_CFG_DEBOUNCE_MS: 12 V input debounce before RAMP, in ms; 10 if not stored; 0 acts as 1 -/
def HUB_MODE_CFG_DEBOUNCE_MS : Fld := ⟨0x4, 0x0, 0, 8, .rw, 10, true, true⟩
/-- R208 HUB_MODE_CFG_AUTO_RAMP: leave STANDBY when the input is good; 1 if not stored -/
def HUB_MODE_CFG_AUTO_RAMP : Fld := ⟨0x4, 0x0, 8, 1, .rw, 1, true, true⟩
/-- R208 HUB_BRAKE_CAUSE: cause code of R203 for the current or last BRAKE; 0 if none since … -/
def HUB_BRAKE_CAUSE : Fld := ⟨0x8, 0x0, 0, 8, .ro, 0, true, false⟩
/-- R208 HUB_BRAKE_SOURCE: source number of the fault (R21) -/
def HUB_BRAKE_SOURCE : Fld := ⟨0x8, 0x0, 8, 12, .ro, 0, true, false⟩
/-- R208 HUB_BRAKE_DRAIN: it drained -/
def HUB_BRAKE_DRAIN : Fld := ⟨0x8, 0x0, 20, 1, .ro, 0, true, false⟩
/-- R208 HUB_BRAKE_SEALED: its drain sealed -/
def HUB_BRAKE_SEALED : Fld := ⟨0x8, 0x0, 21, 1, .ro, 0, true, false⟩
/-- R208 HUB_BRAKE_RELEASES: brake releases since AON power-up -/
def HUB_BRAKE_RELEASES : Fld := ⟨0x8, 0x0, 24, 8, .ro, 0, true, false⟩
/-- R208 HUB_RESTART_MS: duration of the last restart, from its start (R187) to SERVICE, in ms -/
def HUB_RESTART_MS : Fld := ⟨0x10, 0x0, 0, 16, .ro, 0, false, false⟩
/-- R208 HUB_RESTART_DIRTY: a dirty shutdown was counted (R194) -/
def HUB_RESTART_DIRTY : Fld := ⟨0x10, 0x0, 16, 1, .ro, 0, false, false⟩
/-- R208 HUB_RESTART_FALLBACK: the fallback ran (R197) -/
def HUB_RESTART_FALLBACK : Fld := ⟨0x10, 0x0, 17, 1, .ro, 0, false, false⟩
/-- R208 HUB_RESTART_RESTORED: drain-area lines were restored -/
def HUB_RESTART_RESTORED : Fld := ⟨0x10, 0x0, 18, 1, .ro, 0, false, false⟩
/-- R208 HUB_RESTART_FW_SLOT: firmware slot booted: 0 A, 1 B -/
def HUB_RESTART_FW_SLOT : Fld := ⟨0x10, 0x0, 19, 1, .ro, 0, false, false⟩
/-- R208 HUB_RESTART_FW_OTHER_BAD: the other slot failed authentication -/
def HUB_RESTART_FW_OTHER_BAD : Fld := ⟨0x10, 0x0, 20, 1, .ro, 0, false, false⟩
/-- R208 HUB_RESTART_RECORD_LOST: the shutdown record was lost and R195 applied -/
def HUB_RESTART_RECORD_LOST : Fld := ⟨0x10, 0x0, 21, 1, .ro, 0, false, false⟩
/-- R208 HUB_RESTORE_LINES: lines restored into the cache -/
def HUB_RESTORE_LINES : Fld := ⟨0x14, 0x0, 0, 20, .ro, 0, false, false⟩
/-- R208 HUB_RESTORE_HOME_LINES:  lines programmed home in RECOVER -/
def HUB_RESTORE_HOME_LINES : Fld := ⟨0x18, 0x0, 0, 20, .ro, 0, false, false⟩
/-- R208 HUB_RESTORE_POISON_LINES:  lines restored as poison, respectively -/
def HUB_RESTORE_POISON_LINES : Fld := ⟨0x1C, 0x0, 0, 20, .ro, 0, false, false⟩
/-- R237 SEQ_CTRL_STATE: 0 idle, 1 power-up running, 2 power-up paused for retry, 3 done, 4 … -/
def SEQ_CTRL_STATE : Fld := ⟨0xC0000, 0x0, 0, 3, .ro, 0, true, false⟩
/-- R237 SEQ_CTRL_STEP: step executing or last executed -/
def SEQ_CTRL_STEP : Fld := ⟨0xC0000, 0x0, 3, 6, .ro, 0, true, false⟩
/-- R237 SEQ_CTRL_TABLE: table in use: 0 A, 1 B -/
def SEQ_CTRL_TABLE : Fld := ⟨0xC0000, 0x0, 9, 1, .ro, 0, true, false⟩
/-- R237 SEQ_CFG_PU_TABLE: table for the next RAMP; 0 if not stored -/
def SEQ_CFG_PU_TABLE : Fld := ⟨0xC0004, 0x0, 0, 1, .rw, 0, true, true⟩
/-- R237 SEQ_CFG_PMB0_FAST: PMB0 at 1 MHz, otherwise 400 kHz; 0 if not stored -/
def SEQ_CFG_PMB0_FAST : Fld := ⟨0xC0004, 0x0, 1, 1, .rw, 0, true, true⟩
/-- R237 SEQ_CFG_PMB1_FAST: the same for PMB1 -/
def SEQ_CFG_PMB1_FAST : Fld := ⟨0xC0004, 0x0, 2, 1, .rw, 0, true, true⟩
/-- R237 SEQ_INRUSH_BUDGET: current step per tick, 0.1 A units; 100 if not stored; 0 acts as 1 -/
def SEQ_INRUSH_BUDGET : Fld := ⟨0xC0008, 0x0, 0, 12, .rw, 100, true, true⟩
/-- R237 SEQ_INRUSH_PEL_EN: admission only in slot ticks (R224); 0 if not stored -/
def SEQ_INRUSH_PEL_EN : Fld := ⟨0xC0008, 0x0, 12, 1, .rw, 0, true, true⟩
/-- R237 SEQ_INRUSH_SLOT_TICKS: slot length, 1 to 15 ticks; 4 if not stored; 0 acts as 1 -/
def SEQ_INRUSH_SLOT_TICKS : Fld := ⟨0xC0008, 0x0, 13, 4, .rw, 4, true, true⟩
/-- R237 SEQ_IN_CFG_VIN_FALL: input trip code; 737 if not stored -/
def SEQ_IN_CFG_VIN_FALL : Fld := ⟨0xC000C, 0x0, 0, 10, .rw, 737, true, true⟩
/-- R237 SEQ_IN_CFG_VIN_RISE: input good code; 778 if not stored -/
def SEQ_IN_CFG_VIN_RISE : Fld := ⟨0xC000C, 0x0, 10, 10, .rw, 778, true, true⟩
/-- R237 SEQ_IN_CFG_PWRFAIL_EN: PWRFAIL_N used; 1 if not stored -/
def SEQ_IN_CFG_PWRFAIL_EN : Fld := ⟨0xC000C, 0x0, 20, 1, .rw, 1, true, true⟩
/-- R237 SEQ_IN_CFG_HOLD_UV: reservoir comparator code (R216) -/
def SEQ_IN_CFG_HOLD_UV : Fld := ⟨0xC000C, 0x0, 21, 10, .rw, 0, true, true⟩
/-- R237 SEQ_IN_STATUS_VIN_LOW: input fell below VIN_FALL and has not risen above VIN_RISE -/
def SEQ_IN_STATUS_VIN_LOW : Fld := ⟨0xC0010, 0x0, 0, 1, .ro, 0, true, false⟩
/-- R237 SEQ_IN_STATUS_VIN_GOOD: input above VIN_RISE -/
def SEQ_IN_STATUS_VIN_GOOD : Fld := ⟨0xC0010, 0x0, 1, 1, .ro, 0, true, false⟩
/-- R237 SEQ_IN_STATUS_PWRFAIL: PWRFAIL_N low -/
def SEQ_IN_STATUS_PWRFAIL : Fld := ⟨0xC0010, 0x0, 2, 1, .ro, 0, true, false⟩
/-- R237 SEQ_IN_STATUS_HOLD_LOW: HOLD_SENSE below HOLD_UV -/
def SEQ_IN_STATUS_HOLD_LOW : Fld := ⟨0xC0010, 0x0, 3, 1, .ro, 0, true, false⟩
/-- R237 SEQ_ERR_NOTE: a fault was noted -/
def SEQ_ERR_NOTE : Fld := ⟨0xC0014, 0x0, 0, 1, .rw1c, 0, true, false⟩
/-- R237 SEQ_ERR_RETRY: a retry ran -/
def SEQ_ERR_RETRY : Fld := ⟨0xC0014, 0x0, 1, 1, .rw1c, 0, true, false⟩
/-- R237 SEQ_ERR_RETRY_FAIL: retries were exhausted -/
def SEQ_ERR_RETRY_FAIL : Fld := ⟨0xC0014, 0x0, 2, 1, .rw1c, 0, true, false⟩
/-- R237 SEQ_ERR_GROUP_OFF: a group was lowered -/
def SEQ_ERR_GROUP_OFF : Fld := ⟨0xC0014, 0x0, 3, 1, .rw1c, 0, true, false⟩
/-- R237 SEQ_ERR_BRAKE: a rail fault latched BRAKE -/
def SEQ_ERR_BRAKE : Fld := ⟨0xC0014, 0x0, 4, 1, .rw1c, 0, true, false⟩
/-- R237 SEQ_ERR_MARGIN_FAIL: a margin failed its window check -/
def SEQ_ERR_MARGIN_FAIL : Fld := ⟨0xC0014, 0x0, 5, 1, .rw1c, 0, true, false⟩
/-- R237 SEQ_ERR_SLOT_UNSYNC: enables were admitted on an unaligned GTC -/
def SEQ_ERR_SLOT_UNSYNC : Fld := ⟨0xC0014, 0x0, 6, 1, .rw1c, 0, true, false⟩
/-- R237 SEQ_ERR_HOLD_LOW_FW: the reservoir comparator acted (R216) -/
def SEQ_ERR_HOLD_LOW_FW : Fld := ⟨0xC0014, 0x0, 7, 1, .rw1c, 0, true, false⟩
/-- R237 SEQ_ERR_PMB_ERR: a PMBus transaction failed twice -/
def SEQ_ERR_PMB_ERR : Fld := ⟨0xC0014, 0x0, 8, 1, .rw1c, 0, true, false⟩
/-- R237 SEQ_ERR_CFG_BAD: a pass-through write left a gang invalid; the gang is treated as empty -/
def SEQ_ERR_CFG_BAD : Fld := ⟨0xC0014, 0x0, 9, 1, .rw1c, 0, true, false⟩
/-- R237 SEQ_GANGg_MEMBERS: bit n: RAILn is a member; 0 (unused) if not stored -/
def SEQ_GANGg_MEMBERS : Fld := ⟨0xC0020, 0x4, 0, 32, .rw, 0, true, true⟩
/-- R237 SEQ_FFL_GTC_LO_GTC: low and high halves of the first trip's GTC stamp, respectively -/
def SEQ_FFL_GTC_LO_GTC : Fld := ⟨0xC0040, 0x0, 0, 32, .ro, 0, true, false⟩
/-- R237 SEQ_FFL_GTC_HI_GTC: low and high halves of the first trip's GTC stamp, respectively -/
def SEQ_FFL_GTC_HI_GTC : Fld := ⟨0xC0044, 0x0, 0, 32, .ro, 0, true, false⟩
/-- R237 SEQ_FFL_UV_STATE: bit n: channel n's UV tripped -/
def SEQ_FFL_UV_STATE : Fld := ⟨0xC0048, 0x0, 0, 32, .ro, 0, true, false⟩
/-- R237 SEQ_FFL_OV_STATE:  OV tripped -/
def SEQ_FFL_OV_STATE : Fld := ⟨0xC004C, 0x0, 0, 32, .ro, 0, true, false⟩
/-- R237 SEQ_FFL_PG_STATE:  power good -/
def SEQ_FFL_PG_STATE : Fld := ⟨0xC0050, 0x0, 0, 32, .ro, 0, true, false⟩
/-- R237 SEQ_FFL_EN_STATE:  EN asserted, respectively, at the first trip -/
def SEQ_FFL_EN_STATE : Fld := ⟨0xC0054, 0x0, 0, 32, .ro, 0, true, false⟩
/-- R237 SEQ_FFL_SRC_SOURCE: source number of the first trip -/
def SEQ_FFL_SRC_SOURCE : Fld := ⟨0xC0058, 0x0, 0, 12, .ro, 0, true, false⟩
/-- R237 SEQ_FFL_SRC_KIND: kind of R226, or 8 input, 9 PWRFAIL_N, 10 other brake cause -/
def SEQ_FFL_SRC_KIND : Fld := ⟨0xC0058, 0x0, 12, 4, .ro, 0, true, false⟩
/-- R237 SEQ_FFL_SRC_VALID: the latch holds a trip; cleared at entry to RAMP -/
def SEQ_FFL_SRC_VALID : Fld := ⟨0xC0058, 0x0, 16, 1, .ro, 0, true, false⟩
/-- R237 SEQ_FFL_SRC_VIN_LOW: input comparator tripped -/
def SEQ_FFL_SRC_VIN_LOW : Fld := ⟨0xC0058, 0x0, 17, 1, .ro, 0, true, false⟩
/-- R237 SEQ_FFL_SRC_PWRFAIL: PWRFAIL_N low -/
def SEQ_FFL_SRC_PWRFAIL : Fld := ⟨0xC0058, 0x0, 18, 1, .ro, 0, true, false⟩
/-- R237 SEQ_FFL_SRC_HOLD_LOW: reservoir comparator tripped -/
def SEQ_FFL_SRC_HOLD_LOW : Fld := ⟨0xC0058, 0x0, 19, 1, .ro, 0, true, false⟩
/-- R237 SEQ_FFL_SRC_CAUSE: brake cause of R203 for kind 10; otherwise 0 -/
def SEQ_FFL_SRC_CAUSE : Fld := ⟨0xC0058, 0x0, 20, 8, .ro, 0, true, false⟩
/-- R237 SEQ_CHn_CFG_EN_MODE: 0 monitor only, 1 push-pull 1.8 V, 2 push-pull 3.3 V, 3 open … -/
def SEQ_CHn_CFG_EN_MODE : Fld := ⟨0xC0200, 0x20, 0, 2, .rw, 0, true, true⟩
/-- R237 SEQ_CHn_CFG_EN_POL: 0 active high, 1 active low -/
def SEQ_CHn_CFG_EN_POL : Fld := ⟨0xC0200, 0x20, 2, 1, .rw, 0, true, true⟩
/-- R237 SEQ_CHn_CFG_PG_EN: PG pin used (R213) -/
def SEQ_CHn_CFG_PG_EN : Fld := ⟨0xC0200, 0x20, 3, 1, .rw, 0, true, true⟩
/-- R237 SEQ_CHn_CFG_PG_POL: 0 good when high, 1 good when low -/
def SEQ_CHn_CFG_PG_POL : Fld := ⟨0xC0200, 0x20, 4, 1, .rw, 0, true, true⟩
/-- R237 SEQ_CHn_CFG_CRIT: core, SRAM or media rail (R227) -/
def SEQ_CHn_CFG_CRIT : Fld := ⟨0xC0200, 0x20, 5, 1, .rw, 0, true, true⟩
/-- R237 SEQ_CHn_CFG_GROUP: group 1 to 7; 0 none -/
def SEQ_CHn_CFG_GROUP : Fld := ⟨0xC0200, 0x20, 6, 3, .rw, 0, true, true⟩
/-- R237 SEQ_CHn_CFG_RESP_UV: 0 note, 1 retry, 2 group-off, 3 brake; 0 if not stored -/
def SEQ_CHn_CFG_RESP_UV : Fld := ⟨0xC0200, 0x20, 9, 2, .rw, 0, true, true⟩
/-- R237 SEQ_CHn_CFG_RESP_OV: the same encoding; 3 if not stored -/
def SEQ_CHn_CFG_RESP_OV : Fld := ⟨0xC0200, 0x20, 11, 2, .rw, 3, true, true⟩
/-- R237 SEQ_CHn_CFG_RETRY_MAX: 1 to 3; 3 if not stored; 0 acts as 1 -/
def SEQ_CHn_CFG_RETRY_MAX : Fld := ⟨0xC0200, 0x20, 13, 2, .rw, 3, true, true⟩
/-- R237 SEQ_CHn_CFG_PRIO: admission priority, 0 first -/
def SEQ_CHn_CFG_PRIO : Fld := ⟨0xC0200, 0x20, 15, 2, .rw, 0, true, true⟩
/-- R237 SEQ_CHn_CFG_INRUSH: inrush step, 0.1 A units -/
def SEQ_CHn_CFG_INRUSH : Fld := ⟨0xC0200, 0x20, 17, 8, .rw, 0, true, true⟩
/-- R237 SEQ_CHn_WIN_UV: UV threshold code -/
def SEQ_CHn_WIN_UV : Fld := ⟨0xC0204, 0x20, 0, 10, .rw, 0, true, true⟩
/-- R237 SEQ_CHn_WIN_OV: OV threshold code; 1,023 if not stored -/
def SEQ_CHn_WIN_OV : Fld := ⟨0xC0204, 0x20, 10, 10, .rw, 1023, true, true⟩
/-- R237 SEQ_CHn_WIN_GLITCH: glitch filter in 10 ns units -/
def SEQ_CHn_WIN_GLITCH : Fld := ⟨0xC0204, 0x20, 20, 7, .rw, 0, true, true⟩
/-- R237 SEQ_CHn_WIN_UV_EN: UV comparator used -/
def SEQ_CHn_WIN_UV_EN : Fld := ⟨0xC0204, 0x20, 27, 1, .rw, 0, true, true⟩
/-- R237 SEQ_CHn_WIN_OV_EN: OV comparator used -/
def SEQ_CHn_WIN_OV_EN : Fld := ⟨0xC0204, 0x20, 28, 1, .rw, 0, true, true⟩
/-- R237 SEQ_CHn_TIME_PG_TIMEOUT: in units of 64 ticks (16 µs); 625 (10 ms) if not stored; 0 acts as 1 -/
def SEQ_CHn_TIME_PG_TIMEOUT : Fld := ⟨0xC0208, 0x20, 0, 12, .rw, 625, true, true⟩
/-- R237 SEQ_CHn_TIME_OFF_DELAY: power-down delay in ticks; 40 if not stored -/
def SEQ_CHn_TIME_OFF_DELAY : Fld := ⟨0xC0208, 0x20, 12, 12, .rw, 40, true, true⟩
/-- R237 SEQ_CHn_MARGIN_PATH: 0 none, 1 trim, 2 PMBus; 3 acts as 0 -/
def SEQ_CHn_MARGIN_PATH : Fld := ⟨0xC020C, 0x20, 0, 2, .rw, 0, true, true⟩
/-- R237 SEQ_CHn_MARGIN_TRIM: trim output number -/
def SEQ_CHn_MARGIN_TRIM : Fld := ⟨0xC020C, 0x20, 2, 4, .rw, 0, true, true⟩
/-- R237 SEQ_CHn_MARGIN_PORT: PMBus port 0 or 1 -/
def SEQ_CHn_MARGIN_PORT : Fld := ⟨0xC020C, 0x20, 6, 1, .rw, 0, true, true⟩
/-- R237 SEQ_CHn_MARGIN_ADDR: PMBus 7-bit address -/
def SEQ_CHn_MARGIN_ADDR : Fld := ⟨0xC020C, 0x20, 7, 7, .rw, 0, true, true⟩
/-- R237 SEQ_CHn_MARGIN_PAGE: PMBus page -/
def SEQ_CHn_MARGIN_PAGE : Fld := ⟨0xC020C, 0x20, 14, 8, .rw, 0, true, true⟩
/-- R237 SEQ_CHn_MARGIN_PEC: use PEC -/
def SEQ_CHn_MARGIN_PEC : Fld := ⟨0xC020C, 0x20, 22, 1, .rw, 0, true, true⟩
/-- R237 SEQ_CHn_TRIM_NEUTRAL: code that leaves the rail at nominal -/
def SEQ_CHn_TRIM_NEUTRAL : Fld := ⟨0xC0210, 0x20, 0, 10, .rw, 0, true, true⟩
/-- R237 SEQ_CHn_TRIM_CODE: code being driven -/
def SEQ_CHn_TRIM_CODE : Fld := ⟨0xC0210, 0x20, 10, 10, .ro, 0, true, false⟩
/-- R237 SEQ_CHn_TRIM_SLEW: codes per tick, 1 to 15; 1 if not stored; 0 acts as 1 -/
def SEQ_CHn_TRIM_SLEW : Fld := ⟨0xC0210, 0x20, 20, 4, .rw, 1, true, true⟩
/-- R237 SEQ_CHn_TRIM_DRIVING: the trim output is driving -/
def SEQ_CHn_TRIM_DRIVING : Fld := ⟨0xC0210, 0x20, 24, 1, .ro, 0, true, false⟩
/-- R237 SEQ_CHn_SCALE_DIV_X256: sense divider ratio × 256; 256 if not stored -/
def SEQ_CHn_SCALE_DIV_X256 : Fld := ⟨0xC0214, 0x20, 0, 16, .rw, 256, true, true⟩
/-- R237 SEQ_CHn_STATUS_EN: enable asserted -/
def SEQ_CHn_STATUS_EN : Fld := ⟨0xC0218, 0x20, 0, 1, .ro, 0, true, false⟩
/-- R237 SEQ_CHn_STATUS_PG: power good (R213) -/
def SEQ_CHn_STATUS_PG : Fld := ⟨0xC0218, 0x20, 1, 1, .ro, 0, true, false⟩
/-- R237 SEQ_CHn_STATUS_UV_TRIP: UV comparator tripped -/
def SEQ_CHn_STATUS_UV_TRIP : Fld := ⟨0xC0218, 0x20, 2, 1, .ro, 0, true, false⟩
/-- R237 SEQ_CHn_STATUS_OV_TRIP: OV comparator tripped -/
def SEQ_CHn_STATUS_OV_TRIP : Fld := ⟨0xC0218, 0x20, 3, 1, .ro, 0, true, false⟩
/-- R237 SEQ_CHn_STATUS_UV_ARMED: UV comparator armed -/
def SEQ_CHn_STATUS_UV_ARMED : Fld := ⟨0xC0218, 0x20, 4, 1, .ro, 0, true, false⟩
/-- R237 SEQ_CHn_STATUS_PENDING: enable request awaiting admission -/
def SEQ_CHn_STATUS_PENDING : Fld := ⟨0xC0218, 0x20, 5, 1, .ro, 0, true, false⟩
/-- R237 SEQ_CHn_STATUS_RETRYING: retry in progress -/
def SEQ_CHn_STATUS_RETRYING : Fld := ⟨0xC0218, 0x20, 6, 1, .ro, 0, true, false⟩
/-- R237 SEQ_CHn_STATUS_OFF_FAULT: lowered by group-off or escalation -/
def SEQ_CHn_STATUS_OFF_FAULT : Fld := ⟨0xC0218, 0x20, 7, 1, .ro, 0, true, false⟩
/-- R237 SEQ_CHn_STATUS_FAULT_SEEN: a fault occurred this session -/
def SEQ_CHn_STATUS_FAULT_SEEN : Fld := ⟨0xC0218, 0x20, 8, 1, .ro, 0, true, false⟩
/-- R237 SEQ_CHn_STATUS_MARGINED: a margin is in effect -/
def SEQ_CHn_STATUS_MARGINED : Fld := ⟨0xC0218, 0x20, 9, 1, .ro, 0, true, false⟩
/-- R237 SEQ_CHn_STATUS_RETRIES: retries this session -/
def SEQ_CHn_STATUS_RETRIES : Fld := ⟨0xC0218, 0x20, 10, 2, .ro, 0, true, false⟩
/-- R237 SEQ_CHn_STATUS_LAST_KIND: kind of the last fault (R226) -/
def SEQ_CHn_STATUS_LAST_KIND : Fld := ⟨0xC0218, 0x20, 12, 4, .ro, 0, true, false⟩
/-- R237 SEQ_CHn_COUNT_FAULTS: faults since AON power-up -/
def SEQ_CHn_COUNT_FAULTS : Fld := ⟨0xC021C, 0x20, 0, 16, .ro, 0, true, false⟩
/-- R237 SEQ_CHn_COUNT_RETRIES: retries since AON power-up -/
def SEQ_CHn_COUNT_RETRIES : Fld := ⟨0xC021C, 0x20, 16, 16, .ro, 0, true, false⟩
/-- R237 SEQ_STEPk_STEP: step k of the table in use, as in R218 -/
def SEQ_STEPk_STEP : Fld := ⟨0xC0800, 0x4, 0, 32, .ro, 0, true, false⟩
/-- R264 MCV_STATUS_ON: bit n: converter n powered -/
def MCV_STATUS_ON : Fld := ⟨0xC4000, 0x0, 0, 8, .ro, 0, true, false⟩
/-- R264 MCV_STATUS_LP: bit n: converter n in low-power mode -/
def MCV_STATUS_LP : Fld := ⟨0xC4000, 0x0, 8, 8, .ro, 0, true, false⟩
/-- R264 MCV_STATUS_CAL_BUSY: bit n: converter n calibrating -/
def MCV_STATUS_CAL_BUSY : Fld := ⟨0xC4000, 0x0, 16, 8, .ro, 0, true, false⟩
/-- R264 MCV_STATUS_DIAG_BUSY: bit p: pair p diagnosing -/
def MCV_STATUS_DIAG_BUSY : Fld := ⟨0xC4000, 0x0, 24, 4, .ro, 0, true, false⟩
/-- R264 MCV_ERR_OVERRUN: a trigger was dropped -/
def MCV_ERR_OVERRUN : Fld := ⟨0xC4004, 0x0, 0, 1, .rw1c, 0, true, false⟩
/-- R264 MCV_ERR_FIFO_OVF: a result found its FIFO full -/
def MCV_ERR_FIFO_OVF : Fld := ⟨0xC4004, 0x0, 1, 1, .rw1c, 0, true, false⟩
/-- R264 MCV_ERR_SKIP: a slot was skipped -/
def MCV_ERR_SKIP : Fld := ⟨0xC4004, 0x0, 2, 1, .rw1c, 0, true, false⟩
/-- R264 MCV_ERR_INJ_REFUSED: an injected request was refused -/
def MCV_ERR_INJ_REFUSED : Fld := ⟨0xC4004, 0x0, 3, 1, .rw1c, 0, true, false⟩
/-- R264 MCV_ERR_CAL_FAIL: a calibration was rejected -/
def MCV_ERR_CAL_FAIL : Fld := ⟨0xC4004, 0x0, 4, 1, .rw1c, 0, true, false⟩
/-- R264 MCV_ERR_CAL_ABORTED: a calibration was stopped (R254) -/
def MCV_ERR_CAL_ABORTED : Fld := ⟨0xC4004, 0x0, 5, 1, .rw1c, 0, true, false⟩
/-- R264 MCV_ERR_DIAG_FAULT: a diagnosis found a fault -/
def MCV_ERR_DIAG_FAULT : Fld := ⟨0xC4004, 0x0, 6, 1, .rw1c, 0, true, false⟩
/-- R264 MCV_ERR_LIMIT: an input crossed a limit -/
def MCV_ERR_LIMIT : Fld := ⟨0xC4004, 0x0, 7, 1, .rw1c, 0, true, false⟩
/-- R264 MCV_ERR_TJ_WARN: junction temperature reached WARN -/
def MCV_ERR_TJ_WARN : Fld := ⟨0xC4004, 0x0, 8, 1, .rw1c, 0, true, false⟩
/-- R264 MCV_RING_WP_WP: ring entry to be written next -/
def MCV_RING_WP_WP : Fld := ⟨0xC4008, 0x0, 0, 8, .ro, 0, true, false⟩
/-- R264 MCV_RING_WP_WRAPS: laps of the ring -/
def MCV_RING_WP_WRAPS : Fld := ⟨0xC4008, 0x0, 8, 24, .ro, 0, true, false⟩
/-- R264 MCV_TJ_CODE: latest MC1 junction temperature code -/
def MCV_TJ_CODE : Fld := ⟨0xC400C, 0x0, 0, 12, .ro, 0, true, false⟩
/-- R264 MCV_TJ_DEG_C: the same in °C, two's complement -/
def MCV_TJ_DEG_C : Fld := ⟨0xC400C, 0x0, 12, 8, .ro, 0, true, false⟩
/-- R264 MCV_TJ_LIM_WARN: warning code; 2,278 if not stored -/
def MCV_TJ_LIM_WARN : Fld := ⟨0xC4010, 0x0, 0, 12, .rw, 2278, true, true⟩
/-- R264 MCV_TJ_LIM_SHUT: shutdown code; 2,438 if not stored -/
def MCV_TJ_LIM_SHUT : Fld := ⟨0xC4010, 0x0, 12, 12, .rw, 2438, true, true⟩
/-- R264 MCV_DIAG_INPUT: input to diagnose, 0 to 95 -/
def MCV_DIAG_INPUT : Fld := ⟨0xC4014, 0x0, 0, 7, .rw, 0, true, false⟩
/-- R264 MCV_DIAG_START: 1 starts a diagnosis of INPUT -/
def MCV_DIAG_START : Fld := ⟨0xC4014, 0x0, 7, 1, .wo, 0, true, false⟩
/-- R264 MCV_DIAG_RES_SPAN: span measured -/
def MCV_DIAG_RES_SPAN : Fld := ⟨0xC4018, 0x0, 0, 12, .ro, 0, true, false⟩
/-- R264 MCV_DIAG_RES_RESULT: 0 PASS, 1 OPEN, 2 SHORT, 3 RANGE, 4 GAIN, 5 refused, 6 stopped by … -/
def MCV_DIAG_RES_RESULT : Fld := ⟨0xC4018, 0x0, 12, 3, .ro, 0, true, false⟩
/-- R264 MCV_DIAG_RES_INPUT: input diagnosed -/
def MCV_DIAG_RES_INPUT : Fld := ⟨0xC4018, 0x0, 15, 7, .ro, 0, true, false⟩
/-- R264 MCV_DIAG_RES_DONE: the last diagnosis has finished -/
def MCV_DIAG_RES_DONE : Fld := ⟨0xC4018, 0x0, 22, 1, .ro, 0, true, false⟩
/-- R264 MCVn_SEL_CH: local channel of the running or last conversion -/
def MCVn_SEL_CH : Fld := ⟨0xC4100, 0x40, 0, 4, .ro, 0, true, false⟩
/-- R264 MCVn_SEL_INJ_CH: local channel for an injected request -/
def MCVn_SEL_INJ_CH : Fld := ⟨0xC4100, 0x40, 8, 4, .rw, 0, true, false⟩
/-- R264 MCVn_SEL_INJ: 1 places an injected request (R247) -/
def MCVn_SEL_INJ : Fld := ⟨0xC4100, 0x40, 12, 1, .wo, 0, true, false⟩
/-- R264 MCVn_SEL_INJ_PEND: an injected request is pending -/
def MCVn_SEL_INJ_PEND : Fld := ⟨0xC4100, 0x40, 13, 1, .ro, 0, true, false⟩
/-- R264 MCVn_CFG_SPACING: slot spacing in ticks, normal mode; 4 if not stored -/
def MCVn_CFG_SPACING : Fld := ⟨0xC4104, 0x40, 0, 8, .rw, 4, true, true⟩
/-- R264 MCVn_CFG_LP_SPACING: slot spacing in low-power mode; 32 if not stored -/
def MCVn_CFG_LP_SPACING : Fld := ⟨0xC4104, 0x40, 8, 8, .rw, 32, true, true⟩
/-- R264 MCVn_CFG_LEN: schedule length minus 1: 0 to 63 for 1 to 64 slots (R244); 0 (one … -/
def MCVn_CFG_LEN : Fld := ⟨0xC4104, 0x40, 16, 6, .rw, 0, true, true⟩
/-- R264 MCVn_CFG_LP: low-power mode where R243 allows a choice; 0 if not stored -/
def MCVn_CFG_LP : Fld := ⟨0xC4104, 0x40, 22, 1, .rw, 0, true, true⟩
/-- R264 MCVn_CFG_DROP_NEW: pending policy: 0 depth 1, 1 drop-new -/
def MCVn_CFG_DROP_NEW : Fld := ⟨0xC4104, 0x40, 23, 1, .rw, 0, true, true⟩
/-- R264 MCVn_CFG_EN: schedule runs; 1 if not stored -/
def MCVn_CFG_EN : Fld := ⟨0xC4104, 0x40, 24, 1, .rw, 1, true, true⟩
/-- R264 MCVn_CFG_INT_FIFO: internal-source results enter the FIFO and ring -/
def MCVn_CFG_INT_FIFO : Fld := ⟨0xC4104, 0x40, 25, 1, .rw, 0, true, true⟩
/-- R264 MCVn_TRIG_SRC: trigger source (R249); 0 if not stored -/
def MCVn_TRIG_SRC : Fld := ⟨0xC4108, 0x40, 0, 3, .rw, 0, true, true⟩
/-- R264 MCVn_TRIG_CHAN: rail channel for sources 1, 2 and 5 -/
def MCVn_TRIG_CHAN : Fld := ⟨0xC4108, 0x40, 3, 5, .rw, 0, true, true⟩
/-- R264 MCVn_TRIG_CONV: converter for source 4 -/
def MCVn_TRIG_CONV : Fld := ⟨0xC4108, 0x40, 8, 3, .rw, 0, true, true⟩
/-- R264 MCVn_TRIG_CH: local channel to convert -/
def MCVn_TRIG_CH : Fld := ⟨0xC4108, 0x40, 11, 4, .rw, 0, true, true⟩
/-- R264 MCVn_TRIG_EDGE: 0 rising, 1 both edges -/
def MCVn_TRIG_EDGE : Fld := ⟨0xC4108, 0x40, 15, 1, .rw, 0, true, true⟩
/-- R264 MCVn_TRIG_PERIOD: ticks for source 3; 0 acts as 1 -/
def MCVn_TRIG_PERIOD : Fld := ⟨0xC4108, 0x40, 16, 16, .rw, 0, true, true⟩
/-- R264 MCVn_CAL_OFFSET: offset in sixteenths of a code, two's complement -/
def MCVn_CAL_OFFSET : Fld := ⟨0xC410C, 0x40, 0, 12, .ro, 0, true, true⟩
/-- R264 MCVn_CAL_GAIN: gain, 0x8000 = 1.0 -/
def MCVn_CAL_GAIN : Fld := ⟨0xC410C, 0x40, 12, 16, .ro, 32768, true, true⟩
/-- R264 MCVn_CAL_START: 1 starts a calibration (R253) -/
def MCVn_CAL_START : Fld := ⟨0xC410C, 0x40, 28, 1, .wo, 0, true, false⟩
/-- R264 MCVn_CAL_BUSY: calibration running -/
def MCVn_CAL_BUSY : Fld := ⟨0xC410C, 0x40, 29, 1, .ro, 0, true, false⟩
/-- R264 MCVn_FIFO0_WORD: words 0, 1 and 2 of the oldest entry (R259), respectively -/
def MCVn_FIFO0_WORD : Fld := ⟨0xC4110, 0x40, 0, 32, .ro, 0, true, false⟩
/-- R264 MCVn_FIFO1_WORD: words 0, 1 and 2 of the oldest entry (R259), respectively -/
def MCVn_FIFO1_WORD : Fld := ⟨0xC4114, 0x40, 0, 32, .ro, 0, true, false⟩
/-- R264 MCVn_FIFO2_WORD: words 0, 1 and 2 of the oldest entry (R259), respectively -/
def MCVn_FIFO2_WORD : Fld := ⟨0xC4118, 0x40, 0, 32, .ro, 0, true, false⟩
/-- R264 MCVn_FSTAT_LEVEL: entries held, 0 to 32 -/
def MCVn_FSTAT_LEVEL : Fld := ⟨0xC411C, 0x40, 0, 6, .ro, 0, true, false⟩
/-- R264 MCVn_FSTAT_OVF: results not entered because the FIFO was full -/
def MCVn_FSTAT_OVF : Fld := ⟨0xC411C, 0x40, 16, 16, .ro, 0, true, false⟩
/-- R264 MCVn_OVERRUN_COUNT: triggers dropped -/
def MCVn_OVERRUN_COUNT : Fld := ⟨0xC4120, 0x40, 0, 16, .ro, 0, true, false⟩
/-- R264 MCVn_OVERRUN_SKIPS: slots skipped -/
def MCVn_OVERRUN_SKIPS : Fld := ⟨0xC4120, 0x40, 16, 16, .ro, 0, true, false⟩
/-- R264 MCVn_SLOTj_CH0: local channel of slot 2j -/
def MCVn_SLOTj_CH0 : Fld := ⟨0xC4800, 0x4, 0, 4, .rw, 0, true, true⟩
/-- R264 MCVn_SLOTj_USE0: slot 2j in use -/
def MCVn_SLOTj_USE0 : Fld := ⟨0xC4800, 0x4, 4, 1, .rw, 0, true, true⟩
/-- R264 MCVn_SLOTj_CH1: local channel of slot 2j + 1 -/
def MCVn_SLOTj_CH1 : Fld := ⟨0xC4800, 0x4, 16, 4, .rw, 0, true, true⟩
/-- R264 MCVn_SLOTj_USE1: slot 2j + 1 in use -/
def MCVn_SLOTj_USE1 : Fld := ⟨0xC4800, 0x4, 20, 1, .rw, 0, true, true⟩
/-- R264 MCV_INk_CFG_ORDER: filter order k − 1 -/
def MCV_INk_CFG_ORDER : Fld := ⟨0xC5000, 0x8, 0, 2, .rw, 0, true, true⟩
/-- R264 MCV_INk_CFG_LEN: filter length D − 1 -/
def MCV_INk_CFG_LEN : Fld := ⟨0xC5000, 0x8, 2, 8, .rw, 0, true, true⟩
/-- R264 MCV_INk_CFG_FIFO_EN: results enter the FIFO -/
def MCV_INk_CFG_FIFO_EN : Fld := ⟨0xC5000, 0x8, 10, 1, .rw, 0, true, true⟩
/-- R264 MCV_INk_CFG_RING_EN: results enter the ring -/
def MCV_INk_CFG_RING_EN : Fld := ⟨0xC5000, 0x8, 11, 1, .rw, 0, true, true⟩
/-- R264 MCV_INk_CFG_LIM_EN: limit window used -/
def MCV_INk_CFG_LIM_EN : Fld := ⟨0xC5000, 0x8, 12, 1, .rw, 0, true, true⟩
/-- R264 MCV_INk_CFG_LIM_ACT: action on a crossing (R257) -/
def MCV_INk_CFG_LIM_ACT : Fld := ⟨0xC5000, 0x8, 13, 2, .rw, 0, true, true⟩
/-- R264 MCV_INk_CFG_SPAN_MIN: diagnosis span minimum, 16-code units -/
def MCV_INk_CFG_SPAN_MIN : Fld := ⟨0xC5000, 0x8, 16, 8, .rw, 0, true, true⟩
/-- R264 MCV_INk_CFG_SPAN_MAX: diagnosis span maximum, 16-code units; 255 if not stored -/
def MCV_INk_CFG_SPAN_MAX : Fld := ⟨0xC5000, 0x8, 24, 8, .rw, 255, true, true⟩
/-- R264 MCV_INk_LIM_LO: lower limit code -/
def MCV_INk_LIM_LO : Fld := ⟨0xC5004, 0x8, 0, 12, .rw, 0, true, true⟩
/-- R264 MCV_INk_LIM_HI: upper limit code; 4,095 if not stored -/
def MCV_INk_LIM_HI : Fld := ⟨0xC5004, 0x8, 12, 12, .rw, 4095, true, true⟩
/-- R264 MCV_INk_LIM_HYST: hysteresis in codes -/
def MCV_INk_LIM_HYST : Fld := ⟨0xC5004, 0x8, 24, 4, .rw, 0, true, true⟩
/-- R264 MCV_INk_VAL_RAW: latest RAW -/
def MCV_INk_VAL_RAW : Fld := ⟨0xC5400, 0x4, 0, 12, .ro, 0, true, false⟩
/-- R264 MCV_INk_VAL_FILT: latest FILT -/
def MCV_INk_VAL_FILT : Fld := ⟨0xC5400, 0x4, 12, 16, .ro, 0, true, false⟩
/-- R264 MCV_INk_VAL_SETTLED: filter settled -/
def MCV_INk_VAL_SETTLED : Fld := ⟨0xC5400, 0x4, 28, 1, .ro, 0, true, false⟩
/-- R264 MCV_INk_VAL_LIM_LO: below LO and not yet returned -/
def MCV_INk_VAL_LIM_LO : Fld := ⟨0xC5400, 0x4, 29, 1, .ro, 0, true, false⟩
/-- R264 MCV_INk_VAL_LIM_HI: at or above HI and not yet returned -/
def MCV_INk_VAL_LIM_HI : Fld := ⟨0xC5400, 0x4, 30, 1, .ro, 0, true, false⟩
/-- R264 MCV_RINGe_WORD: words 0, 1 and 2 of the entry (R259), and a reserved word reading … -/
def MCV_RINGe_WORD : Fld := ⟨0xC6000, 0x4, 0, 32, .ro, 0, true, false⟩
/-- R289 REC_STATUS_DEGRADED: one copy out of use (R279) -/
def REC_STATUS_DEGRADED : Fld := ⟨0xC8000, 0x0, 0, 1, .ro, 0, true, false⟩
/-- R289 REC_STATUS_FAIL: volatile mode (R280) -/
def REC_STATUS_FAIL : Fld := ⟨0xC8000, 0x0, 1, 1, .ro, 0, true, false⟩
/-- R289 REC_STATUS_BANK_A_BAD: copy A failed write-verify -/
def REC_STATUS_BANK_A_BAD : Fld := ⟨0xC8000, 0x0, 2, 1, .ro, 0, true, false⟩
/-- R289 REC_STATUS_BANK_B_BAD: copy B failed write-verify -/
def REC_STATUS_BANK_B_BAD : Fld := ⟨0xC8000, 0x0, 3, 1, .ro, 0, true, false⟩
/-- R289 REC_STATUS_SCANNING: scan in progress -/
def REC_STATUS_SCANNING : Fld := ⟨0xC8000, 0x0, 4, 1, .ro, 1, true, false⟩
/-- R289 REC_STATUS_CLEARING: clear in progress -/
def REC_STATUS_CLEARING : Fld := ⟨0xC8000, 0x0, 5, 1, .ro, 0, true, false⟩
/-- R289 REC_STATUS_WRITING: a record write in progress -/
def REC_STATUS_WRITING : Fld := ⟨0xC8000, 0x0, 6, 1, .ro, 0, true, false⟩
/-- R289 REC_STATUS_PERM: permanent slots filled, 0 to 128; set by the scan -/
def REC_STATUS_PERM : Fld := ⟨0xC8000, 0x0, 7, 8, .ro, 0, true, false⟩
/-- R289 REC_SEQ_SEQ: next SEQ to assign -/
def REC_SEQ_SEQ : Fld := ⟨0xC8004, 0x0, 0, 32, .ro, 0, true, false⟩
/-- R289 REC_NEWEST_SEQ: next SEQ to assign -/
def REC_NEWEST_SEQ : Fld := ⟨0xC8008, 0x0, 0, 32, .ro, 0, true, false⟩
/-- R289 REC_OLDEST_SEQ: next SEQ to assign -/
def REC_OLDEST_SEQ : Fld := ⟨0xC800C, 0x0, 0, 32, .ro, 0, true, false⟩
/-- R289 REC_WP_SLOT: next circulating slot, 128 to 2,175; set by the scan -/
def REC_WP_SLOT : Fld := ⟨0xC8010, 0x0, 0, 12, .ro, 128, true, false⟩
/-- R289 REC_QUEUE_LEVEL: records waiting, 0 to 32 -/
def REC_QUEUE_LEVEL : Fld := ⟨0xC8014, 0x0, 0, 6, .ro, 0, true, false⟩
/-- R289 REC_QUEUE_HWM: most records waiting since AON power-up -/
def REC_QUEUE_HWM : Fld := ⟨0xC8014, 0x0, 6, 6, .ro, 0, true, false⟩
/-- R289 REC_QUEUE_FFL_PEND: the first-fault entry holds a record -/
def REC_QUEUE_FFL_PEND : Fld := ⟨0xC8014, 0x0, 12, 1, .ro, 0, true, false⟩
/-- R289 REC_LOST_COUNT: events lost to a full queue since AON power-up -/
def REC_LOST_COUNT : Fld := ⟨0xC8018, 0x0, 0, 32, .ro, 0, true, false⟩
/-- R289 REC_COUNTS_DAMAGED: damaged slots found by the last scan -/
def REC_COUNTS_DAMAGED : Fld := ⟨0xC801C, 0x0, 0, 16, .ro, 0, true, false⟩
/-- R289 REC_COUNTS_REPAIRED: copies repaired by scrub since AON power-up -/
def REC_COUNTS_REPAIRED : Fld := ⟨0xC801C, 0x0, 16, 16, .ro, 0, true, false⟩
/-- R289 REC_ERR_LOST: an event was lost -/
def REC_ERR_LOST : Fld := ⟨0xC8020, 0x0, 0, 1, .rw1c, 0, true, false⟩
/-- R289 REC_ERR_VERIFY_A: copy A failed write-verify -/
def REC_ERR_VERIFY_A : Fld := ⟨0xC8020, 0x0, 1, 1, .rw1c, 0, true, false⟩
/-- R289 REC_ERR_VERIFY_B: copy B failed write-verify -/
def REC_ERR_VERIFY_B : Fld := ⟨0xC8020, 0x0, 2, 1, .rw1c, 0, true, false⟩
/-- R289 REC_ERR_DAMAGED: the scan found a damaged slot -/
def REC_ERR_DAMAGED : Fld := ⟨0xC8020, 0x0, 3, 1, .rw1c, 0, true, false⟩
/-- R289 REC_ERR_REPAIRED: scrub repaired a copy -/
def REC_ERR_REPAIRED : Fld := ⟨0xC8020, 0x0, 4, 1, .rw1c, 0, true, false⟩
/-- R289 REC_ERR_VOLATILE: volatile mode was entered -/
def REC_ERR_VOLATILE : Fld := ⟨0xC8020, 0x0, 5, 1, .rw1c, 0, true, false⟩
/-- R289 REC_ERR_FWD_FAIL: a record could not be sent to the partner -/
def REC_ERR_FWD_FAIL : Fld := ⟨0xC8020, 0x0, 6, 1, .rw1c, 0, true, false⟩
/-- R289 REC_VRING_WP: ring entry to be written next -/
def REC_VRING_WP : Fld := ⟨0xC8024, 0x0, 0, 5, .ro, 0, true, false⟩
/-- R289 REC_VRING_COUNT: records held, 0 to 32 -/
def REC_VRING_COUNT : Fld := ⟨0xC8024, 0x0, 5, 6, .ro, 0, true, false⟩
/-- R289 REC_CFG_FWD_EN: send records to the tandem partner in volatile mode (R281); 1 if … -/
def REC_CFG_FWD_EN : Fld := ⟨0xC8028, 0x0, 0, 1, .rw, 1, true, true⟩
/-- R309 SBG_STATUS_READY: recall complete; follows AON_READY -/
def SBG_STATUS_READY : Fld := ⟨0xC9000, 0x0, 0, 1, .ro, 0, true, false⟩
/-- R309 SBG_STATUS_SUPPLY_OK: internal AON supply at or above 2.5 V -/
def SBG_STATUS_SUPPLY_OK : Fld := ⟨0xC9000, 0x0, 1, 1, .ro, 0, true, false⟩
/-- R309 SBG_STATUS_VAON_WARN: VAON below the warning threshold -/
def SBG_STATUS_VAON_WARN : Fld := ⟨0xC9000, 0x0, 2, 1, .ro, 0, true, false⟩
/-- R309 SBG_STATUS_AUTOSTORE: autostore running (R300) -/
def SBG_STATUS_AUTOSTORE : Fld := ⟨0xC9000, 0x0, 3, 1, .ro, 0, true, false⟩
/-- R309 SBG_STATUS_REFRESH: refresh pass running -/
def SBG_STATUS_REFRESH : Fld := ⟨0xC9000, 0x0, 4, 1, .ro, 0, true, false⟩
/-- R309 SBG_STATUS_BP: protection in effect (R302) -/
def SBG_STATUS_BP : Fld := ⟨0xC9000, 0x0, 5, 2, .ro, 0, true, false⟩
/-- R309 SBG_STATUS_DIRTY: pages whose working copy differs from the shadow, 0 to 4,096 -/
def SBG_STATUS_DIRTY : Fld := ⟨0xC9000, 0x0, 7, 13, .ro, 0, true, false⟩
/-- R309 SBG_BANK_BUSY: bit b: bank b is storing -/
def SBG_BANK_BUSY : Fld := ⟨0xC9004, 0x0, 0, 16, .ro, 0, true, false⟩
/-- R309 SBG_BANK_CAP_OK: bit b: bank b's storage capacitor is charged -/
def SBG_BANK_CAP_OK : Fld := ⟨0xC9004, 0x0, 16, 16, .ro, 0, true, false⟩
/-- R309 SBG_STORES_COUNT: stores completed since AON power-up -/
def SBG_STORES_COUNT : Fld := ⟨0xC9008, 0x0, 0, 32, .ro, 0, true, false⟩
/-- R309 SBG_RECALL_CORRECTED: words corrected by the last recall -/
def SBG_RECALL_CORRECTED : Fld := ⟨0xC900C, 0x0, 0, 16, .ro, 0, true, false⟩
/-- R309 SBG_RECALL_UE: pages with an uncorrectable word at the last recall -/
def SBG_RECALL_UE : Fld := ⟨0xC900C, 0x0, 16, 12, .ro, 0, true, false⟩
/-- R309 SBG_UE_PAGE_PAGE: first page with an uncorrectable word at recall -/
def SBG_UE_PAGE_PAGE : Fld := ⟨0xC9010, 0x0, 0, 12, .ro, 0, true, false⟩
/-- R309 SBG_UE_PAGE_VALID: PAGE is valid -/
def SBG_UE_PAGE_VALID : Fld := ⟨0xC9010, 0x0, 12, 1, .ro, 0, true, false⟩
/-- R309 SBG_UE_PAGE_FAILPAGE: last page that failed to store (R298) -/
def SBG_UE_PAGE_FAILPAGE : Fld := ⟨0xC9010, 0x0, 13, 12, .ro, 0, true, false⟩
/-- R309 SBG_UE_PAGE_FAIL_VALID: FAILPAGE is valid -/
def SBG_UE_PAGE_FAIL_VALID : Fld := ⟨0xC9010, 0x0, 25, 1, .ro, 0, true, false⟩
/-- R309 SBG_REFRESH_PASSES: refresh passes completed since AON power-up -/
def SBG_REFRESH_PASSES : Fld := ⟨0xC9014, 0x0, 0, 16, .ro, 0, true, false⟩
/-- R309 SBG_REFRESH_WEAK: pages stored again in the last pass -/
def SBG_REFRESH_WEAK : Fld := ⟨0xC9014, 0x0, 16, 12, .ro, 0, true, false⟩
/-- R309 SBG_ERR_RECALL_CE: recall corrected a word -/
def SBG_ERR_RECALL_CE : Fld := ⟨0xC9018, 0x0, 0, 1, .rw1c, 0, true, false⟩
/-- R309 SBG_ERR_RECALL_UE: recall found an uncorrectable word -/
def SBG_ERR_RECALL_UE : Fld := ⟨0xC9018, 0x0, 1, 1, .rw1c, 0, true, false⟩
/-- R309 SBG_ERR_STORE_RETRY: a store was repeated after a verify failure -/
def SBG_ERR_STORE_RETRY : Fld := ⟨0xC9018, 0x0, 2, 1, .rw1c, 0, true, false⟩
/-- R309 SBG_ERR_STORE_FAIL: a store failed twice (R298); ALERT_N is asserted while set -/
def SBG_ERR_STORE_FAIL : Fld := ⟨0xC9018, 0x0, 3, 1, .rw1c, 0, true, false⟩
/-- R309 SBG_ERR_NO_SUPPLY: a store was deferred by the supply or capacitor check -/
def SBG_ERR_NO_SUPPLY : Fld := ⟨0xC9018, 0x0, 4, 1, .rw1c, 0, true, false⟩
/-- R309 SBG_ERR_CTR_ODD: a counter had two good slots that were not adjacent (R305) -/
def SBG_ERR_CTR_ODD : Fld := ⟨0xC9018, 0x0, 5, 1, .rw1c, 0, true, false⟩
/-- R309 SBG_ERR_PROT_REFUSED: a command was refused by protection -/
def SBG_ERR_PROT_REFUSED : Fld := ⟨0xC9018, 0x0, 6, 1, .rw1c, 0, true, false⟩
/-- R309 SBG_ERR_KEY_COPY: a key copy was rewritten from its twin -/
def SBG_ERR_KEY_COPY : Fld := ⟨0xC9018, 0x0, 7, 1, .rw1c, 0, true, false⟩
/-- R309 SBG_ERR_REFRESH_FIX: refresh stored a weak page -/
def SBG_ERR_REFRESH_FIX : Fld := ⟨0xC9018, 0x0, 8, 1, .rw1c, 0, true, false⟩
/-- R309 SBG_CFG_LAZY_MS: lazy store delay in ms (R296); 0 acts as 1 -/
def SBG_CFG_LAZY_MS : Fld := ⟨0xC901C, 0x0, 0, 8, .rw, 1, true, false⟩
/-- R329 PEL_STATUS_DEVID: DEVID[3:0] -/
def PEL_STATUS_DEVID : Fld := ⟨0xCA000, 0x0, 0, 4, .ro, 0, true, false⟩
/-- R329 PEL_STATUS_MASTER: DEVID of the master followed -/
def PEL_STATUS_MASTER : Fld := ⟨0xCA000, 0x0, 4, 4, .ro, 0, true, false⟩
/-- R329 PEL_STATUS_IS_MASTER: this device is a master -/
def PEL_STATUS_IS_MASTER : Fld := ⟨0xCA000, 0x0, 8, 1, .ro, 0, true, false⟩
/-- R329 PEL_STATUS_ALIGNED: aligned (R312) -/
def PEL_STATUS_ALIGNED : Fld := ⟨0xCA000, 0x0, 9, 1, .ro, 0, true, false⟩
/-- R329 PEL_STATUS_SPLIT: split (R315) -/
def PEL_STATUS_SPLIT : Fld := ⟨0xCA000, 0x0, 10, 1, .ro, 0, true, false⟩
/-- R329 PEL_STATUS_SLEWING: GTC slewing -/
def PEL_STATUS_SLEWING : Fld := ⟨0xCA000, 0x0, 11, 1, .ro, 0, true, false⟩
/-- R329 PEL_STATUS_EPOCH: time-base epoch (R314) -/
def PEL_STATUS_EPOCH : Fld := ⟨0xCA000, 0x0, 12, 8, .ro, 0, true, false⟩
/-- R329 PEL_STATUS_HOPS: links from the master -/
def PEL_STATUS_HOPS : Fld := ⟨0xCA000, 0x0, 20, 4, .ro, 0, true, false⟩
/-- R329 PEL_PRESENT_HEARD: bit d: PRESENT from device d within 256 µs -/
def PEL_PRESENT_HEARD : Fld := ⟨0xCA004, 0x0, 0, 16, .ro, 0, true, false⟩
/-- R329 PEL_PRESENT_RAILS_DOWN: bit d: device d reports RAILS_DOWN -/
def PEL_PRESENT_RAILS_DOWN : Fld := ⟨0xCA004, 0x0, 16, 16, .ro, 0, true, false⟩
/-- R329 PEL_CFG_IN_DELAY: delay of the link into SYNC_IN, 1/16 ns; 32 if not stored -/
def PEL_CFG_IN_DELAY : Fld := ⟨0xCA008, 0x0, 0, 12, .rw, 32, true, true⟩
/-- R329 PEL_CFG_EN: ring used; 1 if not stored -/
def PEL_CFG_EN : Fld := ⟨0xCA008, 0x0, 12, 1, .rw, 1, true, true⟩
/-- R329 PEL_ERR_DELAY_CHECK: round trip disagrees with declared delays -/
def PEL_ERR_DELAY_CHECK : Fld := ⟨0xCA00C, 0x0, 0, 1, .rw1c, 0, true, false⟩
/-- R329 PEL_ERR_SLOT_MISMATCH: SLOT_TICKS differs from the master's -/
def PEL_ERR_SLOT_MISMATCH : Fld := ⟨0xCA00C, 0x0, 1, 1, .rw1c, 0, true, false⟩
/-- R329 PEL_ERR_DUP_DEVID: another device carries this DEVID -/
def PEL_ERR_DUP_DEVID : Fld := ⟨0xCA00C, 0x0, 2, 1, .rw1c, 0, true, false⟩
/-- R329 PEL_ERR_CRC: a frame failed its CRC -/
def PEL_ERR_CRC : Fld := ⟨0xCA00C, 0x0, 3, 1, .rw1c, 0, true, false⟩
/-- R329 PEL_ERR_MASTER_LOST: the master was lost -/
def PEL_ERR_MASTER_LOST : Fld := ⟨0xCA00C, 0x0, 4, 1, .rw1c, 0, true, false⟩
/-- R329 PEL_ERR_BRAKE_SEEN: a BRAKE frame was received -/
def PEL_ERR_BRAKE_SEEN : Fld := ⟨0xCA00C, 0x0, 5, 1, .rw1c, 0, true, false⟩
/-- R329 PEL_CRC_COUNT_COUNT: frames dropped for a bad CRC -/
def PEL_CRC_COUNT_COUNT : Fld := ⟨0xCA010, 0x0, 0, 32, .ro, 0, true, false⟩
/-- R329 PEL_RTT_MEASURED: master only: measured round trip, 1/16 ns -/
def PEL_RTT_MEASURED : Fld := ⟨0xCA014, 0x0, 0, 16, .ro, 0, true, false⟩
/-- R329 PEL_RTT_DECLARED: master only: declared round trip, 1/16 ns -/
def PEL_RTT_DECLARED : Fld := ⟨0xCA014, 0x0, 16, 16, .ro, 0, true, false⟩
/-- R330 TND_STATUS_LINK: 0 not configured, 1 training, 2 exchange, 3 up, 4 lost, 5 … -/
def TND_STATUS_LINK : Fld := ⟨0xA2000, 0x0, 0, 3, .ro, 0, false, false⟩
/-- R330 TND_STATUS_PEER_COPY: 0 none, 1 current, 2 stale, 3 promoted -/
def TND_STATUS_PEER_COPY : Fld := ⟨0xA2000, 0x0, 3, 2, .ro, 0, false, true⟩
/-- R330 TND_STATUS_OWN: 0 primary, 1 held, 2 demoted -/
def TND_STATUS_OWN : Fld := ⟨0xA2000, 0x0, 5, 2, .ro, 0, false, true⟩
/-- R330 TND_STATUS_DIVERGED: divergence outstanding -/
def TND_STATUS_DIVERGED : Fld := ⟨0xA2000, 0x0, 7, 1, .ro, 0, false, true⟩
/-- R330 TND_STATUS_RESYNC: resynchronisation running -/
def TND_STATUS_RESYNC : Fld := ⟨0xA2000, 0x0, 8, 1, .ro, 0, false, false⟩
/-- R330 TND_STATUS_PARTNER: partner DEVID -/
def TND_STATUS_PARTNER : Fld := ⟨0xA2000, 0x0, 9, 4, .ro, 0, false, true⟩
/-- R330 TND_CFG_PARTNER: partner DEVID -/
def TND_CFG_PARTNER : Fld := ⟨0xA2004, 0x0, 0, 4, .rw, 0, false, true⟩
/-- R330 TND_CFG_EN: tandem member; 0 if not stored -/
def TND_CFG_EN : Fld := ⟨0xA2004, 0x0, 4, 1, .rw, 0, false, true⟩
/-- R330 TND_CFG_AUTO_PROMOTE: automatic promotion (R326); 0 if not stored -/
def TND_CFG_AUTO_PROMOTE : Fld := ⟨0xA2004, 0x0, 5, 1, .rw, 0, false, true⟩
/-- R330 TND_CFG_MIRROR_BASE: first mirror-store region -/
def TND_CFG_MIRROR_BASE : Fld := ⟨0xA2004, 0x0, 6, 12, .rw, 0, false, true⟩
/-- R330 TND_REGIONS_OWN: own mirrored regions -/
def TND_REGIONS_OWN : Fld := ⟨0xA2008, 0x0, 0, 12, .ro, 0, false, false⟩
/-- R330 TND_REGIONS_PEER: partner's mirrored regions held -/
def TND_REGIONS_PEER : Fld := ⟨0xA2008, 0x0, 12, 12, .ro, 0, false, false⟩
/-- R330 TND_DIVERGE_EXTENTS: divergent extents -/
def TND_DIVERGE_EXTENTS : Fld := ⟨0xA200C, 0x0, 0, 21, .ro, 0, false, false⟩
/-- R330 TND_RESYNC_EXTENTS:  extents still to resynchronise, respectively -/
def TND_RESYNC_EXTENTS : Fld := ⟨0xA2010, 0x0, 0, 21, .ro, 0, false, false⟩
/-- R330 TND_MIRRORED_COUNT: mirrored stores acknowledged since entry to RAMP -/
def TND_MIRRORED_COUNT : Fld := ⟨0xA2014, 0x0, 0, 32, .ro, 0, false, false⟩
/-- R330 TND_ERR_LINK_LOST: the link was lost -/
def TND_ERR_LINK_LOST : Fld := ⟨0xA2018, 0x0, 0, 1, .rw1c, 0, false, false⟩
/-- R330 TND_ERR_MACK_TIMEOUT: a MACK missed its deadline -/
def TND_ERR_MACK_TIMEOUT : Fld := ⟨0xA2018, 0x0, 1, 1, .rw1c, 0, false, false⟩
/-- R330 TND_ERR_MISMATCH: CONFIG did not match -/
def TND_ERR_MISMATCH : Fld := ⟨0xA2018, 0x0, 2, 1, .rw1c, 0, false, false⟩
/-- R330 TND_ERR_CONFLICT: both sides writable for a region -/
def TND_ERR_CONFLICT : Fld := ⟨0xA2018, 0x0, 3, 1, .rw1c, 0, false, false⟩
/-- R330 TND_ERR_MIRROR_WRITE: a store reached a read-only mirror or held region -/
def TND_ERR_MIRROR_WRITE : Fld := ⟨0xA2018, 0x0, 4, 1, .rw1c, 0, false, false⟩
/-- R330 TND_ERR_PROMOTED: a promotion took place -/
def TND_ERR_PROMOTED : Fld := ⟨0xA2018, 0x0, 5, 1, .rw1c, 0, false, false⟩
/-- R330 TND_ERR_RESYNC_DONE: resynchronisation completed -/
def TND_ERR_RESYNC_DONE : Fld := ⟨0xA2018, 0x0, 6, 1, .rw1c, 0, false, false⟩
/-- R330 TND_CREDIT_HELD: mirror credits held from the partner -/
def TND_CREDIT_HELD : Fld := ⟨0xA201C, 0x0, 0, 10, .ro, 0, false, false⟩
/-- R330 TND_CREDIT_GRANTED: mirror credits granted to the partner -/
def TND_CREDIT_GRANTED : Fld := ⟨0xA201C, 0x0, 10, 10, .ro, 0, false, false⟩
/-- R361 MBX_STATUS_OWNER_KEY: an owner key is stored -/
def MBX_STATUS_OWNER_KEY : Fld := ⟨0xA3000, 0x0, 0, 1, .ro, 0, false, false⟩
/-- R361 MBX_STATUS_LOCKOUT: authorised commands locked out (R344) -/
def MBX_STATUS_LOCKOUT : Fld := ⟨0xA3000, 0x0, 1, 1, .ro, 0, false, false⟩
/-- R361 MBX_STATUS_NONCE_PRI: the primary mailbox holds an unused nonce -/
def MBX_STATUS_NONCE_PRI : Fld := ⟨0xA3000, 0x0, 2, 1, .ro, 0, false, false⟩
/-- R361 MBX_STATUS_NONCE_SEC: the secondary mailbox holds an unused nonce -/
def MBX_STATUS_NONCE_SEC : Fld := ⟨0xA3000, 0x0, 3, 1, .ro, 0, false, false⟩
/-- R361 MBX_STATUS_NONCE_MCTP: MCTP holds an unused nonce -/
def MBX_STATUS_NONCE_MCTP : Fld := ⟨0xA3000, 0x0, 4, 1, .ro, 0, false, false⟩
/-- R361 MBX_STATUS_BG_RUN: a background operation is running -/
def MBX_STATUS_BG_RUN : Fld := ⟨0xA3000, 0x0, 5, 1, .ro, 0, false, false⟩
/-- R361 MBX_STATUS_BG_PCT: its progress, 0 to 100 -/
def MBX_STATUS_BG_PCT : Fld := ⟨0xA3000, 0x0, 8, 7, .ro, 0, false, false⟩
/-- R361 MBX_STATUS_BG_OPCODE: its opcode -/
def MBX_STATUS_BG_OPCODE : Fld := ⟨0xA3000, 0x0, 16, 16, .ro, 0, false, false⟩
/-- R361 MBX_AUTH_FAIL_COUNT: authorised commands refused for a nonce or token -/
def MBX_AUTH_FAIL_COUNT : Fld := ⟨0xA3004, 0x0, 0, 32, .ro, 0, false, false⟩
/-- R361 MBX_PT_RSV_COUNT:  pass-through entries with non-zero reserved bits (R10) -/
def MBX_PT_RSV_COUNT : Fld := ⟨0xA3008, 0x0, 0, 32, .ro, 0, false, false⟩
/-- R361 MBX_PT_REFUSED_COUNT:  pass-through writes refused outside MAINTENANCE, respectively -/
def MBX_PT_REFUSED_COUNT : Fld := ⟨0xA300C, 0x0, 0, 32, .ro, 0, false, false⟩
/-- R361 MBX_ERR_AUTH_FAIL: an authorised command failed its nonce or token -/
def MBX_ERR_AUTH_FAIL : Fld := ⟨0xA3010, 0x0, 0, 1, .rw1c, 0, false, false⟩
/-- R361 MBX_ERR_LOCKOUT: a lockout began -/
def MBX_ERR_LOCKOUT : Fld := ⟨0xA3010, 0x0, 1, 1, .rw1c, 0, false, false⟩
/-- R361 MBX_ERR_PT_RSV: a pass-through write set a reserved bit -/
def MBX_ERR_PT_RSV : Fld := ⟨0xA3010, 0x0, 2, 1, .rw1c, 0, false, false⟩
/-- R361 MBX_ERR_PT_REFUSED: a pass-through write was refused -/
def MBX_ERR_PT_REFUSED : Fld := ⟨0xA3010, 0x0, 3, 1, .rw1c, 0, false, false⟩
/-- R361 MBX_ERR_BG_ABORTED: a background operation ended with 0012h -/
def MBX_ERR_BG_ABORTED : Fld := ⟨0xA3010, 0x0, 4, 1, .rw1c, 0, false, false⟩

end F

/-- The HPT block's registers (R59). -/
def regsHPT : List RegDef :=
  [⟨"HPT_LINK_STATUS", 0x60000, 0x0, 1, false, none,
    [F.HPT_LINK_STATUS_WIDTH, F.HPT_LINK_STATUS_RATE, F.HPT_LINK_STATUS_MEM_ENABLED, F.HPT_LINK_STATUS_DEGRADED, F.HPT_LINK_STATUS_IDE_ACTIVE, F.HPT_LINK_STATUS_VIRAL_TX, F.HPT_LINK_STATUS_VIRAL_RX, F.HPT_LINK_STATUS_RETRAIN_COUNT]⟩,
   ⟨"HPT_CREDIT", 0x60008, 0x0, 1, false, none,
    [F.HPT_CREDIT_RWD_ADV, F.HPT_CREDIT_RWD_OUT, F.HPT_CREDIT_HELD]⟩,
   ⟨"HPT_CREDIT_STALL", 0x6000C, 0x0, 1, false, none,
    [F.HPT_CREDIT_STALL_TICKS]⟩,
   ⟨"HPT_DECODE_MISS", 0x60010, 0x0, 1, false, none,
    [F.HPT_DECODE_MISS_COUNT]⟩,
   ⟨"HPT_POISON_TX", 0x60014, 0x0, 1, false, none,
    [F.HPT_POISON_TX_COUNT]⟩,
   ⟨"HPT_MAINT_REFUSED", 0x60018, 0x0, 1, false, none,
    [F.HPT_MAINT_REFUSED_COUNT]⟩,
   ⟨"HPT_ERR_STATUS", 0x6001C, 0x0, 1, false, none,
    [F.HPT_ERR_STATUS_DECODE_MISS, F.HPT_ERR_STATUS_REFUSED, F.HPT_ERR_STATUS_UNBACKED_SCRATCH, F.HPT_ERR_STATUS_VIRAL_RX, F.HPT_ERR_STATUS_LINK_DEGRADED, F.HPT_ERR_STATUS_RETRAIN]⟩,
   ⟨"HPT_RESET_CAUSE", 0x60020, 0x0, 1, false, none,
    [F.HPT_RESET_CAUSE_LAST]⟩]

/-- The CCH block's registers (R86). -/
def regsCCH : List RegDef :=
  [⟨"CCH_MODE", 0x80000, 0x0, 1, false, some (839680, 0),
    [F.CCH_MODE_STATE, F.CCH_MODE_FLUSH_ABORTED, F.CCH_MODE_SCRATCH_STEPS, F.CCH_MODE_SCRATCH_NEXT, F.CCH_MODE_LOCK_CAPABLE, F.CCH_MODE_SCRATCH_CAPABLE]⟩,
   ⟨"CCH_FLUSH_REMAIN", 0x80004, 0x0, 1, false, none,
    [F.CCH_FLUSH_REMAIN_LINES]⟩,
   ⟨"CCH_SCRUB_CFG", 0x80008, 0x0, 1, false, some (208920, 0),
    [F.CCH_SCRUB_CFG_PASS_S]⟩,
   ⟨"CCHn_STATUS", 0x81000, 0x1000, 16, false, none,
    [F.CCHn_STATUS_DIRTY, F.CCHn_STATUS_OVF_USED]⟩,
   ⟨"CCHn_LOCKED", 0x81004, 0x1000, 16, false, none,
    [F.CCHn_LOCKED_COUNT]⟩,
   ⟨"CCHn_WAY_OFF", 0x81008, 0x1000, 16, false, none,
    [F.CCHn_WAY_OFF_COUNT]⟩,
   ⟨"CCHn_WAY_PERM", 0x8100C, 0x1000, 16, false, none,
    [F.CCHn_WAY_PERM_COUNT]⟩,
   ⟨"CCHn_SEC", 0x81010, 0x1000, 16, false, none,
    [F.CCHn_SEC_COUNT]⟩,
   ⟨"CCHn_DED", 0x81014, 0x1000, 16, false, none,
    [F.CCHn_DED_COUNT]⟩,
   ⟨"CCHn_TAGPAR", 0x81018, 0x1000, 16, false, none,
    [F.CCHn_TAGPAR_COUNT]⟩,
   ⟨"CCHn_TAGREBUILD", 0x8101C, 0x1000, 16, false, none,
    [F.CCHn_TAGREBUILD_COUNT]⟩,
   ⟨"CCHn_ERR", 0x81020, 0x1000, 16, false, none,
    [F.CCHn_ERR_SEC, F.CCHn_ERR_DED_CLEAN, F.CCHn_ERR_DED_DIRTY, F.CCHn_ERR_TAGPAR_CLEAN, F.CCHn_ERR_TAGPAR_DIRTY, F.CCHn_ERR_DIR_ERR, F.CCHn_ERR_DIR_LOST]⟩]
  ++   [⟨"CCHn_LAST_ERR", 0x81024, 0x1000, 16, false, none,
    [F.CCHn_LAST_ERR_SET, F.CCHn_LAST_ERR_WAY, F.CCHn_LAST_ERR_IN_OVF, F.CCHn_LAST_ERR_OVF_SLOT, F.CCHn_LAST_ERR_KIND]⟩]

/-- The WHL block's registers (R114). -/
def regsWHL : List RegDef :=
  [⟨"WHL_PCUR", 0x20000, 0x0, 1, false, some (208908, 0),
    [F.WHL_PCUR_BUDGET, F.WHL_PCUR_USED]⟩,
   ⟨"WHL_DRAFT_CFG", 0x20004, 0x0, 1, false, some (208912, 0),
    [F.WHL_DRAFT_CFG_THRESH, F.WHL_DRAFT_CFG_BATCH, F.WHL_DRAFT_CFG_XW_EN, F.WHL_DRAFT_CFG_EN]⟩,
   ⟨"WHL_BG_ALLOW", 0x20008, 0x0, 1, false, some (208916, 0),
    [F.WHL_BG_ALLOW_PER_TICK]⟩,
   ⟨"WHL_CTX", 0x2000C, 0x0, 1, false, none,
    [F.WHL_CTX_INUSE, F.WHL_CTX_HWM]⟩,
   ⟨"WHL_POOL", 0x20010, 0x0, 1, false, none,
    [F.WHL_POOL_SHARED_FREE]⟩,
   ⟨"WHL_POOL_MIN", 0x20014, 0x0, 1, false, none,
    [F.WHL_POOL_MIN_SHARED_FREE]⟩,
   ⟨"WHLn_QSTATUS", 0x21000, 0x1000, 16, false, none,
    [F.WHLn_QSTATUS_DR_PENDING, F.WHLn_QSTATUS_NONDEMAND]⟩,
   ⟨"WHLn_EXC_COUNT", 0x21004, 0x1000, 16, false, none,
    [F.WHLn_EXC_COUNT_COUNT]⟩,
   ⟨"WHLn_DISPLACED", 0x21010, 0x1000, 16, false, none,
    [F.WHLn_DISPLACED_COUNT]⟩,
   ⟨"WHLn_SOFT_OVF", 0x21014, 0x1000, 16, false, none,
    [F.WHLn_SOFT_OVF_COUNT]⟩,
   ⟨"WHLn_DECODE_FAIL", 0x21018, 0x1000, 16, false, none,
    [F.WHLn_DECODE_FAIL_COUNT]⟩,
   ⟨"WHLn_EXC_LAST", 0x21008, 0x1000, 16, false, none,
    [F.WHLn_EXC_LAST_LAT, F.WHLn_EXC_LAST_D, F.WHLn_EXC_LAST_C, F.WHLn_EXC_LAST_QWAIT, F.WHLn_EXC_LAST_REISSUE]⟩]
  ++   [⟨"WHLn_LAT_MAX", 0x2100C, 0x1000, 16, false, none,
    [F.WHLn_LAT_MAX_NS]⟩,
   ⟨"WHLn_ERR", 0x2101C, 0x1000, 16, false, none,
    [F.WHLn_ERR_EXCURSION, F.WHLn_ERR_QFULL, F.WHLn_ERR_SOFT_OVF, F.WHLn_ERR_DECODE_FAIL]⟩]

/-- The SPK block's registers (R115). -/
def regsSPK : List RegDef :=
  [⟨"SPKg_STATUS", 0x40000, 0x40, 256, false, none,
    [F.SPKg_STATUS_BANK_BUSY, F.SPKg_STATUS_BANK_SUSP, F.SPKg_STATUS_BACKLOG, F.SPKg_STATUS_ENGINE_BUSY]⟩,
   ⟨"SPKg_SUSPEND", 0x40004, 0x40, 256, false, none,
    [F.SPKg_SUSPEND_COUNT]⟩,
   ⟨"SPKg_CANCEL", 0x40008, 0x40, 256, false, none,
    [F.SPKg_CANCEL_COUNT]⟩,
   ⟨"SPKg_SUSP_LONG", 0x40014, 0x40, 256, false, none,
    [F.SPKg_SUSP_LONG_COUNT]⟩,
   ⟨"SPKg_DRAFT", 0x4000C, 0x40, 256, false, none,
    [F.SPKg_DRAFT_TAKEN, F.SPKg_DRAFT_GIVEN]⟩,
   ⟨"SPKg_SUSP_MAX", 0x40010, 0x40, 256, false, none,
    [F.SPKg_SUSP_MAX_US]⟩,
   ⟨"SPKg_UCODE", 0x40018, 0x40, 256, false, none,
    [F.SPKg_UCODE_VERSION]⟩]

/-- The LDG block's registers (R143). -/
def regsLDG : List RegDef :=
  [⟨"LDG_STATUS", 0xA0000, 0x0, 1, false, none,
    [F.LDG_STATUS_BACKPRESSURE, F.LDG_STATUS_COND, F.LDG_STATUS_DEFICIT, F.LDG_STATUS_CAP_VALID, F.LDG_STATUS_CAP_TEST, F.LDG_STATUS_FW_ACTIVE, F.LDG_STATUS_RESTORE_LIVE]⟩,
   ⟨"LDG_ALLOW", 0xA0004, 0x0, 1, false, none,
    [F.LDG_ALLOW_LINES]⟩,
   ⟨"LDG_NDIRTY", 0xA0008, 0x0, 1, false, none,
    [F.LDG_NDIRTY_LINES]⟩,
   ⟨"LDG_NSCRATCH", 0xA000C, 0x0, 1, false, none,
    [F.LDG_NSCRATCH_SCRATCH, F.LDG_NSCRATCH_SBGDIRTY]⟩,
   ⟨"LDG_EAVAIL", 0xA0010, 0x0, 1, false, none,
    [F.LDG_EAVAIL_UJ]⟩,
   ⟨"LDG_ENEED", 0xA0014, 0x0, 1, false, none,
    [F.LDG_ENEED_UJ]⟩,
   ⟨"LDG_VCAP", 0xA0018, 0x0, 1, true, none,
    [F.LDG_VCAP_MV, F.LDG_VCAP_CODE]⟩,
   ⟨"LDG_CEFF", 0xA001C, 0x0, 1, true, none,
    [F.LDG_CEFF_UF, F.LDG_CEFF_COUNT]⟩,
   ⟨"LDG_CAPn", 0xA0020, 0x4, 8, true, none,
    [F.LDG_CAPn_UF, F.LDG_CAPn_VALID, F.LDG_CAPn_NEWEST]⟩,
   ⟨"LDG_CFG", 0xA0040, 0x0, 1, false, some (206848, 0),
    [F.LDG_CFG_MARGIN, F.LDG_CFG_WT_MIN, F.LDG_CFG_RESUME, F.LDG_CFG_CAP_EN]⟩,
   ⟨"LDG_CONST0", 0xA0044, 0x0, 1, false, some (206852, 0),
    [F.LDG_CONST0_E_LINE, F.LDG_CONST0_E_PAGE]⟩,
   ⟨"LDG_CONST1", 0xA0048, 0x0, 1, false, some (206856, 0),
    [F.LDG_CONST1_ETA, F.LDG_CONST1_V_MIN]⟩]
  ++   [⟨"LDG_CONST2", 0xA004C, 0x0, 1, false, some (206860, 0),
    [F.LDG_CONST2_E_FIXED]⟩,
   ⟨"LDG_CONST3", 0xA0050, 0x0, 1, true, some (206864, 0),
    [F.LDG_CONST3_KDIV_X256]⟩,
   ⟨"LDG_CAP_CFG", 0xA0054, 0x0, 1, true, some (206868, 0),
    [F.LDG_CAP_CFG_PERIOD, F.LDG_CAP_CFG_ITEST]⟩,
   ⟨"LDG_FW_LAST", 0xA0058, 0x0, 1, true, none,
    [F.LDG_FW_LAST_TICKS, F.LDG_FW_LAST_SEALED, F.LDG_FW_LAST_CUT_SHORT, F.LDG_FW_LAST_AREA]⟩,
   ⟨"LDG_FW_LINES", 0xA005C, 0x0, 1, true, none,
    [F.LDG_FW_LINES_LINES]⟩,
   ⟨"LDG_ERR", 0xA0060, 0x0, 1, false, none,
    [F.LDG_ERR_CAP_REJECT, F.LDG_ERR_CAP_FAIL3, F.LDG_ERR_WT_ENTER, F.LDG_ERR_DEFICIT, F.LDG_ERR_SHORT_FW, F.LDG_ERR_SENSE_RANGE]⟩,
   ⟨"LDG_CAP_REJECTS", 0xA0064, 0x0, 1, true, none,
    [F.LDG_CAP_REJECTS_COUNT]⟩]

/-- The HUB block's registers (R181, R208). -/
def regsHUB : List RegDef :=
  [⟨"HUB_PLC_CFG", 0x100, 0x0, 1, false, some (208900, 0),
    [F.HUB_PLC_CFG_CKPT_MIN, F.HUB_PLC_CFG_GAP_EN]⟩,
   ⟨"HUB_PLC_STATUS", 0x104, 0x0, 1, false, none,
    [F.HUB_PLC_STATUS_WRITE_LIMITED, F.HUB_PLC_STATUS_XTAB_FULL, F.HUB_PLC_STATUS_RETIRE_BUSY, F.HUB_PLC_STATUS_DEAD, F.HUB_PLC_STATUS_FROZEN]⟩,
   ⟨"HUB_XTAB", 0x108, 0x0, 1, false, none,
    [F.HUB_XTAB_USED, F.HUB_XTAB_SPARE_PCT, F.HUB_XTAB_LOST]⟩,
   ⟨"HUB_EPOCH", 0x10C, 0x0, 1, false, some (208904, 0),
    [F.HUB_EPOCH_PE, F.HUB_EPOCH_LEN, F.HUB_EPOCH_CLAMPED, F.HUB_EPOCH_AGING]⟩,
   ⟨"HUB_PATROL_CFG", 0x110, 0x0, 1, false, some (208924, 0),
    [F.HUB_PATROL_CFG_HOURS, F.HUB_PATROL_CFG_LINE_THRESH, F.HUB_PATROL_CFG_EN]⟩,
   ⟨"HUB_PATROL_POS", 0x114, 0x0, 1, false, none,
    [F.HUB_PATROL_POS_REGION, F.HUB_PATROL_POS_PCT, F.HUB_PATROL_POS_PASSES]⟩,
   ⟨"HUB_CKPT", 0x118, 0x0, 1, false, none,
    [F.HUB_CKPT_SEQ, F.HUB_CKPT_KIND, F.HUB_CKPT_SLOT]⟩,
   ⟨"HUB_MODE", 0x0, 0x0, 1, true, none,
    [F.HUB_MODE_MODE, F.HUB_MODE_PREV, F.HUB_MODE_SHORT_FW, F.HUB_MODE_BRAKE_DRAIN, F.HUB_MODE_HOLD, F.HUB_MODE_REC_CLOSED]⟩,
   ⟨"HUB_MODE_CFG", 0x4, 0x0, 1, true, some (208896, 0),
    [F.HUB_MODE_CFG_DEBOUNCE_MS, F.HUB_MODE_CFG_AUTO_RAMP]⟩,
   ⟨"HUB_BRAKE", 0x8, 0x0, 1, true, none,
    [F.HUB_BRAKE_CAUSE, F.HUB_BRAKE_SOURCE, F.HUB_BRAKE_DRAIN, F.HUB_BRAKE_SEALED, F.HUB_BRAKE_RELEASES]⟩,
   ⟨"HUB_RESTART", 0x10, 0x0, 1, false, none,
    [F.HUB_RESTART_MS, F.HUB_RESTART_DIRTY, F.HUB_RESTART_FALLBACK, F.HUB_RESTART_RESTORED, F.HUB_RESTART_FW_SLOT, F.HUB_RESTART_FW_OTHER_BAD, F.HUB_RESTART_RECORD_LOST]⟩,
   ⟨"HUB_RESTORE", 0x14, 0x0, 1, false, none,
    [F.HUB_RESTORE_LINES]⟩]
  ++   [⟨"HUB_RESTORE_HOME", 0x18, 0x0, 1, false, none,
    [F.HUB_RESTORE_HOME_LINES]⟩,
   ⟨"HUB_RESTORE_POISON", 0x1C, 0x0, 1, false, none,
    [F.HUB_RESTORE_POISON_LINES]⟩]

/-- The MMB block's registers (R182). -/
def regsMMB : List RegDef :=
  [⟨"MMBn_STATUS", 0xA1000, 0x100, 16, false, none,
    [F.MMBn_STATUS_TRAINED, F.MMBn_STATUS_CHECKED, F.MMBn_STATUS_BANDS]⟩,
   ⟨"MMBn_CACRC", 0xA1004, 0x100, 16, false, none,
    [F.MMBn_CACRC_COUNT]⟩,
   ⟨"MMBn_WCRC", 0xA1008, 0x100, 16, false, none,
    [F.MMBn_WCRC_COUNT]⟩,
   ⟨"MMBn_REISSUE", 0xA100C, 0x100, 16, false, none,
    [F.MMBn_REISSUE_COUNT]⟩,
   ⟨"MMBn_ERR", 0xA1010, 0x100, 16, false, none,
    [F.MMBn_ERR_CA_BURST, F.MMBn_ERR_TRAIN_FAIL, F.MMBn_ERR_CHECK_FAIL, F.MMBn_ERR_ALERT, F.MMBn_ERR_ROW_FAULT]⟩,
   ⟨"MMBn_TEMP", 0xA1014, 0x100, 16, false, none,
    [F.MMBn_TEMP_MAX_C, F.MMBn_TEMP_MAX_DIE]⟩]

/-- The SEQ block's registers (R237). -/
def regsSEQ : List RegDef :=
  [⟨"SEQ_CTRL", 0xC0000, 0x0, 1, true, none,
    [F.SEQ_CTRL_STATE, F.SEQ_CTRL_STEP, F.SEQ_CTRL_TABLE]⟩,
   ⟨"SEQ_CFG", 0xC0004, 0x0, 1, true, some (199208, 0),
    [F.SEQ_CFG_PU_TABLE, F.SEQ_CFG_PMB0_FAST, F.SEQ_CFG_PMB1_FAST]⟩,
   ⟨"SEQ_INRUSH", 0xC0008, 0x0, 1, true, some (199204, 0),
    [F.SEQ_INRUSH_BUDGET, F.SEQ_INRUSH_PEL_EN, F.SEQ_INRUSH_SLOT_TICKS]⟩,
   ⟨"SEQ_IN_CFG", 0xC000C, 0x0, 1, true, some (199200, 0),
    [F.SEQ_IN_CFG_VIN_FALL, F.SEQ_IN_CFG_VIN_RISE, F.SEQ_IN_CFG_PWRFAIL_EN, F.SEQ_IN_CFG_HOLD_UV]⟩,
   ⟨"SEQ_IN_STATUS", 0xC0010, 0x0, 1, true, none,
    [F.SEQ_IN_STATUS_VIN_LOW, F.SEQ_IN_STATUS_VIN_GOOD, F.SEQ_IN_STATUS_PWRFAIL, F.SEQ_IN_STATUS_HOLD_LOW]⟩,
   ⟨"SEQ_ERR", 0xC0014, 0x0, 1, true, none,
    [F.SEQ_ERR_NOTE, F.SEQ_ERR_RETRY, F.SEQ_ERR_RETRY_FAIL, F.SEQ_ERR_GROUP_OFF, F.SEQ_ERR_BRAKE, F.SEQ_ERR_MARGIN_FAIL, F.SEQ_ERR_SLOT_UNSYNC, F.SEQ_ERR_HOLD_LOW_FW, F.SEQ_ERR_PMB_ERR, F.SEQ_ERR_CFG_BAD]⟩,
   ⟨"SEQ_GANGg", 0xC0020, 0x4, 8, true, some (199168, 4),
    [F.SEQ_GANGg_MEMBERS]⟩,
   ⟨"SEQ_FFL_GTC_LO", 0xC0040, 0x0, 1, true, none,
    [F.SEQ_FFL_GTC_LO_GTC]⟩,
   ⟨"SEQ_FFL_GTC_HI", 0xC0044, 0x0, 1, true, none,
    [F.SEQ_FFL_GTC_HI_GTC]⟩,
   ⟨"SEQ_FFL_UV", 0xC0048, 0x0, 1, true, none,
    [F.SEQ_FFL_UV_STATE]⟩,
   ⟨"SEQ_FFL_OV", 0xC004C, 0x0, 1, true, none,
    [F.SEQ_FFL_OV_STATE]⟩,
   ⟨"SEQ_FFL_PG", 0xC0050, 0x0, 1, true, none,
    [F.SEQ_FFL_PG_STATE]⟩]
  ++   [⟨"SEQ_FFL_EN", 0xC0054, 0x0, 1, true, none,
    [F.SEQ_FFL_EN_STATE]⟩,
   ⟨"SEQ_FFL_SRC", 0xC0058, 0x0, 1, true, none,
    [F.SEQ_FFL_SRC_SOURCE, F.SEQ_FFL_SRC_KIND, F.SEQ_FFL_SRC_VALID, F.SEQ_FFL_SRC_VIN_LOW, F.SEQ_FFL_SRC_PWRFAIL, F.SEQ_FFL_SRC_HOLD_LOW, F.SEQ_FFL_SRC_CAUSE]⟩,
   ⟨"SEQ_CHn_CFG", 0xC0200, 0x20, 32, true, some (197120, 64),
    [F.SEQ_CHn_CFG_EN_MODE, F.SEQ_CHn_CFG_EN_POL, F.SEQ_CHn_CFG_PG_EN, F.SEQ_CHn_CFG_PG_POL, F.SEQ_CHn_CFG_CRIT, F.SEQ_CHn_CFG_GROUP, F.SEQ_CHn_CFG_RESP_UV, F.SEQ_CHn_CFG_RESP_OV, F.SEQ_CHn_CFG_RETRY_MAX, F.SEQ_CHn_CFG_PRIO, F.SEQ_CHn_CFG_INRUSH]⟩,
   ⟨"SEQ_CHn_WIN", 0xC0204, 0x20, 32, true, some (197124, 64),
    [F.SEQ_CHn_WIN_UV, F.SEQ_CHn_WIN_OV, F.SEQ_CHn_WIN_GLITCH, F.SEQ_CHn_WIN_UV_EN, F.SEQ_CHn_WIN_OV_EN]⟩,
   ⟨"SEQ_CHn_TIME", 0xC0208, 0x20, 32, true, some (197128, 64),
    [F.SEQ_CHn_TIME_PG_TIMEOUT, F.SEQ_CHn_TIME_OFF_DELAY]⟩,
   ⟨"SEQ_CHn_MARGIN", 0xC020C, 0x20, 32, true, some (197132, 64),
    [F.SEQ_CHn_MARGIN_PATH, F.SEQ_CHn_MARGIN_TRIM, F.SEQ_CHn_MARGIN_PORT, F.SEQ_CHn_MARGIN_ADDR, F.SEQ_CHn_MARGIN_PAGE, F.SEQ_CHn_MARGIN_PEC]⟩,
   ⟨"SEQ_CHn_TRIM", 0xC0210, 0x20, 32, true, some (197136, 64),
    [F.SEQ_CHn_TRIM_NEUTRAL, F.SEQ_CHn_TRIM_CODE, F.SEQ_CHn_TRIM_SLEW, F.SEQ_CHn_TRIM_DRIVING]⟩,
   ⟨"SEQ_CHn_SCALE", 0xC0214, 0x20, 32, true, some (197140, 64),
    [F.SEQ_CHn_SCALE_DIV_X256]⟩,
   ⟨"SEQ_CHn_STATUS", 0xC0218, 0x20, 32, true, none,
    [F.SEQ_CHn_STATUS_EN, F.SEQ_CHn_STATUS_PG, F.SEQ_CHn_STATUS_UV_TRIP, F.SEQ_CHn_STATUS_OV_TRIP, F.SEQ_CHn_STATUS_UV_ARMED, F.SEQ_CHn_STATUS_PENDING, F.SEQ_CHn_STATUS_RETRYING, F.SEQ_CHn_STATUS_OFF_FAULT, F.SEQ_CHn_STATUS_FAULT_SEEN, F.SEQ_CHn_STATUS_MARGINED, F.SEQ_CHn_STATUS_RETRIES, F.SEQ_CHn_STATUS_LAST_KIND]⟩,
   ⟨"SEQ_CHn_COUNT", 0xC021C, 0x20, 32, true, none,
    [F.SEQ_CHn_COUNT_FAULTS, F.SEQ_CHn_COUNT_RETRIES]⟩,
   ⟨"SEQ_STEPk", 0xC0800, 0x4, 64, true, none,
    [F.SEQ_STEPk_STEP]⟩]

/-- The MCV block's registers (R264). -/
def regsMCV : List RegDef :=
  [⟨"MCV_STATUS", 0xC4000, 0x0, 1, true, none,
    [F.MCV_STATUS_ON, F.MCV_STATUS_LP, F.MCV_STATUS_CAL_BUSY, F.MCV_STATUS_DIAG_BUSY]⟩,
   ⟨"MCV_ERR", 0xC4004, 0x0, 1, true, none,
    [F.MCV_ERR_OVERRUN, F.MCV_ERR_FIFO_OVF, F.MCV_ERR_SKIP, F.MCV_ERR_INJ_REFUSED, F.MCV_ERR_CAL_FAIL, F.MCV_ERR_CAL_ABORTED, F.MCV_ERR_DIAG_FAULT, F.MCV_ERR_LIMIT, F.MCV_ERR_TJ_WARN]⟩,
   ⟨"MCV_RING_WP", 0xC4008, 0x0, 1, true, none,
    [F.MCV_RING_WP_WP, F.MCV_RING_WP_WRAPS]⟩,
   ⟨"MCV_TJ", 0xC400C, 0x0, 1, true, none,
    [F.MCV_TJ_CODE, F.MCV_TJ_DEG_C]⟩,
   ⟨"MCV_TJ_LIM", 0xC4010, 0x0, 1, true, some (203552, 0),
    [F.MCV_TJ_LIM_WARN, F.MCV_TJ_LIM_SHUT]⟩,
   ⟨"MCV_DIAG", 0xC4014, 0x0, 1, true, none,
    [F.MCV_DIAG_INPUT, F.MCV_DIAG_START]⟩,
   ⟨"MCV_DIAG_RES", 0xC4018, 0x0, 1, true, none,
    [F.MCV_DIAG_RES_SPAN, F.MCV_DIAG_RES_RESULT, F.MCV_DIAG_RES_INPUT, F.MCV_DIAG_RES_DONE]⟩,
   ⟨"MCVn_SEL", 0xC4100, 0x40, 8, true, none,
    [F.MCVn_SEL_CH, F.MCVn_SEL_INJ_CH, F.MCVn_SEL_INJ, F.MCVn_SEL_INJ_PEND]⟩,
   ⟨"MCVn_CFG", 0xC4104, 0x40, 8, true, some (200704, 256),
    [F.MCVn_CFG_SPACING, F.MCVn_CFG_LP_SPACING, F.MCVn_CFG_LEN, F.MCVn_CFG_LP, F.MCVn_CFG_DROP_NEW, F.MCVn_CFG_EN, F.MCVn_CFG_INT_FIFO]⟩,
   ⟨"MCVn_TRIG", 0xC4108, 0x40, 8, true, some (200708, 256),
    [F.MCVn_TRIG_SRC, F.MCVn_TRIG_CHAN, F.MCVn_TRIG_CONV, F.MCVn_TRIG_CH, F.MCVn_TRIG_EDGE, F.MCVn_TRIG_PERIOD]⟩,
   ⟨"MCVn_CAL", 0xC410C, 0x40, 8, true, some (203520, 4),
    [F.MCVn_CAL_OFFSET, F.MCVn_CAL_GAIN, F.MCVn_CAL_START, F.MCVn_CAL_BUSY]⟩,
   ⟨"MCVn_FIFO0", 0xC4110, 0x40, 8, true, none,
    [F.MCVn_FIFO0_WORD]⟩]
  ++   [⟨"MCVn_FIFO1", 0xC4114, 0x40, 8, true, none,
    [F.MCVn_FIFO1_WORD]⟩,
   ⟨"MCVn_FIFO2", 0xC4118, 0x40, 8, true, none,
    [F.MCVn_FIFO2_WORD]⟩,
   ⟨"MCVn_FSTAT", 0xC411C, 0x40, 8, true, none,
    [F.MCVn_FSTAT_LEVEL, F.MCVn_FSTAT_OVF]⟩,
   ⟨"MCVn_OVERRUN", 0xC4120, 0x40, 8, true, none,
    [F.MCVn_OVERRUN_COUNT, F.MCVn_OVERRUN_SKIPS]⟩,
   ⟨"MCVn_SLOTj", 0xC4800, 0x4, 256, true, none,
    [F.MCVn_SLOTj_CH0, F.MCVn_SLOTj_USE0, F.MCVn_SLOTj_CH1, F.MCVn_SLOTj_USE1]⟩,
   ⟨"MCV_INk_CFG", 0xC5000, 0x8, 96, true, some (202752, 8),
    [F.MCV_INk_CFG_ORDER, F.MCV_INk_CFG_LEN, F.MCV_INk_CFG_FIFO_EN, F.MCV_INk_CFG_RING_EN, F.MCV_INk_CFG_LIM_EN, F.MCV_INk_CFG_LIM_ACT, F.MCV_INk_CFG_SPAN_MIN, F.MCV_INk_CFG_SPAN_MAX]⟩,
   ⟨"MCV_INk_LIM", 0xC5004, 0x8, 96, true, some (202756, 8),
    [F.MCV_INk_LIM_LO, F.MCV_INk_LIM_HI, F.MCV_INk_LIM_HYST]⟩,
   ⟨"MCV_INk_VAL", 0xC5400, 0x4, 96, true, none,
    [F.MCV_INk_VAL_RAW, F.MCV_INk_VAL_FILT, F.MCV_INk_VAL_SETTLED, F.MCV_INk_VAL_LIM_LO, F.MCV_INk_VAL_LIM_HI]⟩,
   ⟨"MCV_RINGe", 0xC6000, 0x4, 1024, true, none,
    [F.MCV_RINGe_WORD]⟩]

/-- The REC block's registers (R289). -/
def regsREC : List RegDef :=
  [⟨"REC_STATUS", 0xC8000, 0x0, 1, true, none,
    [F.REC_STATUS_DEGRADED, F.REC_STATUS_FAIL, F.REC_STATUS_BANK_A_BAD, F.REC_STATUS_BANK_B_BAD, F.REC_STATUS_SCANNING, F.REC_STATUS_CLEARING, F.REC_STATUS_WRITING, F.REC_STATUS_PERM]⟩,
   ⟨"REC_SEQ", 0xC8004, 0x0, 1, true, none,
    [F.REC_SEQ_SEQ]⟩,
   ⟨"REC_NEWEST", 0xC8008, 0x0, 1, true, none,
    [F.REC_NEWEST_SEQ]⟩,
   ⟨"REC_OLDEST", 0xC800C, 0x0, 1, true, none,
    [F.REC_OLDEST_SEQ]⟩,
   ⟨"REC_WP", 0xC8010, 0x0, 1, true, none,
    [F.REC_WP_SLOT]⟩,
   ⟨"REC_QUEUE", 0xC8014, 0x0, 1, true, none,
    [F.REC_QUEUE_LEVEL, F.REC_QUEUE_HWM, F.REC_QUEUE_FFL_PEND]⟩,
   ⟨"REC_LOST", 0xC8018, 0x0, 1, true, none,
    [F.REC_LOST_COUNT]⟩,
   ⟨"REC_COUNTS", 0xC801C, 0x0, 1, true, none,
    [F.REC_COUNTS_DAMAGED, F.REC_COUNTS_REPAIRED]⟩,
   ⟨"REC_ERR", 0xC8020, 0x0, 1, true, none,
    [F.REC_ERR_LOST, F.REC_ERR_VERIFY_A, F.REC_ERR_VERIFY_B, F.REC_ERR_DAMAGED, F.REC_ERR_REPAIRED, F.REC_ERR_VOLATILE, F.REC_ERR_FWD_FAIL]⟩,
   ⟨"REC_VRING", 0xC8024, 0x0, 1, true, none,
    [F.REC_VRING_WP, F.REC_VRING_COUNT]⟩,
   ⟨"REC_CFG", 0xC8028, 0x0, 1, true, some (205824, 0),
    [F.REC_CFG_FWD_EN]⟩]

/-- The SBG block's registers (R309). -/
def regsSBG : List RegDef :=
  [⟨"SBG_STATUS", 0xC9000, 0x0, 1, true, none,
    [F.SBG_STATUS_READY, F.SBG_STATUS_SUPPLY_OK, F.SBG_STATUS_VAON_WARN, F.SBG_STATUS_AUTOSTORE, F.SBG_STATUS_REFRESH, F.SBG_STATUS_BP, F.SBG_STATUS_DIRTY]⟩,
   ⟨"SBG_BANK", 0xC9004, 0x0, 1, true, none,
    [F.SBG_BANK_BUSY, F.SBG_BANK_CAP_OK]⟩,
   ⟨"SBG_STORES", 0xC9008, 0x0, 1, true, none,
    [F.SBG_STORES_COUNT]⟩,
   ⟨"SBG_RECALL", 0xC900C, 0x0, 1, true, none,
    [F.SBG_RECALL_CORRECTED, F.SBG_RECALL_UE]⟩,
   ⟨"SBG_UE_PAGE", 0xC9010, 0x0, 1, true, none,
    [F.SBG_UE_PAGE_PAGE, F.SBG_UE_PAGE_VALID, F.SBG_UE_PAGE_FAILPAGE, F.SBG_UE_PAGE_FAIL_VALID]⟩,
   ⟨"SBG_REFRESH", 0xC9014, 0x0, 1, true, none,
    [F.SBG_REFRESH_PASSES, F.SBG_REFRESH_WEAK]⟩,
   ⟨"SBG_ERR", 0xC9018, 0x0, 1, true, none,
    [F.SBG_ERR_RECALL_CE, F.SBG_ERR_RECALL_UE, F.SBG_ERR_STORE_RETRY, F.SBG_ERR_STORE_FAIL, F.SBG_ERR_NO_SUPPLY, F.SBG_ERR_CTR_ODD, F.SBG_ERR_PROT_REFUSED, F.SBG_ERR_KEY_COPY, F.SBG_ERR_REFRESH_FIX]⟩,
   ⟨"SBG_CFG", 0xC901C, 0x0, 1, true, none,
    [F.SBG_CFG_LAZY_MS]⟩]

/-- The PEL block's registers (R329). -/
def regsPEL : List RegDef :=
  [⟨"PEL_STATUS", 0xCA000, 0x0, 1, true, none,
    [F.PEL_STATUS_DEVID, F.PEL_STATUS_MASTER, F.PEL_STATUS_IS_MASTER, F.PEL_STATUS_ALIGNED, F.PEL_STATUS_SPLIT, F.PEL_STATUS_SLEWING, F.PEL_STATUS_EPOCH, F.PEL_STATUS_HOPS]⟩,
   ⟨"PEL_PRESENT", 0xCA004, 0x0, 1, true, none,
    [F.PEL_PRESENT_HEARD, F.PEL_PRESENT_RAILS_DOWN]⟩,
   ⟨"PEL_CFG", 0xCA008, 0x0, 1, true, some (217120, 0),
    [F.PEL_CFG_IN_DELAY, F.PEL_CFG_EN]⟩,
   ⟨"PEL_ERR", 0xCA00C, 0x0, 1, true, none,
    [F.PEL_ERR_DELAY_CHECK, F.PEL_ERR_SLOT_MISMATCH, F.PEL_ERR_DUP_DEVID, F.PEL_ERR_CRC, F.PEL_ERR_MASTER_LOST, F.PEL_ERR_BRAKE_SEEN]⟩,
   ⟨"PEL_CRC_COUNT", 0xCA010, 0x0, 1, true, none,
    [F.PEL_CRC_COUNT_COUNT]⟩,
   ⟨"PEL_RTT", 0xCA014, 0x0, 1, true, none,
    [F.PEL_RTT_MEASURED, F.PEL_RTT_DECLARED]⟩]

/-- The TND block's registers (R330). -/
def regsTND : List RegDef :=
  [⟨"TND_STATUS", 0xA2000, 0x0, 1, false, some (217356, 0),
    [F.TND_STATUS_LINK, F.TND_STATUS_PEER_COPY, F.TND_STATUS_OWN, F.TND_STATUS_DIVERGED, F.TND_STATUS_RESYNC, F.TND_STATUS_PARTNER]⟩,
   ⟨"TND_CFG", 0xA2004, 0x0, 1, false, some (217344, 0),
    [F.TND_CFG_PARTNER, F.TND_CFG_EN, F.TND_CFG_AUTO_PROMOTE, F.TND_CFG_MIRROR_BASE]⟩,
   ⟨"TND_REGIONS", 0xA2008, 0x0, 1, false, none,
    [F.TND_REGIONS_OWN, F.TND_REGIONS_PEER]⟩,
   ⟨"TND_DIVERGE", 0xA200C, 0x0, 1, false, none,
    [F.TND_DIVERGE_EXTENTS]⟩,
   ⟨"TND_RESYNC", 0xA2010, 0x0, 1, false, none,
    [F.TND_RESYNC_EXTENTS]⟩,
   ⟨"TND_MIRRORED", 0xA2014, 0x0, 1, false, none,
    [F.TND_MIRRORED_COUNT]⟩,
   ⟨"TND_ERR", 0xA2018, 0x0, 1, false, none,
    [F.TND_ERR_LINK_LOST, F.TND_ERR_MACK_TIMEOUT, F.TND_ERR_MISMATCH, F.TND_ERR_CONFLICT, F.TND_ERR_MIRROR_WRITE, F.TND_ERR_PROMOTED, F.TND_ERR_RESYNC_DONE]⟩,
   ⟨"TND_CREDIT", 0xA201C, 0x0, 1, false, none,
    [F.TND_CREDIT_HELD, F.TND_CREDIT_GRANTED]⟩]

/-- The MBX block's registers (R361). -/
def regsMBX : List RegDef :=
  [⟨"MBX_STATUS", 0xA3000, 0x0, 1, false, none,
    [F.MBX_STATUS_OWNER_KEY, F.MBX_STATUS_LOCKOUT, F.MBX_STATUS_NONCE_PRI, F.MBX_STATUS_NONCE_SEC, F.MBX_STATUS_NONCE_MCTP, F.MBX_STATUS_BG_RUN, F.MBX_STATUS_BG_PCT, F.MBX_STATUS_BG_OPCODE]⟩,
   ⟨"MBX_AUTH_FAIL", 0xA3004, 0x0, 1, false, none,
    [F.MBX_AUTH_FAIL_COUNT]⟩,
   ⟨"MBX_PT_RSV", 0xA3008, 0x0, 1, false, none,
    [F.MBX_PT_RSV_COUNT]⟩,
   ⟨"MBX_PT_REFUSED", 0xA300C, 0x0, 1, false, none,
    [F.MBX_PT_REFUSED_COUNT]⟩,
   ⟨"MBX_ERR", 0xA3010, 0x0, 1, false, none,
    [F.MBX_ERR_AUTH_FAIL, F.MBX_ERR_LOCKOUT, F.MBX_ERR_PT_RSV, F.MBX_ERR_PT_REFUSED, F.MBX_ERR_BG_ABORTED]⟩]

/-- All registers of the pass-through map (R360). -/
def allRegs : List RegDef :=
  regsHPT ++ regsCCH ++ regsWHL ++ regsSPK ++ regsLDG ++ regsHUB ++ regsMMB ++ regsSEQ ++ regsMCV ++ regsREC ++ regsSBG ++ regsPEL ++ regsTND ++ regsMBX

end Sys2Proof.Machine
end

