-- ==== Sys2Proof/Machine/Tab.lean ====
section
/-! DEFINITION. Sparse tables of plain data in one canonical form: keys strictly rising, no entry equal to the
default an unlisted key reads as. The saddlebag's bytes, the register fields, cache ways, media lines and every other
sparse array of the controller are such tables. -/
namespace Sys2Proof.Machine

/-- A table: pairs of key and value. -/
abbrev Tab (α : Type) := List (Nat × α)

/-- The value at key `n`; an unlisted key reads as `d`. -/
def tabGet {α : Type} (d : α) : Tab α → Nat → α
  | [], _ => d
  | (k, v) :: t, n => if k = n then v else tabGet d t n

/-- Is key `n` listed? -/
def tabHas {α : Type} : Tab α → Nat → Bool
  | [], _ => false
  | (k, _) :: t, n => if k = n then true else tabHas t n

/-- Insert `v` at `n`, keeping the keys rising. -/
def tabPut {α : Type} (n : Nat) (v : α) : Tab α → Tab α
  | [] => [(n, v)]
  | (k, w) :: t =>
    if n < k then (n, v) :: (k, w) :: t
    else if n = k then (n, v) :: t
    else (k, w) :: tabPut n v t

/-- Drop key `n`, wherever it is listed. -/
def tabDel {α : Type} (n : Nat) : Tab α → Tab α
  | [] => []
  | (k, w) :: t => if n = k then tabDel n t else (k, w) :: tabDel n t

/-- Write `v` at `n`: writing the default removes the entry. -/
def tabSet {α : Type} [DecidableEq α] (d : α) (n : Nat) (v : α) (t : Tab α) : Tab α :=
  if v = d then tabDel n t else tabPut n v t

/-- Are all keys above `n`? -/
def tabAbove {α : Type} (n : Nat) : Tab α → Bool
  | [] => true
  | (k, _) :: t => decide (n < k) && tabAbove n t

/-- The canonical form: keys strictly rising, no entry equal to the default. -/
def tabWf {α : Type} [DecidableEq α] (d : α) : Tab α → Bool
  | [] => true
  | (k, v) :: t => tabAbove k t && decide (v ≠ d) && tabWf d t

/-- Keep the entries whose key passes. -/
def tabFilter {α : Type} (p : Nat → Bool) : Tab α → Tab α
  | [] => []
  | (k, v) :: t => if p k then (k, v) :: tabFilter p t else tabFilter p t

/-- How many entries pass. -/
def tabCount {α : Type} (p : Nat → α → Bool) : Tab α → Nat
  | [] => 0
  | (k, v) :: t => (if p k v then 1 else 0) + tabCount p t

/-- Change every entry's value; entries that become the default go. -/
def tabMap {α : Type} [DecidableEq α] (d : α) (f : Nat → α → α) : Tab α → Tab α
  | [] => []
  | (k, v) :: t => if f k v = d then tabMap d f t else (k, f k v) :: tabMap d f t

/-- A set of numbers, held as a rising list (a bitmap with few bits set). -/
abbrev NSet := List Nat

/-- Is `n` in the set? -/
def nsHas (n : Nat) : NSet → Bool
  | [] => false
  | k :: t => if k = n then true else nsHas n t

/-- Add `n`, keeping the list rising. -/
def nsAdd (n : Nat) : NSet → NSet
  | [] => [n]
  | k :: t => if n < k then n :: k :: t else if n = k then k :: t else k :: nsAdd n t

/-- Remove `n`, wherever it is listed. -/
def nsDel (n : Nat) : NSet → NSet
  | [] => []
  | k :: t => if k = n then nsDel n t else k :: nsDel n t

/-- The set's form: rising, no repeats. -/
def nsWf : NSet → Bool
  | [] => true
  | [_] => true
  | a :: b :: t => decide (a < b) && nsWf (b :: t)

/-- Insert before the first element that does not come earlier. -/
def insertBy {α : Type} (le : α → α → Bool) (x : α) : List α → List α
  | [] => [x]
  | y :: t => if le x y then x :: y :: t else y :: insertBy le x t

/-- Sort; elements that are equal in the order keep their places. -/
def sortBy {α : Type} (le : α → α → Bool) : List α → List α
  | [] => []
  | x :: t => insertBy le x (sortBy le t)

/-- A bitmap of which every bit may be set at once (the release bitmaps of R158, which a crypto erase sets whole):
`base` is what an unlisted bit reads as. -/
structure Bitmap where
  base : Bool
  flips : NSet
  deriving DecidableEq, Repr

/-- The bitmap with no bit set. -/
def bmEmpty : Bitmap := ⟨false, []⟩

/-- The bitmap with every bit set. -/
def bmFull : Bitmap := ⟨true, []⟩

/-- Bit `n`. -/
def bmGet (m : Bitmap) (n : Nat) : Bool := m.base != nsHas n m.flips

/-- Write bit `n`. -/
def bmSet (m : Bitmap) (n : Nat) (v : Bool) : Bitmap :=
  if v = m.base then { m with flips := nsDel n m.flips } else { m with flips := nsAdd n m.flips }

/-- The number of set bits among bits 0 to `size` - 1. -/
def bmCount (m : Bitmap) (size : Nat) : Nat :=
  if m.base then size - (m.flips.filter (· < size)).length else (m.flips.filter (· < size)).length

end Sys2Proof.Machine
end

