-- ==== Sys2Proof/Machine/State.lean ====
section
/-! DEFINITION. The state of the controller: everything the spec gives the block, as plain data, and the machine right
after AON power-up. Register fields live in one table keyed by their bit address in the pass-through map; the rest is
grouped by subsystem, as the chapters are. -/
namespace Sys2Proof.Machine

/-- Why a command stops the machine. -/
inductive Fault where
  /-- An event names a wheel, or a unit of a wheel, that the configuration fuses off. R22: such numbers never appear.
  Raised by every command with a wheel operand; safe: the model stops where the hardware has no such event. -/
  | fusedOffWheel
  deriving DecidableEq, Repr

/-- Why a command is refused. -/
inductive Refusal where
  /-- The command has no meaning yet. Raised by a refused arm of Dispatch only; safe. -/
  | notModelled (mnemonic : String)
  deriving DecidableEq, Repr

/-- The eight modes (R183). -/
inductive Mode where
  | off
  | standby
  | ramp
  | recover
  | service
  | maintenance
  | freewheel
  | brake
  deriving DecidableEq, Repr

/-- Return codes and vendor status of a mailbox command (R334); `vs` is 0 when none is returned. -/
structure RetCode where
  rc : Nat
  vs : Nat
  deriving DecidableEq, Repr

/-- A Maluxen command packet as the wheel sends it (R173). -/
structure MmbPacket where
  op : Nat
  bank : Nat
  row : Nat
  line : Nat
  tag : Nat
  band : Nat
  sl : Bool
  id : Nat
  arg : Nat
  crc : Nat
  deriving DecidableEq, Repr

/-- Tandem messages as sent (R320). -/
inductive TndMsg where
  | mwr (m : MwrMsg)
  | mack (tag : BitVec 16)
  | mcred (count : Nat)
  | mrel (slot extent : Nat)
  | rsync (m : RsyncMsg)
  | rdone (slot extent : Nat)
  | hb
  | quiesce
  | config (m : ConfigMsg)
  | role (reqAck : Nat)
  deriving DecidableEq, Repr

/-- What the block sends to the outside. -/
inductive Emission where
  /-- S2M DRS MemData (R58) -/
  | memData (tag : BitVec 16) (data : Sector) (poison : Bool)
  /-- S2M NDR Cmp -/
  | cmp (tag : BitVec 16)
  /-- RwD credits returned (R48) -/
  | rwdCredits (n : Nat)
  /-- Req credits returned (R48, R89) -/
  | reqCredits (n : Nat)
  /-- GPF response (R55) -/
  | gpf (phase : Nat)
  /-- viral signalled on the link (R52) -/
  | viral
  /-- an AER message: 0 correctable, 1 non-fatal, 2 fatal (R52) -/
  | aer (cls : Nat)
  /-- MSI-X vector (R41) -/
  | msix (vector : Nat)
  /-- a mailbox or MCTP command's end: return code and output payload (R331, R334) -/
  | mbox (via : Transport) (opcode : Nat) (r : RetCode) (out : List Byte)
  /-- a DOE response: protocol and data (R37) -/
  | doe (protocol : Nat) (data : List Byte)
  /-- an SPDM response (R56): request, its session, data -/
  | spdm (via : SpdmTransport) (request : Nat) (session : BitVec 32) (data : List Byte)
  /-- an MCTP control response (R345) -/
  | mctpControl (command : Nat) (data : List Byte)
  /-- the SMBus released (R380) -/
  | smbusRelease
  /-- a sync-ring frame of a type (R310) -/
  | ring (type : Nat) (f : RingFrame)
  /-- a tandem message -/
  | tandem (m : TndMsg)
  /-- the tandem port driven to electrical idle (R323) -/
  | tandemIdle
  /-- a command packet to a die of a channel (R173) -/
  | packet (w d : Nat) (p : MmbPacket)
  /-- a write burst on a channel's DQ, scrambled (R174, R175) -/
  | burst (w d : Nat) (data : List Byte)
  /-- a PMBus transaction (R234): port, device address, command, data, whether with PEC, and whether at 1 MHz -/
  | pmbus (port addr command data : Nat) (pec fast : Bool)
  /-- the link starts training, or goes down (R57) -/
  | linkTrain
  | linkDown
  deriving DecidableEq, Repr

/-! ### Pins and domains -/

/-- Pins and supply detectors outside the register blocks. -/
structure Pins where
  /-- VAON at or above the power-on threshold (R185) -/
  vaon : Bool
  /-- PERST_N asserted (R57) -/
  perst : Bool
  /-- the PG pins' levels (R209) -/
  pg : BitVec 32
  /-- FAULT_N asserted (R204, R205) -/
  fault : Bool
  /-- HOLD_LOAD asserted (R120) -/
  holdLoad : Bool
  /-- the internal supply detectors (R368) -/
  coreDet : Bool
  sramDet : Bool
  mmbDet : Bool
  /-- MMBn_RST_N of every channel is released (R172, R178) -/
  mmbRst : Bool
  deriving DecidableEq, Repr

/-! ### Host port (chapter 02) -/

/-- One HDM decoder (R45). -/
structure Decoder where
  base : Nat
  size : Nat
  skip : Nat
  iw : Nat
  ig : Nat
  committed : Bool
  errNotCommitted : Bool
  lock : Bool
  deriving DecidableEq, Repr

/-- A CXL event record (R53): event type (0 General Media, 1 Memory Module), its type or transaction type, address,
handle and stamp. -/
structure CxlEvent where
  kind : Nat
  sub : Nat
  dpa : Nat
  handle : Nat
  stamp : Nat
  deriving DecidableEq, Repr

/-- One event log (R53). -/
structure EventLog where
  recs : List CxlEvent
  overflow : Bool
  lost : Nat
  nextHandle : Nat
  /-- stamps of the first and the last record lost -/
  firstLost : Nat
  lastLost : Nat
  deriving DecidableEq, Repr

/-- A poison-list record (R51): DPA, length in 64-byte units, source. -/
structure PoisonRec where
  dpa : Nat
  len : Nat
  source : Nat
  deriving DecidableEq, Repr

/-- IDE streams (R56). -/
structure IdeState where
  memKeys : Bool
  memSkid : Bool
  insecure : Bool
  ioKeys : Bool
  deriving DecidableEq, Repr

/-- A SET_CERTIFICATE whose pages are being stored (R296): its transport, its session and the pages. -/
structure CertWait where
  via : SpdmTransport
  session : BitVec 32
  pages : NSet
  deriving DecidableEq, Repr

/-- The SPDM responder (R56): what has been negotiated on a transport, the shared session table, and certificates being
stored. -/
structure SpdmState where
  /-- per transport 0 DOE, 1 MCTP: 0 nothing, 1 version, 2 capabilities, 3 algorithms negotiated -/
  stage : Tab Nat
  /-- open sessions: identifier and whether FINISH has been done -/
  sessions : List (BitVec 32 × Bool)
  certWait : List CertWait
  deriving DecidableEq, Repr

/-- The host port and what the host sees of the device. -/
structure HostPort where
  decoders : Tab Decoder
  /-- commits of this tick, oldest first: they take effect at its end (R60) -/
  commitDue : List (Nat × Decoder)
  /-- Req credits that the host holds, of the 1,024 advertised (R48) -/
  reqOut : Nat
  linkUp : Bool
  /-- link quiesced (R133) -/
  quiesced : Bool
  memActive : Bool
  /-- no entry to SERVICE or enable has set Memory_Active since the last conventional reset (R40) -/
  activeOwed : Bool
  mediaStatus : Nat
  mbxReady : Bool
  viralEnable : Bool
  /-- viral after a brake: loads poison, stores discarded until the next conventional reset (R52) -/
  viralBrake : Bool
  /-- the base of Range 1, which decodes nothing (R38) -/
  rangeBase : Nat
  /-- the MSI-X table's words (R39) -/
  msixTable : Tab Nat
  /-- CXL RAS status bits set (R52): 0 Poison_Received, 1 Receiver_Overflow, 2 CRC_Threshold, 3 Retry_Threshold,
  4 CXL_IDE_Rx_Error, 5 Mem_Data_ECC, 6 Internal_Error -/
  ras : NSet
  poisonList : List PoisonRec
  /-- the stamp of the list's overflow -/
  poisonOverflow : Option Nat
  injected : NSet
  logs : Tab EventLog
  /-- events RECOVER queued for the entry to SERVICE (R53): log, kind, sub, dpa, and the class and source
  of their record -/
  queued : List (Nat × Nat × Nat × Nat × Nat × Nat)
  intPolicy : List Byte
  alertCfg : List Byte
  /-- host timestamp and the GTC it was set at (R338) -/
  timestamp : Nat
  timestampGtc : Nat
  takingPoison : Bool
  erased : Bool
  corrPersistent : Nat
  corrVolatile : Nat
  lifeDecade : Nat
  ide : IdeState
  spdm : SpdmState
  /-- a CXL Reset runs (R57) -/
  cxlResetting : Bool
  /-- lines that Scan Media found uncorrectable (R338) -/
  scanResults : List Nat
  deriving DecidableEq, Repr

/-! ### Cache (chapter 03) -/

/-- A way: its tag (R63), its data, and its use (R70, R72). -/
structure Way where
  line : Nat
  sv : BitVec 4
  sp : BitVec 4
  v : Bool
  d : Bool
  l : Bool
  p : Bool
  data : Line
  /-- out of use until the next scrub pass, or until RAMP -/
  off : Bool
  perm : Bool
  /-- scrub passes in a row with a parity error -/
  runs : Nat
  deriving DecidableEq, Repr

/-- An overflow slot (R66). -/
structure OvfSlot where
  used : Bool
  line : Nat
  sv : BitVec 4
  sp : BitVec 4
  p : Bool
  data : Line
  deriving DecidableEq, Repr

/-- A dirty-directory entry (R68). -/
structure DirEntry where
  line : Nat
  sv : BitVec 4
  sp : BitVec 4
  p : Bool
  scr : Bool
  dv : Bool
  ma : Nat
  deriving DecidableEq, Repr

/-- The cache slices. Keys: way (slice × 4,096 + set) × 16 + way; overflow slot slice × 512 + slot; directory entry
slice × 66,048 + entry; set slice × 4,096 + set. -/
structure Cache where
  ways : Tab Way
  ovf : Tab OvfSlot
  dir : Tab DirEntry
  plru : Tab (BitVec 15)
  /-- the lock list in hub memory (R77): DPA lines -/
  lockList : NSet
  /-- lines still to verify in the running flush (R81) -/
  flush : NSet
  /-- the scrub's next set, per slice (R71) -/
  scrubSet : Tab Nat
  /-- ways that became eligible this tick, usable from the next (R71, R85) -/
  fresh : NSet
  /-- ticks before which a flush that was called off, and a bypass that has ended, still govern stores and loads (R82, R83) -/
  flushUntil : Nat
  bypassUntil : Nat
  deriving DecidableEq, Repr

/-! ### Spokes, queues, contexts (chapter 04) -/

/-- The operation a host context carries. -/
inductive CtxOp where
  | load
  | loadData
  | store
  | storePtl
  deriving DecidableEq, Repr

/-- The states of a context (R90). -/
inductive CtxState where
  | decode
  | lookup
  | hit
  | qwait
  | queued
  | sense
  | window
  | decode2
  | write
  | merge
  | mirror
  | program
  | respond
  deriving DecidableEq, Repr

/-- A host context (R89, R91). -/
structure Ctx where
  tag : BitVec 16
  op : CtxOp
  hpa : Nat
  dpa : Nat
  ma : Nat
  st : CtxState
  arrival : Nat
  deadline : Nat
  /-- demand reads ahead in its bank, and displacing windows (R109) -/
  ahead : Nat
  displaced : Nat
  waited : Bool
  reissued : Bool
  /-- end of its sense, and start of its booked bus window (R108) -/
  ready : Nat
  window : Nat
  /-- store data and byte enables -/
  data : Sector
  be : BitVec 64
  poisonIn : Bool
  /-- response data and poison -/
  rdata : Sector
  rpoison : Bool
  /-- a wheel serves it: its latency counts (R112) -/
  served : Bool
  /-- its RwD credit goes back with its Cmp (R47) -/
  creditBack : Bool
  /-- aborted by a port reset: the store is finished, nothing is sent (R57) -/
  mute : Bool
  /-- one more than the descriptor of the write-back that carries its data; 0 before one has started (R128) -/
  carried : Nat
  deriving DecidableEq, Repr

/-- The classes of the bank queues, in the order of R99's candidates. -/
inductive OpClass where
  | demand
  | drain
  | write
  | background
  deriving DecidableEq, Repr

/-- What an operation does (R88), with what its completion needs. -/
inductive OpKind where
  /-- the demand sense of a context, or its merge for a partial store -/
  | demandRead (tag : BitVec 16)
  /-- write-back of a dirty line at a directory location of its slice -/
  | writeBack (loc : Nat)
  /-- one line of a gap move of a region -/
  | gapCopy (region line : Nat)
  /-- patrol's rewrite of a line in place, alone or in the refresh of its block -/
  | rewrite
  /-- copy of a line of a retired slot into its spare -/
  | retireCopy (region slot line : Nat)
  /-- drain program of the directory location into a drain slot -/
  | drainLine (loc area slot : Nat)
  /-- a drain slot's line programmed home in RECOVER (R196, R197) -/
  | restoreHome (key : Nat)
  /-- the seal block of a checkpoint slot -/
  | seal (slot : Nat)
  /-- TAGCLR of a block of an extent, of a gap target, of a spare -/
  | tagClr (extent : Nat)
  | tagClrGap (region : Nat)
  | tagClrSpare
  /-- background read of a line for Scan Media, for Lock Cache Lines, for patrol's visit of a slot -/
  | scanRead
  | lockFill
  | patrolRead (region slot line : Nat)
  /-- an index line of a wheel's drain index, and a body line of a checkpoint slot (R139, R147) -/
  | indexLine (wheel k : Nat)
  | bodyLine (slot n : Nat)
  deriving DecidableEq, Repr

/-- A descriptor (R92): operation, class, bank, line, media address, enqueue stamp. -/
structure Desc where
  id : Nat
  kind : OpKind
  cls : OpClass
  /-- bank number (w × 8 + d) × 16 + b -/
  bank : Nat
  line : Nat
  ma : Nat
  enq : Nat
  /-- the program is single-level -/
  sl : Bool
  /-- a sense goes first (merge sense, copy sense, patrol); of a demand read: its bank had to be freed (R96, R97) -/
  needSense : Bool
  /-- the sensed and merged data is ready; of a demand read: its sense is dispatched -/
  ready : Bool
  /-- a descriptor of the shared pool (R93) -/
  shared : Bool
  /-- aged ahead of write entries once (R95) -/
  aged : Bool
  /-- data and poison mask to program -/
  data : Line
  sp : BitVec 4
  /-- of a program that has started: the program epoch and the key set it was sent under (R27, R164) -/
  pe : Nat
  key : Nat
  deriving DecidableEq, Repr

/-- A program admitted in a bank (R96, R98, R99): whether it is suspended, since when, and counted as long; whether its command
has left (R113). -/
structure Prog where
  op : Desc
  suspended : Bool
  suspAt : Nat
  longCounted : Bool
  started : Bool
  deriving DecidableEq, Repr

/-- A bank's state at its gate (R87, R95 to R99). -/
structure BankSt where
  sense : Option Desc
  senseReady : Nat
  /-- non-demand data waiting in the output latch -/
  latch : Option Desc
  /-- transferred and waiting for its decode on an engine -/
  decoding : Option Desc
  prog : Option Prog
  tagop : Option Desc
  /-- the bank is ready again after suspend or cancel (R96) -/
  readyAt : Nat
  deriving DecidableEq, Repr

/-- A job of the hub's queue (R106): the soft decode of a bank's read, counts for a reference, the accounting of a home program,
a lookup in the exception table for a gap move. -/
inductive Job where
  | softDecode (bank : Nat)
  | writeCount (region : Nat)
  | xtabLookup (region slot : Nat)
  | driftStats (wheel die band bucket boundary : Nat) (n : SoftCount)
  deriving DecidableEq, Repr

/-- Contexts, queues, banks and drafting. -/
structure Sched where
  ctxs : List Ctx
  queue : List Desc
  /-- the hub's list of background work that found no room (R93) -/
  wait : List Desc
  banks : Tab BankSt
  /-- the bus windows booked, per wheel: start and bank; and the end of the last non-demand transfer (R108) -/
  windows : Tab (List (Nat × Nat))
  busUntil : Tab Nat
  /-- background starts left this tick are allowance less these, per wheel (R100) -/
  bgUsed : Tab Nat
  /-- operation id and the engine drafted for it (R104) -/
  drafts : Tab Nat
  /-- engines that ran something in the last tick, and in this one -/
  engLast : NSet
  engNow : NSet
  jobs : List Job
  /-- the job each spoke's engine runs -/
  running : Tab Job
  nextId : Nat
  deriving DecidableEq, Repr

/-! ### Ledger and freewheel (chapter 05) -/

/-- Phases of a capacitance measurement (R120). -/
inductive CapPhase where
  | idle
  | waiting
  | deferred
  | discarding
  | recording
  deriving DecidableEq, Repr

/-- The capacitance test. -/
structure CapTest where
  phase : CapPhase
  /-- the last conversions' V_cap in step 1, newest first -/
  settle : List Nat
  /-- sum of the 16 settled results: the mean times 16 -/
  mean16 : Nat
  startAt : Nat
  /-- recorded results, newest first: V_cap and stamp -/
  recs : List (Nat × Nat)
  /-- run by the Measure Capacitance command -/
  byCommand : Bool
  /-- rejections in a row (R121) -/
  run : Nat
  deriving DecidableEq, Repr

/-- The energy ledger's state beside its registers. -/
structure Ledger where
  /-- the code that the next ledger tick uses, and the newest result with its tick (R119) -/
  code : Nat
  newCode : Nat
  newTick : Nat
  eCover : Nat
  eBase : Nat
  /-- write-through holds (R127), and deficit has been entered in this session (R129) -/
  wt : Bool
  deficit : Bool
  test : CapTest
  deriving DecidableEq, Repr

/-- Forms of a power-down drain (R133, R136, R198). -/
inductive FwKind where
  | none
  | full
  | short
  | brakeDrain
  deriving DecidableEq, Repr

/-- Stages of a freewheel or brake with drain (R133). -/
inductive FwStage where
  | idle
  | t0
  | draining
  | indexing
  | sealing
  | recording
  | lowering
  deriving DecidableEq, Repr

/-- The freewheel controller. -/
structure Freewheel where
  kind : FwKind
  stage : FwStage
  /-- stamp of the trip -/
  t0 : Nat
  eNeed : Nat
  seq : Nat
  area : Nat
  /-- next free drain slot per wheel, and next index line to queue -/
  slotNext : Tab Nat
  indexNext : Tab Nat
  drained : Nat
  sealed : Bool
  cutShort : Bool
  autostoreDone : Bool
  recordDone : Bool
  railsDown : Bool
  /-- a brake-class fault came during the freewheel (R206): it ends in BRAKE -/
  toBrake : Bool
  /-- input power failed during a brake with drain (R136) -/
  onHold : Bool
  deriving DecidableEq, Repr

/-! ### Media (chapter 06) -/

/-- A programmed media line (R148): what was encrypted and under which key set and tweak (R27), and its metadata. -/
structure MLine where
  data : Line
  key : Nat
  tweak : Nat
  sp : BitVec 4
  lepoch : Byte
  /-- not encrypted: a line of the controller's own -/
  plain : Bool
  deriving DecidableEq, Repr

/-- What waits for a non-demand window of a channel: a die's REFLOAD of a band, or the MRR of its oscillator count (R166,
R178). -/
structure DieWait where
  w : Nat
  d : Nat
  band : Option Nat
  deriving DecidableEq, Repr

/-- A row's epoch tag (R164). -/
structure RowTag where
  tag : Nat
  settled : Bool
  deriving DecidableEq, Repr

/-- Rotation pointers of a region (R149). -/
structure RotPtr where
  start : Nat
  gap : Nat
  deriving DecidableEq, Repr

/-- Stages of a gap move (R150). -/
inductive GapStage where
  | queued
  | copying
  | storing
  deriving DecidableEq, Repr

/-- A gap move in progress. -/
structure GapMove where
  src : Nat
  dst : Nat
  stage : GapStage
  /-- lines copied and verified, lines sensed, and those of them that are UNWRITTEN -/
  done : NSet
  sensed : NSet
  blank : NSet
  /-- sensed lines that wait to be programmed until every line has been sensed and the target is clear -/
  copies : List Desc
  deriving DecidableEq, Repr

/-- An exception-table entry (R154). -/
structure XEntry where
  region : Nat
  slot : Nat
  dead : Bool
  /-- MA of the spare block -/
  spare : Nat
  pmask : BitVec 16
  deriving DecidableEq, Repr

/-- A retirement in progress (R156). -/
structure Retire where
  region : Nat
  slot : Nat
  spare : Nat
  done : NSet
  /-- the journal page is being stored -/
  storing : Bool
  /-- the slot is a gap target (R157) -/
  gapTarget : Bool
  /-- spares that failed while they were being written (R155) -/
  tried : NSet
  deriving DecidableEq, Repr

/-- What one sense of a line shows patrol (R162): weakness, whether it failed to decode, and what it holds. -/
structure PatrolSeen where
  k : Nat
  weak : Nat
  failed : Bool
  data : Line
  sp : BitVec 4
  deriving DecidableEq, Repr

/-- A visit of patrol to a slot: lines still to be read, and what the written ones have shown. -/
structure PatrolVisit where
  region : Nat
  slot : Nat
  left : NSet
  seen : List PatrolSeen
  deriving DecidableEq, Repr

/-- Patrol's position and memory (R162, R163). -/
structure Patrol where
  wheel : Nat
  region : Nat
  slot : Nat
  /-- slots (region × 262,144 + slot) that needed refresh in the last pass and in this one -/
  lastNeed : NSet
  thisNeed : NSet
  visited : Nat
  /-- the slot being visited, and what its lines have shown -/
  visit : Option PatrolVisit
  deriving DecidableEq, Repr

/-- A learned reference and its counts (R167). -/
structure DriftSet where
  ref : Nat
  delta : Nat
  n01 : Nat
  n10 : Nat
  n11 : Nat
  cells : Nat
  deriving DecidableEq, Repr

/-- A drain slot's content as written (R138) with the entry its index line gives it (R139). -/
structure DrainSlot where
  line : Nat
  sv : BitVec 4
  sp : BitVec 4
  scr : Bool
  pin : Bool
  v : Bool
  data : Line
  key : Nat
  tweak : Nat
  deriving DecidableEq, Repr

/-- A checkpoint's body, as far as RECOVER reads it (R169). -/
structure CkptBody where
  released : Bitmap
  relPending : Bitmap
  xtab : List XEntry
  counts : Tab Nat
  drift : Tab DriftSet
  patrolWheel : Nat
  patrolRegion : Nat
  patrolSlot : Nat
  pe : Nat
  /-- live drain area, 255 if none, and its restore map -/
  liveArea : Nat
  restoreMap : NSet
  deriving DecidableEq, Repr

/-- A checkpoint slot (R140, R147). -/
structure Ckpt where
  seq : Nat
  kind : Nat
  area : Nat
  indexLines : Nat
  drained : Nat
  gtcTrip : Nat
  eNeed : Nat
  dsc : Nat
  /-- the seal block has verified -/
  sealed : Bool
  body : CkptBody
  deriving DecidableEq, Repr

/-- A drain index line as written (R139): the checkpoint sequence number it carries, and its entries' words. -/
structure IndexLine where
  seq : Nat
  entries : List Nat
  deriving DecidableEq, Repr

/-- A checkpoint being written: its slot, the next body line to queue, and body lines still to verify (R140). -/
structure CkptWrite where
  slot : Nat
  next : Nat
  left : Nat
  deriving DecidableEq, Repr

/-- The media, placement, wear, drift and the media bus. Keys: line by packed MA (R28); row by MA div 16; drain slot
(area × 16 + wheel) × 67,584 + slot; index line (area × 16 + wheel) × 4,096 + k; reference
(((wheel × 8 + die) × 4 + band) × 5 + bucket) × 3 + boundary; die wheel × 8 + die. -/
structure Media where
  lines : Tab MLine
  tags : Tab RowTag
  ptrs : Tab RotPtr
  counts : Tab Nat
  gaps : Tab GapMove
  /-- gap moves that the write count asked for while one was under way, per region (R150) -/
  gapOwed : Tab Nat
  lost : NSet
  xtab : List XEntry
  journal : List XEntry
  /-- failed program attempts in a row, per line (R155) -/
  attempts : Tab Nat
  retire : Option Retire
  /-- retirements that wait for it: region, slot, gap target -/
  retireWait : List (Nat × Nat × Bool)
  released : Bitmap
  relPending : Bitmap
  /-- TAGCLRs still to complete, per extent; the next block to queue; and copies of its blocks that are to be cleared too: extent
  and MA (R158, R180) -/
  clrLeft : Tab Nat
  clrNext : Tab Nat
  clrExtra : List (Nat × Nat)
  /-- dies whose TAGCLR of every bank is still to complete (R161) -/
  clrDies : NSet
  patrol : Patrol
  pe : Nat
  /-- the TAGAGE in progress: its value, and banks still to complete -/
  aging : Option Nat
  agingLeft : NSet
  drift : Tab DriftSet
  temps : Tab Int
  /-- dies whose loaded sets were lost (R174) -/
  setsLost : NSet
  /-- the last packet of each identifier of a bank, with its data, by bank × 256 + identifier (R173) -/
  sent : Tab (MmbPacket × List Byte)
  /-- what waits for a non-demand window (R166, R178) -/
  dieWait : List DieWait
  /-- stamps of CA CRC errors of the last second, per channel (R179) -/
  caErrs : Tab (List Nat)
  /-- the key set in use (R26) and whether no good copy of a key is left (R293) -/
  key : Nat
  keyBad : Bool
  drain : Tab DrainSlot
  index : Tab IndexLine
  ckpts : Tab Ckpt
  liveArea : Option Nat
  /-- restored lines not yet verified at home (R141), and lines held until the area is retired -/
  restoreLeft : NSet
  held : NSet
  /-- every line of the live area that was restored as dirty -/
  restored : NSet
  /-- line programs per wheel since the life accumulator's last unit (R291) -/
  lifeCount : Tab Nat
  /-- the last checkpoint number taken (R307), and a KIND 1 checkpoint asked for -/
  ckptSeq : Nat
  ckptDue : Bool
  ckptNow : Option CkptWrite
  deriving DecidableEq, Repr

/-! ### Life cycle (chapter 07) -/

/-- RECOVER's steps (R193). -/
inductive RecStep where
  | idle
  | check
  | reading
  /-- lines of the live area go home (R197) -/
  | homing
  /-- the KIND 4 checkpoint of R197 is being sealed -/
  | sealing
  /-- lines are in the cache; those without room go home (R196) -/
  | placing
  | sweep
  | store
  deriving DecidableEq, Repr

/-- The hub's life-cycle state. -/
structure Life where
  /-- request for RAMP by command (R347) -/
  rampRequest : Bool
  /-- stamp of the input becoming good without a break -/
  goodSince : Nat
  restartAt : Nat
  /-- RAMP steps done (R189) -/
  seqDone : Bool
  hubUp : Bool
  ucodeDone : Bool
  cacheDone : Bool
  cacheTesting : Bool
  step : RecStep
  /-- dies still to report their CHECK -/
  checkLeft : NSet
  /-- drain slots still to be programmed home, drain slots still to be restored, and those that fail to decode -/
  homeTodo : NSet
  restoreTodo : List Nat
  badKeys : NSet
  /-- RECOVER counts a dirty shutdown; the count to write -/
  dirty : Bool
  dsc : Nat
  /-- mode changes accepted and due (R200, R202) -/
  toMaintenance : Bool
  toService : Bool
  firstService : Bool
  /-- firmware store (R189): versions and authenticity of slots A and B, the slot running -/
  fwVersion : Tab Nat
  fwBad : NSet
  fwRunning : Nat
  /-- Transfer FW: bytes of the image received in sequence (R338) -/
  fwParts : Nat
  /-- an online activation runs, of this slot (R338) -/
  activating : Bool
  actSlot : Nat
  brakeRecord : Bool
  /-- stamp of the release of MMBn_RST_N (R178) -/
  rstAt : Nat
  /-- stamp of the last change of mode, of the last acceptance of a mode change, and an accepted Brake Release (R184, R185) -/
  modeSince : Nat
  acceptedAt : Nat
  toStandby : Bool
  /-- TJ at SHUT holds off the debounce (R258) -/
  hot : Bool
  deriving DecidableEq, Repr

/-! ### Rail sequencer (chapter 08) -/

/-- A retry of a target (R228). -/
structure Retry where
  count : Nat
  /-- 0 none, 1 backoff, 2 enable request placed or waiting for power good -/
  phase : Nat
  since : Nat
  deriving DecidableEq, Repr

/-- Who lowers rails (R225, R229). -/
inductive DownWhy where
  | all
  | group
  deriving DecidableEq, Repr

/-- A power-down in progress. -/
structure PowerDown where
  why : DownWhy
  /-- targets still to lower, in order -/
  left : List Target
  /-- the target whose OFF_DELAY runs, and the tick in which its disable edge was driven -/
  waiting : Option Target
  since : Nat
  deriving DecidableEq, Repr

/-- Phases of a margin (R232, R235). -/
inductive MarginPhase where
  | moving
  | settling
  | checking
  /-- the margin is in effect -/
  | held
  | neutralFirst
  | toNeutral
  | neutralHold
  | nominalSettle
  | pmbus
  deriving DecidableEq, Repr

/-- A margin of a rail. -/
structure Margin where
  phase : MarginPhase
  uv : Nat
  ov : Nat
  target : Nat
  settle : Nat
  since : Nat
  /-- the transport that waits for RESULT -/
  via : Option Transport
  action : Nat
  kept : Option Nat
  /-- PMBus transactions still to do: command (0x100 more for a read) and data; attempts of the first, 0 while the port is
  another margin's -/
  todo : List (Nat × Nat)
  attempt : Nat
  deriving DecidableEq, Repr

/-- The sequencer's state beside its registers. -/
structure Sequencer where
  /-- the enable log, newest first (R225) -/
  log : List Target
  pend : List Target
  /-- edges decided and due at the next boundary: target and level -/
  edges : List (Target × Bool)
  /-- the step at SEQ_CTRL.STEP is waiting, since this tick -/
  waiting : Bool
  stepSince : Nat
  /-- the tick in which a retry paused the sequence (R228) -/
  pausedAt : Nat
  retries : Tab Retry
  down : List PowerDown
  margins : Tab Margin
  fflArmed : Bool
  /-- stamp of the entry to RAMP -/
  rampAt : Nat
  /-- channels whose OV comparator a diagnosis masks, each with the tick in which the mask ends (R262) -/
  ovMask : Tab Nat
  /-- PG edges that have landed and not been processed: channel, whether it is a rise to good, and the tick it landed in (R213) -/
  pgDue : List (Nat × Bool × Nat)
  /-- channels whose power good has been seen since their enable edge and whose UV comparator is not armed (R212) -/
  armNext : NSet
  /-- rail commands waiting: transport and target -/
  railWait : List (Option Transport × Target)
  /-- by target: the tick from which PG_TIMEOUT counts, that of its last enable edge (R228, R349) -/
  pgFrom : Tab Nat
  /-- by channel: the tick of its last fault, plus 1 (R236) -/
  faultAt : Tab Nat
  /-- admission on the device's own GTC (R224): 0 not allowed, 1 allowed, 2 recorded -/
  unsync : Nat
  deriving DecidableEq, Repr

/-! ### Converters (chapter 09) -/

/-- What a conversion was for (R250). -/
inductive ConvWork where
  | scheduled
  | injected
  | calibration
  | triggered
  | diagnosis
  deriving DecidableEq, Repr

/-- A running conversion: its local channel, what it is for, the tick it started in, and its mode. -/
structure ConvRun where
  ch : Nat
  work : ConvWork
  start : Nat
  lp : Bool
  deriving DecidableEq, Repr

/-- A converter (R242 to R254). -/
structure ConvSt where
  on : Bool
  lp : Bool
  run : Option ConvRun
  /-- a trigger is held (R249); one was dropped since the last entry -/
  held : Bool
  dropped : Bool
  injPend : Bool
  /-- the channel of the pending injected request -/
  injCh : Nat
  calibrating : Bool
  calCount : Nat
  calLo : Nat
  calHi : Nat
  calAbort : Bool
  /-- the transport that waits for the calibration, and whether it runs by itself, before the schedule (R253) -/
  calVia : Option Transport
  calAuto : Bool
  /-- the next slot and the tick of its due boundary (R244) -/
  slot : Nat
  nextDue : Nat
  /-- a displaced slot: its channel and the tick by which it must have completed (R250) -/
  late : Option (Nat × Nat)
  /-- the schedule of the cycle that runs: channel of each slot (16 when idle), spacing in both modes (R245) -/
  effSlots : List Nat
  effSp : Nat
  effLp : Nat
  /-- completion tick of the last injected conversion -/
  lastInj : Option Nat
  deriving DecidableEq, Repr

/-- An input's sinc filter (R255): the order and length it runs with, each stage's last inputs, newest first, and the
samples since the restart. -/
structure Filter where
  order : Nat
  len : Nat
  stages : List (List Nat)
  samples : Nat
  deriving DecidableEq, Repr

/-- A result entry (R259). -/
structure Result where
  w0 : Nat
  w1 : Nat
  w2 : Nat
  deriving DecidableEq, Repr

/-- A path diagnosis (R261): its input, results so far (oldest first), the tick the next conversion may start in after
its idle tick (0 until the converter is held idle), the transport that waits, and whether a trip stops it at its next conversion boundary. -/
structure Diag where
  input : Nat
  got : List Nat
  readyAt : Nat
  via : Option Transport
  stop : Bool
  deriving DecidableEq, Repr

/-- The converters. -/
structure Converters where
  convs : Tab ConvSt
  filters : Tab Filter
  fifo : Tab (List Result)
  ring : Tab Result
  /-- the diagnosis running on each converter pair -/
  diag : Tab (Option Diag)
  /-- configuration fields as each converter's running cycle took them (R245), by field key -/
  eff : Tab Nat
  /-- the temperature warning is armed; results at or above SHUT in a row (R258) -/
  tjArmed : Bool
  tjRun : Nat
  /-- a crossing with LIM_ACT 2 or 3 while MCV_ERR.LIMIT is set (R257) -/
  limAlert : Bool
  deriving DecidableEq, Repr

/-! ### Event recorder (chapter 10) -/

/-- A record (R267), less its CRC. -/
structure Rcd where
  type : Nat
  cls : Nat
  devid : Nat
  source : Nat
  seq : Nat
  flags : Nat
  nsnap : Nat
  lost : Nat
  epoch : Nat
  snap : List Nat
  listId : Nat
  deriving DecidableEq, Repr

/-- An event that calls for a record, landed and not yet captured (R270). A fixed snapshot comes with its words; a record of
another device brings that device's number. -/
structure Landed where
  stamp : Nat
  source : Nat
  type : Nat
  cls : Nat
  flags : Nat
  fixed : Option (List Nat)
  devid : Option Nat
  deriving DecidableEq, Repr

/-- The recorder's state beside its registers and the saddlebag. -/
structure Recorder where
  landed : List Landed
  queue : List Rcd
  ffl : Option Rcd
  lostSince : Nat
  /-- the record being written, its circulating slot, its permanent slot (4,096 when none) -/
  writing : Option (Rcd × Nat × Nat)
  vring : List Rcd
  /-- a clear in progress, and the transport that still waits for its end -/
  clearing : Option (Option Transport)
  /-- a record being forwarded and the attempts made, and the stamp of the last; records that wait to be forwarded -/
  fwd : Option (Rcd × Nat × Nat)
  fwdWait : List Rcd
  /-- RECORD fragments gathered, per origin (R317) -/
  gather : Tab (List Byte)
  deriving DecidableEq, Repr

/-! ### Saddlebag (chapter 11) -/

/-- A page store that runs (R297): the page, the verifies of it that failed, the page's bytes as the store took them, and
whether it is autostore's (R300). -/
structure StoreRun where
  page : Nat
  fails : Nat
  image : List Host.Cell
  auto : Bool
  deriving DecidableEq, Repr

/-- A dual-slot counter's update that waits for the store of its previous one (R306): byte address of the counter and
the slot's bits [95:0] without SEQ. -/
structure CtrUpdate where
  addr : Nat
  body : Nat
  deriving DecidableEq, Repr

/-- The saddlebag: working copy and shadow as bytes by address 256 × page + offset; unlisted bytes read 0xFF. -/
structure Saddlebag where
  work : List Host.Cell
  shadow : List Host.Cell
  /-- pages stored at least once (the written mark, R290) -/
  written : NSet
  /-- pages with an uncorrectable word at recall -/
  ue : NSet
  /-- dirty pages, each with one more than the GTC of the first write since it was clean -/
  since : Tab Nat
  /-- pages with a store requested -/
  reqs : NSet
  /-- the store that runs, per bank -/
  running : Tab (Option StoreRun)
  lastPage : Tab Nat
  /-- pages that autostore still has to store (R300) -/
  autoset : NSet
  /-- counter updates that wait (R306), and a journal update that waits -/
  ctrWait : List CtrUpdate
  journalWait : Bool
  /-- the refresh pass: when the next falls due; per bank the pages already read; weak pages to store (R304) -/
  refreshDue : Nat
  refreshNext : Tab Nat
  weak : NSet
  deriving DecidableEq, Repr

/-! ### Peloton and tandem (chapter 12) -/

/-- A master heard on the ring. -/
structure Heard where
  stamp : Nat
  epoch : Nat
  deriving DecidableEq, Repr

/-- A device's last PRESENT frame. -/
structure Present where
  stamp : Nat
  payload : BitVec 64
  downRun : Nat
  deriving DecidableEq, Repr

/-- The sync ring's state beside its registers. -/
structure Peloton where
  masters : Tab Heard
  present : Tab Present
  ownReturn : Nat
  alignedOnce : Bool
  claimOpen : Bool
  dup : Bool
  /-- remaining slew in ns, signed (R312) -/
  slew : Int
  lastSend : Nat
  /-- the round-trip offset of the last TIME frame was beyond the window -/
  startAt : Nat
  /-- stamp of the last TIME frame of another EPOCH -/
  otherEpochAt : Nat
  /-- SLOT_TICKS of the master followed, 0 when none (R316) -/
  slotTicks : Nat
  deriving DecidableEq, Repr

/-- The tandem port's state beside its registers. -/
structure Tandem where
  serial : BitVec 64
  peerBase : Nat
  peerRegions : NSet
  own : NSet
  configSent : Bool
  configGood : Bool
  /-- mirrored stores awaiting their MACK: tag, line, deadline -/
  waiting : List (BitVec 16 × Nat × Nat)
  divergent : NSet
  divergeAll : Bool
  /-- sender: extents to resynchronise that have not begun, and those in progress with the next line of each -/
  toSend : NSet
  sending : Tab Nat
  /-- receiver: extents being resynchronised, and lines MWR wrote since they began -/
  resync : NSet
  mwrSince : NSet
  lastQuiesce : Bool
  idle : Bool
  idleAt : Nat
  reserved : Nat
  lastMsg : Nat
  peerPromoted : Bool
  /-- mirror-store slots promoted and writable -/
  promoted : Bool
  roleSent : Bool
  quiesceDue : Bool
  deriving DecidableEq, Repr

/-! ### Mailbox (chapter 13) -/

/-- A nonce (R340). -/
structure Nonce where
  value : BitVec 128
  issued : Nat
  deriving DecidableEq, Repr

/-- A foreground command that waits for its stores or for an event (R332). -/
structure Fg where
  /-- none once a port reset has aborted the command: its stores go on (R57) -/
  via : Option Transport
  opcode : Nat
  /-- pages still to be stored -/
  pages : NSet
  out : List Byte
  /-- saddlebag ranges (byte address, length) whose registers take their stored values in the tick after the store; a range of
  length 0 at the patrol word restarts the pass (R355) -/
  reload : List (Nat × Nat)
  deriving DecidableEq, Repr

/-- What a mailbox's command, status and payload registers hold after a command (R331). -/
structure MbxAnswer where
  opcode : Nat
  ret : RetCode
  out : List Byte
  deriving DecidableEq, Repr

/-- The background operation (R335). -/
structure Bg where
  opcode : Nat
  via : Transport
  /-- ranges of lines still to do: first line and count -/
  todo : List (Nat × Nat)
  done : Nat
  refused : List Nat
  total : Nat
  /-- the line in progress is being read -/
  filling : Bool
  /-- the work is done, and the stores of these saddlebag pages are waited for (R296) -/
  pages : List Nat
  deriving DecidableEq, Repr

/-- The mailbox engines. -/
structure Mailbox where
  nonces : Tab Nonce
  /-- what a mailbox's registers show of its last answer (R331): opcode, return code, output -/
  answers : Tab MbxAnswer
  fg : List Fg
  bg : Option Bg
  /-- last background operation: opcode, return code, output -/
  last : Option (Nat × RetCode × List Byte)
  fails : Nat
  lockAt : Nat
  eid : Byte
  abortReq : Bool
  /-- ranges of the saddlebag whose registers are loaded at the next tick -/
  reload : List (Nat × Nat)
  deriving DecidableEq, Repr

/-! ### The machine -/

/-- The controller. -/
structure State where
  config : DevConfig
  serial : BitVec 64
  stepping : Nat
  /-- the global time counter, in ns, modulo 2^64 (R17) -/
  gtc : Nat
  /-- the model's own: the stamp of the event that the command in progress brings (R19); outside commands 0 (log 74) -/
  stamp : Nat
  mode : Mode
  /-- register fields by bit address -/
  regs : Tab Nat
  /-- the tick in which the hardware last set each RW1C bit, by the bit's address (R12) -/
  setAt : Tab Nat
  pins : Pins
  host : HostPort
  cache : Cache
  sched : Sched
  led : Ledger
  fw : Freewheel
  med : Media
  life : Life
  seq : Sequencer
  mcv : Converters
  rcd : Recorder
  sbg : Saddlebag
  pel : Peloton
  tnd : Tandem
  mbx : Mailbox
  /-- everything sent, oldest first: the model's own record of the block's outputs -/
  outbox : List Emission
  /-- the model's own counter of free values (log 6) -/
  freeIx : Nat
  /-- commands waiting, first in, first out -/
  pending : List Instr
  deriving DecidableEq, Repr

/-! ### Reset -/

/-- An all-zero media line. -/
def zeroLine : Line := ⟨0, 0, 0, 0⟩

/-- An uncommitted decoder (R57). -/
def decoderReset : Decoder := ⟨0, 0, 0, 0, 0, false, false, false⟩

/-- An empty event log. -/
def logReset : EventLog := ⟨[], false, 0, 1, 0, 0⟩

/-- The host port after AON power-up (R57). -/
def hostReset : HostPort :=
  { decoders := [], commitDue := [], reqOut := 0, linkUp := false, quiesced := false, memActive := false
    activeOwed := true, mediaStatus := 0, mbxReady := false, viralEnable := false, viralBrake := false
    rangeBase := 0, msixTable := [], ras := [], poisonList := [], poisonOverflow := none, injected := [], logs := [], queued := []
    intPolicy := [], alertCfg := [], timestamp := 0, timestampGtc := 0
    takingPoison := false, erased := false, corrPersistent := 0, corrVolatile := 0, lifeDecade := 0
    ide := ⟨false, false, false, false⟩, spdm := ⟨[], [], []⟩, cxlResetting := false, scanResults := [] }

/-- An invalid way. -/
def wayReset : Way := ⟨0, 0, 0, false, false, false, false, zeroLine, false, false, 0⟩

/-- A free overflow slot. -/
def ovfReset : OvfSlot := ⟨false, 0, 0, 0, false, zeroLine⟩

/-- A directory entry with DV = 0. -/
def dirReset : DirEntry := ⟨0, 0, 0, false, false, false, 0⟩

/-- An empty cache (R190). -/
def cacheReset : Cache := ⟨[], [], [], [], [], [], [], [], 0, 0⟩

/-- An idle bank. -/
def bankReset : BankSt := ⟨none, 0, none, none, none, none, 0⟩

/-- No contexts, queues or jobs. -/
def schedReset : Sched := ⟨[], [], [], [], [], [], [], [], [], [], [], [], 0⟩

/-- No capacitance test. -/
def capTestReset : CapTest := ⟨.idle, [], 0, 0, [], false, 0⟩

/-- The ledger before its first tick. -/
def ledgerReset : Ledger := ⟨0, 0, 0, 0, 0, true, false, capTestReset⟩

/-- No freewheel. -/
def fwReset : Freewheel :=
  ⟨.none, .idle, 0, 0, 0, 0, [], [], 0, false, false, false, false, false, false, false⟩

/-- Rotation pointers of a region whose counter was never stored: S = 0, G = N (log 4). -/
def ptrReset : RotPtr := ⟨0, 229376⟩

/-- A cleared row tag. -/
def tagReset : RowTag := ⟨0, false⟩

/-- An unset drain slot. -/
def drainReset : DrainSlot := ⟨0, 0, 0, false, false, false, zeroLine, 0, 0⟩

/-- No patrol done. -/
def patrolReset : Patrol := ⟨0, 0, 0, [], [], 0, none⟩

/-- A body that holds nothing. -/
def bodyReset : CkptBody := ⟨bmEmpty, bmEmpty, [], [], [], 0, 0, 0, 0, 255, []⟩

/-- An unsealed checkpoint slot. -/
def ckptReset : Ckpt := ⟨0, 0, 255, 0, 0, 0, 0, 0, false, bodyReset⟩

/-- Media never written. -/
def mediaReset : Media :=
  { lines := [], tags := [], ptrs := [], counts := [], gaps := [], gapOwed := [], lost := [], xtab := [], journal := []
    attempts := [], retire := none, retireWait := [], released := bmEmpty, relPending := bmEmpty, clrLeft := [], clrNext := [], clrExtra := [], clrDies := []
    patrol := patrolReset, pe := 0, aging := none, agingLeft := [], drift := [], temps := []
    setsLost := [], sent := [], dieWait := [], caErrs := [], key := 0, keyBad := false, drain := [], index := [], ckpts := []
    liveArea := none, restoreLeft := [], held := [], restored := [], lifeCount := [], ckptSeq := 0, ckptDue := false, ckptNow := none }

/-- The hub unpowered. -/
def lifeReset : Life :=
  { rampRequest := false, goodSince := 0, restartAt := 0, seqDone := false, hubUp := false
    ucodeDone := false, cacheDone := false, cacheTesting := false, step := .idle, checkLeft := []
    homeTodo := [], restoreTodo := [], badKeys := []
    dirty := false, dsc := 0, toMaintenance := false, toService := false, firstService := false
    fwVersion := [], fwBad := [], fwRunning := 0, fwParts := 0, activating := false, actSlot := 0
    brakeRecord := false, rstAt := 0, modeSince := 0, acceptedAt := 0, toStandby := false, hot := false }

/-- No rails enabled. -/
def seqReset : Sequencer :=
  ⟨[], [], [], false, 0, 0, [], [], [], false, 0, [], [], [], [], [], [], 0⟩

/-- A converter switched off. -/
def convReset : ConvSt :=
  { on := false, lp := false, run := none, held := false, dropped := false, injPend := false, injCh := 0
    calibrating := false, calCount := 0, calLo := 0, calHi := 0, calAbort := false, calVia := none, calAuto := false
    slot := 0, nextDue := 0, late := none, effSlots := [], effSp := 4, effLp := 32, lastInj := none }

/-- A restarted filter. -/
def filterReset : Filter := ⟨1, 1, [], 0⟩

/-- Converters off. -/
def mcvReset : Converters := ⟨[], [], [], [], [], [], false, 0, false⟩

/-- An empty recorder. -/
def rcdReset : Recorder := ⟨[], [], none, 0, none, [], none, none, [], []⟩

/-- A saddlebag never stored. -/
def sbgReset : Saddlebag := ⟨[], [], [], [], [], [], [], [], [], [], false, 0, [], []⟩

/-- The ring before its first frame. -/
def pelReset : Peloton := ⟨[], [], 0, false, true, false, 0, 0, 0, 0, 0⟩

/-- No tandem. -/
def tndReset : Tandem :=
  { serial := 0, peerBase := 0, peerRegions := [], own := [], configSent := false, configGood := false
    waiting := [], divergent := [], divergeAll := false, toSend := [], sending := [], resync := [], mwrSince := []
    lastQuiesce := false, idle := false, idleAt := 0, reserved := 0, lastMsg := 0, peerPromoted := false
    promoted := false, roleSent := false, quiesceDue := false }

/-- No commands. -/
def mbxReset : Mailbox := ⟨[], [], [], none, none, 0, 0, 0, false, []⟩

/-- The machine right after AON power-up (R57, R11): STANDBY, the GTC at 0, recall not yet done, every register field
at its Reset value, the saddlebag and the media never written. -/
def State.reset : State :=
  { config := .s416, serial := 0, stepping := 1, gtc := 0, stamp := 0, mode := .standby, regs := [], setAt := []
    pins := ⟨true, true, 0, false, false, false, false, false, false⟩
    host := hostReset, cache := cacheReset, sched := schedReset, led := ledgerReset, fw := fwReset
    med := mediaReset, life := lifeReset, seq := seqReset, mcv := mcvReset, rcd := rcdReset
    sbg := sbgReset, pel := pelReset, tnd := tndReset, mbx := mbxReset
    outbox := [], freeIx := 0, pending := [] }

end Sys2Proof.Machine
end

