-- ==== Sys2Proof/Machine/Ops.lean ====
section
/-! DEFINITION. The operations every family shares: time, register fields, what the block sends, events for the
recorder, CXL event records, poison, and the check of a wheel operand. Operations take the state last, so that they
chain. -/
namespace Sys2Proof.Machine

/-! ### Time (R7, R17) -/

/-- The cadence tick the GTC lies in (R7). -/
def tickOf (s : State) : Nat := s.gtc / 250

/-- An event stamped `t` lands: the GTC reaches its stamp and never goes back (R17, R19; log 9); in OFF it stands still. What
the command records carries the event's own stamp, also where the GTC has passed it (log 74). -/
def advanceTo (t : Nat) (s : State) : State :=
  { s with gtc := if s.mode = .off then s.gtc else max s.gtc (t % 2 ^ 64), stamp := t % 2 ^ 64 }

/-- What the command does next happens now: its stamp is the present GTC. -/
def stampNow (s : State) : State := { s with stamp := s.gtc }

/-- The next tick boundary (R7, R17); the counter wraps at 64 bits. -/
def toNextTick (s : State) : State := stampNow { s with gtc := ((tickOf s + 1) * 250) % 2 ^ 64 }

/-- The first tick boundary that is after the tick of `t` and not past (R184; log 9). -/
def nextTickAfter (t : Nat) (s : State) : State :=
  stampNow { s with gtc := max ((t / 250 + 1) * 250) ((s.gtc + 249) / 250 * 250) % 2 ^ 64 }

/-! ### Register fields -/

/-- The value of instance `i` of a field. -/
def fget (s : State) (f : Fld) (i : Nat) : Nat := tabGet f.dflt s.regs (f.key i)

/-- A one-bit field as a Bool. -/
def fon (s : State) (f : Fld) (i : Nat) : Bool := fget s f i != 0

/-- Write a field, cut to its width; an RW1C bit that is set remembers its tick (R12). -/
def fput (f : Fld) (i v : Nat) (s : State) : State :=
  { s with regs := tabSet f.dflt (f.key i) (v % 2 ^ f.width) s.regs
           setAt := if f.acc = .rw1c && v % 2 ^ f.width != 0 then tabPut (f.key i) (tickOf s) s.setAt else s.setAt }

/-- Set a one-bit field. -/
def fset (f : Fld) (i : Nat) (s : State) : State := fput f i 1 s

/-- Clear a field. -/
def fclr (f : Fld) (i : Nat) (s : State) : State := fput f i 0 s

/-- Write a one-bit field from a Bool. -/
def fbit (f : Fld) (i : Nat) (b : Bool) (s : State) : State := fput f i b.toNat s

/-- The largest value of a field. -/
def fmax (f : Fld) : Nat := 2 ^ f.width - 1

/-- Add to a counter; counters saturate (R59, R86, R114, …). -/
def fadd (f : Fld) (i n : Nat) (s : State) : State := fput f i (min (fget s f i + n) (fmax f)) s

/-- Count one. -/
def finc (f : Fld) (i : Nat) (s : State) : State := fadd f i 1 s

/-- Raise a high-water mark. -/
def fhigh (f : Fld) (i v : Nat) (s : State) : State := fput f i (max (fget s f i) (min v (fmax f))) s

/-- Is a pass-through byte address in the AON domain (R143, R208, R360)? -/
def aonAddr (a : Nat) : Bool :=
  decide (0xC0000 ≤ a) || decide (a < 0xC) || (decide (0xA0018 ≤ a) && decide (a < 0xA0040))
    || (decide (0xA0050 ≤ a) && decide (a < 0xA0060)) || (decide (0xA0064 ≤ a) && decide (a < 0xA0068))

/-- The core domain comes up: its fields take their Reset values (R11). -/
def resetCoreRegs (s : State) : State := { s with regs := tabFilter (fun k => aonAddr (k / 8)) s.regs }

/-! ### What is powered (R183) -/

/-- The AON domain is powered. -/
def aonOn (s : State) : Bool := s.mode != .off

/-- The core domain is powered: from the core rail until the rails are lowered. -/
def coreOn (s : State) : Bool := aonOn s && s.mode != .standby && s.pins.coreDet

/-- The mode's register encoding (R208); OFF, which is not encoded, reads 0. -/
def modeCode : Mode → Nat
  | .off => 0
  | .standby => 1
  | .ramp => 2
  | .recover => 3
  | .service => 4
  | .maintenance => 5
  | .freewheel => 6
  | .brake => 7

/-- The mode that an encoding stands for. -/
def modeOf : Nat → Mode
  | 1 => .standby
  | 2 => .ramp
  | 3 => .recover
  | 4 => .service
  | 5 => .maintenance
  | 6 => .freewheel
  | 7 => .brake
  | _ => .off

/-- The mode that a host request stamped `t` meets: the mode before the last change where the request ends before the trip
(R30), or before the tick of any other change (R49, R60). -/
def modeAt (t : Nat) (s : State) : Mode :=
  let since := s.life.modeSince
  let before := if s.mode = .freewheel then decide (t % 2 ^ 64 < since) else decide (t % 2 ^ 64 / 250 < since / 250)
  if before then modeOf (fget s F.HUB_MODE_PREV 0) else s.mode

/-- The modes in which the media work of SERVICE runs (R184). -/
def inService (s : State) : Bool := s.mode = .service || s.mode = .maintenance

/-! ### What the block sends -/

/-- Send something. -/
def emit (e : Emission) (s : State) : State := { s with outbox := s.outbox ++ [e] }

/-- A fresh free value: the opaque function at the counter, which then advances (log 6). -/
def freeValue (s : State) : Nat := Config.freeNat s.freeIx

/-- Advance the free-value counter. -/
def useFree (s : State) : State := { s with freeIx := s.freeIx + 1 }

/-- Bytes 1 to 13 of a frame (R310). -/
def frameBytes (type : Nat) (f : RingFrame) : List Byte :=
  leBytes 1 type ++ leBytes 1 (f.origin.val + f.hops.val * 16) ++ leBytes 1 f.epoch.toNat ++ leBytes 8 f.payload.toNat
    ++ leBytes 2 f.delay.toNat

/-- A frame's CRC-16 (R310, R384), and the frame with it. -/
def frameCrc (type : Nat) (f : RingFrame) : BitVec 16 := BitVec.ofNat 16 (crc16 (frameBytes type f))
def withCrc (type : Nat) (f : RingFrame) : RingFrame := { f with crc := frameCrc type f }

/-- Send a sync-ring frame of the device's own (R310, R311). -/
def ringOut (type : Nat) (payload : Nat) (s : State) : State :=
  if fon s F.PEL_CFG_EN 0 then
    emit (.ring type (withCrc type
      { origin := Fin.ofNat 16 (fget s F.PEL_STATUS_DEVID 0), hops := 0, epoch := BitVec.ofNat 8 (fget s F.PEL_STATUS_EPOCH 0)
        payload := BitVec.ofNat 64 payload, delay := 0, crc := 0 })) s
  else s

/-- A word from the fields of instance `i` that it holds. -/
def packFlds (s : State) (fs : List Fld) (i : Nat) : Nat := fs.foldl (fun w f => w + fget s f i * 2 ^ f.lo) 0

/-! ### Updates of the state's groups -/

def onHost (f : HostPort → HostPort) (s : State) : State := { s with host := f s.host }
def onCache (f : Cache → Cache) (s : State) : State := { s with cache := f s.cache }
def onSched (f : Sched → Sched) (s : State) : State := { s with sched := f s.sched }
def onLed (f : Ledger → Ledger) (s : State) : State := { s with led := f s.led }
def onFw (f : Freewheel → Freewheel) (s : State) : State := { s with fw := f s.fw }
def onMed (f : Media → Media) (s : State) : State := { s with med := f s.med }
def onLife (f : Life → Life) (s : State) : State := { s with life := f s.life }
def onSeq (f : Sequencer → Sequencer) (s : State) : State := { s with seq := f s.seq }
def onMcv (f : Converters → Converters) (s : State) : State := { s with mcv := f s.mcv }
def onRcd (f : Recorder → Recorder) (s : State) : State := { s with rcd := f s.rcd }
def onSbg (f : Saddlebag → Saddlebag) (s : State) : State := { s with sbg := f s.sbg }
def onPel (f : Peloton → Peloton) (s : State) : State := { s with pel := f s.pel }
def onTnd (f : Tandem → Tandem) (s : State) : State := { s with tnd := f s.tnd }
def onMbx (f : Mailbox → Mailbox) (s : State) : State := { s with mbx := f s.mbx }
def onPins (f : Pins → Pins) (s : State) : State := { s with pins := f s.pins }

/-- Do `f` when `b`. -/
def when (b : Bool) (f : State → State) (s : State) : State := if b then f s else s

/-- Do `f` for each element in order. -/
def forEach {α : Type} (xs : List α) (f : α → State → State) (s : State) : State :=
  xs.foldl (fun acc x => f x acc) s

/-! ### Source numbers (R21) -/

def srcRail (n : Nat) : Nat := n
def srcAin (k : Nat) : Nat := 0x100 + k
def srcConv (n : Nat) : Nat := 0x180 + n
def srcLedger : Nat := 0x200
def srcFreewheel : Nat := 0x210
def srcWheel (w : Nat) : Nat := 0x300 + w
def srcSpoke (w sp : Nat) : Nat := 0x400 + 16 * w + sp
/-- A die is named by the first of the spokes that home it (R14, R21, R179; DEDUCED, log 93). -/
def srcDie (w d : Nat) : Nat := srcSpoke w (2 * d)
def srcHost : Nat := 0x500
def srcTandem : Nat := 0x510
def srcRing : Nat := 0x520
def srcHub : Nat := 0x600
def srcRecorder : Nat := 0x700
def srcSaddlebag : Nat := 0x710

/-! ### Banks and spokes (R14, R28) -/

/-- The number of a bank: (w × 8 + d) × 16 + b. -/
def bankNo (b : BankId) : Nat := (b.w.val * 8 + b.d.val) * 16 + b.b.val

def bankWheel (n : Nat) : Nat := n / 128
def bankDie (n : Nat) : Nat := n / 16 % 8
def bankInDie (n : Nat) : Nat := n % 16

/-- The home spoke of a bank within its wheel (R14): 2 × die + bank div 8. -/
def homeSpoke (n : Nat) : Nat := 2 * bankDie n + bankInDie n / 8

/-- The home spoke's device-wide number g = 16 × w + s (R115). -/
def homeG (n : Nat) : Nat := 16 * bankWheel n + homeSpoke n

/-- A packed media address (R28). -/
def packMa (w d b row line : Nat) : Nat := (((w * 8 + d) * 16 + b) * 524288 + row) * 16 + line

/-- The bank a packed media address lies in. -/
def maBank (ma : Nat) : Nat := ma / 8388608

/-- Its row and line. -/
def maRow (ma : Nat) : Nat := ma / 16 % 524288
def maLine (ma : Nat) : Nat := ma % 16

/-- What no command changes: the queue of waiting commands, and what manufacture fixed (R3); the GTC is 64 bits wide
(R17). -/
def settle (s t : State) : State :=
  { t with config := s.config, serial := s.serial, stepping := s.stepping, gtc := t.gtc % 2 ^ 64, stamp := s.stamp, pending := s.pending }

/-- A command's effect `k` on the state (R18); until it says otherwise, its event is stamped with the present GTC. -/
def run (k : State → State) (s : State) : Host.Outcome State Fault Refusal := .next (settle s (k (stampNow s)))

/-- A command with a wheel operand acts only on a wheel the configuration has (R22). -/
def onWheel (w : Wheel) (k : State → State) (s : State) : Host.Outcome State Fault Refusal :=
  if w.val < Config.wheels s.config then run k s else .fault .fusedOffWheel

/-! ### Recorder events (R269, R270) -/

/-- An event that calls for a record lands with its stamp (R19); it is captured by a later command (R270). -/
def land (type cls source flags : Nat) (fixed : Option (List Nat)) (s : State) : State :=
  onRcd (fun r => { r with landed := r.landed ++ [⟨s.stamp, source, type, cls, flags, fixed, none⟩] }) s

/-! ### CXL event records (R53) -/

/-- Sizes of the logs (R42): Informational, Warning, Failure, Fatal. -/
def logSize (log : Nat) : Nat := if log = 3 then 16 else 64

/-- The log's interrupt is enabled as MSI-X: the policy byte's low two bits are 01b (R338; the encoding is CXL's,
PRESUMED, log 10). -/
def logIrq (s : State) (log : Nat) : Bool := (s.host.intPolicy.getD log 0).toNat % 4 = 1

/-- A transport's number: its commands' order at equal stamps (R31, R332), and the key of its nonce and its registers. -/
def viaNo : Transport → Nat
  | .primary => 0
  | .secondary => 1
  | .mctp => 2

/-- Raise an MSI-X vector (R41), which the link carries. -/
def msix (v : Nat) (s : State) : State :=
  if s.host.linkUp then emit (.msix v) s else s

/-- The 26 words of a CXL_EVENT record (R269): the event record's identifier and body, its log and its handle. -/
def eventSnap (log : Nat) (e : CxlEvent) : List Nat :=
  (List.range 24).map (fun i => (Config.eventWord e.kind e.sub e.dpa e.handle e.stamp i).val) ++ [log, e.handle]

/-- Post a CXL event record: kind 0 General Media, 1 Memory Module; a full log sets its overflow flag and counts
what it loses; the event recorder loses nothing (R53). `cls` and `source` are those of the cause (R269). -/
def postEvent (log kind sub dpa cls source : Nat) (s : State) : State :=
  let l := tabGet logReset s.host.logs log
  let e : CxlEvent := ⟨kind, sub, dpa, l.nextHandle, s.stamp⟩
  let l' : EventLog :=
    if l.recs.length < logSize log then { l with recs := l.recs ++ [e], nextHandle := l.nextHandle + 1 }
    else { l with overflow := true, lost := l.lost + 1, firstLost := if l.lost = 0 then s.stamp else l.firstLost, lastLost := s.stamp }
  s |> onHost (fun h => { h with logs := tabSet logReset log l' h.logs })
    |> land 0x0C cls source 0 (some (eventSnap log e))
    |> when (logIrq s log) (msix (2 + log))

/-- A Memory Module Event (R53). -/
def postModule (log sub cls source : Nat) (s : State) : State := postEvent log 1 sub 0 cls source s

/-- A condition that RECOVER finds is posted when SERVICE is entered (R53), and so is one that comes while the hub's memory,
which holds the logs, is unpowered (log 49); every other condition is posted at once. -/
def postOrQueue (log kind sub dpa cls source : Nat) (s : State) : State :=
  if coreOn s && s.mode != .recover then postEvent log kind sub dpa cls source s
  else onHost (fun h => { h with queued := h.queued ++ [(log, kind, sub, dpa, cls, source)] }) s

/-- The poison list takes each poisoned line once, as one record of length four (R51); a full list overflows. -/
def addPoison (dpa len source : Nat) (s : State) : State :=
  onHost (fun h =>
    if h.poisonList.any (fun r => decide (r.dpa = dpa)) then h
    else if h.poisonList.length < 1024 then { h with poisonList := h.poisonList ++ [⟨dpa, len, source⟩] }
    else { h with poisonOverflow := some (h.poisonOverflow.getD s.stamp) }) s

/-- A line takes its place in the poison list (R51). -/
def addPoisonLine (line source : Nat) (s : State) : State := addPoison (line * 256) 4 source s

/-! ### Sectors of a line -/

/-- Sector `i` of a line. -/
def lineGet (l : Line) : Nat → Sector
  | 0 => l.s0
  | 1 => l.s1
  | 2 => l.s2
  | _ => l.s3

/-- A line with sector `i` replaced. -/
def lineSet (l : Line) (i : Nat) (v : Sector) : Line :=
  match i with
  | 0 => { l with s0 := v }
  | 1 => { l with s1 := v }
  | 2 => { l with s2 := v }
  | _ => { l with s3 := v }

/-- The merge of a media line into the sectors that are not valid (R64). -/
def lineMerge (sv : BitVec 4) (have_ media : Line) : Line :=
  ⟨if sv.getLsbD 0 then have_.s0 else media.s0, if sv.getLsbD 1 then have_.s1 else media.s1,
   if sv.getLsbD 2 then have_.s2 else media.s2, if sv.getLsbD 3 then have_.s3 else media.s3⟩

/-- A 4-bit mask with bit `i` set. -/
def bit4 (i : Nat) : BitVec 4 := BitVec.ofNat 4 (2 ^ i)

/-- Byte `i` of a byte-enable mask as a 512-bit mask, for bytes 0 to `n` - 1. -/
def expandBe (be : BitVec 64) : Nat → BitVec 512
  | 0 => 0
  | n + 1 => expandBe be n ||| (if be.getLsbD n then BitVec.ofNat 512 (255 * 2 ^ (8 * n)) else 0)

/-- A partial write: enabled bytes from `new`, the others from `old` (R48). -/
def mergeBytes (be : BitVec 64) (old new : Sector) : Sector :=
  (new &&& expandBe be 64) ||| (old &&& ~~~(expandBe be 64))

/-- All-ones data (R43, R49). -/
def allOnes : Sector := BitVec.allOnes 512

end Sys2Proof.Machine
end

