-- ==== Sys2Proof/Machine/Store.lean ====
section
/-! DEFINITION. The saddlebag (chapter 11): reading and writing the working copy, requesting stores, dual-slot
counters, and the register words it holds. -/
namespace Sys2Proof.Machine

/-! ### Bytes and pages (R290, R294) -/

/-- What a cell that was never stored reads (R293). -/
def blankByte : Byte := 0xFF

/-- The canonical form of a memory: addresses strictly rising, no entry equal to what an unlisted address reads as. -/
abbrev Memory.wf (m : List Host.Cell) : Prop := tabWf blankByte m = true

/-- A byte of the working copy. -/
def sbByte (s : State) (a : Nat) : Byte := tabGet blankByte s.sbg.work a

/-- `n` bytes of the working copy from byte address `a` on. -/
def sbBytes (s : State) (a n : Nat) : List Byte := (List.range n).map (fun i => sbByte s (a + i))

/-- A number held little-endian in `n` bytes. -/
def sbNat (s : State) (a n : Nat) : Nat := ofLe (sbBytes s a n)

/-- A number as the shadow holds it. -/
def sbShadowNat (s : State) (a n : Nat) : Nat :=
  ofLe ((List.range n).map (fun i => tabGet blankByte s.sbg.shadow (a + i)))

/-- The bytes of a page. -/
def pageCells (m : List Host.Cell) (p : Nat) : List Host.Cell := tabFilter (fun k => k / 256 == p) m

/-- A memory with page `p` replaced by the cells given, which all lie in the page. -/
def putPage (p : Nat) (cells m : List Host.Cell) : List Host.Cell :=
  tabFilter (fun k => decide (k / 256 < p)) m ++ cells ++ tabFilter (fun k => decide (p < k / 256)) m

/-- Is the page dirty: does its working copy differ from its shadow, or did recall mark it (R293)? -/
def pageDirty (s : State) (p : Nat) : Bool := tabHas s.sbg.since p

/-- The number of dirty pages (R309). -/
def dirtyPages (s : State) : Nat := s.sbg.since.length

/-- After a write to page `p`: it is dirty when it differs from the shadow. -/
def touchPage (p : Nat) (s : State) : State :=
  if pageDirty s p then s
  else if pageCells s.sbg.work p = pageCells s.sbg.shadow p then s
  else onSbg (fun g => { g with since := tabPut p (s.gtc + 1) g.since }) s

/-- Write bytes from byte address `a` on. -/
def putBytes (a : Nat) : List Byte → List Host.Cell → List Host.Cell
  | [], m => m
  | b :: t, m => putBytes (a + 1) t (tabSet blankByte a b m)

/-- The pages that `n` bytes from `a` on lie in. -/
def pagesOf (a n : Nat) : List Nat :=
  if n = 0 then [] else (List.range ((a + n - 1) / 256 - a / 256 + 1)).map (· + a / 256)

/-- A write to the working copy at consecutive addresses, also in a page that is being stored (R295; DEDUCED, logs 19 and 104). -/
def sbPut (a : Nat) (bs : List Byte) (s : State) : State :=
  s |> onSbg (fun g => { g with work := putBytes a bs g.work })
    |> forEach (pagesOf a bs.length) touchPage

/-- A single-page write wraps within its page (R294). -/
def putWrap (p off : Nat) : List Byte → List Host.Cell → List Host.Cell
  | [], m => m
  | b :: t, m => putWrap p (off + 1) t (tabSet blankByte (256 * p + off % 256) b m)

/-- A single-page write of the page-access commands (R294, R351). -/
def sbPutWrap (p off : Nat) (bs : List Byte) (s : State) : State :=
  s |> onSbg (fun g => { g with work := putWrap p off bs g.work }) |> touchPage p

/-- A single-page read wraps within its page (R294). -/
def sbReadWrap (s : State) (p off n : Nat) : List Byte :=
  (List.range n).map (fun i => sbByte s (256 * p + (off + i) % 256))

/-- A store of the page is requested; of a page that is not dirty it completes at once (R296). -/
def sbRequest (p : Nat) (s : State) : State :=
  if pageDirty s p then onSbg (fun g => { g with reqs := nsAdd p g.reqs }) s else s

/-- Write and request the store of every page touched (R296). -/
def sbStore (a : Nat) (bs : List Byte) (s : State) : State :=
  s |> sbPut a bs |> forEach (pagesOf a bs.length) sbRequest

/-- The saddlebag is readable (R292). -/
def sbReady (s : State) : Bool := fon s F.SBG_STATUS_READY 0

/-! ### Protection (R302, R303) -/

/-- The lowest page that the setting protects. -/
def protFrom (bp : Nat) : Nat :=
  match bp with
  | 0 => 1024
  | 1 => 768
  | 2 => 512
  | _ => 0

/-- Is the page protected under the setting in effect? -/
def pageProtected (s : State) (p : Nat) : Bool :=
  decide (protFrom (fget s F.SBG_STATUS_BP 0) ≤ p) && decide (p < 1024)

/-! ### Dual-slot counters (R305, R306) -/

/-- Byte addresses of the counters of R306 and R302. -/
def ctrShutdown : Nat := 960 * 256
def ctrRecorder : Nat := 960 * 256 + 32
def ctrEpoch : Nat := 960 * 256 + 64
def ctrCkpt : Nat := 960 * 256 + 96
def ctrHubCkpt : Nat := 960 * 256 + 128
def ctrProtect : Nat := 4032 * 256
/-- The time-base epoch of R314 (page 848). -/
def ctrTimeBase : Nat := 848 * 256
/-- Life accumulator of wheel `w` (R291: pages 961 and 962). -/
def ctrLife (w : Nat) : Nat := 961 * 256 + 32 * w

/-- Where SEQ lies in a 16-byte slot: R191 for the shutdown record, R266 for the others. -/
def seqBit (addr : Nat) : Nat := if addr = ctrShutdown then 68 else 32

/-- Bits [95:0] of a good slot: its CRC-32 over them holds (R266, R191). -/
def ctrSlot (s : State) (addr k : Nat) : Option Nat :=
  let bs := sbBytes s (addr + 16 * k) 16
  if crc32 (bs.take 12) = leAt 12 4 bs then some (leAt 0 12 bs) else none

/-- SEQ of a slot's bits. -/
def ctrSeq (addr bits : Nat) : Nat := bits / 2 ^ seqBit addr % 4096

/-- The choice of the current slot among two with sequences `a` and `b` (R305): the slot, and whether they were not
adjacent. -/
def pickSlot (a b : Nat) : Nat × Bool :=
  let d := (b + 4096 - a) % 4096
  if d = 1 then (1, false)
  else if d = 4095 then (0, false)
  else if d = 0 then (0, true)
  else if d < 2048 then (1, true)
  else if d = 2048 then ((Config.seqTie a b).toNat, true)
  else (0, true)

/-- A counter's current slot with its bits, and whether the two were not adjacent; none when unset (R305). -/
def ctrRead (s : State) (addr : Nat) : Option (Nat × Nat × Bool) :=
  match ctrSlot s addr 0, ctrSlot s addr 1 with
  | some a, some b =>
    let p := pickSlot (ctrSeq addr a) (ctrSeq addr b)
    some (p.1, if p.1 = 0 then a else b, p.2)
  | some a, none => some (0, a, false)
  | none, some b => some (1, b, false)
  | none, none => none

/-- VALUE of a plain counter (R266). -/
def ctrValue (s : State) (addr : Nat) : Option Nat := (ctrRead s addr).map (fun x => x.2.1 % 2 ^ 32)

/-- A slot's 16 bytes from its bits without SEQ. -/
def ctrBytes (addr body seq : Nat) : List Byte :=
  let b := leBytes 12 (body + seq * 2 ^ seqBit addr)
  b ++ leBytes 4 (crc32 b)

/-- Has the counter's last update not been stored yet (R306)? -/
def ctrUnstored (s : State) (addr : Nat) : Bool :=
  pageDirty s (addr / 256) && decide (sbNat s addr 32 ≠ sbShadowNat s addr 32)

/-- Write the non-current slot with SEQ one ahead and request the store (R306). -/
def ctrWrite (addr body : Nat) (s : State) : State :=
  match ctrRead s addr with
  | some (k, bits, _) => sbStore (addr + 16 * (1 - k)) (ctrBytes addr body ((ctrSeq addr bits + 1) % 4096)) s
  | none => sbStore addr (ctrBytes addr body (Config.firstSeq addr).val) s

/-- A read that finds two good slots not adjacent sets CTR_ODD (R305): `a` and `b` are the slots' sequences. -/
def noteOdd (a b : Option Nat) (s : State) : State :=
  match a, b with
  | some x, some y => when (pickSlot x y).2 (fset F.SBG_ERR_CTR_ODD 0) s
  | _, _ => s

/-- The same for a counter with 16-byte slots. -/
def ctrCheck (addr : Nat) (s : State) : State :=
  noteOdd ((ctrSlot s addr 0).map (ctrSeq addr)) ((ctrSlot s addr 1).map (ctrSeq addr)) s

/-- Update a counter; while its previous update is not stored the new one waits (R306). -/
def ctrUpdate (addr body : Nat) (s : State) : State :=
  if ctrUnstored s addr || s.sbg.ctrWait.any (fun c => c.addr == addr) then
    onSbg (fun g => { g with ctrWait := g.ctrWait ++ [⟨addr, body⟩] }) s
  else ctrWrite addr body s

/-- After the store of a page: the first waiting update of each of its counters is made. -/
def ctrResume (page : Nat) (s : State) : State :=
  let mine := s.sbg.ctrWait.filter (fun c => c.addr / 256 == page)
  s |> onSbg (fun g => { g with ctrWait := g.ctrWait.filter (fun c => c.addr / 256 != page) })
    |> forEach mine (fun c s => ctrUpdate c.addr c.body s)

/-! ### Register words (R11, R386, log 8) -/

/-- Does a configuration page count as not stored (R293)? -/
def pageLost (s : State) (p : Nat) : Bool := nsHas p s.sbg.ue && decide (768 ≤ p) && decide (p < 960)

/-- The stored word at a byte address; none when it is not stored (R11). -/
def storedWord (s : State) (a : Nat) : Option Nat :=
  let w := sbNat s a 4
  if pageLost s (a / 256) || w == 0xFFFFFFFF then none else some w

/-- A field's value in a register word. -/
def fieldOf (f : Fld) (w : Nat) : Nat := w / 2 ^ f.lo % 2 ^ f.width

/-- A register word with a field replaced. -/
def withField (f : Fld) (v w : Nat) : Nat :=
  w - fieldOf f w * 2 ^ f.lo + v % 2 ^ f.width * 2 ^ f.lo

/-- Byte address of the stored word of instance `i` of a register; the slots of a converter lie in its own page (R245). -/
def regHome (r : RegDef) (i : Nat) : Option Nat :=
  if r.base = 0xC4800 then some ((784 + i / 32) * 256 + 8 + 4 * (i % 32))
  else r.home.map (fun h => h.1 + h.2 * i)

/-- What a field takes when its word is not stored: its default, and of the program-current budget 8 units per die (R99). -/
def fldUnset (s : State) (f : Fld) : Nat := if f = F.WHL_PCUR_BUDGET then Config.fullBudget s.config else f.dflt

/-- Load the stored fields of instance `i` of a register (R11). -/
def loadReg (r : RegDef) (i : Nat) (s : State) : State :=
  match regHome r i with
  | none => s
  | some a =>
    let w := storedWord s a
    forEach (r.fields.filter (fun f => f.sbg))
      (fun f s => fput f i (match w with | some x => fieldOf f x | none => fldUnset s f) s) s

/-- Load every instance of a register. -/
def loadRegAll (r : RegDef) (s : State) : State := forEach (List.range r.count) (loadReg r) s

/-- The word a register's stored fields spell, as stored: fields that are not stored are 0. -/
def storedImage (s : State) (r : RegDef) (i : Nat) : Nat :=
  r.fields.foldl (fun w f => if f.sbg then w + fget s f i * 2 ^ f.lo else w) 0

/-! ### Where configuration words lie (log 8) -/

/-- Byte address of channel `c`'s six words (R217, R348). -/
def homeChan (c : Nat) : Nat := 770 * 256 + 64 * c
/-- SEQ_GANG0 to 7, SEQ_IN_CFG, SEQ_INRUSH and SEQ_CFG, in the order of Set Rail Globals (R348). -/
def homeGlobals : Nat := 778 * 256
/-- The two power-up tables (R217): 64 steps of 4 bytes. -/
def homeTable (t : Nat) : Nat := (768 + t) * 256
/-- Converter `n`'s CFG, TRIG and slots (R245). -/
def homeConv (n : Nat) : Nat := (784 + n) * 256
/-- MCV_INk_CFG and LIM (R245). -/
def homeInput (k : Nat) : Nat := 792 * 256 + 8 * k
def homeCal (n : Nat) : Nat := 795 * 256 + 4 * n
def homeTjLim : Nat := 795 * 256 + 32
/-- Snapshot list of class `c` (R273). -/
def homeList (c : Nat) : Nat := (800 + c / 2) * 256 + 128 * (c % 2)
/-- The ledger words (R352). -/
def homeLedger : Nat := 808 * 256
/-- The service configuration words (R346), then HUB_PATROL_CFG. -/
def homeService : Nat := 816 * 256
def homePatrol : Nat := 816 * 256 + 28
def homePel : Nat := 848 * 256 + 32
/-- TND_CFG, the partner serial, the operating state of the tandem, the mirrored-region bitmap, and divergence. -/
def homeTnd : Nat := 849 * 256
def homeJournal : Nat := 3264 * 256
def homeOps : Nat := 3280 * 256
def homeELine : Nat := 4048 * 256

end Sys2Proof.Machine
end

