-- ==== Sys2Proof/Machine/Place.lean ====
section
/-! DEFINITION. Addresses (R23 to R28, R46, R78, R149): HDM decoding, the keyed interleave, rotation, the exception
table, and the places of scratch, drain, checkpoint and spare lines. -/
namespace Sys2Proof.Machine

/-! ### HDM decoders (R45, R46) -/

/-- Decoder `n`. -/
def decoder (s : State) (n : Nat) : Decoder := tabGet decoderReset s.host.decoders n

/-- Ways of an encoding (R45). -/
def ways (d : Decoder) : Nat := 2 ^ d.iw

/-- What the decoders below `n` take of DPA space: each one's DPA Skip and its Size div ways (R46). -/
def dpaBelow (s : State) : Nat → Nat
  | 0 => 0
  | n + 1 => dpaBelow s n + (decoder s n).skip + (decoder s n).size / ways (decoder s n)

/-- Decoder `n`'s DPA base (R46). -/
def dpaBase (s : State) (n : Nat) : Nat := dpaBelow s n + (decoder s n).skip

/-- Does an HPA fall in decoder `n`? -/
def inDecoder (s : State) (h n : Nat) : Bool :=
  let d := decoder s n
  d.committed && decide (d.base ≤ h) && decide (h < d.base + d.size)

/-- The DPA of an HPA in decoder `n` (R46). -/
def decodeIn (s : State) (h n : Nat) : Nat :=
  let d := decoder s n
  let off := h - d.base
  let g := 256 * 2 ^ d.ig
  dpaBase s n + off / (g * ways d) * g + off % g

/-- HPA to DPA; none where no committed decoder holds it (R46, R47). -/
def hdmDecode (s : State) (h : Nat) : Option Nat :=
  ((List.range 8).find? (inDecoder s h)).map (decodeIn s h)

/-! ### Lines -/

/-- The media line number of a DPA, and its sector (R24). -/
def lineOf (dpa : Nat) : Nat := dpa / 256
def sectorOf (dpa : Nat) : Nat := dpa / 64 % 4

/-- Lines of the persistent partition. -/
def persLines (s : State) : Nat := Config.capacity s.config / 256

/-- The first line of the scratch window (R43). -/
def scratchLine0 : Nat := Config.scratchBase / 256

/-- Scratch steps in effect (R86). -/
def scratchSteps (s : State) : Nat := fget s F.CCH_MODE_SCRATCH_STEPS 0

/-- Scratch lines: 16,384 per 4 MiB step (R78, R79). -/
def scratchLines (s : State) : Nat := 16384 * scratchSteps s

/-- Does a DPA lie in the scratch window, and in its backed part (R43)? -/
def inScratch (s : State) (dpa : Nat) : Bool :=
  s.config = .s416 && decide (0 < scratchSteps s) && decide (Config.scratchBase ≤ dpa)
    && decide (dpa < Config.scratchBase + 0x10000000)
def scratchBacked (s : State) (dpa : Nat) : Bool :=
  inScratch s dpa && decide (lineOf dpa - scratchLine0 < scratchLines s)

/-- The scratch line of a DPA line number (R78). -/
def scratchIx (line : Nat) : Nat := line - scratchLine0

/-- Slice, set and way of scratch line `l` (R78). -/
def scratchPlace (l : Nat) : Nat × Nat × Nat :=
  let m := l / 16
  let step := m / 1024
  (l % 16, 1024 * (step % 4) + m % 1024, 15 - step / 4)

/-- Is a way of a set taken by the scratch carve-out in effect (R78)? Step t takes way 15 - t div 4 of the sets of
quarter t mod 4. -/
def scratchWay (s : State) (set way : Nat) : Bool :=
  s.config = .s416 && decide (4 * (15 - way) + set / 1024 < scratchSteps s)

/-! ### The keyed interleave (R25) -/

/-- Where a line is placed: global bank, region, logical block, line in the block. -/
structure Place where
  bank : Nat
  region : Nat
  lblock : Nat
  k : Nat
  deriving DecidableEq, Repr

/-- Apply a permutation of 0 to n - 1. -/
def permute {n : Nat} (p : Equiv.Perm (Fin n)) (i : Nat) : Nat := if h : i < n then (p ⟨i, h⟩).val else i

/-- Its inverse. -/
def unpermute {n : Nat} (p : Equiv.Perm (Fin n)) (i : Nat) : Nat := if h : i < n then (p.symm ⟨i, h⟩).val else i

/-- The banks div 512 (R25). -/
def quot (s : State) : Nat := Config.banks s.config / 512

/-- The placement of a persistent line (R25). -/
def placeOf (s : State) (line : Nat) : Place :=
  let e := line / 8192
  let u2 := permute (Config.lineShuffle s.med.key e) (line % 8192)
  let x := permute (Config.psi s.med.key (Config.extents s.config)) e
  let j := x / quot s
  let b := 512 * (x % quot s) + u2 % 512
  ⟨b, 2 * b + j / 229376, j % 229376, u2 / 512⟩

/-- Wheel, die and bank in the die of a global bank (R25). -/
def wheelOfBank (s : State) (b : Nat) : Nat := b % Config.wheels s.config
def dieOfBank (s : State) (b : Nat) : Nat := b / Config.wheels s.config % 8
def bankOfBank (s : State) (b : Nat) : Nat := b / (8 * Config.wheels s.config)

/-- The bank number (w × 8 + d) × 16 + b of a global bank, and back. -/
def localBank (s : State) (b : Nat) : Nat := (wheelOfBank s b * 8 + dieOfBank s b) * 16 + bankOfBank s b
def globalBank (s : State) (n : Nat) : Nat :=
  bankInDie n * (8 * Config.wheels s.config) + bankDie n * Config.wheels s.config + bankWheel n

/-- The release extent of a line (R13, R25). -/
def extentOf (line : Nat) : Nat := line / 8192

/-- The logical block of an extent in a region's bank is the extent's own (R25): the extent whose block is logical
block `l` of region `r`. -/
def extentAt (s : State) (r l : Nat) : Nat :=
  let b := r / 2
  unpermute (Config.psi s.med.key (Config.extents s.config)) ((l + 229376 * (r % 2)) * quot s + b / 512)

/-- The line at place (r, l, k): the inverse of the interleave. -/
def lineAt (s : State) (r l k : Nat) : Nat :=
  let e := extentAt s r l
  e * 8192 + unpermute (Config.lineShuffle s.med.key e) (k * 512 + r / 2 % 512)

/-! ### Rotation and the exception table (R149, R154) -/

/-- Pointers of a region. -/
def ptrOf (s : State) (r : Nat) : RotPtr := tabGet ptrReset s.med.ptrs r

/-- The rotation slot of a logical block (R149). -/
def slotOfBlock (s : State) (r l : Nat) : Nat :=
  let p := ptrOf s r
  let x := (permute (Config.blockShuffle s.med.key r) l + p.start) % Config.rotN
  if p.gap ≤ x then x + 1 else x

/-- The logical block in a rotation slot that is not the gap (inverse of R149). -/
def blockOfSlot (s : State) (r slot : Nat) : Nat :=
  let p := ptrOf s r
  let x := if p.gap < slot then slot - 1 else slot
  unpermute (Config.blockShuffle s.med.key r) ((x + Config.rotN - p.start % Config.rotN) % Config.rotN)

/-- The exception entry of a slot. -/
def xentry (s : State) (r slot : Nat) : Option XEntry :=
  s.med.xtab.find? (fun e => e.region == r && e.slot == slot)

/-- Packed MA with LINE = 0 of a row of region `r`. -/
def rowMa (s : State) (r off : Nat) : Nat :=
  let n := localBank s (r / 2)
  packMa (bankWheel n) (bankDie n) (bankInDie n) (r % 2 * 262144 + off) 0

/-- MA with LINE = 0 of a slot: its spare when it is remapped (R149). -/
def slotMa (s : State) (r slot : Nat) : Nat :=
  match xentry s r slot with
  | some e => if e.dead then rowMa s r slot else e.spare
  | none => rowMa s r slot

/-- The media address of a persistent line (R25, R149). -/
def maOf (s : State) (line : Nat) : Nat :=
  let p := placeOf s line
  slotMa s p.region (slotOfBlock s p.region p.lblock) + p.k

/-- The wheel whose slice serves a persistent line (R62). -/
def wheelOf (s : State) (line : Nat) : Nat := wheelOfBank s (placeOf s line).bank

/-- The set of a persistent line (R62). -/
def setOf (s : State) (line : Nat) : Nat := (Config.setHash s.med.key line).val

/-- The exception entry of the slot a line lies in. -/
def lineEntry (s : State) (line : Nat) : Option XEntry :=
  let p := placeOf s line
  xentry s p.region (slotOfBlock s p.region p.lblock)

/-- Does the line lie in a dead slot, or in a lost region (R152, R171)? -/
def lineLost (s : State) (line : Nat) : Bool := nsHas (placeOf s line).region s.med.lost
def lineDead (s : State) (line : Nat) : Bool :=
  lineLost s line || (match lineEntry s line with | some e => e.dead | none => false)

/-- Is a line of a dead slot stored as poison (R171)? Every line of a lost region is handled so (R152). -/
def lineMasked (s : State) (line : Nat) : Bool :=
  lineLost s line
    || (match lineEntry s line with | some e => e.dead && e.pmask.getLsbD (placeOf s line).k | none => false)

/-- Is the line's extent released (R158)? -/
def lineReleased (s : State) (line : Nat) : Bool := bmGet s.med.released (extentOf line)

/-- The 512 blocks of an extent, as MAs with LINE = 0 (R25, R158). -/
def extentBlocks (s : State) (e : Nat) : List Nat :=
  let x := permute (Config.psi s.med.key (Config.extents s.config)) e
  let j := x / quot s
  (List.range 512).map (fun i =>
    let b := 512 * (x % quot s) + i
    let r := 2 * b + j / 229376
    slotMa s r (slotOfBlock s r (j % 229376)))

/-! ### Fixed areas (R137, R144 to R147) -/

/-- MA of drain slot `n` of wheel `w` in an area (R137, R144 to R146). -/
def drainMa (w area n : Nat) : Nat :=
  let p := n / 128
  packMa w (n % 8) (n / 8 % 16) (area * 262144 + 229377 + 2 * (p / 16)) (p % 16)

/-- MA of index line `k` of wheel `w`'s drain index (R146). -/
def indexMa (w area k : Nat) : Nat :=
  let p := 528 + k / 128
  packMa w (k % 8) (k / 8 % 16) (area * 262144 + 229377 + 2 * (p / 16)) (p % 16)

/-- MA of index 63 × B of checkpoint slot `c`: its seal block (R147). -/
def sealMa (s : State) (c : Nat) : Nat :=
  let n := localBank s 0
  packMa (bankWheel n) (bankDie n) (bankInDie n)
    (c % 2 * 262144 + (if c < 2 then 229447 else 229455) + 2 * 3) 15

/-- MA of body line `n` of checkpoint slot `c` (R147). -/
def bodyMa (s : State) (c n : Nat) : Nat :=
  let banks := Config.banks s.config
  let i := if n < 63 * banks then n else n + 1
  let m := localBank s (i % banks)
  let p := i / banks
  packMa (bankWheel m) (bankDie m) (bankInDie m) (c % 2 * 262144 + (if c < 2 then 229447 else 229455) + 2 * (p / 16)) (p % 16)

/-- The regions of a wheel, ascending. -/
def wheelRegions (s : State) (w : Nat) : List Nat :=
  (List.range (Config.regions s.config)).filter (fun r => wheelOfBank s (r / 2) == w)

end Sys2Proof.Machine
end

