-- ==== Sys2Proof/Machine/Cache.lean ====
section
/-! DEFINITION. The cache slices' shared operations (chapter 03): lookup, replacement, the overflow buffer, the dirty
directory, and making lines dirty and clean. -/
namespace Sys2Proof.Machine

/-! ### Locations -/

/-- A location of a slice: entry number of R68 with its slice, slice × 66,048 + x. -/
def locSlice (loc : Nat) : Nat := loc / 66048
def locIx (loc : Nat) : Nat := loc % 66048

/-- Does the location name an overflow slot? -/
def locOvf (loc : Nat) : Bool := decide (65536 ≤ locIx loc)

/-- Location of a way, and of an overflow slot (R68). -/
def wayLoc (sl set w : Nat) : Nat := sl * 66048 + set * 16 + w
def ovfLoc (sl slot : Nat) : Nat := sl * 66048 + 65536 + slot

/-- The key of a way location in the way table, of an overflow location in the overflow table. -/
def wayKey (loc : Nat) : Nat := locSlice loc * 65536 + locIx loc
def ovfKey (loc : Nat) : Nat := locSlice loc * 512 + (locIx loc - 65536)

/-- A way, an overflow slot, a directory entry at a location. -/
def wayAt (s : State) (loc : Nat) : Way := tabGet wayReset s.cache.ways (wayKey loc)
def ovfAt (s : State) (loc : Nat) : OvfSlot := tabGet ovfReset s.cache.ovf (ovfKey loc)
def dirAt (s : State) (loc : Nat) : DirEntry := tabGet dirReset s.cache.dir loc

def setWay (loc : Nat) (w : Way) (s : State) : State :=
  onCache (fun c => { c with ways := tabSet wayReset (wayKey loc) w c.ways }) s
def setOvf (loc : Nat) (o : OvfSlot) (s : State) : State :=
  onCache (fun c => { c with ovf := tabSet ovfReset (ovfKey loc) o c.ovf }) s
def setDir (loc : Nat) (d : DirEntry) (s : State) : State :=
  onCache (fun c => { c with dir := tabSet dirReset loc d c.dir }) s

/-! ### Tag and directory words (R63, R68) -/

/-- Parity of the low `n` bits of a word. -/
def parity (n x : Nat) : Nat := ((List.range n).map (fun i => x / 2 ^ i % 2)).sum % 2

/-- Bits [46:0] of a way's tag. -/
def tagBits (w : Way) : Nat :=
  w.line % 2 ^ 34 + w.sv.toNat * 2 ^ 34 + w.sp.toNat * 2 ^ 38 + w.v.toNat * 2 ^ 42 + w.d.toNat * 2 ^ 43 + w.l.toNat * 2 ^ 44
    + w.p.toNat * 2 ^ 45

/-- A way's tag as the array holds it: PAR makes the parity of the 48 bits even (R63). -/
def tagWord (w : Way) : Nat := tagBits w + parity 47 (tagBits w) * 2 ^ 47

/-- A directory entry as its 128 bits (R68). -/
def dirWords (d : DirEntry) : Nat :=
  d.line % 2 ^ 34 + d.sv.toNat * 2 ^ 34 + d.sp.toNat * 2 ^ 38 + d.p.toNat * 2 ^ 42 + d.scr.toNat * 2 ^ 43 + d.dv.toNat * 2 ^ 44
    + d.ma % 2 ^ 34 * 2 ^ 64

/-- The 16 way locations of a set. -/
def setLocs (sl set : Nat) : List Nat := (List.range 16).map (wayLoc sl set)

/-- Set and way number of a way location. -/
def locSet (loc : Nat) : Nat := locIx loc / 16
def locWay (loc : Nat) : Nat := locIx loc % 16

/-- Is the location one of the scratch carve-out's ways? -/
def locScratch (s : State) (loc : Nat) : Bool := !locOvf loc && scratchWay s (locSet loc) (locWay loc)

/-! ### Lookup (R64, R66) -/

/-- Is the way looked up: it holds a line, is no scratch way, and is in use? A dirty line stays in use until it is clean. -/
def wayLive (s : State) (loc : Nat) : Bool :=
  let w := wayAt s loc
  w.v && !locScratch s loc && (w.d || (!w.off && !w.perm))

/-- The occupied overflow slots of a slice, as locations. -/
def ovfUsed (s : State) (sl : Nat) : List Nat :=
  s.cache.ovf.filterMap (fun x => if x.1 / 512 = sl && x.2.used then some (ovfLoc sl (x.1 % 512)) else none)

/-- The location that holds a line: tags and overflow buffer are searched in parallel (R66). -/
def findLine (s : State) (sl set line : Nat) : Option Nat :=
  match (setLocs sl set).find? (fun loc => wayLive s loc && (wayAt s loc).line == line) with
  | some loc => some loc
  | none => (ovfUsed s sl).find? (fun loc => (ovfAt s loc).line == line)

/-- The location of a persistent line. -/
def locate (s : State) (line : Nat) : Option Nat := findLine s (wheelOf s line) (setOf s line) line

/-- The location of scratch line `l`. -/
def scratchLoc (l : Nat) : Nat :=
  let p := scratchPlace l
  wayLoc p.1 p.2.1 p.2.2

/-- Sector-valid bits, poison bits and data of the line at a location. -/
def locSv (s : State) (loc : Nat) : BitVec 4 := if locOvf loc then (ovfAt s loc).sv else (wayAt s loc).sv
def locSp (s : State) (loc : Nat) : BitVec 4 := if locOvf loc then (ovfAt s loc).sp else (wayAt s loc).sp
def locData (s : State) (loc : Nat) : Line := if locOvf loc then (ovfAt s loc).data else (wayAt s loc).data
def locLine (s : State) (loc : Nat) : Nat := if locOvf loc then (ovfAt s loc).line else (wayAt s loc).line
def locPinned (s : State) (loc : Nat) : Bool := if locOvf loc then (ovfAt s loc).p else (wayAt s loc).p

/-- Is the location's line dirty (R68: the directory's DV bit)? -/
def locDirty (s : State) (loc : Nat) : Bool := (dirAt s loc).dv

/-- Replace the valid bits, poison bits and data of the line at a location; a directory entry follows (R69, R70). -/
def setLoc (loc : Nat) (sv sp : BitVec 4) (data : Line) (s : State) : State :=
  let s1 :=
    if locOvf loc then setOvf loc { ovfAt s loc with sv := sv, sp := sp, data := data } s
    else setWay loc { wayAt s loc with sv := sv, sp := sp, data := data } s
  if locDirty s loc then setDir loc { dirAt s loc with sv := sv, sp := sp } s1 else s1

/-! ### Replacement (R65; the tree's conventions are the model's, log 3) -/

/-- Set or clear bit `n` of a set's tree. -/
def plruBit (n : Nat) (v : Bool) (b : BitVec 15) : BitVec 15 :=
  if v then b ||| BitVec.ofNat 15 (2 ^ n) else b &&& ~~~(BitVec.ofNat 15 (2 ^ n))

/-- Use of way `w`: each node on its path points to the other side. -/
def plruTouch (w : Nat) : Nat → Nat → BitVec 15 → BitVec 15
  | 0, _, b => b
  | l + 1, node, b =>
    let d := w / 2 ^ l % 2
    plruTouch w l (2 * node + 1 + d) (plruBit node (d == 0) b)

/-- The least recently used way among the eligible ones, following the tree. -/
def plruPick (elig : Nat → Bool) (b : BitVec 15) : Nat → Nat → Nat → Option Nat
  | 0, _, base => if elig base then some base else none
  | l + 1, node, base =>
    let right := b.getLsbD node
    let lo := plruPick elig b l (2 * node + 1) base
    let hi := plruPick elig b l (2 * node + 2) (base + 2 ^ l)
    if right then (match hi with | some x => some x | none => lo)
    else (match lo with | some x => some x | none => hi)

/-- A hit, fill or store uses a way (R65). -/
def useWay (loc : Nat) (s : State) : State :=
  if locOvf loc then s
  else
    let k := locSlice loc * 4096 + locSet loc
    onCache (fun c => { c with plru := tabSet 0 k (plruTouch (locWay loc) 4 0 (tabGet 0 c.plru k)) c.plru }) s

/-- May the way be allocated (R65)? A way returned to use by the scrub is eligible from the next tick (R71). -/
def eligible (s : State) (loc : Nat) : Bool :=
  let w := wayAt s loc
  !locScratch s loc && !w.off && !w.perm && !w.l && !w.p && !w.d && !nsHas loc s.cache.fresh

/-- The way that a set allocates next, if one is eligible (R65). -/
def victim (s : State) (sl set : Nat) : Option Nat :=
  (plruPick (fun w => eligible s (wayLoc sl set w)) (tabGet 0 s.cache.plru (sl * 4096 + set)) 4 0 0).map (wayLoc sl set)

/-- The free overflow slot that a store takes: the lowest (DESIGN CHOICE, log 76). -/
def freeOvf (s : State) (sl : Nat) : Option Nat :=
  ((List.range 512).find? (fun i => !(ovfAt s (ovfLoc sl i)).used)).map (ovfLoc sl)

/-- Is the line on the lock list (R77)? -/
def onLockList (s : State) (line : Nat) : Bool := nsHas line s.cache.lockList

/-- Place a line in a way, clean. -/
def placeWay (loc line : Nat) (sv sp : BitVec 4) (pin : Bool) (data : Line) (s : State) : State :=
  s |> setWay loc { wayAt s loc with line := line, sv := sv, sp := sp, v := true, d := false, l := false, p := pin, data := data }
    |> useWay loc

/-- Place a line in an overflow slot. -/
def placeOvf (loc line : Nat) (sv sp : BitVec 4) (pin : Bool) (data : Line) (s : State) : State :=
  setOvf loc ⟨true, line, sv, sp, pin, data⟩ s

/-! ### Dirty and clean (R68, R69) -/

/-- The line at a location becomes dirty: its directory entry is written (R69). MA is that of the store which made it dirty;
later stores leave it (R68). A scratch line has none. -/
def makeDirty (loc : Nat) (s : State) : State :=
  let line := locLine s loc
  let scr := locScratch s loc
  let ma := if scr then 0 else if locDirty s loc then (dirAt s loc).ma else maOf s line
  s |> (if locOvf loc then id else setWay loc { wayAt s loc with d := true })
    |> setDir loc ⟨line, locSv s loc, locSp s loc, locPinned s loc, scr, true, ma⟩

/-- Mark the line at a location pinned in tag, slot and directory. -/
def pinLoc (loc : Nat) (s : State) : State :=
  let s1 := if locOvf loc then setOvf loc { ovfAt s loc with p := true } s else setWay loc { wayAt s loc with p := true } s
  setDir loc { dirAt s loc with p := true } s1

/-- A way without its line. -/
def emptyWay (w : Way) : Way := { wayReset with off := w.off, perm := w.perm, runs := w.runs }

/-- Drop a line from the cache. -/
def dropLoc (loc : Nat) (s : State) : State :=
  s |> setDir loc dirReset |> (if locOvf loc then setOvf loc ovfReset else setWay loc (emptyWay (wayAt s loc)))

/-- The line at a location becomes clean: its entry is cleared, an overflow slot is freed (R66, R69), and a way that is out of use
until RAMP gives its line up (R72). -/
def makeClean (loc : Nat) (s : State) : State :=
  if locOvf loc || (wayAt s loc).perm then dropLoc loc s
  else s |> setDir loc dirReset |> setWay loc { wayAt s loc with d := false, p := false }

/-! ### Counts (R86, R123 to R125, R130) -/

/-- Dirty lines of the persistent partition, without credits. -/
def dirtyLines (s : State) : Nat := tabCount (fun _ d => d.dv && !d.scr) s.cache.dir

/-- Dirty and scratch lines of a slice. -/
def sliceDirty (s : State) (sl : Nat) : Nat := tabCount (fun k d => k / 66048 == sl && d.dv) s.cache.dir

/-- Pinned lines of a slice, and of the device. -/
def slicePinned (s : State) (sl : Nat) : Nat := tabCount (fun k d => k / 66048 == sl && d.p) s.cache.dir
def pinnedLines (s : State) : Nat := tabCount (fun _ d => d.p) s.cache.dir

/-- Is some wheel's share of the pinned reserve full, so that stores to its dead lines are taken as poison (R54, R130, R171)? -/
def reserveFull (s : State) : Bool :=
  (List.range (Config.wheels s.config)).any (fun w => decide (Config.pinnedPerWheel ≤ slicePinned s w))

/-- Locked lines, wherever they are: in a way, in an overflow slot, or lost and awaiting the scrub (R74, R77). -/
def sliceLocked (s : State) (sl : Nat) : Nat := (s.cache.lockList.filter (fun l => wheelOf s l == sl)).length

/-- Ways out of use until the next scrub, ways out of use until RAMP, and used overflow slots. -/
def sliceOff (s : State) (sl : Nat) : Nat := tabCount (fun k w => k / 65536 == sl && w.off && !w.perm) s.cache.ways
def slicePerm (s : State) (sl : Nat) : Nat := tabCount (fun k w => k / 65536 == sl && w.perm) s.cache.ways
def sliceOvf (s : State) (sl : Nat) : Nat := tabCount (fun k o => k / 512 == sl && o.used) s.cache.ovf

/-- Locked lines of a set. -/
def setLocked (s : State) (sl set : Nat) : Nat :=
  (s.cache.lockList.filter (fun l => wheelOf s l == sl && setOf s l == set)).length

/-- Is any line locked? -/
def anyLocked (s : State) : Bool := !s.cache.lockList.isEmpty

/-- Can no way of a set take a further line before the next RAMP or unlock: each is scratch, out of use, locked or pinned? -/
def setStuck (s : State) (sl set : Nat) : Bool :=
  (setLocs sl set).all (fun loc => let w := wayAt s loc; locScratch s loc || w.perm || w.l || w.p)

/-! ### Overflow moves (R66) -/

/-- Drain programs of a line that moves follow it (R69). -/
def retarget (loc new : Nat) (s : State) : State :=
  let d' (d : Desc) : Desc := match d.kind with
    | .drainLine l area slot => if l = loc then { d with kind := .drainLine new area slot } else d
    | _ => d
  onSched (fun q => { q with
    queue := q.queue.map d'
    banks := tabMap bankReset (fun _ b => { b with prog := b.prog.map (fun p => { p with op := d' p.op }) }) q.banks }) s

/-- An overflow line moves into a way of its set that became eligible. -/
def moveOvf (loc : Nat) (s : State) : State :=
  let o := ovfAt s loc
  match victim s (locSlice loc) (setOf s o.line) with
  | none => s
  | some w =>
    s |> placeWay w o.line o.sv o.sp o.p o.data
      |> setWay w { wayAt s w with line := o.line, sv := o.sv, sp := o.sp, v := true, d := true, l := onLockList s o.line, p := o.p, data := o.data }
      |> setDir w (dirAt s loc) |> setDir loc dirReset |> setOvf loc ovfReset |> retarget loc w

/-- At the end of a tick every overflow line whose set has an eligible way moves (R66). -/
def moveOvfs (s : State) : State :=
  forEach (s.cache.ovf.map (fun x => ovfLoc (x.1 / 512) (x.1 % 512))) moveOvf s

/-! ### Modes of the cache (R81, R82) -/

/-- Does the cache hold stores until their program verifies: while it flushes, and to the end of the tick that calls the flush
off (R81, R83)? -/
def cacheFlushing (s : State) : Bool := fget s F.CCH_MODE_STATE 0 = 1 || decide (tickOf s < s.cache.flushUntil)

/-- Is the cache in bypass, to the end of the tick that ends it (R82)? -/
def cacheBypass (s : State) : Bool := fget s F.CCH_MODE_STATE 0 = 2 || decide (tickOf s < s.cache.bypassUntil)

/-- A flush is called off: STATE is normal in this tick, and the cache serves as before from the next (R83, R84). -/
def stopFlush (s : State) : State :=
  s |> fput F.CCH_MODE_STATE 0 0 |> fset F.CCH_MODE_FLUSH_ABORTED 0 |> fput F.CCH_FLUSH_REMAIN_LINES 0 0
    |> onCache (fun c => { c with flush := [], flushUntil := tickOf s + 1 })

/-- A flush in progress is called off. -/
def endFlush (s : State) : State := when (fget s F.CCH_MODE_STATE 0 == 1) stopFlush s

/-- Condition of SERVICE (R143): 0 full, 1 write-through, 2 write-limited. -/
def condition (s : State) : Nat := fget s F.LDG_STATUS_COND 0

/-- Are stores acknowledged only after their program verifies: write-through or deficit (R127 to R129), or a flush or
bypass (R81, R82)? -/
def programAck (s : State) : Bool := fon s F.LDG_STATUS_DEFICIT 0 || s.led.wt || cacheFlushing s || cacheBypass s

/-! ### Error reports (R70) -/

/-- CCHn_LAST_ERR (R86): where the last error was found, and its kind, the number of its CCHn_ERR bit. -/
def lastErr (loc kind : Nat) (s : State) : State :=
  let n := locSlice loc
  s |> fput F.CCHn_LAST_ERR_SET n (if locOvf loc then 0 else locSet loc)
    |> fput F.CCHn_LAST_ERR_WAY n (if locOvf loc then 0 else locWay loc)
    |> fbit F.CCHn_LAST_ERR_IN_OVF n (locOvf loc)
    |> fput F.CCHn_LAST_ERR_OVF_SLOT n (if locOvf loc then locIx loc - 65536 else 0)
    |> fput F.CCHn_LAST_ERR_KIND n kind

end Sys2Proof.Machine
end

