-- ==== Sys2Proof/Machine/Bus.lean ====
section
/-! DEFINITION. The Maluxen media bus (R148, R166, R167, R172 to R176): command packets and their bursts, event frames, the
line as the media holds it, the reference sets, and the bus windows of a channel. -/
namespace Sys2Proof.Machine

/-! ### Command packets and event frames (R173, R176, R384) -/

/-- Bits [55:0] of a packet (R173). -/
def packetBits (p : MmbPacket) : Nat :=
  p.op + p.bank * 2 ^ 6 + p.row * 2 ^ 10 + p.line * 2 ^ 29 + p.tag * 2 ^ 33 + p.band * 2 ^ 37 + p.sl.toNat * 2 ^ 39
    + p.id * 2 ^ 40 + p.arg * 2 ^ 48

/-- The packet with its CRC-8 over bits [55:0], seven bytes least significant first. -/
def sealPacket (p : MmbPacket) : MmbPacket := { p with crc := crc8 (leBytes 7 (packetBits p)) }

/-- A packet as its 64 bits. -/
def packetWord (p : MmbPacket) : Nat := packetBits p + p.crc * 2 ^ 56

/-- Bits [23:0] of an event frame of a kind (R176). -/
def frameBits (kind : Nat) (f : EventFrame) : Nat := f.bank.val + f.id.toNat * 2 ^ 4 + kind * 2 ^ 12 + f.detail.toNat * 2 ^ 16

/-- An event frame as its 32 bits. -/
def frameWord (kind : Nat) (f : EventFrame) : Nat := frameBits kind f + f.crc.toNat * 2 ^ 24

/-- Is the frame's CRC-8 over bits [23:0] good? -/
def frameGood (kind : Nat) (f : EventFrame) : Bool := crc8 (leBytes 3 (frameBits kind f)) = f.crc.toNat

/-- Command identifiers. The manual says only that event frames return them (R173); the model gives each command that a bank
can have open its own (DESIGN CHOICE, log 82): a demand sense and its transfer by their tag, every other operation of a bank
its opcode, a TAGAGE its value. -/
def cmdId (op : Nat) (k : OpKind) : Nat :=
  match k with
  | .demandRead tag => (if op = 1 then 64 else 160) + tag.toNat % 96
  | _ => op
def dieId (op arg : Nat) : Nat := if op = 8 then 8 + arg % 8 else if op = 7 && arg != 255 then 39 else 16 + op

/-! ### Scrambling (R175) -/

/-- One step of x^23 + x^18 + 1. -/
def lfsrNext (x : Nat) : Nat := x * 2 % 2 ^ 23 + (x / 2 ^ 22 + x / 2 ^ 17) % 2

/-- `n` bits of the sequence from a state on, the first in the lowest place, and the state after them. -/
def lfsrBits : Nat → Nat → Nat × Nat
  | 0, x => (0, x)
  | n + 1, x => let r := lfsrBits n (lfsrNext x); (x / 2 ^ 22 + 2 * r.1, r.2)

/-- A burst under the sequence; undoing it is the same. -/
def scrambleFrom : Nat → List Byte → List Byte
  | _, [] => []
  | x, b :: t => let r := lfsrBits 8 x; (b ^^^ BitVec.ofNat 8 r.1) :: scrambleFrom r.2 t

/-- A burst as it stands on DQ: the sequence is seeded with ROW and LINE of the packet (R175; ROW in the higher bits, DESIGN
CHOICE, log 83). -/
def scramble (p : MmbPacket) (bs : List Byte) : List Byte := scrambleFrom ((p.row * 16 + p.line) % 2 ^ 23) bs

/-! ### The media line (R27, R148) -/

/-- A line as 256 bytes, and back. -/
def lineBytes (l : Line) : List Byte := leBytes 64 l.s0.toNat ++ leBytes 64 l.s1.toNat ++ leBytes 64 l.s2.toNat ++ leBytes 64 l.s3.toNat
def lineOfBytes (bs : List Byte) : Line :=
  ⟨BitVec.ofNat 512 (leAt 0 64 bs), BitVec.ofNat 512 (leAt 64 64 bs), BitVec.ofNat 512 (leAt 128 64 bs), BitVec.ofNat 512 (leAt 192 64 bs)⟩

/-- The 288 bytes of a media line: DATA, PARITY over it and the metadata, SPMETA, LEPOCH. A poison line has DATA zero (R148). -/
def codeword (m : MLine) : List Byte :=
  let data := if m.sp = 15 then List.replicate 256 0 else if m.plain then lineBytes m.data else lineBytes (Config.cipherText m.key m.tweak m.data)
  let tail : List Byte := [BitVec.ofNat 8 m.sp.toNat, m.lepoch, 0, 0]
  data ++ leBytes 28 (Config.parityBits (ofLe (data ++ tail))).val ++ tail

/-- The outcome of the single decode pass (R103, R148): hard decoding corrects up to 16 bit errors, the soft map up to 30 where
it lists every erroneous cell. -/
def decodeOf (e : BitErrors) : DecodeOutcome :=
  if e.bits ≤ 16 then .clean else if e.bits ≤ 30 && e.listed then .softCorrected else .failed

/-! ### References (R165 to R167) -/

/-- The band a wheel believes a die has loaded (R166). -/
def dieBand (s : State) (w d : Nat) : Nat := fget s F.MMBn_STATUS_BANDS w / 4 ^ d % 4

/-- A reference that has never been learned: its factory values are not stored with it. -/
def driftReset : DriftSet := ⟨0, 0, 0, 0, 0, 0⟩

/-- Key of a reference. -/
def driftKey (w d band bucket bd : Nat) : Nat := (((w * 8 + d) * 4 + band) * 5 + bucket) * 3 + bd

/-- Factory REF and DELTA of a die's band and boundary: the saddlebag's factory area holds them per die and band (R167, R291; their
place in it is the model's, log 84); where it has none, or its page cannot be read, the nominal references (R293). -/
def factorySet (s : State) (w d band bucket bd : Nat) : Nat × Nat :=
  let a := 4049 * 256 + 2 * (((w * 8 + d) * 4 + band) * 3 + bd)
  if nsHas (a / 256) s.sbg.ue || sbNat s a 2 = 0xFFFF then
    ((Config.factoryRef w d band bucket bd).val, (Config.factorySpread w d band bucket bd).val + 2)
  else (sbNat s a 1, max 2 (sbNat s (a + 1) 1 % 32))

/-- A reference as learned, from the factory values until then (R167). -/
def driftOf (s : State) (w d band bucket bd : Nat) : DriftSet :=
  let x := tabGet driftReset s.med.drift (driftKey w d band bucket bd)
  if x.delta = 0 then let f := factorySet s w d band bucket bd; { x with ref := f.1, delta := f.2 } else x

/-- The 30 bytes of a REFLOAD: five sets of three boundaries, REF and DELTA (R167, R174). -/
def reloadBytes (s : State) (w d band : Nat) : List Byte :=
  (List.range 5).flatMap (fun bk => (List.range 3).flatMap (fun bd =>
    let x := driftOf s w d band bk bd
    [BitVec.ofNat 8 x.ref, BitVec.ofNat 8 x.delta]))

/-! ### Sending (R172 to R174) -/

/-- Send a packet to a die, with the data that follows it on DQ; what is open is kept, so that it can be sent again (R173). -/
def sendPacket (w d : Nat) (p : MmbPacket) (data : List Byte) (s : State) : State :=
  let q := sealPacket p
  s |> onMed (fun m => { m with sent := tabPut (((w * 8 + d) * 16 + q.bank) * 256 + q.id) (q, data) m.sent })
    |> emit (.packet w d q) |> when (!data.isEmpty) (emit (.burst w d (scramble q data)))

/-- Send the packet of an identifier again. -/
def sendAgain (n id : Nat) (s : State) : State :=
  match tabGet none (s.med.sent.map (fun x => (x.1, some x.2))) (n * 256 + id) with
  | some x => sendPacket (bankWheel n) (bankDie n) x.1 x.2 s
  | none => s

/-- A program's tweak: the DPA line number, of scratch line L 2^34 + L (R27, R138); the controller's own lines have none. -/
def opTweak (d : Desc) : Option Nat :=
  match d.kind with
  | .seal _ => none
  | .indexLine _ _ => none
  | .bodyLine _ _ => none
  | .drainLine _ _ _ => some (if scratchLine0 ≤ d.line then 2 ^ 34 + scratchIx d.line else d.line)
  | _ => some d.line

/-- The line that a program writes. Lines of the controller's own are not encrypted (DESIGN CHOICE, log 85). -/
def mlineFor (d : Desc) : MLine :=
  ⟨if d.sp = 15 then zeroLine else d.data, d.key, (opTweak d).getD 0, d.sp, BitVec.ofNat 8 d.pe, (opTweak d).isNone⟩

/-- Send a packet of opcode `op` for an operation to its bank's die; PROG brings its line with a CRC-16 (R174). -/
def sendOp (op : Nat) (d : Desc) (s : State) : State :=
  let cw := codeword (mlineFor d)
  sendPacket (bankWheel d.bank) (bankDie d.bank)
    { op := op, bank := bankInDie d.bank, row := maRow d.ma, line := maLine d.ma
      tag := if op = 3 then d.pe % 8 else 0
      band := if op = 1 then dieBand s (bankWheel d.bank) (bankDie d.bank) else 0
      sl := d.sl, id := cmdId op d.kind, arg := 0, crc := 0 }
    (if op = 3 then cw ++ leBytes 2 (crc16 cw) else []) s

/-- Send a packet that concerns a die, not an operation. -/
def sendDie (op w d bank row arg : Nat) (s : State) : State :=
  sendPacket w d
    { op := op, bank := bank, row := row, line := 0, tag := 0, band := 0, sl := false, id := dieId op arg, arg := arg, crc := 0 } [] s

/-- REFLOAD: the die takes the five sets of a band, which the wheel believes loaded from then on (R166, R174). -/
def sendReload (w d band : Nat) (s : State) : State :=
  s |> sendPacket w d
        { op := 9, bank := 0, row := 0, line := 0, tag := 0, band := band, sl := false, id := dieId 9 0, arg := 0, crc := 0 }
        (reloadBytes s w d band)
    |> fput F.MMBn_STATUS_BANDS w (fget s F.MMBn_STATUS_BANDS w - dieBand s w d * 4 ^ d + band * 4 ^ d)
    |> onMed (fun m => { m with setsLost := nsDel (w * 8 + d) m.setsLost })

/-! ### Windows of the bus (R108) -/

/-- The windows booked on a wheel that have not ended: start and bank, in order. -/
def windowsOf (s : State) (w : Nat) : List (Nat × Nat) :=
  (tabGet [] s.sched.windows w).filter (fun x => decide (s.gtc < x.1 + 30))

/-- May a non-demand transfer of `len` ns start now: no other transfer runs, and it ends before the next booked window begins? -/
def busFree (s : State) (w len : Nat) : Bool :=
  decide (tabGet 0 s.sched.busUntil w ≤ s.gtc) && (windowsOf s w).all (fun x => decide (s.gtc + len ≤ x.1))

/-- A non-demand transfer takes the bus. -/
def useBus (w len : Nat) (s : State) : State :=
  onSched (fun q => { q with busUntil := tabSet 0 w (s.gtc + len) q.busUntil }) s

/-- What waits for a non-demand window of its channel: a REFLOAD of a band, or the MRR of a die's oscillator count (R166, R167,
R178). -/
def sendWait (x : DieWait) (s : State) : State :=
  if busFree s x.w 6 then
    s |> useBus x.w 6 |> (match x.band with | some b => sendReload x.w x.d b | none => sendDie 11 x.w x.d 0 0 0)
  else onMed (fun m => { m with dieWait := m.dieWait ++ [x] }) s

/-- Everything that waits for a non-demand window is tried, in order. -/
def sendWaits (s : State) : State :=
  s |> onMed (fun m => { m with dieWait := [] }) |> forEach s.med.dieWait sendWait

/-- A REFLOAD of a die's band is due; it replaces one that still waits. -/
def wantReload (w d band : Nat) (s : State) : State :=
  onMed (fun m => { m with
    dieWait := m.dieWait.filter (fun x => !(x.w == w && x.d == d && x.band.isSome)) ++ [⟨w, d, some band⟩] }) s

end Sys2Proof.Machine
end

