-- ==== Sys2Proof/Machine/Sched.lean ====
section
/-! DEFINITION. The bank gates' shared operations (chapter 04): bank queues and descriptors, demand reads, suspension and
cancellation, bus windows, admission, and drafting. -/
namespace Sys2Proof.Machine

/-! ### Banks, queues and descriptors (R92 to R95) -/

/-- Bank `n`'s state at its gate. -/
def bankSt (s : State) (n : Nat) : BankSt := tabGet bankReset s.sched.banks n

/-- Change bank `n`. -/
def onBank (n : Nat) (f : BankSt → BankSt) (s : State) : State :=
  onSched (fun q => { q with banks := tabSet bankReset n (f (bankSt s n)) q.banks }) s

/-- The number of a class in the order of R99's candidates. -/
def clsNo : OpClass → Nat
  | .demand => 0
  | .drain => 1
  | .write => 2
  | .background => 3

/-- Does a bank have a demand read queued or sensing (R95)? -/
def demandPending (s : State) (n : Nat) : Bool := s.sched.queue.any (fun d => d.bank == n && d.cls == .demand)

/-- The demand reads queued or sensing in a bank. -/
def demandAhead (s : State) (n : Nat) : Nat := (s.sched.queue.filter (fun d => d.bank == n && d.cls == .demand)).length

/-- The descriptors that a bank's gate holds: of the sense, the latch, the decode, the program and the tag operation. -/
def bankHeld (b : BankSt) : List Desc :=
  b.sense.toList ++ b.latch.toList ++ b.decoding.toList ++ (b.prog.map (·.op)).toList ++ b.tagop.toList

/-- Every descriptor in use. -/
def heldDescs (s : State) : List Desc := s.sched.queue ++ s.sched.banks.flatMap (fun x => bankHeld x.2)

/-- The operations of a bank that a sense has begun and that go back to its queue: in the sense, the latch or the decode. -/
def bankOut (b : BankSt) : List Desc := b.sense.toList ++ b.latch.toList ++ b.decoding.toList

/-- Free shared descriptors (R92). -/
def poolFree (s : State) : Nat :=
  Config.sharedPool s.config - ((heldDescs s).filter (fun d => d.shared)).length

/-- Entries of a bank's queue of a class, those that will come back to it included. -/
def qCount (s : State) (n : Nat) (c : OpClass) : Nat :=
  ((s.sched.queue ++ bankOut (bankSt s n)).filter (fun d => d.bank == n && d.cls == c)).length

/-- Room for an entry: none when there is none, else whether it draws from the shared pool (R92, R93). -/
def roomFor (s : State) (n : Nat) (c : OpClass) : Option Bool :=
  let own := ((heldDescs s).filter (fun d => d.bank == n && d.cls == c && !d.shared)).length
  if 64 ≤ qCount s n c then none
  else if own < 2 then some false
  else if poolFree s = 0 then none
  else if c != .demand && s.mode = .service && poolFree s ≤ 1536 then none
  else some true

/-- A new descriptor. -/
def mkDesc (kind : OpKind) (cls : OpClass) (bank line ma : Nat) (sl needSense : Bool) : Desc :=
  { id := 0, kind := kind, cls := cls, bank := bank, line := line, ma := ma, enq := 0, sl := sl
    needSense := needSense, ready := false, shared := false, aged := false, data := zeroLine, sp := 0, pe := 0, key := 0 }

/-- Put an entry at the end of its queue. Without room it stays in its source: background work in the hub's job list, the others
in the directory (R93). -/
def enqueue (d : Desc) (s : State) : State :=
  match roomFor s d.bank d.cls with
  | none => when (d.cls == .background) (onSched (fun q => { q with wait := q.wait ++ [d] })) s
  | some sh =>
    let s1 := onSched (fun q => { q with
      queue := q.queue ++ [{ d with id := q.nextId, enq := s.gtc, shared := sh }], nextId := q.nextId + 1 }) s
    fput F.WHL_POOL_MIN_SHARED_FREE 0 (min (fget s1 F.WHL_POOL_MIN_SHARED_FREE 0) (poolFree s1)) s1

/-- The hub's job list goes to the queues as far as there is room, in order. -/
def feedWait (s : State) : State := s |> onSched (fun q => { q with wait := [] }) |> forEach s.sched.wait enqueue

/-- Put an entry back at the head of its queue (R97, R385). -/
def requeue (d : Desc) (s : State) : State := onSched (fun q => { q with queue := d :: q.queue }) s

/-- Take an entry out of its queue. -/
def unqueue (id : Nat) (s : State) : State :=
  onSched (fun q => { q with queue := q.queue.filter (fun d => d.id != id) }) s

/-- Is an operation that satisfies `p` queued, waiting for room, or in a bank? -/
def anyOp (s : State) (p : Desc → Bool) : Bool := (heldDescs s ++ s.sched.wait).any p

/-! ### Suspension and cancellation (R96, R97) -/

/-- Does a program run: its command has left, and it is not suspended? -/
def Prog.runs (p : Prog) : Bool := p.started && !p.suspended

/-- Is there a running program or a non-demand sense to get out of a demand read's way? A program that is only admitted just
waits (R113). -/
def mustFree (s : State) (n : Nat) : Bool :=
  let b := bankSt s n
  b.sense.isSome || (match b.prog with | some p => p.runs | none => false)

/-- Suspend the program and cancel the sense of a bank that a demand read needs. -/
def freeBank (n : Nat) (s : State) : State :=
  let b := bankSt s n
  let s1 : State :=
    match b.prog with
    | some p =>
      if !p.runs then s
      else s |> onBank n (fun b => { b with prog := some { p with suspended := true, suspAt := s.gtc, longCounted := false }, readyAt := s.gtc + 60 })
             |> finc F.SPKg_SUSPEND_COUNT (homeG n) |> sendOp 4 p.op
    | none => s
  match b.sense with
  | some d =>
    s1 |> onBank n (fun b => { b with sense := none, readyAt := s.gtc + 60 })
       |> requeue { d with aged := false } |> finc F.SPKg_CANCEL_COUNT (homeG n) |> sendOp 6 d
  | none => s1

/-! ### Contexts (R89 to R91) -/

/-- The state that R90's table gives a context: a partial store whose sector is read from the media is in MERGE, whatever its sense
has reached. -/
def shownState (c : Ctx) : CtxState :=
  match c.op, c.st with
  | .storePtl, .qwait => .merge
  | .storePtl, .queued => .merge
  | .storePtl, .sense => .merge
  | .storePtl, .window => .merge
  | .storePtl, .decode2 => .merge
  | _, st => st

/-- The context of a tag. -/
def ctxOf (s : State) (tag : BitVec 16) : Option Ctx := s.sched.ctxs.find? (fun c => c.tag == tag)

/-- Change the context of a tag. -/
def onCtx (tag : BitVec 16) (f : Ctx → Ctx) (s : State) : State :=
  onSched (fun q => { q with ctxs := q.ctxs.map (fun c => if c.tag = tag then f c else c) }) s

/-- Free the context of a tag. -/
def freeCtx (tag : BitVec 16) (s : State) : State :=
  onSched (fun q => { q with ctxs := q.ctxs.filter (fun c => c.tag != tag) }) s

/-- Allocate a context (R89). -/
def addCtx (c : Ctx) (s : State) : State :=
  let s1 := onSched (fun q => { q with ctxs := q.ctxs ++ [c] }) s
  fhigh F.WHL_CTX_HWM 0 s1.sched.ctxs.length s1

/-! ### Demand reads (R95, R96, R108) -/

/-- Enqueue the demand read of a context; a full queue leaves it in QWAIT (R90). -/
def enqueueDemand (tag : BitVec 16) (s : State) : State :=
  match ctxOf s tag with
  | none => s
  | some c =>
    let n := maBank c.ma
    match roomFor s n .demand with
    | none =>
      s |> onCtx tag (fun c => { c with st := .qwait, waited := true }) |> fset F.WHLn_ERR_QFULL (bankWheel n)
    | some _ =>
      let busy := mustFree s n
      s |> onCtx tag (fun c => { c with st := .queued, ahead := demandAhead s n })
        |> freeBank n
        |> enqueue { mkDesc (.demandRead tag) .demand n (lineOf c.dpa) c.ma false busy with ready := false }

/-- A slot of a bank's demand queue frees: waiters enter in arrival order (R90). -/
def admitWaiters (n : Nat) (s : State) : State :=
  forEach (s.sched.ctxs.filter (fun c => c.st == .qwait && maBank c.ma == n)) (fun c s => enqueueDemand c.tag s) s

/-- The queued demand read of a context. -/
def demandDesc (s : State) (tag : BitVec 16) : Option Desc :=
  s.sched.queue.find? (fun d => d.kind == .demandRead tag)

/-- The first demand read of a bank not yet dispatched. -/
def nextDemand (s : State) (n : Nat) : Option Desc :=
  s.sched.queue.find? (fun d => d.bank == n && d.cls == .demand && !d.ready)

/-- The end of the sense of the last demand read dispatched in a bank. -/
def lastReady (s : State) (n : Nat) : Nat :=
  (s.sched.ctxs.filter (fun c => c.st == .sense && maBank c.ma == n)).foldl (fun m c => max m c.ready) 0

/-- The earliest 30 ns window from `start` on for a read of bank `n` that overlaps none of the booked ones, which rise, and how
many windows of other banks displaced it (R108, R109). -/
def findWindow (n : Nat) : List (Nat × Nat) → Nat → Nat → Nat × Nat
  | [], start, c => (start, c)
  | w :: ws, start, c =>
    if start < w.1 + 30 && w.1 < start + 30 then findWindow n ws (w.1 + 30) (if w.2 = n then c else c + 1)
    else findWindow n ws start c

/-- Book the window of a context whose data is ready at `ready` (R108, R112). -/
def bookWindow (tag : BitVec 16) (n ready : Nat) (s : State) : State :=
  let w := bankWheel n
  let got := findWindow n (windowsOf s w) ready 0
  s |> onCtx tag (fun c => { c with ready := ready, window := got.1, displaced := c.displaced + got.2 })
    |> onSched (fun q => { q with
        windows := tabSet [] w (insertBy (fun a b => decide (a.1 ≤ b.1)) (got.1, n) (windowsOf s w)) q.windows })
    |> when (got.1 != ready) (finc F.WHLn_DISPLACED_COUNT w)

/-- The ready time of a demand read dispatched now: after the suspension or cancellation, or after the sense ahead of
it (R108). -/
def readyTime (s : State) (n : Nat) (freed : Bool) : Nat :=
  max (if freed then s.gtc + 60 else s.gtc) (lastReady s n) + 150

/-- Dispatch the demand sense of a context and book its window (R108). -/
def dispatchDemand (tag : BitVec 16) (d : Desc) (s : State) : State :=
  s |> bookWindow tag d.bank (readyTime s d.bank d.needSense) |> onCtx tag (fun c => { c with st := .sense })
    |> onSched (fun q => { q with queue := q.queue.map (fun e => if e.id = d.id then { e with ready := true } else e) })
    |> sendOp 1 d

/-- The dispatched demand read of a bank whose sense ends first. -/
def sensing (s : State) (n : Nat) : Option Ctx :=
  (s.sched.ctxs.filter (fun c => c.st == .sense && maBank c.ma == n)).foldl
    (fun m c => match m with | some x => if c.ready < x.ready then some c else m | none => some c) none

/-! ### The background allowance (R100) -/

/-- Background starts a wheel may make in a tick. -/
def bgAllow (s : State) : Nat := max 1 (min 16 (fget s F.WHL_BG_ALLOW_PER_TICK 0))

/-- Has a wheel allowance left in this tick? -/
def bgLeft (s : State) (w : Nat) : Bool := decide (tabGet 0 s.sched.bgUsed w < bgAllow s)

/-- Use one background start of a wheel. -/
def useBg (w : Nat) (s : State) : State :=
  onSched (fun q => { q with bgUsed := tabSet 0 w (tabGet 0 q.bgUsed w + 1) q.bgUsed }) s

/-! ### What a bank starts next (R95) -/

/-- Does the drain class alone start: FREEWHEEL, and BRAKE with drain (R95)? -/
def drainOnly (s : State) : Bool := s.mode = .freewheel || (s.mode = .brake && s.fw.stage != .idle)

/-- Is the bank free for a non-demand operation? -/
def bankIdle (s : State) (n : Nat) : Bool :=
  let b := bankSt s n
  b.sense.isNone && b.latch.isNone && b.prog.isNone && b.tagop.isNone && !demandPending s n
    && decide (b.readyAt ≤ s.gtc)

/-- The entry that the gate starts next: an aged background entry goes ahead of writes while the wheel has allowance. -/
def bankNext (s : State) (n : Nat) : Option Desc :=
  if !bankIdle s n then none
  else
    let mine := s.sched.queue.filter (fun d => d.bank == n)
    match mine.find? (fun d => d.cls == .drain) with
    | some d => some d
    | none =>
      if drainOnly s then none
      else match mine.find? (fun d => d.cls == .background && d.aged && bgLeft s (bankWheel n)) with
        | some d => some d
        | none => match mine.find? (fun d => d.cls == .write) with
          | some d => some d
          | none => mine.find? (fun d => d.cls == .background)

/-! ### Program current (R99) -/

/-- Current units of a program. -/
def progUnits (d : Desc) : Nat := if d.sl then 1 else 2

/-- Units held in the banks that pass `p`: of the programs admitted, and to the end of the tick of its suspension of a suspended
one (R96). -/
def unitsOf (s : State) (p : Nat → Bool) : Nat :=
  (s.sched.banks.filterMap (fun x => match x.2.prog with
    | some g => if p x.1 && (!g.suspended || g.suspAt / 250 == tickOf s) then some (progUnits g.op) else none
    | none => none)).sum

/-- Programs in flight on a die, running or suspended. -/
def dieProgs (s : State) (die : Nat) : Nat :=
  (s.sched.banks.filter (fun x => x.1 / 16 == die && x.2.prog.isSome)).length

/-- Programs a die carries: 4, or 8 in drain (R99). -/
def dieLimit (s : State) : Nat := if drainOnly s then 8 else 4

/-- The device's budget (R99, R114). -/
def pcurBudget (s : State) : Nat := min (fget s F.WHL_PCUR_BUDGET 0) (Config.fullBudget s.config)

/-- Is the operation a program once it starts? -/
def isProgram (k : OpKind) : Bool :=
  match k with
  | .demandRead _ => false
  | .tagClr _ => false
  | .tagClrGap _ => false
  | .tagClrSpare => false
  | .scanRead => false
  | .lockFill => false
  | .patrolRead _ _ _ => false
  | _ => true

/-- Is the operation a tag operation? -/
def isTagOp (k : OpKind) : Bool :=
  match k with
  | .tagClr _ => true
  | .tagClrGap _ => true
  | .tagClrSpare => true
  | _ => false

/-- A candidate for admission: the operation, and whether it resumes a suspended program. -/
structure Cand where
  op : Desc
  resume : Bool
  deriving DecidableEq, Repr

/-- The order of candidates (R99): die, class, resumed first, enqueue GTC, home spoke. -/
def candLe (a b : Cand) : Bool :=
  let key (c : Cand) : List Nat :=
    [c.op.bank / 16, clsNo c.op.cls, if c.resume then 0 else 1, c.op.enq, homeG c.op.bank]
  decide (key a ≤ key b)

/-- Banks with something queued or held, each once, ascending. -/
def liveBanks (s : State) : List Nat :=
  (s.sched.queue.map (fun d => d.bank) ++ s.sched.banks.map (fun x => x.1)).foldl (fun acc n => nsAdd n acc) []

/-- The program a bank offers for admission. -/
def candOf (s : State) (n : Nat) : Option Cand :=
  match (bankSt s n).prog with
  | some p => if p.suspended && !demandPending s n then some ⟨p.op, true⟩ else none
  | none =>
    match bankNext s n with
    | some d => if isProgram d.kind && (!d.needSense || d.ready) then some ⟨d, false⟩ else none
    | none => none

/-- All candidates in order. -/
def candidates (s : State) : List Cand := sortBy candLe ((liveBanks s).filterMap (candOf s))

/-- May the candidate be admitted with what is running now? A suspended program keeps its place among the die's programs, so its
own is not counted against it (R96, R99; DEDUCED, log 86). -/
def canAdmit (s : State) (c : Cand) : Bool :=
  let die := c.op.bank / 16
  let cost := progUnits c.op
  (c.op.cls != .background || bgLeft s (bankWheel c.op.bank))
    && decide (unitsOf s (fun n => n / 16 == die) + cost ≤ Config.unitsPerDie)
    && decide (dieProgs s die - c.resume.toNat < dieLimit s)
    && decide (unitsOf s (fun _ => true) + cost ≤ pcurBudget s)

/-- The engine an operation runs on: the one drafted for it, else its home spoke's (R105). -/
def engineOf (s : State) (d : Desc) : Nat := tabGet (homeG d.bank) s.sched.drafts d.id

/-- An engine works in this tick. -/
def engineUsed (g : Nat) (s : State) : State := onSched (fun q => { q with engNow := nsAdd g q.engNow }) s

/-- The stores that wait for the program of a line and have landed are carried by the write-back that starts (R128). -/
def carry (d : Desc) (s : State) : State :=
  match d.kind with
  | .writeBack _ => onSched (fun q => { q with ctxs := q.ctxs.map (fun c =>
      if c.st = .program && lineOf c.dpa = d.line && c.carried = 0 then { c with carried := d.id + 1 } else c) }) s
  | _ => s

/-- Admit a candidate: a resumed program goes on, a new one starts. -/
def admitWork (c : Cand) (s : State) : State :=
  let n := c.op.bank
  let s1 := if c.op.cls = .background then useBg (bankWheel n) s else s
  if c.resume then
    match (bankSt s n).prog with
    | some p =>
      s1 |> fhigh F.SPKg_SUSP_MAX_US (homeG n) ((s.gtc - p.suspAt) / 1000)
         |> onBank n (fun b => { b with prog := some { p with suspended := false } }) |> sendOp 5 p.op
    | none => s1
  else s1 |> unqueue c.op.id |> onBank n (fun b => { b with prog := some ⟨c.op, false, 0, false, false⟩ })

/-- The tick's admission (R99). -/
def admitAll (s : State) : State := forEach (candidates s) (fun c s => if canAdmit s c then admitWork c s else s) s

/-- An admitted program starts: it takes its data from `fill`, the epoch tag and the key in use, and the stores that have landed.
It waits while a demand read is in its bank, and for a bus window for its burst (R99, R108, R113, R164). -/
def startProgram (fill : State → Desc → Desc) (n : Nat) (s : State) : State :=
  match (bankSt s n).prog with
  | some p =>
    let w := bankWheel n
    if p.started || p.suspended || demandPending s n || (bankSt s n).readyAt > s.gtc || !(windowsOf s w).all (fun x => decide (s.gtc + 23 ≤ x.1)) then s
    else
      let d := { fill s p.op with pe := s.med.pe, key := s.med.key }
      s |> onBank n (fun b => { b with prog := some { p with op := d, started := true } }) |> carry d
        |> engineUsed (engineOf s d) |> sendOp 3 d
  | none => s

/-- What a bank's gate starts outside admission: a sense or a tag operation, within the allowance of the background class (R95,
R100). -/
def startBankOp (n : Nat) (s : State) : State :=
  match bankNext s n with
  | none => s
  | some d =>
    if d.cls = .background && !bgLeft s (bankWheel n) then s
    else
      let s1 := if d.cls = .background then useBg (bankWheel n) s else s
      if isTagOp d.kind then
        s1 |> unqueue d.id |> onBank n (fun b => { b with tagop := some d }) |> engineUsed (engineOf s d) |> sendOp 7 d
      else if d.needSense && !d.ready then
        s1 |> unqueue d.id |> onBank n (fun b => { b with sense := some d, senseReady := s.gtc + 150 }) |> engineUsed (engineOf s d)
           |> sendOp 1 d
      else s

/-- The gates start what they may, at any time: only admission waits for a tick (R18, R95). -/
def gatesWith (fill : State → Desc → Desc) (s : State) : State :=
  if coreOn s then s |> sendWaits |> (fun s => forEach (liveBanks s) (startProgram fill) s) |> (fun s => forEach (liveBanks s) startBankOp s)
  else s

/-! ### Drafting (R104 to R106) -/

/-- Has a queued operation not started? A merged write or copy has: its sense is done. -/
def unstarted (d : Desc) : Bool := d.cls != .demand && !(d.needSense && d.ready)

/-- Operations queued and not started for the home banks of spoke `g`. -/
def backlog (s : State) (g : Nat) : Nat := (s.sched.queue.filter (fun d => homeG d.bank == g && unstarted d)).length

/-- The engines that work now: on a sense, a decode, a running program, a tag operation, or a job. -/
def enginesBusy (s : State) : List Nat :=
  s.sched.banks.flatMap (fun x =>
    (x.2.sense.toList ++ x.2.decoding.toList ++ ((x.2.prog.filter Prog.runs).map (·.op)).toList ++ x.2.tagop.toList).map (engineOf s))
    ++ s.sched.running.map (fun x => x.1)

/-- A tick begins: the engines that ran something in the last tick are known (R104, R115). -/
def turnEngines (s : State) : State :=
  let busy := (enginesBusy s).foldl (fun t g => nsAdd g t) []
  onSched (fun q => { q with engLast := busy.foldl (fun t g => nsAdd g t) q.engNow, engNow := busy }) s

/-- Is a spoke idle: its engine ran nothing in the last tick and nothing is queued for it? -/
def spokeIdle (s : State) (g : Nat) : Bool := !nsHas g s.sched.engLast && backlog s g == 0

/-- The oldest unstarted operations of a spoke that may be drafted, in a drain of the drain class alone (R113). -/
def draftable (s : State) (g : Nat) : List Desc :=
  sortBy (fun a b => decide (a.enq ≤ b.enq)) (s.sched.queue.filter (fun d => homeG d.bank == g && unstarted d
    && (!drainOnly s || d.cls == .drain) && !demandPending s d.bank && !tabHas s.sched.drafts d.id))

/-- The busy spokes of a wheel with the backlog the decision still counts, most first, then lowest number. -/
def busySpokes (s : State) (w : Nat) : List (Nat × Nat) :=
  let th := max 1 (fget s F.WHL_DRAFT_CFG_THRESH 0)
  sortBy (fun a b => decide (b.2 < a.2) || (a.2 == b.2 && decide (a.1 ≤ b.1)))
    (((List.range 16).map (fun i => (16 * w + i, backlog s (16 * w + i)))).filter (fun x => decide (th ≤ x.2)))

/-- May the spoke take jobs of the hub's queue (R106)? -/
def takeJob (g : Nat) (s : State) : State :=
  match s.sched.jobs with
  | [] => s
  | j :: rest =>
    if fon s F.WHL_DRAFT_CFG_XW_EN 0 && s.mode != .freewheel then
      s |> onSched (fun q => { q with jobs := rest, running := tabPut g j q.running })
        |> finc F.SPKg_DRAFT_TAKEN g |> engineUsed g
    else s

/-- One idle spoke's turn. -/
def draftOne (g : Nat) (acc : State × List (Nat × Nat)) : State × List (Nat × Nat) :=
  match acc with
  | (s, []) => (takeJob g s, [])
  | (s, (v, b) :: rest) =>
    let ops := (draftable s v).take (max 1 (fget s F.WHL_DRAFT_CFG_BATCH 0))
    let th := max 1 (fget s F.WHL_DRAFT_CFG_THRESH 0)
    let s1 := s
      |> onSched (fun q => { q with drafts := ops.foldl (fun t d => tabPut d.id g t) q.drafts })
      |> fadd F.SPKg_DRAFT_TAKEN g ops.length |> fadd F.SPKg_DRAFT_GIVEN v ops.length
    let b' := b - ops.length
    (s1, if b' < th then rest else (v, b') :: rest)

/-- The drafting decision of a wheel. -/
def draftWheel (w : Nat) (s : State) : State :=
  let idle := ((List.range 16).map (fun i => 16 * w + i)).filter (spokeIdle s)
  (idle.foldl (fun acc g => draftOne g acc) (s, busySpokes s w)).1

/-- The drafting decisions of a tick. -/
def draftAll (s : State) : State :=
  if fon s F.WHL_DRAFT_CFG_EN 0 then forEach (List.range (Config.wheels s.config)) draftWheel s else s

/-- Does no spoke take jobs: drafting or cross-wheel jobs are off? The hub then works its queue itself (DESIGN CHOICE, log 87). -/
def hubJobs (s : State) : Bool := !(fon s F.WHL_DRAFT_CFG_EN 0 && fon s F.WHL_DRAFT_CFG_XW_EN 0) && s.mode != .freewheel

/-- Drafts of operations that are gone are forgotten. -/
def pruneDrafts (s : State) : State :=
  let ids := (heldDescs s).map (fun d => d.id)
  onSched (fun q => { q with drafts := tabFilter (fun k => ids.contains k) q.drafts }) s

/-! ### Removal (R95) -/

/-- Unstarted write and background entries leave their queues on the way into a drain; their lines stay dirty. An admitted program
whose command has not left is dropped with them. -/
def dropUnstarted (s : State) : State :=
  onSched (fun q => { q with
    queue := q.queue.filter (fun d => d.cls == .demand || d.cls == .drain), wait := []
    banks := tabMap bankReset (fun _ b => { b with prog := b.prog.filter (fun p => p.started || p.op.cls == .drain) }) q.banks }) s
    |> onMed (fun m => { m with ckptNow := none })

end Sys2Proof.Machine
end

