-- ==== Sys2Proof/Machine/Media.lean ====
section
/-! DEFINITION. The media's shared operations (chapter 06): lines and their encryption, drift learning, write counts and
rotation, retirement, release, patrol's position, checkpoints, and write-back. -/
namespace Sys2Proof.Machine

/-! ### Lines (R27, R148, R174) -/

/-- The line programmed at a media address; none is UNWRITTEN (R174). -/
def mlineAt (s : State) (ma : Nat) : Option MLine :=
  tabGet none (s.med.lines.map (fun x => (x.1, some x.2))) ma

/-- What decrypting a programmed line gives under the keys in use and the tweak (R27). -/
def decrypt (s : State) (tweak : Nat) (m : MLine) : Line :=
  if m.key = s.med.key && m.tweak = tweak then m.data
  else Config.wrongKeyData m.key m.tweak s.med.key tweak

/-- What a read of persistent line `line` at `ma` gives: its data and poison bits; an UNWRITTEN line reads zeros. -/
def readLine (s : State) (ma line : Nat) : Line × BitVec 4 :=
  match mlineAt s ma with
  | some m => (decrypt s line m, m.sp)
  | none => (zeroLine, 0)

/-- A program has written its line: the row takes the tag that its packet carried (R164). -/
def programLine (d : Desc) (s : State) : State :=
  onMed (fun m => { m with
    lines := tabPut d.ma (mlineFor d) m.lines, tags := tabSet tagReset (d.ma / 16) ⟨d.pe % 8, false⟩ m.tags }) s

/-- Clear the written bits and the tag of a row (TAGCLR, R174). -/
def clearRow (ma : Nat) (s : State) : State :=
  onMed (fun m => { m with
    lines := tabFilter (fun k => k / 16 != ma / 16) m.lines, tags := tabSet tagReset (ma / 16) tagReset m.tags }) s

/-- Clear every row of a die (TAGCLR with ARG = 0xFF). -/
def clearDie (w d : Nat) (s : State) : State :=
  onMed (fun m => { m with
    lines := tabFilter (fun k => maBank k / 16 != w * 8 + d) m.lines
    tags := tabFilter (fun k => maBank (16 * k) / 16 != w * 8 + d) m.tags }) s

/-! ### Drift references (R165 to R167) -/

/-- The bucket of a row (R165). -/
def bucketOf (s : State) (ma : Nat) : Nat :=
  let t := tabGet tagReset s.med.tags (ma / 16)
  if t.settled then 4
  else match (s.med.pe + 8 - t.tag % 8) % 8 with
    | 0 => 0
    | 1 => 1
    | 2 => 2
    | 3 => 2
    | _ => 3

/-- One learning step on counts that suffice (R167): the new set, and whether REF reached its clamp. -/
def learnStep (factory : Nat) (x : DriftSet) : DriftSet × Bool :=
  let r1 := if x.n01 * 5 < x.n10 * 4 then x.ref + 1 else x.ref
  let r2 := if x.n10 * 5 < x.n01 * 4 then r1 - 1 else r1
  let n := x.n01 + x.n10 + x.n11
  let d1 := if x.cells < n * 32 && x.delta < 31 then x.delta + 1 else x.delta
  let d2 := if n * 512 < x.cells && 2 < d1 then d1 - 1 else d1
  let lo := factory - 24
  let hi := min 255 (factory + 24)
  (⟨max lo (min hi r2), d2, 0, 0, 0, 0⟩, r2 ≤ lo || hi ≤ r2)

/-- Do the counts suffice: 65,536, or 4,096 when PE advances (R167)? -/
def learnReady (x : DriftSet) (advance : Bool) : Bool :=
  decide ((if advance then 4096 else 65536) ≤ x.n01 + x.n10 + x.n11)

/-- Learn one set if its counts suffice; a set of the die's current band is sent with REFLOAD in the next non-demand window. -/
def learn (w d band bucket bd : Nat) (advance : Bool) (s : State) : State :=
  let x := driftOf s w d band bucket bd
  if learnReady x advance then
    let got := learnStep (factorySet s w d band bucket bd).1 x
    s |> onMed (fun m => { m with drift := tabSet driftReset (driftKey w d band bucket bd) got.1 m.drift })
      |> when got.2 (fset F.HUB_EPOCH_CLAMPED 0)
      |> when (band == dieBand s w d) (wantReload w d band)
  else s

/-- Count a decode's soft values of one boundary (R167). -/
def countSoft (w d band bucket bd : Nat) (n : SoftCount) (s : State) : State :=
  let x := driftOf s w d band bucket bd
  let y : DriftSet := ⟨x.ref, x.delta, x.n01 + n.n01, x.n10 + n.n10, x.n11 + n.n11, x.cells + 1152⟩
  s |> onMed (fun m => { m with drift := tabSet driftReset (driftKey w d band bucket bd) y m.drift })
    |> learn w d band bucket bd false

/-- A decode passes its counts on as bookkeeping jobs (R103, R106). -/
def pushSoft (ma : Nat) (m : SoftMap) (s : State) : State :=
  let n := maBank ma
  let w := bankWheel n
  let d := bankDie n
  let band := dieBand s w d
  let bk := bucketOf s ma
  onSched (fun q => { q with jobs := q.jobs ++
    [.driftStats w d band bk 0 m.b0, .driftStats w d band bk 1 m.b1, .driftStats w d band bk 2 m.b2] }) s

/-- When PE advances every set with 4,096 counts learns. -/
def learnAll (s : State) : State :=
  forEach s.med.drift (fun x s =>
    let k := x.1
    learn (k / 480) (k / 60 % 8) (k / 15 % 4) (k / 3 % 5) (k % 3) true s) s

/-! ### Rotation (R149 to R151) -/

/-- Bits [47:0] of a good slot of region `r`'s rotation counter. -/
def ptrSlot (s : State) (r k : Nat) : Option Nat :=
  let bs := sbBytes s (131072 + 16 * r + 8 * k) 8
  if crc16 (bs.take 6) = leAt 6 2 bs then some (leAt 0 6 bs) else none

/-- The current slot of region `r` and its bits (R151, R305). -/
def ptrCurrent (s : State) (r : Nat) : Option (Nat × Nat) :=
  match ptrSlot s r 0, ptrSlot s r 1 with
  | some a, some b => if (pickSlot (a / 2 ^ 36) (b / 2 ^ 36)).1 = 0 then some (0, a) else some (1, b)
  | some a, none => some (0, a)
  | none, some b => some (1, b)
  | none, none => none

/-- Pointers that a slot's bits spell. -/
def ptrFrom (bits : Nat) : RotPtr := ⟨bits % 2 ^ 18, bits / 2 ^ 18 % 2 ^ 18⟩

/-- Is the last pointer update of a region not stored yet (R306)? -/
def ptrUnstored (s : State) (r : Nat) : Bool :=
  pageDirty s (512 + r / 16) && decide (sbNat s (131072 + 16 * r) 16 ≠ sbShadowNat s (131072 + 16 * r) 16)

/-- Write region `r`'s pointers to the slot that is not current and request the store (R151, R306). -/
def storePtr (r : Nat) (s : State) : State :=
  let p := ptrOf s r
  let cur := ptrCurrent s r
  let k := match cur with | some (k, _) => 1 - k | none => 0
  let seq := match cur with | some (_, b) => (b / 2 ^ 36 + 1) % 4096 | none => (Config.firstSeq (131072 + 16 * r)).val
  let bs := leBytes 6 (p.start + p.gap * 2 ^ 18 + seq * 2 ^ 36)
  sbStore (131072 + 16 * r + 8 * k) (bs ++ leBytes 2 (crc16 bs)) s

/-- Has a region a dead slot (R170)? -/
def regionFrozen (s : State) (r : Nat) : Bool := s.med.xtab.any (fun e => e.region == r && e.dead)

/-- May the region's gap move? -/
def gapAllowed (s : State) (r : Nat) : Bool :=
  fon s F.HUB_PLC_CFG_GAP_EN 0 && !regionFrozen s r && !nsHas r s.med.lost

/-- The gap move of a region in progress. -/
def gapOf (s : State) (r : Nat) : Option GapMove :=
  tabGet none (s.med.gaps.map (fun x => (x.1, some x.2))) r

/-- Source and target of a region's next gap move (R150). -/
def gapSrc (s : State) (r : Nat) : Nat := let g := (ptrOf s r).gap; if 0 < g then g - 1 else Config.rotN
def gapDst (s : State) (r : Nat) : Nat := let g := (ptrOf s r).gap; if 0 < g then g else 0

/-- Region and rotation slot of a persistent line. -/
def slotOfLine (s : State) (line : Nat) : Nat × Nat :=
  let p := placeOf s line
  (p.region, slotOfBlock s p.region p.lblock)

/-- Operations that satisfy `hit` and whose program has not started leave the queues and the gates; stores they carried wait
for another write-back. -/
def dropOps (hit : Desc → Bool) (s : State) : State :=
  let keep (d : Option Desc) : Option Desc := d.filter (fun x => !hit x)
  let out (b : BankSt) : List Desc := bankOut b ++ ((b.prog.filter (fun p => !p.started)).map (·.op)).toList
  let ids := ((s.sched.queue ++ s.sched.banks.flatMap (fun x => out x.2)).filter hit).map (fun d => d.id)
  if ids.isEmpty && !s.sched.wait.any hit then s
  else onSched (fun q => { q with
    queue := q.queue.filter (fun d => !hit d), wait := q.wait.filter (fun d => !hit d)
    banks := tabMap bankReset (fun _ b => { b with
      sense := keep b.sense, latch := keep b.latch, decoding := keep b.decoding, prog := b.prog.filter (fun p => p.started || !hit p.op) }) q.banks
    ctxs := q.ctxs.map (fun c => if c.carried != 0 && ids.contains (c.carried - 1) then { c with carried := 0 } else c) }) s

/-- Write-backs and rewrites of a slot that have not started are given up: its lines stay dirty, and go where the block lies
next; patrol's visit of it ends too (R150, R156, R162). -/
def dropSlotWrites (r slot : Nat) (s : State) : State :=
  s |> dropOps (fun d => match d.kind with
        | .writeBack _ => d.ma / 16 == slotMa s r slot / 16
        | .rewrite => d.ma / 16 == slotMa s r slot / 16
        | .patrolRead q i _ => q == r && i == slot
        | _ => false)
    |> onMed (fun m => { m with patrol := { m.patrol with
        visit := m.patrol.visit.filter (fun v => !(v.region == r && v.slot == slot)) } })

/-- The pointers after the gap moves one block. -/
def movePtr (p : RotPtr) : RotPtr :=
  if 0 < p.gap then ⟨p.start, p.gap - 1⟩ else ⟨(p.start + 1) % Config.rotN, Config.rotN⟩

/-- Move the gap pointer of a region. -/
def advancePtr (r : Nat) (s : State) : State :=
  onMed (fun m => { m with ptrs := tabSet ptrReset r (movePtr (ptrOf s r)) m.ptrs }) s

/-- Count a line program on a wheel; 2^20 of them are one unit of its life accumulator (R291). -/
def countLife (w : Nat) (s : State) : State :=
  let n := tabGet 0 s.med.lifeCount w + 1
  s |> onMed (fun m => { m with lifeCount := tabSet 0 w (n % 1048576) m.lifeCount })
    |> when (n == 1048576) (ctrUpdate (ctrLife w) (((ctrValue s (ctrLife w)).getD 0 + 1) % 2 ^ 32))

/-- MA with LINE = 0 of a region's slot for copies: its spare when remapped. -/
def gapMa (s : State) (r slot : Nat) : Nat := slotMa s r slot

/-- The line in line `k` of a slot, when the slot is not the gap. -/
def lineInSlot (s : State) (r slot k : Nat) : Nat := lineAt s r (blockOfSlot s r slot) k

/-- Are all 16 lines of a block unwritten? -/
def blockUnwritten (s : State) (ma : Nat) : Bool := !s.med.lines.any (fun x => x.1 / 16 == ma / 16)

/-- Does the region's next block hold no data: is it released or unwritten, with no program of it in flight (R160)? -/
def nextBlank (s : State) (r : Nat) : Bool :=
  let src := gapMa s r (gapSrc s r)
  (blockUnwritten s src || bmGet s.med.released (extentAt s r (blockOfSlot s r (gapSrc s r))))
    && !s.sched.banks.any (fun x => match x.2.prog with | some p => p.op.ma / 16 == src / 16 | none => false)

/-- A gap move of a region is due: the block in src is held from here on, and the hub looks its place up (R106, R150). A blank
block needs no copy: the free pass takes it (R160). While a move is under way the next one is owed. -/
def queueGap (r : Nat) (s : State) : State :=
  if !gapAllowed s r then s
  else if (gapOf s r).isSome then onMed (fun m => { m with gapOwed := tabPut r (tabGet 0 m.gapOwed r + 1) m.gapOwed }) s
  else if nextBlank s r then s
  else
    s |> onMed (fun m => { m with gaps := tabPut r ⟨gapSrc s r, gapDst s r, .copying, [], [], [], []⟩ m.gaps })
      |> dropSlotWrites r (gapSrc s r) |> onSched (fun q => { q with jobs := q.jobs ++ [.xtabLookup r (gapSrc s r)] })

/-- Moves that are owed are queued once the region is free. -/
def owedGaps (s : State) : State :=
  forEach s.med.gapOwed (fun x s =>
    if (gapOf s x.1).isSome then s
    else s |> onMed (fun m => { m with gapOwed := tabSet 0 x.1 (x.2 - 1) m.gapOwed }) |> queueGap x.1) s

/-- Count a home program of host data into a slot of region `r`; every 128th queues a gap move (R150). -/
def countWrite (r : Nat) (s : State) : State :=
  let n := tabGet 0 s.med.counts r + 1
  s |> onMed (fun m => { m with counts := tabSet 0 r (n % 128) m.counts })
    |> when (n % 128 == 0) (queueGap r)

/-- What a job of the hub's queue does (R106). A lookup leaves nothing behind, and a soft decode ends as its own command. -/
def jobEffect (j : Job) (s : State) : State :=
  match j with
  | .softDecode _ => s
  | .writeCount r => countWrite r s
  | .xtabLookup _ _ => s
  | .driftStats w d band bk bd n => countSoft w d band bk bd n s

/-- Where no spoke takes jobs, the hub does them itself. -/
def hubWorks (s : State) : State :=
  if hubJobs s then s |> onSched (fun q => { q with jobs := [] }) |> forEach s.sched.jobs jobEffect else s

/-- Senses of a gap move that are still to be queued go to the bank's background queue (R88). -/
def feedGap (r : Nat) (g : GapMove) (s : State) : State :=
  if g.stage == .copying then
    forEach ((List.range 16).filter (fun k => !nsHas k g.sensed && !anyOp s (fun d => d.kind == .gapCopy r k))) (fun k s =>
      let ma := gapMa s r g.src + k
      enqueue (mkDesc (.gapCopy r k) .background (maBank ma) (lineInSlot s r g.src k) ma false true) s) s
  else s

/-- The copy of a block of a release-pending extent is cleared where it now lies, at `ma` (R180). -/
def clearCopy (e ma : Nat) (s : State) : State :=
  if bmGet s.med.relPending e && tabHas s.med.clrLeft e then
    onMed (fun m => { m with clrLeft := tabPut e (tabGet 0 m.clrLeft e + 1) m.clrLeft, clrExtra := m.clrExtra ++ [(e, ma)] }) s
  else s

/-- So with the block that a gap move has copied. -/
def clearMoved (r : Nat) (g : GapMove) (s : State) : State :=
  clearCopy (extentAt s r (blockOfSlot s r g.src)) (gapMa s r g.dst) s

/-- Write a gap move's progress. -/
def setGap (r : Nat) (g : GapMove) (s : State) : State := onMed (fun m => { m with gaps := tabPut r g m.gaps }) s

/-- Once all 16 lines lie in dst the pointer moves and its page is stored (R150). -/
def gapFinish (r : Nat) (s : State) : State :=
  match gapOf s r with
  | none => s
  | some g =>
    if g.stage = .copying && g.done.length = 16 then
      s |> setGap r { g with stage := .storing } |> clearMoved r g |> advancePtr r |> storePtr r
    else s

/-- The copies of the sensed lines are queued in dst's bank. -/
def gapPrograms (r : Nat) (s : State) : State :=
  match gapOf s r with
  | none => s
  | some g => s |> setGap r { g with copies := [] } |> forEach g.copies enqueue |> gapFinish r

/-- A line of src has been sensed. Once all have been, dst is cleared with one TAGCLR when some are UNWRITTEN, and the others are
programmed after it (R150; that the TAGCLR comes first is DEDUCED, log 23). -/
def gapSensed (r k : Nat) (copy : Option Desc) (s : State) : State :=
  match gapOf s r with
  | none => s
  | some g =>
    let g' := { g with sensed := nsAdd k g.sensed, blank := if copy.isNone then nsAdd k g.blank else g.blank, copies := g.copies ++ copy.toList }
    let dst := gapMa s r g.dst
    s |> setGap r g'
      |> when (g'.sensed.length == 16) (if g'.blank.isEmpty then gapPrograms r
          else enqueue (mkDesc (.tagClrGap r) .background (maBank dst) 0 dst false false))

/-- The TAGCLR of dst has completed. -/
def gapCleared (r : Nat) (s : State) : State :=
  match gapOf s r with
  | none => s
  | some g => s |> setGap r { g with done := g.blank.foldl (fun t k => nsAdd k t) g.done } |> gapPrograms r

/-- A copied line has verified in dst. -/
def gapLineDone (r k : Nat) (s : State) : State :=
  match gapOf s r with
  | none => s
  | some g => s |> setGap r { g with done := nsAdd k g.done } |> gapFinish r

/-- A gap move of a region is begun again, from the first sense. -/
def gapRestart (stage : GapStage) (r : Nat) (s : State) : State :=
  match gapOf s r with
  | none => s
  | some g => setGap r { g with stage := stage, done := [], sensed := [], blank := [], copies := [] } s

/-- One free move: a TAGCLR of dst, no program; write-backs of the block wait for its new place. -/
def freeMove (r : Nat) (s : State) : State :=
  let dst := gapMa s r (gapDst s r)
  let n := maBank dst
  s |> useBg (bankWheel n) |> dropSlotWrites r (gapSrc s r) |> clearRow dst
    |> sendDie 7 (bankWheel n) (bankDie n) (bankInDie n) (maRow dst) 0 |> advancePtr r

/-- Up to `n` free moves of a region in one tick; they end where the gap would wrap (R160). -/
def freeMoves (r : Nat) : Nat → State → State
  | 0, s => s
  | n + 1, s =>
    if bgLeft s (bankWheel (maBank (rowMa s r 0))) && gapAllowed s r && 0 < (ptrOf s r).gap && nextBlank s r then
      s |> freeMove r |> freeMoves r n
    else s

/-- The free gap pass of one region (R160): up to 4 moves, at the wrap one. Moved blocks are held until the pointers are stored;
moves of later ticks may share that store (DESIGN CHOICE, log 88). -/
def freePass (r : Nat) (s : State) : State :=
  let old := (ptrOf s r).gap
  if !gapAllowed s r || !nextBlank s r || !bgLeft s (bankWheel (maBank (rowMa s r 0))) then s
  else match gapOf s r with
    | none =>
      if ptrUnstored s r then s
      else
        let s1 := if old = 0 then freeMove r s else freeMoves r 4 s
        s1 |> setGap r ⟨(ptrOf s1 r).gap, old, .storing, [], [], [], []⟩ |> storePtr r
    | some g =>
      if g.stage = .storing && 0 < g.dst && 0 < old then
        let s1 := freeMoves r 4 s
        setGap r { g with src := (ptrOf s1 r).gap } s1
      else s

/-- The free gap pass of a tick, wheel by wheel while its allowance lasts (R160). -/
def freePassAll (s : State) : State :=
  forEach (List.range (Config.wheels s.config)) (fun w s =>
    if bgLeft s w then forEach (wheelRegions s w) (fun r s => if bgLeft s w then freePass r s else s) s else s) s

/-- The pointers of a region as stored last, while its last update is stored. -/
def ptrStoredNow (s : State) (r : Nat) : Bool :=
  match ptrCurrent s r with | some (_, bits) => ptrFrom bits == ptrOf s r | none => false

/-- A region's pointers are stored: its move is made, or, where the gap has gone on, the store follows it (R150, R160). -/
def gapStored (r : Nat) (s : State) : State :=
  if ptrStoredNow s r then onMed (fun m => { m with gaps := tabDel r m.gaps }) s else storePtr r s

/-- Is a block held by a gap move of its region: in src while it is copied, or moved and its pointer not yet stored? -/
def gapHolds (s : State) (r slot : Nat) : Bool :=
  match gapOf s r with
  | none => false
  | some g => if g.stage = .storing then (decide (g.src < slot) && decide (slot ≤ g.dst)) || slot == g.dst else slot == g.src

/-! ### Retirement (R153 to R157, R170) -/

/-- Is a spare row of a region free? -/
def spareFree (s : State) (r off : Nat) : Bool :=
  let ma := rowMa s r off
  !(s.med.xtab.any (fun e => !e.dead && e.spare == ma) || s.med.journal.any (fun e => !e.dead && e.spare == ma)
    || (match s.med.retire with | some t => t.spare == ma || nsHas ma t.tried | none => false))

/-- Spares of a region in use. -/
def sparesUsed (s : State) (r : Nat) : Nat :=
  let n := rowMa s r 0
  ((s.med.xtab.filter (fun e => !e.dead && e.spare / 4194304 == n / 4194304)).length)

/-- Spare rows of a region that are not free: named by an exception or a journal entry, or by the running retirement (R153). -/
def sparesNamed (s : State) (r : Nat) : Nat :=
  let named := (s.med.xtab ++ s.med.journal).filterMap (fun e => if e.dead then none else some e.spare)
    ++ (match s.med.retire with | some t => t.spare :: t.tried | none => [])
  (named.filter (fun ma => ma / 4194304 == rowMa s r 0 / 4194304)).eraseDups.length

/-- The lowest free spare row of a region, as MA. As many rows as are named cannot all lie below it. -/
def regionSpare (s : State) (r : Nat) : Option Nat :=
  ((List.range (sparesNamed s r + 1)).find? (fun i => decide (i < Config.spareRows) && spareFree s r (Config.spareFirst + i))).map
    (fun i => rowMa s r (Config.spareFirst + i))

/-- The spare that replaces a slot of region `r` (R153). -/
def pickSpare (s : State) (r : Nat) : Option Nat :=
  match regionSpare s r with
  | some ma => some ma
  | none =>
    let rs := (wheelRegions s (wheelOfBank s (r / 2))).filter (fun q => (regionSpare s q).isSome)
    match rs.foldl (fun m q => match m with
        | some p => if sparesNamed s q < sparesNamed s p then some q else some p
        | none => some q) (none : Option Nat) with
    | some q => regionSpare s q
    | none => none

/-- Order of the exception table (R169). -/
def xLe (a b : XEntry) : Bool := decide (a.region * 262144 + a.slot ≤ b.region * 262144 + b.slot)

/-- Put an entry into the exception table; it replaces the slot's own. -/
def xPut (e : XEntry) (t : List XEntry) : List XEntry :=
  insertBy xLe e (t.filter (fun x => !(x.region == e.region && x.slot == e.slot)))

/-- An entry as its 16 bytes (R154). -/
def xBytes (e : XEntry) : List Byte :=
  leBytes 16 (e.region + e.slot * 2 ^ 12 + (if e.dead then 2 else 1) * 2 ^ 30 + e.spare * 2 ^ 32 + e.pmask.toNat * 2 ^ 66)

/-- An entry from its bytes. -/
def xFrom (bs : List Byte) : XEntry :=
  let n := ofLe bs
  ⟨n % 4096, n / 2 ^ 12 % 2 ^ 18, n / 2 ^ 30 % 4 == 2, n / 2 ^ 32 % 2 ^ 34, BitVec.ofNat 16 (n / 2 ^ 66)⟩

/-- A journal page: header of page sequence, entry count and CRC-32, and up to 15 entries (R156; the header's bytes are
the model's, log 24). -/
def journalPage (p : Nat) (es : List XEntry) : List Byte :=
  let body := (es.flatMap xBytes) ++ List.replicate (240 - 16 * es.length) 0xFF
  let hd := leBytes 4 p ++ leBytes 4 es.length ++ leBytes 4 0
  hd ++ leBytes 4 (crc32 (hd ++ body)) ++ body

/-- Entries of a stored journal page whose CRC is good. -/
def readJournalPage (s : State) (p : Nat) : List XEntry :=
  let bs := sbBytes s ((3200 + p) * 256) 256
  if crc32 (bs.take 12 ++ bs.drop 16) = leAt 12 4 bs && leAt 4 4 bs ≤ 15 then
    (List.range (leAt 4 4 bs)).map (fun i => xFrom ((bs.drop (16 + 16 * i)).take 16))
  else []

/-- The stored journal, in order. -/
def readJournal (s : State) : List XEntry := (List.range 64).flatMap (readJournalPage s)

/-- Append an entry to the exception journal and store its page (R156); with 480 entries a checkpoint falls due (R169). -/
def journalAppend (e : XEntry) (s : State) : State :=
  let js := s.med.journal ++ [e]
  let p := s.med.journal.length / 15
  s |> onMed (fun m => { m with journal := js })
    |> sbStore ((3200 + p % 64) * 256) (journalPage p ((js.drop (15 * p)).take 15))
    |> when (decide (480 ≤ js.length)) (onMed (fun m => { m with ckptDue := true }))

/-- Rewrite the journal with the entries given and store its pages. -/
def journalRewrite (js : List XEntry) (s : State) : State :=
  let pages := (s.med.journal.length + 14) / 15
  let s1 := onMed (fun m => { m with journal := js }) s
  forEach (List.range pages) (fun p s => sbStore ((3200 + p % 64) * 256) (journalPage p ((js.drop (15 * p)).take 15)) s) s1

/-- Is the exception table full (R154)? -/
def xtabFull (s : State) : Bool := decide (Config.xtabSize s.config ≤ s.med.xtab.length)

/-- A write-limited condition: a dead slot exists, or a region is lost (R152, R170). -/
def writeLimited (s : State) : Bool := s.med.xtab.any (fun e => e.dead) || !s.med.lost.isEmpty

/-- The dirty lines of a slot that has died are pinned, and stores that wait for their programs are acknowledged (R171). -/
def pinDead (r slot : Nat) (s : State) : State :=
  let mine (line : Nat) : Bool := slotOfLine s line == (r, slot)
  s |> forEach ((s.cache.dir.filter (fun x => x.2.dv && !x.2.scr && mine x.2.line)).map (fun x => x.1)) pinLoc
    |> onSched (fun q => { q with ctxs := q.ctxs.map (fun c =>
        if c.st = .program && mine (lineOf c.dpa) then { c with st := .respond } else c) })

/-- A slot without a spare is dead (R170): its entry goes through the journal, and SERVICE becomes write-limited. -/
def makeDead (r slot : Nat) (s : State) : State :=
  let e : XEntry := ⟨r, slot, true, 0, 0⟩
  let was := writeLimited s
  s |> dropSlotWrites r slot |> journalAppend e |> onMed (fun m => { m with xtab := xPut e m.xtab, gaps := tabDel r m.gaps })
    |> pinDead r slot
    |> when (!was) (postOrQueue 2 1 0 0 4 srcHub)
    |> land 0x09 4 srcHub 0 none

/-- The retirement's copy is complete: its entry is appended to the journal and the page stored (R156). -/
def retireJournal (s : State) : State :=
  match s.med.retire with
  | none => s
  | some t => s |> onMed (fun m => { m with retire := some { t with storing := true } })
                |> journalAppend ⟨t.region, t.slot, false, t.spare, 0⟩

/-- A line of the retirement has been copied, or needs no copy since it was never written; after the last the journal
takes the entry. -/
def retireLineDone (k : Nat) (s : State) : State :=
  match s.med.retire with
  | none => s
  | some t =>
    let t' := { t with done := nsAdd k t.done }
    s |> onMed (fun m => { m with retire := some t' }) |> when (t'.done.length == 16 && !t.storing) retireJournal

/-- Take a spare for a slot and start its retirement, or make the slot dead when no spare is free or the table is full.
A spare that an earlier try has written is cleared first (DEDUCED, log 91). A gap target holds nothing to copy (R157). -/
def beginRetire (r slot : Nat) (gapTarget : Bool) (s : State) : State :=
  let full := xtabFull s && (xentry s r slot).isNone
  match pickSpare s r with
  | none => makeDead r slot s
  | some sp =>
    if full then makeDead r slot s
    else
      let tried := match s.med.retire with | some t => t.tried | none => []
      s |> dropSlotWrites r slot
        |> onMed (fun m => { m with retire := some ⟨r, slot, sp, [], false, gapTarget, tried⟩ })
        |> when (!blockUnwritten s sp) (enqueue (mkDesc .tagClrSpare .background (maBank sp) 0 sp false false))
        |> when gapTarget retireJournal

/-- Start retiring a slot (R155, R156); one retirement runs at a time, and a dead slot stays dead (R170). -/
def startRetire (r slot : Nat) (gapTarget : Bool) (s : State) : State :=
  if (match xentry s r slot with | some e => e.dead | none => false) then s
  else match s.med.retire with
  | some t =>
    if (t.region = r && t.slot = slot) || s.med.retireWait.any (fun x => x.1 == r && x.2.1 == slot) then s
    else onMed (fun m => { m with retireWait := m.retireWait ++ [(r, slot, gapTarget)] }) s
  | none => beginRetire r slot gapTarget s

/-- The next retirement that waits starts. -/
def nextRetire (s : State) : State :=
  match s.med.retire, s.med.retireWait with
  | none, x :: rest => s |> onMed (fun m => { m with retireWait := rest }) |> startRetire x.1 x.2.1 x.2.2
  | _, _ => s

/-- The spare of the running retirement fails: another takes its place, and the copy starts again (R155). -/
def retireAgain (s : State) : State :=
  match s.med.retire with
  | none => s
  | some t =>
    let s1 := s |> onMed (fun m => { m with retire := some { t with tried := nsAdd t.spare t.tried } })
      |> dropOps (fun d => match d.kind with | .retireCopy _ _ _ => true | _ => false)
    let s2 := beginRetire t.region t.slot t.gapTarget s1
    if (s2.med.retire.map (fun x => x.spare)) = some t.spare then s2 |> onMed (fun m => { m with retire := none }) |> nextRetire
    else s2

/-- Copies of the retirement still to be queued (R156), or the next retirement that waits. -/
def feedRetire (s : State) : State :=
  match s.med.retire with
  | none => nextRetire s
  | some t =>
    if t.storing then s
    else
      forEach ((List.range 16).filter (fun k => !nsHas k t.done && !anyOp s (fun d => d.kind == .retireCopy t.region t.slot k))) (fun k s =>
        let ma := slotMa s t.region t.slot + k
        enqueue (mkDesc (.retireCopy t.region t.slot k) .background (maBank ma) (lineInSlot s t.region t.slot k) ma false true) s) s

/-- Is the block of a slot being retired (R156)? -/
def retireHolds (s : State) (r slot : Nat) : Bool :=
  match s.med.retire with | some t => t.region == r && t.slot == slot | none => false

/-- The mapping switches to the spare once the journal page is stored (R156); a gap move's copy starts again into it
(R157). -/
def retireSwitch (s : State) : State :=
  match s.med.retire with
  | none => s
  | some t =>
    s |> onMed (fun m => { m with xtab := xPut ⟨t.region, t.slot, false, t.spare, 0⟩ m.xtab, retire := none })
      |> when t.gapTarget (gapRestart .copying t.region)
      |> when (!t.gapTarget) (clearCopy (extentAt s t.region (blockOfSlot s t.region t.slot)) t.spare)
      |> nextRetire

/-- Is the retirement's journal page, or a later one, still to be stored? -/
def journalUnstored (s : State) : Bool := (List.range 64).any (fun p => pageDirty s (3200 + p))

/-! ### Release (R158 to R161) -/

/-- Is an extent's release pending? -/
def relPendingOf (s : State) (e : Nat) : Bool := bmGet s.med.relPending e

/-- Block `i` of an extent, as MA with LINE = 0 (R25, R158). -/
def extentBlock (s : State) (e i : Nat) : Nat :=
  let x := permute (Config.psi s.med.key (Config.extents s.config)) e
  let j := x / quot s
  let b := 512 * (x % quot s) + i
  let r := 2 * b + j / 229376
  slotMa s r (slotOfBlock s r (j % 229376))

/-- A TAGCLR of an extent's block at `ma`. -/
def clrDesc (e ma : Nat) : Desc := mkDesc (.tagClr e) .background (maBank ma) 0 ma false false

/-- Queue the TAGCLRs of a pending extent, in the order of its blocks, as far as there is room. -/
def feedClr (e : Nat) : Nat → State → State
  | 0, s => s
  | n + 1, s =>
    let i := tabGet 0 s.med.clrNext e
    let d := clrDesc e (extentBlock s e i)
    if i < 512 && (roomFor s d.bank .background).isSome then
      s |> onMed (fun m => { m with clrNext := tabPut e (i + 1) m.clrNext }) |> enqueue d |> feedClr e n
    else s

/-- Every pending extent's TAGCLRs, and those of copies. -/
def feedClrs (s : State) : State :=
  s |> (fun s => forEach s.med.clrLeft (fun x => feedClr x.1 512) s)
    |> onMed (fun m => { m with clrExtra := [] })
    |> forEach s.med.clrExtra (fun x s =>
        if (roomFor s (maBank x.2) .background).isSome then enqueue (clrDesc x.1 x.2) s
        else onMed (fun m => { m with clrExtra := m.clrExtra ++ [x] }) s)

/-- The 512 TAGCLRs of an extent are due, and those that run count too (R158, R159). -/
def queueClrs (e : Nat) (s : State) : State :=
  let runs := (s.sched.banks.filter (fun x => match x.2.tagop with | some d => d.kind == .tagClr e | none => false)).length
  s |> dropOps (fun d => d.kind == .tagClr e)
    |> onMed (fun m => { m with
        relPending := bmSet m.relPending e true, clrLeft := tabPut e (512 + runs) m.clrLeft, clrNext := tabPut e 0 m.clrNext
        clrExtra := m.clrExtra.filter (fun x => x.1 != e) })

/-- A TAGCLR of an extent has completed; after the last the release-pending bit clears (R158). -/
def clrDone (e : Nat) (s : State) : State :=
  let left := tabGet 0 s.med.clrLeft e - 1
  if left = 0 then
    onMed (fun m => { m with
      clrLeft := tabDel e m.clrLeft, clrNext := tabDel e m.clrNext, relPending := bmSet m.relPending e false }) s
  else onMed (fun m => { m with clrLeft := tabPut e left m.clrLeft }) s

/-- The dies of the configuration, as wheel × 8 + die. -/
def allDies (s : State) : List Nat := List.range (8 * Config.wheels s.config)

/-- TAGCLR of every bank goes to every die (R161). -/
def clearDies (s : State) : State :=
  s |> dropOps (fun d => match d.kind with | .tagClr _ => true | _ => false)
    |> onMed (fun m => { m with clrDies := allDies s, clrLeft := [], clrNext := [], clrExtra := [] })
    |> forEach (allDies s) (fun k s => sendDie 7 (k / 8) (k % 8) 0 0 255 s)

/-- The TAGCLRs of every release-pending extent are queued again (R159); while every extent is pending, as a crypto erase
leaves them, each die clears as a whole (log 12). -/
def requeueClrs (s : State) : State :=
  if s.med.relPending.base then clearDies s else forEach s.med.relPending.flips queueClrs s

/-- A die has cleared as a whole; after the last no extent is pending (R161). -/
def dieCleared (w d : Nat) (s : State) : State :=
  let left := nsDel (w * 8 + d) s.med.clrDies
  s |> clearDie w d
    |> onMed (fun m => { m with clrDies := left, relPending := if left.isEmpty then bmEmpty else m.relPending })

/-! ### Cache lines of released extents (R76) -/

/-- A locked line that lay in an overflow slot takes an eligible way, with zeros; without one the scrub brings it back (R66,
R77). -/
def zeroLocked (line : Nat) (s : State) : State :=
  match victim s (wheelOf s line) (setOf s line) with
  | some loc => s |> placeWay loc line 15 0 false zeroLine |> setWay loc { wayAt s loc with line := line, sv := 15, v := true, l := true }
  | none => s

/-- A cache line of extent `e` is dropped, or when locked becomes a clean line of zeros. -/
def releaseLoc (e loc : Nat) (s : State) : State :=
  let line := locLine s loc
  let live := if locOvf loc then (ovfAt s loc).used else (wayAt s loc).v && !locScratch s loc
  if !live || extentOf line != e then s
  else if !onLockList s line then dropLoc loc s
  else if locOvf loc then s |> dropLoc loc |> zeroLocked line
  else s |> setDir loc dirReset |> setWay loc { wayAt s loc with sv := 15, sp := 0, d := false, p := false, data := zeroLine }

/-- Every cached line of an extent, and the stores that wait for its programs. -/
def releaseLines (e : Nat) (s : State) : State :=
  s |> forEach (s.cache.ways.map (fun x => wayLoc (x.1 / 65536) (x.1 % 65536 / 16) (x.1 % 16))) (releaseLoc e)
    |> forEach (s.cache.ovf.map (fun x => ovfLoc (x.1 / 512) (x.1 % 512))) (releaseLoc e)
    |> onSched (fun q => { q with ctxs := q.ctxs.map (fun c =>
        if c.st = .program && extentOf (lineOf c.dpa) = e then { c with st := .respond } else c) })

/-- Release one extent (R158): its bits, its cache lines, and its 512 TAGCLRs. -/
def releaseExtent (e : Nat) (s : State) : State :=
  s |> releaseLines e
    |> dropOps (fun d => match d.kind with
        | .writeBack _ => extentOf d.line == e
        | .rewrite => extentOf d.line == e
        | _ => false)
    |> queueClrs e
    |> onMed (fun m => { m with released := bmSet m.released e true
                                restoreLeft := m.restoreLeft.filter (fun l => extentOf l != e)
                                held := m.held.filter (fun l => extentOf l != e) })

/-! ### Checkpoints (R140, R147, R169) -/

/-- A checkpoint slot. -/
def ckptAt (s : State) (i : Nat) : Ckpt := tabGet ckptReset s.med.ckpts i

/-- The slot a new checkpoint of a kind goes to: that of its pair which does not hold the newest sealed one (R147). -/
def ckptSlot (s : State) (kind : Nat) : Nat :=
  let b := if kind = 1 || kind = 4 then 0 else 2
  let x := ckptAt s b
  let y := ckptAt s (b + 1)
  if x.sealed && (!y.sealed || y.seq < x.seq) then b + 1 else b

/-- The body as it stands (R169). -/
def bodyNow (s : State) : CkptBody :=
  { released := s.med.released, relPending := s.med.relPending, xtab := s.med.xtab, counts := s.med.counts
    drift := s.med.drift, patrolWheel := s.med.patrol.wheel, patrolRegion := s.med.patrol.region
    patrolSlot := s.med.patrol.slot, pe := s.med.pe
    liveArea := match s.med.liveArea with | some a => a | none => 255
    restoreMap := s.med.restoreLeft }

/-- Take the next checkpoint number: the sequence counter is updated and stored (R306, R307). -/
def takeCkptSeq (s : State) : State :=
  let n := s.med.ckptSeq + 1
  s |> onMed (fun m => { m with ckptSeq := n }) |> ctrUpdate ctrCkpt (n % 2 ^ 32)

/-! ### The lines of the drain index and of a checkpoint (R139, R140, R147, R169) -/

/-- A drain slot's index entry (R139). -/
def indexEntry (x : DrainSlot) : Nat :=
  if x.v then
    x.line % 2 ^ 34 + x.sv.toNat * 2 ^ 34 + x.sp.toNat * 2 ^ 38 + x.scr.toNat * 2 ^ 42 + x.pin.toNat * 2 ^ 43 + 2 ^ 44
  else 0

/-- Index line `k` of wheel `w` as this drain writes it. -/
def indexNow (s : State) (w k : Nat) : IndexLine :=
  ⟨s.fw.seq, (List.range 28).map (fun j => indexEntry (tabGet drainReset s.med.drain ((s.fw.area * 16 + w) * 67584 + 28 * k + j)))⟩

/-- Its 256 bytes. -/
def indexBytes (w k : Nat) (x : IndexLine) : List Byte :=
  let body := leBytes 4 0x58444944 ++ leBytes 4 x.seq ++ leBytes 1 w ++ leBytes 1 (x.entries.filter (fun e => e / 2 ^ 44 % 2 = 1)).length
    ++ leBytes 2 k ++ leBytes 4 0 ++ x.entries.flatMap (leBytes 8) ++ leBytes 12 0
  body ++ leBytes 4 (crc32 body)

/-- A line's bytes, filled up with zeros. -/
def padLine (bs : List Byte) : List Byte := bs.take 256 ++ List.replicate (256 - bs.length) 0

/-- Line `k` of a bit list. -/
def bitLine (get : Nat → Bool) (k : Nat) : List Byte :=
  (List.range 256).map (fun j => BitVec.ofNat 8 ((List.range 8).map (fun i => (get (k * 2048 + j * 8 + i)).toNat * 2 ^ i)).sum)

/-- Has patrol's present pass done a region (R162)? -/
def patrolDone (s : State) (b : CkptBody) (r : Nat) : Bool :=
  let w := wheelOfBank s (r / 2)
  decide (w < b.patrolWheel) || (w == b.patrolWheel && decide (r < b.patrolRegion))

/-- Byte `o` of the drift tables: per die 60 sets of REF and DELTA, learned and from the factory (R167, R169). -/
def driftByte (s : State) (b : CkptBody) (o : Nat) : Byte :=
  let die := o / 240
  let i := o % 240 / 4
  let f := factorySet s (die / 8) (die % 8) (i / 15) (i / 3 % 5) (i % 3)
  let x := tabGet driftReset b.drift (driftKey (die / 8) (die % 8) (i / 15) (i / 3 % 5) (i % 3))
  BitVec.ofNat 8 (match o % 4 with
    | 0 => if x.delta = 0 then f.1 else x.ref
    | 1 => if x.delta = 0 then f.2 else x.delta
    | 2 => f.1
    | _ => f.2)

/-- The sections of a body after its header: their line counts and lines (R169). The S416's counts go with the wheels, and the
places within a line that the manual does not give are the model's (log 89). -/
def bodySections (s : State) (c : Ckpt) : List (Nat × (Nat → List Byte)) :=
  let b := c.body
  let w := Config.wheels s.config
  let bit (i : Nat) : Bool :=
    let x := tabGet drainReset s.med.drain ((b.liveArea * 16 + i / 67584) * 67584 + i % 67584)
    b.liveArea != 255 && x.v && nsHas x.line b.restoreMap
  [(64 * w, bitLine (bmGet b.released)), (64 * w, bitLine (bmGet b.relPending)),
   ((b.xtab.length + 15) / 16, fun k => padLine (((b.xtab.drop (16 * k)).take 16).flatMap xBytes)),
   (8 * w, fun k => (List.range 32).flatMap (fun i =>
      leBytes 1 (tabGet 0 b.counts (32 * k + i)) ++ leBytes 1 (patrolDone s b (32 * k + i)).toNat ++ leBytes 6 0)),
   (15 * w / 2, fun k => (List.range 256).map (fun j => driftByte s b (256 * k + j))),
   (1, fun _ => padLine (leBytes 4 b.patrolWheel ++ leBytes 4 b.patrolRegion ++ leBytes 4 b.patrolSlot ++ leBytes 4 b.pe)),
   (1, fun _ => padLine (leBytes 1 b.liveArea)), (33 * w, bitLine bit)]

/-- Line `n` of sections. -/
def sectionLine : List (Nat × (Nat → List Byte)) → Nat → List Byte
  | [], _ => padLine []
  | x :: t, n => if n < x.1 then x.2 n else sectionLine t (n - x.1)

/-- The lines of a body: the header and its sections. -/
def bodyLines (s : State) (c : Ckpt) : Nat := 1 + ((bodySections s c).map (fun x => x.1)).sum

/-- Body line `n`. -/
def bodyLine (s : State) (c : Ckpt) (n : Nat) : List Byte :=
  let xs := bodySections s c
  if n = 0 then padLine (leBytes 4 0x59444F42 ++ leBytes 4 c.seq ++ leBytes 4 c.kind ++ xs.flatMap (fun x => leBytes 4 x.1))
  else sectionLine xs (n - 1)

/-- The index lines of a checkpoint: key and content. -/
def ckptIndex (s : State) (c : Ckpt) : Tab IndexLine :=
  s.med.index.filter (fun x => (c.kind == 2 || c.kind == 3) && x.1 / 65536 == c.area && x.2.seq == c.seq)

/-- The seal block of a checkpoint (R140): DIGEST is SHA-256 over the body and the index lines. -/
def sealBytes (s : State) (c : Ckpt) : List Byte :=
  let text := (List.range (bodyLines s c)).flatMap (bodyLine s c)
    ++ (ckptIndex s c).flatMap (fun x => indexBytes (x.1 / 4096 % 16) (x.1 % 4096) x.2)
  let body := leBytes 4 0x4C414553 ++ leBytes 4 c.seq ++ leBytes 1 c.kind ++ leBytes 1 c.area ++ leBytes 2 0 ++ leBytes 4 c.indexLines
    ++ leBytes 4 c.drained ++ leBytes 8 c.gtcTrip ++ leBytes 4 c.eNeed ++ sha256 text ++ leBytes 4 c.dsc ++ leBytes 184 0
  body ++ leBytes 4 (crc32 body)

/-! ### Writing a checkpoint (R140, R147, R169) -/

/-- Begin a checkpoint: its body is written first, line by line. -/
def writeCkpt (kind area : Nat) (s : State) : State :=
  let drain := kind = 2 || kind = 3
  let slot := ckptSlot s kind
  let c0 : Ckpt :=
    { seq := s.med.ckptSeq, kind := kind, area := area, indexLines := 0, drained := if drain then s.fw.drained else 0
      gtcTrip := if drain then s.fw.t0 else 0, eNeed := if drain then s.fw.eNeed else 0
      dsc := s.life.dsc, sealed := false, body := bodyNow s }
  let c := { c0 with indexLines := (ckptIndex s c0).length }
  onMed (fun m => { m with ckpts := tabSet ckptReset slot c m.ckpts, ckptNow := some ⟨slot, 0, bodyLines s c⟩ }) s

/-- The class that a checkpoint's lines are written in. -/
def ckptClass (c : Ckpt) : OpClass := if c.kind = 2 || c.kind = 3 then .drain else .background

/-- Queue up to `n` body lines as far as there is room. -/
def feedBody (x : CkptWrite) (c : Ckpt) : Nat → State → State
  | 0, s => s
  | n + 1, s =>
    match s.med.ckptNow with
    | none => s
    | some y =>
      let ma := bodyMa s x.slot y.next
      if y.next < bodyLines s c && (roomFor s (maBank ma) (ckptClass c)).isSome then
        s |> onMed (fun m => { m with ckptNow := some { y with next := y.next + 1 } })
          |> enqueue (mkDesc (.bodyLine x.slot y.next) (ckptClass c) (maBank ma) 0 ma true false) |> feedBody x c n
      else s

/-- Is a checkpoint being written? -/
def ckptBusy (s : State) : Bool := s.med.ckptNow.isSome

/-- The checkpoint that is being written goes on: 64 lines of its body a tick (DESIGN CHOICE, log 89), and its seal block after the
last has verified (R140). -/
def feedCkpt (s : State) : State :=
  match s.med.ckptNow with
  | none => s
  | some x =>
    let c := ckptAt s x.slot
    if x.left = 0 && !anyOp s (fun d => d.kind == .seal x.slot) then
      enqueue (mkDesc (.seal x.slot) (ckptClass c) (maBank (sealMa s x.slot)) 0 (sealMa s x.slot) true false) s
    else feedBody x c 64 s

/-- A body line has verified. -/
def bodyLineDone (slot : Nat) (s : State) : State :=
  match s.med.ckptNow with
  | some x => if x.slot = slot then s |> onMed (fun m => { m with ckptNow := some { x with left := x.left - 1 } }) else s
  | none => s

/-- A KIND 1 checkpoint is due (R169). -/
def dueCkpt (s : State) : State := onMed (fun m => { m with ckptDue := true }) s

/-- A due KIND 1 checkpoint is written in the background of SERVICE. -/
def serviceCkpt (s : State) : State :=
  if s.med.ckptDue && inService s && !ckptBusy s then
    s |> onMed (fun m => { m with ckptDue := false }) |> takeCkptSeq |> writeCkpt 1 255
  else s

/-- A KIND 4 checkpoint names the area it retires, once every unwritten restored line is home (R141). -/
def retireArea (s : State) : State :=
  match s.med.liveArea with
  | some a => if s.med.restoreLeft.isEmpty && !ckptBusy s then s |> takeCkptSeq |> writeCkpt 4 a else s
  | none => s

/-- HUB_CKPT's image (R181, R306). -/
def ckptImage (seq kind slot : Nat) : Nat := seq % 2 ^ 24 + kind * 2 ^ 24 + slot * 2 ^ 27

/-! ### Patrol's visit (R162) -/

/-- Senses of patrol's visit that are still to be queued. -/
def feedPatrol (s : State) : State :=
  match s.med.patrol.visit with
  | none => s
  | some v =>
    let ma := slotMa s v.region v.slot
    forEach (v.left.filter (fun k => !anyOp s (fun d => d.kind == .patrolRead v.region v.slot k))) (fun k s =>
      enqueue (mkDesc (.patrolRead v.region v.slot k) .background (maBank ma) (lineInSlot s v.region v.slot k) (ma + k) false true) s) s

/-! ### Write-back (R88, R128, R141, R156, R159, R171) -/

/-- Is the write-back of a line held: by a gap move, a retirement, a pending release, or a live drain area? Lines of
dead slots are never written back. -/
def writeBackHeld (s : State) (line : Nat) : Bool :=
  let p := placeOf s line
  let slot := slotOfBlock s p.region p.lblock
  lineDead s line || gapHolds s p.region slot || retireHolds s p.region slot
    || (lineReleased s line && relPendingOf s (extentOf line)) || nsHas line s.med.held

/-- Ways that the carve-out waiting in SCRATCH_NEXT takes beyond the one in effect (R80). -/
def joining (s : State) (loc : Nat) : Bool :=
  let n := 4 * (15 - locWay loc) + locSet loc / 1024
  s.config = .s416 && !locOvf loc && decide (scratchSteps s ≤ n) && decide (n < fget s F.CCH_MODE_SCRATCH_NEXT 0)

/-- May the write-back of a location be queued in the mode: in SERVICE and MAINTENANCE, and before SERVICE is entered for
ways that join scratch (R80, R184)? -/
def writesBack (s : State) (loc : Nat) : Bool :=
  inService s || (s.mode = .recover && s.life.step = .store && joining s loc)

/-- Queue the write-back of the dirty line at a directory location. A locked line in an overflow slot waits for its way, since its
write-back would take it out of the cache (R66, R74). -/
def queueWriteBack (loc : Nat) (s : State) : State :=
  let line := locLine s loc
  let d := dirAt s loc
  if !d.dv || d.scr || d.p || !writesBack s loc || writeBackHeld s line || (locOvf loc && onLockList s line) || anyOp s (fun x => match x.kind with | .writeBack _ => x.line == line | _ => false) then s
  else
    let ma := maOf s line
    enqueue (mkDesc (.writeBack loc) (if nsHas line s.cache.flush then .background else .write) (maBank ma) line ma false
      (locSv s loc != 15)) s

/-- Every dirty line that may be written back is queued as far as there is room. -/
def feedWriteBacks (s : State) : State :=
  forEach (s.cache.dir.map (fun x => x.1)) queueWriteBack s

/-- The data a program takes as it starts: a write-back takes its valid sectors from the cache (R88). -/
def fillProgram (s : State) (d : Desc) : Desc :=
  match d.kind with
  | .writeBack _ =>
    (match locate s d.line with
     | some loc =>
       let sv := locSv s loc
       { d with data := lineMerge sv (locData s loc) d.data, sp := (locSp s loc &&& sv) ||| (d.sp &&& ~~~sv) }
     | none => d)
  | .drainLine loc _ _ => { d with data := locData s loc, sp := locSp s loc }
  | .seal slot => { d with data := lineOfBytes (sealBytes s (ckptAt s slot)) }
  | .bodyLine slot n => { d with data := lineOfBytes (bodyLine s (ckptAt s slot) n) }
  | .indexLine w k => { d with data := lineOfBytes (indexBytes w k (indexNow s w k)) }
  | .restoreHome key =>
    let x := tabGet drainReset s.med.drain key
    if nsHas key s.life.badKeys then { d with data := zeroLine, sp := 15 }
    else { d with data := lineMerge x.sv x.data d.data, sp := (x.sp &&& x.sv) ||| (d.sp &&& ~~~x.sv) }
  | _ => d

/-- The bank gates start what they may (R18, R95). -/
def gates (s : State) : State := gatesWith fillProgram s

/-- Do the cached valid sectors of a line equal what was programmed? -/
def sameAsProgrammed (s : State) (loc : Nat) (d : Desc) : Bool :=
  let sv := locSv s loc
  lineMerge sv (locData s loc) d.data == d.data && ((locSp s loc ^^^ d.sp) &&& sv) == 0

/-- Stores that the write-back of a descriptor carries are acknowledged (R50, R128). -/
def ackProgram (id : Nat) (s : State) : State :=
  onSched (fun q => { q with ctxs := q.ctxs.map (fun c =>
    if c.st = .program && c.carried = id + 1 then { c with st := .respond } else c) }) s

/-- A rewrite that has not started is dropped when its line has become dirty: the write-back rewrites it
(R162, R180); a write-back whose line is no longer dirty, because it was released, is dropped too (R76). -/
def dropStale (s : State) : State :=
  let dirty (line : Nat) : Bool := match locate s line with | some loc => locDirty s loc | none => false
  let stale (d : Desc) : Bool := match d.kind with
    | .rewrite => dirty d.line
    | .writeBack _ => !dirty d.line
    | _ => false
  dropOps stale s

/-- Life Used (R54): the greater of the endurance consumed and the share of spares consumed, in per cent. -/
def lifeUsed (s : State) : Nat :=
  let units := ((List.range (Config.wheels s.config)).map (fun w => (ctrValue s (ctrLife w)).getD 0)).sum
  let wheelUse (w : Nat) : Nat :=
    (s.med.xtab.filter (fun e => !e.dead && bankWheel (maBank e.spare) == w)).length * 100
      / (Config.spareRows * (Config.regions s.config / Config.wheels s.config))
  let spares := max (s.med.xtab.length * 100 / Config.xtabSize s.config)
    (((List.range (Config.wheels s.config)).map wheelUse).foldl max 0)
  min 100 (max (Config.endurancePct units).val spares)

/-- Life used crosses a multiple of 10 % (R53). -/
def lifeCheck (s : State) : State :=
  let d := lifeUsed s / 10
  if s.host.lifeDecade < d then
    s |> onHost (fun h => { h with lifeDecade := d }) |> postModule 0 2 4 srcHub
  else s

/-- The background work of a tick that waits for queue room. -/
def feedMedia (s : State) : State :=
  if inService s then
    s |> hubWorks |> owedGaps |> feedWait |> (fun s => forEach s.med.gaps (fun x s => feedGap x.1 x.2 s) s)
      |> feedRetire |> feedClrs |> feedPatrol
      |> serviceCkpt |> retireArea |> dropStale |> feedWriteBacks |> lifeCheck
  else if s.mode = .recover then s |> feedWait |> feedClrs |> feedWriteBacks
  else s

end Sys2Proof.Machine
end

