-- ==== Sys2Proof/Machine/Tandem.lean ====
section
/-! DEFINITION. The tandem's shared operations (R318 to R327): mirror regions, mirrored stores, and the loss of the link. -/
namespace Sys2Proof.Machine

/-- The mirror region of a line (R319). -/
def mirrorRegion (line : Nat) : Nat := line / 4194304

/-- Is the device a tandem member? -/
def tndEn (s : State) : Bool := fon s F.TND_CFG_EN 0

/-- Is the tandem link up? -/
def tndUp (s : State) : Bool := fget s F.TND_STATUS_LINK 0 = 3

/-- Does a line lie in one of the device's mirrored regions? -/
def lineMirrored (s : State) (line : Nat) : Bool := tndEn s && nsHas (mirrorRegion line) s.tnd.own

/-- Does a line lie in the mirror store (R319)? -/
def lineInStore (s : State) (line : Nat) : Bool :=
  tndEn s && decide (fget s F.TND_CFG_MIRROR_BASE 0 ≤ mirrorRegion line) && decide (line < persLines s)

/-- Is a host store to the line answered as one to unbacked scratch: a mirror store not promoted, or a region held or
demoted (R319, R325, R326)? A holder that has restarted and has not yet heard which regions its copy holds takes every slot
for one of them (log 41). -/
def storeBarred (s : State) (line : Nat) : Bool :=
  (lineInStore s line
      && !(s.tnd.promoted && (s.tnd.peerRegions.isEmpty
        || decide (mirrorRegion line - fget s F.TND_CFG_MIRROR_BASE 0 < s.tnd.peerRegions.length))))
    || (lineMirrored s line && fget s F.TND_STATUS_OWN 0 != 0)
    || (lineMirrored s line && fget s F.TND_STATUS_LINK 0 = 6)

/-- The slot of a mirrored region in the partner's mirror store: its place among the regions, ascending (R319). -/
def slotOfRegion (regions : NSet) (m : Nat) : Nat := (regions.filter (fun x => decide (x < m))).length

/-- The state fields of TND_STATUS are stored (R318). -/
def storeTndState (s : State) : State :=
  sbStore (homeTnd + 12) (leBytes 4
    (fget s F.TND_STATUS_PEER_COPY 0 * 8 + fget s F.TND_STATUS_OWN 0 * 32 + fget s F.TND_STATUS_DIVERGED 0 * 128
      + fget s F.TND_STATUS_PARTNER 0 * 512)) s

/-- Set a state field of TND_STATUS and store it. -/
def setTnd (f : Fld) (v : Nat) (s : State) : State :=
  if fget s f 0 = v then s else s |> fput f 0 v |> storeTndState

/-- At each entry to SERVICE the own regions are held until the partner's state is known (R325). -/
def holdOwn (s : State) : State :=
  if tndEn s && !s.tnd.own.isEmpty && fget s F.TND_STATUS_OWN 0 == 0 && !tndUp s then setTnd F.TND_STATUS_OWN 1 s else s

/-- Is an extent divergent? -/
def extentDivergent (s : State) (e : Nat) : Bool := s.tnd.divergeAll || nsHas e s.tnd.divergent

/-- Mark a line's extent divergent (R323). -/
def markDivergent (line : Nat) (s : State) : State :=
  s |> onTnd (fun t => { t with divergent := nsAdd (extentOf line) t.divergent }) |> setTnd F.TND_STATUS_DIVERGED 1

/-- The message of a mirrored sector (R320). -/
def mwrOf (s : State) (tag : BitVec 16) (line sector : Nat) (data : Sector) : MwrMsg :=
  { sect := BitVec.ofNat 8 sector, tag := tag, slot := BitVec.ofNat 16 (slotOfRegion s.tnd.own (mirrorRegion line))
    line := BitVec.ofNat 32 (line % 4194304), data := data }

/-- Must the store be mirrored now: its region is mirrored, the device is its primary, and the link is up (R322)? -/
def mustMirror (s : State) (line : Nat) : Bool := lineMirrored s line && tndUp s && fget s F.TND_STATUS_OWN 0 = 0

/-- Send the MWR of a store that has been written locally: it uses a set-aside credit (R321, R322). -/
def sendMwr (c : Ctx) (data : Sector) (s : State) : State :=
  s |> emit (.tandem (.mwr (mwrOf s c.tag (lineOf c.dpa) (sectorOf c.dpa) data)))
    |> fput F.TND_CREDIT_HELD 0 (fget s F.TND_CREDIT_HELD 0 - 1)
    |> onTnd (fun t => { t with reserved := t.reserved - 1, waiting := t.waiting ++ [(c.tag, lineOf c.dpa, c.arrival + 440)] })

/-- A store to a mirrored region outside the mirror protocol makes its extent divergent (R323). -/
def unmirrored (line : Nat) (s : State) : State :=
  if lineMirrored s line && !tndUp s then markDivergent line s else s

/-- An unmirrored store hands its set-aside mirror credit back (R321). -/
def handBack (s : State) : State :=
  if tndUp s && !s.tnd.own.isEmpty then onTnd (fun t => { t with reserved := t.reserved - 1 }) s else s

/-- A mirrored store is acknowledged: it leaves MIRROR (R322, R323). -/
def ackMirror (tag : BitVec 16) (s : State) : State :=
  s |> onCtx tag (fun c => if c.st = .mirror then { c with st := .respond } else c)
    |> onTnd (fun t => { t with waiting := t.waiting.filter (fun w => w.1 != tag) })

/-- The link is lost (R323): pending stores are acknowledged and their extents marked, the port idles, the copy held for
the partner becomes read-only, and the loss is recorded. -/
def loseLink (s : State) : State :=
  let w := s.tnd.waiting
  let copy := fget s F.TND_STATUS_PEER_COPY 0
  s |> forEach w (fun x s => s |> markDivergent x.2.1 |> ackMirror x.1)
    |> fput F.TND_STATUS_LINK 0 4 |> fset F.TND_ERR_LINK_LOST 0
    |> fclr F.TND_STATUS_RESYNC 0 |> fclr F.TND_CREDIT_HELD 0 |> fclr F.TND_CREDIT_GRANTED 0
    |> setTnd F.TND_STATUS_PEER_COPY (if copy = 0 || copy = 3 then copy else if s.tnd.lastQuiesce then 1 else 2)
    |> onTnd (fun t => { t with idle := true, idleAt := s.gtc, reserved := 0, resync := [], mwrSince := [], toSend := [], sending := [], configSent := false
                                configGood := false, waiting := [] })
    |> emit .tandemIdle |> land 0x0D 6 srcTandem 0 none |> postOrQueue 1 1 0 0 6 srcTandem

/-- Mirror credits granted count in N_dirty (R117, R321). -/
def mirrorCredits (s : State) : Nat := fget s F.TND_CREDIT_GRANTED 0

end Sys2Proof.Machine
end

