-- ==== Sys2Proof/Machine/Host.lean ====
section
/-! DEFINITION. The host port's shared operations (chapters 02 and 03): answers, lookups with what the arrays read as,
stores into the cache, fills, and aborts. -/
namespace Sys2Proof.Machine

/-! ### CXL RAS (R41, R52) -/

/-- A RAS status bit is set and reported through AER; vector 7 tells the host of the change. -/
def rasReport (bit cls : Nat) (s : State) : State :=
  s |> onHost (fun h => { h with ras := nsAdd bit h.ras }) |> when s.host.linkUp (emit (.aer cls)) |> msix 7

/-! ### Open data -/

/-- A sector of open data: what a poisoned answer carries where the manual gives no data (log 6). -/
def freeSector (s : State) (i : Nat) : Sector := BitVec.ofNat 512 (Config.freeNat (s.freeIx + i))

/-- A line of open data; the counter must advance by four. -/
def freeLine (s : State) : Line := ⟨freeSector s 0, freeSector s 1, freeSector s 2, freeSector s 3⟩

/-- Advance the counter past a line. -/
def useFreeLine (s : State) : State := { s with freeIx := s.freeIx + 4 }

/-! ### Contexts and answers (R43, R47, R49, R91) -/

/-- Is a host request received at all: the core is powered, the link is up with CXL.mem enabled, and not quiesced? -/
def memLink (s : State) : Bool :=
  coreOn s && s.host.linkUp && fon s F.HPT_LINK_STATUS_MEM_ENABLED 0 && !s.host.quiesced

/-- A new context (R89, R91). -/
def newCtx (op : CtxOp) (tag : BitVec 16) (hpa dpa t deadline : Nat) : Ctx :=
  { tag := tag, op := op, hpa := hpa, dpa := dpa, ma := 0, st := .decode, arrival := t, deadline := t + deadline, ahead := 0
    displaced := 0, waited := false, reissued := false, ready := 0, window := 0, data := 0, be := 0, poisonIn := false
    rdata := 0, rpoison := false, served := false, creditBack := false, mute := false, carried := 0 }

/-- A context's response is ready. -/
def respond (tag : BitVec 16) (data : Sector) (poison : Bool) (s : State) : State :=
  onCtx tag (fun c => { c with st := .respond, rdata := data, rpoison := poison }) s

/-- A load answered without lookup: all-ones data with poison (R43, R47, R49). -/
def answerLoad (op : CtxOp) (tag : BitVec 16) (hpa t : Nat) (s : State) : State :=
  s |> addCtx { newCtx op tag hpa 0 t 480 with st := .respond, rdata := allOnes, rpoison := true }

/-- A store completed with Cmp and discarded. -/
def answerStore (op : CtxOp) (tag : BitVec 16) (hpa t : Nat) (back : Bool) (s : State) : State :=
  s |> addCtx { newCtx op tag hpa 0 t 90 with st := .respond, creditBack := back }

/-- Are requests that meet a mode answered under R49? -/
def refusesIn (m : Mode) : Bool := m = .ramp || m = .recover || m = .maintenance || m = .brake

/-- Is a load stamped `t` answered under R49: by the mode it meets, in BRAKE whenever it came (R60), and after viral at a
brake (R52)? -/
def refusesLoad (t : Nat) (s : State) : Bool := refusesIn (modeAt t s) || s.mode = .brake || s.host.viralBrake

/-- Is a store? One stamped before the tick of a brake is still served (R60, R204); none is once viral has been sent or
received (R52). -/
def refusesStore (t : Nat) (s : State) : Bool :=
  refusesIn (modeAt t s) || s.host.viralBrake || fon s F.HPT_LINK_STATUS_VIRAL_RX 0

/-- Is every context in use? Within the credits of R48 none ever is (R89). -/
def ctxFull (s : State) : Bool := decide (Config.contexts ≤ s.sched.ctxs.length)

/-- A request uses a Req credit of the host (R48). -/
def takeReq (s : State) : State := onHost (fun h => { h with reqOut := h.reqOut - 1 }) s

/-- A Req credit goes back (R48, R89). -/
def giveReq (s : State) : State := s |> onHost (fun h => { h with reqOut := min Config.reqCredits (h.reqOut + 1) }) |> emit (.reqCredits 1)

/-- T+1 of a trip or a brake has passed: nothing waits for a program any more (R30). -/
def tripPassed (s : State) : Bool := (s.mode = .freewheel || s.mode = .brake) && s.fw.stage != .t0

/-- Count a refused request (R49). -/
def countRefused (s : State) : State := s |> finc F.HPT_MAINT_REFUSED_COUNT 0 |> fset F.HPT_ERR_STATUS_REFUSED 0

/-- Count a request that no decoder holds (R47). -/
def countMiss (s : State) : State := s |> finc F.HPT_DECODE_MISS_COUNT 0 |> fset F.HPT_ERR_STATUS_DECODE_MISS 0

/-- A DPA above the persistent partition that no scratch backs (R43). -/
def unbacked (s : State) (dpa : Nat) : Bool := decide (Config.capacity s.config ≤ dpa) && !scratchBacked s dpa

/-! ### Looking a line up (R64, R70) -/

/-- What the arrays' findings leave behind: the state, and whether a dirty line has lost both tag and directory word
(R73). -/
structure Found where
  st : State
  lost : Bool
  /-- slice, set and way of the loss -/
  loc : Nat

/-- The tag of a way is rebuilt from its directory entry (R70): LINE, SV, SP, P, with V = 1 and D = 1. The lock bit comes
from the lock list (DEDUCED, log 21). -/
def rebuildTag (loc : Nat) (s : State) : State :=
  let d := dirAt s loc
  setWay loc { wayAt s loc with line := d.line, sv := d.sv, sp := d.sp, v := true, d := true, l := onLockList s d.line, p := d.p } s

/-- A directory word is corrected, or rebuilt (R70). -/
def dirErr (loc : Nat) (s : State) : State := let n := locSlice loc; s |> fset F.CCHn_ERR_DIR_ERR n |> lastErr loc 5

/-- A tag parity error at a way (R70). A line that has lost its directory word too is gone: the location holds it no more
(R73). -/
def tagParity (loc : Nat) (dir : DirCheck) (s : State) : Found :=
  let n := locSlice loc
  if locScratch s loc then ⟨s, false, loc⟩
  else
    let s0 := s |> finc F.CCHn_TAGPAR_COUNT n |> when (dir == .corrected) (dirErr loc)
    let out : State → State := fun s => s |> dropLoc loc |> setWay loc { emptyWay (wayAt s loc) with off := true }
    if (dirAt s loc).dv then
      if dir = .bad then ⟨s0 |> out |> fset F.CCHn_ERR_DIR_LOST n |> lastErr loc 6, true, loc⟩
      else
        ⟨s0 |> rebuildTag loc |> finc F.CCHn_TAGREBUILD_COUNT n |> fset F.CCHn_ERR_TAGPAR_DIRTY n |> lastErr loc 4, false, loc⟩
    else ⟨s0 |> out |> fset F.CCHn_ERR_TAGPAR_CLEAN n |> lastErr loc 3, false, loc⟩

/-- An uncorrectable directory word at a way whose tag is good: the entry is rebuilt from the tag (R70). -/
def dirWordErr (loc : Nat) (s : State) : State :=
  let w := wayAt s loc
  s |> when (w.d || locScratch s loc) (setDir loc ⟨w.line, w.sv, w.sp, w.p, locScratch s loc, true, (dirAt s loc).ma⟩)
    |> dirErr loc

/-- A single-bit data error is corrected (R70). -/
def secErr (loc : Nat) (s : State) : State :=
  let n := locSlice loc
  s |> finc F.CCHn_SEC_COUNT n |> fset F.CCHn_ERR_SEC n |> lastErr loc 0
    |> onHost (fun h => { h with corrVolatile := h.corrVolatile + 1 })

/-- A double-bit data error of a sector (R70): a clean line is dropped; of a dirty or scratch line the sector is
poisoned, listed and reported with the transaction type `sub`. -/
def dedErr (loc sector sub : Nat) (s : State) : State :=
  let n := locSlice loc
  let dpaLine := locLine s loc
  if locDirty s loc || locScratch s loc then
    let s1 := s |> finc F.CCHn_DED_COUNT n
    let d := lineSet (locData s loc) sector (freeSector s 0)
    s1 |> setLoc loc (locSv s loc) (locSp s loc ||| bit4 sector) d |> useFree
       |> addPoisonLine dpaLine sub |> postOrQueue 2 0 sub (dpaLine * 256) 4 (srcWheel n)
       |> fset F.CCHn_ERR_DED_DIRTY n |> lastErr loc 2
  else s |> finc F.CCHn_DED_COUNT n |> dropLoc loc |> fset F.CCHn_ERR_DED_CLEAN n |> lastErr loc 1

/-- A corrected error of the port's own buffers (R52). -/
def portSec (s : State) : State :=
  rasReport 5 0 s

/-- What a lookup of set `set` of slice `sl` finds in its tags and directory (R70). -/
def lookupCheck (sl set : Nat) (chk : ArrayCheck) (s : State) : Found :=
  match chk with
  | .tagPar w dir => tagParity (wayLoc sl set w.val) dir s
  | .dirSec w => ⟨dirErr (wayLoc sl set w.val) s, false, 0⟩
  | .dirWord w => ⟨dirWordErr (wayLoc sl set w.val) s, false, 0⟩
  | .portSec => ⟨portSec s, false, 0⟩
  | .clean => ⟨s, false, 0⟩
  | .sec => ⟨s, false, 0⟩
  | .ded => ⟨s, false, 0⟩

/-- What reading a sector at a location finds in its data (R70). -/
def dataCheck (loc sector : Nat) (chk : ArrayCheck) (s : State) : State :=
  match chk with
  | .sec => secErr loc s
  | .ded => dedErr loc sector 1 s
  | _ => s

/-! ### Poison list upkeep (R51) -/

/-- A line whose sectors are all valid and none poisoned leaves the poison list (DEDUCED, log 22). -/
def unlistPoison (line : Nat) (sv sp : BitVec 4) (s : State) : State :=
  if sv = 15 && sp = 0 then
    onHost (fun h => { h with poisonList := h.poisonList.filter (fun r => !(r.dpa == line * 256 && r.len == 4)) }) s
  else s

/-! ### Stores into the cache (R50, R64, R66, R69, R171) -/

/-- The store's sector in the line at a location. -/
def writeSector (loc sector : Nat) (data : Sector) (poison : Bool) (s : State) : State :=
  let sv := locSv s loc ||| bit4 sector
  let sp := if poison then locSp s loc ||| bit4 sector else locSp s loc &&& ~~~(bit4 sector)
  s |> setLoc loc sv sp (lineSet (locData s loc) sector data) |> makeDirty loc |> useWay loc

/-- Where a store that misses goes: an eligible way of the set, else an overflow slot (R65, R66). -/
def storePlace (s : State) (sl set : Nat) : Option Nat :=
  match victim s sl set with
  | some loc => some loc
  | none => freeOvf s sl

/-- The line joins the cache empty at a location. -/
def placeAt (loc line : Nat) (sv sp : BitVec 4) (pin : Bool) (data : Line) (s : State) : State :=
  if locOvf loc then placeOvf loc line sv sp pin data s else placeWay loc line sv sp pin data s

/-- Is a new pinned line refused on the line's wheel: its share of the reserve is full (R130, R171)? -/
def pinFull (s : State) (line : Nat) : Bool := decide (Config.pinnedPerWheel ≤ slicePinned s (wheelOf s line))

/-- Set a dead line's PMASK bit through the journal and drop its cached data (R171). -/
def poisonDead (line : Nat) (s : State) : State :=
  let p := placeOf s line
  let slot := slotOfBlock s p.region p.lblock
  let s1 := match xentry s p.region slot with
    | some e =>
      let e' := { e with pmask := e.pmask ||| BitVec.ofNat 16 (2 ^ p.k) }
      s |> journalAppend e' |> onMed (fun m => { m with xtab := xPut e' m.xtab })
    | none => s
  let s2 := match locate s1 line with | some loc => dropLoc loc s1 | none => s1
  s2 |> onHost (fun h => { h with takingPoison := true })
     |> addPoisonLine line 6 |> postOrQueue 2 0 6 (line * 256) 4 (srcWheel (wheelOf s line))

/-- A restored line that the host writes is held until the area is retired: a write-back of it that has not started is given up
(R141). -/
def holdRestored (line : Nat) (s : State) : State :=
  if nsHas line s.med.restored then
    s |> onMed (fun m => { m with restoreLeft := nsDel line m.restoreLeft, held := nsAdd line m.held })
      |> dropOps (fun d => match d.kind with | .writeBack _ => d.line == line | _ => false)
  else s

/-- A store of a sector lands in the cache, dirty; a dead slot's line is pinned, or turned to poison when the reserve is
full. The result tells where it landed. -/
def storeLine (line sector : Nat) (data : Sector) (poison : Bool) (s : State) : State × Option Nat :=
  let sl := wheelOf s line
  let set := setOf s line
  let dead := lineDead s line
  match locate s line with
  | some loc =>
    if dead && !locPinned s loc && pinFull s line then (poisonDead line s, none)
    else
      let s1 := s |> writeSector loc sector data poison |> when dead (pinLoc loc) |> holdRestored line
      (unlistPoison line (locSv s1 loc) (locSp s1 loc) s1, some loc)
  | none =>
    if dead && pinFull s line then (poisonDead line s, none)
    else match storePlace s sl set with
      | none => (s, none)
      | some loc =>
        let l := onLockList s line
        let s1 := s |> placeAt loc line 0 0 dead zeroLine
          |> when (l && !locOvf loc) (fun s => setWay loc { wayAt s loc with l := true } s)
          |> writeSector loc sector data poison |> when dead (pinLoc loc) |> holdRestored line
        (s1, some loc)

/-- Scratch line `l` lies in its way with all its sectors valid, and its directory entry says so (R63, R68, R78). -/
def placeScratch (l : Nat) (sp : BitVec 4) (data : Line) (s : State) : State :=
  let loc := scratchLoc l
  s |> setWay loc { emptyWay (wayAt s loc) with line := scratchLine0 + l, sv := 15, sp := sp, v := true, d := true, data := data }
    |> setDir loc ⟨scratchLine0 + l, 15, sp, false, true, true, 0⟩

/-- Store a scratch sector (R79). -/
def storeScratch (l sector : Nat) (data : Sector) (poison : Bool) (s : State) : State :=
  let loc := scratchLoc l
  let w := wayAt s loc
  let sp := if poison then w.sp ||| bit4 sector else w.sp &&& ~~~(bit4 sector)
  s |> placeScratch l sp (lineSet w.data sector data) |> unlistPoison (scratchLine0 + l) 15 sp

/-- The store of a context has been written: it waits for its program, for the partner, or is acknowledged
(R50, R91, R128, R322). -/
def storeWritten (tag : BitVec 16) (data : Sector) (toProgram : Bool) (s : State) : State :=
  match ctxOf s tag with
  | none => s
  | some c =>
    let line := lineOf c.dpa
    if toProgram then
      s |> (if mustMirror s line then sendMwr c data else fun s => s |> unmirrored line |> handBack)
        |> onCtx tag (fun c => { c with st := .program, deadline := 2 ^ 65, carried := 0 })
    else if mustMirror s line then
      s |> sendMwr c data |> onCtx tag (fun c => { c with st := .mirror, deadline := c.arrival + 440 })
    else s |> unmirrored line |> handBack |> onCtx tag (fun c => { c with st := .respond })

/-! ### Fills (R64, R65, R82) -/

/-- A media line that has been read goes into the invalid sectors of a resident line, or into an eligible way, locked when it is
on the lock list; with no eligible way nothing is allocated. -/
def placeFill (line : Nat) (data : Line) (sp : BitVec 4) (s : State) : State :=
  match locate s line with
  | some loc =>
    let sv := locSv s loc
    s |> setLoc loc 15 ((locSp s loc &&& sv) ||| (sp &&& ~~~sv)) (lineMerge sv (locData s loc) data) |> useWay loc
  | none =>
    match victim s (wheelOf s line) (setOf s line) with
    | none => s
    | some loc => s |> placeWay loc line 15 sp false data
        |> when (onLockList s line) (fun s => setWay loc { wayAt s loc with l := true } s)

/-- A demand read fills the cache. In bypass it allocates nothing (R82), and a locked line that was lost stays on the miss path
until the scrub brings it back (R77). -/
def fillLine (line : Nat) (data : Line) (sp : BitVec 4) (s : State) : State :=
  if (locate s line).isNone && (cacheBypass s || onLockList s line) then s else placeFill line data sp s

/-- The sector a load of a line returns, after its line has been read: the cache's valid sector, else the media's. -/
def sectorNow (s : State) (line sector : Nat) (data : Line) (sp : BitVec 4) : Sector × Bool :=
  match locate s line with
  | some loc =>
    if (locSv s loc).getLsbD sector then (lineGet (locData s loc) sector, (locSp s loc).getLsbD sector)
    else (lineGet data sector, sp.getLsbD sector)
  | none => (lineGet data sector, sp.getLsbD sector)

/-! ### Aborts (R57) -/

/-- Host contexts are aborted: loads end, stores whose flit had ended stay durable; a partial store still merging is
finished without an answer. Its credit and those of the others are the port's again. -/
def abortContexts (s : State) : State :=
  let merging (c : Ctx) : Bool := c.op == .storePtl && (c.st == .qwait || c.st == .queued || c.st == .sense || c.st == .window || c.st == .decode2)
  let gone := s.sched.ctxs.filter (fun c => !merging c)
  onSched (fun q => { q with
    ctxs := (q.ctxs.filter merging).map (fun c => { c with mute := true })
    queue := q.queue.filter (fun d => match d.kind with | .demandRead t => !gone.any (fun c => c.tag == t) | _ => true) }) s

end Sys2Proof.Machine
end

