-- ==== Sys2Proof/Machine/Conv.lean ====
section
/-! DEFINITION. The converters' shared operations (chapter 09): inputs, starting a conversion, injected requests,
hardware triggers, and calibration. -/
namespace Sys2Proof.Machine

/-- Converter `n`. -/
def conv (s : State) (n : Nat) : ConvSt := tabGet convReset s.mcv.convs n

/-- Change converter `n`. -/
def onConv (n : Nat) (f : ConvSt → ConvSt) (s : State) : State :=
  onMcv (fun m => { m with convs := tabSet convReset n (f (conv s n)) m.convs }) s

/-- The input that local channel `ch` of converter `n` reaches; none for an internal source (R238). -/
def ainOf (n ch : Nat) : Option Nat :=
  if 12 ≤ ch then none
  else match n with
  | 0 => some (80 + ch)
  | 1 => some (64 + ch)
  | 7 => some (if ch < 4 then 60 + ch else if ch < 8 then 72 + ch else 84 + ch)
  | m => some (12 * (m - 2) + ch)

/-- The converter and local channel of an input (R238). -/
def convOf (k : Nat) : Nat × Nat :=
  if k < 60 then (2 + k / 12, k % 12)
  else if k < 64 then (7, k - 60)
  else if k < 76 then (1, k - 64)
  else if k < 80 then (7, k - 72)
  else if k < 92 then (0, k - 80)
  else (7, k - 84)

/-- The tag of a result (R240). -/
def tagOf (n ch : Nat) : Nat :=
  match ainOf n ch with
  | some k => k
  | none => 96 + 4 * n + (ch - 12)

/-- The source number of a result (R240). -/
def srcOf (n ch : Nat) : Nat :=
  match ainOf n ch with
  | some k => srcAin k
  | none => srcConv n

/-- Ticks a conversion takes (R242). -/
def convTicks (lp : Bool) : Nat := if lp then 32 else 4

/-! ### Settings in effect (R245) -/

/-- The schedule of the converter runs (MCVn_CFG.EN; MC0's always). -/
def schedOn (s : State) (n : Nat) : Bool := n == 0 || fon s F.MCVn_CFG_EN n

/-- A setting of converter `n` takes effect at the start of a cycle; while no schedule runs it takes effect at once. -/
def eget (s : State) (n : Nat) (f : Fld) (i : Nat) : Nat :=
  if schedOn s n then tabGet f.dflt s.mcv.eff (f.key i) else fget s f i

/-- The settings of a converter, and those of an input, that a cycle takes over. -/
def convSettings : List Fld :=
  [F.MCVn_CFG_DROP_NEW, F.MCVn_CFG_INT_FIFO, F.MCVn_TRIG_SRC, F.MCVn_TRIG_CHAN, F.MCVn_TRIG_CONV, F.MCVn_TRIG_CH,
   F.MCVn_TRIG_EDGE, F.MCVn_TRIG_PERIOD]
def inputSettings : List Fld :=
  [F.MCV_INk_CFG_FIFO_EN, F.MCV_INk_CFG_RING_EN, F.MCV_INk_CFG_LIM_EN, F.MCV_INk_CFG_LIM_ACT, F.MCV_INk_CFG_SPAN_MIN,
   F.MCV_INk_CFG_SPAN_MAX, F.MCV_INk_LIM_LO, F.MCV_INk_LIM_HI, F.MCV_INk_LIM_HYST]

/-- Take one setting over. -/
def takeField (f : Fld) (i : Nat) (s : State) : State :=
  onMcv (fun m => { m with eff := tabSet f.dflt (f.key i) (fget s f i) m.eff }) s

/-- A cycle takes over its converter's settings and those of its inputs; MC1's the junction limits too. -/
def takeSettings (n : Nat) (s : State) : State :=
  s |> forEach convSettings (fun f s => takeField f n s)
    |> forEach ((List.range 12).filterMap (ainOf n)) (fun k s => forEach inputSettings (fun f s => takeField f k s) s)
    |> when (n == 1) (forEach [F.MCV_TJ_LIM_WARN, F.MCV_TJ_LIM_SHUT] (fun f s => takeField f 0 s))

/-! ### Starting work (R250) -/

/-- Start a conversion of a local channel at the present boundary. -/
def startConv (n ch : Nat) (work : ConvWork) (s : State) : State :=
  s |> onConv n (fun c => { c with run := some ⟨ch, work, tickOf s, c.lp⟩ })
    |> fput F.MCVn_SEL_CH n ch

/-- The diagnosis running on converter `n`, with its results so far. -/
def diagOn (s : State) (n : Nat) : Option Diag :=
  match tabGet none s.mcv.diag (n / 2) with
  | some d => if (convOf d.input).1 = n then some d else none
  | none => none

/-- Change the diagnosis of a converter's pair. -/
def onDiag (n : Nat) (f : Diag → Diag) (s : State) : State :=
  onMcv (fun m => { m with diag := tabSet none (n / 2) ((tabGet none m.diag (n / 2)).map f) m.diag }) s

/-- The local channel of a diagnosis' next conversion (R261): the test DAC itself, then the pin. -/
def diagChan (d : Diag) : Nat := if d.got.length < 2 then 12 else (convOf d.input).2

/-- A slot that could not be converted in time is skipped; its input's filter takes its last RAW again, which the
caller feeds (R250). -/
def countSkip (n : Nat) (s : State) : State :=
  s |> finc F.MCVn_OVERRUN_SKIPS n |> fset F.MCV_ERR_SKIP 0

/-- Does calibration have conversions left to start? -/
def calReady (c : ConvSt) : Bool := c.calibrating && !c.calAbort && decide (c.calCount < 64)

/-- The converter is free at the present boundary: the next work starts, in the order of R250. A diagnosis' conversions
follow injected requests, each after a whole idle tick (R261). A displaced slot is left to the caller. -/
def startNext (n : Nat) (s : State) : State :=
  let c := conv s n
  if !c.on || c.run.isSome then s
  else if c.injPend then
    s |> onConv n (fun c => { c with injPend := false }) |> when (diagOn s n).isSome (onDiag n (fun d => { d with readyAt := 0 }))
      |> startConv n c.injCh .injected
  else match diagOn s n with
  | some d =>
    if d.readyAt = 0 then onDiag n (fun d => { d with readyAt := tickOf s + 1 }) s
    else if d.readyAt ≤ tickOf s then startConv n (diagChan d) .diagnosis s
    else s
  | none =>
    if calReady c then onConv n (fun c => { c with run := some ⟨0, .calibration, tickOf s, c.lp⟩ }) s
    else if c.held then
      s |> onConv n (fun c => { c with held := false }) |> startConv n (eget s n F.MCVn_TRIG_CH n) .triggered
    else s

/-! ### Injected requests (R247, R248) -/

/-- Is an injected request to the converter refused? -/
def injRefused (s : State) (n : Nat) : Bool :=
  (conv s n).injPend
    || (n == 0 && (fon s F.LDG_STATUS_CAP_TEST 0 || s.mode = .freewheel || (s.mode = .brake && fon s F.LDG_STATUS_FW_ACTIVE 0)
      || (match (conv s 0).lastInj with | some t => decide (tickOf s < t + 64) | none => false)))

/-- Place an injected request. -/
def inject (n ch : Nat) (s : State) : State :=
  if injRefused s n then fset F.MCV_ERR_INJ_REFUSED 0 s
  else s |> fput F.MCVn_SEL_INJ_CH n ch |> onConv n (fun c => { c with injPend := true, injCh := ch })

/-! ### Schedules (R244 to R246) -/

/-- Slot `i` of a converter's schedule: its channel, or 16 when idle. MC0's and MC1's fixed slots (R246). -/
def slotOf (s : State) (n i : Nat) : Nat :=
  if n = 0 then 0
  else if n = 1 && i = 0 then 13
  else
    let k := 32 * n + i / 2
    if i % 2 = 0 then (if fon s F.MCVn_SLOTj_USE0 k then fget s F.MCVn_SLOTj_CH0 k else 16)
    else (if fon s F.MCVn_SLOTj_USE1 k then fget s F.MCVn_SLOTj_CH1 k else 16)

/-- The live schedule of a converter. -/
def liveSlots (s : State) (n : Nat) : List Nat :=
  (List.range (if n = 0 then 1 else fget s F.MCVn_CFG_LEN n + 1)).map (slotOf s n)

/-- Spacing in normal and in low-power mode; smaller values act as 4 and 32 (R244, R246). -/
def liveSpacing (s : State) (n : Nat) : Nat × Nat :=
  if n = 0 then (4, 32)
  else (max 4 (fget s F.MCVn_CFG_SPACING n), max 32 (fget s F.MCVn_CFG_LP_SPACING n))

/-- Restart an input's filter (R256). -/
def restartFilter (k : Nat) (s : State) : State :=
  s |> onMcv (fun m => { m with
        filters := tabSet filterReset k ⟨fget s F.MCV_INk_CFG_ORDER k + 1, fget s F.MCV_INk_CFG_LEN k + 1, [], 0⟩ m.filters })
    |> fclr F.MCV_INk_VAL_SETTLED k

/-- A filter restarts when its order or length is changed (R256). -/
def newFilter (k : Nat) (s : State) : State :=
  let f := tabGet filterReset s.mcv.filters k
  if f.order = fget s F.MCV_INk_CFG_ORDER k + 1 && f.len = fget s F.MCV_INk_CFG_LEN k + 1 then s else restartFilter k s

/-- Restart the filters of every external input of a converter. -/
def restartFilters (n : Nat) (s : State) : State :=
  forEach ((List.range 12).filterMap (ainOf n)) restartFilter s

/-- The places at which a channel stands in a schedule. -/
def slotPlaces (ch : Nat) (slots : List Nat) : List Nat :=
  (List.range slots.length).filter (fun i => slots.getD i 16 == ch)

/-- A cycle starts: the live schedule takes effect, and inputs whose slots changed restart their filters (R245,
R256). -/
def takeSchedule (n : Nat) (s : State) : State :=
  let slots := liveSlots s n
  let old := (conv s n).effSlots
  let sp := liveSpacing s n
  s |> takeSettings n
    |> forEach ((List.range 12).filter (fun ch => decide (slotPlaces ch slots ≠ slotPlaces ch old)))
        (fun ch s => match ainOf n ch with | some k => restartFilter k s | none => s)
    |> forEach ((List.range 12).filterMap (ainOf n)) newFilter
    |> onConv n (fun c => { c with effSlots := slots, effSp := sp.1, effLp := sp.2 })

/-! ### Hardware triggers (R249) -/

/-- Is a slot in use due at the next boundary? -/
def slotNext (s : State) (n : Nat) : Bool :=
  let c := conv s n
  c.on && schedOn s n && c.nextDue == tickOf s + 1 && (if c.slot = 0 then slotOf s n 0 else c.effSlots.getD c.slot 16) != 16

/-- Is the converter running, or committed to a start at the next boundary? A slot that is due there commits it (DEDUCED, log 106). -/
def convBusy (s : State) (n : Nat) : Bool :=
  let c := conv s n
  c.run.isSome || c.injPend || calReady c || c.held || c.late.isSome || (diagOn s n).isSome || slotNext s n

/-- A trigger arrives at converter `n`. -/
def trigger (n : Nat) (s : State) : State :=
  let c := conv s n
  if !c.on then s
  else if convBusy s n && (eget s n F.MCVn_CFG_DROP_NEW n != 0 || c.held) then
    s |> onConv n (fun c => { c with dropped := true }) |> finc F.MCVn_OVERRUN_COUNT n |> fset F.MCV_ERR_OVERRUN 0
  else onConv n (fun c => { c with held := true }) s

/-- An EN edge (source 1), PG edge (2) or trip (5) of a rail channel, or a conversion's end on a converter (4), asks
the converters that watch it (R249); MC0 has no trigger. -/
def hwTrigger (src chan : Nat) (rising : Bool) (s : State) : State :=
  forEach [1, 2, 3, 4, 5, 6, 7] (fun n s =>
    let watched := if src = 4 then eget s n F.MCVn_TRIG_CONV n else eget s n F.MCVn_TRIG_CHAN n
    let edgeOk := rising || eget s n F.MCVn_TRIG_EDGE n != 0 || src == 4 || src == 5
    if eget s n F.MCVn_TRIG_SRC n = src && watched = chan && edgeOk then trigger n s else s) s

/-! ### Calibration (R251, R253) -/

/-- A calibration starts: by itself, or on command. -/
def startCal (n : Nat) (via : Option Transport) (auto_ : Bool) (s : State) : State :=
  onConv n (fun c => { c with
    calibrating := true, calCount := 0, calLo := 0, calHi := 0, calAbort := false, calVia := via, calAuto := auto_ }) s

/-- A trip stops every running calibration, and every running diagnosis, at its next conversion boundary (R254, R264). -/
def abortCals (s0 : State) : State :=
  let s := onMcv (fun m => { m with diag := tabMap none (fun _ d => d.map (fun x => { x with stop := true })) m.diag }) s0
  forEach (List.range 8) (fun n s =>
    if (conv s n).calibrating then onConv n (fun c => { c with calAbort := true }) s else s) s

/-! ### Powering (R243) -/

/-- Is a converter on in the mode, and in low-power operation? R243 allows MCVn_CFG.LP no choice in any mode. -/
def convPower (s : State) (n : Nat) : Bool × Bool :=
  match s.mode with
  | .off => (false, false)
  | .standby => (decide (n < 2), decide (n < 2))
  | .brake => if fon s F.HUB_MODE_HOLD 0 then (decide (n < 2), decide (n < 2)) else (true, false)
  | _ => (true, false)

/-- A converter takes the power its mode gives it, once no conversion runs (R243): filters restart at a switch, and a
converter switched on empties its FIFO and starts its schedule at the next boundary. -/
def applyPower (n : Nat) (s : State) : State :=
  let c := conv s n
  let p := convPower s n
  if c.run.isSome || (c.on = p.1 && c.lp = p.2) then s
  else
    let s1 := onConv n (fun c => { c with on := p.1, lp := p.2, slot := 0, late := none, nextDue := tickOf s + 1 }) s
    if p.1 then
      let s2 := restartFilters n s1
      if c.on then s2 else onMcv (fun m => { m with fifo := tabSet [] n [] m.fifo }) s2
    else s1

/-- Every converter takes the power of the mode. -/
def applyPowers (s : State) : State := forEach (List.range 8) applyPower s

end Sys2Proof.Machine
end

