-- ==== Sys2Proof/Machine/Rails.lean ====
section
/-! DEFINITION. The rail sequencer's shared operations (chapter 08): targets and gangs, power good, edges, requests and
admission, retries, group-off, power-down, and the first-fault latch. -/
namespace Sys2Proof.Machine

/-! ### Targets (R218, R222) -/

/-- The channels 0 to 31. -/
def allChans : List Nat := List.range 32

/-- The number a target is kept under: a channel's own, 32 + g for a gang. -/
def tgtKey : Target → Nat
  | .chan c => c.val
  | .gang g => 32 + g.val

/-- The member bits of a gang, as stored. -/
def gangBits (s : State) (g : Nat) : List Nat :=
  allChans.filter (fun c => fget s F.SEQ_GANGg_MEMBERS g / 2 ^ c % 2 == 1)

/-- A gang that pass-through writes left invalid is treated as empty (R237, CFG_BAD): more than four members, or a
channel of two gangs. -/
def gangBad (s : State) (g : Nat) : Bool :=
  decide (4 < (gangBits s g).length)
    || (List.range 8).any (fun h => h != g && (gangBits s h).any (fun c => (gangBits s g).contains c))

/-- The members of a gang. -/
def gangMembers (s : State) (g : Nat) : List Nat := if gangBad s g then [] else gangBits s g

/-- A target's channels. -/
def tgtChans (s : State) : Target → List Nat
  | .chan c => [c.val]
  | .gang g => gangMembers s g.val

/-- The gang a channel is in. -/
def gangOf (s : State) (c : Nat) : Option (Fin 8) :=
  (List.finRange 8).find? (fun g => (gangMembers s g.val).contains c)

/-- What a fault of a channel concerns: its gang, or itself (R222). -/
def tgtOf (s : State) (c : Chan) : Target :=
  match gangOf s c.val with
  | some g => .gang g
  | none => .chan c

/-- The lowest channel of a target; a gang sorts under it (R222). -/
def tgtLow (s : State) (t : Target) : Nat := (tgtChans s t).headD 0

/-- Does the target hold a CRIT channel (R222)? -/
def tgtCrit (s : State) (t : Target) : Bool := (tgtChans s t).any (fun c => fon s F.SEQ_CHn_CFG_CRIT c)

/-! ### Power good (R213) -/

/-- Neither comparator of the channel is tripped. -/
def inWindow (s : State) (c : Nat) : Bool := !fon s F.SEQ_CHn_STATUS_UV_TRIP c && !fon s F.SEQ_CHn_STATUS_OV_TRIP c

/-- A channel's power good (R213). -/
def powerGood (s : State) (c : Nat) : Bool :=
  if fon s F.SEQ_CHn_CFG_PG_EN c then s.pins.pg.getLsbD c != fon s F.SEQ_CHn_CFG_PG_POL c else inWindow s c

/-- A target's power good: that of all its channels (R222). -/
def tgtGood (s : State) (t : Target) : Bool := (tgtChans s t).all (powerGood s) && !(tgtChans s t).isEmpty

/-- A level of an EN output (R209). -/
inductive EnLevel where
  | highZ
  | low
  | high18
  | high33
  deriving DecidableEq, Repr

/-- The EN output of a channel (R209, R210), with VAON at `vaonMv`: high impedance before recall, for a monitor-only channel, and
(DEDUCED, log 96) where the 3.3 V level is not available; else the enabled or the disabled level, by EN_POL; an open-drain output is
pulled low or released. -/
def enOut (vaonMv : Nat) (s : State) (c : Nat) : EnLevel :=
  let high := fon s F.SEQ_CHn_STATUS_EN c != fon s F.SEQ_CHn_CFG_EN_POL c
  if !aonOn s || !sbReady s then .highZ
  else match fget s F.SEQ_CHn_CFG_EN_MODE c with
    | 1 => if high then .high18 else .low
    | 2 => if vaonMv < 3600 then .highZ else if high then .high33 else .low
    | 3 => if high then .highZ else .low
    | _ => .highZ

/-- The HOLD_LOAD output (R377): push-pull 1.8 V, and high impedance until recall ends, as the EN outputs are. -/
def holdLoadOut (s : State) : EnLevel :=
  if !aonOn s || !sbReady s then .highZ else if s.pins.holdLoad then .high18 else .low

/-- Is the channel's enable asserted? -/
def chanOn (s : State) (c : Nat) : Bool := fon s F.SEQ_CHn_STATUS_EN c

/-- Is every channel of the target enabled? Is any? -/
def tgtOn (s : State) (t : Target) : Bool := (tgtChans s t).all (chanOn s) && !(tgtChans s t).isEmpty
def tgtAnyOn (s : State) (t : Target) : Bool := (tgtChans s t).any (chanOn s)

/-! ### The first-fault latch (R231) -/

/-- A 32-bit image of a condition on each channel. -/
def chanImage (p : Nat → Bool) : Nat := (allChans.filter p).foldl (fun a c => a + 2 ^ c) 0

/-- The FIRST_FAULT record's fixed snapshot (R269) as the latch holds it, with the words given. -/
def fflWords (s : State) (inStatus hubMode vcap tj : Nat) : List Nat :=
  [fget s F.SEQ_FFL_GTC_LO_GTC 0, fget s F.SEQ_FFL_GTC_HI_GTC 0, fget s F.SEQ_FFL_UV_STATE 0, fget s F.SEQ_FFL_OV_STATE 0,
   fget s F.SEQ_FFL_PG_STATE 0, fget s F.SEQ_FFL_EN_STATE 0,
   fget s F.SEQ_FFL_SRC_SOURCE 0 + fget s F.SEQ_FFL_SRC_KIND 0 * 2 ^ 12 + fget s F.SEQ_FFL_SRC_VALID 0 * 2 ^ 16
     + fget s F.SEQ_FFL_SRC_VIN_LOW 0 * 2 ^ 17 + fget s F.SEQ_FFL_SRC_PWRFAIL 0 * 2 ^ 18
     + fget s F.SEQ_FFL_SRC_HOLD_LOW 0 * 2 ^ 19 + fget s F.SEQ_FFL_SRC_CAUSE 0 * 2 ^ 20,
   inStatus, hubMode, vcap, tj]

/-- SEQ_IN_STATUS, HUB_MODE, LDG_VCAP and MCV_TJ as the latch sees them. -/
def inStatusWord (s : State) : Nat :=
  fget s F.SEQ_IN_STATUS_VIN_LOW 0 + 2 * fget s F.SEQ_IN_STATUS_VIN_GOOD 0 + 4 * fget s F.SEQ_IN_STATUS_PWRFAIL 0
    + 8 * fget s F.SEQ_IN_STATUS_HOLD_LOW 0
def hubModeWord (s : State) : Nat :=
  modeCode s.mode + 8 * fget s F.HUB_MODE_PREV 0 + 64 * fget s F.HUB_MODE_SHORT_FW 0 + 128 * fget s F.HUB_MODE_BRAKE_DRAIN 0
    + 256 * fget s F.HUB_MODE_HOLD 0 + 512 * fget s F.HUB_MODE_REC_CLOSED 0
def vcapWord (s : State) : Nat := fget s F.LDG_VCAP_MV 0 + 2 ^ 16 * fget s F.LDG_VCAP_CODE 0
def tjWord (s : State) : Nat := fget s F.MCV_TJ_CODE 0 + 2 ^ 12 * fget s F.MCV_TJ_DEG_C 0

/-- The class of a first-fault record (R269): 0 input or PWRFAIL_N, 1 a rail, 7 otherwise. -/
def fflClass (kind : Nat) : Nat := if kind = 8 || kind = 9 then 0 else if kind = 10 then 7 else 1

/-- The latch captures the session's first trip (R231) and asks for its record, which takes the reserved entry of the
holding queue (R272). -/
def firstFault (kind source cause : Nat) (s : State) : State :=
  if s.seq.fflArmed && !fon s F.SEQ_FFL_SRC_VALID 0 then
    let s1 := s
      |> fput F.SEQ_FFL_GTC_LO_GTC 0 s.stamp |> fput F.SEQ_FFL_GTC_HI_GTC 0 (s.stamp / 2 ^ 32)
      |> fput F.SEQ_FFL_UV_STATE 0 (chanImage (fun c => fon s F.SEQ_CHn_STATUS_UV_TRIP c))
      |> fput F.SEQ_FFL_OV_STATE 0 (chanImage (fun c => fon s F.SEQ_CHn_STATUS_OV_TRIP c))
      |> fput F.SEQ_FFL_PG_STATE 0 (chanImage (powerGood s)) |> fput F.SEQ_FFL_EN_STATE 0 (chanImage (chanOn s))
      |> fput F.SEQ_FFL_SRC_SOURCE 0 source |> fput F.SEQ_FFL_SRC_KIND 0 kind |> fset F.SEQ_FFL_SRC_VALID 0
      |> fput F.SEQ_FFL_SRC_VIN_LOW 0 (fget s F.SEQ_IN_STATUS_VIN_LOW 0)
      |> fput F.SEQ_FFL_SRC_PWRFAIL 0 (fget s F.SEQ_IN_STATUS_PWRFAIL 0)
      |> fput F.SEQ_FFL_SRC_HOLD_LOW 0 (fget s F.SEQ_IN_STATUS_HOLD_LOW 0)
      |> fput F.SEQ_FFL_SRC_CAUSE 0 (if kind = 10 then cause else 0)
    s1 |> land 0x02 (fflClass kind) source 1
          (some (fflWords s1 (inStatusWord s) (hubModeWord s) (vcapWord s) (tjWord s)))
       |> ringOut 4 (kind + source * 16)
  else s

/-! ### Edges, requests and retries (R219, R223, R228) -/

/-- Decide an edge: it is driven at the next boundary (R221). -/
def decideEdge (t : Target) (up : Bool) (s : State) : State :=
  onSeq (fun q => { q with edges := q.edges.filter (fun e => e.1 != t) ++ [(t, up)] }) s

/-- Place an enable request, once (R219). -/
def placeRequest (t : Target) (s : State) : State :=
  if s.seq.pend.contains t then s else onSeq (fun q => { q with pend := q.pend ++ [t] }) s

/-- Cancel a target's request. -/
def cancelRequest (t : Target) (s : State) : State :=
  onSeq (fun q => { q with pend := q.pend.filter (· != t) }) s

/-- No retry of any target. -/
def retryReset : Retry := ⟨0, 0, 0⟩

/-- The retry state of a target. -/
def retryOf (s : State) (t : Target) : Retry := tabGet retryReset s.seq.retries (tgtKey t)

def setRetry (t : Target) (r : Retry) (s : State) : State :=
  onSeq (fun q => { q with retries := tabSet retryReset (tgtKey t) r q.retries }) s

/-- Does a retry run? -/
def retryRunning (s : State) : Bool := s.seq.retries.any (fun x => x.2.phase != 0)

/-- A paused power-up sequence resumes at its step when no retry runs; its waits and timeouts stood still meanwhile (R228). -/
def resumeSeq (s : State) : State :=
  if fget s F.SEQ_CTRL_STATE 0 = 2 && !retryRunning s then
    s |> fput F.SEQ_CTRL_STATE 0 1
      |> onSeq (fun q => { q with stepSince := if q.waiting then q.stepSince + (tickOf s - q.pausedAt) else tickOf s })
  else s

/-- A retry ends. -/
def endRetry (t : Target) (s : State) : State :=
  s |> setRetry t { retryOf s t with phase := 0 }
    |> forEach (tgtChans s t) (fun c s => fclr F.SEQ_CHn_STATUS_RETRYING c s)
    |> resumeSeq

/-- RETRY_MAX of a target: the smallest among its channels; 0 acts as 1 (R222, R237). -/
def retryMax (s : State) (t : Target) : Nat :=
  (tgtChans s t).foldl (fun m c => min m (max 1 (fget s F.SEQ_CHn_CFG_RETRY_MAX c))) 3

/-- A retry starts (R228): the disable edge is driven at the next boundary and the backoff runs, counted from the tick of the fault
(DESIGN CHOICE, log 97); during the power-up sequence step execution pauses. -/
def startRetry (t : Target) (s : State) : State :=
  s |> setRetry t ⟨(retryOf s t).count + 1, 1, tickOf s⟩
    |> forEach (tgtChans s t) (fun c s =>
        s |> fset F.SEQ_CHn_STATUS_RETRYING c |> finc F.SEQ_CHn_STATUS_RETRIES c |> finc F.SEQ_CHn_COUNT_RETRIES c)
    |> fset F.SEQ_ERR_RETRY 0 |> cancelRequest t |> decideEdge t false
    |> when (fget s F.SEQ_CTRL_STATE 0 == 1) (fun s => s |> fput F.SEQ_CTRL_STATE 0 2
          |> onSeq (fun q => { q with pausedAt := tickOf s }))

/-- Ticks of a channel's PG_TIMEOUT; 0 acts as 1 (R237). -/
def pgTicks (s : State) (c : Nat) : Nat := 64 * max 1 (fget s F.SEQ_CHn_TIME_PG_TIMEOUT c)

/-- PG_TIMEOUT of a target: the largest among its channels (R219). -/
def tgtTicks (s : State) (t : Target) : Nat := ((tgtChans s t).map (pgTicks s)).foldl max 0

/-- Backoff of the n-th retry in ticks: 1, 2 or 4 ms (R228). -/
def backoffTicks (n : Nat) : Nat := if n ≤ 1 then 4000 else if n = 2 then 8000 else 16000

/-- A trip cancels every pending enable request, every enable edge not yet driven, and every retry, which ends as a
note (R236). -/
def cancelEnables (s : State) : State :=
  s |> when (retryRunning s) (fset F.SEQ_ERR_NOTE 0)
    |> forEach allChans (fun c s => fclr F.SEQ_CHn_STATUS_RETRYING c s)
    |> onSeq (fun q => { q with
        pend := [], edges := q.edges.filter (fun e => !e.2)
        retries := tabMap retryReset (fun _ r => { r with phase := 0 }) q.retries })

/-! ### Power-down (R225, R229) -/

/-- OFF_DELAY of a target: the largest among its channels (R225). -/
def offDelay (s : State) (t : Target) : Nat :=
  (tgtChans s t).foldl (fun m c => max m (fget s F.SEQ_CHn_TIME_OFF_DELAY c)) 0

/-- Is the target off, or its disable edge decided? -/
def tgtDown (s : State) (t : Target) : Bool := !tgtAnyOn s t || s.seq.edges.contains (t, false)

/-- The next entry that is not off yet has its disable edge driven and its OFF_DELAY runs; entries already off are
skipped (R225). The result tells the power-down with nothing left. -/
def lowerNext (s : State) (d : PowerDown) : List Target → PowerDown × Option Target
  | [] => ({ d with left := [], waiting := none }, none)
  | t :: rest =>
    if tgtDown s t then lowerNext s d rest else ({ d with left := rest, waiting := some t, since := tickOf s + 1 }, some t)

/-- Take one power-down on by one entry: answers the power-down as it goes on, none when it is done. -/
def stepDown (d : PowerDown) (s : State) : Option PowerDown × State :=
  match lowerNext s d d.left with
  | (d', some t) => (some d', decideEdge t false s)
  | (_, none) => (none, s)

/-- The enable log without repeats, newest first. -/
def logTargets (s : State) : List Target := s.seq.log.eraseDups

/-- Start lowering every entry of the log (R225). -/
def startDownAll (s : State) : State :=
  let s1 := cancelEnables s
  match stepDown ⟨.all, logTargets s1, none, 0⟩ s1 with
  | (some d, s2) => s2 |> onSeq (fun q => { q with down := [d] }) |> fput F.SEQ_CTRL_STATE 0 4
  | (none, s2) => s2 |> onSeq (fun q => { q with down := [] }) |> fput F.SEQ_CTRL_STATE 0 5

/-- Has the power-down of every rail finished? -/
def railsDown (s : State) : Bool := fget s F.SEQ_CTRL_STATE 0 = 5

/-- Does the target share a group with the faulted one (R229)? A channel of group 0 is lowered alone. -/
def sameGroup (s : State) (t u : Target) : Bool :=
  t == u || (tgtChans s t).any (fun c => fget s F.SEQ_CHn_CFG_GROUP c != 0 &&
    (tgtChans s u).any (fun e => fget s F.SEQ_CHn_CFG_GROUP e == fget s F.SEQ_CHn_CFG_GROUP c))

/-- Group-off (R229): every enabled channel of the group is lowered in reverse log order and shows OFF_FAULT. -/
def groupOff (t : Target) (s : State) : State :=
  let hit := (logTargets s).filter (fun u => sameGroup s t u && tgtAnyOn s u)
  let s1 := s
    |> forEach (t :: hit) (fun u s =>
        s |> cancelRequest u |> forEach (tgtChans s u) (fun c s => fset F.SEQ_CHn_STATUS_OFF_FAULT c s) |> endRetry u)
    |> fset F.SEQ_ERR_GROUP_OFF 0 |> land 0x06 1 (srcRail (tgtLow s t)) 0 none
    |> onSeq (fun q => { q with edges := q.edges.filter (fun e => !(e.2 && (t :: hit).contains e.1)) })
  match stepDown ⟨.group, hit, none, 0⟩ s1 with
  | (some d, s2) => onSeq (fun q => { q with down := q.down ++ [d] }) s2
  | (none, s2) => s2

/-! ### Admission (R223, R224) -/

/-- The cost of a request in 0.1 A: the sum over its channels. -/
def reqCost (s : State) (t : Target) : Nat :=
  ((tgtChans s t).map (fun c => fget s F.SEQ_CHn_CFG_INRUSH c)).sum

/-- The highest priority (lowest PRIO) among a target's channels. -/
def reqPrio (s : State) (t : Target) : Nat :=
  (tgtChans s t).foldl (fun m c => min m (fget s F.SEQ_CHn_CFG_PRIO c)) 3

/-- Insert by priority, then lowest channel. -/
def insertReq (s : State) (t : Target) : List Target → List Target
  | [] => [t]
  | u :: rest =>
    if reqPrio s t < reqPrio s u || (reqPrio s t = reqPrio s u && tgtLow s t < tgtLow s u) then t :: u :: rest
    else u :: insertReq s t rest

/-- Requests in the order of admission. -/
def sortReqs (s : State) (ts : List Target) : List Target := ts.foldl (fun acc t => insertReq s t acc) []

/-- The requests admitted out of an ordered list with `budget` left of `whole` (R223). -/
def admitGo (s : State) (whole : Nat) : Nat → List Target → List Target
  | _, [] => []
  | budget, t :: rest =>
    if reqCost s t ≤ budget then t :: admitGo s whole (budget - reqCost s t) rest
    else if budget = whole then t :: admitGo s whole 0 rest
    else []

/-- SLOT_TICKS in use: that of the master followed, else the device's own (R316). -/
def slotTicks (s : State) : Nat :=
  if s.pel.slotTicks = 0 then max 1 (fget s F.SEQ_INRUSH_SLOT_TICKS 0) else s.pel.slotTicks

/-- Is the present tick a slot tick of this device (R224)? -/
def slotTick (s : State) : Bool := tickOf s / slotTicks s % 16 = fget s F.PEL_STATUS_DEVID 0

/-- Does the device count as aligned for admission: aligned, or in slew with an offset below one tick (R224, R316)? -/
def slotAligned (s : State) : Bool :=
  fon s F.PEL_STATUS_ALIGNED 0 || (fon s F.PEL_STATUS_SLEWING 0 && !s.pel.dup && decide (s.pel.slew.natAbs < 250))

/-- May the device admit enables in this tick (R223, R224)? -/
def mayAdmit (s : State) : Bool := !fon s F.SEQ_INRUSH_PEL_EN 0 || (slotTick s && (slotAligned s || s.seq.unsync != 0))

/-- The tick's budget; half of it while the ring is split (R316). -/
def inrushBudget (s : State) : Nat :=
  let b := max 1 (fget s F.SEQ_INRUSH_BUDGET 0)
  if fon s F.PEL_STATUS_SPLIT 0 then max 1 (b / 2) else b

/-- The tick's inrush admission. -/
def admitEnables (s : State) : State :=
  if mayAdmit s then
    let whole := inrushBudget s
    let got := admitGo s whole whole (sortReqs s s.seq.pend)
    s |> forEach got (fun t s => s |> cancelRequest t |> decideEdge t true)
      |> when (s.seq.unsync == 1 && fon s F.SEQ_INRUSH_PEL_EN 0 && !slotAligned s && !got.isEmpty)
          (fun s => s |> land 0x06 1 (srcRail (got.headD (.chan 0) |> tgtLow s)) 0 none
                      |> onSeq (fun q => { q with unsync := 2 }))
  else s

end Sys2Proof.Machine
end

