-- ==== Sys2Proof/Machine/Power.lean ====
section
/-! DEFINITION. Modes, the freewheel and the brake (chapters 05 and 07): mode changes, the ledger journal, the trip, the
brake latch, the drain, and their ends. -/
namespace Sys2Proof.Machine

/-! ### The ledger journal (R122, R386) -/

/-- Bits [495:0] of a good ledger journal slot, its CRC-32 taken off. -/
def ljSlot (s : State) (k : Nat) : Option Nat :=
  let bs := sbBytes s (homeJournal + 64 * k) 64
  if crc32 (bs.take 60) = leAt 60 4 bs then some (leAt 0 60 bs) else none

/-- SEQ of a journal slot: bytes 40 and 41, bits [11:0]. -/
def ljSeq (bits : Nat) : Nat := bits / 2 ^ 320 % 4096

/-- The current journal slot and its bits (R305). -/
def ljCurrent (s : State) : Option (Nat × Nat) :=
  match ljSlot s 0, ljSlot s 1 with
  | some a, some b => if (pickSlot (ljSeq a) (ljSeq b)).1 = 0 then some (0, a) else some (1, b)
  | some a, none => some (0, a)
  | none, some b => some (1, b)
  | none, none => none

/-- The registers' image in a journal slot: LDG_CAP0 to 7, LDG_FW_LAST, LDG_FW_LINES. -/
def ljBody (s : State) : Nat :=
  (List.range 8).foldl (fun w n => w + packFlds s [F.LDG_CAPn_UF, F.LDG_CAPn_VALID, F.LDG_CAPn_NEWEST] n * 2 ^ (32 * n)) 0
    + packFlds s [F.LDG_FW_LAST_TICKS, F.LDG_FW_LAST_SEALED, F.LDG_FW_LAST_CUT_SHORT, F.LDG_FW_LAST_AREA] 0 * 2 ^ 256
    + fget s F.LDG_FW_LINES_LINES 0 * 2 ^ 288

/-- Is the last journal update not stored yet? -/
def ljUnstored (s : State) : Bool :=
  pageDirty s 3264 && decide (sbNat s homeJournal 128 ≠ sbShadowNat s homeJournal 128)

/-- Update the journal: the slot that is not current is written whole and its store requested; while the last update is
not stored the new one waits (R306, R386). -/
def journalWrite (s : State) : State :=
  if ljUnstored s then onSbg (fun g => { g with journalWait := true }) s
  else
    let cur := ljCurrent s
    let k := match cur with | some (k, _) => 1 - k | none => 0
    let seq := match cur with | some (_, b) => (ljSeq b + 1) % 4096 | none => (Config.firstSeq homeJournal).val
    let b := leBytes 60 (ljBody s + seq * 2 ^ 320)
    s |> onSbg (fun g => { g with journalWait := false }) |> sbStore (homeJournal + 64 * k) (b ++ leBytes 4 (crc32 b))

/-! ### Capacitance tests that end badly (R120, R121) -/

/-- Release HOLD_LOAD and end the test. -/
def endCapTest (s : State) : State :=
  s |> onPins (fun p => { p with holdLoad := false }) |> fclr F.LDG_STATUS_CAP_TEST 0
    |> onLed (fun l => { l with test := { l.test with phase := .idle, settle := [], recs := [], mean16 := 0, byCommand := false } })

/-- A measurement is rejected: it is counted; the third of a run, and each later one, sets CAP_FAIL3 and writes a record
(R121). -/
def capReject (s : State) : State :=
  let run := s.led.test.run + 1
  s |> endCapTest |> finc F.LDG_CAP_REJECTS_COUNT 0 |> fset F.LDG_ERR_CAP_REJECT 0
    |> onLed (fun l => { l with test := { l.test with run := run } })
    |> when (decide (3 ≤ run)) (fun s => s |> fset F.LDG_ERR_CAP_FAIL3 0 |> land 0x08 3 srcLedger 0 none)

/-- Is a measurement running: does HOLD_LOAD draw, or does it wait to settle? -/
def capRunning (s : State) : Bool := s.led.test.phase != .idle

/-- A trip or a mode change interrupts a running measurement, which is rejected (R121). One that only waits to settle
has measured nothing and is dropped. -/
def capInterrupt (s : State) : State :=
  match s.led.test.phase with
  | .idle => s
  | .waiting => endCapTest s
  | .deferred => endCapTest s
  | _ => capReject s

/-! ### Background operations that end (R335, R337) -/

/-- The background operation ends with a return code and its output: vector 1 is raised (R335, R41). -/
def endBg (r : RetCode) (out : List Byte) (s : State) : State :=
  match s.mbx.bg with
  | none => s
  | some b =>
    s |> onMbx (fun m => { m with bg := none, last := some (b.opcode, r, out), abortReq := false })
      |> when (r.rc == 0x12) (fset F.MBX_ERR_BG_ABORTED 0)
      |> msix 1

/-! ### Mode changes (R184, R269) -/

/-- Change the mode: PREV takes the old one, and a MODE record is written for RAMP, SERVICE and MAINTENANCE. -/
def setMode (m : Mode) (s : State) : State :=
  let old := s.mode
  let rec_ := m = .ramp || m = .service || m = .maintenance || old = .maintenance
  { s with mode := m }
    |> onLife (fun l => { l with modeSince := s.stamp })
    |> fput F.HUB_MODE_PREV 0 (modeCode old)
    |> when rec_ (land 0x0E 7 srcHub 0 none)
    |> applyPowers

/-- The hub stops running: commands it had not completed are answered by nobody (R188). -/
def hubStops (s : State) : State :=
  s |> onMbx (fun m => { m with fg := [] }) |> onSeq (fun q => { q with railWait := [], margins := [] })
    |> onMcv (fun m => { m with convs := tabMap convReset (fun _ c => { c with calVia := none }) m.convs
                                diag := tabMap none (fun _ d => d.map (fun x => { x with via := none })) m.diag })
    |> onLife (fun l => { l with hubUp := false, toMaintenance := false, toService := false, activating := false })
    |> onHost (fun h => { h with mbxReady := false })

/-- STANDBY is entered: the power session has ended, and a restart starts (R184, R187, R207). -/
def enterStandby (s : State) : State :=
  s |> fclr F.LDG_STATUS_FW_ACTIVE 0
    |> onFw (fun f => { f with stage := .idle, kind := .none })
    |> onPins (fun p => { p with coreDet := false, sramDet := false, mmbDet := false, mmbRst := false })
    |> onHost (fun h => { h with linkUp := false, quiesced := false, mbxReady := false })
    |> onLife (fun l => { l with restartAt := s.gtc, goodSince := s.gtc, rampRequest := false, step := .idle })
    |> onSched (fun _ => schedReset) |> hubStops
    |> fput F.SEQ_CTRL_STATE 0 0
    |> onSeq (fun q => { q with fflArmed := false })
    |> setMode .standby

/-! ### Autostore (R300) -/

/-- Autostore starts: each bank stores every page dirty now. -/
def startAutostore (s : State) : State :=
  let dirty := s.sbg.since.map (fun x => x.1)
  s |> onSbg (fun g => { g with autoset := dirty }) |> fbit F.SBG_STATUS_AUTOSTORE 0 (!dirty.isEmpty)
    |> when dirty.isEmpty (onFw (fun f => { f with autostoreDone := true }))

/-! ### The shutdown record (R191, R192) -/

/-- Body of the shutdown record (R191). -/
def shutdownBody (dsc state seq area : Nat) : Nat :=
  dsc % 2 ^ 32 + state * 2 ^ 32 + seq % 2 ^ 32 * 2 ^ 34 + area * 2 ^ 66

/-- Write the shutdown record. -/
def writeShutdown (state seq area : Nat) (s : State) : State :=
  ctrUpdate ctrShutdown (shutdownBody s.life.dsc state seq area) s

/-! ### The drain (R133, R135, R137 to R140) -/

/-- The area a freewheel writes: not that of the newest sealed checkpoint which carries one (R137). -/
def drainArea (s : State) : Nat :=
  match ((s.med.ckpts.filter (fun x => x.2.sealed && x.2.area != 255)).foldl
      (fun m x => match m with | some c => if c.seq < x.2.seq then some x.2 else some c | none => some x.2)
      (none : Option Ckpt)) with
  | some c => 1 - c.area
  | none => 0

/-- Put back a drain slot's content as it verified (R138). -/
def putDrain (area w n : Nat) (d : DrainSlot) (s : State) : State :=
  onMed (fun m => { m with drain := tabPut ((area * 16 + w) * 67584 + n) d m.drain }) s

/-- The next drain slot of a wheel. -/
def nextSlot (s : State) (w : Nat) : Nat := tabGet 0 s.fw.slotNext w

/-- Queue the drain of a directory entry into its wheel's next slot, when there is room (R138). -/
def queueDrain (loc : Nat) (s : State) : State :=
  let w := locSlice loc
  let n := nextSlot s w
  let ma := drainMa w s.fw.area n
  if n < Config.drainSlots && !anyOp s (fun d => match d.kind with | .drainLine l _ _ => l == loc | _ => false)
      && (roomFor s (maBank ma) .drain).isSome then
    s |> onFw (fun f => { f with slotNext := tabPut w (n + 1) f.slotNext })
      |> enqueue (mkDesc (.drainLine loc s.fw.area n) .drain (maBank ma) (dirAt s loc).line ma true false)
  else s

/-- Does the drain run, from T+16 on? -/
def draining (s : State) : Bool := s.fw.stage = .draining && decide (s.fw.t0 / 250 + 16 ≤ tickOf s) && !s.fw.cutShort

/-- Every wheel queues its dirty and scratch lines in ascending entry number (R138). -/
def feedDrain (s : State) : State :=
  if draining s then forEach ((s.cache.dir.filter (fun x => x.2.dv)).map (fun x => x.1)) queueDrain s else s

/-- Is any drain program queued or running? -/
def drainBusy (s : State) : Bool :=
  anyOp s (fun d => match d.kind with | .drainLine _ _ _ => true | _ => false)

/-- Index lines of a wheel's drain: up to the one that describes its last slot used (R139). -/
def indexLines (s : State) (w : Nat) : Nat := (nextSlot s w + 27) / 28

/-- The next index line of a wheel that is still to be queued. -/
def nextIndex (s : State) (w : Nat) : Nat := tabGet 0 s.fw.indexNext w

/-- Queue up to `n` index lines of a wheel as far as there is room; they are single-level programs in the area's index blocks
(R139, R146). -/
def feedWheelIndex (w : Nat) : Nat → State → State
  | 0, s => s
  | n + 1, s =>
    let k := nextIndex s w
    let ma := indexMa w s.fw.area k
    if k < indexLines s w && (roomFor s (maBank ma) .drain).isSome then
      s |> onFw (fun f => { f with indexNext := tabPut w (k + 1) f.indexNext })
        |> enqueue (mkDesc (.indexLine w k) .drain (maBank ma) 0 ma true false) |> feedWheelIndex w n
    else s

/-- The drain index is written once the last drain program has verified (R133, R135, R139). -/
def feedIndex (s : State) : State :=
  if s.fw.stage = .indexing then
    forEach (List.range (Config.wheels s.config)) (fun w s => feedWheelIndex w (indexLines s w - nextIndex s w) s) s
  else s

/-- Has every index line verified? -/
def indexWritten (s : State) : Bool :=
  (List.range (Config.wheels s.config)).all (fun w => decide (indexLines s w ≤ nextIndex s w))
    && !anyOp s (fun d => match d.kind with | .indexLine _ _ => true | _ => false)

/-- The last records of the power-down: POWER_FAIL, and BRAKE where a brake holds; a brake with drain that is cut short writes both
(R133, R135, R136, R204, R269). -/
def powerDownRecord (s : State) : State :=
  let cut := if s.fw.cutShort then 16 else 0
  match s.fw.kind with
  | .full => land 0x03 0 srcFreewheel cut none s
  | .short => land 0x03 0 srcFreewheel (32 + cut) none s
  | _ => s |> when s.fw.cutShort (land 0x03 0 srcFreewheel cut none) |> (fun s => land 0x04 7 (fget s F.HUB_BRAKE_SOURCE 0) 0 none s)

/-- The record stage: the record is captured at the next tick and written by the recorder. -/
def toRecording (s : State) : State :=
  s |> onFw (fun f => { f with stage := .recording, recordDone := false }) |> powerDownRecord
    |> onHost (fun h => { h with quiesced := true })

/-- Go on from one stage of the drain to the next as far as its conditions hold (R133 to R136). -/
def fwProgress (s : State) : State :=
  match s.fw.stage with
  | .draining =>
    if s.fw.t0 / 250 + 16 ≤ tickOf s && !drainBusy s && (s.fw.cutShort || !s.cache.dir.any (fun x => x.2.dv)) then
      s |> onFw (fun f => { f with stage := .indexing, indexNext := [] }) |> feedIndex
    else s
  | .indexing =>
    if !indexWritten s then s
    else if s.fw.cutShort then toRecording s
    else if s.fw.autostoreDone then
      s |> onFw (fun f => { f with stage := .sealing })
        |> writeCkpt (if s.fw.kind = .brakeDrain then 3 else 2) s.fw.area
    else s
  | _ => s

/-- The freewheel is cut short (R135, R216): no further drain program starts. -/
def cutFreewheel (s : State) : State :=
  s |> onFw (fun f => { f with cutShort := true }) |> fset F.LDG_ERR_SHORT_FW 0
    |> onSched (fun q => { q with queue := q.queue.filter (fun d => match d.kind with | .drainLine _ _ _ => false | _ => true) })
    |> fwProgress

/-- Is the tandem still owed a MACK, or has QUIESCE to be sent: link quiesce follows it (R324). In a brake the host port
stays as R204 says until the rails go. -/
def tryQuiesce (s : State) : State :=
  if s.tnd.quiesceDue && s.tnd.waiting.isEmpty then
    s |> when (tndUp s) (emit (.tandem .quiesce)) |> onTnd (fun t => { t with quiesceDue := false })
      |> when (s.mode == .freewheel) (onHost (fun h => { h with quiesced := true }))
  else s

/-- Stores waiting for a program are acknowledged at T+1: the drain carries their lines (R30). -/
def ackAtTrip (s : State) : State :=
  onSched (fun q => { q with ctxs := q.ctxs.map (fun c => if c.st = .program then { c with st := .respond } else c) }) s

/-- The area's slots are free again: their contents count only under index lines of this drain (R139). -/
def emptyArea (area : Nat) (s : State) : State :=
  onMed (fun m => { m with drain := tabFilter (fun k => k / 67584 / 16 != area) m.drain }) s

/-- T+1 of a full freewheel or a brake with drain (R133, R136, R192). -/
def drainT1 (s : State) : State :=
  let area := drainArea s
  let s1 := s |> dropUnstarted |> takeCkptSeq |> emptyArea area
  s1 |> onFw (fun f => { f with stage := .draining, area := area, seq := s1.med.ckptSeq, slotNext := [], indexNext := [], drained := 0
                                sealed := false, cutShort := false, autostoreDone := false })
     |> writeShutdown 2 s1.med.ckptSeq area |> startAutostore |> ackAtTrip

/-! ### Ends (R133, R185, R204 to R206) -/

/-- LDG_FW_LAST and LDG_FW_LINES take the drain's figures, and the journal is updated (R386). -/
def logFreewheel (s : State) : State :=
  s |> fput F.LDG_FW_LAST_TICKS 0 (min 65535 (tickOf s - s.fw.t0 / 250))
    |> fbit F.LDG_FW_LAST_SEALED 0 s.fw.sealed |> fbit F.LDG_FW_LAST_CUT_SHORT 0 s.fw.cutShort
    |> fput F.LDG_FW_LAST_AREA 0 s.fw.area |> fput F.LDG_FW_LINES_LINES 0 s.fw.drained
    |> journalWrite

/-- The hold is reached once the rails are lowered and the brake record is written (R205). -/
def tryHold (s : State) : State :=
  if s.mode = .brake && s.fw.railsDown && s.life.brakeRecord && !fon s F.HUB_MODE_HOLD 0 then
    s |> fset F.HUB_MODE_HOLD 0 |> onFw (fun f => { f with stage := .idle }) |> fclr F.LDG_STATUS_FW_ACTIVE 0 |> hubStops
      |> applyPowers
  else s

/-- The rails are lowered: the core's supplies are gone, and with them the link. -/
def railsGone (s : State) : State :=
  s |> onPins (fun p => { p with coreDet := false, sramDet := false, mmbDet := false, mmbRst := false })
    |> when s.host.linkUp (emit .linkDown)
    |> onHost (fun h => { h with linkUp := false, mbxReady := false })
    |> onFw (fun f => { f with railsDown := true })

/-- A freewheel whose rails are lowered and whose record is written ends, in the tick after: in STANDBY, or in BRAKE after a
brake-class fault (R184, R185, R206). -/
def endFreewheel (s : State) : State :=
  if s.mode = .freewheel && s.fw.railsDown && s.fw.recordDone then
    if s.fw.toBrake then
      s |> logFreewheel |> setMode .brake |> land 0x04 7 (fget s F.HUB_BRAKE_SOURCE 0) 0 none
    else s |> logFreewheel |> enterStandby
  else s

/-- A brake with drain whose rails are lowered and whose record is written has run to its end; the hold follows. -/
def tryEndFw (s : State) : State :=
  if s.mode = .brake && s.fw.railsDown && s.fw.kind = .brakeDrain && s.fw.stage != .idle && s.life.brakeRecord then
    s |> logFreewheel |> tryHold
  else tryHold s

/-- Lower every rail, unless they are going down already (R225). -/
def lowerRails (s : State) : State :=
  if railsDown s then (if s.fw.railsDown then s else railsGone s)
  else if fget s F.SEQ_CTRL_STATE 0 = 4 then s
  else
    let s1 := startDownAll s
    if railsDown s1 then railsGone s1 else s1

/-- The power-down record has been written: the rails follow where they are not already going down (R133, R204). -/
def recordWritten (s : State) : State :=
  let s1 := s |> onFw (fun f => { f with recordDone := true })
              |> when (s.mode == .brake) (onLife (fun l => { l with brakeRecord := true }))
  let s2 := if s1.fw.stage = .recording then s1 |> onFw (fun f => { f with stage := .lowering }) |> lowerRails else s1
  tryEndFw s2

/-! ### The trip (R30, R133, R198, R236, R254, R337) -/

/-- FREEWHEEL is entered at the present tick, in full once REC_CLOSED is set, else in the short form. -/
def enterFreewheel (kind : Nat) (s : State) : State :=
  let full := fon s F.HUB_MODE_REC_CLOSED 0
  let need := fget s F.LDG_ENEED_UJ 0
  s |> firstFault kind srcFreewheel 0 |> cancelEnables |> abortCals |> capInterrupt |> endFlush
    |> endBg ⟨0x12, 0⟩ []
    |> fbit F.HUB_MODE_SHORT_FW 0 (!full) |> fset F.LDG_STATUS_FW_ACTIVE 0
    |> onFw (fun _ => { fwReset with kind := if full then .full else .short, stage := .t0, t0 := s.stamp, eNeed := need })
    |> setMode .freewheel

/-- Input power fails: a freewheel from RAMP, RECOVER, SERVICE or MAINTENANCE; during a brake with drain R135 governs
from then on (R136). In STANDBY nothing stops, a capacitance measurement neither (R121; DESIGN CHOICE, log 99). -/
def inputFails (kind : Nat) (s : State) : State :=
  match s.mode with
  | .ramp => enterFreewheel kind s
  | .recover => enterFreewheel kind s
  | .service => enterFreewheel kind s
  | .maintenance => enterFreewheel kind s
  | .brake => onFw (fun f => { f with onHold := true }) s
  | _ => s

/-! ### The brake (R203 to R206, R52, R53) -/

/-- The causes marked "yes" in R203's Drain column. -/
def causeDrains (cause : Nat) : Bool := decide (2 ≤ cause) && decide (cause ≤ 6)

/-- The latch's own figures: HUB_BRAKE, FAULT_N, the first-fault latch, the ring, the host's event and viral. -/
def brakeNote (cause source : Nat) (s : State) : State :=
  s |> firstFault 10 source cause
    |> fput F.HUB_BRAKE_CAUSE 0 cause |> fput F.HUB_BRAKE_SOURCE 0 source
    |> onPins (fun p => { p with fault := true })
    |> ringOut 3 (cause + source * 256)
    |> when s.host.linkUp (postModule 3 0 7 source)
    |> when (s.host.viralEnable && s.host.linkUp) (fun s =>
        s |> emit .viral |> fset F.HPT_LINK_STATUS_VIRAL_TX 0 |> onHost (fun h => { h with viralBrake := true }))

/-- Loads in flight return poison (R60). -/
def poisonLoads (s : State) : State :=
  let ld (c : Ctx) : Bool := c.op == .load || c.op == .loadData
  let gone := s.sched.ctxs.filter ld
  onSched (fun q => { q with
    ctxs := q.ctxs.map (fun c => if ld c then { c with st := .respond, rpoison := true } else c)
    queue := q.queue.filter (fun d => match d.kind with | .demandRead t => !gone.any (fun c => c.tag == t) | _ => true) }) s

/-- Does a cause marked "no" stop a drain that has not run to its end (R206)? -/
def stopsDrain (cause : Nat) (s : State) : Bool :=
  !causeDrains cause && (s.fw.kind = .full || s.fw.kind = .brakeDrain) && !(s.fw.stage = .recording || s.fw.stage = .lowering)

/-- HUB_MODE and HUB_BRAKE show whether the brake drained. -/
def showDrain (drained : Bool) (s : State) : State :=
  s |> fbit F.HUB_MODE_BRAKE_DRAIN 0 drained |> fbit F.HUB_BRAKE_DRAIN 0 drained

/-- A brake-class fault during a drain (R206): an undrainable one ends it, unsealed, and the rails are lowered at once. One that
comes before T+1 leaves the record that T+1 writes, for the fallback of the next RECOVER. -/
def brakeInDrain (cause : Nat) (s : State) : State :=
  if stopsDrain cause s then
    s |> when (s.fw.stage == .t0) drainT1 |> showDrain false |> dropUnstarted
      |> onSched (fun q => { q with
          queue := q.queue.filter (fun d => d.cls == .demand)
          banks := tabMap bankReset (fun _ b => { b with prog := b.prog.filter (fun p => p.started) }) q.banks })
      |> toRecording |> lowerRails
  else s

/-- Latch BRAKE with a cause of R203 and its fault's source. -/
def latchBrake (cause source : Nat) (s : State) : State :=
  match s.mode with
  | .off => s
  | .standby => s
  | .freewheel =>
    s |> when (!s.fw.toBrake) (fun s => s |> brakeNote cause source |> showDrain (s.fw.kind = .full)
          |> fbit F.HUB_BRAKE_SEALED 0 s.fw.sealed)
      |> onFw (fun f => { f with toBrake := true })
      |> brakeInDrain cause
  | .brake => if s.fw.stage = .idle then s else brakeInDrain cause s
  | _ =>
    let drain := causeDrains cause && (s.mode = .service || s.mode = .maintenance)
    s |> brakeNote cause source |> cancelEnables |> abortCals |> capInterrupt |> endFlush |> endBg ⟨0x12, 0⟩ []
      |> showDrain drain |> fclr F.HUB_BRAKE_SEALED 0
      |> fbit F.LDG_STATUS_FW_ACTIVE 0 drain
      |> onFw (fun _ => { fwReset with kind := if drain then .brakeDrain else .none, stage := .t0, t0 := s.stamp
                                       eNeed := fget s F.LDG_ENEED_UJ 0 })
      |> onLife (fun l => { l with brakeRecord := false, step := .idle, toStandby := false })
      |> onHost (fun h => { h with mediaStatus := 2 })
      |> poisonLoads |> setMode .brake

/-! ### ALERT_N -/

/-- The service conditions that assert ALERT_N: R33, R121, R129, R204, R227 to R229, R257, R280, R298, and the brake. -/
def alertN (s : State) : Bool :=
  s.pins.fault || fon s F.HPT_LINK_STATUS_DEGRADED 0 || fon s F.LDG_ERR_CAP_FAIL3 0 || fon s F.LDG_STATUS_DEFICIT 0
    || fon s F.SEQ_ERR_RETRY_FAIL 0 || fon s F.SEQ_ERR_GROUP_OFF 0 || fon s F.SEQ_ERR_BRAKE 0
    || fon s F.SEQ_ERR_HOLD_LOW_FW 0 || fon s F.SEQ_ERR_SLOT_UNSYNC 0 || fon s F.SBG_ERR_STORE_FAIL 0
    || fon s F.REC_STATUS_FAIL 0 || s.mcv.limAlert

end Sys2Proof.Machine
end

