-- ==== Sys2Proof/Machine/Background.lean ====
section
/-! DEFINITION. What background operations share (R75, R81, R335, R338): taking the next line, locking, scanning and
flushing, and their completion. -/
namespace Sys2Proof.Machine

/-- The background operation of an opcode, if that is the one running. -/
def bgOf (s : State) (opcode : Nat) : Option Bg :=
  match s.mbx.bg with
  | some b => if b.opcode = opcode then some b else none
  | none => none

/-- The line in progress. -/
def bgLine (b : Bg) : Option Nat :=
  match b.todo with
  | [] => none
  | (l, _) :: _ => some l

/-- The ranges after the line in progress. -/
def bgRest (b : Bg) : List (Nat × Nat) :=
  match b.todo with
  | [] => []
  | (l, n) :: rest => if n ≤ 1 then rest else (l + 1, n - 1) :: rest

/-- The operation's work is done: it completes once the pages it stored have verified, at once if none is dirty (R296). -/
def endBgStored (pages : List Nat) (s : State) : State :=
  let ps := pages.filter (pageDirty s)
  if ps.isEmpty then endBg ⟨0, 0⟩ [] s
  else onMbx (fun m => { m with bg := m.bg.map (fun b => { b with pages := ps }) }) s

/-- The output of Lock Cache Lines (R75, R354): LOCKED, REFUSED, LISTED, and the first 64 refused DPAs. -/
def lockOut (b : Bg) : List Byte :=
  let listed := b.refused.take 64
  leBytes 4 b.done ++ leBytes 4 b.refused.length ++ leBytes 4 listed.length ++ leBytes 4 0
    ++ listed.flatMap (fun l => leBytes 8 (l * 256))

/-- The output an operation ends with. -/
def bgOut (b : Bg) : List Byte := if b.opcode = 0xC052 then lockOut b else []

/-- The line in progress is finished; with none left the operation completes. -/
def bgAdvance (b : Bg) (s : State) : State :=
  let b' := { b with todo := bgRest b, filling := false }
  let s1 := onMbx (fun m => { m with bg := some b' }) s
  if b'.todo.isEmpty then endBg ⟨0, 0⟩ (bgOut b') s1 else s1

/-- A line of Lock Cache Lines is refused and left unlocked (R75). -/
def refuseLine (line : Nat) (b : Bg) (s : State) : State := bgAdvance { b with refused := b.refused ++ [line] } s

/-- Lock a resident line, or refuse it when its set holds 12 locked lines (R74, R75). One that is locked already counts as locked
(DESIGN CHOICE, log 81). -/
def lockLine (line : Nat) (b : Bg) (s : State) : State :=
  match locate s line with
  | none => s
  | some loc =>
    if onLockList s line then bgAdvance { b with done := b.done + 1 } s
    else if 12 ≤ setLocked s (wheelOf s line) (setOf s line) then refuseLine line b s
    else
      s |> onCache (fun c => { c with lockList := nsAdd line c.lockList })
        |> (if locOvf loc then id else setWay loc { wayAt s loc with l := true })
        |> bgAdvance { b with done := b.done + 1 }

/-- The line in progress is read in the background class, one read at a time. -/
def fillNext (kind : OpKind) (line : Nat) (b : Bg) (s : State) : State :=
  if anyOp s (fun d => d.kind == kind) then s
  else
    s |> onMbx (fun m => { m with bg := some { b with filling := true } })
      |> enqueue (mkDesc kind .background (maBank (maOf s line)) line (maOf s line) false true)

/-- Is no further line begun: an abort has been accepted and no line is in progress (R336)? -/
def bgStopped (s : State) (b : Bg) : Bool := s.mbx.abortReq && !b.filling

/-- One line of Lock Cache Lines per tick: a line that is not resident is filled first, by a background read, in bypass too
(R75); a released line fills with zeros. A set that can take no further line refuses it (DESIGN CHOICE, log 80). -/
def lockStep (s : State) : State :=
  match bgOf s 0xC052 with
  | none => s
  | some b =>
    match bgLine b with
    | none => s
    | some line =>
      let full := decide (12 ≤ setLocked s (wheelOf s line) (setOf s line)) && !onLockList s line
      let stuck := (locate s line).isNone && setStuck s (wheelOf s line) (setOf s line)
      if bgStopped s b then s
      else if full || stuck then refuseLine line b s
      else if lineReleased s line then s |> placeFill line zeroLine 0 |> lockLine line b
      else match locate s line with
        | some loc => if locSv s loc = 15 then lockLine line b s else fillNext .lockFill line b s
        | none => fillNext .lockFill line b s

/-- One line of Scan Media: read once in the background class; a released line needs no read (R338). -/
def scanStep (s : State) : State :=
  match bgOf s 0x4304 with
  | none => s
  | some b =>
    match bgLine b with
    | none => s
    | some line =>
      if bgStopped s b then s
      else if lineReleased s line then bgAdvance { b with done := b.done + 1 } s
      else fillNext .scanRead line b s

/-- A scanned line has been decoded (R53, R338). -/
def scanDone (line : Nat) (failed : Bool) (s : State) : State :=
  match bgOf s 0x4304 with
  | none => s
  | some b =>
    s |> when failed (fun s => s |> onHost (fun h => { h with scanResults := h.scanResults ++ [line] })
          |> addPoisonLine line 3 |> postOrQueue 2 0 3 (line * 256) 4 (srcWheel (wheelOf s line)))
      |> (if bgLine b = some line then bgAdvance { b with done := b.done + 1 } else id)

/-- Bypass takes effect: clean lines of the persistent partition are invalidated, the mode is stored (R81, R82, R84). -/
def storeCacheState (s : State) : State :=
  let st := if fget s F.CCH_MODE_STATE 0 = 2 then 2 else 0
  sbStore homeOps (leBytes 4 (st + fget s F.CCH_MODE_SCRATCH_STEPS 0 * 8 + fget s F.CCH_MODE_SCRATCH_NEXT 0 * 256)) s

/-- Drop the clean lines of the persistent partition; pinned and scratch lines stay. -/
def dropClean (s : State) : State :=
  onCache (fun c => { c with ways := tabMap wayReset (fun k w =>
    let loc := wayLoc (k / 65536) (k % 65536 / 16) (k % 16)
    if w.v && !w.d && !w.p && !locScratch s loc then emptyWay w else w) c.ways }) s

/-- The last line of the flush has verified: bypass takes effect and the operation completes (R81). -/
def flushDone (s : State) : State :=
  if fget s F.CCH_MODE_STATE 0 = 1 && s.cache.flush.isEmpty then
    s |> fput F.CCH_MODE_STATE 0 2 |> dropClean |> storeCacheState |> endBgStored [homeOps / 256]
  else s

/-- The flush goes on with fewer lines (R81). -/
def keepFlush (keep : Nat → Bool) (s : State) : State :=
  let left := s.cache.flush.filter keep
  if left.length = s.cache.flush.length then s
  else s |> onCache (fun c => { c with flush := left }) |> fput F.CCH_FLUSH_REMAIN_LINES 0 left.length |> flushDone

/-- The program of a line has verified: the line leaves the flush, whatever has been stored in it since (R81). -/
def flushed (line : Nat) (s : State) : State := keepFlush (fun l => l != line) s

/-- Lines that a release or an erase has dropped, or that were pinned, have no write-back left to wait for. -/
def flushTick (s : State) : State :=
  keepFlush (fun l => match locate s l with | some loc => locDirty s loc && !locPinned s loc | none => false) s

/-! ### Crypto erase (R26, R76, R79, R141, R161, R339) -/

/-- Sanitize, Secure Erase and the vendor Crypto Erase. -/
def eraseOp (o : Nat) : Bool := o == 0x4400 || o == 0x4401 || o == 0xC004

/-- The erase completes once every die has cleared and no area is live; a checkpoint is sealed at once after it (R169). -/
def eraseEnd (s : State) : State :=
  match s.mbx.bg with
  | none => s
  | some b =>
    if eraseOp b.opcode && b.pages.isEmpty && s.med.clrDies.isEmpty && s.med.liveArea.isNone then
      s |> onHost (fun h => { h with erased := true }) |> dueCkpt |> endBgStored [4035, 4036]
    else s

/-- Every cache line is discarded, locks are cleared, and scratch is zeroed. -/
def eraseCache (s : State) : State :=
  onCache (fun c => { c with
    ways := tabMap wayReset (fun k w =>
      if locScratch s (wayLoc (k / 65536) (k % 65536 / 16) (k % 16)) then { w with sp := 0, data := zeroLine }
      else emptyWay w) c.ways
    ovf := [], dir := tabMap dirReset (fun _ d => if d.scr then { d with sp := 0 } else dirReset) c.dir
    lockList := [], flush := [] }) s

/-- The key area takes the new key set twice, each copy with its CRC-32 (R291; the pages are the model's, log 13). -/
def storeKeys (k : Nat) (s : State) : State :=
  let bs := leBytes 4 k
  s |> sbStore (4035 * 256) (bs ++ leBytes 4 (crc32 bs)) |> sbStore (4036 * 256) (bs ++ leBytes 4 (crc32 bs))

/-- Is an operation a line of a checkpoint? -/
def ckptLine (d : Desc) : Bool := match d.kind with | .seal _ => true | .bodyLine _ _ => true | _ => false

/-- The erase begins. -/
def startErase (s : State) : State :=
  let lost := s.med.lost
  s |> eraseCache
    |> onSched (fun q => { q with
        ctxs := q.ctxs.map (fun c => if c.st = .program then { c with st := .respond } else c)
        banks := tabMap bankReset (fun _ b => { b with
          sense := none, latch := none, decoding := none, prog := b.prog.filter (fun p => p.started || ckptLine p.op) }) q.banks
        wait := [], queue := q.queue.filter (fun d => d.cls == .demand || d.cls == .drain || ckptLine d) })
    |> onHost (fun h => { h with poisonList := [], poisonOverflow := none, injected := [] })
    |> onMed (fun m => { m with key := m.key + 1, keyBad := false, released := bmFull, relPending := bmFull
                                restoreLeft := [], held := [], restored := [], lost := []
                                ptrs := lost.foldl (fun t r => tabDel r t) m.ptrs })
    |> (fun s => storeKeys s.med.key s)
    |> forEach lost storePtr
    |> clearDies

/-- The lines of the background operations that a tick takes on. -/
def bgTick (s : State) : State := if inService s then s |> lockStep |> scanStep |> flushTick else s

end Sys2Proof.Machine
end

