-- ==== Sys2Proof/Machine/Patrol.lean ====
section
/-! DEFINITION. Patrol (R88, R162, R163, R181): its position, the visit of a slot, and what the weakness of its lines leads
to. -/
namespace Sys2Proof.Machine

/-- A line that failed to decode enters the poison list and is reported with transaction type `sub` (R51, R53). -/
def failedLine (line sub : Nat) (s : State) : State :=
  s |> addPoisonLine line sub |> postOrQueue 2 0 sub (line * 256) 4 (srcWheel (wheelOf s line))

/-! ### Position -/

/-- The region after `r` on the wheel, in ascending order. -/
def nextRegion (s : State) (w r : Nat) : Option Nat := (wheelRegions s w).find? (fun q => decide (r < q))

/-- Patrol's position after its present slot: by wheel, then region, then slot; a pass ends after the last. -/
def patrolNext (s : State) : Patrol :=
  let p := s.med.patrol
  let p' := { p with visited := p.visited + 1, visit := none }
  if p.slot < Config.rotN then { p' with slot := p.slot + 1 }
  else match nextRegion s p.wheel p.region with
    | some r => { p' with region := r, slot := 0 }
    | none =>
      let w := p.wheel + 1
      if w < Config.wheels s.config then { p' with wheel := w, region := (wheelRegions s w).headD 0, slot := 0 }
      else { p' with wheel := 0, region := (wheelRegions s 0).headD 0, slot := 0, lastNeed := p.thisNeed, thisNeed := [], visited := 0 }

/-- Per cent of the pass done. -/
def patrolPct (s : State) : Nat := s.med.patrol.visited * 100 / (Config.regions s.config * (Config.rotN + 1))

/-- Patrol takes a position, and HUB_PATROL_POS shows it (R181). -/
def placePatrol (p : Patrol) (s : State) : State :=
  s |> onMed (fun m => { m with patrol := p }) |> fput F.HUB_PATROL_POS_REGION 0 p.region
    |> (fun s => fput F.HUB_PATROL_POS_PCT 0 (patrolPct s) s)

/-- Patrol goes on to the next slot; a pass that ends is counted. -/
def patrolAdvance (s : State) : State :=
  let p := patrolNext s
  s |> placePatrol p |> when (p.visited == 0) (finc F.HUB_PATROL_POS_PASSES 0)

/-- Does patrol skip the slot: the gap, a slot in a gap move, a released block, or a lost region? -/
def patrolSkips (s : State) (r slot : Nat) : Bool :=
  slot == (ptrOf s r).gap || (match gapOf s r with | some g => slot == g.src || slot == g.dst | none => false)
    || nsHas r s.med.lost || bmGet s.med.released (extentAt s r (blockOfSlot s r slot))

/-! ### What a visit leads to -/

/-- A line's weakness (R162): its weak and erased cells, or 20 when the map overflowed. -/
def weakness (m : SoftMap) : Nat :=
  if m.overflow then 20
  else m.b0.n01 + m.b0.n10 + m.b0.n11 + m.b1.n01 + m.b1.n10 + m.b1.n11 + m.b2.n01 + m.b2.n10 + m.b2.n11

/-- A rewrite in place of a line at `ma`: with what its one sense showed, or, in the refresh of its block, after a sense of its
own (R88). -/
def rewriteDesc (line ma : Nat) (sense : Bool) (x : PatrolSeen) : Desc :=
  { mkDesc .rewrite .background (maBank ma) line ma false sense with data := x.data, sp := x.sp }

/-- A line that failed to decode is written as poison (R148, R162). -/
def patrolPoison (line ma : Nat) (x : PatrolSeen) (s : State) : State := s |> failedLine line 5 |> enqueue (rewriteDesc line ma false x)

/-- A line that is dirty in the cache is left to its write-back. -/
def patrolRewrite (line ma : Nat) (sense : Bool) (x : PatrolSeen) (s : State) : State :=
  if (match locate s line with | some loc => locDirty s loc | none => false) then s else enqueue (rewriteDesc line ma sense x) s

/-- The written lines of a slot have been read: weak lines are rewritten, four of them refresh the block, a second refresh in a row
retires it, and failed lines are written as poison (R155, R162, R163). -/
def patrolDecide (r slot : Nat) (seen : List PatrolSeen) (s : State) : State :=
  let th := max 1 (min 20 (fget s F.HUB_PATROL_CFG_LINE_THRESH 0))
  let ma := slotMa s r slot
  let weak := seen.filter (fun x => decide (th ≤ x.weak))
  let key := r * 262144 + slot
  let rewrite (sense : Bool) (xs : List PatrolSeen) : State → State :=
    forEach (xs.filter (fun x => !x.failed)) (fun x s => patrolRewrite (lineInSlot s r slot x.k) (ma + x.k) sense x s)
  let s1 := forEach (seen.filter (fun x => x.failed)) (fun x s => patrolPoison (lineInSlot s r slot x.k) (ma + x.k) x s) s
  if weak.length < 4 then rewrite false weak s1
  else
    let s2 := onMed (fun m => { m with patrol := { m.patrol with thisNeed := nsAdd key m.patrol.thisNeed } }) s1
    if nsHas key s.med.patrol.lastNeed then startRetire r slot false s2 else rewrite true seen s2

/-- A line of the slot being visited has been read: what a written line shows is noted, and the last line decides. -/
def patrolRead (r slot k : Nat) (x : Option PatrolSeen) (s : State) : State :=
  match s.med.patrol.visit with
  | none => s
  | some v =>
    if v.region != r || v.slot != slot then s
    else
      let v' := { v with left := nsDel k v.left, seen := v.seen ++ x.toList }
      if v'.left.isEmpty then s |> patrolDecide r slot v'.seen |> patrolAdvance
      else onMed (fun m => { m with patrol := { m.patrol with visit := some v' } }) s

/-! ### Its command -/

/-- Patrol begins the visit of its next slot at stamp `t`: the hub looks the slot up, and its 16 lines are read in the background class (R88,
R106); a slot that is skipped is passed over. -/
def patrolStep (w : Wheel) (t : Nat) (s0 : State) : State :=
  let p := s0.med.patrol
  if inService s0 && fon s0 F.HUB_PATROL_CFG_EN 0 && w.val = p.wheel && p.visit.isNone then
    let s := advanceTo t s0
    if patrolSkips s p.region p.slot then patrolAdvance s
    else
      s |> onMed (fun m => { m with patrol := { m.patrol with visit := some ⟨p.region, p.slot, List.range 16, []⟩ } })
        |> onSched (fun q => { q with jobs := q.jobs ++ [.xtabLookup p.region p.slot] })
  else s0

def execPatrolStep (w : Wheel) (t : Nat) (s : State) : Host.Outcome State Fault Refusal :=
  onWheel w (patrolStep w t) s

end Sys2Proof.Machine
end

