-- ==== Sys2Proof/Machine/HostPort.lean ====
section
/-! DEFINITION. The meanings of the host's memory requests and of the memory path's events (chapters 02 to 04). -/
namespace Sys2Proof.Machine

/-! ### Loads (R30, R43, R47, R49, R58, R64, R158, R171) -/

/-- The context of a served load. -/
def loadCtx (op : CtxOp) (tag : BitVec 16) (hpa dpa t : Nat) : Ctx := { newCtx op tag hpa dpa t 480 with served := true }

/-- A load answered with poison and no data of its own. -/
def poisonLoad (c : Ctx) (s : State) : State :=
  s |> addCtx { c with st := .respond, rdata := freeSector s 0, rpoison := true } |> useFree

/-- Scratch ways are not looked up, so no tag or directory word is read (R70): of the findings the port's own remains. -/
def portCheck (chk : ArrayCheck) (s : State) : State := when (chk == .portSec) portSec s

/-- A load of backed scratch: always a hit (R79). -/
def scratchLoad (c : Ctx) (chk : ArrayCheck) (s : State) : State :=
  let loc := scratchLoc (lineOf c.dpa - scratchLine0)
  let sec := sectorOf c.dpa
  let s1 := s |> portCheck chk |> dataCheck loc sec chk
  s1 |> addCtx { c with st := .hit } |> respond c.tag (lineGet (wayAt s1 loc).data sec) ((wayAt s1 loc).sp.getLsbD sec)

/-- A load of the persistent partition, after its lookup found no loss. -/
def persistentLoad (c : Ctx) (chk : ArrayCheck) (s : State) : State :=
  let line := lineOf c.dpa
  let sec := sectorOf c.dpa
  let s1 := match locate s line with
    | some loc => if (locSv s loc).getLsbD sec then dataCheck loc sec chk s else s
    | none => s
  let miss : State :=
    if lineReleased s1 line then s1 |> addCtx { c with st := .respond }
    else if lineMasked s1 line then s1 |> addPoisonLine line 1 |> poisonLoad c
    else s1 |> addCtx { c with ma := maOf s1 line } |> enqueueDemand c.tag
  match locate s1 line with
  | some loc =>
    if (locSv s1 loc).getLsbD sec then
      s1 |> useWay loc |> addCtx { c with st := .hit } |> respond c.tag (lineGet (locData s1 loc) sec) ((locSp s1 loc).getLsbD sec)
    else miss
  | none => miss

/-- A dirty line has lost both its tag and its directory word: BRAKE with drain (R73). -/
def directoryLost (loc : Nat) (s : State) : State :=
  s |> land 0x0A 4 (srcWheel (locSlice loc)) 0 none |> latchBrake 4 (srcWheel (locSlice loc))

/-- A load in SERVICE. -/
def serviceLoad (op : CtxOp) (tag : BitVec 16) (hpa t : Nat) (chk : ArrayCheck) (s : State) : State :=
  match hdmDecode s hpa with
  | none => s |> countMiss |> answerLoad op tag hpa t
  | some dpa =>
    let c := { loadCtx op tag hpa dpa t with st := .lookup }
    if unbacked s dpa then s |> fset F.HPT_ERR_STATUS_UNBACKED_SCRATCH 0 |> answerLoad op tag hpa t
    else if scratchBacked s dpa then scratchLoad c chk s
    else if s.med.keyBad then poisonLoad c s
    else
      let line := lineOf dpa
      let f := lookupCheck (wheelOf s line) (setOf s line) chk s
      if f.lost then f.st |> directoryLost f.loc |> answerLoad op tag hpa t
      else persistentLoad c chk f.st

/-- A load arrives (R30, R48, R49): it uses a Req credit and takes a context. -/
def loadFlow (op : CtxOp) (tag : BitVec 16) (hpa t : Nat) (chk : ArrayCheck) (s0 : State) : State :=
  let s := advanceTo t s0
  if !memLink s || (ctxOf s tag).isSome || ctxFull s then s
  else if modeAt t s = .freewheel then s |> takeReq |> poisonLoad (newCtx op tag hpa 0 t 480)
  else if refusesLoad t s then s |> takeReq |> countRefused |> answerLoad op tag hpa t
  else s |> takeReq |> serviceLoad op tag hpa t chk

def execMemrd (tag : BitVec 16) (hpa t : Nat) (chk : ArrayCheck) (s : State) : Host.Outcome State Fault Refusal :=
  run (loadFlow .load tag hpa t chk) s

def execMemrddata (tag : BitVec 16) (hpa t : Nat) (chk : ArrayCheck) (s : State) : Host.Outcome State Fault Refusal :=
  run (loadFlow .loadData tag hpa t chk) s

/-! ### Stores (R43, R47 to R51, R66, R67, R171, R319) -/

/-- A store received while the host holds no RwD credit is discarded and never acknowledged (R67, R52). -/
def receiverOverflow (s : State) : State :=
  rasReport 1 2 s

/-- A store that carries the host's poison has been received, whatever becomes of it (R51, R52). -/
def poisonReceived (s : State) : State := rasReport 0 1 s

/-- A store to what no scratch backs, or to a barred mirror line: completed, discarded, listed and reported (R43, R319). -/
def discardStore (op : CtxOp) (tag : BitVec 16) (hpa dpa t : Nat) (barred : Bool) (s : State) : State :=
  s |> fset (if barred then F.TND_ERR_MIRROR_WRITE else F.HPT_ERR_STATUS_UNBACKED_SCRATCH) 0
    |> handBack |> addPoison (dpa / 64 * 64) 1 2 |> postOrQueue 1 0 2 (dpa / 64 * 64) 5 srcHost
    |> answerStore op tag hpa t false

/-- Write a sector of the persistent partition for a context and go on to its acknowledgement, which waits for the program only
until T+1 of a trip (R30). -/
def writeStore (c : Ctx) (data : Sector) (poison hostPoison : Bool) (s : State) : State :=
  let line := lineOf c.dpa
  let dead := lineDead s line
  match storeLine line (sectorOf c.dpa) data poison s with
  | (s1, some _) =>
    s1 |> when hostPoison (addPoisonLine line 2) |> storeWritten c.tag data (programAck s1 && !dead && !tripPassed s1)
  | (s1, none) =>
    if dead then s1 |> handBack |> onCtx c.tag (fun c => { c with st := .respond })
    else s1 |> receiverOverflow |> freeCtx c.tag

/-- The base of a partial write that needs no media read: a valid sector, a masked line, or a released one. -/
def partialBase (s : State) (line sec : Nat) : Option (Sector × Bool) :=
  let unread : Option (Sector × Bool) :=
    if lineReleased s line then some (0, false) else if lineMasked s line then some (0, true) else none
  match locate s line with
  | some loc =>
    if (locSv s loc).getLsbD sec then some (lineGet (locData s loc) sec, (locSp s loc).getLsbD sec)
    else unread
  | none => unread

/-- A store to the persistent partition, after its lookup found no loss. -/
def persistentStore (c : Ctx) (chk : ArrayCheck) (s : State) : State :=
  let line := lineOf c.dpa
  let sec := sectorOf c.dpa
  if c.op = .store then s |> addCtx c |> writeStore c c.data c.poisonIn c.poisonIn
  else
    let s1 := match locate s line with
      | some loc => if (locSv s loc).getLsbD sec then dataCheck loc sec chk s else s
      | none => s
    match partialBase s1 line sec with
    | some (old, bad) => s1 |> addCtx c |> writeStore c (mergeBytes c.be old c.data) (bad || c.poisonIn) c.poisonIn
    | none => s1 |> addCtx { c with ma := maOf s1 line, deadline := c.arrival + 480 } |> enqueueDemand c.tag

/-- A store to backed scratch. -/
def scratchStore (c : Ctx) (chk : ArrayCheck) (s : State) : State :=
  let l := lineOf c.dpa - scratchLine0
  let loc := scratchLoc l
  let sec := sectorOf c.dpa
  let s1 := portCheck chk s
  let s2 := if c.op = .store then s1 else dataCheck loc sec chk s1
  let w := wayAt s2 loc
  let data := if c.op = .store then c.data else mergeBytes c.be (lineGet w.data sec) c.data
  let poison := c.poisonIn || (c.op != .store && w.sp.getLsbD sec)
  s2 |> addCtx c |> storeScratch l sec data poison
     |> when c.poisonIn (addPoisonLine (lineOf c.dpa) 2) |> storeWritten c.tag data false

/-- A store in SERVICE, its credit taken. -/
def serviceStore (c0 : Ctx) (t : Nat) (chk : ArrayCheck) (s : State) : State :=
  match hdmDecode s c0.hpa with
  | none => s |> countMiss |> handBack |> answerStore c0.op c0.tag c0.hpa t true
  | some dpa =>
    let c := { c0 with dpa := dpa, st := .write }
    let line := lineOf dpa
    if unbacked s dpa then discardStore c.op c.tag c.hpa dpa t false s
    else if scratchBacked s dpa then scratchStore c chk s
    else if storeBarred s line then discardStore c.op c.tag c.hpa dpa t true s
    else
      let f := lookupCheck (wheelOf s line) (setOf s line) chk s
      if f.lost then f.st |> directoryLost f.loc |> answerStore c.op c.tag c.hpa t false
      else persistentStore c chk f.st

/-- A store arrives (R30, R48, R49, R52, R67). -/
def storeFlow (op : CtxOp) (tag : BitVec 16) (hpa t : Nat) (data : Sector) (be : BitVec 64) (poison : Bool) (chk : ArrayCheck)
    (s0 : State) : State :=
  let s := advanceTo t s0
  if !memLink s || (ctxOf s tag).isSome || ctxFull s then s
  else
    let s1 := when poison poisonReceived s
    if fget s F.HPT_CREDIT_RWD_OUT 0 = 0 then receiverOverflow s1
    else
      let s2 := fput F.HPT_CREDIT_RWD_OUT 0 (fget s F.HPT_CREDIT_RWD_OUT 0 - 1) s1
      if modeAt t s = .freewheel then s2
      else if refusesStore t s then s2 |> countRefused |> handBack |> answerStore op tag hpa t false
      else serviceStore { newCtx op tag hpa 0 t 90 with data := data, be := be, poisonIn := poison, served := true } t chk s2

def execMemwr (tag : BitVec 16) (hpa t : Nat) (data : Sector) (poison : Bool) (chk : ArrayCheck) (s : State) :
    Host.Outcome State Fault Refusal :=
  run (storeFlow .store tag hpa t data (BitVec.allOnes 64) poison chk) s

def execMemwrptl (tag : BitVec 16) (hpa t : Nat) (data : Sector) (be : BitVec 64) (poison : Bool) (chk : ArrayCheck) (s : State) :
    Host.Outcome State Fault Refusal :=
  run (storeFlow .storePtl tag hpa t data be poison chk) s

/-! ### Requests without a context (R89) -/

/-- MemInv and MemInvNT complete at once with Cmp; their Req credit goes back with it. -/
def invalidate (tag : BitVec 16) (s : State) : State := if memLink s then s |> takeReq |> emit (.cmp tag) |> giveReq else s

def execMeminv (tag : BitVec 16) (_hpa : Nat) (s : State) : Host.Outcome State Fault Refusal := run (invalidate tag) s

def execMeminvnt (tag : BitVec 16) (_hpa : Nat) (s : State) : Host.Outcome State Fault Refusal := run (invalidate tag) s

/-- MemSpecRd is accepted and dropped without a response; its Req credit goes back. -/
def dropSpecRd (s : State) : State := if memLink s then s |> takeReq |> giveReq else s

def execMemspecrd (_hpa : Nat) (s : State) : Host.Outcome State Fault Refusal := run dropSpecRd s

/-! ### The read's way through its bank (R107, R108) -/

/-- The gate dispatches the first demand read of the bank that has not been dispatched. -/
def dispatchStep (tag : BitVec 16) (t : Nat) (s : State) : State :=
  match demandDesc s tag with
  | none => s
  | some d =>
    if nextDemand s d.bank = some d then s |> advanceTo t |> dispatchDemand tag d else s

def execDemandReadDispatch (tag : BitVec 16) (t : Nat) (s : State) : Host.Outcome State Fault Refusal :=
  run (dispatchStep tag t) s

/-- A demand read's sense has ended: its descriptor is free again, and a waiter takes its place (R90, R94). -/
def demandLatched (c : Ctx) (s : State) : State :=
  let s1 := onCtx c.tag (fun c => { c with st := .window }) s
  (match demandDesc s1 c.tag with | some d => unqueue d.id s1 | none => s1) |> admitWaiters (maBank c.ma)

/-- A sense ends: the demand read that ends first, else the bank's own sense. -/
def senseLatched (b : BankId) (t : Nat) (s : State) : State :=
  let n := bankNo b
  match sensing s n with
  | some c => s |> advanceTo t |> advanceTo c.ready |> demandLatched c |> gates
  | none =>
    match (bankSt s n).sense with
    | some d => s |> advanceTo t |> advanceTo (bankSt s n).senseReady
                  |> onBank n (fun b => { b with sense := none, latch := some d })
    | none => s

def execSenseLatched (b : BankId) (t : Nat) (s : State) : Host.Outcome State Fault Refusal :=
  onWheel b.w (senseLatched b t) s

/-- The booked window starts and the latched line is transferred. -/
def windowStart (tag : BitVec 16) (t : Nat) (s : State) : State :=
  match ctxOf s tag with
  | none => s
  | some c =>
    if c.st = .window then
      let n := maBank c.ma
      s |> advanceTo t |> advanceTo c.window |> sendOp 2 (mkDesc (.demandRead tag) .demand n 0 c.ma false false)
        |> onCtx tag (fun c => { c with st := .decode2 }) |> gates
    else s

def execDemandWindowStart (tag : BitVec 16) (t : Nat) (s : State) : Host.Outcome State Fault Refusal :=
  run (windowStart tag t) s

/-- A non-demand transfer starts only if it ends before the next booked window begins (R108); the bank's last line has been decoded
by then. Its decode is a job (R106), and the bank may sense again. -/
def nonDemandTransfer (b : BankId) (t : Nat) (s0 : State) : State :=
  let n := bankNo b
  match (bankSt s0 n).latch with
  | none => s0
  | some d =>
    let s := advanceTo t s0
    if busFree s b.w.val 30 && (bankSt s n).decoding.isNone then
      s |> useBus b.w.val 30 |> sendOp 2 d |> onBank n (fun b => { b with latch := none, decoding := some d })
        |> onSched (fun q => { q with jobs := q.jobs ++ [.softDecode n] }) |> engineUsed (engineOf s d) |> gates
    else s

def execNonDemandTransfer (b : BankId) (t : Nat) (s : State) : Host.Outcome State Fault Refusal :=
  onWheel b.w (nonDemandTransfer b t) s

/-! ### Decode (R102, R103, R385) -/

/-- What a decode leaves in the counters, for a line that was written (R103, R114). -/
def decodeNote (ma : Nat) (out : DecodeOutcome) (soft : SoftMap) (s : State) : State :=
  let w := bankWheel (maBank ma)
  s |> pushSoft ma soft
    |> when soft.overflow (fun s => s |> finc F.WHLn_SOFT_OVF_COUNT w |> fset F.WHLn_ERR_SOFT_OVF w)
    |> when (out == .softCorrected) (onHost (fun h => { h with corrPersistent := h.corrPersistent + 1 }))
    |> when (out == .failed) (fun s => s |> finc F.WHLn_DECODE_FAIL_COUNT w |> fset F.WHLn_ERR_DECODE_FAIL w)

/-- The demand read of a context is decoded: the line fills the cache, and the load is answered or the partial store
goes on. -/
def decodeDemand (c : Ctx) (out : DecodeOutcome) (soft : SoftMap) (s : State) : State :=
  let line := lineOf c.dpa
  let sec := sectorOf c.dpa
  let blank := (mlineAt s c.ma).isNone
  let failed := out == .failed && !blank
  let got : Line × BitVec 4 :=
    if lineReleased s line then (zeroLine, 0) else if failed then (freeLine s, 15) else readLine s c.ma line
  let s1 := s |> when (!blank) (decodeNote c.ma out soft) |> when failed (fun s => s |> failedLine line 1 |> useFreeLine)
  let now := sectorNow s1 line sec got.1 got.2
  let s2 := fillLine line got.1 got.2 s1
  if c.op = .storePtl then
    writeStore c (mergeBytes c.be now.1 c.data) (now.2 || c.poisonIn) c.poisonIn s2
  else respond c.tag now.1 now.2 s2

/-- A bank's own read is decoded (R385, R88, R150, R156, R162, R75, R338): a merge and a rewrite become programs of their bank, a copy
one of the bank it goes to. -/
def decodeBank (n : Nat) (d : Desc) (out : DecodeOutcome) (soft : SoftMap) (s0 : State) : State :=
  let blank := (mlineAt s0 d.ma).isNone
  let zeros := lineReleased s0 d.line && (match d.kind with | .writeBack _ => true | .scanRead => true | .lockFill => true | _ => false)
  let failed := out == .failed && !blank && !zeros
  let got := if zeros then (zeroLine, 0) else readLine s0 d.ma d.line
  let s := s0 |> onBank n (fun b => { b with decoding := none })
    |> onSched (fun q => { q with jobs := q.jobs.filter (fun j => j != .softDecode n) })
    |> when (!blank) (decodeNote d.ma out soft)
  let data := if failed then zeroLine else got.1
  let sp : BitVec 4 := if failed then 15 else got.2
  let bad (sub : Nat) : State → State := when failed (failedLine d.line sub)
  let back : State → State := requeue { d with data := data, sp := sp, ready := true }
  let copyTo (ma : Nat) : Desc := { mkDesc d.kind .background (maBank ma) d.line ma false false with data := data, sp := sp }
  match d.kind with
  | .writeBack _ => s |> bad 6 |> back
  | .restoreHome _ => s |> bad 6 |> back
  | .rewrite => if blank then s else s |> bad 5 |> back
  | .gapCopy r k =>
    (match gapOf s r with
     | some g =>
       if g.stage != .copying || d.ma != gapMa s r g.src + k then s
       else s |> bad 6 |> gapSensed r k (if blank then none else some (copyTo (gapMa s r g.dst + k)))
     | none => s)
  | .retireCopy r slot k =>
    (match s.med.retire with
     | some t =>
       if t.region != r || t.slot != slot || t.storing then s
       else if blank then retireLineDone k s
       else s |> bad 6 |> enqueue (copyTo (t.spare + k))
     | none => s)
  | .patrolRead r slot k => patrolRead r slot k (if blank then none else some ⟨k, weakness soft, failed, data, sp⟩) s
  | .scanRead => scanDone d.line failed s
  | .lockFill =>
    let s1 := s |> bad 6 |> placeFill d.line data sp
    (match bgOf s1 0xC052 with | some b => if bgLine b = some d.line then lockLine d.line b s1 else s1 | none => s1)
  | _ => s

/-- The decode of a source ends. -/
def decodeStep (src : DecodeSource) (errs : BitErrors) (soft : SoftMap) (t : Nat) (s : State) : State :=
  match src with
  | .demand tag =>
    (match ctxOf s tag with
     | some c => if c.st = .decode2 then s |> advanceTo t |> decodeDemand c (decodeOf errs) soft else s
     | none => s)
  | .bank b =>
    (match (bankSt s (bankNo b)).decoding with
     | some d => s |> advanceTo t |> decodeBank (bankNo b) d (decodeOf errs) soft |> gates
     | none => s)

def execDecodeComplete (src : DecodeSource) (errs : BitErrors) (soft : SoftMap) (t : Nat) (s : State) :
    Host.Outcome State Fault Refusal := run (decodeStep src errs soft t) s

/-! ### Responses (R89, R91, R112) -/

/-- The response that leaves next: the earliest deadline, in order of arrival. -/
def nextResponse (s : State) : Option Ctx :=
  (s.sched.ctxs.filter (fun c => c.st == .respond && !c.mute)).foldl
    (fun m c => match m with | some x => if c.deadline < x.deadline then some c else m | none => some c) none

/-- The wheel that served a context. -/
def ctxWheel (s : State) (c : Ctx) : Nat :=
  if Config.scratchBase ≤ c.dpa then (lineOf c.dpa - scratchLine0) % 16 else wheelOf s (lineOf c.dpa)

/-- The latency figures of a served load (R112): misses answered after their deadline are excursions. -/
def countLatency (c : Ctx) (s : State) : State :=
  let w := ctxWheel s c
  let lat := s.gtc - c.arrival
  s |> fhigh F.WHLn_LAT_MAX_NS w lat
    |> when (c.window != 0 && decide (c.deadline < s.gtc)) (fun s => s
      |> finc F.WHLn_EXC_COUNT_COUNT w |> fset F.WHLn_ERR_EXCURSION w
      |> fput F.WHLn_EXC_LAST_LAT w (min lat 4095) |> fput F.WHLn_EXC_LAST_D w (min c.ahead 63)
      |> fput F.WHLn_EXC_LAST_C w (min c.displaced 63)
      |> fbit F.WHLn_EXC_LAST_QWAIT w c.waited |> fbit F.WHLn_EXC_LAST_REISSUE w c.reissued)

/-- A response leaves and its context is freed. -/
def transmit (c : Ctx) (s : State) : State :=
  if c.op = .load || c.op = .loadData then
    s |> when c.served (countLatency c) |> when c.rpoison (finc F.HPT_POISON_TX_COUNT 0)
      |> emit (.memData c.tag c.rdata c.rpoison) |> giveReq |> freeCtx c.tag
  else
    s |> when c.served (onHost (fun h => { h with erased := false })) |> emit (.cmp c.tag)
      |> when c.creditBack (fun s => s |> fadd F.HPT_CREDIT_RWD_OUT 0 1 |> emit (.rwdCredits 1))
      |> freeCtx c.tag

/-- The response that leaves is the one of earliest deadline. -/
def transmitStep (tag : BitVec 16) (t : Nat) (s : State) : State :=
  match nextResponse s with
  | some c => if c.tag = tag && s.host.linkUp then s |> advanceTo t |> transmit c else s
  | none => s

def execResponseTransmit (tag : BitVec 16) (t : Nat) (s : State) : Host.Outcome State Fault Refusal :=
  run (transmitStep tag t) s

/-! ### Queue and gate timers (R95, R98, R106) -/

/-- A background entry that has waited 64 ticks goes ahead of write entries once, while the wheel has allowance. -/
def agePromotion (b : BankId) (s : State) : State :=
  match s.sched.queue.find? (fun d => d.bank == bankNo b && d.cls == .background && !d.aged) with
  | none => s
  | some d =>
    if bgLeft s b.w.val then
      s |> advanceTo ((d.enq / 250 + 64) * 250)
        |> onSched (fun q => { q with queue := q.queue.map (fun e => if e.id = d.id then { e with aged := true } else e) })
    else s

def execBackgroundAgePromotion (b : BankId) (s : State) : Host.Outcome State Fault Refusal := onWheel b.w (agePromotion b) s

/-- A program suspended for 100 µs is counted once (R98). -/
def suspendLong (b : BankId) (s : State) : State :=
  match (bankSt s (bankNo b)).prog with
  | none => s
  | some p =>
    if p.suspended && !p.longCounted then
      s |> advanceTo (p.suspAt + 100000) |> finc F.SPKg_SUSP_LONG_COUNT (homeG (bankNo b))
        |> onBank (bankNo b) (fun b => { b with prog := some { p with longCounted := true } })
    else s

def execSuspendLong (b : BankId) (s : State) : Host.Outcome State Fault Refusal := onWheel b.w (suspendLong b) s

/-- A spoke's job posts its result (R106). -/
def jobDone (g : Nat) (s : State) : State :=
  match tabGet none (s.sched.running.map (fun x => (x.1, some x.2))) g with
  | none => s
  | some j =>
    s |> onSched (fun q => { q with running := tabDel g q.running }) |> engineUsed g |> jobEffect j

def execJobComplete (w : Wheel) (sp : Fin 16) (s : State) : Host.Outcome State Fault Refusal :=
  onWheel w (jobDone (16 * w.val + sp.val)) s

end Sys2Proof.Machine
end

