-- ==== Sys2Proof/Machine/Recover.lean ====
section
/-! DEFINITION. RECOVER (R141, R152, R191 to R199, R307): what the saddlebag and the media say of the last session, the
restore and its fallback, and the entry to SERVICE. -/
namespace Sys2Proof.Machine

/-! ### The shutdown record (R191) -/

/-- The record's fields: DSC, STATE, CKPT_SEQ, AREA; none when it is unset. -/
def shutdownRec (s : State) : Option (Nat × Nat × Nat × Nat) :=
  (ctrRead s ctrShutdown).map (fun x =>
    let b := x.2.1
    (b % 2 ^ 32, b / 2 ^ 32 % 4, b / 2 ^ 34 % 2 ^ 32, b / 2 ^ 66 % 2))

/-! ### Checkpoints (R193, R307) -/

/-- The checkpoint slots whose seal block has verified and reads with a good MAGIC and CRC. -/
def sealedCkpts (s : State) (r : RecoverReads) : List (Nat × Ckpt) :=
  s.med.ckpts.filter (fun x => x.2.sealed && !r.badSeal.any (fun i => i.val == x.1))

/-- The checkpoint of a list with the highest sequence number. -/
def newest (cs : List Ckpt) : Option Ckpt :=
  cs.foldl (fun m c => match m with | some x => if x.seq < c.seq then some c else m | none => some c) none

/-- The usable checkpoints: sealed, with a digest that matches. -/
def usable (s : State) (r : RecoverReads) : List Ckpt :=
  ((sealedCkpts s r).filter (fun x => !r.badDigest.any (fun i => i.val == x.1))).map (fun x => x.2)

/-- R307: the sequence counter takes the greatest number that the record or a seal block carries. -/
def selectCkpts (r : RecoverReads) (s : State) : State :=
  let own := (ctrValue s ctrCkpt).getD 0
  let rec_ := match shutdownRec s with | some (_, _, q, _) => q | none => 0
  let top := (sealedCkpts s r).foldl (fun m x => max m x.2.seq) (max own rec_)
  s |> onMed (fun m => { m with ckptSeq := top }) |> ctrCheck ctrShutdown |> ctrCheck ctrCkpt
    |> ctrUpdate ctrCkpt (top % 2 ^ 32)

/-- The live drain area and the checkpoint that names it (R193, step 4). -/
def liveOf (us : List Ckpt) : Option Ckpt :=
  match newest (us.filter (fun c => c.kind == 2 || c.kind == 3)) with
  | some c => if us.any (fun x => x.kind == 4 && x.area == c.area && decide (c.seq < x.seq)) then none else some c
  | none => none

/-- Does HUB_CKPT name a checkpoint that no usable one reaches (R193)? -/
def ckptMissing (s : State) (us : List Ckpt) : Bool :=
  match ctrValue s ctrHubCkpt with
  | some v => !us.any (fun c => decide (v % 2 ^ 24 ≤ c.seq))
  | none => false

/-- The tables come from the newest usable checkpoint, then the journal is replayed (R156, R193). -/
def loadTables (us : List Ckpt) (s : State) : State :=
  let b := match newest us with | some c => c.body | none => bodyReset
  let js := readJournal s
  s |> onMed (fun m => { m with
        released := b.released, relPending := b.relPending, counts := b.counts, drift := b.drift
        journal := js, xtab := js.foldl (fun t e => xPut e t) b.xtab })
    |> placePatrol { patrolReset with wheel := b.patrolWheel, region := b.patrolRegion, slot := b.patrolSlot }

/-- A region's pointers from the saddlebag; one never stored has S = 0 and G = N (log 4), one with two bad slots is lost
(R152). -/
def loadPtr (r : Nat) (s0 : State) : State :=
  let s := noteOdd ((ptrSlot s0 r 0).map (· / 2 ^ 36)) ((ptrSlot s0 r 1).map (· / 2 ^ 36)) s0
  if (sbBytes s (131072 + 16 * r) 16).all (fun b => b == blankByte) then
    onMed (fun m => { m with ptrs := tabDel r m.ptrs }) s
  else match ptrCurrent s r with
    | some (_, bits) => onMed (fun m => { m with ptrs := tabSet ptrReset r (ptrFrom bits) m.ptrs }) s
    | none => onMed (fun m => { m with lost := nsAdd r m.lost }) s

/-- Load every region's pointers; a lost region writes a record and its event (R152, R170). -/
def loadPtrs (s : State) : State :=
  let s1 := s |> onMed (fun m => { m with lost := [] }) |> forEach (List.range (Config.regions s.config)) loadPtr
  s1 |> fput F.HUB_XTAB_LOST 0 (min 15 s1.med.lost.length)
     |> forEach s1.med.lost (fun _ s => land 0x09 4 srcHub 0 none s)
     |> when (!s1.med.lost.isEmpty) (postOrQueue 2 1 0 0 4 srcHub)

/-! ### Drained lines (R138, R139, R196, R197) -/

/-- Wheel and slot of a drain slot's key. -/
def keyWheel (k : Nat) : Nat := k / 67584 % 16
def keySlot (k : Nat) : Nat := k % 67584

/-- The usable entries of an area under the sequence number `q` (R197, step 1). -/
def usableKeys (s : State) (r : RecoverReads) (area q : Nat) : List Nat :=
  s.med.drain.filterMap (fun x =>
    let k := x.1
    let line := keySlot k / 28
    if x.2.v && k / 67584 / 16 == area
        && (tabGet none (s.med.index.map (fun y => (y.1, some y.2.seq))) ((area * 16 + keyWheel k) * 4096 + line)) == some q
        && !r.badIndex.any (fun b => b.1.val == area && b.2.1.val == keyWheel k && b.2.2 == line) then some k
    else none)

/-- The drain slots that fail to decode, as keys. -/
def badKeysOf (r : RecoverReads) : NSet :=
  r.badSlot.foldl (fun t b => nsAdd ((b.1.val * 16 + b.2.1.val) * 67584 + b.2.2) t) []

/-- The highest sequence number that a good index line carries, with its area. -/
def topIndex (s : State) (r : RecoverReads) : Option (Nat × Nat) :=
  (s.med.index.filter (fun x => !r.badIndex.any (fun b =>
      (b.1.val * 16 + b.2.1.val) * 4096 + b.2.2 == x.1))).foldl
    (fun m x => match m with
      | some (q, _) => if q < x.2.seq then some (x.2.seq, x.1 / 4096 / 16) else m
      | none => some (x.2.seq, x.1 / 4096 / 16)) none

/-- A drain slot. -/
def slotAt (s : State) (k : Nat) : DrainSlot := tabGet drainReset s.med.drain k

/-- What the drain slot of a line reads as: its valid sectors, poison and data; one that fails to decode has all four
sectors poisoned (R196). -/
def slotRead (s : State) (k : Nat) : BitVec 4 × BitVec 4 × Line :=
  let x := slotAt s k
  if nsHas k s.life.badKeys then (15, 15, zeroLine)
  else (x.sv, x.sp, if x.key = s.med.key then x.data else Config.wrongKeyData x.key x.tweak s.med.key x.tweak)

/-- Count a line restored as poison, and list it (R51). -/
def notePoison (k line : Nat) (s : State) : State :=
  if nsHas k s.life.badKeys then s |> fadd F.HUB_RESTORE_POISON_LINES 0 1 |> addPoisonLine line 6 else s

/-- A scratch line goes back into its way under the carve-out in effect. -/
def restoreScratch (k : Nat) (s : State) : State :=
  let x := slotAt s k
  let v := slotRead s k
  if x.line < scratchLines s then
    s |> placeScratch x.line v.2.1 v.2.2 |> fadd F.HUB_RESTORE_LINES 0 1 |> notePoison k (scratchLine0 + x.line)
  else s

/-- Is the line of a slot restored as pinned: it was, or its home is dead or lost (R152, R171)? -/
def slotPinned (s : State) (k : Nat) : Bool := let x := slotAt s k; x.pin || (!x.scr && lineDead s x.line)

/-- A persistent line goes back into the cache as dirty; without room a pinned line becomes poison and another goes
home. -/
def restoreLine (live : Bool) (k : Nat) (s : State) : State :=
  let x := slotAt s k
  let v := slotRead s k
  let pin := slotPinned s k
  match storePlace s (wheelOf s x.line) (setOf s x.line) with
  | some loc =>
    s |> placeAt loc x.line v.1 v.2.1 pin v.2.2 |> makeDirty loc
      |> when pin (pinLoc loc)
      |> when (live && !pin) (onMed (fun m => { m with restored := nsAdd x.line m.restored, restoreLeft := nsAdd x.line m.restoreLeft }))
      |> fadd F.HUB_RESTORE_LINES 0 1 |> notePoison k x.line
  | none =>
    if pin then s |> poisonDead x.line |> fadd F.HUB_RESTORE_POISON_LINES 0 1
    else s |> onLife (fun l => { l with homeTodo := nsAdd k l.homeTodo })
           |> when live (onMed (fun m => { m with restored := nsAdd x.line m.restored }))
           |> notePoison k x.line

/-- Restore drain slots in R196's order: scratch, then pinned, then the others in ascending slot order. -/
def restoreKeys (live : Bool) (ks : List Nat) (s : State) : State :=
  let scr := ks.filter (fun k => (slotAt s k).scr)
  let pin := ks.filter (fun k => !(slotAt s k).scr && slotPinned s k)
  let oth := sortBy (fun a b => decide (keySlot a ≤ keySlot b)) (ks.filter (fun k => !(slotAt s k).scr && !slotPinned s k))
  s |> forEach scr restoreScratch |> forEach pin (restoreLine live) |> forEach oth (restoreLine live)

/-- Lines that go home are queued as there is room. One of an extent whose release is pending waits for its TAGCLRs, which are queued
for it at once (R159; DEDUCED, log 94). -/
def feedHome (s : State) : State :=
  if s.mode = .recover then
    forEach s.life.homeTodo (fun k s =>
      let x := slotAt s k
      let e := extentOf x.line
      if anyOp s (fun d => d.kind == .restoreHome k) then s
      else if relPendingOf s e then when (!tabHas s.med.clrLeft e) (queueClrs e) s
      else
        let ma := maOf s x.line
        enqueue (mkDesc (.restoreHome k) .write (maBank ma) x.line ma false (x.sv != 15 && !nsHas k s.life.badKeys)) s) s
  else s

/-! ### The sweep and the end of RECOVER (R168, R192, R198, R199) -/

/-- TAGAGE of every tag value goes to every bank (R168). -/
def startSweep (s : State) : State :=
  let banks := List.range (Config.banks s.config)
  s |> onLife (fun l => { l with step := .sweep })
    |> onMed (fun m => { m with agingLeft := List.range (8 * Config.banks s.config) })
    |> fset F.HUB_EPOCH_AGING 0
    |> forEach banks (fun n s => forEach (List.range 8) (fun v s =>
        sendDie 8 (bankWheel n) (bankDie n) (bankInDie n) 0 v s) s)

/-- The shutdown record is written with STATE 1, and REC_CLOSED is set in that instant (R192, R198). -/
def closeRecord (s : State) : State :=
  s |> onLife (fun l => { l with step := .store, dsc := (l.dsc + l.dirty.toNat) % 2 ^ 32 })
    |> (fun s => writeShutdown 1 0 0 s)
    |> fset F.HUB_MODE_REC_CLOSED 0

/-- RECOVER goes on as far as its programs have verified. -/
def recProgress (s : State) : State :=
  if s.mode = .recover && s.life.homeTodo.isEmpty then
    match s.life.step with
    | .homing =>
      (match s.med.liveArea with
       | some a => s |> onLife (fun l => { l with step := .sealing }) |> takeCkptSeq |> writeCkpt 4 a
       | none =>
         let s1 := s |> restoreKeys false s.life.restoreTodo |> onLife (fun l => { l with restoreTodo := [], step := .placing })
         if s1.life.homeTodo.isEmpty then startSweep s1 else feedHome s1)
    | .placing => startSweep s
    | _ => s
  else s

/-- No area is live any more: held lines are released to write-back (R141). -/
def areaRetired (s : State) : State :=
  s |> onMed (fun m => { m with liveArea := none, restoreLeft := [], held := [], restored := [] })
    |> fclr F.LDG_STATUS_RESTORE_LIVE 0

/-- After the KIND 4 seal of the fallback, the entries of area A are restored (R197, step 3). -/
def fallbackSealed (s : State) : State :=
  if s.mode = .recover && s.life.step = .sealing then
    s |> onLife (fun l => { l with step := .homing }) |> recProgress
  else s

/-! ### The carve-out at the entry to SERVICE (R78 to R80) -/

/-- Are the ways that join scratch free of dirty lines that can go home? Pinned lines have no home (R171). -/
def carveReady (s : State) : Bool := !s.cache.dir.any (fun x => x.2.dv && !x.2.scr && !x.2.p && joining s x.1)

/-- A way of the carve-out that holds no scratch line yet is backed with zeros. -/
def backScratch (l : Nat) (s : State) : State :=
  if (dirAt s (scratchLoc l)).scr then s else placeScratch l 0 zeroLine s

/-- A pinned line whose way joined scratch goes into another way of its set or into an overflow slot; without room its home is
stored as poison (DESIGN CHOICE, log 77). -/
def replacePinned (w : Way) (s : State) : State :=
  match storePlace s (wheelOf s w.line) (setOf s w.line) with
  | some loc => s |> placeAt loc w.line w.sv w.sp true w.data |> makeDirty loc
  | none => poisonDead w.line s

/-- The carve-out in SCRATCH_NEXT takes effect at an entry to SERVICE (R80): scratch lines beyond it are discarded, the ways that
join lose their lines and are zeroed. -/
def applyCarve (s : State) : State :=
  let n := fget s F.CCH_MODE_SCRATCH_NEXT 0
  let gone := (s.cache.dir.filter (fun x => x.2.scr && decide (16384 * n ≤ scratchIx x.2.line))).map (fun x => x.1)
  let pinned := (s.cache.dir.filter (fun x => x.2.dv && x.2.p && joining s x.1)).map (fun x => x.1)
  s |> forEach (gone ++ pinned) dropLoc
    |> when (n != scratchSteps s) (fun s => s |> fput F.CCH_MODE_SCRATCH_STEPS 0 n |> storeCacheState)
    |> forEach (List.range (if s.config = .s416 then 16384 * n else 0)) backScratch
    |> forEach (pinned.map (wayAt s)) replacePinned

/-- The entry to SERVICE sets Memory_Active, unless the link has settled degraded (R33, R40). -/
def setActive (s : State) : State :=
  if fon s F.HPT_LINK_STATUS_DEGRADED 0 then s else onHost (fun h => { h with memActive := true, activeOwed := false }) s

/-- SERVICE is entered from RECOVER (R40, R53, R169, R199, R325). The condition it begins in, and what RECOVER found, are
posted now. -/
def enterService (s : State) : State :=
  let q := s.host.queued
  s |> setMode .service |> applyCarve |> holdOwn
    |> onLife (fun l => { l with step := .idle, toService := false, firstService := true })
    |> onHost (fun h => { h with mediaStatus := 1, queued := [], lifeDecade := lifeUsed s / 10 }) |> setActive
    |> fput F.HUB_RESTART_MS 0 (min 65535 ((s.gtc - s.life.restartAt) / 1000000))
    |> forEach q (fun e s => postEvent e.1 e.2.1 e.2.2.1 e.2.2.2.1 e.2.2.2.2.1 e.2.2.2.2.2 s)
    |> when s.life.dirty (postModule 1 0 7 srcHub)
    |> when s.led.wt (postModule 1 0 3 srcLedger) 
    |> when (writeLimited s && !q.any (fun e => e.1 == 2 && e.2.1 == 1 && e.2.2.1 == 0)) (postModule 2 0 4 srcHub)
    |> dueCkpt |> requeueClrs

/-! ### The decision (R193 to R197) -/

/-- Restore a checkpoint's area, which is live from here on. -/
def restoreLive (r : RecoverReads) (c : Ckpt) (s : State) : State :=
  let ks := usableKeys s r c.area c.seq
  s |> onMed (fun m => { m with liveArea := some c.area }) |> fset F.LDG_STATUS_RESTORE_LIVE 0
    |> when (!ks.isEmpty) (fset F.HUB_RESTART_RESTORED 0)
    |> restoreKeys true ks |> onLife (fun l => { l with step := .placing }) |> feedHome |> recProgress

/-- The fallback: lines of the live area that area `a` does not hold under `q` go home or into the cache first. -/
def fallback (r : RecoverReads) (live : Option Ckpt) (q a : Nat) (s : State) : State :=
  let ks := usableKeys s r a q
  let held := ks.map (fun k => ((slotAt s k).scr, (slotAt s k).line))
  let old := match live with
    | some c => (usableKeys s r c.area c.seq).filter (fun k => !held.contains ((slotAt s k).scr, (slotAt s k).line))
    | none => []
  let cached := old.filter (fun k => (slotAt s k).scr || slotPinned s k)
  let home := old.filter (fun k => !((slotAt s k).scr || slotPinned s k))
  s |> fset F.HUB_RESTART_FALLBACK 0
    |> when (!(ks.isEmpty && old.isEmpty)) (fset F.HUB_RESTART_RESTORED 0)
    |> onMed (fun m => { m with liveArea := live.map (fun c => c.area) })
    |> fbit F.LDG_STATUS_RESTORE_LIVE 0 live.isSome
    |> restoreKeys false cached
    |> forEach home (fun k s => s |> onLife (fun l => { l with homeTodo := nsAdd k l.homeTodo }) |> notePoison k (slotAt s k).line)
    |> onLife (fun l => { l with step := .homing, restoreTodo := ks }) |> feedHome |> recProgress

/-- A dirty shutdown is counted. -/
def countDirty (s : State) : State := s |> onLife (fun l => { l with dirty := true }) |> fset F.HUB_RESTART_DIRTY 0

/-- A session that ended with no freewheel (STATE 1). -/
def openCase (r : RecoverReads) (us : List Ckpt) (s : State) : State :=
  match liveOf us with
  | some c => restoreLive r c s
  | none => s |> onLife (fun l => { l with step := .placing }) |> recProgress

/-- The case of R194 and R195. -/
def decideCase (r : RecoverReads) (us : List Ckpt) (s : State) : State :=
  let lostCase (dsc : Nat) : State :=
    let seals := sealedCkpts s r
    if seals.isEmpty then
      s |> onLife (fun l => { l with dsc := dsc, step := .placing }) |> recProgress
    else
      let top := seals.foldl (fun m x => max m x.2.dsc) dsc
      let s1 := s |> onLife (fun l => { l with dsc := top }) |> countDirty |> fset F.HUB_RESTART_RECORD_LOST 0
        |> land 0x15 7 srcHub 0 none
      match topIndex s r with
      | some (q, a) =>
        if us.all (fun c => decide (c.seq < q)) then
          s1 |> when (decide (s1.med.ckptSeq < q)) (fun s => s |> onMed (fun m => { m with ckptSeq := q }) |> ctrUpdate ctrCkpt (q % 2 ^ 32))
             |> fallback r (liveOf us) q a
        else openCase r us s1
      | none => openCase r us s1
  match shutdownRec s with
  | none => lostCase 0
  | some (dsc, st, q, a) =>
    let s0 := onLife (fun l => { l with dsc := dsc }) s
    if st = 1 then s0 |> countDirty |> openCase r us
    else if st = 2 then
      match us.find? (fun c => (c.kind == 2 || c.kind == 3) && c.seq == q) with
      | some c => restoreLive r c s0
      | none => s0 |> countDirty |> fallback r (liveOf us) q a
    else lostCase dsc

/-- RECOVER's reads are complete (R193, steps 2 to 5). -/
def recoverRead (r : RecoverReads) (s : State) : State :=
  if s.mode = .recover && s.life.step = .reading then
    let us := usable s r
    if ckptMissing s us then s |> selectCkpts r |> latchBrake 10 srcHub
    else
      s |> selectCkpts r |> onLife (fun l => { l with badKeys := badKeysOf r, homeTodo := [], restoreTodo := [], dirty := false })
        |> loadTables us |> loadPtrs |> decideCase r us
  else s

end Sys2Proof.Machine
end

