-- ==== Sys2Proof/Machine/Ledger.lean ====
section
/-! DEFINITION. The energy ledger's arithmetic and its tick, credit returns, and the capacitance measurement with its
commands (chapter 05). -/
namespace Sys2Proof.Machine

/-! ### Energy available (R118, R119) -/

/-- V_cap in mV of an MC0 code (R118). -/
def vcapOf (s : State) (code : Nat) : Nat := code * 1250 * fget s F.LDG_CONST3_KDIV_X256 0 / (4096 * 256)

/-- The valid entries of the capacitance history. -/
def capEntries (s : State) : List Nat :=
  (List.range 8).filterMap (fun n => if fon s F.LDG_CAPn_VALID n then some (fget s F.LDG_CAPn_UF n) else none)

/-- C_eff: the lowest valid entry; 0 while none is valid (R119). -/
def cEff (s : State) : Nat :=
  match capEntries s with
  | [] => 0
  | c :: t => t.foldl min c

/-- E_avail in µJ at a reservoir voltage in mV, rounded down (R119). -/
def eAvailAt (s : State) (v : Nat) : Nat :=
  let vmin := fget s F.LDG_CONST1_V_MIN 0
  if v ≤ vmin then 0 else cEff s * (v * v - vmin * vmin) * min 1000 (fget s F.LDG_CONST1_ETA 0) / 2000000000

/-- E_avail with a code of 0 or full scale taken as 0 (R118). -/
def eAvail (s : State) (code : Nat) : Nat := if code = 0 || code = 4095 then 0 else eAvailAt s (vcapOf s code)

/-! ### Energy needed (R123, R127) -/

/-- The characterised e_line: page 4048's word, or 240 nJ when it is not stored or cannot be read (R123, R293). -/
def eLineFloor (s : State) : Nat :=
  let w := sbNat s homeELine 4
  if nsHas 4048 s.sbg.ue || w = 0xFFFFFFFF then 240 else w % 4096

/-- e_line in nJ: never below the characterised figure. -/
def eLine (s : State) : Nat := max (fget s F.LDG_CONST0_E_LINE 0) (eLineFloor s)

def ePage (s : State) : Nat := fget s F.LDG_CONST0_E_PAGE 0
def eFixed (s : State) : Nat := fget s F.LDG_CONST2_E_FIXED 0

/-- Stores received and not in the cache yet: they count as their credit did (R29, R128). -/
def storesComing (s : State) : Nat :=
  (s.sched.ctxs.filter (fun c => (c.op == .store || c.op == .storePtl)
    && !(c.st == .respond || c.st == .mirror || c.st == .program))).length

/-- Credits that may become dirty lines: the host's RwD credits and the partner's mirror credits (R29, R117). -/
def creditsOut (s : State) : Nat := fget s F.HPT_CREDIT_RWD_OUT 0 + mirrorCredits s

/-- N_dirty (R29, R117). -/
def nDirty (s : State) : Nat := dirtyLines s + storesComing s + creditsOut s

/-- N_scratch: every line of the carve-out in effect (R79). -/
def nScratch (s : State) : Nat := scratchLines s

/-- E_need in µJ, rounded up (R123). -/
def eNeed (s : State) : Nat :=
  eFixed s + ((nDirty s + nScratch s) * eLine s + dirtyPages s * ePage s + 999) / 1000

/-- E_base in µJ (R127), rounded up as E_need is, term by term with W_min (DESIGN CHOICE, log 102). -/
def eBase (s : State) : Nat := eFixed s + ((nScratch s + pinnedLines s) * eLine s + 4096 * ePage s + 999) / 1000

/-- MARGIN in sixteenths; values below 20 act as 20. -/
def margin (s : State) : Nat := max 20 (fget s F.LDG_CFG_MARGIN 0)

/-- e_cover (R125). -/
def eCoverOf (s : State) (avail : Nat) : Nat := avail * 16 / margin s

/-- Dirty and scratch lines of the fullest slice (R125). -/
def nWmax (s : State) : Nat :=
  ((List.range (Config.wheels s.config)).map (fun w =>
    tabCount (fun k d => k / 66048 == w && d.dv && !d.scr) s.cache.dir + nScratch s / 16)).foldl max 0

/-- ALLOW under a given e_cover (R125); natural subtraction stops at 0. -/
def allowAt (s : State) (cover : Nat) : Nat :=
  min ((cover - eNeed s) * 1000 / max 1 (eLine s))
    (min (Config.ceiling s.config - (nDirty s + nScratch s)) (Config.wheelCeiling - nWmax s - creditsOut s))

/-! ### The ledger's tick (R119, R125, R127, R129) -/

/-- RESUME in lines. -/
def resumeLines (s : State) : Nat := 16 * max 1 (fget s F.LDG_CFG_RESUME 0)

/-- W_min in lines, as energy in µJ rounded up (DESIGN CHOICE, log 102). -/
def wMinEnergy (s : State) (times : Nat) : Nat := (times * (1024 * max 1 (fget s F.LDG_CFG_WT_MIN 0)) * eLine s + 999) / 1000

/-- Write-through's hysteresis (R127). -/
def wtNext (s : State) (cover base : Nat) : Bool :=
  if cover < base + wMinEnergy s 1 then true
  else if base + wMinEnergy s 4 ≤ cover then false
  else s.led.wt

/-- The condition to report (R143, R199): write-limited, else write-through, else full. -/
def condNow (s : State) : Nat :=
  if writeLimited s then 2 else if s.led.wt || fon s F.LDG_STATUS_DEFICIT 0 then 1 else 0

/-- Deficit and the condition of the tick (R127, R129): a session's first tick with e_cover below E_base enters deficit as a later
one does; a wheel's reserve that has room again ends R54's write persistency lost. -/
def ledgerCondition (cover base : Nat) (s : State) : State :=
  let def_ := decide (cover < base)
  let was := s.led.wt
  let now := wtNext s cover base
  s |> when (def_ && !s.led.deficit) (fun s => s |> fset F.LDG_ERR_DEFICIT 0 |> land 0x08 3 srcLedger 0 none)
    |> fbit F.LDG_STATUS_DEFICIT 0 def_
    |> onLed (fun l => { l with wt := now, deficit := def_ })
    |> when (!reserveFull s) (onHost (fun h => { h with takingPoison := false }))
    |> when (!was && now) (fset F.LDG_ERR_WT_ENTER 0)
    |> when (inService s && !was && now) (postModule 1 0 3 srcLedger)
    |> when (inService s && was && !now) (postModule 0 0 3 srcLedger)
    |> fun s => fput F.LDG_STATUS_COND 0 (condNow s) s

/-- BACKPRESSURE from ALLOW (R125). -/
def backPressure (allow : Nat) (s : State) : State :=
  if allow = 0 then fset F.LDG_STATUS_BACKPRESSURE 0 s
  else if resumeLines s ≤ allow then fclr F.LDG_STATUS_BACKPRESSURE 0 s
  else s

/-- V_cap, C_eff and their registers, which lie in the AON domain. -/
def ledgerAon (s : State) : State :=
  let code := if s.led.newTick < tickOf s then s.led.newCode else s.led.code
  s |> onLed (fun l => { l with code := code })
    |> fput F.LDG_VCAP_CODE 0 code |> fput F.LDG_VCAP_MV 0 (min 65535 (vcapOf s code))
    |> fput F.LDG_CEFF_UF 0 (cEff s) |> fput F.LDG_CEFF_COUNT 0 (capEntries s).length

/-- The ledger's update of a tick. While a freewheel or a brake with drain runs, E_need stays frozen and no condition
changes (R133). -/
def ledgerTick (s0 : State) : State :=
  let s := ledgerAon s0
  if !coreOn s then s
  else
    let code := s.led.code
    let avail := eAvail s code
    let s1 := s |> when (code == 0 || code == 4095) (fset F.LDG_ERR_SENSE_RANGE 0)
      |> fput F.LDG_EAVAIL_UJ 0 (min avail (2 ^ 32 - 1))
      |> fbit F.LDG_STATUS_CAP_VALID 0 (!(capEntries s).isEmpty)
      |> fput F.LDG_NDIRTY_LINES 0 (nDirty s) |> fput F.LDG_NSCRATCH_SCRATCH 0 (nScratch s)
      |> fput F.LDG_NSCRATCH_SBGDIRTY 0 (dirtyPages s)
    if fon s F.LDG_STATUS_FW_ACTIVE 0 then s1
    else
      let cover := eCoverOf s1 avail
      let base := eBase s1
      let s2 := s1 |> fput F.LDG_ENEED_UJ 0 (eNeed s1) |> ledgerCondition cover base
      let allow := if cover < base then 0 else allowAt s2 cover
      s2 |> onLed (fun l => { l with eCover := cover, eBase := base })
         |> fput F.LDG_ALLOW_LINES 0 allow |> backPressure allow

/-! ### Credit returns (R48, R67, R125, R321) -/

/-- RwD credits that the port owes the host. -/
def creditsDue (s : State) : Nat :=
  512 - fget s F.HPT_CREDIT_RWD_OUT 0 - (s.sched.ctxs.filter (fun c => (c.op == .store || c.op == .storePtl) && !c.mute)).length

/-- The fewest free overflow slots of any slice. -/
def ovfFree (s : State) : Nat :=
  ((List.range (Config.wheels s.config)).map (fun w => 512 - sliceOvf s w)).foldl min 512

/-- Is each host credit backed by a mirror credit (R321)? -/
def mirrorBacked (s : State) : Bool := tndUp s && !s.tnd.own.isEmpty

/-- May the port return credits at all? -/
def creditsFlow (s : State) : Bool :=
  inService s && s.host.linkUp && fon s F.HPT_LINK_STATUS_MEM_ENABLED 0 && !s.host.quiesced
    && !fon s F.HPT_LINK_STATUS_VIRAL_RX 0

/-- Credits returned in this tick. A partial store that still merges will want a slot as well (R67). -/
def creditsNow (s : State) : Nat :=
  if !creditsFlow s || fon s F.LDG_STATUS_BACKPRESSURE 0 then 0
  else
    let n := min (creditsDue s) (min (fget s F.LDG_ALLOW_LINES 0) (ovfFree s - creditsOut s - storesComing s))
    if mirrorBacked s then min n (fget s F.TND_CREDIT_HELD 0 - s.tnd.reserved) else n

/-- The port returns its credits. -/
def returnCredits (s : State) : State :=
  let n := creditsNow s
  let held := s.host.linkUp && decide (n < creditsDue s)
  s |> when (n != 0) (fun s => s |> emit (.rwdCredits n) |> fadd F.HPT_CREDIT_RWD_OUT 0 n
        |> when (mirrorBacked s) (onTnd (fun t => { t with reserved := t.reserved + n })))
    |> fbit F.HPT_CREDIT_HELD 0 held |> when held (finc F.HPT_CREDIT_STALL_TICKS 0)

/-! ### The capacitance measurement (R120 to R122) -/

/-- The modes in which the reservoir is measured; at the entry to RECOVER besides (R120, R122). -/
def capMode (s : State) : Bool := inService s || s.mode = .standby || s.mode = .recover

/-- Does a test not start: MC0 calibrates, or a diagnosis runs on its pair (R253, R262)? -/
def capBarred (s : State) : Bool := (conv s 0).calibrating || (tabGet none s.mcv.diag 0).isSome

/-- A measurement begins with step 1. -/
def startCapTest (byCommand : Bool) (s : State) : State :=
  if capRunning s then s
  else onLed (fun l => { l with test := { l.test with phase := .waiting, settle := [], recs := [], mean16 := 0, byCommand := byCommand } }) s

/-- The 16 results lie within 0.5 % of their mean. -/
def settled (vs : List Nat) : Bool :=
  let sum := vs.sum
  vs.length == 16 && vs.all (fun v => decide ((16 * v - sum) * 200 ≤ sum) && decide ((sum - 16 * v) * 200 ≤ sum))

/-- Is the test deferred (R120, step 1): at 0.98 × V_cap the ledger would be in back-pressure? -/
def capDefers (s : State) : Bool :=
  let v := vcapOf s s.led.newCode * 98 / 100
  !(capEntries s).isEmpty && !fon s F.LDG_STATUS_DEFICIT 0 && coreOn s && allowAt s (eCoverOf s (eAvailAt s v)) == 0

/-- HOLD_LOAD is asserted (R120, step 2). -/
def assertHold (s : State) : State :=
  s |> onPins (fun p => { p with holdLoad := true }) |> fset F.LDG_STATUS_CAP_TEST 0
    |> onLed (fun l => { l with test := { l.test with phase := .discarding, mean16 := l.test.settle.sum, startAt := s.gtc, settle := [] } })

/-- The least-squares slope of results (V_cap, stamp), as a numerator and a denominator in mV per ns. -/
def lsSlope (xs : List (Nat × Nat)) : Int × Int :=
  let n : Int := xs.length
  let t0 : Int := (xs.headD (0, 0)).2
  let st := (xs.map (fun x => (x.2 : Int) - t0)).sum
  let sv := (xs.map (fun x => (x.1 : Int))).sum
  let stv := (xs.map (fun x => ((x.2 : Int) - t0) * x.1)).sum
  let stt := (xs.map (fun x => ((x.2 : Int) - t0) * ((x.2 : Int) - t0))).sum
  (n * stv - st * sv, n * stt - st * st)

/-- C in µF from I_T in mA and a slope, rounded down; 0 where the slope is not falling (R120, step 5). -/
def capOf (itest : Nat) (m : Int × Int) : Nat :=
  if m.1 < 0 && 0 < m.2 then itest * m.2.toNat / ((-m.1).toNat * 1000) else 0

/-- Do the two half slopes agree within 5 % of the larger (R121)? -/
def slopesAgree (a b : Int × Int) : Bool :=
  let x := a.1.natAbs * b.2.natAbs
  let y := b.1.natAbs * a.2.natAbs
  decide ((max x y - min x y) * 20 ≤ max x y)

/-- The first and the second half of the interval. -/
def halfOf (first : Bool) (xs : List (Nat × Nat)) : List (Nat × Nat) :=
  match xs with
  | [] => []
  | x :: _ =>
    let t0 := x.2
    let t1 := (xs.getLastD x).2
    xs.filter (fun y => first == decide (2 * (y.2 - t0) ≤ t1 - t0))

/-- An accepted measurement replaces the oldest entry and is marked NEWEST; the journal is updated (R121, R122). -/
def capAccept (c : Nat) (s : State) : State :=
  let k := match (List.range 8).find? (fun n => fon s F.LDG_CAPn_NEWEST n) with
    | some n => (n + 1) % 8
    | none => 0
  s |> forEach (List.range 8) (fclr F.LDG_CAPn_NEWEST)
    |> fput F.LDG_CAPn_UF k c |> fset F.LDG_CAPn_VALID k |> fset F.LDG_CAPn_NEWEST k
    |> onLed (fun l => { l with test := { l.test with run := 0 } }) |> journalWrite

/-- The Measure Capacitance command ends (R352): C in µF, and RESULT 0 accepted, 1 no drop, 2 slopes, 3 range,
4 interrupted. -/
def capCommandEnd (result c : Nat) (s : State) : State :=
  if s.led.test.byCommand then endBg ⟨0, 0⟩ (leBytes 2 (min c 65535) ++ leBytes 2 result) s else s

/-- The 2 % drop is reached: HOLD_LOAD is released, and the measurement is fitted and judged (R120, R121). -/
def capFit (s : State) : State :=
  let xs := s.led.test.recs.reverse
  let c := capOf (fget s F.LDG_CAP_CFG_ITEST 0) (lsSlope xs)
  if !slopesAgree (lsSlope (halfOf true xs)) (lsSlope (halfOf false xs)) then s |> capCommandEnd 2 c |> capReject
  else if c < 100 || 65535 < c then s |> capCommandEnd 3 c |> capReject
  else s |> capCommandEnd 0 c |> endCapTest |> capAccept c

/-- A mode change interrupts a running measurement (R121). -/
def capModeChange (s : State) : State :=
  s |> when (capRunning s) (capCommandEnd 4 0) |> capInterrupt

/-- SERVICE follows in the tick after the shutdown record is stored and the carve-out's ways are free (R184, R199); a
measurement that draws on HOLD_LOAD since RECOVER is interrupted (R121). -/
def tryService (s : State) : State :=
  if s.mode = .recover && s.life.step = .store && !ctrUnstored s ctrShutdown
      && !s.sbg.ctrWait.any (fun c => c.addr == ctrShutdown) && carveReady s then
    s |> when s.pins.holdLoad capModeChange |> enterService
  else s

/-- A new HOLD_SENSE result is the ledger's newest and goes to a running measurement (R119, R120). -/
def capResult (code : Nat) (s0 : State) : State :=
  let s := onLed (fun l => { l with newCode := code, newTick := tickOf s0 }) s0
  let v := vcapOf s code
  let t := s.led.test
  match t.phase with
  | .waiting =>
    let s1 := onLed (fun l => { l with test := { t with settle := (v :: t.settle).take 16 } }) s
    if settled s1.led.test.settle && !capBarred s1 && capMode s1 then
      if capDefers s1 then onLed (fun l => { l with test := { l.test with phase := .deferred, startAt := s1.gtc, settle := [] } }) s1
      else assertHold s1
    else s1
  | .recording =>
    let s1 := onLed (fun l => { l with test := { t with recs := (v, s.gtc) :: t.recs } }) s
    if v * 1600 ≤ 98 * t.mean16 then capFit s1 else s1
  | _ => s

/-! ### Its commands -/

/-- The test period expires (R120): a measurement begins. -/
def capTestDue (s : State) : State :=
  if (inService s || s.mode = .standby) && sbReady s && fon s F.LDG_CFG_CAP_EN 0 then startCapTest false s else s

def execCapTestDue (s : State) : Host.Outcome State Fault Refusal := run capTestDue s

/-- A deferral of one minute ends: step 1 starts again. -/
def capDeferEnd (s : State) : State :=
  if s.led.test.phase = .deferred then
    s |> advanceTo (s.led.test.startAt + 60000000000)
      |> onLed (fun l => { l with test := { l.test with phase := .waiting, settle := [] } })
  else s

def execCapTestDeferEnd (s : State) : Host.Outcome State Fault Refusal := run capDeferEnd s

/-- The first 16 µs of the load are over: recording starts (R120, step 3). -/
def capDiscardEnd (s : State) : State :=
  if s.led.test.phase = .discarding then
    s |> advanceTo (s.led.test.startAt + 16000)
      |> onLed (fun l => { l with test := { l.test with phase := .recording, recs := [] } })
  else s

def execCapTestDiscardEnd (s : State) : Host.Outcome State Fault Refusal := run capDiscardEnd s

/-- 20 ms pass without the 2 % drop: the measurement is rejected (R121). They count from HOLD_LOAD's assertion (DESIGN CHOICE,
log 101). -/
def capTimeout (s : State) : State :=
  if s.led.test.phase = .recording || s.led.test.phase = .discarding then
    s |> advanceTo (s.led.test.startAt + 20000000) |> capCommandEnd 1 0 |> capReject
  else s

def execCapTestTimeout (s : State) : Host.Outcome State Fault Refusal := run capTimeout s

end Sys2Proof.Machine
end

