-- ==== Sys2Proof/Machine/Operands.lean ====
section
/-! DEFINITION. How commands arrive and are answered (R188, R331 to R337): which endpoint answers, what a command must
meet, the return codes, and commands that wait for their stores. -/
namespace Sys2Proof.Machine

/-! ### Return codes (R334) -/

/-- The CXL return code of a vendor status. -/
def rcOf (vs : Nat) : Nat :=
  match vs with
  | 0x0101 => 0x13
  | 0x0102 => 0x05
  | 0x0103 => 0x14
  | 0x0104 => 0x14
  | 0x0105 => 0x06
  | 0x0106 => 0x13
  | 0x0107 => 0x03
  | 0x0108 => 0x02
  | 0x0109 => 0x02
  | 0x010A => 0x02
  | 0x010B => 0x06
  | 0x010C => 0x06
  | 0x010D => 0x04
  | 0x010E => 0x16
  | 0x010F => 0x15
  | _ => 0

def vsWrongMode : Nat := 0x0101
def vsNotReady : Nat := 0x0102
def vsTokenBad : Nat := 0x0103
def vsNonceNone : Nat := 0x0104
def vsLockout : Nat := 0x0105
def vsProtected : Nat := 0x0106
def vsNotOffered : Nat := 0x0107
def vsBadArg : Nat := 0x0108
def vsBadTable : Nat := 0x0109
def vsMismatch : Nat := 0x010A
def vsConflict : Nat := 0x010B
def vsBgBusy : Nat := 0x010C
def vsStoreFailed : Nat := 0x010D
def vsLength : Nat := 0x010E
def vsMailbox : Nat := 0x010F

/-- A command ends: its answer is in place, and the primary mailbox raises vector 0 (R331, R41). -/
def answer (via : Transport) (op : Nat) (r : RetCode) (out : List Byte) (s : State) : State :=
  s |> onMbx (fun m => { m with answers := if via = .mctp then m.answers else tabPut (viaNo via) ⟨op, r, out⟩ m.answers })
    |> emit (.mbox via op r out) |> when (via == .primary) (msix 0)

/-- Success with an output payload. -/
def succeed (via : Transport) (op : Nat) (out : List Byte) (s : State) : State := answer via op ⟨0, 0⟩ out s

/-- A refusal: a vendor command returns its status in four bytes; a standard command has no such payload. -/
def refuse (via : Transport) (op vs : Nat) (s : State) : State :=
  answer via op ⟨rcOf vs, vs⟩ (if 0xC000 ≤ op then leBytes 4 vs else []) s

/-- A standard command ends with one of CXL's own codes. -/
def refuseStd (via : Transport) (op rc : Nat) (s : State) : State := answer via op ⟨rc, 0⟩ [] s

/-- The same for a command whose transport may have given it up (R57). -/
def succeedIf (via : Option Transport) (op : Nat) (out : List Byte) (s : State) : State :=
  match via with | some v => succeed v op out s | none => s
def refuseIf (via : Option Transport) (op vs : Nat) (s : State) : State :=
  match via with | some v => refuse v op vs s | none => s

/-! ### Endpoints (R188, R331, R333, R345) -/

/-- Who answers a transport. -/
inductive Endpoint where
  | none
  | aon
  | hub
  deriving DecidableEq, Repr

/-- The hub runs: its firmware is loaded, its rail is up, and the mode is not one in which it is off. -/
def hubRuns (s : State) : Bool :=
  s.life.hubUp && coreOn s && !(s.mode = .brake && fon s F.HUB_MODE_HOLD 0)

/-- The endpoint that answers a transport. -/
def endpoint (s : State) (via : Transport) : Endpoint :=
  if via = .mctp then
    if !aonOn s || !sbReady s then .none else if hubRuns s then .hub else .aon
  else if s.host.mbxReady && s.host.linkUp && hubRuns s then .hub else .none

/-- Does a transport hold a command that has not completed (R332)? -/
def transportBusy (s : State) (via : Transport) : Bool :=
  s.mbx.fg.any (fun f => f.via == some via) || s.seq.railWait.any (fun r => r.1 == some via)
    || s.seq.margins.any (fun m => m.2.via == some via) || s.mcv.convs.any (fun c => c.2.calVia == some via)
    || s.mcv.diag.any (fun d => match d.2 with | some x => x.via == some via | none => false)
    || s.rcd.clearing == some (some via)

/-- Commands the AON endpoint serves (R188): the mode change only in STANDBY, the brake release only in the hold. -/
def aonServes (s : State) (op : Nat) : Bool :=
  [0xC000, 0xC020, 0xC021, 0xC040, 0xC0F0].contains op || (op == 0xC001 && s.mode = .standby)
    || (op == 0xC002 && s.mode = .brake && fon s F.HUB_MODE_HOLD 0)

/-- Commands of R338's MCTP column, and every vendor command. -/
def overMctp (op : Nat) : Bool :=
  decide (0xC000 ≤ op) || [0x0001, 0x0002, 0x0005, 0x0200, 0x0300, 0x0301, 0x0400, 0x0401, 0x4000, 0x4200, 0x4201, 0x4202].contains op

/-- Where a command is accepted (R346 to R358). -/
inductive Accept where
  | any
  | hub
  | working
  | maintenance
  /-- an authorised command's conditions come after its token (R342) -/
  | own
  deriving DecidableEq, Repr

/-- Does the mode accept the command? -/
def accepted (s : State) : Accept → Bool
  | .any => true
  | .own => true
  | .hub => s.mode = .ramp || s.mode = .recover || inService s
  | .working => inService s
  | .maintenance => s.mode = .maintenance

/-- What the hub refuses whatever the command: in FREEWHEEL and in BRAKE all but two (R333), during an online activation all
but three (R338); 0 where it refuses nothing. -/
def hubGate (s : State) (via : Transport) (op : Nat) : Nat :=
  if endpoint s via ≠ .hub then 0
  else if (s.mode = .freewheel || s.mode = .brake) && !(op == 0xC000 || op == 0x0002) then vsWrongMode
  else if s.life.activating && !(op == 0xC000 || op == 0x0002 || op == 0x0005) then vsConflict
  else 0

/-- The largest payload of a transport (R331, R345). -/
def payloadMax (via : Transport) : Nat := if via = .mctp then 4096 else 65536

/-- What every command passes before its own meaning: an endpoint that serves it, a free transport, the hub's gate, the mode
and the input length, which over MCTP has a limit (R345). An authorised command passes the gate among its own conditions, after its token (R342, R362). -/
def command (via : Transport) (op : Nat) (acc : Accept) (lenOk : Nat → Bool) (input : List Byte) (body : State → State)
    (s : State) : State :=
  if transportBusy s via then s
  else match endpoint s via with
  | .none => s
  | .aon =>
    if !aonServes s op then refuse via op vsNotReady s
    else if lenOk input.length then body s else refuse via op vsLength s
  | .hub =>
    if via = .mctp && !overMctp op then refuseStd via op 3 s
    else if acc ≠ .own && hubGate s via op ≠ 0 then refuse via op (hubGate s via op) s
    else if !accepted s acc then refuse via op vsWrongMode s
    else if !lenOk input.length || (via = .mctp && decide (payloadMax via < input.length)) then refuse via op vsLength s
    else body s

/-- A fixed input length. -/
def len (n : Nat) : Nat → Bool := fun k => k == n

/-- Are the bytes from `off` on, `n` of them, zero (reserved bytes)? -/
def rsvOk (off n : Nat) (bs : List Byte) : Bool := ((bs.drop off).take n).all (fun b => b == 0)

/-! ### Commands that wait for stores (R296, R298, R332) -/

/-- Registers take their stored values in the tick after the store (R347, R351 to R357). -/
def reloadLater (ranges : List (Nat × Nat)) (s : State) : State :=
  onMbx (fun m => { m with reload := m.reload ++ ranges }) s

/-- The command completes once the pages are stored; with none dirty it completes at once. -/
def finishStored (via : Transport) (op : Nat) (pages : List Nat) (reload : List (Nat × Nat)) (out : List Byte) (s : State) : State :=
  let ps := (pages.filter (pageDirty s)).foldl (fun t p => nsAdd p t) []
  if ps.isEmpty then s |> reloadLater reload |> succeed via op out
  else onMbx (fun m => { m with fg := m.fg ++ [⟨some via, op, ps, out, reload⟩] }) s

/-- A SET_CERTIFICATE ends with its stores (R56, R296): its response, or an SPDM ERROR (PRESUMED, log 45). -/
def certAnswer (ok : Bool) (c : CertWait) (s : State) : State :=
  if c.via = .doe && !s.host.linkUp then s
  else if ok then s |> emit (.spdm c.via 0x6E c.session (Config.spdmData s.freeIx)) |> useFree
  else emit (.spdm c.via 0x7F c.session [5]) s

/-- Certificates that waited for a page: those that waited for it alone are answered. -/
def certStored (p : Nat) (ok : Bool) (s : State) : State :=
  let mine := s.host.spdm.certWait.filter (fun c => nsHas p c.pages)
  let done := if ok then mine.filter (fun c => c.pages.length == 1) else mine
  s |> onHost (fun h => { h with spdm := { h.spdm with
        certWait := (h.spdm.certWait.filter (fun c => !done.contains c)).map (fun c => { c with pages := nsDel p c.pages }) } })
    |> forEach done (certAnswer ok)

/-- A background operation that waited for a page: with that page alone it completes, and a store that failed twice fails it. -/
def bgStored (p : Nat) (ok : Bool) (s : State) : State :=
  match s.mbx.bg with
  | none => s
  | some b =>
    if !nsHas p b.pages then s
    else if !ok then endBg ⟨rcOf vsStoreFailed, vsStoreFailed⟩ [] s
    else if b.pages.length = 1 then endBg ⟨0, 0⟩ [] s
    else onMbx (fun m => { m with bg := some { b with pages := nsDel p b.pages } }) s

/-- A page's store has ended: commands that waited for it alone complete; a store that failed twice fails them. -/
def pageStored (p : Nat) (ok : Bool) (s : State) : State :=
  let mine := s.mbx.fg.filter (fun f => nsHas p f.pages)
  let done := if ok then mine.filter (fun f => f.pages.length == 1) else mine
  s |> onMbx (fun m => { m with fg := (m.fg.filter (fun f => !done.contains f)).map (fun f => { f with pages := nsDel p f.pages }) })
    |> forEach done (fun f s =>
        if ok then s |> reloadLater f.reload |> succeedIf f.via f.opcode f.out else refuseIf f.via f.opcode vsStoreFailed s)
    |> certStored p ok |> bgStored p ok

/-- Would storing `n` bytes at `a` touch a protected page (R303)? -/
def rangeProtected (s : State) (a n : Nat) : Bool := (pagesOf a n).any (pageProtected s)

/-! ### Background operations (R335) -/

/-- Start a background operation: refused on the secondary mailbox, and while another one runs. -/
def startBg (via : Transport) (op : Nat) (b : Bg) (work : State → State) (s : State) : State :=
  if via = .secondary then refuse via op vsMailbox s
  else if s.mbx.bg.isSome then refuse via op vsBgBusy s
  else
    s |> onMbx (fun m => { m with bg := some b, last := none, abortReq := false })
      |> answer via op ⟨1, 0⟩ [] |> work

/-- An operation over no lines. -/
def bgPlain (via : Transport) (op : Nat) : Bg := ⟨op, via, [], 0, [], 0, false, []⟩

end Sys2Proof.Machine
end

