-- ==== Sys2Proof/Machine/Seq.lean ====
section
/-! DEFINITION. The rail sequencer's commands (chapter 08): sequence steps, comparators, power good, faults and their
responses, retries, power-down, and margins over trim and PMBus. -/
namespace Sys2Proof.Machine

/-! ### The end of RAMP (R189, R193) -/

/-- Has every wheel trained its channel? -/
def allTrained (s : State) : Bool :=
  (List.range (Config.wheels s.config)).all (fun w => fget s F.MMBn_STATUS_TRAINED w == 255)

/-- RECOVER is entered: every die runs CHECK, and a capacitance measurement is asked for (R122, R193). -/
def enterRecover (s : State) : State :=
  s |> setMode .recover |> onLife (fun l => { l with step := .check, checkLeft := allDies s })
    |> forEach (allDies s) (fun k s => sendDie 12 (k / 8) (k % 8) 0 0 0 s)
    |> startCapTest false

/-- RAMP ends in the tick after every step of R189 is done (R184). -/
def tryRecover (s : State) : State :=
  if s.mode = .ramp && s.life.seqDone && s.life.hubUp && s.life.ucodeDone && s.life.cacheDone && allTrained s then
    enterRecover s
  else s

/-! ### Faults (R226, R227, R236) -/

/-- The response a fault of a kind takes: the most severe among the target's channels; 0 note, 1 retry, 2 group-off,
3 brake (R222, R226). -/
def respOf (s : State) (t : Target) (kind : Nat) : Nat :=
  if kind = 7 then 0
  else (tgtChans s t).foldl (fun m c =>
    max m (if kind = 2 then fget s F.SEQ_CHn_CFG_RESP_OV c else fget s F.SEQ_CHn_CFG_RESP_UV c)) 0

/-- A brake response or escalation: cause 0x01 for a CRIT target, 0x02 otherwise (R227). -/
def brakeRail (t : Target) (c : Nat) (s : State) : State :=
  s |> fset F.SEQ_ERR_BRAKE 0 |> latchBrake (if tgtCrit s t then 1 else 2) (srcRail c)

/-- A retry, or the escalation once they are used up (R228). -/
def retryOrEscalate (t : Target) (c : Nat) (s : State) : State :=
  if (retryOf s t).count < retryMax s t then startRetry t s
  else
    let s1 := s |> fset F.SEQ_ERR_RETRY_FAIL 0 |> land 0x06 1 (srcRail c) 0 none |> endRetry t
    if tgtCrit s t then brakeRail t c s1 else groupOff t s1

/-- What every fault does (R226), and the first-fault latch (R231). -/
def countFault (t : Target) (c kind : Nat) (s : State) : State :=
  s |> firstFault kind (srcRail c) 0
    |> forEach (tgtChans s t) (fun m s =>
        s |> fset F.SEQ_CHn_STATUS_FAULT_SEEN m |> fput F.SEQ_CHn_STATUS_LAST_KIND m kind |> finc F.SEQ_CHn_COUNT_FAULTS m
          |> onSeq (fun q => { q with faultAt := tabSet 0 m (tickOf s + 1) q.faultAt }))
    |> land 0x05 1 (srcRail c) 0 none

/-- A fault of a kind on a target, found at channel `c`: it is counted and answered by the mode's response (R227); in a brake with
drain a brake response acts as in a freewheel (R206; DEDUCED, log 90). -/
def railFault (t : Target) (c kind : Nat) (s0 : State) : State :=
  let s := countFault t c kind s0
  let r := respOf s t kind
  let note := fset F.SEQ_ERR_NOTE 0 s
  match s.mode with
  | .off => s
  | .standby => note
  | .brake => if r = 3 && s.fw.kind = .brakeDrain && s.fw.stage != .idle then brakeRail t c s else note
  | .freewheel => if r = 3 then brakeRail t c s else note
  | _ =>
    if r = 0 then note
    else if r = 1 then retryOrEscalate t c s
    else if r = 2 then groupOff t s
    else brakeRail t c s

/-! ### Sequence steps (R218, R219, R221) -/

/-- The step word in execution. -/
def stepWord (s : State) : Nat := fget s F.SEQ_STEPk_STEP (fget s F.SEQ_CTRL_STEP 0)

def stepOp (w : Nat) : Nat := w % 16
def stepArg (w : Nat) : Nat := w / 1024

/-- Target of a step. -/
def stepTarget (w : Nat) : Target :=
  if w / 512 % 2 = 1 then .gang (Fin.ofNat 8 (w / 16)) else .chan (Fin.ofNat 32 (w / 16))

/-- The timeout of a WAIT_PG in ticks: ARG, or PG_TIMEOUT where it is 0 (R219). -/
def waitTicks (s : State) (w : Nat) : Nat := if stepArg w = 0 then tgtTicks s (stepTarget w) else stepArg w

/-- May a step with operation `op` start in this tick: at most one step per tick (R221)? -/
def stepReady (s : State) (op : Nat) : Bool :=
  s.mode = .ramp && fget s F.SEQ_CTRL_STATE 0 = 1 && stepOp (stepWord s) = op && !s.seq.waiting && decide (s.seq.stepSince ≤ tickOf s)

/-- The sequence is complete (R219, END). -/
def endSequence (s : State) : State :=
  s |> fput F.SEQ_CTRL_STATE 0 3 |> onSeq (fun q => { q with waiting := false }) |> onLife (fun l => { l with seqDone := true })

/-- Go on to a step in the next tick; after step 63 the sequence ends. -/
def gotoStep (k : Nat) (s : State) : State :=
  if k ≤ 63 then s |> fput F.SEQ_CTRL_STEP 0 k |> onSeq (fun q => { q with waiting := false, stepSince := tickOf s + 1 })
  else endSequence s

/-- The next step in order. -/
def nextStep (s : State) : State := gotoStep (fget s F.SEQ_CTRL_STEP 0 + 1) s

/-- The step waits from this tick on. -/
def waitHere (s : State) : State := onSeq (fun q => { q with waiting := true, stepSince := tickOf s }) s

/-- Was a channel of the target taken off by group-off (R219)? -/
def takenOff (s : State) (t : Target) : Bool := (tgtChans s t).any (fun c => fon s F.SEQ_CHn_STATUS_OFF_FAULT c)

/-- Has the target of a WAIT_PG been seen good, or been taken off? -/
def waitOver (s : State) (t : Target) : Bool := tgtGood s t || takenOff s t

/-- Are all members at one level, with power good that agrees (R219, GANG_SYNC)? -/
def gangAgrees (s : State) (t : Target) : Bool :=
  let cs := tgtChans s t
  (cs.all (fun c => chanOn s c && powerGood s c)) || (cs.all (fun c => !chanOn s c && !powerGood s c))

/-- A step that waits for power good completes. -/
def completeWait (s : State) : State :=
  if fget s F.SEQ_CTRL_STATE 0 = 1 && s.seq.waiting then
    let w := stepWord s
    if stepOp w = 3 && waitOver s (stepTarget w) then nextStep s
    else if stepOp w = 6 && gangAgrees s (stepTarget w) then nextStep s
    else s
  else s

/-- After a fault that a step raised: with note or group-off the sequence goes on; a retry keeps the step (R228). -/
def afterStepFault (s : State) : State :=
  if s.mode = .ramp && fget s F.SEQ_CTRL_STATE 0 = 1 then nextStep s else s

/-- END. -/
def seqEnd (s : State) : State := if stepReady s 0 then endSequence s else s

def execSeqEnd (s : State) : Host.Outcome State Fault Refusal := run seqEnd s

/-- ENABLE: a request for a target that is neither enabled, nor pending, nor taken off. -/
def seqEnable (s : State) : State :=
  if stepReady s 1 then
    let t := stepTarget (stepWord s)
    s |> when (!tgtOn s t && !takenOff s t && !s.seq.edges.contains (t, true)) (placeRequest t) |> nextStep
  else s

def execSeqEnable (s : State) : Host.Outcome State Fault Refusal := run seqEnable s

/-- Disable a target: its request and its enable edge not yet driven are cancelled. -/
def disableTarget (t : Target) (s : State) : State :=
  s |> cancelRequest t |> onSeq (fun q => { q with edges := q.edges.filter (fun e => !(e.1 == t && e.2)) })
    |> when (tgtAnyOn s t) (decideEdge t false)

/-- DISABLE. -/
def seqDisable (s : State) : State :=
  if stepReady s 2 then s |> disableTarget (stepTarget (stepWord s)) |> nextStep else s

def execSeqDisable (s : State) : Host.Outcome State Fault Refusal := run seqDisable s

/-- WAIT_PG. -/
def seqWaitPg (s : State) : State :=
  if stepReady s 3 then (if waitOver s (stepTarget (stepWord s)) then nextStep s else waitHere s) else s

def execWaitPg (s : State) : Host.Outcome State Fault Refusal := run seqWaitPg s

/-- WAIT_TICKS. -/
def seqWaitTicks (s : State) : State := if stepReady s 4 then waitHere s else s

def execWaitTicks (s : State) : Host.Outcome State Fault Refusal := run seqWaitTicks s

/-- CHECK_WINDOW: a tripped comparator of the target is a CHECK fault. -/
def seqCheckWindow (s : State) : State :=
  if stepReady s 5 then
    let t := stepTarget (stepWord s)
    match (tgtChans s t).find? (fun c => !inWindow s c) with
    | some c => s |> railFault t c 5 |> afterStepFault
    | none => nextStep s
  else s

def execCheckWindow (s : State) : Host.Outcome State Fault Refusal := run seqCheckWindow s

/-- GANG_SYNC. -/
def seqGangSync (s : State) : State :=
  if stepReady s 6 then (if gangAgrees s (stepTarget (stepWord s)) then nextStep s else waitHere s) else s

def execGangSync (s : State) : Host.Outcome State Fault Refusal := run seqGangSync s

/-- BRANCH_ON_FAULT. -/
def seqBranch (s : State) : State :=
  if stepReady s 7 then
    let w := stepWord s
    let seen (c : Nat) : Bool := fon s F.SEQ_CHn_STATUS_FAULT_SEEN c
    let any_ := stepArg w / 64 % 2 == 1
    if (if any_ then allChans.any seen else (tgtChans s (stepTarget w)).any seen) then gotoStep (stepArg w % 64) s
    else nextStep s
  else s

def execBranchOnFault (s : State) : Host.Outcome State Fault Refusal := run seqBranch s

/-- WAIT_TICKS has run for ARG ticks, at least one. -/
def waitTicksExpiry (s : State) : State :=
  let w := stepWord s
  if s.mode = .ramp && fget s F.SEQ_CTRL_STATE 0 = 1 && s.seq.waiting && stepOp w = 4 then
    s |> advanceTo ((s.seq.stepSince + max 1 (stepArg w)) * 250) |> nextStep
  else s

def execWaitTicksExpiry (s : State) : Host.Outcome State Fault Refusal := run waitTicksExpiry s

/-- GANG_SYNC has timed out: a GANG_SKEW fault. -/
def gangSyncTimeout (s : State) : State :=
  let w := stepWord s
  if s.mode = .ramp && fget s F.SEQ_CTRL_STATE 0 = 1 && s.seq.waiting && stepOp w = 6 then
    let t := stepTarget w
    s |> advanceTo ((s.seq.stepSince + stepArg w) * 250) |> railFault t (tgtLow s t) 6 |> afterStepFault
  else s

def execGangSyncTimeout (s : State) : Host.Outcome State Fault Refusal := run gangSyncTimeout s

/-! ### Rail commands in progress (R349) -/

/-- Rail commands of targets that are good now complete with RESULT 0. -/
def railGood (s : State) : State :=
  let done := s.seq.railWait.filter (fun r => tgtOn s r.2 && tgtGood s r.2)
  s |> onSeq (fun q => { q with railWait := q.railWait.filter (fun r => !done.contains r) })
    |> forEach done (fun r s => succeedIf r.1 0xC015 [0] s)

/-! ### Power good (R212, R213, R228) -/

/-- What power good ends: a retry that waited for it, and waiting steps and commands. -/
def goodEnds (c : Nat) (s : State) : State :=
  let t := match gangOf s c with | some g => Target.gang g | none => Target.chan (Fin.ofNat 32 c)
  s |> when ((retryOf s t).phase == 2 && tgtOn s t && tgtGood s t) (endRetry t) |> railGood |> completeWait

/-- A channel's power good is seen high: its UV comparator is armed from the next tick (R212). -/
def pgSeen (c : Nat) (s : State) : State :=
  s |> when (chanOn s c && !fon s F.SEQ_CHn_STATUS_UV_ARMED c) (onSeq (fun q => { q with armNext := nsAdd c q.armNext })) |> goodEnds c

/-- A UV comparator is armed; one already tripped faults at once (R212). One whose disable edge is about to be driven stays as it
is. -/
def armUv (k : Nat) (s : State) : State :=
  if chanOn s k && !s.seq.edges.any (fun e => !e.2 && (tgtChans s e.1).contains k) then
    let s1 := fset F.SEQ_CHn_STATUS_UV_ARMED k s
    if fon s1 F.SEQ_CHn_STATUS_UV_TRIP k then railFault (tgtOf s1 (Fin.ofNat 32 k)) k 1 s1 else s1
  else s

/-- A comparator whose UV_EN has been cleared is used no longer; it is armed again when UV_EN is set. -/
def unarmUv (k : Nat) (s : State) : State :=
  if fon s F.SEQ_CHn_STATUS_UV_ARMED k && !fon s F.SEQ_CHn_WIN_UV_EN k then
    s |> fclr F.SEQ_CHn_STATUS_UV_ARMED k |> onSeq (fun q => { q with armNext := nsAdd k q.armNext })
  else s

/-- The UV comparators due are armed: power good has been seen, and UV_EN is set, however late (R212). -/
def armComparators (s0 : State) : State :=
  let s := forEach allChans unarmUv s0
  let due := s.seq.armNext.filter (fun k => fon s F.SEQ_CHn_WIN_UV_EN k)
  s |> onSeq (fun q => { q with armNext := q.armNext.filter (fun k => !due.contains k) }) |> forEach due armUv

/-- A PG edge is processed as a completion (R213): a rise arms the UV comparator in this tick and completes waits; a fall with the
comparator armed is PG_LOST. -/
def pgDone (k : Nat) (rise : Bool) (s : State) : State :=
  if rise then s |> when (chanOn s k && fon s F.SEQ_CHn_WIN_UV_EN k && !fon s F.SEQ_CHn_STATUS_UV_ARMED k) (armUv k) |> pgSeen k
  else if chanOn s k && fon s F.SEQ_CHn_STATUS_UV_ARMED k then railFault (tgtOf s (Fin.ofNat 32 k)) k 4 s
  else completeWait s

/-- The PG edges of the ticks before this one. -/
def pgEdges (s : State) : State :=
  let due := s.seq.pgDue.filter (fun e => decide (e.2.2 < tickOf s))
  s |> onSeq (fun q => { q with pgDue := q.pgDue.filter (fun e => !decide (e.2.2 < tickOf s)) })
    |> forEach due (fun e => pgDone e.1 e.2.1)

/-- A PG pin changes (R213): where the channel uses it, the edge is processed in the tick after the one it lands in. -/
def pgEdge (c : Chan) (high : Bool) (t : Nat) (s0 : State) : State :=
  if !aonOn s0 then s0
  else
    let k := c.val
    let s := s0 |> advanceTo t
      |> onPins (fun p => { p with pg := if high then p.pg ||| BitVec.ofNat 32 (2 ^ k) else p.pg &&& ~~~(BitVec.ofNat 32 (2 ^ k)) })
      |> hwTrigger 2 k high
    if fon s F.SEQ_CHn_CFG_PG_EN k then
      s |> onSeq (fun q => { q with pgDue := q.pgDue ++ [(k, high != fon s F.SEQ_CHn_CFG_PG_POL k, t / 250)] }) |> pgEdges
    else s

def execPgEdge (c : Chan) (high : Bool) (t : Nat) (s : State) : Host.Outcome State Fault Refusal := run (pgEdge c high t) s

/-- The stamp at which a target's PG_TIMEOUT ends: it counts from the tick of its enable edge. -/
def pgEnds (s : State) (tgt : Target) : Nat := (tabGet 0 s.seq.pgFrom (tgtKey tgt) + tgtTicks s tgt) * 250

/-- A power-good wait has run out (R219, R228, R349): of a retry, of a rail command, or of the step that waits, which counts
its own timeout. -/
def pgTimeout (tgt : Target) (s : State) : State :=
  let w := stepWord s
  if tgtGood s tgt || !tgtOn s tgt then s
  else if (retryOf s tgt).phase = 2 then s |> advanceTo (pgEnds s tgt) |> railFault tgt (tgtLow s tgt) 3
  else if s.seq.railWait.any (fun r => r.2 == tgt) then
    let done := s.seq.railWait.filter (fun r => r.2 == tgt)
    s |> advanceTo (pgEnds s tgt) |> onSeq (fun q => { q with railWait := q.railWait.filter (fun r => r.2 != tgt) })
      |> forEach done (fun r s => succeedIf r.1 0xC015 [1] s)
  else if s.mode = .ramp && fget s F.SEQ_CTRL_STATE 0 = 1 && s.seq.waiting && stepOp w = 3 && stepTarget w = tgt then
    s |> advanceTo ((s.seq.stepSince + waitTicks s w) * 250) |> railFault tgt (tgtLow s tgt) 3 |> afterStepFault
  else s

def execPgTimeoutExpiry (tgt : Target) (s : State) : Host.Outcome State Fault Refusal := run (pgTimeout tgt) s

/-- A backoff ends: the enable request is placed (R228). -/
def backoffEnd (tgt : Target) (s : State) : State :=
  let r := retryOf s tgt
  if r.phase = 1 then
    s |> advanceTo ((r.since + backoffTicks r.count) * 250) |> setRetry tgt { r with phase := 2, since := 0 } |> placeRequest tgt
  else s

def execRetryBackoffEnd (tgt : Target) (s : State) : Host.Outcome State Fault Refusal := run (backoffEnd tgt) s

/-! ### Comparators (R212) -/

/-- A UV comparator trips: a fault when it is used and armed. -/
def uvTrip (c : Chan) (t : Nat) (s0 : State) : State :=
  if !aonOn s0 then s0
  else
    let k := c.val
    let s := s0 |> advanceTo t |> fset F.SEQ_CHn_STATUS_UV_TRIP k |> hwTrigger 5 k true
    if fon s F.SEQ_CHn_WIN_UV_EN k && fon s F.SEQ_CHn_STATUS_UV_ARMED k then railFault (tgtOf s c) k 1 s else s

def execUvTrip (c : Chan) (t : Nat) (s : State) : Host.Outcome State Fault Refusal := run (uvTrip c t) s

/-- An OV comparator trips: a fault when it is used; ignored while a diagnosis masks it (R262). -/
def ovTrip (c : Chan) (t : Nat) (s0 : State) : State :=
  if !aonOn s0 || decide (tickOf s0 < tabGet 0 s0.seq.ovMask c.val) then s0
  else
    let k := c.val
    let s := s0 |> advanceTo t |> fset F.SEQ_CHn_STATUS_OV_TRIP k |> hwTrigger 5 k true
    if fon s F.SEQ_CHn_WIN_OV_EN k then railFault (tgtOf s c) k 2 s else s

def execOvTrip (c : Chan) (t : Nat) (s : State) : Host.Outcome State Fault Refusal := run (ovTrip c t) s

/-- A comparator releases: a channel without a PG pin is good once it is in window (R213). -/
def comparatorRelease (c : Chan) (ov : Bool) (s0 : State) : State :=
  if !aonOn s0 then s0
  else
    let k := c.val
    let s := fclr (if ov then F.SEQ_CHn_STATUS_OV_TRIP else F.SEQ_CHn_STATUS_UV_TRIP) k s0
    if !fon s F.SEQ_CHn_CFG_PG_EN k && inWindow s k then pgSeen k s else s

def execComparatorRelease (c : Chan) (ov : Bool) (s : State) : Host.Outcome State Fault Refusal := run (comparatorRelease c ov) s

/-! ### Edges at a boundary (R210, R221, R225) -/

/-- One channel's EN is driven; a monitor-only channel has none. -/
def driveChan (up : Bool) (c : Nat) (s : State) : State :=
  if fget s F.SEQ_CHn_CFG_EN_MODE c = 0 || chanOn s c = up then s
  else
    s |> fbit F.SEQ_CHn_STATUS_EN c up
      |> when (!up) (fun s => s |> fclr F.SEQ_CHn_STATUS_UV_ARMED c |> onSeq (fun q => { q with armNext := nsDel c q.armNext }))
      |> hwTrigger 1 c up

/-- Power-good timeouts count from the tick in which the enable edge is driven (R219, R228): that of the target, and that of a step
that waits for it, which stands still while a retry pauses the sequence. -/
def countTimeouts (t : Target) (s : State) : State :=
  let mine := s.seq.waiting && stepOp (stepWord s) == 3 && stepTarget (stepWord s) == t
  onSeq (fun q => { q with
    pgFrom := tabSet 0 (tgtKey t) (tickOf s) q.pgFrom
    stepSince := if mine then (if fget s F.SEQ_CTRL_STATE 0 = 2 then q.pausedAt else tickOf s) else q.stepSince }) s

/-- One target's edge is driven; an enable edge enters the log, and a channel already good is seen. -/
def driveEdge (e : Target × Bool) (s : State) : State :=
  let cs := (tgtChans s e.1).filter (fun c => fget s F.SEQ_CHn_CFG_EN_MODE c != 0)
  let s1 := forEach cs (driveChan e.2) s
  if e.2 && !cs.isEmpty then
    s1 |> onSeq (fun q => { q with log := e.1 :: q.log }) |> countTimeouts e.1
       |> forEach (cs.filter (powerGood s1)) pgSeen
  else completeWait s1

/-- The edges decided in the last tick are driven. -/
def driveEdges (s : State) : State :=
  let es := s.seq.edges
  s |> onSeq (fun q => { q with edges := [] }) |> forEach es driveEdge

/-! ### Power-down (R225, R229) -/

/-- May a power-down go on: the disable edge it waits for has been driven? -/
def downDue (s : State) (d : PowerDown) : Bool :=
  match d.waiting with
  | some t => !s.seq.edges.contains (t, false)
  | none => false

/-- Every rail is down: the core's supplies are gone, and a freewheel or a brake may end (R225). -/
def downDone (s : State) : State :=
  s |> fput F.SEQ_CTRL_STATE 0 5
    |> (fun s => if s.mode = .freewheel || s.mode = .brake then s |> railsGone |> tryEndFw else s)

/-- The stamp at which the OFF_DELAY of a power-down's entry ends: it counts from the tick of the disable edge (R225). -/
def downEnds (s : State) (d : PowerDown) : Nat :=
  (d.since + (match d.waiting with | some t => offDelay s t | none => 0)) * 250

/-- The power-down whose OFF_DELAY ends first. -/
def nextDown (s : State) : Option PowerDown :=
  (s.seq.down.filter (downDue s)).foldl (fun m d => match m with
    | none => some d
    | some e => if downEnds s d < downEnds s e then some d else some e) none

/-- The OFF_DELAY of a power-down's entry passes: the next entry is lowered, or the power-down is done. -/
def offDelayExpiry (s0 : State) : State :=
  match nextDown s0 with
  | none => s0
  | some d =>
    let s := advanceTo (downEnds s0 d) s0
    let others := s.seq.down.filter (fun x => x != d)
    match stepDown d s with
    | (some d', s1) => onSeq (fun q => { q with down := others ++ [d'] }) s1
    | (none, s1) =>
      let s2 := onSeq (fun q => { q with down := others }) s1
      if d.why = .all then downDone s2 else s2

def execOffDelayExpiry (s : State) : Host.Outcome State Fault Refusal := run offDelayExpiry s

/-- 10 ms after the entry to RAMP the GTC is still not aligned: enables are admitted by it (R224). -/
def slotUnsync (s : State) : State :=
  if aonOn s && s.mode != .standby && fon s F.SEQ_INRUSH_PEL_EN 0 && !slotAligned s && s.seq.unsync = 0 then
    s |> advanceTo (s.seq.rampAt + 10000000) |> onSeq (fun q => { q with unsync := 1 }) |> fset F.SEQ_ERR_SLOT_UNSYNC 0
  else s

def execSlotUnsyncTimeout (s : State) : Host.Outcome State Fault Refusal := run slotUnsync s

/-! ### Margins (R232 to R235) -/

/-- A margin that does not exist. -/
def marginReset : Margin := ⟨.held, 0, 0, 0, 0, 0, none, 0, none, [], 0⟩

/-- The margin of a rail, kept under its lowest channel. -/
def marginOf (s : State) (c : Nat) : Option Margin := tabGet none (s.seq.margins.map (fun x => (x.1, some x.2))) c

def setMargin (c : Nat) (m : Margin) (s : State) : State := onSeq (fun q => { q with margins := tabPut c m q.margins }) s

/-- The channels a margin's window concerns: every member of the channel's gang (R232). -/
def marginChans (s : State) (c : Nat) : List Nat :=
  match gangOf s c with
  | some g => gangMembers s g.val
  | none => [c]

/-- A channel's stored window: UV and OV (R217). -/
def storedWin (s : State) (c : Nat) : Nat × Nat :=
  match storedWord s (homeChan c + 4) with
  | some w => (fieldOf F.SEQ_CHn_WIN_UV w, fieldOf F.SEQ_CHn_WIN_OV w)
  | none => (0, 1023)

/-- A channel's stored margin path (R349). -/
def storedPath (s : State) (c : Nat) : Nat :=
  match storedWord s (homeChan c + 12) with
  | some w => fieldOf F.SEQ_CHn_MARGIN_PATH w
  | none => 0

/-- Widen the window of a margin's channels to hold another window. -/
def widen (c uv ov : Nat) (s : State) : State :=
  forEach (marginChans s c) (fun m s =>
    s |> fput F.SEQ_CHn_WIN_UV m (min (fget s F.SEQ_CHn_WIN_UV m) uv) |> fput F.SEQ_CHn_WIN_OV m (max (fget s F.SEQ_CHn_WIN_OV m) ov)) s

/-- Apply a window to a margin's channels. -/
def applyWin (c uv ov : Nat) (s : State) : State :=
  forEach (marginChans s c) (fun m s => s |> fput F.SEQ_CHn_WIN_UV m uv |> fput F.SEQ_CHn_WIN_OV m ov) s

/-- Restore the stored window of a margin's channels. -/
def restoreWin (c : Nat) (s : State) : State :=
  forEach (marginChans s c) (fun m s =>
    s |> fput F.SEQ_CHn_WIN_UV m (storedWin s m).1 |> fput F.SEQ_CHn_WIN_OV m (storedWin s m).2) s

/-- The port of a channel's PMBus path. -/
def portOf (s : State) (c : Nat) : Nat := fget s F.SEQ_CHn_MARGIN_PORT c

/-- The first transaction of a margin goes out. -/
def sendPmbus (c : Nat) (m : Margin) (s : State) : State :=
  match m.todo with
  | [] => s
  | (cmd, data) :: _ =>
    let fast := fon s (if portOf s c = 0 then F.SEQ_CFG_PMB0_FAST else F.SEQ_CFG_PMB1_FAST) 0
    emit (.pmbus (portOf s c) (fget s F.SEQ_CHn_MARGIN_ADDR c) cmd data (fon s F.SEQ_CHn_MARGIN_PEC c) fast) s

/-- The margin whose transaction runs on a port (R234: one at a time). -/
def portActive (s : State) (p : Nat) : Option (Nat × Margin) :=
  s.seq.margins.find? (fun x => x.2.phase == .pmbus && x.2.attempt != 0 && portOf s x.1 == p)

/-- A free port takes up the next margin that waits for it. -/
def startPort (p : Nat) (s : State) : State :=
  match portActive s p, s.seq.margins.find? (fun x => x.2.phase == .pmbus && x.2.attempt == 0 && portOf s x.1 == p) with
  | none, some (c, m) => s |> setMargin c { m with attempt := 1 } |> sendPmbus c m
  | _, _ => s

/-- The transactions of an action (R234): PAGE and VOUT_MODE first. -/
def pmbusTodo (s : State) (c action target : Nat) : List (Nat × Nat) :=
  [(0, fget s F.SEQ_CHn_MARGIN_PAGE c), (0x120, 0)]
    ++ (if action = 1 then [(0x25, target), (1, 0xA8)]
        else if action = 2 then [(0x26, target), (1, 0x98)]
        else [(0x121, 0), (0x21, target)])

/-- A margin begins (R232): the window is widened in the tick of acceptance. -/
def startMargin (c action settle uv ov target : Nat) (via : Transport) (s : State) : State :=
  let m : Margin := ⟨.moving, uv, ov, target, settle, tickOf s, some via, action, (marginOf s c).bind (fun m => m.kept), [], 0⟩
  let s1 := widen c uv ov s
  if action = 0 then
    if fon s F.SEQ_CHn_TRIM_DRIVING c then setMargin c m s1
    else
      s1 |> fput F.SEQ_CHn_TRIM_CODE c (fget s F.SEQ_CHn_TRIM_NEUTRAL c) |> fset F.SEQ_CHn_TRIM_DRIVING c
         |> setMargin c { m with phase := .neutralFirst }
  else s1 |> setMargin c { m with phase := .pmbus, todo := pmbusTodo s c action target } |> startPort (portOf s c)

/-- The return to nominal begins (R235). -/
def startNominal (c : Nat) (via : Option Transport) (s : State) : State :=
  let kept := (marginOf s c).bind (fun m => m.kept)
  let m : Margin := ⟨.toNeutral, 0, 0, fget s F.SEQ_CHn_TRIM_NEUTRAL c, 0, tickOf s, via, 4, kept, [], 0⟩
  let w := storedWin s c
  let s1 := widen c w.1 w.2 s
  if storedPath s c = 2 then
    s1 |> setMargin c { m with phase := .pmbus
                               todo := [(0, fget s F.SEQ_CHn_MARGIN_PAGE c), (1, 0x80)]
                                 ++ (match kept with | some v => [(0x21, v)] | none => []) }
       |> startPort (portOf s c)
  else if fon s F.SEQ_CHn_TRIM_DRIVING c then setMargin c m s1
  else setMargin c { m with phase := .nominalSettle } s1

/-- A margin's command completes with a RESULT. -/
def marginResult (c r : Nat) (s : State) : State :=
  match marginOf s c with
  | none => s
  | some m =>
    match m.via with
    | some via => s |> setMargin c { m with via := none } |> succeed via 0xC014 [BitVec.ofNat 8 r]
    | none => s

/-- One tick of SLEW toward a code. -/
def slewTo (s : State) (c target : Nat) : Nat :=
  let now := fget s F.SEQ_CHn_TRIM_CODE c
  let d := max 1 (fget s F.SEQ_CHn_TRIM_SLEW c)
  if now < target then min target (now + d) else max target (now - d)

/-- A margin's work at a tick: the trim output steps, or the new window is checked (R232, R233, R235). -/
def marginTick (x : Nat × Margin) (s : State) : State :=
  let c := x.1
  let m := x.2
  match m.phase with
  | .moving =>
    let s1 := fput F.SEQ_CHn_TRIM_CODE c (slewTo s c m.target) s
    if fget s1 F.SEQ_CHn_TRIM_CODE c = m.target then setMargin c { m with phase := .settling, since := tickOf s } s1 else s1
  | .toNeutral =>
    let s1 := fput F.SEQ_CHn_TRIM_CODE c (slewTo s c m.target) s
    if fget s1 F.SEQ_CHn_TRIM_CODE c = m.target then setMargin c { m with phase := .neutralHold, since := tickOf s } s1 else s1
  | .checking =>
    if (marginChans s c).all (inWindow s) then
      s |> setMargin c { m with phase := .held } |> forEach (marginChans s c) (fset F.SEQ_CHn_STATUS_MARGINED) |> marginResult c 0
    else
      s |> fset F.SEQ_ERR_MARGIN_FAIL 0 |> land 0x06 1 (srcRail c) 0 none |> marginResult c 1 |> startNominal c none
  | _ => s

/-- Every margin's work at a tick. -/
def marginTicks (s : State) : State := forEach s.seq.margins marginTick s

/-- The settling time passes: the new window applies, and is checked in the next tick (R232). -/
def settleEnd (c : Chan) (s : State) : State :=
  match marginOf s c.val with
  | none => s
  | some m =>
    if m.phase = .settling then
      s |> advanceTo ((m.since + m.settle) * 250) |> applyWin c.val m.uv m.ov |> setMargin c.val { m with phase := .checking }
    else s

def execMarginSettleEnd (c : Chan) (s : State) : Host.Outcome State Fault Refusal := run (settleEnd c) s

/-- A hold of NEUTRAL for 4 ticks ends (R233, R235). -/
def neutralEnd (c : Chan) (s : State) : State :=
  match marginOf s c.val with
  | none => s
  | some m =>
    let s1 := advanceTo ((m.since + 4) * 250) s
    if m.phase = .neutralFirst then setMargin c.val { m with phase := .moving } s1
    else if m.phase = .neutralHold then
      s1 |> fclr F.SEQ_CHn_TRIM_DRIVING c.val |> fclr F.SEQ_CHn_TRIM_CODE c.val
         |> setMargin c.val { m with phase := .nominalSettle, since := tickOf s1 }
    else s

def execTrimNeutralHoldEnd (c : Chan) (s : State) : Host.Outcome State Fault Refusal := run (neutralEnd c) s

/-- The 400 ticks of settling after a return end: the stored window is restored (R235). -/
def nominalEnd (c : Chan) (s : State) : State :=
  match marginOf s c.val with
  | none => s
  | some m =>
    if m.phase = .nominalSettle then
      s |> advanceTo ((m.since + 400) * 250) |> restoreWin c.val
        |> forEach (marginChans s c.val) (fclr F.SEQ_CHn_STATUS_MARGINED)
        |> marginResult c.val 3 |> onSeq (fun q => { q with margins := tabDel c.val q.margins })
    else s

def execNominalSettleEnd (c : Chan) (s : State) : Host.Outcome State Fault Refusal := run (nominalEnd c) s

/-- A device in another VOUT mode is refused: nothing has moved, and the window is put back (R234; log 26). -/
def refuseVoutMode (c : Nat) (m : Margin) (s : State) : State :=
  s |> restoreWin c |> onSeq (fun q => { q with margins := tabDel c q.margins })
    |> (match m.via with | some via => refuse via 0xC014 vsConflict | none => id)

/-- A transaction has completed: what it read is kept, and the next one follows; after the last the rail settles. -/
def pmbusOk (c : Nat) (m : Margin) (data : Nat) (s : State) : State :=
  match m.todo with
  | [] => s
  | (cmd, _) :: rest =>
    if cmd = 0x120 && data / 32 % 8 ≠ 0 then refuseVoutMode c m s
    else
      let m' := { m with todo := rest, kept := if cmd = 0x121 && m.kept.isNone then some data else m.kept, attempt := 1 }
      if rest.isEmpty then
        setMargin c { m' with attempt := 0, since := tickOf s, phase := if m.action = 4 then .nominalSettle else .settling
                              kept := if m.action = 4 then none else m'.kept } s
      else s |> setMargin c m' |> sendPmbus c m'

/-- A NACK or PEC error: one retry, then a PMBUS fault and a return to nominal (R234). -/
def pmbusFail (c : Nat) (m : Margin) (s : State) : State :=
  if m.attempt = 1 then s |> setMargin c { m with attempt := 2 } |> sendPmbus c m
  else
    let s1 := s |> fset F.SEQ_ERR_PMB_ERR 0 |> railFault (tgtOf s (Fin.ofNat 32 c)) c 7 |> marginResult c 2
    if m.action = 4 then setMargin c { m with via := none, attempt := 0, todo := [], phase := .nominalSettle, since := tickOf s } s1
    else startNominal c none (setMargin c { m with via := none, attempt := 0 } s1)

/-- A PMBus transaction ends on a port; the port then takes up the next margin. -/
def pmbusComplete (port : Fin 2) (ok : Bool) (data : BitVec 16) (s : State) : State :=
  match portActive s port.val with
  | none => s
  | some (c, m) => (if ok then pmbusOk c m data.toNat s else pmbusFail c m s) |> startPort port.val

def execPmbusTransactionComplete (port : Fin 2) (ok : Bool) (data : BitVec 16) (s : State) : Host.Outcome State Fault Refusal :=
  run (pmbusComplete port ok data) s

/-- A device stretches the clock past the limit: a PMBUS fault (R380). -/
def pmbusStretch (port : Fin 2) (s : State) : State :=
  match portActive s port.val with
  | none => s
  | some (c, m) => s |> pmbusFail c { m with attempt := 2 } |> startPort port.val

def execPmbusStretchTimeout (port : Fin 2) (s : State) : Host.Outcome State Fault Refusal := run (pmbusStretch port) s

end Sys2Proof.Machine
end

