-- ==== Sys2Proof/Machine/RegView.lean ====
section
/-! DEFINITION. Registers as they read (R9 to R12, R358 to R360): the address map, fields that show the state of their
block, and words by pass-through address. -/
namespace Sys2Proof.Machine

/-! ### The address map (R360) -/

/-- The register and instance at a pass-through address. -/
def regAt (a : Nat) : Option (RegDef × Nat) :=
  (allRegs.find? (fun r => decide (r.base ≤ a) && (if r.stride = 0 then a == r.base
      else (a - r.base) % r.stride == 0 && decide ((a - r.base) / r.stride < r.count)))).map
    (fun r => (r, if r.stride = 0 then 0 else (a - r.base) / r.stride))

/-- Is the domain of an address powered (R12, R143, R360)? -/
def addrPowered (s : State) (a : Nat) : Bool := if aonAddr a then aonOn s else coreOn s

/-- A number whose bit `i` is `p i`, for bits 0 to n - 1. -/
def bitsOf (n : Nat) (p : Nat → Bool) : Nat := ((List.range n).filter p).foldl (fun w i => w + 2 ^ i) 0

/-! ### Fields that show their block's state -/

/-- Demand reads of a wheel queued or sensing, and its other queued entries. -/
def wheelDemand (s : State) (w : Nat) : Nat := (s.sched.queue.filter (fun d => bankWheel d.bank == w && d.cls == .demand)).length
def wheelOther (s : State) (w : Nat) : Nat := (s.sched.queue.filter (fun d => bankWheel d.bank == w && d.cls != .demand)).length

/-- The bank number of home bank `b`, 0 to 7, of spoke `g` (R14). -/
def spokeBank (g b : Nat) : Nat := (g / 16 * 8 + g % 16 / 2) * 16 + g % 2 * 8 + b

/-- Has a bank an operation in progress? -/
def bankBusy (s : State) (n : Nat) : Bool :=
  !(bankHeld (bankSt s n)).isEmpty || s.sched.ctxs.any (fun c => c.st == .sense && maBank c.ma == n)

/-- Does a bank hold a suspended program? -/
def bankSusp (s : State) (n : Nat) : Bool := match (bankSt s n).prog with | some p => p.suspended | none => false

/-- Dead slots, and regions whose gap moves have stopped (R152, R170). -/
def deadSlots (s : State) : Nat := (s.med.xtab.filter (fun e => e.dead)).length
def frozenRegions (s : State) : Nat :=
  (((s.med.xtab.filter (fun e => e.dead)).map (fun e => e.region)).foldl (fun t r => nsAdd r t) s.med.lost).length

/-- The spare rows of a wheel, and those that its regions' entries have taken (R144, R154). -/
def wheelSpares (s : State) : Nat := Config.spareRows * (Config.regions s.config / Config.wheels s.config)
def sparesTaken (s : State) (w : Nat) : Nat :=
  (s.med.xtab.filter (fun e => !e.dead && bankWheel (maBank e.spare) == w)).length

/-- Per cent of the fullest wheel's spare rows in use. -/
def sparePct (s : State) : Nat :=
  ((List.range (Config.wheels s.config)).map (fun w => sparesTaken s w * 100 / wheelSpares s)).foldl max 0

/-- Is an owner key stored (R343): a key area copy holds one? -/
def keyCopy (s : State) (p : Nat) : Option (List Byte) :=
  let bs := sbBytes s (p * 256) 32
  if crc32 bs = leAt 0 4 (sbBytes s (p * 256 + 32) 4) then some bs else none
def ownerKey (s : State) : Option (List Byte) :=
  match keyCopy s 4033 with
  | some k => some k
  | none => keyCopy s 4034

/-- The nonce a transport holds. -/
def nonceOf (s : State) (k : Nat) : Option Nonce := tabGet none (s.mbx.nonces.map (fun x => (x.1, some x.2))) k

/-- Progress of the background operation in per cent. -/
def bgPct (s : State) : Nat :=
  match s.mbx.bg with
  | none => 0
  | some b =>
    if b.total = 0 then 0
    else min 100 ((b.total - min b.total (if b.opcode = 0xC051 then s.cache.flush.length else (b.todo.map (fun r => r.2)).sum)) * 100 / b.total)

/-- Word `j` of a result. -/
def resultWord (r : Result) : Nat → Nat
  | 0 => r.w0
  | 1 => r.w1
  | 2 => r.w2
  | _ => 0

/-- Word `j` of the oldest entry of converter `n`'s FIFO; 0 when it is empty (R260). -/
def fifoWord (s : State) (n j : Nat) : Nat :=
  match tabGet [] s.mcv.fifo n with
  | [] => 0
  | r :: _ => resultWord r j

/-- An entry of the device-wide ring that nothing has entered. -/
def ringReset : Result := ⟨0, 0, 0⟩

/-- The fields that are read from the state, and how, by instance. -/
def viewsHub (s : State) : List (Fld × (Nat → Nat)) :=
  [(F.HUB_MODE_MODE, fun _ => modeCode s.mode),
   (F.HUB_PLC_STATUS_WRITE_LIMITED, fun _ => (writeLimited s).toNat),
   (F.HUB_PLC_STATUS_XTAB_FULL, fun _ => (xtabFull s).toNat),
   (F.HUB_PLC_STATUS_RETIRE_BUSY, fun _ => s.med.retire.isSome.toNat),
   (F.HUB_PLC_STATUS_DEAD, fun _ => min 8191 (deadSlots s)),
   (F.HUB_PLC_STATUS_FROZEN, fun _ => min 65535 (frozenRegions s)),
   (F.HUB_XTAB_USED, fun _ => min (2 ^ 21 - 1) s.med.xtab.length),
   (F.HUB_XTAB_SPARE_PCT, fun _ => min 100 (sparePct s)),
   (F.MBX_STATUS_OWNER_KEY, fun _ => (ownerKey s).isSome.toNat),
   (F.MBX_STATUS_LOCKOUT, fun _ => (decide (s.mbx.lockAt ≠ 0)).toNat),
   (F.MBX_STATUS_NONCE_PRI, fun _ => (nonceOf s 0).isSome.toNat),
   (F.MBX_STATUS_NONCE_SEC, fun _ => (nonceOf s 1).isSome.toNat),
   (F.MBX_STATUS_NONCE_MCTP, fun _ => (nonceOf s 2).isSome.toNat),
   (F.MBX_STATUS_BG_RUN, fun _ => s.mbx.bg.isSome.toNat),
   (F.MBX_STATUS_BG_PCT, fun _ => bgPct s),
   (F.MBX_STATUS_BG_OPCODE, fun _ => (s.mbx.bg.map (fun b => b.opcode)).getD 0),
   (F.TND_REGIONS_OWN, fun _ => s.tnd.own.length),
   (F.TND_REGIONS_PEER, fun _ => s.tnd.peerRegions.length),
   (F.TND_DIVERGE_EXTENTS, fun _ => if s.tnd.divergeAll then 512 * s.tnd.own.length else s.tnd.divergent.length),
   (F.TND_RESYNC_EXTENTS, fun _ => s.tnd.toSend.length + s.tnd.sending.length + s.tnd.resync.length)]

/-- The same for the cache, the wheels and the spokes. -/
def viewsPath (s : State) : List (Fld × (Nat → Nat)) :=
  [(F.CCH_MODE_LOCK_CAPABLE, fun _ => (Config.lockCapable s.config).toNat),
   (F.CCH_MODE_SCRATCH_CAPABLE, fun _ => (!Config.lockCapable s.config).toNat),
   (F.CCHn_STATUS_DIRTY, fun n => sliceDirty s n),
   (F.CCHn_STATUS_OVF_USED, fun n => sliceOvf s n),
   (F.CCHn_LOCKED_COUNT, fun n => sliceLocked s n),
   (F.CCHn_WAY_OFF_COUNT, fun n => sliceOff s n),
   (F.CCHn_WAY_PERM_COUNT, fun n => slicePerm s n),
   (F.WHL_PCUR_USED, fun _ => unitsOf s (fun _ => true)),
   (F.WHL_CTX_INUSE, fun _ => s.sched.ctxs.length),
   (F.WHL_POOL_SHARED_FREE, fun _ => poolFree s),
   (F.WHLn_QSTATUS_DR_PENDING, fun w => wheelDemand s w),
   (F.WHLn_QSTATUS_NONDEMAND, fun w => wheelOther s w),
   (F.SPKg_STATUS_BANK_BUSY, fun g => bitsOf 8 (fun b => bankBusy s (spokeBank g b))),
   (F.SPKg_STATUS_BANK_SUSP, fun g => bitsOf 8 (fun b => bankSusp s (spokeBank g b))),
   (F.SPKg_STATUS_BACKLOG, fun g => min 1023 (backlog s g)),
   (F.SPKg_STATUS_ENGINE_BUSY, fun g => (nsHas g s.sched.engLast).toNat)]

/-- The same for the AON blocks. MC0's schedule and trigger and MC1's slot 0 are fixed (R246). -/
def viewsAon (s : State) : List (Fld × (Nat → Nat)) :=
  let fixed0 (f : Fld) (v : Nat) : Fld × (Nat → Nat) := (f, fun n => if n = 0 then v else fget s f n)
  let slot (f : Fld) (v0 v1 : Nat) : Fld × (Nat → Nat) :=
    (f, fun k => if k = 0 then v0 else if k < 32 then 0 else if k = 32 then v1 else fget s f k)
  let second (f : Fld) : Fld × (Nat → Nat) := (f, fun k => if k < 32 then 0 else fget s f k)
  [(F.SEQ_CHn_STATUS_PG, fun c => (powerGood s c).toNat),
   (F.SEQ_CHn_STATUS_PENDING, fun c => (s.seq.pend.any (fun t => (tgtChans s t).contains c)).toNat),
   (F.MCV_STATUS_ON, fun _ => bitsOf 8 (fun n => (conv s n).on)),
   (F.MCV_STATUS_LP, fun _ => bitsOf 8 (fun n => (conv s n).lp)),
   (F.MCV_STATUS_CAL_BUSY, fun _ => bitsOf 8 (fun n => (conv s n).calibrating)),
   (F.MCV_STATUS_DIAG_BUSY, fun _ => bitsOf 4 (fun p => (tabGet none s.mcv.diag p).isSome)),
   (F.MCVn_SEL_INJ_PEND, fun n => (conv s n).injPend.toNat),
   (F.MCVn_CAL_BUSY, fun n => (conv s n).calibrating.toNat),
   (F.MCVn_FIFO0_WORD, fun n => fifoWord s n 0),
   (F.MCVn_FIFO1_WORD, fun n => fifoWord s n 1),
   (F.MCVn_FIFO2_WORD, fun n => fifoWord s n 2),
   (F.MCVn_FSTAT_LEVEL, fun n => (tabGet [] s.mcv.fifo n).length),
   (F.MCV_RINGe_WORD, fun k => resultWord (tabGet ringReset s.mcv.ring (k / 4)) (k % 4)),
   fixed0 F.MCVn_CFG_SPACING 4, fixed0 F.MCVn_CFG_LP_SPACING 32, fixed0 F.MCVn_CFG_LEN 0,
   fixed0 F.MCVn_TRIG_SRC 0, fixed0 F.MCVn_TRIG_CHAN 0, fixed0 F.MCVn_TRIG_CONV 0, fixed0 F.MCVn_TRIG_CH 0,
   fixed0 F.MCVn_TRIG_EDGE 0, fixed0 F.MCVn_TRIG_PERIOD 0,
   slot F.MCVn_SLOTj_CH0 0 13, slot F.MCVn_SLOTj_USE0 1 1, second F.MCVn_SLOTj_CH1, second F.MCVn_SLOTj_USE1,
   (F.REC_STATUS_CLEARING, fun _ => s.rcd.clearing.isSome.toNat),
   (F.REC_STATUS_WRITING, fun _ => s.rcd.writing.isSome.toNat),
   (F.REC_QUEUE_LEVEL, fun _ => min 32 s.rcd.queue.length),
   (F.REC_QUEUE_FFL_PEND, fun _ => s.rcd.ffl.isSome.toNat),
   (F.REC_VRING_COUNT, fun _ => s.rcd.vring.length),
   (F.SBG_STATUS_DIRTY, fun _ => dirtyPages s),
   (F.SBG_BANK_BUSY, fun _ => bitsOf 16 (fun b => (tabGet none s.sbg.running b).isSome))]

/-- What instance `i` of a field reads: write-only fields read 0 (R9). -/
def viewField (s : State) (f : Fld) (i : Nat) : Nat :=
  if f.acc = .wo then 0
  else match (viewsHub s ++ viewsPath s ++ viewsAon s).find? (fun x => x.1.base == f.base && x.1.lo == f.lo) with
    | some x => x.2 i
    | none => fget s f i

/-- What instance `i` of a register reads; reserved bits read 0 (R10). -/
def viewReg (s : State) (r : RegDef) (i : Nat) : Nat :=
  r.fields.foldl (fun w f => w + viewField s f i % 2 ^ f.width * 2 ^ f.lo) 0

/-- The word at a pass-through address; none where it is unmapped or unpowered (R358). -/
def viewWord (s : State) (a : Nat) : Option Nat :=
  if addrPowered s a then (regAt a).map (fun x => viewReg s x.1 x.2) else none

end Sys2Proof.Machine
end

