-- ==== Sys2Proof/Machine/Rec.lean ====
section
/-! DEFINITION. The event recorder (chapter 10): records as bytes, capture with snapshots, writing and verifying, the scan
and the copy rules, degraded and volatile operation, forwarding, reading and clearing. -/
namespace Sys2Proof.Machine

/-! ### Records as bytes (R265, R267) -/

/-- Byte address of a slot's copy: A when `b` is 0, B when it is 1. -/
def slotAddr (slot b : Nat) : Nat := ((if b = 0 then 1024 else 2112) + slot / 2) * 256 + 128 * (slot % 2)

/-- Bytes 0 to 123 of a record, FLAGS bit 1 as 0. -/
def rcdBody (r : Rcd) : List Byte :=
  leBytes 1 r.type ++ leBytes 1 (r.cls % 8 + r.devid % 16 * 16) ++ leBytes 2 (r.source % 4096) ++ leBytes 4 r.seq
    ++ leBytes 1 r.flags ++ leBytes 1 r.nsnap ++ leBytes 2 r.lost ++ leBytes 1 r.epoch ++ leBytes 3 0
    ++ (List.range 26).flatMap (fun i => leBytes 4 (r.snap.getD i 0)) ++ leBytes 2 r.listId ++ leBytes 2 0

/-- A record's 128 bytes. -/
def rcdBytes (r : Rcd) : List Byte := rcdBody r ++ leBytes 4 (crc32 (rcdBody r))

/-- A record's bytes with FLAGS bit 1 replaced. -/
def withDisagree (v : Bool) (bs : List Byte) : List Byte :=
  bs.take 8 ++ ((bs.drop 8).take 1).map (fun b => if v then b ||| 2 else b &&& 0xFD) ++ bs.drop 9

/-- Is a copy good: its CRC holds, with FLAGS bit 1 taken as 0? -/
def rcdGood (bs : List Byte) : Bool := crc32 ((withDisagree false bs).take 124) == leAt 124 4 bs

/-- Is a copy blank? -/
def rcdBlank (bs : List Byte) : Bool := bs.all (fun b => b == blankByte)

/-- SEQ and TYPE of a record's bytes. -/
def rcdSeq (bs : List Byte) : Nat := leAt 4 4 bs
def rcdType (bs : List Byte) : Nat := leAt 0 1 bs

/-- A slot's copy as the working copy holds it. -/
def copyBytes (s : State) (slot b : Nat) : List Byte := sbBytes s (slotAddr slot b) 128

/-! ### The copy rules (R276) -/

/-- How a slot resolves. -/
inductive SlotRead where
  | blank
  | damaged
  /-- the record's bytes, whether copy B gives it, whether the copies disagree under one SEQ -/
  | record (bs : List Byte) (fromB disagree : Bool)
  deriving DecidableEq, Repr

/-- Resolve two copies. -/
def resolveCopies (a b : List Byte) : SlotRead :=
  if rcdGood a then
    if rcdGood b then
      if rcdSeq a = rcdSeq b then .record a false (a != b)
      else if rcdSeq a < rcdSeq b then .record b true false else .record a false false
    else .record a false false
  else if rcdGood b then .record b true false
  else if rcdBlank a && rcdBlank b then .blank
  else .damaged

/-- Resolve a slot. -/
def resolveSlot (s : State) (slot : Nat) : SlotRead := resolveCopies (copyBytes s slot 0) (copyBytes s slot 1)

/-- SEQ of a slot that holds a record. -/
def slotSeq (s : State) (slot : Nat) : Option Nat :=
  match resolveSlot s slot with | .record bs _ _ => some (rcdSeq bs) | _ => none

/-- The circulating slots, in order of number. -/
def circSlots : List Nat := (List.range 2048).map (· + 128)

/-- The circulating slots that hold records, with their SEQ. -/
def circRecords (s : State) : List (Nat × Nat) := circSlots.filterMap (fun k => (slotSeq s k).map (fun q => (k, q)))

/-- The lowest and the highest SEQ of a list, with its slot. -/
def lowest (xs : List (Nat × Nat)) : Option (Nat × Nat) :=
  xs.foldl (fun m x => match m with | some y => if x.2 < y.2 then some x else m | none => some x) none
def highest (xs : List (Nat × Nat)) : Option (Nat × Nat) :=
  xs.foldl (fun m x => match m with | some y => if y.2 < x.2 then some x else m | none => some x) none

/-- REC_OLDEST: the lowest SEQ among good circulating records. -/
def refreshOldest (s : State) : State :=
  fput F.REC_OLDEST_SEQ 0 (match lowest (circRecords s) with | some x => x.2 | none => 0) s

/-- Is copy A (0) or B (1) in use (R279)? -/
def copyUsed (s : State) (b : Nat) : Bool := !fon s (if b = 0 then F.REC_STATUS_BANK_A_BAD else F.REC_STATUS_BANK_B_BAD) 0

/-- Write a slot's bytes in every copy in use and request the stores. -/
def putSlot (slot : Nat) (bs : List Byte) (s : State) : State :=
  s |> when (copyUsed s 0) (sbStore (slotAddr slot 0) bs) |> when (copyUsed s 1) (sbStore (slotAddr slot 1) bs)

/-- Blank a slot in every copy in use. -/
def blankSlot (slot : Nat) (s : State) : State := putSlot slot (List.replicate 128 blankByte) s

/-! ### Scrub (R278) -/

/-- Write a copy from the bytes that stand: one repair. -/
def repairCopy (slot b : Nat) (bs : List Byte) (s : State) : State :=
  if copyUsed s b then
    s |> sbStore (slotAddr slot b) bs |> finc F.REC_COUNTS_REPAIRED 0 |> fset F.REC_ERR_REPAIRED 0
  else s

/-- Repair one slot. -/
def scrubSlot (slot : Nat) (s : State) : State :=
  let a := copyBytes s slot 0
  let b := copyBytes s slot 1
  match resolveCopies a b with
  | .record bs false _ => if b = bs then s else repairCopy slot 1 bs s
  | .record bs true _ => if a = bs then s else repairCopy slot 0 bs s
  | _ => s

/-- The repairs of R276, once after the scan and with every refresh pass. -/
def recScrub (s : State) : State := forEach (List.range 2176) scrubSlot s

/-! ### Snapshots (R273, R274) -/

/-- A default list's entry: register at `a`, and its shift. -/
def ent (a sh : Nat) : Nat := a + sh * 2 ^ 24

/-- The default lists of R274. -/
def defaultList : Nat → List Nat
  | 0 =>
      [ent F.HUB_MODE_MODE.base 0, ent F.SEQ_IN_STATUS_VIN_LOW.base 0, ent F.SEQ_FFL_SRC_SOURCE.base 0, ent F.SEQ_FFL_GTC_LO_GTC.base 0,
       ent F.SEQ_FFL_GTC_HI_GTC.base 0, ent F.LDG_STATUS_COND.base 0, ent F.LDG_VCAP_MV.base 0, ent F.LDG_CEFF_UF.base 0,
       ent F.LDG_EAVAIL_UJ.base 0, ent F.LDG_ENEED_UJ.base 0, ent F.LDG_NDIRTY_LINES.base 0, ent F.LDG_NSCRATCH_SCRATCH.base 0,
       ent F.LDG_FW_LAST_TICKS.base 0, ent F.LDG_FW_LINES_LINES.base 0, ent F.LDG_ERR_SENSE_RANGE.base 0, ent F.HUB_CKPT_SEQ.base 0]
  | 1 =>
      [ent F.HUB_MODE_MODE.base 0, ent F.SEQ_CTRL_STATE.base 0, ent F.SEQ_ERR_NOTE.base 0, ent F.SEQ_IN_STATUS_VIN_LOW.base 0,
       ent F.SEQ_CHn_CFG_CRIT.base 5, ent F.SEQ_CHn_WIN_UV.base 5, ent F.SEQ_CHn_TIME_OFF_DELAY.base 5, ent F.SEQ_CHn_STATUS_EN.base 5,
       ent F.SEQ_CHn_COUNT_FAULTS.base 5, ent F.MCV_INk_VAL_RAW.base 2, ent F.SEQ_FFL_UV_STATE.base 0, ent F.SEQ_FFL_OV_STATE.base 0,
       ent F.SEQ_FFL_PG_STATE.base 0, ent F.SEQ_FFL_EN_STATE.base 0]
  | 2 =>
      [ent F.MCV_STATUS_ON.base 0, ent F.MCV_ERR_LIMIT.base 0, ent F.MCV_TJ_CODE.base 0, ent F.MCV_DIAG_RES_SPAN.base 0,
       ent F.MCV_INk_CFG_ORDER.base 3, ent F.MCV_INk_LIM_LO.base 3, ent F.MCV_INk_VAL_RAW.base 2, ent F.MCVn_CAL_OFFSET.base 6,
       ent F.MCVn_FSTAT_LEVEL.base 6, ent F.MCVn_OVERRUN_COUNT.base 6]
  | 3 =>
      [ent F.HUB_MODE_MODE.base 0, ent F.LDG_STATUS_COND.base 0, ent F.LDG_ALLOW_LINES.base 0, ent F.LDG_NDIRTY_LINES.base 0,
       ent F.LDG_NSCRATCH_SCRATCH.base 0, ent F.LDG_EAVAIL_UJ.base 0, ent F.LDG_ENEED_UJ.base 0, ent F.LDG_VCAP_MV.base 0,
       ent F.LDG_CEFF_UF.base 0] ++ (List.range 8).map (fun n => ent (F.LDG_CAPn_UF.base + F.LDG_CAPn_UF.stride * n) 0)
      ++ [ent F.LDG_CFG_MARGIN.base 0, ent F.LDG_ERR_SENSE_RANGE.base 0, ent F.LDG_CAP_REJECTS_COUNT.base 0]
  | 4 =>
      [ent F.HUB_MODE_MODE.base 0, ent F.HUB_PLC_STATUS_DEAD.base 0, ent F.HUB_XTAB_USED.base 0, ent F.HUB_EPOCH_PE.base 0,
       ent F.HUB_CKPT_SEQ.base 0, ent F.WHLn_QSTATUS_DR_PENDING.base 12, ent F.WHLn_EXC_LAST_LAT.base 12,
       ent F.WHLn_DECODE_FAIL_COUNT.base 12, ent F.WHLn_ERR_EXCURSION.base 12, ent F.CCHn_STATUS_DIRTY.base 12,
       ent F.CCHn_ERR_SEC.base 12, ent F.CCHn_LAST_ERR_SET.base 12, ent F.MMBn_STATUS_TRAINED.base 8, ent F.MMBn_ERR_CA_BURST.base 8,
       ent F.MMBn_TEMP_MAX_C.base 8, ent F.SPKg_STATUS_BANK_BUSY.base 6]
  | 5 =>
      [ent F.HUB_MODE_MODE.base 0, ent F.HPT_LINK_STATUS_WIDTH.base 0, ent F.HPT_CREDIT_RWD_OUT.base 0, ent F.HPT_ERR_STATUS_REFUSED.base 0,
       ent F.HPT_RESET_CAUSE_LAST.base 0, ent F.HPT_DECODE_MISS_COUNT.base 0, ent F.HPT_POISON_TX_COUNT.base 0,
       ent F.HPT_MAINT_REFUSED_COUNT.base 0, ent F.LDG_STATUS_COND.base 0]
  | 6 =>
      [ent F.HUB_MODE_MODE.base 0, ent F.LDG_STATUS_COND.base 0, ent F.PEL_STATUS_DEVID.base 0, ent F.PEL_PRESENT_HEARD.base 0,
       ent F.PEL_ERR_CRC.base 0, ent F.TND_STATUS_LINK.base 0, ent F.TND_ERR_LINK_LOST.base 0, ent F.TND_DIVERGE_EXTENTS.base 0,
       ent F.TND_RESYNC_EXTENTS.base 0]
  | _ =>
      [ent F.HUB_MODE_MODE.base 0, ent F.HUB_BRAKE_CAUSE.base 0, ent F.HUB_RESTART_MS.base 0, ent F.HUB_RESTORE_LINES.base 0,
       ent F.HUB_RESTORE_HOME_LINES.base 0, ent F.HUB_RESTORE_POISON_LINES.base 0, ent F.SEQ_FFL_SRC_SOURCE.base 0,
       ent F.SEQ_FFL_GTC_LO_GTC.base 0, ent F.SEQ_FFL_GTC_HI_GTC.base 0, ent F.MCV_TJ_CODE.base 0, ent F.REC_STATUS_PERM.base 0,
       ent F.REC_ERR_LOST.base 0]

/-- Has a list been stored? A stored list never carries LIST_ID 0xFFFF (R351). -/
def listStored (s : State) (c : Nat) : Bool := !pageLost s (800 + c / 2) && sbNat s (homeList c + 104) 2 != 0xFFFF

/-- LIST_ID of class `c`. -/
def listId (s : State) (c : Nat) : Nat := if listStored s c then sbNat s (homeList c + 104) 2 else 0xFFFF

/-- The 26 entries of class `c`'s list. -/
def listWords (s : State) (c : Nat) : List Nat :=
  if listStored s c then (List.range 26).map (fun i => sbNat s (homeList c + 4 * i) 4)
  else defaultList c ++ List.replicate (26 - (defaultList c).length) 0xFFFFFFFF

/-- The entries before the first unused one. -/
def usedEntries : List Nat → List Nat
  | [] => []
  | e :: t => if e = 0xFFFFFFFF then [] else e :: usedEntries t

/-- The instance a relative entry at `a` takes from a source; none where the block does not match (R273). The sense of rail
channel n is AINn, so a rail source has that instance in the per-input entries (DEDUCED from the class 1 default
list, log 44). -/
def sourceInst (src a : Nat) : Option Nat :=
  let wheel : Option Nat :=
    if 0x300 ≤ src && src < 0x310 then some (src - 0x300)
    else if 0x400 ≤ src && src < 0x500 then some ((src - 0x400) / 16) else none
  if 0x20000 ≤ a && a < 0x40000 then wheel
  else if 0x40000 ≤ a && a < 0x44000 then (if 0x400 ≤ src && src < 0x500 then some (src - 0x400) else none)
  else if 0x80000 ≤ a && a < 0xA0000 then wheel
  else if 0xA1000 ≤ a && a < 0xA2000 then wheel
  else if 0xC0000 ≤ a && a < 0xC1000 then (if src < 32 then some src else none)
  else if 0xC5000 ≤ a && a < 0xC5600 then
    (if src < 32 then some src else if 0x100 ≤ src && src < 0x160 then some (src - 0x100) else none)
  else if (0xC4100 ≤ a && a < 0xC4300) || (0xC4800 ≤ a && a < 0xC5000) then
    (if 0x100 ≤ src && src < 0x160 then some (convOf (src - 0x100)).1
     else if 0x180 ≤ src && src < 0x188 then some (src - 0x180) else none)
  else none

/-- An entry's word, and whether its register lay in an unpowered domain. -/
def snapWord (s : State) (src e : Nat) : Nat × Bool :=
  let a := e % 2 ^ 24
  let sh := e / 2 ^ 24 % 16
  let addr := if sh = 0 then some a else (sourceInst src a).map (fun i => a + i * 2 ^ sh)
  match addr with
  | none => (0, false)
  | some x => if addrPowered s x then ((viewWord s x).getD 0, false) else (0, (regAt x).isSome)

/-! ### Capture (R270 to R272) -/

/-- Is the scan still to end? -/
def scanning (s : State) : Bool := fon s F.REC_STATUS_SCANNING 0

/-- A landed event as a record with a number. -/
def buildRcd (s : State) (l : Landed) (seq : Nat) : Rcd :=
  let dev := match l.devid with | some d => d | none => fget s F.PEL_STATUS_DEVID 0
  match l.fixed with
  | some ws =>
    { type := l.type, cls := l.cls, devid := dev, source := l.source, seq := seq, flags := l.flags, nsnap := min 26 ws.length
      lost := min 65535 s.rcd.lostSince, epoch := fget s F.PEL_STATUS_EPOCH 0, snap := ws.take 26, listId := 0 }
  | none =>
    let xs := (usedEntries (listWords s l.cls)).map (snapWord s l.source)
    { type := l.type, cls := l.cls, devid := dev, source := l.source, seq := seq
      flags := l.flags + (if xs.any (fun x => x.2) then 64 else 0), nsnap := xs.length
      lost := min 65535 s.rcd.lostSince, epoch := fget s F.PEL_STATUS_EPOCH 0, snap := xs.map (fun x => x.1), listId := listId s l.cls }

/-- The number a capture takes: the next one, or its place among the records held during the scan (R277). -/
def nextNumber (s : State) : Nat :=
  if scanning s then s.rcd.queue.length + s.rcd.ffl.toList.length else fget s F.REC_SEQ_SEQ 0

/-- Take the number. -/
def takeNumber (s : State) : State :=
  if scanning s then s else fput F.REC_SEQ_SEQ 0 ((fget s F.REC_SEQ_SEQ 0 + 1) % 2 ^ 32) s

/-- A freewheel or a brake waits for its last record (R133, R204). -/
def afterRecord (type : Nat) (s : State) : State :=
  if (type = 3 && s.mode = .freewheel) || (type = 4 && s.mode = .brake) then recordWritten s else s

/-- An event that finds the queue full is lost; a freewheel, a brake or a clear does not wait for it (R272; log 29). -/
def loseEvent (l : Landed) (s : State) : State :=
  s |> finc F.REC_LOST_COUNT 0 |> fset F.REC_ERR_LOST 0 |> onRcd (fun r => { r with lostSince := r.lostSince + 1 })
    |> afterRecord l.type
    |> when (l.type == 0x10) (fun s => match s.rcd.clearing with
        | some via => s |> onRcd (fun r => { r with clearing := none }) |> refuseIf via 0xC023 vsConflict
        | none => s)

/-- Capture one landed event. -/
def captureOne (l : Landed) (s : State) : State :=
  let r := buildRcd s l (nextNumber s)
  if l.type = 2 && s.rcd.ffl.isNone then
    s |> takeNumber |> onRcd (fun x => { x with ffl := some r, lostSince := 0 })
  else if s.rcd.queue.length < 32 then
    s |> takeNumber |> onRcd (fun x => { x with queue := x.queue ++ [r], lostSince := 0 })
      |> fhigh F.REC_QUEUE_HWM 0 (s.rcd.queue.length + 1)
  else loseEvent l s

/-- The order of R19 within a tick: by stamp, then by source number. -/
def landedLe (a b : Landed) : Bool := decide (a.stamp < b.stamp) || (a.stamp == b.stamp && decide (a.source ≤ b.source))

/-- The events of the earliest tick with landed events are captured, in the tick after it. -/
def captureStep (s : State) : State :=
  match s.rcd.landed with
  | [] => s
  | l :: t =>
    if !aonOn s then s
    else
      let tick := t.foldl (fun m x => min m (x.stamp / 250)) (l.stamp / 250)
      let due := sortBy landedLe ((l :: t).filter (fun x => x.stamp / 250 == tick))
      s |> advanceTo ((tick + 1) * 250)
        |> onRcd (fun r => { r with landed := r.landed.filter (fun x => x.stamp / 250 != tick) })
        |> forEach due captureOne

def execRecordCapture (s : State) : Host.Outcome State Fault Refusal := run captureStep s

/-! ### Volatile mode and forwarding (R280, R281, R317) -/

/-- Is the recorder in volatile mode? -/
def recVolatile (s : State) : Bool := fon s F.REC_STATUS_FAIL 0

/-- Has the recorder a partner on a whole ring to send to? -/
def canForward (s : State) : Bool :=
  fon s F.REC_CFG_FWD_EN 0 && tndEn s && fon s F.PEL_CFG_EN 0 && !fon s F.PEL_STATUS_SPLIT 0

/-- The 22 fragments of a record. -/
def sendFragments (r : Rcd) (s : State) : State :=
  let bs := rcdBytes r ++ List.replicate 4 0
  forEach (List.range 22) (fun i s =>
    ringOut 5 (fget s F.TND_CFG_PARTNER 0 + i * 256 + leAt (6 * i) 6 bs * 2 ^ 16) s) s

/-- The next record to forward goes out. -/
def forwardNext (s : State) : State :=
  match s.rcd.fwd, s.rcd.fwdWait with
  | none, r :: rest => s |> onRcd (fun x => { x with fwd := some (r, 1, s.gtc), fwdWait := rest }) |> sendFragments r
  | _, _ => s

/-- Forward a record of volatile mode, or drop it. -/
def forward (r : Rcd) (s : State) : State :=
  if !fon s F.REC_CFG_FWD_EN 0 then s
  else if canForward s then s |> onRcd (fun x => { x with fwdWait := x.fwdWait ++ [r] }) |> forwardNext
  else fset F.REC_ERR_FWD_FAIL 0 s

/-- A record enters the ring of 32. -/
def toRing (r : Rcd) (s : State) : State :=
  let v := { r with flags := r.flags + 4 }
  s |> onRcd (fun x => { x with vring := (x.vring ++ [v]).drop (x.vring.length + 1 - 32) })
    |> fput F.REC_VRING_WP 0 ((fget s F.REC_VRING_WP 0 + 1) % 32)
    |> ctrUpdate ctrRecorder (r.seq % 2 ^ 32) |> fput F.REC_NEWEST_SEQ 0 r.seq |> forward v |> afterRecord r.type

/-- No RECACK within 100 µs: the record is sent once more, then given up. -/
def recackTimeout (s : State) : State :=
  match s.rcd.fwd with
  | none => s
  | some (r, n, t) =>
    let s1 := advanceTo (t + 100000) s
    if n = 1 then s1 |> onRcd (fun x => { x with fwd := some (r, 2, s1.gtc) }) |> sendFragments r
    else s1 |> onRcd (fun x => { x with fwd := none }) |> fset F.REC_ERR_FWD_FAIL 0 |> forwardNext

def execRecackTimeout (s : State) : Host.Outcome State Fault Refusal := run recackTimeout s

/-! ### Writing (R275, R286) -/

/-- The record that is written next, in SEQ order, and whether it is the first-fault entry's. -/
def nextRecord (s : State) : Option (Rcd × Bool) :=
  match s.rcd.queue, s.rcd.ffl with
  | [], none => none
  | [], some f => some (f, true)
  | r :: _, none => some (r, false)
  | r :: _, some f => if f.seq < r.seq then some (f, true) else some (r, false)

/-- Is the CLEAR record of a running clear still to be written? Records after it wait until the clear completes. -/
def clearUnwritten (s : State) : Bool :=
  s.rcd.queue.any (fun r => r.type == 0x10) || s.rcd.landed.any (fun l => l.type == 0x10)

/-- Take a record out of the queue. -/
def takeRecord (fromFfl : Bool) (s : State) : State :=
  onRcd (fun x => if fromFfl then { x with ffl := none } else { x with queue := x.queue.drop 1 }) s

/-- The circulating slot a record goes to. -/
def circSlotOf (s : State) (r : Rcd) : Nat := if r.type = 0x10 then 128 else fget s F.REC_WP_SLOT 0

/-- The recorder takes the head of the queue and writes it to its slots, with the counter. In volatile mode the record goes
to the ring. -/
def writeStart (s : State) : State :=
  match nextRecord s with
  | none => s
  | some (r, f) =>
    if !aonOn s || !sbReady s || scanning s || s.rcd.writing.isSome || (s.rcd.clearing.isSome && !clearUnwritten s) then s
    else if recVolatile s then s |> takeRecord f |> toRing r
    else if !fon s F.SBG_STATUS_SUPPLY_OK 0 then s
    else
      let slot := circSlotOf s r
      let perm := fget s F.REC_STATUS_PERM 0
      s |> takeRecord f |> onRcd (fun x => { x with writing := some (r, slot, if perm < 128 then perm else 4096) })
        |> putSlot slot (rcdBytes r) |> when (decide (perm < 128)) (putSlot perm (rcdBytes r))
        |> ctrUpdate ctrRecorder (r.seq % 2 ^ 32)

def execRecordWriteStart (s : State) : Host.Outcome State Fault Refusal := run writeStart s

/-! ### Verifying (R279, R280, R286) -/

/-- The pages of a copy that a record's write stores. -/
def copyPages (slot perm b : Nat) : List Nat :=
  [slotAddr slot b / 256] ++ (if perm < 128 then [slotAddr perm b / 256] else [])

/-- Is the store of a page requested or running? -/
def storePending (s : State) (p : Nat) : Bool :=
  nsHas p s.sbg.reqs || nsHas p s.sbg.autoset || s.sbg.running.any (fun x => match x.2 with | some r => r.page == p | none => false)

/-- Does a stored copy hold what was written, when the read-back itself reads good? -/
def copyStored (s : State) (r : Rcd) (slot perm b : Nat) (ok : Bool) : Bool :=
  let same (k : Nat) : Bool :=
    (List.range 128).map (fun i => tabGet blankByte s.sbg.shadow (slotAddr k b + i)) == rcdBytes r
  ok && same slot && (perm == 4096 || same perm)

/-- The circulating slot after another. -/
def nextCirc (slot : Nat) : Nat := if slot = 2175 then 128 else slot + 1

/-- The CLEAR record has verified: the slots after it are blanked. -/
def clearBlank (s : State) : State :=
  s |> forEach ((List.range 2047).map (· + 129)) blankSlot |> fput F.REC_WP_SLOT 0 129 |> refreshOldest

/-- The clear completes when its pages are stored (R286). -/
def clearProgress (s : State) : State :=
  match s.rcd.clearing with
  | none => s
  | some via =>
    if clearUnwritten s || s.rcd.writing.isSome || (List.range 2176).any (fun i => storePending s (1024 + i)) then s
    else
      s |> onRcd (fun r => { r with clearing := none })
        |> succeedIf via 0xC023 (leBytes 4 (match slotSeq s 128 with | some q => q | none => 0))

/-- A record stands in at least one copy. -/
def recordStands (r : Rcd) (slot perm : Nat) (s : State) : State :=
  s |> onRcd (fun x => { x with writing := none }) |> fput F.REC_NEWEST_SEQ 0 r.seq
    |> fput F.REC_WP_SLOT 0 (nextCirc slot) |> when (decide (perm < 128)) (finc F.REC_STATUS_PERM 0)
    |> refreshOldest |> when (r.type == 0x10 && s.rcd.clearing.isSome) (fun s => s |> clearBlank |> clearProgress)
    |> afterRecord r.type

/-- One copy fails: degraded operation, and a BANK_FAULT record. -/
def bankFault (b slot : Nat) (s : State) : State :=
  let s1 := s |> fset F.REC_STATUS_DEGRADED 0
    |> fset (if b = 0 then F.REC_STATUS_BANK_A_BAD else F.REC_STATUS_BANK_B_BAD) 0
    |> fset (if b = 0 then F.REC_ERR_VERIFY_A else F.REC_ERR_VERIFY_B) 0
  land 0x11 7 srcRecorder 0 (some [b, slot, slotAddr slot b / 256, (viewWord s1 F.REC_STATUS_PERM.base).getD 0]) s1

/-- Every copy in use fails: volatile mode. A clear that waits for this record fails with it (log 29). -/
def goVolatile (r : Rcd) (fa fb : Bool) (s : State) : State :=
  s |> onRcd (fun x => { x with writing := none })
    |> when fa (fun s => s |> fset F.REC_STATUS_BANK_A_BAD 0 |> fset F.REC_ERR_VERIFY_A 0)
    |> when fb (fun s => s |> fset F.REC_STATUS_BANK_B_BAD 0 |> fset F.REC_ERR_VERIFY_B 0)
    |> fset F.REC_STATUS_FAIL 0 |> fset F.REC_ERR_VOLATILE 0
    |> toRing r |> land 0x12 7 srcRecorder 0 none |> postOrQueue 2 1 0 0 7 srcRecorder
    |> (fun s => match s.rcd.clearing with
        | some via => s |> onRcd (fun x => { x with clearing := none }) |> refuseIf via 0xC023 vsStoreFailed
        | none => s)

/-- The stored copies of the record being written are read back and compared, once their stores have ended. -/
def verifyStep (aOk bOk : Bool) (s : State) : State :=
  match s.rcd.writing with
  | none => s
  | some (r, slot, perm) =>
    let waits (b : Nat) : Bool := copyUsed s b && (copyPages slot perm b).any (storePending s)
    if waits 0 || waits 1 then s
    else
      let fa := copyUsed s 0 && !copyStored s r slot perm 0 aOk
      let fb := copyUsed s 1 && !copyStored s r slot perm 1 bOk
      let ga := copyUsed s 0 && !fa
      let gb := copyUsed s 1 && !fb
      if ga || gb then
        s |> when fa (bankFault 0 slot) |> when fb (bankFault 1 slot) |> recordStands r slot perm
      else goVolatile r fa fb s

def execRecordWriteVerify (aOk bOk : Bool) (s : State) : Host.Outcome State Fault Refusal := run (verifyStep aOk bOk) s

/-! ### The scan (R271, R277) -/

/-- SEQ of the newest CLEAR record of the circulating area. -/
def clearSeq (s : State) : Option Nat :=
  (highest (circSlots.filterMap (fun k => match resolveSlot s k with
    | .record bs _ _ => if rcdType bs = 0x10 then some (k, rcdSeq bs) else none
    | _ => none))).map (fun x => x.2)

/-- Circulating records older than the last CLEAR are blanked again. -/
def scanClear (s : State) : State :=
  match clearSeq s with
  | none => s
  | some q => forEach ((circRecords s).filter (fun x => decide (x.2 < q))) (fun x s => blankSlot x.1 s) s

/-- The highest SEQ in any readable copy. -/
def scanTop (s : State) : Option Nat :=
  (highest ((List.range 2176).flatMap (fun k => [0, 1].filterMap (fun b =>
    let bs := copyBytes s k b
    if rcdGood bs then some (k, rcdSeq bs) else none)))).map (fun x => x.2)

/-- Damaged slots, and slots whose copies disagree. -/
def scanDamaged (s : State) : Nat := ((List.range 2176).filter (fun k => resolveSlot s k == .damaged)).length
def scanDisagree (s : State) : Nat :=
  ((List.range 2176).filter (fun k => match resolveSlot s k with | .record _ _ d => d | _ => false)).length

/-- The next number after the scan (R271). -/
def scanNext (s : State) : Nat :=
  match ctrValue s ctrRecorder, scanTop s with
  | none, none => 1
  | v, t => (max (v.getD 0) (t.getD 0) + 2) % 2 ^ 32

/-- Records held during the scan take the numbers after AON_UP's, in the order in which they were captured. -/
def numberHeld (n : Nat) (s : State) : State :=
  let held := s.rcd.queue.length + s.rcd.ffl.toList.length
  s |> onRcd (fun x => { x with queue := x.queue.map (fun r => { r with seq := (n + 1 + r.seq) % 2 ^ 32 })
                                ffl := x.ffl.map (fun r => { r with seq := (n + 1 + r.seq) % 2 ^ 32 }) })
    |> fput F.REC_SEQ_SEQ 0 ((n + 1 + held) % 2 ^ 32)

/-- The scan ends: the write pointer, the numbers, and AON_UP ahead of the records held. -/
def scanEnd (s0 : State) : State :=
  if !aonOn s0 || !sbReady s0 || !scanning s0 then s0
  else
    let top := (scanTop s0).getD 0
    let dis := scanDisagree s0
    let n := scanNext s0
    let s := s0 |> ctrCheck ctrRecorder |> scanClear
    let perm := ((List.range 128).filter (fun k => resolveSlot s k != .blank)).length
    let dam := scanDamaged s
    let newest := highest (circRecords s)
    let s1 := s |> fput F.REC_STATUS_PERM 0 perm |> fput F.REC_COUNTS_DAMAGED 0 dam
      |> when (dam != 0) (fset F.REC_ERR_DAMAGED 0)
      |> fput F.REC_WP_SLOT 0 (match newest with | some x => nextCirc x.1 | none => 128)
      |> fput F.REC_NEWEST_SEQ 0 (match newest with | some x => x.2 | none => 0) |> refreshOldest
      |> fclr F.REC_STATUS_SCANNING 0
    let up := buildRcd s1 ⟨s1.gtc, srcRecorder, 0x01, 7, 0, some [(ctrValue s0 ctrRecorder).getD 0, top, dam, dis, perm,
        (viewWord s1 F.REC_STATUS_PERM.base).getD 0], none⟩ n
    s1 |> numberHeld n |> onRcd (fun x => { x with queue := up :: x.queue, lostSince := 0 })
       |> (fun s => fhigh F.REC_QUEUE_HWM 0 (min 32 s.rcd.queue.length) s) |> recScrub

def execRecorderScanComplete (s : State) : Host.Outcome State Fault Refusal := run scanEnd s

/-! ### Reading (R282 to R284, R350) -/

/-- One entry: status, EXPECT and the record. -/
def entryBytes (status expect : Nat) (bs : List Byte) : List Byte := leBytes 4 status ++ leBytes 4 expect ++ bs

/-- A record as it is returned: COPY_DISAGREE set where the copies differ (R268). -/
def returnBytes (bs : List Byte) (disagree : Bool) : List Byte := if disagree then withDisagree true bs else bs

/-- The entry of a slot; `expect` is none for Read Records. -/
def slotEntry (s : State) (slot : Nat) (expect : Option Nat) : List Byte :=
  match resolveSlot s slot with
  | .blank => entryBytes (32 + slot * 2 ^ 16) 0 (List.replicate 128 blankByte)
  | .damaged => entryBytes (4 + slot * 2 ^ 16) 0 (List.replicate 128 0)
  | .record bs fromB dis =>
    let ovw := match expect with | some e => decide (rcdSeq bs ≠ e) | none => false
    entryBytes (dis.toNat + 2 * fromB.toNat + 8 * ovw.toNat + slot * 2 ^ 16) (expect.getD 0) (returnBytes bs dis)

/-- The entry of a record of the ring. -/
def ringEntry (r : Rcd) : List Byte := entryBytes (16 + 0xFFF * 2 ^ 16) r.seq (rcdBytes r)

/-- The 16-byte header. NEWEST is the highest SEQ assigned. -/
def readHeader (s : State) (next count : Nat) : List Byte :=
  leBytes 4 (fget s F.REC_OLDEST_SEQ 0) ++ leBytes 4 (fget s F.REC_SEQ_SEQ 0 - 1) ++ leBytes 4 next ++ leBytes 4 count

/-- Entries that fit into a transport's payload (R283, R345). -/
def entryLimit (via : Transport) : Nat := if via = .mctp then 30 else 481

/-- Read Records. -/
def readRecords (via : Transport) (input : List Byte) (s : State) : State :=
  let first := leAt 0 2 input
  let count := leAt 2 2 input
  if entryLimit via < count then refuse via 0xC020 vsLength s
  else if 2176 < first + count || 2175 < first then refuse via 0xC020 vsBadArg s
  else succeed via 0xC020 (readHeader s (first + count) count
    ++ (List.range count).flatMap (fun i => slotEntry s (first + i) none)) s

def execReadRecords (via : Transport) (input : List Byte) (s : State) : Host.Outcome State Fault Refusal :=
  run (command via 0xC020 .any (len 4) input (readRecords via input)) s

/-- The circulating slots in write order: from the write pointer round. -/
def writeOrder (s : State) : List Nat :=
  let wp := fget s F.REC_WP_SLOT 0 - 128
  (List.range 2048).map (fun i => 128 + (wp + i) % 2048)

/-- The slots a Read Cursor returns: the records selected, and the damaged slots between the first and the last. -/
def cursorSlots (s : State) (sel : List Nat) : List Nat :=
  let ord := writeOrder s
  let from_ := ord.dropWhile (fun k => !sel.contains k)
  let span := (from_.reverse.dropWhile (fun k => !sel.contains k)).reverse
  span.filter (fun k => sel.contains k || resolveSlot s k == .damaged)

/-- Read Cursor. The model copies every slot at one instant, so no entry is OVERWRITTEN (log 30). Entries beyond the payload
limit are left off at the end. -/
def readCursor (via : Transport) (input : List Byte) (s : State) : State :=
  let cur := leAt 0 4 input
  let max_ := leAt 4 2 input
  if entryLimit via < max_ then refuse via 0xC021 vsLength s
  else
    let circ := (sortBy (fun a b => decide (a.2 ≤ b.2)) ((circRecords s).filter (fun x => decide (cur ≤ x.2)))).take max_
    let ring := (s.rcd.vring.filter (fun r => decide (cur ≤ r.seq))).take (max_ - circ.length)
    let slots := (cursorSlots s (circ.map (fun x => x.1))).take (entryLimit via - ring.length)
    let got := circ.map (fun x => x.2) ++ ring.map (fun r => r.seq)
    let next := match got with | [] => cur | _ => got.foldl max 0 + 1
    let body := slots.flatMap (fun k => slotEntry s k (slotSeq s k)) ++ ring.flatMap ringEntry
    succeed via 0xC021 (readHeader s next (slots.length + ring.length) ++ body) s

def execReadCursor (via : Transport) (input : List Byte) (s : State) : Host.Outcome State Fault Refusal :=
  run (command via 0xC021 .any (len 6) input (readCursor via input)) s

/-! ### Snapshot list commands (R273, R350, R351) -/

/-- Get Snapshot List. -/
def getSnapshotList (via : Transport) (input : List Byte) (s : State) : State :=
  let c := leAt 0 1 input
  if 7 < c || !rsvOk 1 3 input then refuse via 0xC022 vsBadArg s
  else succeed via 0xC022 ((listWords s c).flatMap (leBytes 4) ++ leBytes 2 (listId s c)) s

def execGetSnapshotList (via : Transport) (input : List Byte) (s : State) : Host.Outcome State Fault Refusal :=
  run (command via 0xC022 .hub (len 4) input (getSnapshotList via input)) s

/-- LIST_ID after a store. -/
def nextListId (s : State) (c : Nat) : Nat :=
  if listStored s c then (if 0xFFFE ≤ listId s c then 1 else listId s c + 1) else 1

/-- Set Snapshot List. -/
def setSnapshotList (via : Transport) (input : List Byte) (s : State) : State :=
  let c := leAt 0 1 input
  let es := wordsOf 26 (input.drop 4)
  let bad := es.any (fun e => e != 0xFFFFFFFF && decide (e / 2 ^ 28 ≠ 0))
  if 7 < c || !rsvOk 1 3 input || bad then refuse via 0xC024 vsBadArg s
  else if rangeProtected s (homeList c) 106 then s |> fset F.SBG_ERR_PROT_REFUSED 0 |> refuse via 0xC024 vsProtected
  else
    let id := nextListId s c
    s |> sbStore (homeList c) ((input.drop 4).take 104 ++ leBytes 2 id)
      |> finishStored via 0xC024 [homeList c / 256] [] (leBytes 2 id)

def execSetSnapshotList (via : Transport) (input : List Byte) (s : State) : Host.Outcome State Fault Refusal :=
  run (command via 0xC024 .working (len 108) input (setSnapshotList via input)) s

end Sys2Proof.Machine
end

