-- ==== Sys2Proof/Machine/Sbg.lean ====
section
/-! DEFINITION. The saddlebag's stores, refresh and supply (chapter 11), and the page reads of R351. -/
namespace Sys2Proof.Machine

/-! ### Which page a bank stores next (R299, R300) -/

/-- Bank of a page. -/
def pageBank (p : Nat) : Nat := p / 256

/-- Pages of the counters area and of the recorder partition go first. -/
def urgentPage (p : Nat) : Bool := decide (960 ≤ p) && decide (p < 3200)

/-- The pending pages of a bank: requested, or weak. -/
def pendingPages (s : State) (b : Nat) : List Nat :=
  (s.sbg.weak.foldl (fun t p => nsAdd p t) s.sbg.reqs).filter (fun p => pageBank p == b)

/-- The next of the other pages, cyclically after the last page stored. -/
def cyclicPage (last : Nat) (ps : List Nat) : Option Nat :=
  match ps.find? (fun p => decide (last < p)) with
  | some p => some p
  | none => ps.head?

/-- The page a bank stores next: autostore's in ascending order, then R299's. -/
def nextStore (s : State) (b : Nat) : Option Nat :=
  match (s.sbg.autoset.filter (fun p => pageBank p == b)).head? with
  | some p => some p
  | none =>
    let ps := pendingPages s b
    match ps.find? urgentPage with
    | some p => some p
    | none => cyclicPage (tabGet 0 s.sbg.lastPage b) ps

/-- The store running in a bank. -/
def runningStore (s : State) (b : Nat) : Option StoreRun := tabGet none s.sbg.running b

/-- May a store start in the bank: the supply is there, and its capacitor is charged (R297)? -/
def storeAllowed (s : State) (b : Nat) : Bool :=
  fon s F.SBG_STATUS_SUPPLY_OK 0 && fget s F.SBG_BANK_CAP_OK 0 / 2 ^ b % 2 == 1

/-- A bank starts a page store; one that the supply or the capacitor holds back is deferred (R297, R301). -/
def storeStart (b : Nat) (s : State) : State :=
  if !aonOn s || !sbReady s || (runningStore s b).isSome then s
  else match nextStore s b with
    | none => s
    | some p =>
      if storeAllowed s b then
        onSbg (fun g => { g with running := tabPut b (some ⟨p, 0, pageCells g.work p, nsHas p g.autoset⟩) g.running }) s
      else fset F.SBG_ERR_NO_SUPPLY 0 s

def execStoreStart (bank : Fin 16) (s : State) : Host.Outcome State Fault Refusal := run (storeStart bank.val) s

/-! ### What waits for a page (R150, R156, R302, R306) -/

/-- Journal entries that a recorded checkpoint's table holds may be cleared: entry `e` with those after it. -/
def journalHeld (body : List XEntry) : List XEntry → List XEntry
  | [] => []
  | e :: t =>
    let later := e :: t
    let done := later.any (fun x => x.region == e.region && x.slot == e.slot && body.contains x)
    if done then journalHeld body t else e :: journalHeld body t

/-- The recorded checkpoint is stored: the journal drops what its body holds (R156, R306). -/
def clearJournal (s : State) : State :=
  match ctrValue s ctrHubCkpt with
  | none => s
  | some v =>
    match s.med.ckpts.find? (fun x => x.2.sealed && x.2.seq % 2 ^ 24 == v % 2 ^ 24) with
    | none => s
    | some c =>
      let js := journalHeld c.2.body.xtab s.med.journal
      if js = s.med.journal || ctrUnstored s ctrHubCkpt then s else journalRewrite js s

/-- A pointer page is stored: gap moves whose pointers it holds are made (R150). -/
def gapsStored (p : Nat) (s : State) : State :=
  forEach (s.med.gaps.filter (fun x => 512 + x.1 / 16 == p && x.2.stage == .storing)) (fun x s =>
    if ptrUnstored s x.1 then s else gapStored x.1 s) s

/-- What a stored page lets go on. What waits for the page itself waits until nothing written to it is still unstored. -/
def afterStore (p : Nat) (s : State) : State :=
  s |> when (!pageDirty s p) (pageStored p true) |> ctrResume p
    |> when (p == 3264 && s.sbg.journalWait) journalWrite
    |> when (p == 960) clearJournal
    |> when (decide (512 ≤ p) && decide (p < 768)) (gapsStored p)
    |> when (decide (3200 ≤ p) && decide (p < 3264) && (match s.med.retire with | some t => t.storing | none => false))
        (fun s => if journalUnstored s then s else retireSwitch s)
    |> when (p == 4032) (reloadLater [(ctrProtect, 32)])
    |> clearProgress

/-! ### Store completion (R297, R298) -/

/-- A store that began on the supply and ends without it has drawn on the capacitor (R297). -/
def drawCap (b : Nat) (s : State) : State :=
  let c := fget s F.SBG_BANK_CAP_OK 0
  if fon s F.SBG_STATUS_SUPPLY_OK 0 || c / 2 ^ b % 2 = 0 then s else fput F.SBG_BANK_CAP_OK 0 (c - 2 ^ b) s

/-- The shadow takes the page as the store took it; a page changed since stays dirty. Autostore takes a page again that an earlier
store left dirty (R308). -/
def storeGood (b : Nat) (r : StoreRun) (s : State) : State :=
  let p := r.page
  let same := pageCells s.sbg.work p = r.image
  let weak := nsHas p s.sbg.weak
  s |> onSbg (fun g => { g with
        shadow := putPage p r.image g.shadow, written := nsAdd p g.written, ue := nsDel p g.ue
        running := tabDel b g.running, autoset := if same || r.auto then nsDel p g.autoset else g.autoset
        weak := nsDel p g.weak, lastPage := tabSet 0 b p g.lastPage
        since := if same then tabDel p g.since else tabPut p (s.gtc + 1) g.since
        reqs := if same then nsDel p g.reqs else g.reqs })
    |> finc F.SBG_STORES_COUNT 0
    |> when weak (fun s => s |> finc F.SBG_REFRESH_WEAK 0 |> fset F.SBG_ERR_REFRESH_FIX 0)
    |> drawCap b |> afterStore p

/-- The second failure: the page stays dirty, and its store is tried again after the lazy period. -/
def storeFails (b : Nat) (r : StoreRun) (s : State) : State :=
  let p := r.page
  let rec_ := decide (1024 ≤ p) && decide (p < 3200)
  s |> onSbg (fun g => { g with
        running := tabDel b g.running, autoset := nsDel p g.autoset, weak := nsDel p g.weak, reqs := nsDel p g.reqs
        since := tabPut p (s.gtc + 1) g.since })
    |> when (!rec_) (fun s => s |> fset F.SBG_ERR_STORE_FAIL 0 |> fput F.SBG_UE_PAGE_FAILPAGE 0 p |> fset F.SBG_UE_PAGE_FAIL_VALID 0)
    |> when (decide (p < 512)) (postOrQueue 2 1 5 0 7 srcSaddlebag)
    |> drawCap b |> pageStored p false

/-- A page store ends: it has verified, or it is repeated once. -/
def storeComplete (b : Nat) (ok : Bool) (s : State) : State :=
  match runningStore s b with
  | none => s
  | some r =>
    if ok then storeGood b r s
    else if r.fails = 0 then
      s |> fset F.SBG_ERR_STORE_RETRY 0 |> onSbg (fun g => { g with running := tabPut b (some { r with fails := 1 }) g.running })
    else storeFails b r s

def execSaddlebagStoreComplete (bank : Fin 16) (ok : Bool) (s : State) : Host.Outcome State Fault Refusal :=
  run (storeComplete bank.val ok) s

/-- A dirty page has been left for LAZY_MS: its store is requested (R296). -/
def lazyExpiry (p : Nat) (s : State) : State :=
  if aonOn s && sbReady s && pageDirty s p && !nsHas p s.sbg.reqs then
    s |> advanceTo (tabGet 0 s.sbg.since p - 1 + max 1 (fget s F.SBG_CFG_LAZY_MS 0) * 1000000) |> sbRequest p
  else s

def execLazyStoreExpiry (page : Fin 4096) (s : State) : Host.Outcome State Fault Refusal := run (lazyExpiry page.val) s

/-! ### Supply and capacitors (R297) -/

/-- A bank's capacitor has recharged. -/
def recharge (b : Nat) (s : State) : State :=
  let c := fget s F.SBG_BANK_CAP_OK 0
  if !aonOn s || c / 2 ^ b % 2 = 1 then s else fput F.SBG_BANK_CAP_OK 0 (c + 2 ^ b) s

def execCapacitorRecharge (bank : Fin 16) (s : State) : Host.Outcome State Fault Refusal := run (recharge bank.val) s

/-- The internal AON supply crosses 2.5 V. -/
def supplyThreshold (ok : Bool) (s : State) : State := if aonOn s then fbit F.SBG_STATUS_SUPPLY_OK 0 ok s else s

def execStoreSupplyThreshold (ok : Bool) (s : State) : Host.Outcome State Fault Refusal := run (supplyThreshold ok) s

/-! ### Refresh (R304) -/

/-- The modes in which a pass runs. -/
def refreshMode (s : State) : Bool :=
  aonOn s && s.mode != .freewheel && !(s.mode = .brake && !fon s F.HUB_MODE_HOLD 0)

/-- A pass starts; the recorder's scrub runs with it (R278). -/
def refreshStart (s : State) : State :=
  if refreshMode s && sbReady s && !fon s F.SBG_STATUS_REFRESH 0 then
    s |> advanceTo s.sbg.refreshDue |> fset F.SBG_STATUS_REFRESH 0 |> fclr F.SBG_REFRESH_WEAK 0
      |> onSbg (fun g => { g with refreshNext := [], weak := [], refreshDue := g.refreshDue + 86400000000000 })
      |> (fun s => if scanning s then s else recScrub s)
  else s

def execRefreshPassStart (s : State) : Host.Outcome State Fault Refusal := run refreshStart s

/-- The next page a bank reads: the next clean page. -/
def refreshPage (s : State) (b : Nat) : Option Nat :=
  ((List.range 256).find? (fun k => decide (tabGet 0 s.sbg.refreshNext b ≤ k) && !pageDirty s (256 * b + k))).map (256 * b + ·)

/-- Have all banks read their pages? -/
def refreshOver (s : State) : Bool := (List.range 16).all (fun b => (refreshPage s b).isNone)

/-- A margin read ends: a page that reads differently, or differs from its working copy, is weak. -/
def shadowRead (p : Nat) (differs : Bool) (s : State) : State :=
  let b := pageBank p
  if refreshMode s && fon s F.SBG_STATUS_REFRESH 0 && (runningStore s b).isNone && (nextStore s b).isNone && refreshPage s b = some p then
    let weak := differs || pageCells s.sbg.work p != pageCells s.sbg.shadow p
    let s1 := onSbg (fun g => { g with refreshNext := tabPut b (p % 256 + 1) g.refreshNext
                                       weak := if weak then nsAdd p g.weak else g.weak }) s
    if refreshOver s1 then s1 |> fclr F.SBG_STATUS_REFRESH 0 |> finc F.SBG_REFRESH_PASSES 0 else s1
  else s

def execShadowReadComplete (page : Fin 4096) (differs : Bool) (s : State) : Host.Outcome State Fault Refusal :=
  run (shadowRead page.val differs) s

/-! ### Page access (R294, R351) -/

/-- A refusal by protection is flagged (R303). -/
def refuseProt (via : Transport) (op : Nat) (s : State) : State := s |> fset F.SBG_ERR_PROT_REFUSED 0 |> refuse via op vsProtected

/-- Pages of the key area (R291). -/
def keyPage (p : Nat) : Bool := decide (4033 ≤ p) && decide (p < 4048)

/-- Is a page access well formed: one page, or consecutive whole pages, none beyond page 4,095? -/
def accessOk (page off n : Nat) : Bool :=
  decide (0 < n) && decide (page < 4096)
    && (decide (n ≤ 256) || (off == 0 && n % 256 == 0 && decide (page + n / 256 ≤ 4096)))

/-- The pages an access covers. -/
def accessPages (page n : Nat) : List Nat := (List.range (max 1 ((n + 255) / 256))).map (· + page)

/-- Read Pages. -/
def readPages (via : Transport) (input : List Byte) (s : State) : State :=
  let page := leAt 0 2 input
  let off := leAt 2 1 input
  let n := leAt 4 4 input
  if !accessOk page off n || !rsvOk 3 1 input || (accessPages page n).any keyPage then refuse via 0xC028 vsBadArg s
  else if payloadMax via < n then refuse via 0xC028 vsLength s
  else succeed via 0xC028 (if n ≤ 256 then sbReadWrap s page off n else sbBytes s (page * 256) n) s

def execReadPages (via : Transport) (input : List Byte) (s : State) : Host.Outcome State Fault Refusal :=
  run (command via 0xC028 .hub (len 8) input (readPages via input)) s

end Sys2Proof.Machine
end

