-- ==== Sys2Proof/Machine/Mcv.lean ====
section
/-! DEFINITION. The converters' commands (chapter 09): slots, triggers, conversions with their correction, filters,
limits, FIFO and ring, calibration, the junction temperature, and path diagnosis. -/
namespace Sys2Proof.Machine

/-! ### Filters (R255, R256) -/

/-- One running sum of the last `d` inputs: its stored inputs and its sum. -/
def filterStage (d x : Nat) (l : List Nat) : List Nat × Nat :=
  let l' := (x :: l).take d
  (l', l'.sum)

/-- The cascade of `k` running sums: the stages' inputs, and the last sum. -/
def filterRun (d : Nat) : Nat → Nat → List (List Nat) → List (List Nat) × Nat
  | 0, x, _ => ([], x)
  | k + 1, x, stages =>
    let st := filterStage d x (stages.headD [])
    let rest := filterRun d k st.2 stages.tail
    (st.1 :: rest.1, rest.2)

/-- FILT from the last stage's sum (R255). -/
def filtOf (order len sum : Nat) : Nat := 16 * sum / len ^ order

/-- A sample enters an input's filter: FILT and SETTLED. -/
def feedFilter (k raw : Nat) (s : State) : State :=
  let f := tabGet filterReset s.mcv.filters k
  let r := filterRun f.len f.order raw f.stages
  s |> onMcv (fun m => { m with filters := tabSet filterReset k ⟨f.order, f.len, r.1, f.samples + 1⟩ m.filters })
    |> fput F.MCV_INk_VAL_FILT k (filtOf f.order f.len r.2)
    |> fbit F.MCV_INk_VAL_SETTLED k (decide (f.order * f.len ≤ f.samples + 1))

/-- A skipped slot feeds its input's last RAW again (R250). -/
def skipSlot (n ch : Nat) (s : State) : State :=
  s |> countSkip n
    |> (match ainOf n ch with | some k => fun s => feedFilter k (fget s F.MCV_INk_VAL_RAW k) s | none => id)

/-! ### Slots (R244, R250) -/

/-- A displaced slot: it starts as soon as the converter is free, and is skipped once it cannot end by the next slot's
due boundary. -/
def resolveLate (n : Nat) (s : State) : State :=
  let c := conv s n
  match c.late with
  | none => s
  | some (ch, by_) =>
    let free := match c.run with | some r => r.start + convTicks r.lp | none => tickOf s
    if by_ < free + convTicks c.lp then s |> onConv n (fun c => { c with late := none }) |> skipSlot n ch
    else if c.run.isNone && c.on && (diagOn s n).isNone then s |> onConv n (fun c => { c with late := none }) |> startConv n ch .scheduled
    else s

/-- The converter is free: other work goes first, then a displaced slot. -/
def goOn (n : Nat) (s : State) : State := s |> startNext n |> resolveLate n

/-- Slots run once no automatic calibration precedes the schedule (R253); a calibration on command displaces slots instead. -/
def slotsRun (s : State) (n : Nat) : Bool := (conv s n).on && !((conv s n).calibrating && (conv s n).calAuto)

/-- A slot falls due (R244, R245, R250). -/
def slotDue (n : Nat) (s0 : State) : State :=
  if !slotsRun s0 n || ((conv s0 n).slot = 0 && !schedOn s0 n) then s0
  else
    let s1 := s0 |> advanceTo ((conv s0 n).nextDue * 250) |> when ((conv s0 n).slot == 0) (takeSchedule n)
    let c := conv s1 n
    let ch := c.effSlots.getD c.slot 16
    let sp := if c.lp then c.effLp else c.effSp
    let s2 := match c.late with
      | some (x, _) => s1 |> onConv n (fun c => { c with late := none }) |> skipSlot n x
      | none => s1
    s2 |> onConv n (fun c => { c with
            slot := if c.slot + 1 < c.effSlots.length then c.slot + 1 else 0, nextDue := c.nextDue + sp
            late := if ch = 16 then none else some (ch, c.nextDue + sp) })
       |> goOn n

def execSlotDue (n : Conv) (s : State) : Host.Outcome State Fault Refusal := run (slotDue n.val) s

/-- Source 3: a trigger at every boundary where the GTC is a multiple of 250 × PERIOD (R249). -/
def triggerPeriod (n : Nat) (s : State) : State :=
  let p := max 1 (eget s n F.MCVn_TRIG_PERIOD n)
  if n != 0 && eget s n F.MCVn_TRIG_SRC n == 3 then
    s |> advanceTo ((tickOf s + p - 1) / p * p * 250) |> trigger n |> goOn n
  else s

def execTriggerPeriodExpiry (n : Conv) (s : State) : Host.Outcome State Fault Refusal := run (triggerPeriod n.val) s

/-- An injected request (R247, R248); with the AON domain unpowered there is no converter to take it. -/
def execInjectedRequest (n : Conv) (ch : Fin 16) (s : State) : Host.Outcome State Fault Refusal :=
  run (fun s => if aonOn s then inject n.val ch.val s else s) s

/-! ### Correction (R252) -/

/-- A field's value as a two's complement number of `w` bits. -/
def signedOf (w v : Nat) : Int := if v < 2 ^ (w - 1) then (v : Int) else (v : Int) - 2 ^ w

/-- RAW before the clamp: (u − OFFSET) × GAIN rounded to the nearest, halves upward (DEDUCED, log 33). -/
def corrected (offset : Int) (gain u : Nat) : Int := ((16 * (u : Int) - offset) * gain + 262144) / 524288

/-- RAW, and whether it had to be clamped. -/
def rawOf (offset : Int) (gain u : Nat) : Nat × Bool :=
  let x := corrected offset gain u
  if x < 0 then (0, true) else if 4095 < x then (4095, true) else (x.toNat, false)

/-- RAW of a converter's code. -/
def convRaw (s : State) (n u : Nat) : Nat × Bool :=
  rawOf (signedOf 12 (fget s F.MCVn_CAL_OFFSET n)) (fget s F.MCVn_CAL_GAIN n) u

/-! ### Calibration (R251 to R254) -/

/-- Is the calibration accepted: |OFFSET| ≤ 32 codes and 0.97 ≤ GAIN ≤ 1.03? `lo` and `hi` are the sums of 32 codes. -/
def calAccepts (lo hi : Nat) : Bool :=
  let d : Int := (hi : Int) - lo
  decide (0 < d ∧ (7 * (lo : Int) - d).natAbs ≤ 7168 ∧ 970 * d ≤ 91750400 ∧ 91750400 ≤ 1030 * d)

/-- OFFSET in sixteenths of a code and GAIN with 0x8000 = 1.0, as quotients to be rounded. -/
def calOffset (lo hi : Nat) : Int × Nat := (7 * (lo : Int) - ((hi : Int) - lo), 14)
def calGain (lo hi : Nat) : Nat × Nat := (30064771072, 10 * (hi - lo))

/-- The coefficients are loaded. How they are rounded the manual does not say: each is its quotient rounded down, plus a
free bit where the quotient is no whole number (log 6). -/
def loadCal (n lo hi : Nat) (s : State) : State :=
  let o := calOffset lo hi
  let g := calGain lo hi
  let ob : Int := if o.1 % o.2 = 0 then 0 else ((freeValue s % 2 : Nat) : Int)
  let gb := if g.1 % g.2 = 0 then 0 else freeValue (useFree s) % 2
  s |> useFree |> useFree |> fput F.MCVn_CAL_OFFSET n ((o.1 / o.2 + ob) % 4096).toNat |> fput F.MCVn_CAL_GAIN n (g.1 / g.2 + gb)

/-- MCVn_CAL as it reads once the calibration has ended. -/
def calWord (s : State) (n : Nat) : Nat := fget s F.MCVn_CAL_OFFSET n + fget s F.MCVn_CAL_GAIN n * 2 ^ 12

/-- The calibration ends: an automatic one is followed by the schedule, a commanded one answers (R353). -/
def calEnd (n : Nat) (accepted_ : Bool) (s : State) : State :=
  let c := conv s n
  s |> onConv n (fun c => { c with
        calibrating := false, calAbort := false, calVia := none
        slot := if c.calAuto then 0 else c.slot, nextDue := if c.calAuto then tickOf s else c.nextDue })
    |> (match c.calVia with
        | some via => fun s => succeed via 0xC033 (leBytes 4 accepted_.toNat ++ leBytes 4 (calWord s n)) s
        | none => id)

/-- All 64 conversions are done: the result is accepted and loaded, or rejected (R251). -/
def calJudge (n : Nat) (s : State) : State :=
  let c := conv s n
  if calAccepts c.calLo c.calHi then s |> loadCal n c.calLo c.calHi |> calEnd n true
  else s |> fset F.MCV_ERR_CAL_FAIL 0 |> land 0x07 2 (srcConv n) 0 none |> calEnd n false

/-- A calibration that a trip stopped ends at the conversion boundary (R254). -/
def calStopped (n : Nat) (s : State) : State :=
  if (conv s n).calibrating && (conv s n).calAbort then s |> fset F.MCV_ERR_CAL_ABORTED 0 |> calEnd n false else s

/-- One calibration conversion: 0.125 V and 1.000 V in turn. -/
def calSample (n u : Nat) (s : State) : State :=
  let s1 := onConv n (fun c =>
    if c.calCount % 2 = 0 then { c with calCount := c.calCount + 1, calLo := c.calLo + u }
    else { c with calCount := c.calCount + 1, calHi := c.calHi + u }) s
  if (conv s1 n).calAbort || (conv s1 n).calCount < 64 then s1 else calJudge n s1

/-- Is a calibration on command refused (R253)? -/
def calRefused (s : State) (n : Nat) : Bool :=
  s.mode != .maintenance || (conv s n).calibrating || (n == 0 && fon s F.LDG_STATUS_CAP_TEST 0)

/-- A calibration by the register (R253). -/
def calibrate (n : Nat) (s : State) : State := if calRefused s n then s else startCal n none false s

def execCalibrationStart (n : Conv) (s : State) : Host.Outcome State Fault Refusal := run (calibrate n.val) s

/-! ### Path diagnosis (R261, R262) -/

/-- The diagnosis of a pair, while it runs. -/
def diagOf (s : State) (p : Nat) : Option Diag := tabGet none s.mcv.diag p

def setDiag (p : Nat) (d : Option Diag) (s : State) : State := onMcv (fun m => { m with diag := tabSet none p d m.diag }) s

/-- Is a diagnosis of input `k` refused? -/
def diagRefused (s : State) (k : Nat) : Bool :=
  decide (96 ≤ k) || s.mode = .off || s.mode = .freewheel || s.mode = .brake || (diagOf s ((convOf k).1 / 2)).isSome
    || (decide (k < 32) && chanOn s k) || (decide ((convOf k).1 < 2) && fon s F.LDG_STATUS_CAP_TEST 0)

/-- MCV_DIAG_RES as a word. -/
def diagWord (s : State) : Nat :=
  packFlds s [F.MCV_DIAG_RES_SPAN, F.MCV_DIAG_RES_RESULT, F.MCV_DIAG_RES_INPUT, F.MCV_DIAG_RES_DONE] 0

/-- A diagnosis ends with its result; one other than PASS sets DIAG_FAULT and writes a record; a command that waited is
answered (R261, R353). -/
def diagEnd (p : Nat) (d : Diag) (span result : Nat) (s : State) : State :=
  s |> setDiag p none
    |> fput F.MCV_DIAG_RES_SPAN 0 span |> fput F.MCV_DIAG_RES_RESULT 0 result |> fput F.MCV_DIAG_RES_INPUT 0 d.input
    |> fset F.MCV_DIAG_RES_DONE 0
    |> when (result != 0) (fun s => s |> fset F.MCV_ERR_DIAG_FAULT 0 |> land 0x07 2 (srcAin d.input) 0 none)
    |> when (d.input < 32) (onSeq (fun q => { q with ovMask := tabSet 0 d.input (tickOf s + 4) q.ovMask }))
    |> (match d.via with | some via => fun s => succeed via 0xC034 (leBytes 4 (diagWord s)) s | none => id)

/-- The class of the four results (R261): 4 GAIN, 1 OPEN, 2 SHORT, 3 RANGE, 0 PASS. -/
def diagClass (g0 g1 : Nat) (span : Int) (spanMin spanMax : Nat) : Nat :=
  if g0 < 1012 || 1036 < g0 || g1 < 3060 || 3084 < g1 then 4
  else if 3900 ≤ span then 1
  else if span < 16 * (spanMin : Int) then 2
  else if 16 * (spanMax : Int) < span then 3
  else 0

/-- A conversion of a diagnosis has ended: it is kept, and after the fourth the span is classified. The rail sense's OV
comparator is masked once the DAC goes onto the pin (R262). -/
def diagSample (n raw : Nat) (s : State) : State :=
  match diagOn s n with
  | none => s
  | some d =>
    let got := d.got ++ [raw]
    let d' := { d with got := got, readyAt := tickOf s + 1 }
    match got with
    | [a, b, c, e] =>
      let span : Int := (c : Int) - e
      diagEnd (n / 2) d' (span % 4096).toNat
        (diagClass a b span (eget s n F.MCV_INk_CFG_SPAN_MIN d.input) (eget s n F.MCV_INk_CFG_SPAN_MAX d.input)) s
    | _ =>
      s |> setDiag (n / 2) (some d')
        |> when (got.length == 2 && decide (d.input < 32)) (onSeq (fun q => { q with ovMask := tabSet 0 d.input (2 ^ 64) q.ovMask }))

/-- A diagnosis that a trip stopped ends at the conversion boundary with RESULT 6. -/
def diagStopped (n : Nat) (s : State) : State :=
  match diagOn s n with
  | some d => if d.stop then diagEnd (n / 2) d 0 6 s else s
  | none => s

/-- A diagnosis starts (R261): its first idle tick begins as soon as the converter is free at a boundary. -/
def diagStart (k : Nat) (via : Option Transport) (s : State) : State :=
  s |> setDiag ((convOf k).1 / 2) (some ⟨k, [], 0, via, false⟩)
    |> fput F.MCV_DIAG_INPUT 0 k |> fput F.MCV_DIAG_RES_INPUT 0 k |> fclr F.MCV_DIAG_RES_DONE 0

/-- A diagnosis by the register; a refusal shows as RESULT 5 (R262, R264). -/
def diagnose (k : Nat) (s : State) : State :=
  if !aonOn s then s
  else if diagRefused s k then
    s |> fput F.MCV_DIAG_INPUT 0 k |> fput F.MCV_DIAG_RES_INPUT 0 k |> fput F.MCV_DIAG_RES_SPAN 0 0
      |> fput F.MCV_DIAG_RES_RESULT 0 5 |> fset F.MCV_DIAG_RES_DONE 0
  else diagStart k none s

def execDiagnosisStart (input : BitVec 7) (s : State) : Host.Outcome State Fault Refusal := run (diagnose input.toNat) s

/-! ### Limits (R257, R258) -/

/-- A crossing acts by LIM_ACT; the temperature event follows a crossing of HI only (R257). -/
def limitCross (n k : Nat) (hi : Bool) (s : State) : State :=
  let act := eget s n F.MCV_INk_CFG_LIM_ACT k
  s |> fset (if hi then F.MCV_INk_VAL_LIM_HI else F.MCV_INk_VAL_LIM_LO) k |> fset F.MCV_ERR_LIMIT 0
    |> when (decide (1 ≤ act)) (land 0x07 2 (srcAin k) 0 none)
    |> when (decide (2 ≤ act)) (onMcv (fun m => { m with limAlert := true }))
    |> when (act == 3 && hi) (postOrQueue 1 1 3 0 2 (srcAin k))

/-- The upper limit: crossed at or above HI, returned below HI − HYST. -/
def limitHi (n k v : Nat) (s : State) : State :=
  let hi := eget s n F.MCV_INk_LIM_HI k
  if fon s F.MCV_INk_VAL_LIM_HI k then
    if v + eget s n F.MCV_INk_LIM_HYST k < hi then fclr F.MCV_INk_VAL_LIM_HI k s else s
  else if hi ≤ v then limitCross n k true s else s

/-- The lower limit: crossed below LO, returned at or above LO + HYST (DEDUCED from LIM_LO's meaning, log 34). -/
def limitLo (n k v : Nat) (s : State) : State :=
  let lo := eget s n F.MCV_INk_LIM_LO k
  if fon s F.MCV_INk_VAL_LIM_LO k then
    if lo + eget s n F.MCV_INk_LIM_HYST k ≤ v then fclr F.MCV_INk_VAL_LIM_LO k s else s
  else if v < lo then limitCross n k false s else s

/-- The limits of an input at a result, once its filter has settled. -/
def checkLimits (n k : Nat) (s : State) : State :=
  if fon s F.MCV_INk_VAL_SETTLED k && eget s n F.MCV_INk_CFG_LIM_EN k != 0 then
    let v := fget s F.MCV_INk_VAL_FILT k / 16
    s |> limitHi n k v |> limitLo n k v
  else s

/-- ⌊25 + (code − 1,638) ÷ 8⌋ in two's complement of eight bits (R241). -/
def degC (code : Nat) : Nat := ((((code : Int) - 1438) / 8) % 256).toNat

/-- The warning limit of the junction temperature (R258). -/
def tjWarn (code : Nat) (s : State) : State :=
  let warn := eget s 1 F.MCV_TJ_LIM_WARN 0
  if warn ≤ code then
    if s.mcv.tjArmed then
      s |> onMcv (fun m => { m with tjArmed := false }) |> fset F.MCV_ERR_TJ_WARN 0 |> postOrQueue 1 1 3 0 2 (srcConv 1)
    else s
  else s |> when (decide (code + 16 < warn)) (onMcv (fun m => { m with tjArmed := true }))
         |> onLife (fun l => { l with hot := false })

/-- Two results in a row at or above SHUT latch BRAKE in the modes with rails; in STANDBY and in the hold they write a record and
hold off the debounce (R258). -/
def tjShut (code : Nat) (s : State) : State :=
  if eget s 1 F.MCV_TJ_LIM_SHUT 0 ≤ code then
    let n := s.mcv.tjRun + 1
    let s1 := onMcv (fun m => { m with tjRun := n }) s
    if n < 2 then s1
    else match s.mode with
    | .ramp => latchBrake 6 (srcConv 1) s1
    | .recover => latchBrake 6 (srcConv 1) s1
    | .service => latchBrake 6 (srcConv 1) s1
    | .maintenance => latchBrake 6 (srcConv 1) s1
    | .freewheel => s1
    | _ =>
      if s.mode = .brake && !fon s F.HUB_MODE_HOLD 0 then s1
      else s1 |> when (n == 2) (land 0x07 2 (srcConv 1) 0 none) |> onLife (fun l => { l with hot := true })
  else onMcv (fun m => { m with tjRun := 0 }) s

/-- A result of MC1's junction temperature. -/
def tjResult (code : Nat) (s : State) : State :=
  s |> fput F.MCV_TJ_CODE 0 code |> fput F.MCV_TJ_DEG_C 0 (degC code) |> tjWarn code |> tjShut code

/-! ### Results (R259, R260) -/

/-- KIND of a result entry. -/
def kindOf : ConvWork → Nat
  | .scheduled => 0
  | .injected => 1
  | .triggered => 2
  | _ => 0

/-- The entry of a result whose VAL is up to date. -/
def resultEntry (s : State) (n : Nat) (r : ConvRun) (raw : Nat) (clamp : Bool) : Result :=
  let f := match ainOf n r.ch with
    | some k => (fget s F.MCV_INk_VAL_FILT k, fget s F.MCV_INk_VAL_SETTLED k)
    | none => (16 * raw, 1)
  ⟨raw + kindOf r.work * 2 ^ 12 + f.2 * 2 ^ 14 + clamp.toNat * 2 ^ 15 + f.1 * 2 ^ 16,
   tagOf n r.ch + r.lp.toNat * 2 ^ 7 + (conv s n).dropped.toNat * 2 ^ 8 + n * 2 ^ 9, r.start * 250 % 2 ^ 32⟩

/-- An entry goes into the converter's FIFO, unless it is full. -/
def pushFifo (n : Nat) (e : Result) (s : State) : State :=
  let q := tabGet [] s.mcv.fifo n
  if q.length < 32 then onMcv (fun m => { m with fifo := tabSet [] n (q ++ [e]) m.fifo }) s
  else s |> finc F.MCVn_FSTAT_OVF n |> fset F.MCV_ERR_FIFO_OVF 0

/-- An entry goes into the ring and overwrites the oldest. -/
def pushRing (e : Result) (s : State) : State :=
  let wp := fget s F.MCV_RING_WP_WP 0
  s |> onMcv (fun m => { m with ring := tabSet ringReset wp e m.ring })
    |> fput F.MCV_RING_WP_WP 0 (wp + 1) |> when (wp == 255) (finc F.MCV_RING_WP_WRAPS 0)

/-- Does a result of the channel enter the FIFO, and the ring? -/
def entersFifo (s : State) (n ch : Nat) : Bool :=
  match ainOf n ch with
  | some k => eget s n F.MCV_INk_CFG_FIFO_EN k != 0
  | none => eget s n F.MCVn_CFG_INT_FIFO n != 0
def entersRing (s : State) (n ch : Nat) : Bool :=
  match ainOf n ch with
  | some k => eget s n F.MCV_INk_CFG_RING_EN k != 0
  | none => eget s n F.MCVn_CFG_INT_FIFO n != 0

/-- A result's path: VAL, filter and limits; FIFO and ring, whose entry is the one that shows a dropped trigger (R249, R260,
log 40); the ledger and the junction temperature. -/
def convResult (n : Nat) (r : ConvRun) (raw : Nat) (clamp : Bool) (s : State) : State :=
  let s1 := match ainOf n r.ch with
    | some k => s |> when (!schedOn s n) (newFilter k) |> fput F.MCV_INk_VAL_RAW k raw |> feedFilter k raw |> checkLimits n k
    | none => s
  let e := resultEntry s1 n r raw clamp
  let entered := entersRing s1 n r.ch || (entersFifo s1 n r.ch && decide ((tabGet [] s1.mcv.fifo n).length < 32))
  s1 |> when entered (onConv n (fun c => { c with dropped := false }))
     |> when (entersFifo s1 n r.ch) (pushFifo n e) |> when (entersRing s1 n r.ch) (pushRing e)
     |> when (n == 0 && r.ch == 0) (capResult raw) |> when (n == 1 && r.ch == 13) (tjResult raw)

/-- A conversion completes (R242): its code goes where the conversion was meant for, its end may trigger other
converters, and the converter goes on. -/
def convComplete (n u : Nat) (s0 : State) : State :=
  match (conv s0 n).run with
  | none => s0
  | some r =>
    let s := s0 |> advanceTo ((r.start + convTicks r.lp) * 250)
      |> onConv n (fun c => { c with run := none, lastInj := if r.work = .injected then some (r.start + convTicks r.lp) else c.lastInj })
    let x := convRaw s n u
    let s1 := match r.work with
      | .calibration => calSample n u s
      | .diagnosis => diagSample n x.1 s
      | _ => convResult n r x.1 x.2 s
    s1 |> calStopped n |> diagStopped n |> hwTrigger 4 n true |> applyPower n |> goOn n

def execConversionComplete (n : Conv) (u : BitVec 12) (s : State) : Host.Outcome State Fault Refusal :=
  run (convComplete n.val u.toNat) s

/-! ### Reading the FIFO (R260) -/

/-- The read of MCVn_FIFO2 removes the oldest entry. -/
def fifoPop (n : Nat) (s : State) : State :=
  onMcv (fun m => { m with fifo := tabSet [] n (tabGet [] s.mcv.fifo n).tail m.fifo }) s

def execFifoRead (n : Conv) (s : State) : Host.Outcome State Fault Refusal := run (fifoPop n.val) s

/-! ### The boundary's part (R242, R243, R254) -/

/-- At a tick boundary a converter that stands still takes its mode's power, ends what a trip stopped, and starts what
waits. -/
def convTick (n : Nat) (s : State) : State :=
  if (conv s n).run.isSome then s
  else
    s |> applyPower n |> calStopped n |> diagStopped n |> goOn n
      |> when (!schedOn s n && (conv s n).slot == 0) (onConv n (fun c => { c with nextDue := tickOf s + 1 }))

end Sys2Proof.Machine
end

