-- ==== Sys2Proof/Machine/Pel.lean ====
section
/-! DEFINITION. The sync ring (R310 to R317, R329): frames received, forwarded and sent, the time master and its epochs,
presence, and records for and from a partner. The tandem's part of a PRESENT frame is the tandem's own. -/
namespace Sys2Proof.Machine

/-! ### Receiving and forwarding (R310, R311) -/

/-- The device's number in the peloton. -/
def devid (s : State) : Nat := fget s F.PEL_STATUS_DEVID 0

/-- Is the ring used? -/
def ringUsed (s : State) : Bool := aonOn s && fon s F.PEL_CFG_EN 0

/-- A frame of another device leaves again, unless it has crossed 15 links: HOPS goes up by one, and DELAY by the measured
forwarding latency and IN_DELAY. The latency is 32.0 ns ± 0.1 ns, measured within ± 0.03 ns: 510 to 514 sixteenths, a free
value in that range (log 6). -/
def forwardFrame (type : Nat) (f : RingFrame) (s : State) : State :=
  if f.origin.val = devid s || f.hops.val = 15 then s
  else
    s |> emit (.ring type (withCrc type
          { f with hops := Fin.ofNat 16 (f.hops.val + 1)
                   delay := f.delay + BitVec.ofNat 16 (510 + freeValue s % 5 + fget s F.PEL_CFG_IN_DELAY 0) }))
      |> useFree

/-- A frame arrives: a bad CRC drops it, a good one is forwarded and then taken. -/
def onFrame (type : Nat) (f : RingFrame) (k : State → State) (s : State) : State :=
  if !ringUsed s then s
  else if f.crc ≠ frameCrc type f then s |> finc F.PEL_CRC_COUNT_COUNT 0 |> fset F.PEL_ERR_CRC 0
  else s |> forwardFrame type f |> k

/-- A PELOTON record of the ring (R269, R315). -/
def ringRecord (s : State) : State := land 0x0D 6 srcRing 0 none s

/-! ### Masters (R312 to R315) -/

/-- The masters heard in the 16 µs up to now: number and what was heard, in ascending order. -/
def mastersNow (s : State) : List (Nat × Heard) := s.pel.masters.filter (fun x => decide (s.gtc ≤ x.2.stamp + 16000))

def isMaster (s : State) : Bool := fon s F.PEL_STATUS_IS_MASTER 0

/-- Take a master's number and its EPOCH, which a device that has not yet been aligned does not stamp (R314); a change of
either writes a record. -/
def takeMaster (m epoch hops : Nat) (s : State) : State :=
  let e := if m == devid s || s.pel.alignedOnce then epoch else fget s F.PEL_STATUS_EPOCH 0
  let changed := fget s F.PEL_STATUS_MASTER 0 != m || fget s F.PEL_STATUS_EPOCH 0 != e || isMaster s != (m == devid s)
  s |> fput F.PEL_STATUS_MASTER 0 m |> fput F.PEL_STATUS_EPOCH 0 e |> fput F.PEL_STATUS_HOPS 0 hops
    |> fbit F.PEL_STATUS_IS_MASTER 0 (m == devid s)
    |> when changed ringRecord

/-- The device becomes a master with an EPOCH: it is its own reference. -/
def beMaster (epoch : Nat) (s : State) : State :=
  s |> takeMaster (devid s) epoch 0 |> fset F.PEL_STATUS_ALIGNED 0 |> fclr F.PEL_STATUS_SLEWING 0
    |> onPel (fun p => { p with slew := 0, alignedOnce := true, ownReturn := s.gtc, lastSend := s.gtc, slotTicks := 0 })

/-- A new time base (R314): count × 16 + DEVID; the count is stored. -/
def newBase (count : Nat) (s : State) : State :=
  s |> ctrUpdate ctrTimeBase count |> beMaster (count * 16 + devid s)

/-- The count after one that is stored or heard: 0 to 14, wrapping. -/
def nextCount (c : Nat) : Nat := (c + 1) % 15

/-- May the device become a master at all: no lower-numbered master is heard, and it shares its DEVID with none. -/
def mayClaim (s : State) : Bool := !s.pel.dup && !(mastersNow s).any (fun x => decide (x.1 < devid s))

/-- A lower-numbered device that is aligned to the ring's time takes over and keeps its EPOCH (R313, R314). -/
def takeOver (s : State) : State :=
  if !isMaster s && !s.pel.claimOpen && mayClaim s && fon s F.PEL_STATUS_ALIGNED 0 && !(mastersNow s).isEmpty then
    beMaster (fget s F.PEL_STATUS_EPOCH 0) s
  else s

/-- More than one EPOCH is heard among TIME frames, the device's own counted when it is a master (R315). -/
def epochsDiffer (s : State) (epoch : Nat) : Bool :=
  (mastersNow s).any (fun x => x.2.epoch != epoch) || (isMaster s && fget s F.PEL_STATUS_EPOCH 0 != epoch)

/-- SPLIT is set, with a record when it was not. -/
def setSplit (s : State) : State :=
  if fon s F.PEL_STATUS_SPLIT 0 then s else s |> fset F.PEL_STATUS_SPLIT 0 |> ringRecord

/-- A number of sixteenths in whole nanoseconds: 0 within half a nanosecond, else rounded. -/
def nearest16 (x : Int) : Int := if x.natAbs ≤ 8 then 0 else (x + 8) / 16

/-- The first alignment since AON power-up: the device joins the time base of the master it follows (R314). -/
def joinBase (s : State) : State :=
  let m := fget s F.PEL_STATUS_MASTER 0
  s |> onPel (fun p => { p with alignedOnce := true })
    |> forEach (s.pel.masters.filter (fun x => x.1 == m)) (fun x => takeMaster m x.2.epoch (fget s F.PEL_STATUS_HOPS 0))

/-- The GTC is corrected toward the master's time (R312): in STANDBY and before the first alignment it steps forward, else
it slews. Within half a nanosecond the device is aligned, unless it shares its DEVID. -/
def correct (off16 : Int) (s : State) : State :=
  let off := nearest16 off16
  let steps := (s.mode = .standby || !s.pel.alignedOnce) && decide (0 < off)
  let left : Int := if steps then 0 else off
  let ok := left = 0 && !s.pel.dup
  { s with gtc := if steps then (s.gtc + off.toNat) % 2 ^ 64 else s.gtc }
    |> onPel (fun p => { p with slew := left })
    |> fbit F.PEL_STATUS_SLEWING 0 (left != 0) |> fbit F.PEL_STATUS_ALIGNED 0 ok |> when (ok && !s.pel.alignedOnce) joinBase

/-- One nanosecond of slew in every fourth tick (R312). -/
def slewStep (s : State) : State :=
  if s.pel.slew = 0 || tickOf s % 4 != 0 then s
  else
    let left := if 0 < s.pel.slew then s.pel.slew - 1 else s.pel.slew + 1
    let ok := left = 0 && !s.pel.dup
    s |> onPel (fun p => { p with slew := left })
      |> when (left == 0) (fclr F.PEL_STATUS_SLEWING 0) |> when ok (fset F.PEL_STATUS_ALIGNED 0)
      |> when (ok && !s.pel.alignedOnce) joinBase |> when ok takeOver

/-- SLOT_TICKS of the master followed, as its PRESENT frame gives it, and the check against the stored one (R316). -/
def slotCheck (s : State) : State :=
  let m := fget s F.PEL_STATUS_MASTER 0
  match (s.pel.present.filter (fun x => x.1 == m)).head? with
  | some (_, p) =>
    let n := p.payload.toNat / 2 ^ 28 % 16
    if isMaster s then onPel (fun p => { p with slotTicks := 0 }) s
    else s |> onPel (fun p => { p with slotTicks := n })
           |> when (n != fget s F.SEQ_INRUSH_SLOT_TICKS 0) (fset F.PEL_ERR_SLOT_MISMATCH 0)
  | none => onPel (fun p => { p with slotTicks := 0 }) s

/-- The return of the device's own TIME frame: the round trip is compared with the declared delays, in sixteenths of a
nanosecond; more than 2 ns apart sets DELAY_CHECK (R313). -/
def ownReturned (f : RingFrame) (s : State) : State :=
  if !isMaster s then s
  else
    let measured := (s.gtc - f.payload.toNat) * 16
    let declared := f.delay.toNat + fget s F.PEL_CFG_IN_DELAY 0
    s |> onPel (fun p => { p with ownReturn := s.gtc })
      |> fput F.PEL_RTT_MEASURED 0 (min measured 65535) |> fput F.PEL_RTT_DECLARED 0 (min declared 65535)
      |> when (decide (declared + 32 < measured) || decide (measured + 32 < declared)) (fset F.PEL_ERR_DELAY_CHECK 0)

/-- A TIME frame of another master: it is heard; the lowest master is followed; a master that hears a lower one yields to
it (R312, R313, R315). -/
def timeHeard (f : RingFrame) (s0 : State) : State :=
  let o := f.origin.val
  let split := epochsDiffer s0 f.epoch.toNat
  let s := s0 |> onPel (fun p => { p with masters := tabPut o ⟨s0.gtc, f.epoch.toNat⟩ p.masters
                                          otherEpochAt := if split then s0.gtc else p.otherEpochAt })
    |> when split setSplit
  let low := match mastersNow s with | (m, _) :: _ => m | [] => o
  if o != low || (isMaster s && decide (devid s < o)) then s
  else
    s |> takeMaster o f.epoch.toNat (f.hops.val + 1) |> slotCheck
      |> correct ((f.payload.toNat * 16 + f.delay.toNat + fget s F.PEL_CFG_IN_DELAY 0 : Nat) - (s0.gtc * 16 : Nat)) |> takeOver

/-- A TIME frame arrives at stamp `t`. -/
def timeFrame (f : RingFrame) (t : Nat) (s : State) : State :=
  onFrame 1 f (fun s => let s1 := advanceTo t s
                        if f.origin.val = devid s then ownReturned f s1 else timeHeard f s1) s

def execTimeFrame (f : RingFrame) (t : Nat) (s : State) : Host.Outcome State Fault Refusal := run (timeFrame f t) s

/-- A master sends a TIME frame once every 16 ticks (R310). -/
def timeSend (s : State) : State :=
  if ringUsed s && isMaster s then
    let s1 := advanceTo ((s.pel.lastSend / 250 + 16) * 250) s
    s1 |> onPel (fun p => { p with lastSend := s1.gtc }) |> ringOut 1 s1.gtc
  else s

def execTimeFrameSend (s : State) : Host.Outcome State Fault Refusal := run timeSend s

/-- No TIME frame of the master followed for 16 µs (R313 to R315): the lowest master still heard is followed, else the
device forms a new time base with that master's count plus 1. -/
def masterLoss (s0 : State) : State :=
  let m := fget s0 F.PEL_STATUS_MASTER 0
  match (s0.pel.masters.filter (fun x => x.1 == m)).head? with
  | none => s0
  | some (_, h) =>
    if !ringUsed s0 || isMaster s0 then s0
    else
      let s := s0 |> advanceTo (h.stamp + 16000) |> onPel (fun p => { p with masters := tabDel m p.masters })
        |> fset F.PEL_ERR_MASTER_LOST 0 |> fclr F.PEL_STATUS_ALIGNED 0 |> fclr F.PEL_STATUS_SLEWING 0
        |> onPel (fun p => { p with slew := 0 })
      match (mastersNow s).filter (fun x => x.1 != m) with
      | (q, hq) :: _ => if q < devid s || s.pel.dup then s |> takeMaster q hq.epoch 0 |> slotCheck
                        else newBase (nextCount (h.epoch / 16)) s
      | [] => if s.pel.dup || s.pel.claimOpen then s else newBase (nextCount (h.epoch / 16)) s

def execMasterLossTimeout (s : State) : Host.Outcome State Fault Refusal := run masterLoss s

/-- The first 1 ms after AON power-up ends (R313, R314): a device that has heard neither a lower-numbered master nor a
lower-numbered device becomes a master; it joins a time base it hears, and forms one where it hears none. -/
def claimEnd (s0 : State) : State :=
  if !ringUsed s0 || !s0.pel.claimOpen then s0
  else
    let s := s0 |> advanceTo (s0.pel.startAt + 1000000) |> onPel (fun p => { p with claimOpen := false })
    if isMaster s || !mayClaim s || s.pel.present.any (fun x => decide (x.1 < devid s)) then s
    else if (mastersNow s).isEmpty then newBase (nextCount ((ctrValue s ctrTimeBase).getD 14)) s
    else takeOver s

def execMasterClaimWindowEnd (s : State) : Host.Outcome State Fault Refusal := run claimEnd s

/-- A master's own TIME frames have not returned for 16 µs (R315). -/
def returnTimeout (s : State) : State :=
  if ringUsed s && isMaster s then s |> advanceTo (s.pel.ownReturn + 16000) |> setSplit else s

def execOwnTimeFrameReturnTimeout (s : State) : Host.Outcome State Fault Refusal := run returnTimeout s

/-- TIME frames of one EPOCH for 256 µs, and the master's own returning, clear SPLIT (R315). -/
def splitClear (s0 : State) : State :=
  if !ringUsed s0 || !fon s0 F.PEL_STATUS_SPLIT 0 then s0
  else
    let s := advanceTo (s0.pel.otherEpochAt + 256000) s0
    if isMaster s && decide (s.pel.ownReturn + 16000 < s.gtc) then s else fclr F.PEL_STATUS_SPLIT 0 s

def execSplitClear (s : State) : Host.Outcome State Fault Refusal := run splitClear s

/-! ### Presence (R311, R313, R316) -/

/-- Is every channel of the enable log lowered? -/
def logLowered (s : State) : Bool := s.seq.log.all (fun t => !tgtAnyOn s t)

/-- The PRESENT payload. -/
def presentWord (s : State) : Nat :=
  s.serial.toNat % 2 ^ 16 + modeCode s.mode * 2 ^ 16 + (logLowered s).toNat * 2 ^ 19 + fget s F.PEL_STATUS_ALIGNED 0 * 2 ^ 20
    + (isMaster s).toNat * 2 ^ 21 + fget s F.TND_CFG_PARTNER 0 * 2 ^ 22 + fget s F.TND_CFG_EN 0 * 2 ^ 26
    + (fget s F.TND_STATUS_PEER_COPY 0 == 3).toNat * 2 ^ 27 + fget s F.SEQ_INRUSH_SLOT_TICKS 0 * 2 ^ 28
    + fget s F.SEQ_INRUSH_PEL_EN 0 * 2 ^ 32

/-- Every device sends a PRESENT frame once every 256 ticks. -/
def presentSend (s : State) : State := if ringUsed s then ringOut 2 (presentWord s) s else s

def execPresentFrameSend (s : State) : Host.Outcome State Fault Refusal := run presentSend s

/-- Bit `d` of a mask set to `b`. -/
def maskBit (w d : Nat) (b : Bool) : Nat := w - w / 2 ^ d % 2 * 2 ^ d + b.toNat * 2 ^ d

/-- A device shares this one's DEVID: from then on it never becomes master and never counts as aligned (R311). -/
def dupFound (s : State) : State :=
  s |> fset F.PEL_ERR_DUP_DEVID 0 |> onPel (fun p => { p with dup := true }) |> fclr F.PEL_STATUS_ALIGNED 0

/-- Is a PRESENT payload that of the partner, by DEVID and serial number? -/
def fromPartner (s : State) (o w : Nat) : Bool := tndEn s && o == fget s F.TND_CFG_PARTNER 0 && w % 2 ^ 16 == s.tnd.serial.toNat % 2 ^ 16

/-- Another device's PRESENT frame: it is heard, and its count of RAILS_DOWN frames goes on or restarts. -/
def presentHeard (o : Nat) (w : BitVec 64) (s : State) : State :=
  let down := w.toNat / 2 ^ 19 % 2 == 1
  let old := match (s.pel.present.filter (fun x => x.1 == o)).head? with | some (_, p) => p.downRun | none => 0
  s |> onPel (fun p => { p with present := tabPut o ⟨s.gtc, w, if down && fromPartner s o w.toNat then old + 1 else 0⟩ p.present })
    |> fput F.PEL_PRESENT_HEARD 0 (maskBit (fget s F.PEL_PRESENT_HEARD 0) o true)
    |> fput F.PEL_PRESENT_RAILS_DOWN 0 (maskBit (fget s F.PEL_PRESENT_RAILS_DOWN 0) o down)
    |> when (!isMaster s && o == fget s F.PEL_STATUS_MASTER 0) slotCheck

/-- No PRESENT frame of device `d` for 256 µs (R329). -/
def presentExpiry (d : Devid) (s : State) : State :=
  match (s.pel.present.filter (fun x => x.1 == d.val)).head? with
  | some (_, p) =>
    if aonOn s then
      s |> advanceTo (p.stamp + 256000)
        |> fput F.PEL_PRESENT_HEARD 0 (maskBit (fget s F.PEL_PRESENT_HEARD 0) d.val false)
    else s
  | none => s

def execPresentHeardExpiry (d : Devid) (s : State) : Host.Outcome State Fault Refusal := run (presentExpiry d) s

/-! ### Faults of other devices, and forwarded records (R281, R317) -/

/-- A BRAKE or FAULT frame never changes the mode: it writes a record, whose device number names the sender (DEDUCED from R267,
log 105), and shows its sender in PEL_PRESENT. -/
def noteSender (f : RingFrame) (s : State) : State :=
  if f.origin.val = devid s then s
  else s |> fput F.PEL_PRESENT_HEARD 0 (maskBit (fget s F.PEL_PRESENT_HEARD 0) f.origin.val true)
    |> onRcd (fun r => { r with landed := r.landed ++ [⟨s.stamp, srcRing, 0x0D, 6, 0, none, some f.origin.val⟩] })

def brakeFrame (f : RingFrame) (s : State) : State :=
  onFrame 3 f (fun s => s |> when (f.origin.val != devid s) (fset F.PEL_ERR_BRAKE_SEEN 0) |> noteSender f) s

def execBrakeFrame (f : RingFrame) (s : State) : Host.Outcome State Fault Refusal := run (brakeFrame f) s

def execFaultFrame (f : RingFrame) (s : State) : Host.Outcome State Fault Refusal := run (onFrame 4 f (noteSender f)) s

/-- The PARTNER record of a forwarded one: its SEQ, its bytes 0 to 3, and its snapshot words 0 to 23 (R269, R281). -/
def partnerWords (bs : List Byte) : List Nat :=
  [leAt 4 4 bs, leAt 0 4 bs] ++ (List.range 24).map (fun i => leAt (16 + 4 * i) 4 bs)

/-- The last fragment has come: a record whose CRC holds is captured and acknowledged; a recorder that is itself volatile
takes none. -/
def recordWhole (o : Nat) (bs : List Byte) (s : State) : State :=
  if !rcdGood (bs.take 128) || recVolatile s then s
  else
    s |> onRcd (fun r => { r with landed := r.landed ++ [⟨s.stamp, srcRing, 0x14, 6, 8, some (partnerWords bs), some o⟩] })
      |> ringOut 6 (o + rcdSeq bs * 2 ^ 4)

/-- A RECORD fragment (R310): destination, fragment number, six bytes. Fragments are gathered in order. -/
def recordFrame (f : RingFrame) (s : State) : State :=
  onFrame 5 f (fun s =>
    let w := f.payload.toNat
    let o := f.origin.val
    let i := w / 256 % 256
    let have_ := if i = 0 then [] else tabGet [] s.rcd.gather o
    if o = devid s || w % 16 != devid s || have_.length != 6 * i then s
    else
      let bs := have_ ++ leBytes 6 (w / 2 ^ 16)
      s |> onRcd (fun r => { r with gather := tabSet [] o (if i = 21 then [] else bs) r.gather })
        |> when (i == 21) (recordWhole o bs)) s

def execRecordFrame (f : RingFrame) (s : State) : Host.Outcome State Fault Refusal := run (recordFrame f) s

/-- A RECACK names this device and the record being forwarded: the next one goes. -/
def recackFrame (f : RingFrame) (s : State) : State :=
  onFrame 6 f (fun s =>
    let w := f.payload.toNat
    match s.rcd.fwd with
    | some (r, _, _) =>
      if f.origin.val != devid s && w % 16 == devid s && w / 16 % 2 ^ 32 == r.seq % 2 ^ 32 then
        s |> onRcd (fun x => { x with fwd := none }) |> forwardNext
      else s
    | none => s) s

def execRecackFrame (f : RingFrame) (s : State) : Host.Outcome State Fault Refusal := run (recackFrame f) s

end Sys2Proof.Machine
end

