-- ==== Sys2Proof/Machine/Tnd.lean ====
section
/-! DEFINITION. The tandem (R318 to R328): its stored configuration, the CONFIG exchange, mirrored stores at primary and
holder, resynchronisation, promotion, and the partner's PRESENT frames. -/
namespace Sys2Proof.Machine

/-! ### Stored configuration (R318, R323) -/

/-- Mirror regions of the persistent partition. -/
def mirrorTotal (s : State) : Nat := Config.capacityGiB s.config

/-- The regions whose bit is set in bytes from address `a` on, `n` bytes long. -/
def bitmapRegions (s : State) (a n base : Nat) : List Nat :=
  (List.range n).flatMap (fun i => ((List.range 8).filter (fun b => (sbByte s (a + i)).getLsbD b)).map (fun b => base + 8 * i + b))

/-- The mirrored regions as stored; a bitmap page never stored holds none. -/
def storedRegions (s : State) : NSet :=
  (if nsHas 850 s.sbg.written then bitmapRegions s (850 * 256) 256 0 else [])
    ++ (if nsHas 851 s.sbg.written then bitmapRegions s (851 * 256) 192 2048 else [])

/-- The tandem takes its stored configuration: a device that restarts with DIVERGED set counts every extent of its mirrored
regions divergent (R323). -/
def loadTandem (s : State) : State :=
  s |> onTnd (fun _ => { tndReset with
        serial := if sbBytes s (homeTnd + 4) 8 = List.replicate 8 blankByte then 0 else BitVec.ofNat 64 (sbNat s (homeTnd + 4) 8)
        own := storedRegions s, divergeAll := fon s F.TND_STATUS_DIVERGED 0
        promoted := fget s F.TND_STATUS_PEER_COPY 0 == 3 })
    |> fput F.TND_STATUS_LINK 0 (if tndEn s then 1 else 0)

/-- The 448-byte bitmap of a set of regions. -/
def regionBytes (rs : NSet) : List Byte :=
  (List.range 448).map (fun i => BitVec.ofNat 8 ((List.range 8).foldl (fun w b => w + (nsHas (8 * i + b) rs).toNat * 2 ^ b) 0))

/-! ### The regions' roles (R325, R326) -/

/-- A PELOTON record of the tandem. -/
def tandemRecord (s : State) : State := land 0x0D 6 srcTandem 0 none s

/-- Every extent of the own regions is divergent. -/
def divergeOwn (s : State) : State :=
  s |> onTnd (fun t => { t with divergeAll := true, divergent := [] }) |> setTnd F.TND_STATUS_DIVERGED 1

/-- The holder's slots become writable through its own host port (R326). -/
def promoteHolder (s : State) : State :=
  s |> setTnd F.TND_STATUS_PEER_COPY 3 |> onTnd (fun t => { t with promoted := true })
    |> fset F.TND_ERR_PROMOTED 0 |> tandemRecord

/-- The owner learns of the promotion: its regions stay read-only and wait for the holder's resynchronisation. -/
def demote (s : State) : State :=
  s |> setTnd F.TND_STATUS_OWN 2 |> onTnd (fun t => { t with toSend := [], sending := [] })

/-- Every extent of a set of regions. -/
def regionExtents (rs : NSet) : NSet := rs.flatMap (fun m => (List.range 512).map (· + 512 * m))

/-! ### The CONFIG exchange (R320, R325 to R327) -/

/-- Own CONFIG message. -/
def ownConfig (s : State) : ConfigMsg :=
  { serial := s.serial, configuration := BitVec.ofNat 8 (Config.configByte s.config)
    peerCopy := Fin.ofNat 4 (fget s F.TND_STATUS_PEER_COPY 0), own := Fin.ofNat 4 (fget s F.TND_STATUS_OWN 0)
    diverged := fon s F.TND_STATUS_DIVERGED 0, mirrorBase := BitVec.ofNat 16 (fget s F.TND_CFG_MIRROR_BASE 0)
    mirrored := BitVec.ofNat 16 s.tnd.own.length, bitmap := s.tnd.own }

/-- Mirror regions of a configuration byte; none for an unknown one. -/
def regionsOfByte (b : Nat) : Nat :=
  if b = 1 then Config.capacityGiB .s416 else if b = 2 then Config.capacityGiB .s208
  else if b = 3 then Config.capacityGiB .s104 else 0

/-- Do serial number, configuration and R319 match? -/
def configMatches (s : State) (m : ConfigMsg) : Bool :=
  let base := fget s F.TND_CFG_MIRROR_BASE 0
  m.serial == s.tnd.serial && decide (0 < regionsOfByte m.configuration.toNat)
    && s.tnd.own.all (fun r => decide (r < base)) && m.bitmap.all (fun r => decide (r < m.mirrorBase.toNat))
    && m.bitmap.length == m.mirrored.toNat
    && decide (m.bitmap.length + base ≤ mirrorTotal s) && decide (s.tnd.own.length + m.mirrorBase.toNat ≤ regionsOfByte m.configuration.toNat)

/-- Does CONFIG show both sides writable for one region (R326)? -/
def bothWritable (s : State) (m : ConfigMsg) : Bool :=
  (!s.tnd.own.isEmpty && fget s F.TND_STATUS_OWN 0 == 0 && m.peerCopy.val == 3)
    || (!m.bitmap.isEmpty && m.own.val == 0 && fget s F.TND_STATUS_PEER_COPY 0 == 3)

/-- The copy held for the partner, as the exchange leaves it: one promoted stays so; else stale while the partner's
divergence is outstanding (DEDUCED, log 41). -/
def copyAfter (s : State) (m : ConfigMsg) : Nat :=
  if fget s F.TND_STATUS_PEER_COPY 0 = 3 then 3 else if m.bitmap.isEmpty then 0 else if m.diverged then 2 else 1

/-- Resynchronisation begins (R327): a primary's divergent extents, or a promoted holder's copies of a demoted owner's
regions (R326). -/
def startResync (s : State) : State :=
  let todo : NSet :=
    if fget s F.TND_STATUS_PEER_COPY 0 = 3 then
      regionExtents ((List.range s.tnd.peerRegions.length).map (· + fget s F.TND_CFG_MIRROR_BASE 0))
    else if fget s F.TND_STATUS_OWN 0 != 0 then []
    else if s.tnd.divergeAll then regionExtents s.tnd.own else s.tnd.divergent
  let mine := fget s F.TND_STATUS_PEER_COPY 0 != 3 && fget s F.TND_STATUS_OWN 0 == 0
  s |> onTnd (fun t => { t with toSend := todo, sending := [], divergeAll := t.divergeAll && !mine
                                divergent := if mine && t.divergeAll then todo else t.divergent
                                resync := if fget s F.TND_STATUS_OWN 0 = 2 then regionExtents t.own else [] })
    |> fbit F.TND_STATUS_RESYNC 0 (!todo.isEmpty || fget s F.TND_STATUS_OWN 0 == 2)

/-- The partner's CONFIG matches: the link is up. -/
def configUp (m : ConfigMsg) (s : State) : State :=
  let own := fget s F.TND_STATUS_OWN 0
  s |> fput F.TND_STATUS_LINK 0 3
    |> onTnd (fun t => { t with peerBase := m.mirrorBase.toNat, peerRegions := m.bitmap, configGood := true, lastQuiesce := false
                                peerPromoted := m.peerCopy.val == 3 })
    |> (if m.peerCopy.val = 3 && !s.tnd.own.isEmpty then demote
        else if own = 1 then setTnd F.TND_STATUS_OWN 0 else id)
    |> setTnd F.TND_STATUS_PEER_COPY (copyAfter s m)
    |> startResync |> tandemRecord |> postOrQueue 1 1 0 0 6 srcTandem

/-- CONFIG arrives. -/
def configMsg (m : ConfigMsg) (s : State) : State :=
  if !coreOn s || fget s F.TND_STATUS_LINK 0 != 2 then s
  else
    let s1 := onTnd (fun t => { t with lastMsg := s.gtc }) s
    if !configMatches s1 m then s1 |> fput F.TND_STATUS_LINK 0 5 |> fset F.TND_ERR_MISMATCH 0
    else if bothWritable s1 m then
      s1 |> onTnd (fun t => { t with peerBase := m.mirrorBase.toNat, peerRegions := m.bitmap, promoted := false })
         |> fput F.TND_STATUS_LINK 0 6 |> fset F.TND_ERR_CONFLICT 0 |> postOrQueue 2 1 0 0 6 srcTandem
    else configUp m s1

def execConfig (m : ConfigMsg) (s : State) : Host.Outcome State Fault Refusal := run (configMsg m) s

/-- The port has trained, at x4 and 64 GT/s or not at all: CONFIG is sent (R318, R320). -/
def tandemUp (x4at64 : Bool) (s : State) : State :=
  let l := fget s F.TND_STATUS_LINK 0
  if !coreOn s || !tndEn s || s.tnd.idle || !x4at64 || !(l == 1 || l == 4) then s
  else s |> fput F.TND_STATUS_LINK 0 2 |> emit (.tandem (.config (ownConfig s)))
         |> onTnd (fun t => { t with configSent := true, lastMsg := s.gtc })

def execTandemLinkUp (x4at64 : Bool) (s : State) : Host.Outcome State Fault Refusal := run (tandemUp x4at64) s

/-! ### Loss of the link (R323, R324) -/

/-- The link is lost: from up as R323 gives; an exchange that has not ended goes back to training. -/
def tandemLost (s : State) : State :=
  if tndUp s then s |> loseLink |> tryQuiesce
  else if fget s F.TND_STATUS_LINK 0 = 2 then fput F.TND_STATUS_LINK 0 1 s
  else s

def execTandemLinkDown (s : State) : Host.Outcome State Fault Refusal := run tandemLost s

/-- No message for 4 µs. -/
def messageTimeout (s : State) : State :=
  if tndUp s || fget s F.TND_STATUS_LINK 0 = 2 then s |> advanceTo (s.tnd.lastMsg + 4000) |> tandemLost else s

def execTandemMessageTimeout (s : State) : Host.Outcome State Fault Refusal := run messageTimeout s

/-- A mirrored store reaches its deadline without its MACK. -/
def mackDeadline (tag : BitVec 16) (s : State) : State :=
  match s.tnd.waiting.find? (fun w => w.1 == tag) with
  | some w => if tndUp s then s |> advanceTo w.2.2 |> fset F.TND_ERR_MACK_TIMEOUT 0 |> tandemLost else s
  | none => s

def execMackDeadline (tag : BitVec 16) (s : State) : Host.Outcome State Fault Refusal := run (mackDeadline tag) s

/-- The 100 µs of electrical idle end: the port may train again. -/
def idleEnd (s : State) : State :=
  if s.tnd.idle then
    s |> advanceTo (s.tnd.idleAt + 100000) |> onTnd (fun t => { t with idle := false })
      |> when (fget s F.TND_STATUS_LINK 0 == 4) (fput F.TND_STATUS_LINK 0 1)
  else s

def execElectricalIdleEnd (s : State) : Host.Outcome State Fault Refusal := run idleEnd s

/-! ### Messages at both ends -/

/-- A heartbeat goes out every 1 µs while the link is up. -/
def hbSend (s : State) : State := if coreOn s && tndUp s then emit (.tandem .hb) s else s

def execHbSend (s : State) : Host.Outcome State Fault Refusal := run hbSend s

/-- A message arrives on a link that is up: its instant is kept, and whether it was QUIESCE (R323). -/
def onMessage (quiesce : Bool) (k : State → State) (s : State) : State :=
  if coreOn s && tndUp s then s |> onTnd (fun t => { t with lastMsg := s.gtc, lastQuiesce := quiesce }) |> k else s

def execHb (s : State) : Host.Outcome State Fault Refusal := run (onMessage false id) s
def execQuiesce (s : State) : Host.Outcome State Fault Refusal := run (onMessage true id) s

/-- The DPA line of a line of a slot of the mirror store (R319). -/
def storeLineNo (s : State) (slot line : Nat) : Nat := (fget s F.TND_CFG_MIRROR_BASE 0 + slot) * 4194304 + line % 4194304

/-- Does the mirror store hold the slot, read-only for its own host (R319, R326)? -/
def slotHeld (s : State) (slot : Nat) : Bool := decide (slot < s.tnd.peerRegions.length) && fget s F.TND_STATUS_PEER_COPY 0 != 3

/-- MWR (R322): its credit is used up; the sector is written as a store to the mirror store's DPA, and MACK goes back once it has
landed. The line, if its extent is being resynchronised, keeps this data (R327). -/
def mwrMsg (m : MwrMsg) (s : State) : State :=
  onMessage false (fun s0 =>
    let s := fput F.TND_CREDIT_GRANTED 0 (fget s0 F.TND_CREDIT_GRANTED 0 - 1) s0
    if !slotHeld s m.slot.toNat || !inService s then s
    else
      let line := storeLineNo s m.slot.toNat m.line.toNat
      match storeLine line (m.sect.toNat % 4) m.data false s with
      | (s1, none) => when (lineDead s line) (emit (.tandem (.mack m.tag))) s1
      | (s1, some _) =>
        s1 |> when (nsHas (extentOf line) s.tnd.resync) (onTnd (fun t => { t with mwrSince := nsAdd line t.mwrSince }))
           |> emit (.tandem (.mack m.tag))) s

def execMwr (m : MwrMsg) (s : State) : Host.Outcome State Fault Refusal := run (mwrMsg m) s

/-- MACK: the pending store is acknowledged (R322); a MACK that matches none is discarded (R328). -/
def mackMsg (tag : BitVec 16) (s : State) : State :=
  onMessage false (fun s =>
    if s.tnd.waiting.any (fun w => w.1 == tag) then s |> ackMirror tag |> finc F.TND_MIRRORED_COUNT 0 |> tryQuiesce else s) s

def execMack (tag : BitVec 16) (s : State) : Host.Outcome State Fault Refusal := run (mackMsg tag) s

/-- Mirror credits granted by the holder (R321). -/
def mcredMsg (n : Nat) (s : State) : State := onMessage false (fadd F.TND_CREDIT_HELD 0 n) s

def execMcred (count : BitVec 16) (s : State) : Host.Outcome State Fault Refusal := run (mcredMsg count.toNat) s

/-! ### Resynchronisation (R326, R327) -/

/-- The first line of the region that a received slot number means: a slot of the mirror store, or for a demoted owner its
own region of that place. -/
def slotFirst (s : State) (slot : Nat) : Nat :=
  if fget s F.TND_STATUS_OWN 0 = 2 then s.tnd.own.getD slot 0 * 4194304
  else (fget s F.TND_CFG_MIRROR_BASE 0 + slot) * 4194304

/-- A whole line with its poison mask is stored. -/
def storeWhole (line : Nat) (data : Line) (sp : BitVec 4) (s : State) : State :=
  forEach [0, 1, 2, 3] (fun i s => (storeLine line i (lineGet data i) (sp.getLsbD i) s).1) s

/-- May resynchronised data be taken for a slot? -/
def takesResync (s : State) (slot : Nat) : Bool :=
  inService s && (if fget s F.TND_STATUS_OWN 0 = 2 then decide (slot < s.tnd.own.length) else slotHeld s slot)

/-- MREL: the same extent is released, of a demoted owner's region while it waits to be resynchronised, else of the slot held
(R322, R326, R327). -/
def mrelMsg (slot extent : Nat) (s : State) : State :=
  onMessage false (fun s =>
    let mine := slotFirst s slot / 8192 + extent % 512
    if fget s F.TND_STATUS_OWN 0 == 2 && nsHas mine s.tnd.resync then releaseExtent mine s
    else when (slotHeld s slot) (releaseExtent ((fget s F.TND_CFG_MIRROR_BASE 0 + slot) * 512 + extent % 512)) s) s

def execMrel (slot : BitVec 16) (extent : BitVec 16) (s : State) : Host.Outcome State Fault Refusal :=
  run (mrelMsg slot.toNat extent.toNat) s

/-- RSYNC: the line is stored unless MWR has written it since its extent began. -/
def rsyncMsg (m : RsyncMsg) (s : State) : State :=
  onMessage false (fun s =>
    if !takesResync s m.slot.toNat then s
    else
      let line := slotFirst s m.slot.toNat + m.line.toNat % 4194304
      if nsHas line s.tnd.mwrSince then s
      else s |> onTnd (fun t => { t with resync := nsAdd (extentOf line) t.resync }) |> storeWhole line m.data m.sp) s

def execRsync (m : RsyncMsg) (s : State) : Host.Outcome State Fault Refusal := run (rsyncMsg m) s

/-- A resynchronisation is complete: TND_ERR.RESYNC_DONE and a PELOTON record. -/
def resyncOver (s : State) : State := s |> fclr F.TND_STATUS_RESYNC 0 |> fset F.TND_ERR_RESYNC_DONE 0 |> tandemRecord

/-- An extent's divergence bit clears; with the last one DIVERGED is cleared. -/
def clearDivergence (e : Nat) (s : State) : State :=
  if !nsHas e s.tnd.divergent then s
  else
    let s1 := onTnd (fun t => { t with divergent := nsDel e t.divergent }) s
    if s1.tnd.divergent.isEmpty && !s1.tnd.divergeAll then s1 |> setTnd F.TND_STATUS_DIVERGED 0 |> resyncOver else s1

/-- RDONE: the extent is complete at its receiver; a holder with no extent in progress any more marks its copy current (log
54). One that names no region received here comes back to its primary, and clears the extent's divergence bit. -/
def rdoneMsg (slot extent : Nat) (s : State) : State :=
  onMessage false (fun s =>
    let e := slotFirst s slot / 8192 + extent % 512
    let left := nsDel e s.tnd.resync
    let demoted := fget s F.TND_STATUS_OWN 0 == 2
    if takesResync s slot then
      s |> onTnd (fun t => { t with resync := left, mwrSince := t.mwrSince.filter (fun l => extentOf l != e) })
        |> when (left.isEmpty && (nsHas e s.tnd.resync || (!demoted && fget s F.TND_STATUS_PEER_COPY 0 == 2)))
            (fun s => s |> when (!demoted) (setTnd F.TND_STATUS_PEER_COPY 1) |> resyncOver)
    else if slot < s.tnd.own.length && fget s F.TND_STATUS_OWN 0 = 0 then
      clearDivergence (s.tnd.own.getD slot 0 * 512 + extent % 512) s
    else s) s

def execRdone (slot : BitVec 16) (extent : BitVec 16) (s : State) : Host.Outcome State Fault Refusal :=
  run (rdoneMsg slot.toNat extent.toNat) s

/-- A line as it stands: its cached sectors, else the media's (R64). -/
def lineNow (s : State) (line : Nat) : Line × BitVec 4 :=
  let m := readLine s (maOf s line) line
  match locate s line with
  | some loc => let sv := locSv s loc
                (lineMerge sv (locData s loc) m.1, (locSp s loc &&& sv) ||| (m.2 &&& ~~~sv))
  | none => m

/-- Slot and extent number by which the partner knows an extent of this device's. -/
def partnerExtent (s : State) (e : Nat) : Nat × Nat :=
  if fget s F.TND_STATUS_PEER_COPY 0 = 3 then (e / 512 - fget s F.TND_CFG_MIRROR_BASE 0, e % 512)
  else (slotOfRegion s.tnd.own (e / 512), e % 512)

/-- Send one line of an extent in progress; after the last, RDONE, and the extent's divergence bit clears. -/
def sendResyncLine (e : Nat) (s : State) : State :=
  match (s.tnd.sending.filter (fun x => x.1 == e)).head? with
  | none => s
  | some (_, k) =>
    let p := partnerExtent s e
    let line := e * 8192 + k
    let d := lineNow s line
    let s1 := s |> emit (.tandem (.rsync ⟨d.2, BitVec.ofNat 16 p.1, BitVec.ofNat 32 (p.2 * 8192 + k), d.1⟩))
    if k + 1 < 8192 then onTnd (fun t => { t with sending := tabPut e (k + 1) t.sending }) s1
    else s1 |> emit (.tandem (.rdone p.1 p.2)) |> onTnd (fun t => { t with sending := tabDel e t.sending }) |> clearDivergence e

/-- The next extent begins: a released one is released at the partner and complete, another one is sent line by line. -/
def beginExtent (s : State) : State :=
  match s.tnd.toSend with
  | [] => s
  | e :: rest =>
    let p := partnerExtent s e
    let s1 := onTnd (fun t => { t with toSend := rest }) s
    if bmGet s.med.released e then s1 |> emit (.tandem (.mrel p.1 p.2)) |> emit (.tandem (.rdone p.1 p.2)) |> clearDivergence e
    else onTnd (fun t => { t with sending := tabPut e 0 t.sending }) s1

/-- Resynchronisation in a tick: up to four extents in progress, one line of each (the pace is the model's, log 42). -/
def resyncTick (s : State) : State :=
  if !tndUp s || !inService s || (s.tnd.toSend.isEmpty && s.tnd.sending.isEmpty) then s
  else
    let s1 := if s.tnd.sending.length < 4 then beginExtent s else s
    let s2 := forEach s1.tnd.sending (fun x s => sendResyncLine x.1 s) s1
    if s2.tnd.toSend.isEmpty && s2.tnd.sending.isEmpty && fon s2 F.TND_STATUS_RESYNC 0 then resyncOver s2 else s2

/-! ### Credits granted to the partner (R67, R117, R321) -/

/-- The holder grants mirror credits from what the host's credits of this tick have left of ALLOW and of the overflow
slots; `rwd0` is what the host held before. -/
def grantMirror (rwd0 : Nat) (s : State) : State :=
  let g := fget s F.TND_CREDIT_GRANTED 0
  let used := fget s F.HPT_CREDIT_RWD_OUT 0 - rwd0
  let n := min (512 - g) (min (fget s F.LDG_ALLOW_LINES 0 - used) (ovfFree s - creditsOut s))
  if tndUp s && !s.tnd.peerRegions.isEmpty && fget s F.TND_STATUS_PEER_COPY 0 != 3 && inService s
      && !fon s F.LDG_STATUS_BACKPRESSURE 0 && n != 0 then
    s |> emit (.tandem (.mcred n)) |> fput F.TND_CREDIT_GRANTED 0 (g + n)
  else s

/-! ### Promotion and return (R325, R326) -/

/-- The partner's PRESENT payload says what it holds (R325, R326): PROMOTED demotes this device's regions; a partner that
holds no promoted copy frees held regions to run unmirrored and divergent; four frames with RAILS_DOWN may promote. -/
def partnerPresent (o w : Nat) (s : State) : State :=
  if !coreOn s || !fromPartner s o w then s
  else
    let promoted := w / 2 ^ 27 % 2 == 1
    let own := fget s F.TND_STATUS_OWN 0
    let run_ := match (s.pel.present.filter (fun x => x.1 == o)).head? with | some (_, p) => p.downRun | none => 0
    s |> onTnd (fun t => { t with peerPromoted := promoted })
      |> when (promoted && own != 2 && !s.tnd.own.isEmpty && !tndUp s) demote
      |> when (!promoted && own == 1 && !tndUp s) (fun s => s |> setTnd F.TND_STATUS_OWN 0 |> divergeOwn)
      |> when (decide (4 ≤ run_) && fon s F.TND_CFG_AUTO_PROMOTE 0 && fget s F.TND_STATUS_PEER_COPY 0 == 1 && !tndUp s)
          promoteHolder

/-- A PRESENT frame arrives at stamp `t`: one with this device's DEVID and another serial number reveals a double. -/
def presentFrame (f : RingFrame) (t : Nat) (s : State) : State :=
  onFrame 2 f (fun s =>
    let w := f.payload
    let o := f.origin.val
    let s1 := advanceTo t s
    if o = devid s then (if w.toNat % 2 ^ 16 = s.serial.toNat % 2 ^ 16 then s1 else dupFound s1)
    else s1 |> presentHeard o w |> partnerPresent o w.toNat) s

def execPresentFrame (f : RingFrame) (t : Nat) (s : State) : Host.Outcome State Fault Refusal := run (presentFrame f t) s

/-- The modes a partner shows in which the holder side is not promoted by command (R326): RECOVER, SERVICE, MAINTENANCE, in
the last 256 µs. -/
def partnerServes (s : State) : Bool :=
  s.pel.present.any (fun x => fromPartner s x.1 x.2.payload.toNat && decide (s.gtc ≤ x.2.stamp + 256000)
    && (let m := x.2.payload.toNat / 2 ^ 16 % 8; m == 3 || m == 4 || m == 5))

/-- ROLE (R326; its byte is PRESUMED 0 for the request and 1 for the acknowledgement, log 43): the holder's slots become
read-only again and it acknowledges; the owner becomes writable with the acknowledgement. -/
def roleMsg (reqAck : Nat) (s : State) : State :=
  onMessage false (fun s =>
    if reqAck = 0 then
      if fget s F.TND_STATUS_PEER_COPY 0 = 3 then
        s |> setTnd F.TND_STATUS_PEER_COPY 1 |> onTnd (fun t => { t with promoted := false, toSend := [], sending := [] })
          |> fclr F.TND_STATUS_RESYNC 0 |> emit (.tandem (.role 1))
      else s
    else if s.tnd.roleSent && fget s F.TND_STATUS_OWN 0 == 2 then
      s |> setTnd F.TND_STATUS_OWN 0 |> onTnd (fun t => { t with roleSent := false, peerPromoted := false })
    else s) s

def execRole (reqAck : Byte) (s : State) : Host.Outcome State Fault Refusal := run (roleMsg reqAck.toNat) s

end Sys2Proof.Machine
end

