-- ==== Sys2Proof/Machine/LifeCycle.lean ====
section
/-! DEFINITION. The life cycle's commands (chapters 05 and 07): VAON and recall, the input and the reservoir, the
freewheel's and the brake's first tick, RAMP's steps, hub faults, and the changes to and from MAINTENANCE. -/
namespace Sys2Proof.Machine

/-! ### VAON (R183, R185, R292, R300) -/

/-- VAON rises through its power-on threshold: OFF is left for STANDBY, and the GTC starts at 0 (R17). -/
def vaonOn (s : State) : State :=
  if s.mode = .off then
    { s with mode := .standby, gtc := 0, stamp := 0 } |> onPins (fun p => { p with vaon := true })
      |> onLife (fun l => { l with restartAt := 0, goodSince := 0 })
  else s

def execVaonPowerOn (s : State) : Host.Outcome State Fault Refusal := run vaonOn s

/-- The shadow as VAON leaves it: every store that runs completes from its bank's capacitor (R297). -/
def shadowLeft (s : State) : List Host.Cell × NSet :=
  s.sbg.running.foldl (fun a x => match x.2 with
    | some r => (putPage r.page r.image a.1, nsAdd r.page a.2)
    | none => a) (s.sbg.shadow, s.sbg.written)

/-- VAON falls through its power-off threshold: OFF at once. What is not in media, in the shadow or in the firmware store is
lost (R185). -/
def vaonOff (s : State) : State :=
  if s.mode = .off then s
  else
    let sh := shadowLeft s
    { State.reset with
      config := s.config, serial := s.serial, stepping := s.stepping, outbox := s.outbox, freeIx := s.freeIx, mode := .off
      pins := { State.reset.pins with vaon := false, perst := s.pins.perst }
      med := { mediaReset with lines := s.med.lines, tags := s.med.tags, drain := s.med.drain, index := s.med.index
                               ckpts := s.med.ckpts }
      life := { lifeReset with fwVersion := s.life.fwVersion, fwBad := s.life.fwBad }
      sbg := { sbgReset with shadow := sh.1, written := sh.2 } }

def execVaonPowerOff (s : State) : Host.Outcome State Fault Refusal := run vaonOff s

/-- VAON below its warning threshold: autostore runs (R185, R300). -/
def vaonWarn (s : State) : State :=
  if !aonOn s then s
  else s |> fset F.SBG_STATUS_VAON_WARN 0 |> when (!fon s F.SBG_STATUS_AUTOSTORE 0 && sbReady s) startAutostore

def execVaonWarning (s : State) : Host.Outcome State Fault Refusal := run vaonWarn s

def execVaonWarnClear (s : State) : Host.Outcome State Fault Refusal :=
  run (fun s => if aonOn s then fclr F.SBG_STATUS_VAON_WARN 0 s else s) s

/-! ### Recall (R57, R216, R253, R292, R293, R303, R310, R386) -/

/-- A page with an uncorrectable word is loaded as read: its bytes are open (log 6). -/
def loadUe (p : Nat) (s : State) : State :=
  let cells (m : List Host.Cell) : List Host.Cell :=
    (List.range 256).foldl (fun m i => tabSet blankByte (256 * p + i) (BitVec.ofNat 8 (Config.freeNat (s.freeIx + i))) m) m
  { s with freeIx := s.freeIx + 256 } |> onSbg (fun g => { g with work := cells g.work, ue := nsAdd p g.ue })

/-- A page with corrected words is dirty, and its store is requested. -/
def loadCorrected (p : Nat) (s : State) : State :=
  onSbg (fun g => { g with since := tabPut p (s.gtc + 1) g.since, reqs := nsAdd p g.reqs }) s

/-- Load every register field that is kept in the saddlebag. -/
def loadAll (s : State) : State := forEach (allRegs.filter (fun r => r.home.isSome || r.base == 0xC4800)) loadRegAll s

/-- HOLD_UV when it is not stored: V_MIN through KDIV, rounded up (R216). -/
def holdUvDefault (s : State) : Nat :=
  let d := 1250 * max 1 (fget s F.LDG_CONST3_KDIV_X256 0)
  min 1023 ((fget s F.LDG_CONST1_V_MIN 0 * 1024 * 256 + d - 1) / d)

/-- SEQ_IN_CFG's HOLD_UV. -/
def loadHoldUv (s : State) : State :=
  if (storedWord s (homeGlobals + 32)).isNone then fput F.SEQ_IN_CFG_HOLD_UV 0 (holdUvDefault s) s else s

/-- The 64 steps of the power-up table in use; a step that is not stored is END (R217). -/
def loadTable (s : State) : State :=
  forEach (List.range 64) (fun k s =>
    fput F.SEQ_STEPk_STEP k ((storedWord s (homeTable (fget s F.SEQ_CFG_PU_TABLE 0) + 4 * k)).getD 0) s) s

/-- The two copies of a key: the first good one rewrites the other (R293). Answers the key's bytes, `n` of them. -/
def keyPair (s : State) (a b n : Nat) : Option (Bool × List Byte) :=
  let good (p : Nat) : Option (List Byte) :=
    let bs := sbBytes s (p * 256) n
    if crc32 bs = leAt 0 4 (sbBytes s (p * 256 + n) 4) then some bs else none
  match good a, good b with
  | some x, some y => some (x != y, x)
  | some x, none => some (true, x)
  | none, some y => some (true, y)
  | none, none => none

/-- Take a key: a bad copy is rewritten, and SBG_ERR.KEY_COPY shows it. -/
def takeKey (a b n : Nat) (s : State) : State :=
  match keyPair s a b n with
  | some (true, k) =>
    let bs := k ++ leBytes 4 (crc32 k)
    s |> sbStore (a * 256) bs |> sbStore (b * 256) bs |> fset F.SBG_ERR_KEY_COPY 0
  | _ => s

/-- Have both pages of a key been stored? -/
def keyStored (s : State) (a b : Nat) : Bool := nsHas a s.sbg.written || nsHas b s.sbg.written

/-- The owner key, and the key set of the media: without a good copy every load returns poison (R293). -/
def loadKeys (s : State) : State :=
  let s1 := s |> when (keyStored s 4033 4034) (takeKey 4033 4034 32) |> when (keyStored s 4035 4036) (takeKey 4035 4036 4)
  match keyPair s1 4035 4036 4 with
  | some (_, k) => onMed (fun m => { m with key := leAt 0 4 k, keyBad := false }) s1
  | none => onMed (fun m => { m with key := 0, keyBad := keyStored s 4035 4036 }) s1

/-- The ledger's history from its journal (R305, R386). -/
def loadJournal (s0 : State) : State :=
  let s := noteOdd ((ljSlot s0 0).map ljSeq) ((ljSlot s0 1).map ljSeq) s0
  match ljCurrent s with
  | none => s
  | some (_, b) =>
    let word (n : Nat) : Nat := b / 2 ^ (32 * n) % 2 ^ 32
    let put (fs : List Fld) (i w : Nat) (s : State) : State := forEach fs (fun f s => fput f i (fieldOf f w) s) s
    s |> forEach (List.range 8) (fun n s => put [F.LDG_CAPn_UF, F.LDG_CAPn_VALID, F.LDG_CAPn_NEWEST] n (word n) s)
      |> put [F.LDG_FW_LAST_TICKS, F.LDG_FW_LAST_SEALED, F.LDG_FW_LAST_CUT_SHORT, F.LDG_FW_LAST_AREA] 0 (word 8)
      |> put [F.LDG_FW_LINES_LINES] 0 (word 9)

/-- The pages with an uncorrectable word: counted, the first named; a factory page sets RECALL_UE, an LSA page posts its event
at the next entry to SERVICE. -/
def noteUe (ue : List Nat) (s : State) : State :=
  s |> fput F.SBG_RECALL_UE 0 (min 4095 ue.length)
    |> (match ue with
        | p :: _ => fun s => s |> fput F.SBG_UE_PAGE_PAGE 0 p |> fset F.SBG_UE_PAGE_VALID 0 |> fset F.SBG_ERR_RECALL_UE 0
        | [] => id)
    |> when (ue.any (fun p => decide (p < 512))) (postOrQueue 2 1 5 0 7 srcSaddlebag)

/-- Recall ends (R292, R293): the working copy, the AON registers, keys and history are there, and calibrations of MC0 and
MC1 run. The straps give DEVID. -/
def recallEnd (straps : Devid) (corrected ue0 : List Nat) (s0 : State) : State :=
  if !aonOn s0 || sbReady s0 then s0
  else
    let ue := (ue0.filter (fun p => decide (p < 4096) && nsHas p s0.sbg.written)).foldl (fun t p => nsAdd p t) []
    let good := corrected.filter (fun p => decide (p < 4096) && nsHas p s0.sbg.written)
    let s1 := s0 |> onSbg (fun g => { g with work := g.shadow, refreshDue := s0.gtc + 1000000000 })
      |> forEach ue loadUe |> forEach good loadCorrected
      |> fset F.SBG_STATUS_READY 0 |> fput F.SBG_RECALL_CORRECTED 0 (min 65535 good.length)
      |> when (!good.isEmpty) (fset F.SBG_ERR_RECALL_CE 0) |> noteUe ue
      |> loadAll |> loadHoldUv |> loadTable |> loadKeys |> loadJournal
    s1 |> fput F.SBG_STATUS_BP 0 ((ctrValue s1 ctrProtect).getD 0 % 4) |> forEach [ctrProtect, ctrTimeBase, ctrHubCkpt] ctrCheck
       |> fput F.SEQ_CTRL_TABLE 0 (fget s1 F.SEQ_CFG_PU_TABLE 0)
       |> fput F.PEL_STATUS_DEVID 0 straps.val |> fput F.PEL_STATUS_EPOCH 0 (0xF0 + straps.val)
       |> onPel (fun p => { p with startAt := s0.gtc })
       |> startCal 0 none true |> startCal 1 none true

def execRecallComplete (straps : Devid) (corrected : List Nat) (ue : List Nat) (s : State) : Host.Outcome State Fault Refusal :=
  run (recallEnd straps corrected ue) s

/-! ### The input and the reservoir (R135, R136, R185, R214 to R216) -/

/-- Is the input good for the debounce: above VIN_RISE, and PWRFAIL_N high or ignored? -/
def inputGood (s : State) : Bool :=
  fon s F.SEQ_IN_STATUS_VIN_GOOD 0 && !(fon s F.SEQ_IN_STATUS_PWRFAIL 0 && fon s F.SEQ_IN_CFG_PWRFAIL_EN 0)

/-- The 12 V input falls through VIN_FALL. -/
def vinFall (t : Nat) (s : State) : State :=
  if !aonOn s then s
  else s |> advanceTo t |> fset F.SEQ_IN_STATUS_VIN_LOW 0 |> fclr F.SEQ_IN_STATUS_VIN_GOOD 0 |> inputFails 8

def execVinFallTrip (t : Nat) (s : State) : Host.Outcome State Fault Refusal := run (vinFall t) s

/-- The input is good again: the debounce counts from here. -/
def inputBack (s : State) : State :=
  if inputGood s then s |> onLife (fun l => { l with goodSince := s.gtc }) |> onFw (fun f => { f with onHold := false }) else s

/-- The 12 V input crosses VIN_RISE (R214): it counts as good only while it is above, so the crossing of one that is good is its
fall back below (DEDUCED, log 103). -/
def vinRise (s : State) : State :=
  if !aonOn s then s
  else if fon s F.SEQ_IN_STATUS_VIN_GOOD 0 then fclr F.SEQ_IN_STATUS_VIN_GOOD 0 s
  else s |> fclr F.SEQ_IN_STATUS_VIN_LOW 0 |> fset F.SEQ_IN_STATUS_VIN_GOOD 0 |> inputBack

def execVinRise (s : State) : Host.Outcome State Fault Refusal := run vinRise s

/-- PWRFAIL_N goes low: a trip unless the pin is ignored. -/
def pwrfail (t : Nat) (s : State) : State :=
  if !aonOn s then s
  else s |> advanceTo t |> fset F.SEQ_IN_STATUS_PWRFAIL 0 |> when (fon s F.SEQ_IN_CFG_PWRFAIL_EN 0) (inputFails 9)

def execPwrfailNAssert (t : Nat) (s : State) : Host.Outcome State Fault Refusal := run (pwrfail t) s

/-- PWRFAIL_N goes high again. -/
def pwrfailBack (s : State) : State :=
  if aonOn s then
    s |> fclr F.SEQ_IN_STATUS_PWRFAIL 0 |> when (fon s F.SEQ_IN_STATUS_PWRFAIL 0 && fon s F.SEQ_IN_CFG_PWRFAIL_EN 0) inputBack
  else s

def execPwrfailNDeassert (s : State) : Host.Outcome State Fault Refusal := run pwrfailBack s

/-- Does a freewheel, or a brake with drain, run on hold-up energy? -/
def onHoldUp (s : State) : Bool :=
  (s.mode = .freewheel && s.fw.stage != .idle) || (s.mode = .brake && s.fw.kind = .brakeDrain && s.fw.stage != .idle && s.fw.onHold)

/-- Programs in flight are abandoned and none is issued (R216). -/
def abandonPrograms (s : State) : State :=
  s |> onSched (fun q => { q with queue := [], wait := [], banks := tabMap bankReset (fun _ b => { b with prog := none }) q.banks })
    |> onMed (fun m => { m with ckptNow := none })

/-- The reservoir comparator trips (R216): on hold-up energy the controller acts at once, without a seal; in every other mode
it only shows, until its next crossing, a release (DEDUCED, log 103). Before T+1 it leaves the record that T+1 writes, for the
fallback of the next RECOVER. -/
def holdUv (s : State) : State :=
  if !aonOn s then s
  else if !onHoldUp s then fbit F.SEQ_IN_STATUS_HOLD_LOW 0 (!fon s F.SEQ_IN_STATUS_HOLD_LOW 0) s
  else
    let s1 := fset F.SEQ_IN_STATUS_HOLD_LOW 0 s
    if s.fw.stage = .lowering then s1
    else
      let s2 := s1 |> when (s.fw.stage == .t0 && s.fw.kind != .short) drainT1 |> abandonPrograms |> onFw (fun f => { f with cutShort := true, stage := .lowering })
        |> fset F.LDG_ERR_SHORT_FW 0 |> fset F.SEQ_ERR_HOLD_LOW_FW 0
        |> onHost (fun h => { h with quiesced := true })
      s2 |> when (s.fw.stage != .recording) powerDownRecord |> lowerRails |> tryEndFw

def execHoldUvTrip (s : State) : Host.Outcome State Fault Refusal := run holdUv s

/-! ### The first tick of a freewheel and of a brake (R133, R136, R198, R204, R300, R324) -/

/-- The short form's record follows its autostore (R198). -/
def shortRecord (s : State) : State :=
  if s.mode = .freewheel && s.fw.kind = .short && s.fw.autostoreDone && !s.fw.recordDone then powerDownRecord s else s

/-- T+1 of a freewheel. -/
def freewheelT1 (s0 : State) : State :=
  if s0.mode != .freewheel || s0.fw.stage != .t0 then s0
  else
    let s := advanceTo ((s0.fw.t0 / 250 + 1) * 250) s0
    if s.fw.kind = .full then s |> drainT1 |> onTnd (fun t => { t with quiesceDue := true }) |> tryQuiesce |> fwProgress
    else s |> onFw (fun f => { f with stage := .lowering }) |> dropUnstarted |> startAutostore |> lowerRails |> shortRecord |> tryEndFw

def execFreewheelT1 (s : State) : Host.Outcome State Fault Refusal := run freewheelT1 s

/-- T+1 of a brake: with drain as a freewheel, on input power; without, the rails go down and the record is written
alongside. -/
def brakeT1 (s0 : State) : State :=
  if s0.mode != .brake || s0.fw.stage != .t0 then s0
  else
    let s := advanceTo ((s0.fw.t0 / 250 + 1) * 250) s0
    if s.fw.kind = .brakeDrain then s |> drainT1 |> onTnd (fun t => { t with quiesceDue := true }) |> tryQuiesce |> fwProgress
    else s |> onFw (fun f => { f with stage := .lowering }) |> startAutostore |> ackAtTrip |> powerDownRecord |> lowerRails

def execBrakeT1 (s : State) : Host.Outcome State Fault Refusal := run brakeT1 s

/-- Every bank has stored its autostore pages. -/
def autostoreEnd (s : State) : State :=
  if !fon s F.SBG_STATUS_AUTOSTORE 0 || !s.sbg.autoset.isEmpty then s
  else s |> fclr F.SBG_STATUS_AUTOSTORE 0 |> onFw (fun f => { f with autostoreDone := true }) |> shortRecord |> fwProgress

def execAutostoreComplete (s : State) : Host.Outcome State Fault Refusal := run autostoreEnd s

/-! ### RAMP (R11, R53, R72, R77, R184, R185, R189, R190, R217, R225, R253, R258) -/

/-- The core blocks as they are after the core rail comes up: nothing in the cache, in the queues or on chip about media. The event
logs are empty (R53); the poison list is emptied with them (DESIGN CHOICE, log 100). -/
def clearCore (s : State) : State :=
  { s with cache := cacheReset, sched := schedReset, fw := fwReset
           led := { ledgerReset with code := s.led.code, newCode := s.led.newCode, newTick := s.led.newTick
                                     test := { capTestReset with run := s.led.test.run } }
           med := { mediaReset with lines := s.med.lines, tags := s.med.tags, drain := s.med.drain, index := s.med.index
                                    ckpts := s.med.ckpts, key := s.med.key, keyBad := s.med.keyBad, pe := (ctrValue s ctrEpoch).getD 0 }
           host := { hostReset with erased := s.host.erased, queued := s.host.queued }
           mbx := { s.mbx with answers := [], fg := [], bg := none, last := none, abortReq := false, reload := [] } }

/-- The sequencer's part of an entry to RAMP. -/
def rampSeq (s : State) : State :=
  s |> forEach allChans (fun c s => s
      |> fclr F.SEQ_CHn_STATUS_FAULT_SEEN c |> fclr F.SEQ_CHn_STATUS_OFF_FAULT c |> fclr F.SEQ_CHn_STATUS_RETRIES c
      |> fclr F.SEQ_CHn_STATUS_RETRYING c |> fclr F.SEQ_CHn_STATUS_MARGINED c |> fclr F.SEQ_CHn_TRIM_DRIVING c |> fclr F.SEQ_CHn_TRIM_CODE c)
    |> fclr F.SEQ_FFL_SRC_VALID 0
    |> onSeq (fun q => { seqReset with ovMask := q.ovMask, fflArmed := true, stepSince := tickOf s, rampAt := s.gtc })
    |> fput F.SEQ_CTRL_STATE 0 1 |> fput F.SEQ_CTRL_STEP 0 0 |> fput F.SEQ_CTRL_TABLE 0 (fget s F.SEQ_CFG_PU_TABLE 0)

/-- HUB_CKPT takes its stored counter (R181, R306). -/
def loadHubCkpt (s : State) : State :=
  match ctrValue s ctrHubCkpt with
  | some v => s |> fput F.HUB_CKPT_SEQ 0 v |> fput F.HUB_CKPT_KIND 0 (v / 2 ^ 24) |> fput F.HUB_CKPT_SLOT 0 (v / 2 ^ 27)
  | none => s

/-- RAMP is entered: registers take their stored values, the power session begins. With AUTO_RAMP = 0 the restart starts at the
acceptance of the request where that is the latest (R187). -/
def enterRamp (s0 : State) : State :=
  let cap := capInterrupt s0
  let asked := if fon s0 F.HUB_MODE_CFG_AUTO_RAMP 0 then 0 else s0.life.acceptedAt
  let s := cap |> onLife (fun l => { lifeReset with
      restartAt := max (max l.restartAt l.goodSince) asked, goodSince := l.goodSince, modeSince := l.modeSince
      fwVersion := l.fwVersion, fwBad := l.fwBad })
    |> clearCore |> resetCoreRegs |> loadAll |> loadHoldUv |> loadTable |> loadTandem |> loadHubCkpt
  s |> ctrCheck ctrEpoch |> forEach (List.range (Config.wheels s.config)) (fun w => ctrCheck (ctrLife w))
    |> fput F.HUB_EPOCH_PE 0 s.med.pe |> fput F.WHL_POOL_MIN_SHARED_FREE 0 (Config.sharedPool s.config)
    |> fclr F.HUB_MODE_REC_CLOSED 0 |> rampSeq |> setMode .ramp
    |> onMcv (fun m => { m with tjArmed := true, tjRun := 0 })
    |> forEach (List.range 8) (fun n s => startCal n none true s)

/-- The debounce ends (R185, R258): the input has been good without a break, and RAMP is automatic or asked for; the mode changes
in the next tick. -/
def debounceEnd (s0 : State) : State :=
  if s0.mode != .standby || !sbReady s0 || !inputGood s0 || s0.life.hot
      || !(fon s0 F.HUB_MODE_CFG_AUTO_RAMP 0 || s0.life.rampRequest) then s0
  else
    let ends := s0.life.goodSince + max 1 (fget s0 F.HUB_MODE_CFG_DEBOUNCE_MS 0) * 1000000
    s0 |> nextTickAfter (if fon s0 F.HUB_MODE_CFG_AUTO_RAMP 0 then ends else max ends s0.life.acceptedAt) |> enterRamp

def execDebounceExpiry (s : State) : Host.Outcome State Fault Refusal := run debounceEnd s

/-- The core rail is good: the hub boots, the link trains once PERST_N is high, and the ledger runs from the next tick. -/
def coreRail (s : State) : State :=
  if s.mode = .ramp && !s.pins.coreDet then s |> onPins (fun p => { p with coreDet := true }) |> when (!s.pins.perst) (emit .linkTrain)
  else s

def execCoreRailDetect (s : State) : Host.Outcome State Fault Refusal := run coreRail s

/-- The slot that the last Activate FW named; slot A when none is recorded (R189, R386). -/
def newerSlot (s : State) : Nat := match storedWord s (homeOps + 8) with | some w => w % 2 | none => 0

/-- The image has been checked (R189): the newer slot, else the other; the hub runs, and its mailbox is ready (R40). -/
def firmwareChecked (newerOk otherOk : Bool) (s : State) : State :=
  if s.mode != .ramp || !s.pins.coreDet || s.life.hubUp then s
  else if !newerOk && !otherOk then latchBrake 8 srcHub s
  else
    let slot := if newerOk then newerSlot s else 1 - newerSlot s
    s |> onLife (fun l => { l with hubUp := true, fwRunning := slot }) |> onHost (fun h => { h with mbxReady := true })
      |> fput F.HUB_RESTART_FW_SLOT 0 slot |> fbit F.HUB_RESTART_FW_OTHER_BAD 0 (!newerOk)

def execFirmwareAuthenticated (newerOk : Bool) (otherOk : Bool) (s : State) : Host.Outcome State Fault Refusal :=
  run (firmwareChecked newerOk otherOk) s

/-- Every spoke has its microcode tables (R15, R189), in RAMP or after an activation of firmware. -/
def microcode (version : Nat) (s : State) : State :=
  if (s.mode = .ramp && s.life.hubUp && !s.life.ucodeDone) || (s.mode = .maintenance && s.life.activating) then
    s |> forEach (List.range (16 * Config.wheels s.config)) (fun g s => fput F.SPKg_UCODE_VERSION g version s)
      |> onLife (fun l => { l with ucodeDone := true })
  else s

def execMicrocodeLoaded (version : BitVec 16) (s : State) : Host.Outcome State Fault Refusal := run (microcode version.toNat) s

/-- The media rails are good. -/
def mmbRail (s : State) : State := if s.mode = .ramp then onPins (fun p => { p with mmbDet := true }) s else s

def execMmbRailDetect (s : State) : Host.Outcome State Fault Refusal := run mmbRail s

/-- May channels train: the media rails are good and every CRIT channel reports power good (R221)? -/
def canTrain (s : State) : Bool := s.pins.mmbDet && allChans.all (fun c => !fon s F.SEQ_CHn_CFG_CRIT c || powerGood s c)

/-- The dies' reset is released once training may start (R178, R189). -/
def releaseDies (s : State) : State :=
  if s.mode = .ramp && s.life.ucodeDone && canTrain s && !s.pins.mmbRst then
    s |> onPins (fun p => { p with mmbRst := true }) |> onLife (fun l => { l with rstAt := s.gtc })
  else s

/-- A packet of training for the pattern rows of a die's first bank: line 0 of the single-level block that these two rows are (R144,
R145). -/
def patternPacket (op : Nat) : MmbPacket :=
  { op := op, bank := 0, row := 229463, line := 0, tag := 0, band := 0, sl := true, id := dieId op 0, arg := 0, crc := 0 }

/-- 1 ms after the release the channel's training begins (R178): each die gets its CA and read patterns, a single-level write of the
pattern and its read, and the reference sets of its band. -/
def rstEnd (w : Nat) (s : State) : State :=
  if s.mode != .ramp || !s.pins.mmbRst then s
  else
    let cw := codeword ⟨Config.trainPattern, 0, 0, 0, 0, true⟩
    s |> advanceTo (s.life.rstAt + 1000000) |> forEach (List.range 8) (fun d s => s
      |> sendDie 13 w d 0 0 1 |> sendDie 13 w d 0 0 2
      |> sendPacket w d (patternPacket 3) (cw ++ leBytes 2 (crc16 cw)) |> sendPacket w d (patternPacket 1) [] |> sendPacket w d (patternPacket 2) []
      |> (fun s => sendReload w d (dieBand s w d) s))

def execRstWaitEnd (w : Wheel) (s : State) : Host.Outcome State Fault Refusal := onWheel w (rstEnd w.val) s

/-- A channel's training has ended (R178, R179): bit `d` of `passed` for each die; the lowest die that failed is named. -/
def trained (w : Nat) (passed : BitVec 8) (s : State) : State :=
  if s.mode != .ramp || !s.pins.mmbRst then s
  else
    let s1 := fput F.MMBn_STATUS_TRAINED w passed.toNat s
    match (List.range 8).find? (fun d => !passed.getLsbD d) with
    | none => s1
    | some d => s1 |> fset F.MMBn_ERR_TRAIN_FAIL w |> land 0x09 4 (srcWheel w) 0 none |> latchBrake 7 (srcDie w d)

def execTrainingComplete (w : Wheel) (passed : BitVec 8) (s : State) : Host.Outcome State Fault Refusal :=
  onWheel w (trained w.val passed) s

/-- The SRAM rail is good: the cache memory test runs. -/
def sramRail (s : State) : State :=
  if s.mode = .ramp && !s.pins.sramDet then
    s |> onPins (fun p => { p with sramDet := true }) |> onLife (fun l => { l with cacheTesting := true })
  else s

def execSramRailDetect (s : State) : Host.Outcome State Fault Refusal := run sramRail s

/-- Does the test's result stop the controller (R190)? `bad` are locations. -/
def cacheFails (s : State) (bad : List Nat) (otherBad : Bool) : Bool :=
  otherBad || bad.any (locScratch s)
    || (List.range (Config.wheels s.config)).any (fun n => decide (64 < (bad.filter (fun loc => locSlice loc == n)).length))

/-- The cache memory test has ended (R190): failing ways stay out of use until the next RAMP. -/
def cacheTested (badWays : List WayId) (otherBad : Bool) (s : State) : State :=
  if s.mode != .ramp || !s.life.cacheTesting then s
  else
    let bad := (badWays.filter (fun x => decide (x.slice.val < Config.wheels s.config))).foldl
      (fun t x => nsAdd (wayLoc x.slice.val x.set.val x.way.val) t) ([] : NSet)
    let s1 := s |> onLife (fun l => { l with cacheTesting := false })
      |> forEach bad (fun loc s => setWay loc { wayAt s loc with off := true, perm := true } s)
    if cacheFails s bad otherBad then latchBrake 9 srcHub s1
    else s1 |> forEach bad (fun loc s => land 0x0A 4 (srcWheel (locSlice loc)) 0 none s)
            |> onLife (fun l => { l with cacheDone := true })

def execCacheTestComplete (badWays : List WayId) (otherBad : Bool) (s : State) : Host.Outcome State Fault Refusal :=
  run (cacheTested badWays otherBad) s

/-- RECOVER's reads are complete (R193 to R197). -/
def execRecoverReadComplete (r : RecoverReads) (s : State) : Host.Outcome State Fault Refusal := run (recoverRead r) s

/-! ### Hub and port faults (R52, R203) -/

/-- A hub fault: BRAKE with cause 0x05; the AON endpoint answers from then on (R188). -/
def hubFault (s : State) : State := if s.life.hubUp && coreOn s then s |> latchBrake 5 srcHub |> hubStops else s

def execHubWatchdogExpiry (s : State) : Host.Outcome State Fault Refusal := run hubFault s
def execHubMemoryError (s : State) : Host.Outcome State Fault Refusal := run hubFault s

/-- An uncorrectable error in the host port's own buffers: Internal_Error, a fatal message, and BRAKE with cause 0x03. -/
def portBuffer (s : State) : State :=
  if coreOn s then
    s |> rasReport 6 2 |> latchBrake 3 srcHost
  else s

def execPortBufferError (s : State) : Host.Outcome State Fault Refusal := run portBuffer s

/-! ### MAINTENANCE (R53, R121, R200, R202) -/

/-- Change Mode commands that waited for the mode complete with it (R347). -/
def modeReached (mode : Nat) (s : State) : State :=
  let mine := s.mbx.fg.filter (fun f => f.opcode == 0xC001)
  s |> onMbx (fun m => { m with fg := m.fg.filter (fun f => f.opcode != 0xC001) })
    |> forEach mine (fun f s => succeedIf f.via 0xC001 [BitVec.ofNat 8 mode] s)

/-- MAINTENANCE is entered in the tick after acceptance (R200). -/
def enterMaintenance (s : State) : State :=
  if s.life.toMaintenance && s.mode = .service then
    s |> nextTickAfter s.life.acceptedAt |> onLife (fun l => { l with toMaintenance := false }) |> capModeChange |> setMode .maintenance
      |> onHost (fun h => { h with mediaStatus := 3 }) |> postModule 0 1 7 srcHub |> modeReached 5
  else s

def execMaintenanceEntry (s : State) : Host.Outcome State Fault Refusal := run enterMaintenance s

/-- May SERVICE be entered: every margin is back with its comparators in window, no calibration runs (R202), and the ways that join
scratch are clean (R80)? -/
def serviceReady (s : State) : Bool :=
  s.seq.margins.isEmpty && allChans.all (fun c => !chanOn s c || inWindow s c) && !s.mcv.convs.any (fun c => c.2.calibrating)
    && !s.life.activating && carveReady s

/-- SERVICE is entered from MAINTENANCE (R40, R80, R159, R169, R202, R325). -/
def returnService (s : State) : State :=
  if s.life.toService && s.mode = .maintenance && serviceReady s then
    s |> nextTickAfter s.life.acceptedAt |> onLife (fun l => { l with toService := false }) |> capModeChange |> setMode .service |> applyCarve |> holdOwn
      |> onHost (fun h => { h with mediaStatus := 1 }) |> when s.host.activeOwed setActive
      |> postModule 0 1 7 srcHub |> dueCkpt |> requeueClrs |> modeReached 4
  else s

def execServiceReturn (s : State) : Host.Outcome State Fault Refusal := run returnService s

end Sys2Proof.Machine
end

