-- ==== Sys2Proof/Machine/Port.lean ====
section
/-! DEFINITION. The host port's link (chapter 02): resets, training, retrains, errors on the link, viral, GPF, HDM decoder
commits, DOE, SPDM and IDE; and the MCTP control commands of the sideband. -/
namespace Sys2Proof.Machine

/-! ### Resets (R57, R60) -/

/-- The host reaches the function over CXL.io: the core is powered and the link up. -/
def ioLink (s : State) : Bool := coreOn s && s.host.linkUp

/-- The foreground mailbox commands of the host are aborted: nobody is answered, and what they started runs on (R57). -/
def abortForeground (s : State) : State :=
  let drop (v : Option Transport) : Option Transport := if v = some .mctp then v else none
  s |> onMbx (fun m => { m with fg := m.fg.map (fun f => { f with via := drop f.via }) })
    |> onSeq (fun q => { q with railWait := q.railWait.map (fun r => (drop r.1, r.2))
                                margins := tabMap marginReset (fun _ m => { m with via := drop m.via }) q.margins })
    |> onMcv (fun m => { m with convs := tabMap convReset (fun _ c => { c with calVia := drop c.calVia }) m.convs
                                diag := tabMap none (fun _ d => d.map (fun x => { x with via := drop x.via })) m.diag })
    |> onRcd (fun r => { r with clearing := r.clearing.map drop })

/-- The decoders and the DVSEC's control take their defaults, Memory_Active is cleared, and host contexts are aborted. -/
def resetDecode (s : State) : State :=
  s |> onHost (fun h => { h with decoders := [], commitDue := [], viralEnable := false, memActive := false, activeOwed := true }) |> abortContexts

/-- The link's own status is gone. -/
def linkGone (s : State) : State :=
  s |> onHost (fun h => { h with linkUp := false, reqOut := 0, ide := ⟨false, false, false, false⟩, viralBrake := false, cxlResetting := false })
    |> fput F.HPT_LINK_STATUS_WIDTH 0 0 |> fput F.HPT_LINK_STATUS_RATE 0 0 |> fclr F.HPT_LINK_STATUS_MEM_ENABLED 0
    |> fclr F.HPT_LINK_STATUS_DEGRADED 0 |> fclr F.HPT_LINK_STATUS_IDE_ACTIVE 0 |> fclr F.HPT_LINK_STATUS_VIRAL_TX 0
    |> fclr F.HPT_LINK_STATUS_VIRAL_RX 0 |> fput F.HPT_CREDIT_RWD_OUT 0 0

/-- A conventional reset of the port: cause 1 PERST_N, 2 hot reset, 3 link down. During a freewheel the host only sees the
link go down (R60). -/
def conventionalReset (cause : Nat) (s : State) : State :=
  if !coreOn s then s
  else if s.mode = .freewheel then
    s |> when s.host.linkUp (emit .linkDown) |> onHost (fun h => { h with linkUp := false }) |> fclr F.HPT_LINK_STATUS_WIDTH 0
  else
    s |> when s.host.linkUp (emit .linkDown) |> abortForeground |> onMbx (fun m => { m with answers := [] }) |> resetDecode |> linkGone
      |> fput F.HPT_RESET_CAUSE_LAST 0 cause

/-- The link trains again once nothing holds the port in reset; in a freewheel it stays down. -/
def startTraining (s : State) : State :=
  if coreOn s && !s.pins.perst && s.mode != .freewheel then emit .linkTrain s else s

/-- In RAMP and RECOVER the pin only restarts link training: the link goes down, and nothing else is reset. -/
def restartLink (s : State) : State := if coreOn s then s |> when s.host.linkUp (emit .linkDown) |> linkGone else s

/-- PERST_N is asserted. In the hold it is ignored (R205): the core is off. -/
def perstAssert (s : State) : State :=
  let s1 := onPins (fun p => { p with perst := true }) s
  if !aonOn s || s.pins.perst then s1
  else if s.mode = .ramp || s.mode = .recover then restartLink s1
  else conventionalReset 1 s1

def execPerstNAssert (s : State) : Host.Outcome State Fault Refusal := run perstAssert s

/-- PERST_N is released: the link trains once its supplies are good. -/
def perstRelease (s : State) : State := if s.pins.perst then s |> onPins (fun p => { p with perst := false }) |> startTraining else s

def execPerstNRelease (s : State) : Host.Outcome State Fault Refusal := run perstRelease s

/-- A hot reset, or the link going down; the link retrains. -/
def linkReset (cause : Nat) (s : State) : State := if ioLink s then s |> conventionalReset cause |> startTraining else s

def execHotReset (s : State) : Host.Outcome State Fault Refusal := run (linkReset 2) s
def execLinkDown (s : State) : Host.Outcome State Fault Refusal := run (linkReset 3) s

/-- A function level reset. -/
def functionReset (s : State) : State :=
  if ioLink s && s.mode != .freewheel then s |> abortForeground |> fput F.HPT_RESET_CAUSE_LAST 0 4 else s

def execFlr (s : State) : Host.Outcome State Fault Refusal := run functionReset s

/-- A CXL Reset begins; the link stays up. -/
def cxlReset (s : State) : State :=
  if ioLink s && s.mode != .freewheel then
    s |> resetDecode |> onHost (fun h => { h with cxlResetting := true }) |> fput F.HPT_RESET_CAUSE_LAST 0 5
  else s

def execCxlReset (s : State) : Host.Outcome State Fault Refusal := run cxlReset s

/-- The CXL Reset ends: Memory_Active is set again in SERVICE. -/
def cxlResetEnd (s : State) : State :=
  if s.host.cxlResetting then
    s |> onHost (fun h => { h with cxlResetting := false }) |> when (s.mode == .service) setActive
  else s

def execCxlResetComplete (s : State) : Host.Outcome State Fault Refusal := run cxlResetEnd s

/-! ### Training (R33, R34, R40, R41) -/

/-- Is a width of lanes and a rate code one at which CXL.mem runs (R32, R33): x16 or x8, at 64 or 32 GT/s? -/
def linkSupported (width rate : Nat) : Bool := (width == 16 || width == 8) && (rate == 4 || rate == 5)

/-- The link has settled below the minimum: CXL.mem is disabled, and the event is recorded. -/
def linkDegraded (s : State) : State :=
  s |> fclr F.HPT_LINK_STATUS_MEM_ENABLED 0 |> fset F.HPT_LINK_STATUS_DEGRADED 0 |> fset F.HPT_ERR_STATUS_LINK_DEGRADED 0
    |> land 0x0B 5 srcHost 0 none

/-- Training settles: the port advertises its Req credits (R48), and CXL.mem is enabled at a supported width and rate. Below
them nothing sets Memory_Active; a bit that the entry to SERVICE set while the link was down is left (log 75). -/
def linkTrained (width rate : Nat) (s : State) : State :=
  if coreOn s && !s.pins.perst && !s.host.linkUp && s.mode != .freewheel then
    let s1 := s |> onHost (fun h => { h with linkUp := true, reqOut := Config.reqCredits }) |> emit (.reqCredits Config.reqCredits)
      |> fput F.HPT_LINK_STATUS_WIDTH 0 width |> fput F.HPT_LINK_STATUS_RATE 0 rate
    if linkSupported width rate then
      s1 |> fset F.HPT_LINK_STATUS_MEM_ENABLED 0 |> when (s.mode == .service && s.host.activeOwed) setActive |> msix 7
    else s1 |> linkDegraded |> msix 7
  else s

def execLinkTrained (width : Nat) (rate : Fin 6) (s : State) : Host.Outcome State Fault Refusal := run (linkTrained width rate.val) s

/-- The link retrains without going down. -/
def linkRetrain (width rate : Nat) (s : State) : State :=
  if ioLink s then
    let s1 := s |> fput F.HPT_LINK_STATUS_WIDTH 0 width |> fput F.HPT_LINK_STATUS_RATE 0 rate
      |> finc F.HPT_LINK_STATUS_RETRAIN_COUNT 0
    if fon s F.HPT_LINK_STATUS_MEM_ENABLED 0 then
      let s2 := fset F.HPT_ERR_STATUS_RETRAIN 0 s1
      if linkSupported width rate then msix 7 s2 else s2 |> linkDegraded |> abortContexts |> msix 7
    else msix 7 s1
  else s

def execLinkRetrain (width : Nat) (rate : Fin 6) (s : State) : Host.Outcome State Fault Refusal := run (linkRetrain width rate.val) s

/-! ### Errors on the link, viral, GPF (R52, R55) -/

/-- Flit CRC or retry thresholds are reached. -/
def flitThreshold (retry : Bool) (s : State) : State := if ioLink s then rasReport (if retry then 3 else 2) 0 s else s

def execFlitCrcThreshold (retry : Bool) (s : State) : Host.Outcome State Fault Refusal := run (flitThreshold retry) s

/-- An IDE integrity failure on receive: the link goes to the insecure state. -/
def ideRxError (s : State) : State :=
  if ioLink s && s.host.ide.memKeys then
    s |> onHost (fun h => { h with ide := { h.ide with memKeys := false, insecure := true } })
      |> fclr F.HPT_LINK_STATUS_IDE_ACTIVE 0 |> rasReport 4 2
  else s

def execIdeRxError (s : State) : Host.Outcome State Fault Refusal := run ideRxError s

/-- Viral is received from the host. -/
def viralReceived (s : State) : State :=
  if ioLink s then
    s |> fset F.HPT_LINK_STATUS_VIRAL_RX 0 |> fset F.HPT_ERR_STATUS_VIRAL_RX 0 |> land 0x0B 5 srcHost 0 none
      |> postModule 1 0 5 srcHost |> msix 7
  else s

def execViralReceived (s : State) : Host.Outcome State Fault Refusal := run viralReceived s

/-- A GPF request is answered while the link is not quiesced; nothing else happens. -/
def gpfPhase (phase : Nat) (s : State) : State := if ioLink s && !s.host.quiesced then emit (.gpf phase) s else s

def execGpfPhase1 (s : State) : Host.Outcome State Fault Refusal := run (gpfPhase 1) s
def execGpfPhase2 (s : State) : Host.Outcome State Fault Refusal := run (gpfPhase 2) s

/-! ### HDM decoders (R43, R45, R46) -/

/-- Does a DPA range stay in the partition it starts in? The scratch partition exists with a carve-out. -/
def rangeInPartition (s : State) (lo n : Nat) : Bool :=
  let cap := Config.capacity s.config
  if lo < cap || (lo == cap && n == 0) then decide (lo + n ≤ cap)
  else decide (0 < scratchSteps s) && decide (Config.scratchBase ≤ lo) && decide (lo + n ≤ Config.scratchBase + 0x10000000)

/-- Do two HPA ranges overlap? -/
def overlaps (a n b m : Nat) : Bool := decide (a < b + m) && decide (b < a + n)

/-- Is the commit of decoder `n`, whose registers are `d`, accepted? -/
def commitOk (s : State) (n : Nat) (d : Decoder) : Bool :=
  decide (d.iw ≤ 4) && decide (d.ig ≤ 6)
    && decide (d.base % 0x10000000 = 0) && decide (d.size % (0x10000000 * ways d) = 0)
    && (n == 0 || (decoder s (n - 1)).committed)
    && rangeInPartition s (dpaBelow s n + d.skip) (d.size / ways d)
    && (List.range n).all (fun m => !((decoder s m).committed && overlaps (decoder s m).base (decoder s m).size d.base d.size))

/-- A commit takes effect: a committed and locked decoder ignores it, another is committed or shows why not (R45). -/
def applyCommit (x : Nat × Decoder) (s : State) : State :=
  if (decoder s x.1).committed && (decoder s x.1).lock then s
  else
    let ok := commitOk s x.1 x.2
    onHost (fun h => { h with decoders := tabSet decoderReset x.1 { x.2 with committed := ok, errNotCommitted := !ok } h.decoders }) s

/-- The end of a tick: the commits of the tick, in their order (R60). -/
def applyCommits (s : State) : State := s |> onHost (fun h => { h with commitDue := [] }) |> forEach s.host.commitDue applyCommit

/-- Commit is set on decoder `n`: it takes effect at the end of the tick (R60). -/
def commitDecoder (n : Nat) (v : DecoderWords) (s : State) : State :=
  if ioLink s then
    onHost (fun h => { h with
      commitDue := h.commitDue ++ [(n, ⟨v.base, v.size, v.skip, v.iw.toNat, v.ig.toNat, false, false, v.lock⟩)] }) s
  else s

def execHdmDecoderCommit (n : Fin 8) (v : DecoderWords) (s : State) : Host.Outcome State Fault Refusal := run (commitDecoder n.val v) s

/-! ### DOE (R37, R44) -/

/-- Is the DOE mailbox answered: the host reaches it and the hub runs? -/
def doeUp (s : State) : Bool := ioLink s && hubRuns s

/-- The DOE protocols: Discovery, CMA/SPDM, Secured CMA/SPDM, CXL Table Access (vendor and type numbers as PCI Express and
CXL define them, PRESUMED, log 45). -/
def doeProtocols : List (Nat × Nat) := [(0x0001, 0), (0x0001, 1), (0x0001, 2), (0x1E98, 2)]

/-- Discovery's answer for an index: the protocol and the next index, 0 after the last. -/
def doeDiscover (ix : Nat) : List Byte :=
  match doeProtocols[ix]? with
  | some (v, t) => leBytes 2 v ++ leBytes 1 t ++ leBytes 1 (if ix < 3 then ix + 1 else 0)
  | none => leBytes 2 0xFFFF ++ [0, 0]

def execDoeDiscovery (index : Byte) (s : State) : Host.Outcome State Fault Refusal :=
  run (when (doeUp s) (emit (.doe 0 (doeDiscover index.toNat)))) s

/-- A DSMAS entry: handle, non-volatile, DPA range (layouts of CDAT, PRESUMED, log 45). -/
def cdatRange (handle base n : Nat) : List Byte :=
  leBytes 2 0 ++ leBytes 2 24 ++ leBytes 1 handle ++ leBytes 1 4 ++ leBytes 2 0 ++ leBytes 8 base ++ leBytes 8 n

/-- A DSLBIS entry: handle, data type, unit, value. -/
def cdatLatency (handle kind unit v : Nat) : List Byte :=
  leBytes 2 1 ++ leBytes 2 24 ++ leBytes 1 handle ++ leBytes 1 0 ++ leBytes 1 kind ++ leBytes 1 0 ++ leBytes 8 unit ++ leBytes 2 v
    ++ leBytes 6 0

/-- A DSEMTS entry: the range is of EFI persistent memory. -/
def cdatEfi (handle n : Nat) : List Byte :=
  leBytes 2 4 ++ leBytes 2 24 ++ leBytes 1 handle ++ leBytes 1 14 ++ leBytes 2 0 ++ leBytes 8 0 ++ leBytes 8 n

/-- The entries of one memory range: latencies in ns (unit 1,000 ps), bandwidths in tenths of GB/s (unit 100 MB/s). -/
def cdatMemory (handle base n rl wl rb wb : Nat) : List (List Byte) :=
  [cdatRange handle base n, cdatLatency handle 1 1000 rl, cdatLatency handle 2 1000 wl,
   cdatLatency handle 4 100 rb, cdatLatency handle 5 100 wb, cdatEfi handle n]

/-- The CDAT's entries: the persistent partition, and the scratch window once a carve-out is in effect. -/
def cdatEntries (s : State) : List (List Byte) :=
  let b := Config.cdatBandwidth s.config
  cdatMemory 0 0 (Config.capacity s.config) 330 90 b.1 b.2
    ++ (if 0 < scratchSteps s then cdatMemory 1 Config.scratchBase 0x10000000 70 90 1000 1000 else [])

/-- The whole table's header: length, revision 1, sequence 0; the checksum makes the bytes sum to zero. -/
def cdatHeader (s : State) : List Byte :=
  let body := (cdatEntries s).flatten
  let h := leBytes 4 (16 + body.length) ++ leBytes 1 1
  let sum := (h ++ body).foldl (fun a b => a + b.toNat) 0
  h ++ leBytes 1 (256 - sum % 256) ++ leBytes 10 0

/-- A read of entry `e`: response code 0, type 0, the next entry's handle, then the entry. -/
def tableAccess (e : Nat) (s : State) : State :=
  let all := cdatHeader s :: cdatEntries s
  match all[e]? with
  | some bs => emit (.doe 3 ([0, 0] ++ leBytes 2 (if e + 1 < all.length then e + 1 else 0xFFFF) ++ bs)) s
  | none => emit (.doe 3 ([0, 0] ++ leBytes 2 0xFFFF)) s

def execCxlTableAccess (entry : BitVec 16) (s : State) : Host.Outcome State Fault Refusal :=
  run (when (doeUp s) (tableAccess entry.toNat)) s

/-! ### SPDM and IDE (R56) -/

/-- The number an SPDM transport's negotiation is kept under. -/
def spdmNo : SpdmTransport → Nat
  | .doe => 0
  | .mctp => 1

/-- Does the responder answer: it runs on the hub? -/
def spdmUp (s : State) (via : SpdmTransport) : Bool :=
  match via with
  | .doe => doeUp s
  | .mctp => aonOn s && sbReady s && hubRuns s

/-- An SPDM ERROR response with its code (numbers of SPDM 1.2, PRESUMED, log 45). -/
def spdmError (via : SpdmTransport) (m : SpdmMessage) (code : Nat) (s : State) : State :=
  emit (.spdm via 0x7F m.session [BitVec.ofNat 8 code]) s

/-- A response to request `req`, with contents the manual does not give (log 6). -/
def spdmAnswer (via : SpdmTransport) (req : Nat) (m : SpdmMessage) (s : State) : State :=
  s |> emit (.spdm via (req - 0x80) m.session (Config.spdmData s.freeIx)) |> useFree

/-- The stage of a transport's negotiation. -/
def spdmStage (s : State) (via : SpdmTransport) : Nat := tabGet 0 s.host.spdm.stage (spdmNo via)

def setStage (via : SpdmTransport) (n : Nat) (s : State) : State :=
  onHost (fun h => { h with spdm := { h.spdm with stage := tabSet 0 (spdmNo via) n h.spdm.stage } }) s

/-- A negotiation request: it needs stage `need`, leaves stage `next`, and is answered with `out`, the response from its
first parameter on. -/
def spdmNegotiate (req need next : Nat) (out : List Byte) (via : SpdmTransport) (m : SpdmMessage) (s : State) : State :=
  if !spdmUp s via then s
  else if spdmStage s via < need then spdmError via m 4 s
  else s |> setStage via next |> emit (.spdm via (req - 0x80) m.session out)

/-- VERSION: the one version 1.2 (R5, R56; layouts of SPDM 1.2, PRESUMED, log 45). -/
def spdmVersions : List Byte := [0, 0, 0, 1] ++ leBytes 2 0x1200

/-- The capability flags that R56's requests amount to: certificates, challenge, signed measurements, encryption and message
authentication, key exchange, heartbeat, key update, SET_CERTIFICATE, GET_CSR. -/
def spdmFlags : Nat :=
  2 ^ 1 + 2 ^ 2 + 2 ^ 4 + 2 ^ 6 + 2 ^ 7 + 2 ^ 9 + 2 ^ 13 + 2 ^ 14 + 2 ^ 19 + 2 ^ 20

/-- CAPABILITIES: timeout exponent and message sizes are open (log 6). -/
def spdmCapabilities : List Byte :=
  [0, 0, 0] ++ leBytes 1 Config.spdmTimeout.val ++ leBytes 2 0 ++ leBytes 4 spdmFlags ++ leBytes 4 Config.spdmTransfer.val
    ++ leBytes 4 Config.spdmMessage.val

/-- ALGORITHMS (R56): SHA-384, ECDSA P-384, ECDHE on secp384r1, AES-256-GCM; no requester signing. -/
def spdmAlgorithms : List Byte :=
  [4, 0] ++ leBytes 2 52 ++ [1, 0] ++ leBytes 4 (2 ^ 2) ++ leBytes 4 (2 ^ 7) ++ leBytes 4 (2 ^ 1) ++ leBytes 16 0
    ++ [2, 0x20] ++ leBytes 2 (2 ^ 4) ++ [3, 0x20] ++ leBytes 2 (2 ^ 1) ++ [4, 0x20] ++ leBytes 2 0 ++ [5, 0x20] ++ leBytes 2 1

/-- A request that needs a negotiated connection, and `ok` of its own. -/
def spdmRequest (req : Nat) (ok : Bool) (via : SpdmTransport) (m : SpdmMessage) (work : State → State) (s : State) : State :=
  if !spdmUp s via then s
  else if spdmStage s via < 3 then spdmError via m 4 s
  else if !ok then spdmError via m 1 s
  else s |> work |> spdmAnswer via req m

def execGetVersion (via : SpdmTransport) (m : SpdmMessage) (s : State) : Host.Outcome State Fault Refusal :=
  run (spdmNegotiate 0x84 0 1 spdmVersions via m) s
def execGetCapabilities (via : SpdmTransport) (m : SpdmMessage) (s : State) : Host.Outcome State Fault Refusal :=
  run (spdmNegotiate 0xE1 1 2 spdmCapabilities via m) s
def execNegotiateAlgorithms (via : SpdmTransport) (m : SpdmMessage) (s : State) : Host.Outcome State Fault Refusal :=
  run (spdmNegotiate 0xE3 2 3 spdmAlgorithms via m) s

def execGetDigests (via : SpdmTransport) (m : SpdmMessage) (s : State) : Host.Outcome State Fault Refusal :=
  run (spdmRequest 0x81 true via m id) s

/-- Byte address of owner slot `k`'s 36 pages (R291): a length of two bytes, then the chain (log 57). -/
def certHome (k : Nat) : Nat := (3328 + 36 * (k - 1)) * 256

/-- The longest chain that a slot's pages hold. -/
def certRoom : Nat := 36 * 256 - 2

/-- The owner's chain in slot `k`; none where none was written. -/
def ownerCert (s : State) (k : Nat) : Option (List Byte) :=
  let n := sbNat s (certHome k) 2
  if k = 0 || certRoom < n then none else some (sbBytes s (certHome k + 2) n)

/-- Does a slot hold a certificate chain: slot 0 always, an owner slot once written? -/
def slotHasCert (s : State) (k : Nat) : Bool := k == 0 || (ownerCert s k).isSome

/-- The chain of a slot: the device's own in slot 0, the owner's in the others. -/
def getCertificate (via : SpdmTransport) (m : SpdmMessage) (s : State) : State :=
  match ownerCert s m.slot.val with
  | some c =>
    if !spdmUp s via then s
    else if spdmStage s via < 3 then spdmError via m 4 s
    else emit (.spdm via 0x02 m.session c) s
  | none => spdmRequest 0x82 (m.slot == 0) via m id s

def execGetCertificate (via : SpdmTransport) (m : SpdmMessage) (s : State) : Host.Outcome State Fault Refusal :=
  run (getCertificate via m) s

def execChallenge (via : SpdmTransport) (m : SpdmMessage) (s : State) : Host.Outcome State Fault Refusal :=
  run (spdmRequest 0x83 (slotHasCert s m.slot.val) via m id) s

/-- Five measurement indices; index 0 asks for their number and 0xFF for all. -/
def measureIndex (ix : Byte) : Bool := decide (ix.toNat ≤ 5) || ix == 0xFF

/-- The number of measurements is answered as five. -/
def getMeasurements (via : SpdmTransport) (m : SpdmMessage) (s : State) : State :=
  if m.index = 0 then
    if !spdmUp s via then s
    else if spdmStage s via < 3 then spdmError via m 4 s
    else emit (.spdm via 0x60 m.session [5]) s
  else spdmRequest 0xE0 (measureIndex m.index) via m id s

def execGetMeasurements (via : SpdmTransport) (m : SpdmMessage) (s : State) : Host.Outcome State Fault Refusal :=
  run (getMeasurements via m) s

/-- Is a session of that number open? -/
def sessionOpen (s : State) (n : BitVec 32) : Bool := s.host.spdm.sessions.any (fun x => x.1 == n)

/-- Is it established: FINISH has been done? -/
def sessionLive (s : State) (n : BitVec 32) : Bool := s.host.spdm.sessions.any (fun x => x.1 == n && x.2)

def onSessions (f : List (BitVec 32 × Bool) → List (BitVec 32 × Bool)) (s : State) : State :=
  onHost (fun h => { h with spdm := { h.spdm with sessions := f h.spdm.sessions } }) s

/-- A session opens in the shared table of four; a full table is an error. -/
def keyExchange (via : SpdmTransport) (m : SpdmMessage) (s : State) : State :=
  if spdmUp s via && decide (3 ≤ spdmStage s via) && decide (4 ≤ s.host.spdm.sessions.length) && !sessionOpen s m.session then
    spdmError via m 0x0A s
  else spdmRequest 0xE4 (slotHasCert s m.slot.val && !sessionOpen s m.session) via m (onSessions (fun l => l ++ [(m.session, false)])) s

def execKeyExchange (via : SpdmTransport) (m : SpdmMessage) (s : State) : Host.Outcome State Fault Refusal :=
  run (keyExchange via m) s

def execFinish (via : SpdmTransport) (m : SpdmMessage) (s : State) : Host.Outcome State Fault Refusal :=
  run (spdmRequest 0xE5 (sessionOpen s m.session && !sessionLive s m.session) via m
    (onSessions (fun l => l.map (fun x => if x.1 = m.session then (x.1, true) else x)))) s

def execKeyUpdate (via : SpdmTransport) (m : SpdmMessage) (s : State) : Host.Outcome State Fault Refusal :=
  run (spdmRequest 0xE9 (sessionLive s m.session) via m id) s

def execHeartbeat (via : SpdmTransport) (m : SpdmMessage) (s : State) : Host.Outcome State Fault Refusal :=
  run (spdmRequest 0xE8 (sessionLive s m.session) via m id) s

def execEndSession (via : SpdmTransport) (m : SpdmMessage) (s : State) : Host.Outcome State Fault Refusal :=
  run (spdmRequest 0xEC (sessionLive s m.session) via m (onSessions (fun l => l.filter (fun x => x.1 != m.session)))) s

def execGetCsr (via : SpdmTransport) (m : SpdmMessage) (s : State) : Host.Outcome State Fault Refusal :=
  run (spdmRequest 0xED true via m id) s

/-- An owner slot is written, in MAINTENANCE; slot 0 cannot be. The response leaves once the pages are stored (R296). -/
def setCertificate (via : SpdmTransport) (m : SpdmMessage) (s : State) : State :=
  if !spdmUp s via then s
  else if spdmStage s via < 3 then spdmError via m 4 s
  else if s.mode != .maintenance || m.slot == 0 || decide (certRoom < m.data.length) then spdmError via m 1 s
  else
    let bs := leBytes 2 m.data.length ++ m.data
    let s1 := sbStore (certHome m.slot.val) bs s
    let c : CertWait :=
      ⟨via, m.session, ((pagesOf (certHome m.slot.val) bs.length).filter (pageDirty s1)).foldl (fun t p => nsAdd p t) []⟩
    if c.pages.isEmpty then certAnswer true c s1
    else onHost (fun h => { h with spdm := { h.spdm with certWait := h.spdm.certWait ++ [c] } }) s1

def execSetCertificate (via : SpdmTransport) (m : SpdmMessage) (s : State) : Host.Outcome State Fault Refusal :=
  run (setCertificate via m) s

/-- The CXL.mem IDE stream's keys, over a secured session on DOE. -/
def cxlIdeKm (m : IdeKmMessage) (s : State) : State :=
  if doeUp s && sessionLive s m.session then
    s |> onHost (fun h => { h with ide := { h.ide with memKeys := m.go, memSkid := m.go && m.skid, insecure := h.ide.insecure && !m.go } })
      |> fbit F.HPT_LINK_STATUS_IDE_ACTIVE 0 m.go |> emit (.spdm .doe 0x7E m.session []) |> msix 7
  else s

def execCxlIdeKm (m : IdeKmMessage) (s : State) : Host.Outcome State Fault Refusal := run (cxlIdeKm m) s

/-- The CXL.io link stream's keys. -/
def ideKm (m : IdeKmMessage) (s : State) : State :=
  if doeUp s && sessionLive s m.session then
    s |> onHost (fun h => { h with ide := { h.ide with ioKeys := m.go } }) |> emit (.spdm .doe 0x7E m.session [])
  else s

def execIdeKm (m : IdeKmMessage) (s : State) : Host.Outcome State Fault Refusal := run (ideKm m) s

/-! ### MCTP control and the SMBus (R345, R380) -/

/-- The sideband's endpoint is there: recall has given it its address. -/
def mctpUp (s : State) : Bool := aonOn s && sbReady s

/-- Set Endpoint ID (command numbers of MCTP, PRESUMED, log 45). -/
def setEid (eid : Byte) (s : State) : State :=
  if mctpUp s then s |> onMbx (fun m => { m with eid := eid }) |> emit (.mctpControl 1 [0, eid]) else s

def execSetEndpointId (eid : Byte) (s : State) : Host.Outcome State Fault Refusal := run (setEid eid) s
def execGetEndpointId (s : State) : Host.Outcome State Fault Refusal :=
  run (when (mctpUp s) (emit (.mctpControl 2 [0, s.mbx.eid]))) s

/-- The UUID and the versions are contents that the manual does not give (log 6). -/
def execGetEndpointUuid (s : State) : Host.Outcome State Fault Refusal :=
  run (when (mctpUp s) (emit (.mctpControl 3 (Config.endpointUuid s.serial)))) s
def execGetMctpVersionSupport (s : State) : Host.Outcome State Fault Refusal :=
  run (when (mctpUp s) (emit (.mctpControl 4 Config.mctpVersions))) s

/-- Three message types: control, SPDM and the CXL CCI. -/
def execGetMessageTypeSupport (s : State) : Host.Outcome State Fault Refusal :=
  run (when (mctpUp s) (emit (.mctpControl 5 [0, 3, 0x00, 0x05, 0x08]))) s

def execSmbusClockLowTimeout (s : State) : Host.Outcome State Fault Refusal := run (when (aonOn s) (emit .smbusRelease)) s

end Sys2Proof.Machine
end

