-- ==== Sys2Proof/Machine/Auth.lean ====
section
/-! DEFINITION. Authorisation (R340 to R344), and the device and mode commands (R346, R347): status and nonces, changes of
mode, the release of a brake, the owner key. -/
namespace Sys2Proof.Machine

/-! ### Nonces (R340) -/

/-- A nonce lives 60 s. -/
def nonceLife : Nat := 60000000000

/-- The nonce a transport holds, if it has not expired. -/
def liveNonce (s : State) (via : Transport) : Option Nonce :=
  match nonceOf s (viaNo via) with
  | some n => if s.gtc < n.issued + nonceLife then some n else none
  | none => none

/-- The transport's nonce is consumed. -/
def dropNonce (via : Transport) (s : State) : State := onMbx (fun m => { m with nonces := tabDel (viaNo via) m.nonces }) s

/-- A nonce expires. -/
def nonceExpiry (via : Transport) (s : State) : State :=
  match nonceOf s (viaNo via) with
  | some n => s |> advanceTo (n.issued + nonceLife) |> dropNonce via
  | none => s

def execNonceExpiry (via : Transport) (s : State) : Host.Outcome State Fault Refusal := run (nonceExpiry via) s

/-- A fresh nonce for a transport (R340). -/
def issueNonce (via : Transport) (s : State) : State :=
  s |> onMbx (fun m => { m with nonces := tabPut (viaNo via) ⟨Config.nonce s.freeIx, s.gtc⟩ m.nonces }) |> useFree

/-! ### Tokens and the lockout (R341 to R344) -/

/-- The token of a nonce, an opcode and the payload before it, under the owner key. -/
def tokenFor (key : List Byte) (n : Nonce) (op : Nat) (args : List Byte) : List Byte :=
  (hmacSha256 key (leBytes 16 n.value.toNat ++ leBytes 2 op ++ args)).take 16

/-- The lockout runs: `lockAt` is the stamp of its end. -/
def lockedOut (s : State) : Bool := s.mbx.lockAt != 0

/-- The lockout ends. -/
def lockoutEnd (s : State) : State :=
  if lockedOut s then s |> advanceTo s.mbx.lockAt |> onMbx (fun m => { m with lockAt := 0 }) else s

def execLockoutEnd (s : State) : Host.Outcome State Fault Refusal := run lockoutEnd s

/-- A refusal for a nonce or a token is counted (R361). -/
def countAuthFail (s : State) : State := s |> finc F.MBX_AUTH_FAIL_COUNT 0 |> fset F.MBX_ERR_AUTH_FAIL 0

/-- A token failure: the fourth in a row begins a lockout of 10 s. -/
def tokenFails (s : State) : State :=
  if s.mbx.fails = 3 then
    s |> onMbx (fun m => { m with fails := 0, lockAt := s.gtc + 10000000000 }) |> fset F.MBX_ERR_LOCKOUT 0
  else onMbx (fun m => { m with fails := m.fails + 1 }) s

/-- Steps 1 to 3 of R342: the vendor status, 0 when the token is valid, and what the checks leave behind. -/
def checkToken (via : Transport) (op : Nat) (input : List Byte) (s : State) : Nat × State :=
  let n := input.length - 16
  if lockedOut s then (vsLockout, s)
  else match liveNonce s via with
  | none => (vsNonceNone, s |> dropNonce via |> countAuthFail)
  | some x =>
    let s1 := dropNonce via s
    match ownerKey s with
    | none => (vsTokenBad, countAuthFail s1)
    | some k =>
      if tokenFor k x op (input.take n) = input.drop n then (0, onMbx (fun m => { m with fails := 0 }) s1)
      else (vsTokenBad, s1 |> countAuthFail |> tokenFails)

/-- The AUTH record: opcode, return code, the first four words of the arguments (R269). -/
def authRecord (op vs : Nat) (input : List Byte) (s : State) : State :=
  land 0x0F 7 srcHub 0 (some ([op, rcOf vs] ++ wordsOf 4 (input.take (input.length - 16) ++ List.replicate 16 0))) s

/-- An authorised command past its length check: the checks of R342 in order, the hub's gate and its own conditions last; `act`
is what it does when all hold. -/
def authorised (via : Transport) (op : Nat) (input : List Byte) (own : State → Nat) (act : State → State) (s : State) : State :=
  let x := checkToken via op input s
  let gate := hubGate s via op
  let vs := if x.1 ≠ 0 then x.1 else if gate ≠ 0 then gate else own x.2
  if vs = 0 then x.2 |> act |> authRecord op 0 input
  else x.2 |> authRecord op vs input |> refuse via op vs

/-! ### Get Device Status (R346) -/

/-- The firmware version in a slot (R189). -/
def fwVersionOf (s : State) (slot : Nat) : Nat := tabGet (Config.factoryFirmware slot).toNat s.life.fwVersion slot

/-- A number in case the hub runs, else 0 (R346). -/
def ifCore (s : State) (n : Nat) : Nat := if coreOn s then n else 0

/-- The status payload but its nonce and GTC. -/
def deviceStatus (s : State) : List Byte :=
  leBytes 1 (Config.configByte s.config) ++ leBytes 1 (modeCode s.mode) ++ leBytes 1 (ifCore s (condition s))
    ++ leBytes 1 (fget s F.HUB_MODE_HOLD 0 + (hubRuns s).toNat * 2 + ifCore s (cacheBypass s).toNat * 4
        + (ownerKey s).isSome.toNat * 8 + fget s F.REC_STATUS_FAIL 0 * 16)
    ++ leBytes 4 (if hubRuns s then fwVersionOf s s.life.fwRunning else 0) ++ leBytes 8 s.serial.toNat
    ++ leBytes 4 (match shutdownRec s with | some (d, _) => d | none => 0)
    ++ leBytes 1 ((storedWord s (homeOps + 4)).getD 0) ++ leBytes 1 (fget s F.PEL_STATUS_DEVID 0) ++ [0, 0]

/-- Get Device Status; with NONCE_REQ it issues a nonce. -/
def getDeviceStatus (via : Transport) (input : List Byte) (s : State) : State :=
  if 1 < leAt 0 1 input || !rsvOk 1 3 input then refuse via 0xC000 vsBadArg s
  else if leAt 0 1 input = 1 then
    let s1 := issueNonce via s
    succeed via 0xC000 (deviceStatus s1 ++ leBytes 16 (Config.nonce s.freeIx).toNat ++ leBytes 8 s.gtc) s1
  else succeed via 0xC000 (deviceStatus s ++ leBytes 16 0 ++ leBytes 8 s.gtc) s

def execGetDeviceStatus (via : Transport) (input : List Byte) (s : State) : Host.Outcome State Fault Refusal :=
  run (command via 0xC000 .any (len 4) input (getDeviceStatus via input)) s

/-- The same command with NONCE_REQ set. -/
def execNonceFetch (via : Transport) (input : List Byte) (s : State) : Host.Outcome State Fault Refusal :=
  run (command via 0xC000 .any (len 4) input (getDeviceStatus via input)) s

/-! ### Change Mode (R185, R200, R202, R347) -/

/-- Its length: a token for TARGET 5. -/
def modeLen (input : List Byte) : Nat → Bool := fun n => n == (if leAt 0 1 input = 5 then 20 else 4)

/-- The command waits for the mode (R347). -/
def awaitMode (via : Transport) (s : State) : State := onMbx (fun m => { m with fg := m.fg ++ [⟨some via, 0xC001, [], [], []⟩] }) s

/-- Every margin starts on its way back to nominal; the command that waits for one still hears its end (R202). -/
def marginsHome (s : State) : State := forEach s.seq.margins (fun x s => if x.2.action = 4 then s else startNominal x.1 x.2.via s) s

/-- Change Mode. The AON endpoint serves only a request for RAMP (R188). -/
def changeMode (via : Transport) (input : List Byte) (s : State) : State :=
  let target := leAt 0 1 input
  if endpoint s via = .aon && target ≠ 2 then refuse via 0xC001 vsNotReady s
  else if target = 5 then
    authorised via 0xC001 input
      (fun s => if !rsvOk 1 3 input then vsBadArg else if s.mode = .service then 0 else vsWrongMode)
      (fun s => s |> onLife (fun l => { l with toMaintenance := true, acceptedAt := s.stamp }) |> awaitMode via) s
  else if hubGate s via 0xC001 ≠ 0 then refuse via 0xC001 (hubGate s via 0xC001) s
  else if !rsvOk 1 3 input || !(target == 2 || target == 4) then refuse via 0xC001 vsBadArg s
  else if target = 2 then
    if s.mode = .standby then s |> onLife (fun l => { l with rampRequest := true, acceptedAt := s.stamp }) |> succeed via 0xC001 [1]
    else refuse via 0xC001 vsWrongMode s
  else if s.mode = .maintenance then
    s |> marginsHome |> onLife (fun l => { l with toService := true, acceptedAt := s.stamp }) |> awaitMode via
  else refuse via 0xC001 vsWrongMode s

def execChangeModeRamp (via : Transport) (input : List Byte) (s : State) : Host.Outcome State Fault Refusal :=
  run (command via 0xC001 .own (modeLen input) input (changeMode via input)) s

def execChangeModeService (via : Transport) (input : List Byte) (s : State) : Host.Outcome State Fault Refusal :=
  run (command via 0xC001 .own (modeLen input) input (changeMode via input)) s

def execChangeModeMaintenance (via : Transport) (input : List Byte) (s : State) : Host.Outcome State Fault Refusal :=
  run (command via 0xC001 .own (modeLen input) input (changeMode via input)) s

/-! ### Brake Release (R205, R347) -/

/-- The hold is left for STANDBY in the tick after a Brake Release is accepted (R184, R185). -/
def leaveHold (s : State) : State :=
  if s.life.toStandby && s.mode = .brake then
    s |> onPins (fun p => { p with fault := false }) |> finc F.HUB_BRAKE_RELEASES 0 |> fclr F.HUB_MODE_HOLD 0
      |> onFw (fun _ => fwReset) |> onLife (fun l => { l with toStandby := false }) |> enterStandby
  else s

/-- Brake Release. -/
def brakeRelease (via : Transport) (input : List Byte) (s : State) : State :=
  authorised via 0xC002 input
    (fun s => if !(s.mode = .brake && fon s F.HUB_MODE_HOLD 0) then vsWrongMode
      else if !rsvOk 1 3 input then vsBadArg
      else if leAt 0 1 input = fget s F.HUB_BRAKE_CAUSE 0 then 0 else vsMismatch)
    (fun s => s |> onLife (fun l => { l with toStandby := true, acceptedAt := s.stamp }) |> succeed via 0xC002 []) s

def execBrakeRelease (via : Transport) (input : List Byte) (s : State) : Host.Outcome State Fault Refusal :=
  run (command via 0xC002 .own (len 20) input (brakeRelease via input)) s

/-! ### Set Owner Key (R343) -/

/-- The key is stored in both copies; the command completes when they are. -/
def storeOwnerKey (via : Transport) (key : List Byte) (s : State) : State :=
  let bs := key ++ leBytes 4 (crc32 key)
  s |> sbStore (4033 * 256) bs |> sbStore (4034 * 256) bs |> finishStored via 0xC003 [4033, 4034] [] []

/-- Set Owner Key: without a token while no key is stored. -/
def setOwnerKey (via : Transport) (input : List Byte) (s : State) : State :=
  if (ownerKey s).isSome then
    authorised via 0xC003 input (fun s => if inService s then 0 else vsWrongMode) (storeOwnerKey via (input.take 32)) s
  else if hubGate s via 0xC003 ≠ 0 then refuse via 0xC003 (hubGate s via 0xC003) s
  else if inService s then storeOwnerKey via input s
  else refuse via 0xC003 vsWrongMode s

def execSetOwnerKey (via : Transport) (input : List Byte) (s : State) : Host.Outcome State Fault Refusal :=
  run (command via 0xC003 .own (len (if (ownerKey s).isSome then 48 else 32)) input (setOwnerKey via input)) s

/-! ### Clear Recorder, Set Saddlebag Protection, Promote Mirror (R285, R302, R326) -/

/-- The CLEAR record's fixed snapshot (R286); `n` is the nonce of the attempt. -/
def clearSnap (s : State) (n : Option Nonce) : List Nat :=
  wordsOf 4 (leBytes 16 (match n with | some x => x.value.toNat | none => 0))
    ++ [(fget s F.REC_SEQ_SEQ 0 + (2 ^ 32 - 1)) % 2 ^ 32, (circRecords s).length, (viewWord s F.REC_OLDEST_SEQ.base).getD 0,
        (viewWord s F.REC_STATUS_SCANNING.base).getD 0]

/-- Clear Recorder. -/
def clearRecorder (via : Transport) (input : List Byte) (s0 : State) : State :=
  authorised via 0xC023 input
    (fun s => if !accepted s .hub then vsWrongMode
      else if leAt 0 4 input ≠ (fget s F.REC_SEQ_SEQ 0 + (2 ^ 32 - 1)) % 2 ^ 32 then vsMismatch
      else if recVolatile s || s.rcd.clearing.isSome then vsConflict else 0)
    (fun s => s |> onRcd (fun r => { r with clearing := some (some via) })
      |> land 0x10 7 srcHub 0 (some (clearSnap s (liveNonce s0 via)))) s0

def execClearRecorder (via : Transport) (input : List Byte) (s : State) : Host.Outcome State Fault Refusal :=
  run (command via 0xC023 .own (len 20) input (clearRecorder via input)) s

/-- Set Saddlebag Protection: the counter's store, then the new value in the tick after it; the answer is the old one. -/
def setProtection (via : Transport) (input : List Byte) (s : State) : State :=
  authorised via 0xC02B input
    (fun s => if s.mode ≠ .maintenance then vsWrongMode
      else if 3 < leAt 0 1 input || !rsvOk 1 3 input then vsBadArg else 0)
    (fun s => s |> ctrUpdate ctrProtect (leAt 0 1 input)
      |> finishStored via 0xC02B [4032] [(ctrProtect, 32)] (leBytes 1 (fget s F.SBG_STATUS_BP 0))) s

def execSetSaddlebagProtection (via : Transport) (input : List Byte) (s : State) : Host.Outcome State Fault Refusal :=
  run (command via 0xC02B .own (len 20) input (setProtection via input)) s

/-- The holder side of Promote Mirror: refused while the link is up or the partner shows that it serves. -/
def promoteHolderOwn (s : State) : Nat := if tndUp s || partnerServes s then vsConflict else 0

/-- The owner side: with the link up only once the resynchronisation is complete, without it only while the partner does not
show PROMOTED. -/
def promoteOwnerOwn (s : State) : Nat :=
  if tndUp s then (if fon s F.TND_STATUS_RESYNC 0 || !s.tnd.resync.isEmpty then vsConflict else 0)
  else if s.tnd.peerPromoted then vsConflict else 0

/-- A conflict that both sides' CONFIG showed is resolved by the host's choice (R326): LINK goes back to waiting. -/
def endConflict (s : State) : State :=
  if fget s F.TND_STATUS_LINK 0 = 6 then fput F.TND_STATUS_LINK 0 4 s else s

/-- The holder promotes a copy it holds; without one there is nothing to promote. -/
def doPromoteHolder (via : Transport) (s : State) : State :=
  let copy := fget s F.TND_STATUS_PEER_COPY 0
  if copy = 1 || copy = 2 then s |> promoteHolder |> endConflict |> succeed via 0xC074 [0]
  else if copy = 3 && !s.tnd.promoted then
    s |> onTnd (fun t => { t with promoted := true }) |> endConflict |> succeed via 0xC074 [0]
  else succeed via 0xC074 [1] s

/-- The owner takes its regions back: by ROLE over the link, or alone, unmirrored and divergent. -/
def doPromoteOwner (via : Transport) (s : State) : State :=
  let own := fget s F.TND_STATUS_OWN 0
  if s.tnd.own.isEmpty || (own = 0 && fget s F.TND_STATUS_LINK 0 ≠ 6) then succeed via 0xC074 [1] s
  else if tndUp s then
    s |> onTnd (fun t => { t with roleSent := true }) |> emit (.tandem (.role 0)) |> succeed via 0xC074 [0]
  else s |> setTnd F.TND_STATUS_OWN 0 |> divergeOwn |> endConflict |> succeed via 0xC074 [0]

/-- Promote Mirror: SIDE chooses. -/
def promoteMirror (via : Transport) (input : List Byte) (s : State) : State :=
  let holder := leAt 0 1 input = 0
  authorised via 0xC074 input
    (fun s => if !inService s then vsWrongMode
      else if 1 < leAt 0 1 input || !rsvOk 1 3 input then vsBadArg
      else if holder then promoteHolderOwn s else promoteOwnerOwn s)
    (if holder then doPromoteHolder via else doPromoteOwner via) s

def execPromoteMirrorHolder (via : Transport) (input : List Byte) (s : State) : Host.Outcome State Fault Refusal :=
  run (command via 0xC074 .own (len 20) input (promoteMirror via input)) s

def execPromoteMirrorOwner (via : Transport) (input : List Byte) (s : State) : Host.Outcome State Fault Refusal :=
  run (command via 0xC074 .own (len 20) input (promoteMirror via input)) s

end Sys2Proof.Machine
end

