-- ==== Sys2Proof/Machine/MbxStd.lean ====
section
/-! DEFINITION. The standard commands (R338): identity, events, firmware, time, logs, capacity, the label storage area, health,
poison, media scan and erase; and the end of background operations that are aborted (R336). Where the manual names a
payload of CXL 3.1 without its layout, the layout is CXL's (PRESUMED, log 45). -/
namespace Sys2Proof.Machine

/-! ### Identity (R36, R338) -/

/-- The subsystem identifiers as stored (R36, R386). -/
def subsystem (s : State) : Nat := (storedWord s (832 * 256)).getD (0x1F9D + Config.deviceId s.config * 65536)

/-- Identify. -/
def identifyOut (via : Transport) (s : State) : List Byte :=
  leBytes 2 0x1F9D ++ leBytes 2 (Config.deviceId s.config) ++ leBytes 4 (subsystem s) ++ leBytes 8 s.serial.toNat
    ++ leBytes 1 (if via = .mctp then 12 else 16) ++ leBytes 1 3

def execIdentify (via : Transport) (input : List Byte) (s : State) : Host.Outcome State Fault Refusal :=
  run (command via 0x0001 .any (len 0) input (fun s => succeed via 0x0001 (identifyOut via s) s)) s

/-! ### Background operations (R335, R336) -/

/-- Operations that no abort stops. -/
def notAbortable (op : Nat) : Bool := eraseOp op || op == 0x0201 || op == 0x0202

/-- Status, opcode, return code and extended status of the background operation. -/
def bgStatus (s : State) : List Byte :=
  match s.mbx.bg, s.mbx.last with
  | some b, _ => leBytes 1 (1 + 2 * bgPct s) ++ [0] ++ leBytes 2 b.opcode ++ leBytes 2 0 ++ leBytes 2 (notAbortable b.opcode).toNat
  | none, some (op, r, _) => leBytes 1 200 ++ [0] ++ leBytes 2 op ++ leBytes 2 r.rc ++ leBytes 2 0
  | none, none => leBytes 8 0

def execBackgroundOperationStatus (via : Transport) (input : List Byte) (s : State) : Host.Outcome State Fault Refusal :=
  run (command via 0x0002 .any (len 0) input (fun s => succeed via 0x0002 (bgStatus s) s)) s

/-- Request Abort: an operation that can be aborted stops at its next safe point; bypass stops at once. -/
def requestAbort (via : Transport) (s : State) : State :=
  match s.mbx.bg with
  | none => succeed via 0x0005 [] s
  | some b =>
    if notAbortable b.opcode || (b.opcode == 0xC051 && !b.pages.isEmpty) then succeed via 0x0005 [] s
    else if b.opcode = 0xC051 then s |> stopFlush |> endBg ⟨0x12, 0⟩ [] |> succeed via 0x0005 []
    else s |> onMbx (fun m => { m with abortReq := true }) |> succeed via 0x0005 []

def execRequestAbortBackgroundOperation (via : Transport) (input : List Byte) (s : State) : Host.Outcome State Fault Refusal :=
  run (command via 0x0005 .any (len 0) input (requestAbort via)) s

/-- The safe point: the line in progress is done; a measurement releases HOLD_LOAD and is not counted as rejected. -/
def abortStop (s : State) : State :=
  match s.mbx.bg with
  | none => s
  | some b =>
    if !s.mbx.abortReq || b.filling then s
    else if b.opcode = 0xC042 then s |> endCapTest |> endBg ⟨0x12, 0⟩ []
    else endBg ⟨0x12, 0⟩ (bgOut b) s

def execBackgroundAbortStop (s : State) : Host.Outcome State Fault Refusal := run abortStop s

/-! ### Event logs (R41, R42, R53) -/

/-- The host's time at a GTC stamp: what it set, counted on; 0 while it has set none. -/
def hostTime (s : State) (g : Nat) : Nat := if s.host.timestamp = 0 then 0 else (s.host.timestamp + g - s.host.timestampGtc) % 2 ^ 64

/-- Words `a` to `a` + n - 1 of an event's identifier and body, as bytes. -/
def eventBytes (e : CxlEvent) (a n : Nat) : List Byte :=
  (List.range n).flatMap (fun i => leBytes 4 (Config.eventWord e.kind e.sub e.dpa e.handle e.stamp (a + i)).val)

/-- An event record: identifier, length and flags, handles, time, body. -/
def eventRecord (s : State) (log : Nat) (e : CxlEvent) : List Byte :=
  eventBytes e 0 4 ++ leBytes 1 128 ++ leBytes 3 log ++ leBytes 2 e.handle ++ leBytes 2 0 ++ leBytes 8 (hostTime s e.stamp)
    ++ leBytes 16 0 ++ eventBytes e 4 20

/-- Get Event Records: the oldest records that fit. -/
def getEvents (via : Transport) (input : List Byte) (s : State) : State :=
  let log := leAt 0 1 input
  let l := tabGet logReset s.host.logs log
  if 3 < log then refuseStd via 0x0100 2 s
  else succeed via 0x0100
    (leBytes 1 l.overflow.toNat ++ [0] ++ leBytes 2 (min 65535 l.lost)
      ++ leBytes 8 (if l.overflow then hostTime s l.firstLost else 0) ++ leBytes 8 (if l.overflow then hostTime s l.lastLost else 0)
      ++ leBytes 2 l.recs.length ++ leBytes 10 0 ++ l.recs.flatMap (eventRecord s log)) s

def execGetEventRecords (via : Transport) (input : List Byte) (s : State) : Host.Outcome State Fault Refusal :=
  run (command via 0x0100 .any (len 1) input (getEvents via input)) s

/-- The handles of a Clear Event Records. -/
def clearHandles (input : List Byte) : List Nat := (List.range (leAt 2 1 input)).map (fun i => leAt (6 + 2 * i) 2 input)

/-- Clear Event Records: all of a log, or its oldest records by handle; the overflow is over with it. -/
def clearEvents (via : Transport) (input : List Byte) (s : State) : State :=
  let log := leAt 0 1 input
  let l := tabGet logReset s.host.logs log
  let hs := clearHandles input
  let put (rs : List CxlEvent) (s : State) : State :=
    onHost (fun h => { h with logs := tabSet logReset log { l with recs := rs, overflow := false, lost := 0, firstLost := 0, lastLost := 0 } h.logs }) s
  if 3 < log then refuseStd via 0x0101 2 s
  else if leAt 1 1 input % 2 = 1 then s |> put [] |> succeed via 0x0101 []
  else if (l.recs.take hs.length).map (fun e => e.handle) = hs then s |> put (l.recs.drop hs.length) |> succeed via 0x0101 []
  else refuseStd via 0x0101 2 s

def execClearEventRecords (via : Transport) (input : List Byte) (s : State) : Host.Outcome State Fault Refusal :=
  run (command via 0x0101 .any (fun n => decide (6 ≤ n) && n == 6 + 2 * leAt 2 1 input) input (clearEvents via input)) s

/-- The policy: each log's mode with its vector. -/
def policyOut (s : State) : List Byte :=
  (List.range 4).map (fun i => BitVec.ofNat 8 ((s.host.intPolicy.getD i 0).toNat % 4 + (2 + i) * 16))

def execGetEventInterruptPolicy (via : Transport) (input : List Byte) (s : State) : Host.Outcome State Fault Refusal :=
  run (command via 0x0102 .any (len 0) input (fun s => succeed via 0x0102 (policyOut s) s)) s

/-- Set Event Interrupt Policy: none or MSI-X only. -/
def setPolicy (via : Transport) (input : List Byte) (s : State) : State :=
  if input.any (fun b => decide (1 < b.toNat % 4)) then refuseStd via 0x0103 2 s
  else s |> onHost (fun h => { h with intPolicy := input }) |> succeed via 0x0103 []

def execSetEventInterruptPolicy (via : Transport) (input : List Byte) (s : State) : Host.Outcome State Fault Refusal :=
  run (command via 0x0103 .any (len 4) input (setPolicy via input)) s

/-! ### Firmware (R15, R189, R201, R338) -/

/-- Two slots: the running one, the one staged for the next start, online activation possible, their versions. -/
def fwInfo (s : State) : List Byte :=
  let staged := if newerSlot s = s.life.fwRunning then 0 else newerSlot s + 1
  leBytes 1 2 ++ leBytes 1 (s.life.fwRunning + 1 + 8 * staged) ++ leBytes 1 1 ++ leBytes 13 0
    ++ leBytes 16 (fwVersionOf s 0) ++ leBytes 16 (fwVersionOf s 1) ++ leBytes 32 0

def execGetFwInfo (via : Transport) (input : List Byte) (s : State) : Host.Outcome State Fault Refusal :=
  run (command via 0x0200 .any (len 0) input (fun s => succeed via 0x0200 (fwInfo s) s)) s

/-- The image is whole: its slot takes its version, which only the image knows (log 6). -/
def fwReceived (s : State) : State :=
  s |> onLife (fun l => { l with fwVersion := tabPut (1 - l.fwRunning) (freeValue s % 2 ^ 32) l.fwVersion, fwParts := 0 }) |> useFree

/-- Transfer FW, one part of at most 64 KiB, into the slot not running: 0 whole, 1 first, 2 next, 3 last, 4 abort. It is a
background operation that ends with its part (log 46). -/
def transferFw (via : Transport) (input : List Byte) (s : State) : State :=
  let action := leAt 0 1 input
  let slot := leAt 1 1 input
  let off := leAt 4 4 input
  let n := input.length - 128
  let next := s.life.fwParts
  let go (work : State → State) : State :=
    startBg via 0x0201 (bgPlain via 0x0201) (fun s => s |> work |> endBg ⟨0, 0⟩ []) s
  let parts (k : Nat) (s : State) : State := onLife (fun l => { l with fwParts := k }) s
  if s.mode ≠ .maintenance then refuse via 0x0201 vsWrongMode s
  else if 4 < action || 65536 < n then refuseStd via 0x0201 2 s
  else if action = 4 then go (parts 0)
  else if (action = 0 || action = 3) && slot ≠ 2 - s.life.fwRunning then refuseStd via 0x0201 0x0B s
  else if action = 0 then (if next ≠ 0 then refuseStd via 0x0201 8 s else go fwReceived)
  else if action = 1 then (if next ≠ 0 then refuseStd via 0x0201 8 s else go (parts (1 + n / 128)))
  else if next = 0 || off + 1 ≠ next then refuseStd via 0x0201 9 s
  else if action = 2 then go (parts (next + n / 128)) else go fwReceived

def execTransferFw (via : Transport) (input : List Byte) (s : State) : Host.Outcome State Fault Refusal :=
  run (command via 0x0201 .any (fun n => decide (128 ≤ n)) input (transferFw via input)) s

/-- The slot that a successful activation names is stored (R386). -/
def storeSlot (slot : Nat) (s : State) : State := sbStore (homeOps + 8) (leBytes 4 slot) s

/-- Activate FW: 0 online, a background operation; 1 offline, for the next RAMP. -/
def activateFw (via : Transport) (input : List Byte) (s : State) : State :=
  let action := leAt 0 1 input
  let slot := leAt 1 1 input
  if s.mode ≠ .maintenance then refuse via 0x0202 vsWrongMode s
  else if 1 < action then refuseStd via 0x0202 2 s
  else if slot = 0 || 2 < slot then refuseStd via 0x0202 0x0B s
  else if action = 1 then s |> storeSlot (slot - 1) |> finishStored via 0x0202 [homeOps / 256] [] []
  else startBg via 0x0202 (bgPlain via 0x0202) (onLife (fun l => { l with activating := true, actSlot := slot - 1 })) s

def execActivateFw (via : Transport) (input : List Byte) (s : State) : Host.Outcome State Fault Refusal :=
  run (command via 0x0202 .any (len 2) input (activateFw via input)) s

/-- An online activation ends: the image runs, or it fails its authentication and the running image stays. -/
def activationEnd (authentic : Bool) (s : State) : State :=
  if s.mode = .maintenance && s.life.activating then
    let s1 := onLife (fun l => { l with activating := false }) s
    if authentic then
      s1 |> onLife (fun l => { l with fwRunning := l.actSlot, fwBad := nsDel l.actSlot l.fwBad })
        |> fput F.HUB_RESTART_FW_SLOT 0 s.life.actSlot |> storeSlot s.life.actSlot |> endBgStored [homeOps / 256] |> msix 6
    else s1 |> onLife (fun l => { l with fwBad := nsAdd l.actSlot l.fwBad }) |> endBg ⟨0x0C, 0⟩ []
  else s

def execFwActivationComplete (authentic : Bool) (s : State) : Host.Outcome State Fault Refusal := run (activationEnd authentic) s

/-! ### Time and logs -/

def execGetTimestamp (via : Transport) (input : List Byte) (s : State) : Host.Outcome State Fault Refusal :=
  run (command via 0x0300 .any (len 0) input (fun s => succeed via 0x0300 (leBytes 8 (hostTime s s.gtc)) s)) s

/-- Set Timestamp: a TIMESTAMP record holds the host's time and the GTC at acceptance (R269). -/
def setTimestamp (via : Transport) (input : List Byte) (s : State) : State :=
  let t := leAt 0 8 input
  s |> onHost (fun h => { h with timestamp := t, timestampGtc := s.gtc })
    |> land 0x13 7 srcHub 0 (some [t % 2 ^ 32, t / 2 ^ 32, s.gtc % 2 ^ 32, s.gtc / 2 ^ 32]) |> succeed via 0x0301 []

def execSetTimestamp (via : Transport) (input : List Byte) (s : State) : Host.Outcome State Fault Refusal :=
  run (command via 0x0301 .any (len 8) input (setTimestamp via input)) s

/-- The standard opcodes that are supported (R338). -/
def stdOpcodes : List Nat :=
  [0x0001, 0x0002, 0x0005, 0x0100, 0x0101, 0x0102, 0x0103, 0x0200, 0x0201, 0x0202, 0x0300, 0x0301, 0x0400, 0x0401]
    ++ [0x4000, 0x4100, 0x4102, 0x4103, 0x4200, 0x4201, 0x4202, 0x4203, 0x4204, 0x4300, 0x4301, 0x4302]
    ++ [0x4303, 0x4304, 0x4305, 0x4400, 0x4401]

/-- The vendor opcodes (R346 to R358). -/
def vendorOpcodes : List Nat :=
  [0xC000, 0xC001, 0xC002, 0xC003, 0xC004, 0xC008, 0xC009, 0xC00F, 0xC010, 0xC011, 0xC012, 0xC013, 0xC014, 0xC015]
    ++ [0xC020, 0xC021, 0xC022, 0xC023, 0xC024, 0xC028, 0xC029, 0xC02B, 0xC030, 0xC031, 0xC032, 0xC033, 0xC034]
    ++ [0xC040, 0xC041, 0xC042, 0xC050, 0xC051, 0xC052, 0xC053, 0xC054, 0xC060, 0xC061, 0xC062, 0xC063]
    ++ [0xC070, 0xC071, 0xC072, 0xC073, 0xC074, 0xC0F0, 0xC0F1]

/-- The Command Effects Log: an opcode and its effects, which the manual does not give (log 6). -/
def effectsLog : List Byte := (stdOpcodes ++ vendorOpcodes).flatMap (fun o => leBytes 2 o ++ leBytes 2 (Config.commandEffect o).val)

/-- The log's identifier (CXL's, PRESUMED, log 45). -/
def effectsUuid : List Byte :=
  [0x0d, 0xa9, 0xc0, 0xb5, 0xbf, 0x41, 0x4b, 0x78, 0x8f, 0x79, 0x96, 0xb1, 0x62, 0x3b, 0x3f, 0x17]

def execGetSupportedLogs (via : Transport) (input : List Byte) (s : State) : Host.Outcome State Fault Refusal :=
  run (command via 0x0400 .any (len 0) input
    (succeed via 0x0400 (leBytes 2 1 ++ leBytes 6 0 ++ effectsUuid ++ leBytes 4 effectsLog.length))) s

/-- Get Log: part of the Command Effects Log, the only one. -/
def getLog (via : Transport) (input : List Byte) (s : State) : State :=
  let off := leAt 16 4 input
  let n := leAt 20 4 input
  if input.take 16 ≠ effectsUuid || effectsLog.length < off + n then refuseStd via 0x0401 2 s
  else succeed via 0x0401 ((effectsLog.drop off).take n) s

def execGetLog (via : Transport) (input : List Byte) (s : State) : Host.Outcome State Fault Refusal :=
  run (command via 0x0401 .any (len 24) input (getLog via input)) s

/-! ### Capacity and labels (R42, R43, R291) -/

/-- Total capacity in 256 MiB units: the S416's scratch window counts once a carve-out is in effect. -/
def totalUnits (s : State) : Nat := Config.capacityUnits s.config + (decide (0 < scratchSteps s)).toNat

/-- Identify Memory Device (R42); the last field, the Dynamic Capacity Event Log's size, is 0 (R32). -/
def memoryDevice (s : State) : List Byte :=
  leBytes 16 (fwVersionOf s s.life.fwRunning) ++ leBytes 8 (totalUnits s) ++ leBytes 8 0 ++ leBytes 8 (totalUnits s) ++ leBytes 8 0
    ++ leBytes 2 64 ++ leBytes 2 64 ++ leBytes 2 64 ++ leBytes 2 16 ++ leBytes 4 131072 ++ leBytes 3 1024 ++ leBytes 2 64
    ++ leBytes 2 (Config.identifyTail s.config).val ++ leBytes 2 0

def execIdentifyMemoryDevice (via : Transport) (input : List Byte) (s : State) : Host.Outcome State Fault Refusal :=
  run (command via 0x4000 .any (len 0) input (fun s => succeed via 0x4000 (memoryDevice s) s)) s

/-- No capacity can be partitioned: all of it is persistent, and nothing is to change. -/
def execGetPartitionInfo (via : Transport) (input : List Byte) (s : State) : Host.Outcome State Fault Refusal :=
  run (command via 0x4100 .any (len 0) input
    (fun s => succeed via 0x4100 (leBytes 8 0 ++ leBytes 8 (totalUnits s) ++ leBytes 16 0) s)) s

/-- Not supported. -/
def execSetPartitionInfo (via : Transport) (input : List Byte) (s : State) : Host.Outcome State Fault Refusal :=
  run (command via 0x4101 .any (fun _ => true) input (refuseStd via 0x4101 3)) s

/-- Get LSA: bytes of pages 0 to 511. -/
def getLsa (via : Transport) (input : List Byte) (s : State) : State :=
  let off := leAt 0 4 input
  let n := leAt 4 4 input
  if 131072 < off + n || 65536 < n then refuseStd via 0x4102 2 s else succeed via 0x4102 (sbBytes s off n) s

def execGetLsa (via : Transport) (input : List Byte) (s : State) : Host.Outcome State Fault Refusal :=
  run (command via 0x4102 .any (len 8) input (getLsa via input)) s

/-- Set LSA: stored before it completes; refused under BP 3 (R303). -/
def setLsa (via : Transport) (input : List Byte) (s : State) : State :=
  let off := leAt 0 4 input
  let data := input.drop 8
  if 131072 < off + data.length then refuseStd via 0x4103 2 s
  else if rangeProtected s off data.length then refuseProt via 0x4103 s
  else if data.isEmpty then succeed via 0x4103 [] s
  else s |> sbStore off data |> finishStored via 0x4103 (pagesOf off data.length) [] []

def execSetLsa (via : Transport) (input : List Byte) (s : State) : Host.Outcome State Fault Refusal :=
  run (command via 0x4103 .any (fun n => decide (8 ≤ n)) input (setLsa via input)) s

/-! ### Health (R54) -/

/-- Health Status: maintenance needed, performance degraded, hardware replacement. -/
def healthBits (s : State) : Nat :=
  let limited := writeLimited s
  let fewSpares := (List.range (Config.wheels s.config)).any (fun w => decide (9 * wheelSpares s < 10 * sparesTaken s w))
  let slow := condition s == 1 || cacheBypass s || fon s F.HPT_LINK_STATUS_DEGRADED 0
  (limited || fewSpares).toNat + 2 * slow.toNat + 4 * (limited || recVolatile s).toNat

/-- Get Health Info. -/
def healthOut (s : State) : List Byte :=
  leBytes 1 (healthBits s) ++ leBytes 1 (if s.host.erased then 3 else if s.host.takingPoison && reserveFull s then 2 else 0) ++ leBytes 1 0
    ++ leBytes 1 (lifeUsed s)
    ++ (let t := fget s F.MCV_TJ_DEG_C 0
        leBytes 2 (if 128 ≤ t then t + 0xFF00 else t))
    ++ leBytes 4 (match shutdownRec s with | some (d, _) => d | none => 0)
    ++ leBytes 4 s.host.corrVolatile ++ leBytes 4 s.host.corrPersistent

def execGetHealthInfo (via : Transport) (input : List Byte) (s : State) : Host.Outcome State Fault Refusal :=
  run (command via 0x4200 .any (len 0) input (fun s => succeed via 0x4200 (healthOut s) s)) s

/-- The alerts that can be set: life used, device temperature, corrected volatile and persistent errors; the configuration is
held as enables and the four warning values. -/
def alertOut (s : State) : List Byte :=
  let c := s.host.alertCfg ++ List.replicate (12 - s.host.alertCfg.length) 0
  c.take 1 ++ [0x1B] ++ leBytes 1 (Config.alertCritical 0).val ++ (c.drop 2).take 1 ++ leBytes 2 (Config.alertCritical 1).val
    ++ leBytes 2 (Config.alertCritical 2).val ++ (c.drop 4).take 8

def execGetAlertConfiguration (via : Transport) (input : List Byte) (s : State) : Host.Outcome State Fault Refusal :=
  run (command via 0x4201 .any (len 0) input (fun s => succeed via 0x4201 (alertOut s) s)) s

/-- One alert of a Set Alert Configuration: bit `i` of the first byte makes its value count, bit `i` of the second enables it;
its value lies at byte `off`, `n` bytes long. -/
def setAlert (input : List Byte) (i off n : Nat) (c : List Byte) : List Byte :=
  let b (xs : List Byte) (k : Nat) : Nat := leAt k 1 xs
  if b input 0 / 2 ^ i % 2 = 1 then
    let en := b c 0 - b c 0 / 2 ^ i % 2 * 2 ^ i + b input 1 / 2 ^ i % 2 * 2 ^ i
    leBytes 1 en ++ ((c.take off).drop 1) ++ (input.drop off).take n ++ c.drop (off + n)
  else c

/-- Set Alert Configuration. -/
def setAlerts (via : Transport) (input : List Byte) (s : State) : State :=
  let c0 := s.host.alertCfg ++ List.replicate (12 - s.host.alertCfg.length) 0
  let c := c0 |> setAlert input 0 2 1 |> setAlert input 1 4 2 |> setAlert input 2 6 2 |> setAlert input 3 8 2 |> setAlert input 4 10 2
  if leAt 0 1 input / 32 ≠ 0 || leAt 1 1 input / 32 ≠ 0 then refuseStd via 0x4202 2 s
  else s |> onHost (fun h => { h with alertCfg := c }) |> succeed via 0x4202 []

def execSetAlertConfiguration (via : Transport) (input : List Byte) (s : State) : Host.Outcome State Fault Refusal :=
  run (command via 0x4202 .any (len 12) input (setAlerts via input)) s

def execGetShutdownState (via : Transport) (input : List Byte) (s : State) : Host.Outcome State Fault Refusal :=
  run (command via 0x4203 .any (len 0) input (fun s => succeed via 0x4203 (leBytes 1 ((storedWord s (homeOps + 4)).getD 0)) s)) s

/-- Set Shutdown State: kept, and without effect on anything else. -/
def setShutdown (via : Transport) (input : List Byte) (s : State) : State :=
  s |> sbStore (homeOps + 4) (leBytes 4 (leAt 0 1 input)) |> finishStored via 0x4204 [homeOps / 256] [] []

def execSetShutdownState (via : Transport) (input : List Byte) (s : State) : Host.Outcome State Fault Refusal :=
  run (command via 0x4204 .any (len 1) input (setShutdown via input)) s

/-! ### Poison (R51, R338) -/

/-- A poison or scan entry. -/
def poisonEntry (dpa len source : Nat) : List Byte := leBytes 8 (dpa / 64 * 64 + source % 8) ++ leBytes 4 len ++ leBytes 4 0

/-- Is a DPA range, in bytes, inside the device's capacity? -/
def dpaOk (s : State) (dpa n : Nat) : Bool :=
  decide (dpa + n ≤ Config.capacity s.config)
    || (decide (Config.scratchBase ≤ dpa) && decide (dpa + n ≤ Config.scratchBase + 256 * scratchLines s))

/-- Get Poison List: the records of a range. -/
def getPoison (via : Transport) (input : List Byte) (s : State) : State :=
  let a := leAt 0 8 input / 64 * 64
  let n := leAt 8 8 input * 64
  let rs := s.host.poisonList.filter (fun r => decide (a < r.dpa + 64 * r.len) && decide (r.dpa < a + n))
  succeed via 0x4300
    (leBytes 1 (2 * s.host.poisonOverflow.isSome.toNat + 4 * (bgOf s 0x4304).isSome.toNat) ++ leBytes 1 0
      ++ leBytes 8 (match s.host.poisonOverflow with | some g => hostTime s g | none => 0)
      ++ leBytes 2 rs.length ++ leBytes 20 0 ++ rs.flatMap (fun r => poisonEntry r.dpa r.len r.source)) s

def execGetPoisonList (via : Transport) (input : List Byte) (s : State) : Host.Outcome State Fault Refusal :=
  run (command via 0x4300 .any (len 16) input (getPoison via input)) s

/-- The partner's copy follows a store that the controller makes for a command; without a mirror credit the extent is
divergent (log 47). -/
def mirrorOwn (dpa : Nat) (data : Sector) (s : State) : State :=
  let line := lineOf dpa
  if mustMirror s line && decide (0 < fget s F.TND_CREDIT_HELD 0) then sendMwr (newCtx .store 0xFFFF 0 dpa s.gtc 440) data s
  else if lineMirrored s line then markDivergent line s else s

/-- The sector is written as a full-sector store; none when it finds no room in the cache. -/
def storeSector (dpa : Nat) (data : Sector) (poison : Bool) (s : State) : Option State :=
  if Config.scratchBase ≤ dpa then some (storeScratch (lineOf dpa - scratchLine0) (sectorOf dpa) data poison s)
  else match storeLine (lineOf dpa) (sectorOf dpa) data poison s with
    | (s1, some _) => some (mirrorOwn dpa data s1)
    | (s1, none) => if lineDead s (lineOf dpa) then some s1 else none

/-- Inject Poison: the sector is stored poisoned, at most 64 at once; its data is open (log 6). -/
def injectPoison (via : Transport) (input : List Byte) (s : State) : State :=
  let dpa := leAt 0 8 input
  if dpa % 64 ≠ 0 then refuseStd via 0x4301 2 s
  else if !dpaOk s dpa 64 then refuseStd via 0x4301 0x0F s
  else if nsHas dpa s.host.injected then succeed via 0x4301 [] s
  else if 64 ≤ s.host.injected.length then refuseStd via 0x4301 0x10 s
  else match storeSector dpa (freeSector s 0) true s with
    | none => refuseStd via 0x4301 5 s
    | some s1 =>
      s1 |> useFree |> onHost (fun h => { h with injected := nsAdd dpa h.injected }) |> addPoisonLine (lineOf dpa) 3 |> succeed via 0x4301 []

def execInjectPoison (via : Transport) (input : List Byte) (s : State) : Host.Outcome State Fault Refusal :=
  run (command via 0x4301 .working (len 8) input (injectPoison via input)) s

/-- Clear Poison: the supplied 64 bytes are stored. -/
def clearPoison (via : Transport) (input : List Byte) (s : State) : State :=
  let dpa := leAt 0 8 input
  if dpa % 64 ≠ 0 then refuseStd via 0x4302 2 s
  else if !dpaOk s dpa 64 then refuseStd via 0x4302 0x0F s
  else match storeSector dpa (BitVec.ofNat 512 (leAt 8 64 input)) false s with
    | none => refuseStd via 0x4302 5 s
    | some s1 => s1 |> onHost (fun h => { h with injected := nsDel dpa h.injected }) |> succeed via 0x4302 []

def execClearPoison (via : Transport) (input : List Byte) (s : State) : Host.Outcome State Fault Refusal :=
  run (command via 0x4302 .working (len 72) input (clearPoison via input)) s

/-! ### Scan Media (R338) -/

/-- Does a range lie in the persistent partition, in whole sectors, and is it not empty? -/
def scanRange (s : State) (input : List Byte) : Bool :=
  let a := leAt 0 8 input
  let n := leAt 8 8 input * 64
  a % 64 == 0 && n != 0 && decide (a + n ≤ Config.capacity s.config)

/-- The lines of a range: the first and their number. -/
def scanLines (input : List Byte) : Nat × Nat :=
  let a := leAt 0 8 input
  let b := a + leAt 8 8 input * 64
  (a / 256, (b + 255) / 256 - a / 256)

/-- Scan Media: every line of the range is read once, in the background. -/
def scanMedia (via : Transport) (input : List Byte) (s : State) : State :=
  if !scanRange s input then refuseStd via 0x4304 0x0F s
  else
    let x := scanLines input
    startBg via 0x4304 ⟨0x4304, via, [x], 0, [], x.2, false, []⟩ (onHost (fun h => { h with scanResults := [] })) s

def execScanMedia (via : Transport) (input : List Byte) (s : State) : Host.Outcome State Fault Refusal :=
  run (command via 0x4304 .working (len 17) input (scanMedia via input)) s

/-- The estimate is a figure the manual does not give (log 6). -/
def scanCaps (via : Transport) (input : List Byte) (s : State) : State :=
  if !scanRange s input then refuseStd via 0x4303 0x0F s
  else succeed via 0x4303 (leBytes 4 (Config.scanEstimate (scanLines input).2)) s

def execGetScanMediaCapabilities (via : Transport) (input : List Byte) (s : State) : Host.Outcome State Fault Refusal :=
  run (command via 0x4303 .any (len 16) input (scanCaps via input)) s

/-- The lines found uncorrectable, as far as the payload holds them; a scan that was stopped gives where it would go on. -/
def scanOut (s : State) : List Byte :=
  let rs := s.host.scanResults.take 4094
  leBytes 16 0 ++ leBytes 1 (decide (4094 < s.host.scanResults.length)).toNat ++ leBytes 1 0 ++ leBytes 2 rs.length ++ leBytes 12 0
    ++ rs.flatMap (fun l => poisonEntry (l * 256) 4 3)

def execGetScanMediaResults (via : Transport) (input : List Byte) (s : State) : Host.Outcome State Fault Refusal :=
  run (command via 0x4305 .any (len 0) input (fun s => succeed via 0x4305 (scanOut s) s)) s

/-! ### Erase (R339), unlisted opcodes (R334, R338) -/

/-- A crypto erase starts in MAINTENANCE. -/
def eraseCommand (via : Transport) (op : Nat) (s : State) : State := startBg via op (bgPlain via op) startErase s

def execSanitize (via : Transport) (input : List Byte) (s : State) : Host.Outcome State Fault Refusal :=
  run (command via 0x4400 .maintenance (len 0) input (eraseCommand via 0x4400)) s

def execSecureErase (via : Transport) (input : List Byte) (s : State) : Host.Outcome State Fault Refusal :=
  run (command via 0x4401 .maintenance (len 0) input (eraseCommand via 0x4401)) s

/-- An opcode that no table lists. -/
def execUnsupportedOpcode (via : Transport) (opcode : BitVec 16) (s : State) : Host.Outcome State Fault Refusal :=
  run (command via opcode.toNat .any (fun _ => true) []
    (if 0xC000 ≤ opcode.toNat then refuse via opcode.toNat vsNotOffered else refuseStd via opcode.toNat 3)) s

end Sys2Proof.Machine
end

