-- ==== Sys2Proof/Machine/MbxVendor.lean ====
section
/-! DEFINITION. The vendor commands that read and store configuration and run the hub's own operations (R346 to R357):
service, rails, converters, ledger, cache, media, peloton and tandem. -/
namespace Sys2Proof.Machine

/-! ### Register images in payloads (R346, R349, R358) -/

/-- The register a field belongs to. -/
def regOf (f : Fld) : RegDef := (allRegs.find? (fun r => r.base == f.base)).getD ⟨"", 0, 0, 0, false, none, []⟩

/-- A word's fields that pass, the rest 0. -/
def imageOf (p : Fld → Bool) (r : RegDef) (w : Nat) : Nat :=
  r.fields.foldl (fun x f => if p f then x + fieldOf f w * 2 ^ f.lo else x) 0

/-- Are the reserved bits of an image 0 (R334, R349)? -/
def imageOk (f : Fld) (w : Nat) : Bool := imageOf (fun _ => true) (regOf f) w == w

/-- What is stored of an image: its RW fields (R346, R349). -/
def imageRw (f : Fld) (w : Nat) : Nat := imageOf (fun g => g.acc = .rw) (regOf f) w

/-- No word is all ones: such a word would read as not stored, and no command stores one (R11). -/
def noneBlank (ws : List Nat) : Bool := ws.all (fun w => w != 0xFFFFFFFF)

/-- Images of several registers, each named by one of its fields: are all well formed, and the bytes stored of them. -/
def imagesOk (fs : List Fld) (ws : List Nat) : Bool := (fs.zip ws).all (fun x => imageOk x.1 x.2) && noneBlank ws
def imagesRw (fs : List Fld) (ws : List Nat) : List Byte := (fs.zip ws).flatMap (fun x => leBytes 4 (imageRw x.1 x.2))

/-- A register's word as it reads now. -/
def regWord (s : State) (f : Fld) (i : Nat) : Nat := viewReg s (regOf f) i

/-- A register's word as stored; a word that is not stored gives what its fields then are (R11). -/
def regStored (s : State) (f : Fld) (i : Nat) : Nat := storedImage (loadReg (regOf f) i s) (regOf f) i

/-- The saddlebag as it would stand after a store, for the checks made before it (R349, R351). -/
def asStored (a : Nat) (bs : List Byte) (s : State) : State :=
  s |> sbPut a bs |> onSbg (fun g => { g with ue := g.ue.filter (fun p => !(pagesOf a bs.length).contains p) })

/-- Store bytes for a command and answer it when they are stored; the registers loaded from them follow. -/
def storeFor (via : Transport) (op a : Nat) (bs : List Byte) (reload : List (Nat × Nat)) (out : List Byte) (s : State) : State :=
  s |> sbStore a bs |> finishStored via op (pagesOf a bs.length) reload out

/-! ### Crypto Erase, background results, service configuration (R339, R346) -/

def execCryptoErase (via : Transport) (input : List Byte) (s : State) : Host.Outcome State Fault Refusal :=
  run (command via 0xC004 .maintenance (len 0) input (eraseCommand via 0xC004)) s

/-- Get Background Result: the last operation that has ended. -/
def bgResult (s : State) : List Byte :=
  match s.mbx.last with
  | some (op, r, out) => leBytes 2 op ++ leBytes 2 r.rc ++ leBytes 4 0 ++ out
  | none => leBytes 8 0

def execGetBackgroundResult (via : Transport) (input : List Byte) (s : State) : Host.Outcome State Fault Refusal :=
  run (command via 0xC00F .hub (len 0) input (fun s => succeed via 0xC00F (bgResult s) s)) s

/-- The seven service registers, in the order of the payload. -/
def serviceRegs : List Fld :=
  [F.HUB_MODE_CFG_DEBOUNCE_MS, F.HUB_PLC_CFG_CKPT_MIN, F.HUB_EPOCH_PE, F.WHL_PCUR_BUDGET, F.WHL_DRAFT_CFG_THRESH,
   F.WHL_BG_ALLOW_PER_TICK, F.CCH_SCRUB_CFG_PASS_S]

def execGetServiceConfig (via : Transport) (input : List Byte) (s : State) : Host.Outcome State Fault Refusal :=
  run (command via 0xC008 .hub (len 0) input
    (fun s => succeed via 0xC008 (serviceRegs.flatMap (fun f => leBytes 4 (regStored s f 0))) s)) s

/-- Set Service Config. -/
def setService (via : Transport) (input : List Byte) (s : State) : State :=
  let ws := wordsOf 7 input
  if !imagesOk serviceRegs ws then refuse via 0xC009 vsBadArg s
  else if rangeProtected s homeService 28 then refuseProt via 0xC009 s
  else storeFor via 0xC009 homeService (imagesRw serviceRegs ws) [(homeService, 28)] [] s

def execSetServiceConfig (via : Transport) (input : List Byte) (s : State) : Host.Outcome State Fault Refusal :=
  run (command via 0xC009 .working (len 28) input (setService via input)) s

/-! ### Rail tables and configuration (R217 to R220, R348, R349) -/

/-- The six words of a channel. -/
def chanRegs : List Fld :=
  [F.SEQ_CHn_CFG_EN_MODE, F.SEQ_CHn_WIN_UV, F.SEQ_CHn_TIME_PG_TIMEOUT, F.SEQ_CHn_MARGIN_PATH, F.SEQ_CHn_TRIM_NEUTRAL,
   F.SEQ_CHn_SCALE_DIV_X256]

/-- The eleven global words. -/
def globalRegs : List Fld :=
  List.replicate 8 F.SEQ_GANGg_MEMBERS ++ [F.SEQ_IN_CFG_VIN_FALL, F.SEQ_INRUSH_BUDGET, F.SEQ_CFG_PU_TABLE]

/-- The stored words of table `t`; a step that is not stored is END (R217). -/
def tableWords (s : State) (t : Nat) : List Nat := (List.range 64).map (fun k => (storedWord s (homeTable t + 4 * k)).getD 0)

/-- The sequencer's registers as the saddlebag would load them. -/
def seqLoaded (s : State) : State := forEach (regsSEQ.filter (fun r => r.home.isSome)) loadRegAll s

/-- What a step counts on its path (R220): 1, and the timeout or the wait it names. -/
def stepCost (s : State) (w : Nat) : Nat :=
  let arg := stepArg w
  match stepOp w with
  | 3 => 1 + waitTicks s w
  | 4 => 1 + max 1 arg
  | 6 => 1 + arg
  | _ => 1

/-- The step a branch names. -/
def branchStep (w : Nat) : Nat := w / 1024 % 64

/-- The longest path from each step to the end, for the steps from `k` on. -/
def pathsFrom (s : State) : Nat → List Nat → List Nat
  | _, [] => []
  | k, w :: rest =>
    let ps := pathsFrom s (k + 1) rest
    let next := ps.headD 0
    let onward := if stepOp w = 0 then 0 else if stepOp w = 7 then max next (ps.getD (branchStep w - (k + 1)) 0) else next
    (stepCost s w + onward) :: ps

/-- The longest path of a table in ticks. -/
def longestPath (s : State) (ws : List Nat) : Nat := (pathsFrom s 0 ws).headD 0

/-- Is a step allowed (R220)? `s` holds the configuration in its registers. END and WAIT_TICKS, which have no target, name no gang
whatever their G bit (DESIGN CHOICE, log 98). -/
def stepAllowed (s : State) (k w : Nat) : Bool :=
  let op := stepOp w
  let t := stepTarget w
  let isGang := w / 512 % 2 == 1
  let chans := tgtChans s t
  let driven := chans.all (fun c => fget s F.SEQ_CHn_CFG_EN_MODE c != 0)
  let direct := !isGang && (gangOf s (chans.headD 0)).isSome
  decide (op < 8) && (op != 6 || isGang) && (op != 7 || decide (k < branchStep w))
    && (!(op == 1 || op == 2 || op == 3) || (driven && !direct))
    && (op == 0 || op == 4 || !isGang || !chans.isEmpty)

/-- Is a table allowed? -/
def tableAllowed (s : State) (ws : List Nat) : Bool :=
  (List.range 64).all (fun k => stepAllowed s k (ws.getD k 0)) && decide (longestPath s ws ≤ 1200000)

/-- Do two channels name one trim output? -/
def trimsClash (s : State) : Bool :=
  allChans.any (fun a => allChans.any (fun b => decide (a < b) && fget s F.SEQ_CHn_MARGIN_PATH a == 1
    && fget s F.SEQ_CHn_MARGIN_PATH b == 1 && fget s F.SEQ_CHn_MARGIN_TRIM a == fget s F.SEQ_CHn_MARGIN_TRIM b))

/-- Is the configuration allowed: its gangs, groups, trims and delays (R220)? -/
def configAllowed (s : State) : Bool :=
  (List.range 8).all (fun g => !gangBad s g)
    && allChans.all (fun c => !fon s F.SEQ_CHn_CFG_CRIT c
        || (fget s F.SEQ_CHn_CFG_GROUP c == 0 && fget s F.SEQ_CHn_CFG_RESP_UV c != 2 && fget s F.SEQ_CHn_CFG_RESP_OV c != 2))
    && !trimsClash s
    && decide (((allChans.filter (fun c => fget s F.SEQ_CHn_CFG_EN_MODE c != 0)).map (fget s F.SEQ_CHn_TIME_OFF_DELAY)).sum ≤ 3600)

/-- R220 for a saddlebag: the configuration and both tables. -/
def railsAllowed (s : State) : Bool :=
  let t := seqLoaded s
  configAllowed t && tableAllowed t (tableWords s 0) && tableAllowed t (tableWords s 1)

/-- The longest paths of both tables, as the rail commands return them. -/
def pathsOut (s : State) : List Byte :=
  let t := seqLoaded s
  leBytes 4 (longestPath t (tableWords s 0)) ++ leBytes 4 (longestPath t (tableWords s 1))

/-- A rail command's store: refused when protected, or when R220 would not hold after it. It takes effect at the next
RAMP. -/
def storeRails (via : Transport) (op a : Nat) (bs : List Byte) (s : State) : State :=
  let t := asStored a bs s
  if rangeProtected s a bs.length then refuseProt via op s
  else if !railsAllowed t then refuse via op vsBadTable s
  else storeFor via op a bs [] (pathsOut t) s

/-- Get Rail Config: the tables as stored, the registers as they read. -/
def railConfig (via : Transport) (input : List Byte) (s : State) : State :=
  let part := leAt 0 1 input
  if 3 < part || !rsvOk 1 3 input then refuse via 0xC010 vsBadArg s
  else if part < 2 then succeed via 0xC010 ((tableWords s part).flatMap (leBytes 4)) s
  else if part = 2 then
    succeed via 0xC010 (allChans.flatMap (fun c => chanRegs.flatMap (fun f => leBytes 4 (regWord s f c)))) s
  else
    succeed via 0xC010 ((List.range 8).flatMap (fun g => leBytes 4 (regWord s F.SEQ_GANGg_MEMBERS g))
      ++ (globalRegs.drop 8).flatMap (fun f => leBytes 4 (regWord s f 0))) s

def execGetRailConfig (via : Transport) (input : List Byte) (s : State) : Host.Outcome State Fault Refusal :=
  run (command via 0xC010 .hub (len 4) input (railConfig via input)) s

/-- Set Rail Table. -/
def setRailTable (via : Transport) (input : List Byte) (s : State) : State :=
  let t := leAt 0 1 input
  if 1 < t || !rsvOk 1 3 input || !noneBlank (wordsOf 64 (input.drop 4)) then refuse via 0xC011 vsBadArg s
  else storeRails via 0xC011 (homeTable t) (input.drop 4) s

def execSetRailTable (via : Transport) (input : List Byte) (s : State) : Host.Outcome State Fault Refusal :=
  run (command via 0xC011 .working (len 260) input (setRailTable via input)) s

/-- Set Rail Channel. -/
def setRailChannel (via : Transport) (input : List Byte) (s : State) : State :=
  let c := leAt 0 1 input
  let ws := wordsOf 6 (input.drop 4)
  if 31 < c || !rsvOk 1 3 input || !imagesOk chanRegs ws then refuse via 0xC012 vsBadArg s
  else storeRails via 0xC012 (homeChan c) (imagesRw chanRegs ws) s

def execSetRailChannel (via : Transport) (input : List Byte) (s : State) : Host.Outcome State Fault Refusal :=
  run (command via 0xC012 .working (len 28) input (setRailChannel via input)) s

/-- Set Rail Globals. -/
def setRailGlobals (via : Transport) (input : List Byte) (s : State) : State :=
  let ws := wordsOf 11 input
  if !imagesOk globalRegs ws then refuse via 0xC013 vsBadArg s
  else storeRails via 0xC013 homeGlobals (imagesRw globalRegs ws) s

def execSetRailGlobals (via : Transport) (input : List Byte) (s : State) : Host.Outcome State Fault Refusal :=
  run (command via 0xC013 .working (len 44) input (setRailGlobals via input)) s

/-! ### Margin Rail and Rail Command (R232 to R235, R348, R349) -/

/-- The target of bytes 0 [4:0] TGT and [5] G; none when its number does not exist. -/
def railTarget (b : Nat) : Option Target :=
  if 63 < b then none
  else if b / 32 = 0 then some (.chan (Fin.ofNat 32 b))
  else if b % 32 < 8 then some (.gang (Fin.ofNat 8 (b % 32))) else none

/-- The channel that a margin goes through: a gang's lowest member, or a channel that is no other member of a gang. -/
def marginChan (s : State) (t : Target) : Option Nat :=
  match t with
  | .gang g => (gangMembers s g.val).head?
  | .chan c => match gangOf s c.val with
    | some g => if (gangMembers s g.val).head? = some c.val then some c.val else none
    | none => some c.val

/-- Does an action suit a margin path (R349)? -/
def pathSuits (path action : Nat) : Bool :=
  if action = 0 then path == 1 else if action < 4 then path == 2 else path == 1 || path == 2

/-- Is a rail ready for a margin: enabled and good, without a fault in this tick (R236), and no command waits for its margin? -/
def marginReady (s : State) (c : Nat) : Bool :=
  chanOn s c && powerGood s c && tabGet 0 s.seq.faultAt c != tickOf s + 1
    && (match marginOf s c with | some m => m.via.isNone | none => true)

/-- Margin Rail. A rail whose margin a command still waits for is in conflict. -/
def marginRail (via : Transport) (input : List Byte) (s : State) : State :=
  let action := leAt 1 1 input
  let settle := leAt 2 2 input
  let uv := leAt 4 2 input
  let ov := leAt 6 2 input
  let target := leAt 8 2 input
  match (railTarget (leAt 0 1 input)).bind (marginChan s) with
  | none => refuse via 0xC014 vsBadArg s
  | some c =>
    let rangeBad := action != 4
      && (decide (settle < 4) || decide (4000 < settle) || decide (1023 < uv) || decide (1023 < ov) || (action == 0 && decide (1023 < target)))
    if 4 < action || rangeBad || !pathSuits (storedPath s c) action then refuse via 0xC014 vsBadArg s
    else if !marginReady s c then refuse via 0xC014 vsConflict s
    else if action = 4 then startNominal c (some via) s
    else startMargin c action settle uv ov target via s

def execMarginRailTrim (via : Transport) (input : List Byte) (s : State) : Host.Outcome State Fault Refusal :=
  run (command via 0xC014 .maintenance (len 10) input (marginRail via input)) s

def execMarginRailHigh (via : Transport) (input : List Byte) (s : State) : Host.Outcome State Fault Refusal :=
  run (command via 0xC014 .maintenance (len 10) input (marginRail via input)) s

def execMarginRailLow (via : Transport) (input : List Byte) (s : State) : Host.Outcome State Fault Refusal :=
  run (command via 0xC014 .maintenance (len 10) input (marginRail via input)) s

def execMarginRailSetpoint (via : Transport) (input : List Byte) (s : State) : Host.Outcome State Fault Refusal :=
  run (command via 0xC014 .maintenance (len 10) input (marginRail via input)) s

def execMarginRailNominal (via : Transport) (input : List Byte) (s : State) : Host.Outcome State Fault Refusal :=
  run (command via 0xC014 .maintenance (len 10) input (marginRail via input)) s

/-- May a command switch the target: driven channels, and no member of a gang by itself (as R220 has it for steps)? -/
def switchable (s : State) (t : Target) : Bool :=
  let chans := tgtChans s t
  !chans.isEmpty && chans.all (fun c => fget s F.SEQ_CHn_CFG_EN_MODE c != 0)
    && (match t with | .gang _ => true | .chan c => (gangOf s c.val).isNone)

/-- Enable a target: OFF_FAULT is cleared, and the request waits for its admission and for power good. -/
def railEnable (via : Transport) (t : Target) (s : State) : State :=
  let s1 := forEach (tgtChans s t) (fclr F.SEQ_CHn_STATUS_OFF_FAULT) s
  if tgtOn s t then
    if tgtGood s t then succeed via 0xC015 [0] s1
    else onSeq (fun q => { q with railWait := q.railWait ++ [(some via, t)], pgFrom := tabSet 0 (tgtKey t) (tickOf s) q.pgFrom }) s1
  else s1 |> placeRequest t |> onSeq (fun q => { q with railWait := q.railWait ++ [(some via, t)] })

/-- Disable a target: a retry of it ends, and its edges go down. -/
def railDisable (via : Transport) (t : Target) (s : State) : State :=
  if tgtCrit s t then refuse via 0xC015 vsConflict s
  else s |> endRetry t |> setRetry t retryReset |> disableTarget t |> succeed via 0xC015 [2]

/-- Rail Command. -/
def railCommand (via : Transport) (input : List Byte) (s : State) : State :=
  let action := leAt 1 1 input
  match railTarget (leAt 0 1 input) with
  | none => refuse via 0xC015 vsBadArg s
  | some t =>
    if 1 < action || !rsvOk 2 2 input || !switchable s t then refuse via 0xC015 vsBadArg s
    else if action = 0 then railEnable via t s else railDisable via t s

def execRailCommandEnable (via : Transport) (input : List Byte) (s : State) : Host.Outcome State Fault Refusal :=
  run (command via 0xC015 .maintenance (len 4) input (railCommand via input)) s

def execRailCommandDisable (via : Transport) (input : List Byte) (s : State) : Host.Outcome State Fault Refusal :=
  run (command via 0xC015 .maintenance (len 4) input (railCommand via input)) s

/-! ### Converter schedules, inputs, calibration, diagnosis (R246, R253, R262, R352, R353) -/

/-- The 32 slot registers of a converter, after CFG and TRIG. -/
def slotRegs : List Fld := List.replicate 32 F.MCVn_SLOTj_CH0

/-- A schedule's cycle in ticks, in normal and in low-power mode, from its CFG word. -/
def cycleTicks (cfg : Nat) : Nat × Nat :=
  let n := fieldOf F.MCVn_CFG_LEN cfg + 1
  (n * max 4 (fieldOf F.MCVn_CFG_SPACING cfg), n * max 32 (fieldOf F.MCVn_CFG_LP_SPACING cfg))

/-- MC1's schedule is allowed: its cycle is at most 4,096 ticks, and slot 0 is the junction temperature (R246). -/
def mc1Allowed (cfg slot0 : Nat) : Bool :=
  decide ((cycleTicks cfg).1 ≤ 4096) && decide ((cycleTicks cfg).2 ≤ 4096)
    && fieldOf F.MCVn_SLOTj_CH0 slot0 == 13 && fieldOf F.MCVn_SLOTj_USE0 slot0 == 1

/-- R246 for a saddlebag: MC1's stored schedule, where it is stored. -/
def schedulesAllowed (s : State) : Bool :=
  mc1Allowed (regStored s F.MCVn_CFG_SPACING 1) ((storedWord s (homeConv 1 + 8)).getD 29)

/-- Get Converter Config. -/
def converterConfig (via : Transport) (input : List Byte) (s : State) : State :=
  let n := leAt 0 1 input
  if 7 < n || !rsvOk 1 3 input then refuse via 0xC030 vsBadArg s
  else
    succeed via 0xC030 (leBytes 4 (regWord s F.MCVn_CFG_SPACING n) ++ leBytes 4 (regWord s F.MCVn_TRIG_SRC n)
      ++ (List.range 32).flatMap (fun j => leBytes 4 (regWord s F.MCVn_SLOTj_CH0 (32 * n + j)))
      ++ leBytes 4 (regWord s F.MCVn_CAL_OFFSET n)) s

def execGetConverterConfig (via : Transport) (input : List Byte) (s : State) : Host.Outcome State Fault Refusal :=
  run (command via 0xC030 .hub (len 4) input (converterConfig via input)) s

/-- Set Converter Schedule; the store takes effect at the start of the next cycle (R245). -/
def setSchedule (via : Transport) (input : List Byte) (s : State) : State :=
  let n := leAt 0 1 input
  let fs := [F.MCVn_CFG_SPACING, F.MCVn_TRIG_SRC] ++ slotRegs
  let ws := wordsOf 34 (input.drop 4)
  let cfg := ws.headD 0
  if 7 < n || !rsvOk 1 3 input || !imagesOk fs ws then refuse via 0xC031 vsBadArg s
  else if rangeProtected s (homeConv n) 136 then refuseProt via 0xC031 s
  else if n = 0 || (n == 1 && !mc1Allowed cfg (ws.getD 2 0)) then refuse via 0xC031 vsBadTable s
  else
    storeFor via 0xC031 (homeConv n) (imagesRw fs ws) [(homeConv n, 136)]
      (leBytes 4 (cycleTicks cfg).1 ++ leBytes 4 (cycleTicks cfg).2) s

def execSetConverterSchedule (via : Transport) (input : List Byte) (s : State) : Host.Outcome State Fault Refusal :=
  run (command via 0xC031 .working (len 140) input (setSchedule via input)) s

/-- Set Input Config. -/
def setInput (via : Transport) (input : List Byte) (s : State) : State :=
  let k := leAt 0 1 input
  let fs := if k = 0xFF then [F.MCV_TJ_LIM_WARN] else [F.MCV_INk_CFG_ORDER, F.MCV_INk_LIM_LO]
  let ws := wordsOf 2 (input.drop 4)
  let a := if k = 0xFF then homeTjLim else homeInput k
  let bs := imagesRw fs ws
  if (95 < k && k ≠ 0xFF) || !rsvOk 1 3 input || !imagesOk fs ws || (k = 0xFF && ws.getD 1 0 ≠ 0) then refuse via 0xC032 vsBadArg s
  else if rangeProtected s a bs.length then refuseProt via 0xC032 s
  else storeFor via 0xC032 a bs [(a, bs.length)] [] s

def execSetInputConfig (via : Transport) (input : List Byte) (s : State) : Host.Outcome State Fault Refusal :=
  run (command via 0xC032 .working (len 12) input (setInput via input)) s

/-- Calibrate Converter: it completes when the calibration ends. -/
def calibrateCommand (via : Transport) (input : List Byte) (s : State) : State :=
  let n := leAt 0 1 input
  if 7 < n || !rsvOk 1 3 input then refuse via 0xC033 vsBadArg s
  else if calRefused s n then refuse via 0xC033 vsConflict s
  else startCal n (some via) false s

def execCalibrateConverter (via : Transport) (input : List Byte) (s : State) : Host.Outcome State Fault Refusal :=
  run (command via 0xC033 .maintenance (len 4) input (calibrateCommand via input)) s

/-- Diagnose Input: it completes when the diagnosis ends. -/
def diagnoseCommand (via : Transport) (input : List Byte) (s : State) : State :=
  let k := leAt 0 1 input
  if 95 < k || !rsvOk 1 3 input then refuse via 0xC034 vsBadArg s
  else if diagRefused s k then refuse via 0xC034 vsConflict s
  else diagStart k (some via) s

def execDiagnoseInput (via : Transport) (input : List Byte) (s : State) : Host.Outcome State Fault Refusal :=
  run (command via 0xC034 .working (len 4) input (diagnoseCommand via input)) s

/-! ### Write Pages (R351) -/

/-- Pages that Write Pages may reach. -/
def writablePage (p : Nat) : Bool := decide (p < 512) || (decide (768 ≤ p) && decide (p < 960))

/-- The saddlebag as it would stand after a page write. -/
def afterPages (page off : Nat) (bs : List Byte) (s : State) : State :=
  let ps := accessPages page bs.length
  (if bs.length ≤ 256 then sbPutWrap page off bs s else sbPut (256 * page) bs s)
    |> onSbg (fun g => { g with ue := g.ue.filter (fun p => !ps.contains p) })

/-- The checks of R220 and R246 on the pages as they would stand. -/
def pagesAllowed (ps : List Nat) (t : State) : Bool :=
  (!ps.any (fun p => decide (768 ≤ p) && decide (p ≤ 778)) || railsAllowed t)
    && (!ps.any (fun p => decide (784 ≤ p) && decide (p ≤ 791)) || schedulesAllowed t)

/-- Does a register image or a step of a table lie at an address (R217, R386)? -/
def imageWord (a : Nat) : Bool :=
  (decide (768 ≤ a / 256) && decide (a / 256 < 770))
    || allRegs.any (fun r => (List.range r.count).any (fun i => regHome r i == some a))

/-- The register images that a page write touches, as they would stand: none may be all ones (R11). -/
def wordsStand (page off : Nat) (bs : List Byte) (t : State) : Bool :=
  (List.range bs.length).all (fun i =>
    let a := if bs.length ≤ 256 then 256 * page + (off + i) % 256 else 256 * page + i
    sbNat t (a / 4 * 4) 4 != 0xFFFFFFFF || !imageWord (a / 4 * 4))

/-- Write Pages: written and stored before it completes. -/
def writePages (via : Transport) (input : List Byte) (s : State) : State :=
  let page := leAt 0 2 input
  let off := leAt 2 1 input
  let n := leAt 4 4 input
  let data := input.drop 8
  let ps := accessPages page n
  if data.length ≠ n then refuse via 0xC029 vsLength s
  else if !accessOk page off n || !rsvOk 3 1 input || !ps.all writablePage || !wordsStand page off data (afterPages page off data s) then
    refuse via 0xC029 vsBadArg s
  else if ps.any (pageProtected s) then refuseProt via 0xC029 s
  else if !pagesAllowed ps (afterPages page off data s) then refuse via 0xC029 vsBadTable s
  else
    (if n ≤ 256 then sbPutWrap page off data s else sbPut (256 * page) data s)
      |> forEach ps sbRequest |> finishStored via 0xC029 ps [] []

def execWritePages (via : Transport) (input : List Byte) (s : State) : Host.Outcome State Fault Refusal :=
  run (command via 0xC029 .maintenance (fun n => decide (8 ≤ n)) input (writePages via input)) s

/-! ### The ledger (R352, R353) -/

/-- A word by its address; 0 from a domain that is unpowered. -/
def wordOr0 (s : State) (a : Nat) : Nat := (viewWord s a).getD 0

/-- Get Ledger Status. -/
def ledgerStatus (s : State) : List Byte :=
  (List.range 25).flatMap (fun i => leBytes 4 (wordOr0 s (0xA0000 + 4 * i)))
    ++ leBytes 4 (ifCore s s.led.eBase) ++ leBytes 4 (ifCore s s.led.eCover)

def execGetLedgerStatus (via : Transport) (input : List Byte) (s : State) : Host.Outcome State Fault Refusal :=
  run (command via 0xC040 .any (len 0) input (fun s => succeed via 0xC040 (ledgerStatus s) s)) s

/-- The six configuration registers of the ledger. -/
def ledgerRegs : List Fld :=
  [F.LDG_CFG_MARGIN, F.LDG_CONST0_E_LINE, F.LDG_CONST1_ETA, F.LDG_CONST2_E_FIXED, F.LDG_CONST3_KDIV_X256, F.LDG_CAP_CFG_PERIOD]

/-- Would new values let the ledger promise more than `s` holds in its registers? `t` holds the new ones. -/
def promisesMore (s t : State) : Bool :=
  [F.LDG_CFG_MARGIN, F.LDG_CONST0_E_LINE, F.LDG_CONST0_E_PAGE, F.LDG_CONST2_E_FIXED, F.LDG_CONST1_V_MIN].any
      (fun f => decide (fget t f 0 < fget s f 0))
    || decide (fget s F.LDG_CONST1_ETA 0 < fget t F.LDG_CONST1_ETA 0)
    || fget t F.LDG_CONST3_KDIV_X256 0 != fget s F.LDG_CONST3_KDIV_X256 0

/-- The ledger's registers as the saddlebag would load them. -/
def ledgerLoaded (s : State) : State := forEach ledgerRegs (fun f s => loadReg (regOf f) 0 s) s

/-- Set Ledger Config: outside MAINTENANCE it may promise more neither than the stored nor than the live values. -/
def setLedger (via : Transport) (input : List Byte) (s : State) : State :=
  let ws := wordsOf 6 input
  let bs := imagesRw ledgerRegs ws
  let t := ledgerLoaded (asStored homeLedger bs s)
  if !imagesOk ledgerRegs ws then refuse via 0xC041 vsBadArg s
  else if s.mode ≠ .maintenance && (promisesMore s t || promisesMore (ledgerLoaded s) t) then refuse via 0xC041 vsWrongMode s
  else if rangeProtected s homeLedger 24 then refuseProt via 0xC041 s
  else storeFor via 0xC041 homeLedger bs [(homeLedger, 24)] [] s

def execSetLedgerConfig (via : Transport) (input : List Byte) (s : State) : Host.Outcome State Fault Refusal :=
  run (command via 0xC041 .working (len 24) input (setLedger via input)) s

/-- A measurement by command starts with step 1, in place of one that still waits to settle. -/
def commandTest (s : State) : State :=
  onLed (fun l => { l with test := { l.test with phase := .waiting, settle := [], recs := [], mean16 := 0, byCommand := true } }) s

/-- Measure Capacitance. -/
def measureCap (via : Transport) (s : State) : State :=
  if fon s F.LDG_STATUS_CAP_TEST 0 || capBarred s then refuse via 0xC042 vsConflict s
  else startBg via 0xC042 (bgPlain via 0xC042) commandTest s

def execMeasureCapacitance (via : Transport) (input : List Byte) (s : State) : Host.Outcome State Fault Refusal :=
  run (command via 0xC042 .working (len 0) input (measureCap via)) s

/-! ### Ranges (R354, R355) -/

/-- The ranges of a command: base and length in bytes, from byte 8 on. -/
def rangesOf : Nat → List Byte → List (Nat × Nat)
  | 0, _ => []
  | n + 1, bs => (leAt 0 8 bs, leAt 8 8 bs) :: rangesOf n (bs.drop 16)

/-- The ranges of an input. -/
def inputRanges (input : List Byte) : List (Nat × Nat) := rangesOf (leAt 0 2 input) (input.drop 8)

/-- Is a range aligned to `unit` and inside the persistent partition? -/
def rangeOk (s : State) (unit : Nat) (r : Nat × Nat) : Bool :=
  r.1 % unit == 0 && r.2 % unit == 0 && decide (r.1 + r.2 ≤ Config.capacity s.config)

/-- Is a range list well formed: its number within `lo` to `hi`, reserved bytes 0, every range good? -/
def rangesOk (s : State) (lo hi unit : Nat) (input : List Byte) : Bool :=
  let n := leAt 0 2 input
  decide (lo ≤ n) && decide (n ≤ hi) && rsvOk 2 6 input && (inputRanges input).all (rangeOk s unit)

/-- The length of a range list. -/
def rangesLen (input : List Byte) : Nat → Bool := fun n => n == 8 + 16 * leAt 0 2 input

/-! ### The cache (R75, R80 to R84, R354, R355) -/

/-- Get Cache Status. -/
def cacheStatus (s : State) : List Byte :=
  leBytes 4 (regWord s F.CCH_MODE_STATE 0) ++ leBytes 4 (regWord s F.CCH_FLUSH_REMAIN_LINES 0)
    ++ (List.range (Config.wheels s.config)).flatMap (fun n =>
      leBytes 4 (regWord s F.CCHn_STATUS_DIRTY n) ++ leBytes 4 (regWord s F.CCHn_LOCKED_COUNT n)
        ++ leBytes 4 (regWord s F.CCHn_WAY_OFF_COUNT n) ++ leBytes 4 (regWord s F.CCHn_WAY_PERM_COUNT n))

def execGetCacheStatus (via : Transport) (input : List Byte) (s : State) : Host.Outcome State Fault Refusal :=
  run (command via 0xC050 .hub (len 0) input (fun s => succeed via 0xC050 (cacheStatus s) s)) s

/-- Every line that is dirty at acceptance is to be written back; scratch lines have no place of their own, and pinned lines
none to go to. -/
def startFlush (s : State) : State :=
  let ls := (s.cache.dir.filter (fun x => x.2.dv && !x.2.scr && !x.2.p)).foldl (fun t x => nsAdd x.2.line t) []
  s |> onCache (fun c => { c with flush := ls }) |> fput F.CCH_MODE_STATE 0 1 |> fput F.CCH_FLUSH_REMAIN_LINES 0 ls.length
    |> onMbx (fun m => { m with bg := m.bg.map (fun b => { b with total := ls.length }) }) |> flushDone

/-- The cache serves in normal mode from the next tick (R82); a flush in progress ends as an abort ends it. -/
def cacheToNormal (s : State) : State :=
  s |> when (fget s F.CCH_MODE_STATE 0 == 1) (fun s => s |> stopFlush |> endBg ⟨0x12, 0⟩ [])
    |> when (fget s F.CCH_MODE_STATE 0 == 2) (onCache (fun c => { c with bypassUntil := tickOf s + 1 }))
    |> fput F.CCH_MODE_STATE 0 0 |> storeCacheState

/-- Set Cache Mode. -/
def setCacheMode (via : Transport) (input : List Byte) (s : State) : State :=
  let m := leAt 0 1 input
  if !(m == 0 || m == 2) || !rsvOk 1 3 input then refuse via 0xC051 vsBadArg s
  else if m = 0 then s |> cacheToNormal |> finishStored via 0xC051 [homeOps / 256] [] []
  else if anyLocked s then refuse via 0xC051 vsConflict s
  else startBg via 0xC051 (bgPlain via 0xC051) startFlush s

def execSetCacheModeNormal (via : Transport) (input : List Byte) (s : State) : Host.Outcome State Fault Refusal :=
  run (command via 0xC051 .working (len 4) input (setCacheMode via input)) s

def execSetCacheModeBypass (via : Transport) (input : List Byte) (s : State) : Host.Outcome State Fault Refusal :=
  run (command via 0xC051 .working (len 4) input (setCacheMode via input)) s

/-- The ranges in lines, ascending. -/
def lockRanges (input : List Byte) : List (Nat × Nat) :=
  (sortBy (fun a b => decide (a.1 ≤ b.1)) ((inputRanges input).filter (fun r => r.2 != 0))).map (fun r => (r.1 / 256, r.2 / 256))

/-- Lock Cache Lines: a background operation over the ranges. -/
def lockLines (via : Transport) (input : List Byte) (s : State) : State :=
  if !Config.lockCapable s.config then refuse via 0xC052 vsNotOffered s
  else if !rangesOk s 1 1024 256 input then refuse via 0xC052 vsBadArg s
  else
    let rs := lockRanges input
    startBg via 0xC052 ⟨0xC052, via, rs, 0, [], (rs.map (fun r => r.2)).sum, false, []⟩
      (fun s => if rs.isEmpty then endBg ⟨0, 0⟩ (leBytes 16 0) s else s) s

def execLockCacheLines (via : Transport) (input : List Byte) (s : State) : Host.Outcome State Fault Refusal :=
  run (command via 0xC052 .working (rangesLen input) input (lockLines via input)) s

/-- Does a line lie in one of the ranges? No range at all means every line. -/
def inRanges (rs : List (Nat × Nat)) (line : Nat) : Bool :=
  rs.isEmpty || rs.any (fun r => decide (r.1 ≤ 256 * line) && decide (256 * line < r.1 + r.2))

/-- Unlock Cache Lines: the lines stay resident as ordinary lines. -/
def unlockLines (via : Transport) (input : List Byte) (s : State) : State :=
  let rs := inputRanges input
  let mine := s.cache.lockList.filter (inRanges rs)
  if !Config.lockCapable s.config then refuse via 0xC053 vsNotOffered s
  else if !rangesOk s 0 1024 256 input then refuse via 0xC053 vsBadArg s
  else
    s |> onCache (fun c => { c with
          lockList := c.lockList.filter (fun l => !inRanges rs l)
          ways := tabMap wayReset (fun _ w => if w.l && inRanges rs w.line then { w with l := false } else w) c.ways })
      |> succeed via 0xC053 (leBytes 4 mine.length)

def execUnlockCacheLines (via : Transport) (input : List Byte) (s : State) : Host.Outcome State Fault Refusal :=
  run (command via 0xC053 .working (rangesLen input) input (unlockLines via input)) s

/-- Set Scratch Carve-out: stored, for the next entry to SERVICE (R80). -/
def setCarveOut (via : Transport) (input : List Byte) (s : State) : State :=
  let n := leAt 0 1 input
  if Config.lockCapable s.config then refuse via 0xC054 vsNotOffered s
  else if 16 < n || !rsvOk 1 3 input then refuse via 0xC054 vsBadArg s
  else
    s |> fput F.CCH_MODE_SCRATCH_NEXT 0 n |> storeCacheState
      |> finishStored via 0xC054 [homeOps / 256] [] (leBytes 1 (scratchSteps s) ++ leBytes 1 n)

def execSetScratchCarveOut (via : Transport) (input : List Byte) (s : State) : Host.Outcome State Fault Refusal :=
  run (command via 0xC054 .maintenance (len 4) input (setCarveOut via input)) s

/-! ### The media (R158, R162, R322, R354, R355) -/

/-- The partner is told of a mirrored extent's release; without it the extent diverges (R322, R323). -/
def mirrorRelease (e : Nat) (s : State) : State :=
  let m := e / 512
  if !(tndEn s && nsHas m s.tnd.own) then s
  else if tndUp s && fget s F.TND_STATUS_OWN 0 = 0 then emit (.tandem (.mrel (slotOfRegion s.tnd.own m) (e % 512))) s
  else markDivergent (e * 8192) s

/-- The extents of the ranges, in order. -/
def rangeExtents (rs : List (Nat × Nat)) : List Nat := rs.flatMap (fun r => (List.range (r.2 / 2097152)).map (· + r.1 / 2097152))

/-- Does a range reach the mirror store (R319)? -/
def reachesStore (s : State) (r : Nat × Nat) : Bool := r.2 != 0 && lineInStore s ((r.1 + r.2 - 1) / 256)

/-- Release Range. -/
def releaseRange (via : Transport) (input : List Byte) (s : State) : State :=
  let rs := inputRanges input
  if !rangesOk s 1 256 2097152 input || rs.any (reachesStore s) then refuse via 0xC060 vsBadArg s
  else
    let x := (rangeExtents rs).foldl (fun (acc : State × Nat × Nat) e =>
      let was := bmGet acc.1.med.released e
      (acc.1 |> releaseExtent e |> mirrorRelease e, acc.2.1 + (!was).toNat, acc.2.2 + was.toNat)) (s, 0, 0)
    x.1 |> when (x.2.1 != 0) dueCkpt |> succeed via 0xC060 (leBytes 4 x.2.1 ++ leBytes 4 x.2.2)

def execReleaseRange (via : Transport) (input : List Byte) (s : State) : Host.Outcome State Fault Refusal :=
  run (command via 0xC060 .working (rangesLen input) input (releaseRange via input)) s

/-- Get Release Bitmap. -/
def releaseBitmap (via : Transport) (input : List Byte) (s : State) : State :=
  let a := leAt 0 4 input
  let n := leAt 4 4 input
  if a % 8 ≠ 0 || n % 8 ≠ 0 || Config.extents s.config < a + n then refuse via 0xC061 vsBadArg s
  else if payloadMax via < n / 8 then refuse via 0xC061 vsLength s
  else succeed via 0xC061 ((List.range (n / 8)).flatMap (fun i =>
    leBytes 1 (bitsOf 8 (fun b => bmGet s.med.released (a + 8 * i + b))))) s

def execGetReleaseBitmap (via : Transport) (input : List Byte) (s : State) : Host.Outcome State Fault Refusal :=
  run (command via 0xC061 .hub (len 8) input (releaseBitmap via input)) s

/-- Get Media Status. -/
def mediaRegs : List Fld :=
  [F.HUB_PLC_CFG_CKPT_MIN, F.HUB_PLC_STATUS_WRITE_LIMITED, F.HUB_XTAB_USED, F.HUB_EPOCH_PE, F.HUB_PATROL_CFG_HOURS,
   F.HUB_PATROL_POS_REGION, F.HUB_CKPT_SEQ]

def execGetMediaStatus (via : Transport) (input : List Byte) (s : State) : Host.Outcome State Fault Refusal :=
  run (command via 0xC062 .hub (len 0) input
    (fun s => succeed via 0xC062 (mediaRegs.flatMap (fun f => leBytes 4 (regWord s f 0))) s)) s

/-- Set Patrol: the fields of HUB_PATROL_CFG, and perhaps a new pass. -/
def setPatrol (via : Transport) (input : List Byte) (s : State) : State :=
  let hours := leAt 0 1 input
  let thresh := leAt 1 1 input
  let bits := leAt 2 1 input
  if thresh = 0 || 20 < thresh || 3 < bits || !rsvOk 3 1 input then refuse via 0xC063 vsBadArg s
  else if rangeProtected s homePatrol 4 then refuseProt via 0xC063 s
  else
    storeFor via 0xC063 homePatrol (leBytes 4 (hours + thresh * 256 + bits % 2 * 8192))
      ([(homePatrol, 4)] ++ (if 2 ≤ bits then [(homePatrol, 0)] else [])) [] s

def execSetPatrol (via : Transport) (input : List Byte) (s : State) : Host.Outcome State Fault Refusal :=
  run (command via 0xC063 .working (len 4) input (setPatrol via input)) s

/-! ### Peloton and tandem (R356, R357) -/

/-- The registers of Get Peloton Status and of Get Tandem Status. -/
def pelRegs : List Fld :=
  [F.PEL_STATUS_DEVID, F.PEL_PRESENT_HEARD, F.PEL_CFG_IN_DELAY, F.PEL_ERR_DELAY_CHECK, F.PEL_CRC_COUNT_COUNT, F.PEL_RTT_MEASURED]
def tndRegs : List Fld :=
  [F.TND_STATUS_LINK, F.TND_CFG_PARTNER, F.TND_REGIONS_OWN, F.TND_DIVERGE_EXTENTS, F.TND_RESYNC_EXTENTS, F.TND_MIRRORED_COUNT,
   F.TND_ERR_LINK_LOST, F.TND_CREDIT_HELD]

def execGetPelotonStatus (via : Transport) (input : List Byte) (s : State) : Host.Outcome State Fault Refusal :=
  run (command via 0xC070 .hub (len 0) input
    (fun s => succeed via 0xC070 (pelRegs.flatMap (fun f => leBytes 4 (regWord s f 0))) s)) s

/-- Set Peloton Config. -/
def setPeloton (via : Transport) (input : List Byte) (s : State) : State :=
  let w := leAt 0 4 input
  if !imageOk F.PEL_CFG_IN_DELAY w then refuse via 0xC071 vsBadArg s
  else if rangeProtected s homePel 4 then refuseProt via 0xC071 s
  else storeFor via 0xC071 homePel (leBytes 4 (imageRw F.PEL_CFG_IN_DELAY w)) [(homePel, 4)] [] s

def execSetPelotonConfig (via : Transport) (input : List Byte) (s : State) : Host.Outcome State Fault Refusal :=
  run (command via 0xC071 .maintenance (len 4) input (setPeloton via input)) s

/-- Get Tandem Status. -/
def tandemStatus (s : State) : List Byte :=
  tndRegs.flatMap (fun f => leBytes 4 (regWord s f 0)) ++ leBytes 8 s.tnd.serial.toNat ++ regionBytes s.tnd.own

def execGetTandemStatus (via : Transport) (input : List Byte) (s : State) : Host.Outcome State Fault Refusal :=
  run (command via 0xC072 .hub (len 0) input (fun s => succeed via 0xC072 (tandemStatus s) s)) s

/-- The highest region a bitmap holds, plus 1. -/
def bitmapTop (bs : List Byte) : Nat :=
  ((List.range 3584).filter (fun m => (bs.getD (m / 8) 0).getLsbD (m % 8))).foldl (fun t m => max t (m + 1)) 0

/-- Set Tandem Configuration: TND_CFG, the partner's serial number, the mirrored regions. -/
def setTandem (via : Transport) (input : List Byte) (s : State) : State :=
  let cfg := leAt 0 4 input
  let base := fieldOf F.TND_CFG_MIRROR_BASE cfg
  let map := input.drop 12
  let link := fget s F.TND_STATUS_LINK 0
  if !imageOk F.TND_CFG_PARTNER cfg || base < bitmapTop map || Config.capacity s.config / 2 ^ 30 ≤ base then refuse via 0xC073 vsBadArg s
  else if link = 2 || link = 3 then refuse via 0xC073 vsConflict s
  else if rangeProtected s homeTnd 12 || rangeProtected s (homeTnd + 256) 448 then refuseProt via 0xC073 s
  else
    s |> sbStore homeTnd (input.take 12) |> sbStore (homeTnd + 256) map
      |> finishStored via 0xC073 [849, 850, 851] [(homeTnd, 704)] []

def execSetTandemConfiguration (via : Transport) (input : List Byte) (s : State) : Host.Outcome State Fault Refusal :=
  run (command via 0xC073 .maintenance (len 460) input (setTandem via input)) s

end Sys2Proof.Machine
end

