-- ==== Sys2Proof/Machine/MediaEvents.lean ====
section
/-! DEFINITION. The meanings of the dies' event frames and of the media's and the cache's periodic work (chapters 03 and
06). -/
namespace Sys2Proof.Machine

/-! ### Frames (R173, R176) -/

/-- The bank a frame names (R176). -/
def frameBank (f : EventFrame) : Nat := bankNo ⟨f.w, f.d, f.bank⟩

/-- Is a frame acted on: its CRC is good and it names the command `id`? Others change nothing (DESIGN CHOICE, log 92). -/
def frameFor (kind id : Nat) (f : EventFrame) : Bool := frameGood kind f && f.id.toNat == id

/-- The program that a frame of a kind concerns: the one that runs in its bank. -/
def frameProg (kind : Nat) (f : EventFrame) (s : State) : Option Desc :=
  if frameFor kind 3 f then ((bankSt s (frameBank f)).prog.filter Prog.runs).map (fun p => p.op) else none

/-- A program leaves its bank. One of a home block counts in its wheel's wear; single-level blocks never do (R130, R145, R291). -/
def programEnds (n : Nat) (d : Desc) (s : State) : State :=
  s |> onBank n (fun b => { b with prog := none }) |> when (!d.sl) (countLife (bankWheel n))

/-! ### Programs that verify (R176) -/

/-- A line has been programmed: its failed attempts are forgotten (R155). -/
def lineVerified (d : Desc) (s : State) : State :=
  s |> programLine d |> onMed (fun m => { m with attempts := tabDel d.ma m.attempts })

/-- What patrol has seen of a line is old once the line has been programmed. -/
def forgetSeen (d : Desc) (s : State) : State :=
  onMed (fun m => { m with patrol := { m.patrol with visit := m.patrol.visit.map (fun v =>
    if slotMa s v.region v.slot == d.ma / 16 * 16 then { v with seen := v.seen.filter (fun x => x.k != d.ma % 16) } else v) } }) s

/-- A home program of host data has verified; the region's write count is the hub's to advance (R106, R150). -/
def homeProgram (d : Desc) (s : State) : State :=
  s |> lineVerified d |> forgetSeen d
    |> onSched (fun q => { q with jobs := q.jobs ++ [.writeCount (slotOfLine s d.line).1] })

/-- The first write-back into a released extent ends its release (R159). -/
def endRelease (line : Nat) (s : State) : State :=
  let e := extentOf line
  if bmGet s.med.released e && !bmGet s.med.relPending e then
    onMed (fun m => { m with released := bmSet m.released e false }) s
  else s

/-- The drain of a line that has just verified at home is not needed (R142). -/
def dropDrain (loc : Nat) (s : State) : State :=
  onSched (fun q => { q with queue := q.queue.filter (fun d => match d.kind with | .drainLine l _ _ => l != loc | _ => true) }) s

/-- The line a write-back programmed becomes clean if it has not changed since (R85). In bypass a clean line does not stay, unless
it is locked (R74, R82). -/
def cleanAfter (d : Desc) (s : State) : State :=
  match locate s d.line with
  | none => s
  | some loc =>
    if (dirAt s loc).dv && !locPinned s loc && sameAsProgrammed s loc d then
      s |> (if cacheBypass s && !onLockList s d.line then dropLoc loc else makeClean loc) |> dropDrain loc
    else s

/-- A write-back has verified. -/
def writeBackDone (d : Desc) (s : State) : State :=
  s |> homeProgram d |> endRelease d.line
    |> onMed (fun m => { m with restoreLeft := nsDel d.line m.restoreLeft })
    |> cleanAfter d |> flushed d.line |> ackProgram d.id |> fwProgress

/-- Does a copy of a gap move lie in the target as it is mapped now? -/
def gapTarget (s : State) (r k ma : Nat) : Bool :=
  match gapOf s r with
  | some g => g.stage == .copying && ma == gapMa s r g.dst + k
  | none => false

/-- A copy of a gap move has verified. -/
def gapCopyDone (r k : Nat) (d : Desc) (s : State) : State :=
  if gapTarget s r k d.ma then s |> lineVerified d |> gapLineDone r k else s

/-- A copy of a retirement has verified in the spare. -/
def retireCopyDone (r slot k : Nat) (d : Desc) (s : State) : State :=
  match s.med.retire with
  | none => s
  | some t =>
    if t.region = r && t.slot = slot && d.ma = t.spare + k then s |> lineVerified d |> retireLineDone k
    else s

/-- A drain program has verified: the slot holds the line as it was encrypted, and the line leaves the dirty set (R138). -/
def drainDone (loc area slot : Nat) (d : Desc) (s : State) : State :=
  let x := dirAt s loc
  s |> putDrain area (locSlice loc) slot
        ⟨if x.scr then scratchIx x.line else x.line, locSv s loc, d.sp, x.scr, x.p, true, d.data, d.key, (opTweak d).getD 0⟩
    |> makeClean loc |> onFw (fun f => { f with drained := f.drained + 1 }) |> fwProgress

/-- An index line has verified (R139). -/
def indexDone (w k : Nat) (s : State) : State :=
  if s.fw.stage = .indexing then
    s |> onMed (fun m => { m with index := tabPut ((s.fw.area * 16 + w) * 4096 + k) (indexNow s w k) m.index }) |> fwProgress
  else s

/-- Does the seal block of a slot belong to a checkpoint that is still written? One that a trip overtook stays unsealed (R142), and
so does that of a drain that has been stopped (R206). -/
def sealCounts (slot : Nat) (s : State) : Bool :=
  let c := ckptAt s slot
  (match s.med.ckptNow with | some x => x.slot == slot | none => false)
    && (if c.kind = 2 || c.kind = 3 then s.fw.stage == .sealing else inService s || s.mode == .recover)

/-- HUB_CKPT shows the newest sealed checkpoint; a service checkpoint goes into the stored counter as well (R181, R193). -/
def noteCkpt (slot : Nat) (c : Ckpt) (s : State) : State :=
  s |> fput F.HUB_CKPT_SEQ 0 c.seq |> fput F.HUB_CKPT_KIND 0 c.kind |> fput F.HUB_CKPT_SLOT 0 slot
    |> when (c.kind == 1) (ctrUpdate ctrHubCkpt (ckptImage c.seq c.kind slot))

/-- A checkpoint's seal block has verified (R140). -/
def sealDone (slot : Nat) (s : State) : State :=
  if sealCounts slot s then
    let c := ckptAt s slot
    let s1 := s |> onMed (fun m => { m with ckpts := tabSet ckptReset slot { c with sealed := true } m.ckpts, ckptNow := none })
      |> noteCkpt slot c
    if c.kind = 1 then s1
    else if c.kind = 4 then s1 |> areaRetired |> eraseEnd |> fallbackSealed
    else s1 |> onFw (fun f => { f with sealed := true }) |> when (s.mode == .brake || s.fw.toBrake) (fset F.HUB_BRAKE_SEALED 0)
      |> toRecording
  else s

/-- A line programmed home in RECOVER has verified. -/
def restoreHomeDone (key : Nat) (d : Desc) (s : State) : State :=
  s |> homeProgram d |> endRelease d.line |> onLife (fun l => { l with homeTodo := nsDel key l.homeTodo })
    |> fadd F.HUB_RESTORE_HOME_LINES 0 1 |> recProgress

/-- What the verified operation does. -/
def verifiedOp (d : Desc) (s : State) : State :=
  match d.kind with
  | .writeBack _ => writeBackDone d s
  | .gapCopy r k => gapCopyDone r k d s
  | .rewrite => homeProgram d s
  | .retireCopy r slot k => retireCopyDone r slot k d s
  | .drainLine loc area slot => drainDone loc area slot d s
  | .restoreHome key => restoreHomeDone key d s
  | .indexLine w k => indexDone w k s
  | .bodyLine slot _ => bodyLineDone slot s
  | .seal slot => sealDone slot s
  | _ => s

/-- The running program of the frame's bank has verified. -/
def programVerified (f : EventFrame) (s : State) : State :=
  match frameProg 0 f s with
  | some d => s |> programEnds (frameBank f) d |> verifiedOp d |> gates
  | none => s

def execProgramVerified (f : EventFrame) (s : State) : Host.Outcome State Fault Refusal := onWheel f.w (programVerified f) s

/-! ### Programs that fail (R138, R155 to R157) -/

/-- A write-back that is given up carries no store any more. -/
def uncarry (id : Nat) (s : State) : State :=
  onSched (fun q => { q with ctxs := q.ctxs.map (fun c => if c.carried = id + 1 then { c with carried := 0 } else c) }) s

/-- A program of a line has failed its verify: is it the third attempt in a row? The count begins again then (R155). -/
def thirdFailure (s : State) (ma : Nat) : Bool := decide (2 ≤ tabGet 0 s.med.attempts ma)
def countFailure (ma : Nat) (s : State) : State :=
  onMed (fun m => { m with attempts := if thirdFailure s ma then tabDel ma m.attempts else tabPut ma (tabGet 0 m.attempts ma + 1) m.attempts }) s

/-- A home program fails: the third failure in a row retires the slot; a write-back of a block that is held meanwhile waits in
the directory. -/
def homeFails (d : Desc) (s : State) : State :=
  let rs := slotOfLine s d.line
  let s1 := countFailure d.ma s
  if thirdFailure s d.ma then s1 |> uncarry d.id |> startRetire rs.1 rs.2 false
  else if gapHolds s rs.1 rs.2 || retireHolds s rs.1 rs.2 then uncarry d.id s1
  else requeue d s1

/-- A line that goes home in RECOVER is programmed again, also when its slot will be retired in SERVICE. -/
def restoreFails (d : Desc) (s : State) : State :=
  let rs := slotOfLine s d.line
  s |> countFailure d.ma |> requeue d |> when (thirdFailure s d.ma) (startRetire rs.1 rs.2 false)

/-- The spare under copy fails: the third failure of a line in a row takes another spare. -/
def spareFails (d : Desc) (s : State) : State := s |> countFailure d.ma |> (if thirdFailure s d.ma then retireAgain else requeue d)

/-- A gap target fails: its copies stop, and it is retired at once (R157). -/
def gapAgain (r : Nat) (s : State) : State :=
  match gapOf s r with
  | none => s
  | some g =>
    s |> gapRestart .queued r
      |> dropOps (fun e => match e.kind with | .gapCopy q _ => q == r | .tagClrGap q => q == r | _ => false)
      |> startRetire r g.dst true

/-- A copy into a gap target has failed. -/
def gapFails (r k : Nat) (d : Desc) (s : State) : State := if gapTarget s r k d.ma then gapAgain r s else s

/-- A failed drain slot is left invalid, and the line goes to the next slot (R138). -/
def drainFails (area slot loc : Nat) (s : State) : State := s |> putDrain area (locSlice loc) slot drainReset |> fwProgress

/-- What a failed operation leads to. The controller's own lines are written again. -/
def failedOp (d : Desc) (s : State) : State :=
  match d.kind with
  | .drainLine loc area slot => drainFails area slot loc s
  | .gapCopy r k => gapFails r k d s
  | .retireCopy _ _ _ => spareFails d s
  | .indexLine _ _ => requeue d s
  | .bodyLine _ _ => requeue d s
  | .seal _ => requeue d s
  | .restoreHome _ => restoreFails d s
  | _ => homeFails d s

/-- The running program of the frame's bank has failed its verify. -/
def verifyFailed (f : EventFrame) (s : State) : State :=
  match frameProg 1 f s with
  | some d => s |> programEnds (frameBank f) d |> failedOp d |> gates
  | none => s

def execVerifyFailed (f : EventFrame) (s : State) : Host.Outcome State Fault Refusal := onWheel f.w (verifyFailed f) s

/-! ### The bank at a safe point; packets and data issued again (R96, R111, R173 to R175) -/

/-- The bank is ready to sense as soon as its program has stopped. -/
def suspendedFrame (f : EventFrame) (s : State) : State :=
  let n := frameBank f
  match (bankSt s n).prog with
  | some p => if frameFor 2 4 f && p.suspended then onBank n (fun b => { b with readyAt := min b.readyAt s.gtc }) s else s
  | none => s

def execSuspendedAtSafePoint (f : EventFrame) (s : State) : Host.Outcome State Fault Refusal := onWheel f.w (suspendedFrame f) s

/-- The demand read of a bank whose command of opcode `op` an identifier names, in state `st`. -/
def frameDemand (op id n : Nat) (st : CtxState) (s : State) : Option Ctx :=
  s.sched.ctxs.find? (fun c => c.st == st && maBank c.ma == n && cmdId op (.demandRead c.tag) == id)

/-- Is the command of an identifier still open at its bank? -/
def cmdOpen (n id : Nat) (s : State) : Bool :=
  let b := bankSt s n
  if id = 1 then b.sense.isSome
  else if id = 2 then b.decoding.isSome
  else if id = 3 then (match b.prog with | some p => p.runs | none => false)
  else if id = 4 then (match b.prog with | some p => p.suspended | none => false)
  else if id = 5 then (match b.prog with | some p => p.runs | none => false)
  else if id = 7 then b.tagop.isSome
  else if 160 ≤ id then (frameDemand 2 id n .decode2 s).isSome
  else if 64 ≤ id then (frameDemand 1 id n .sense s).isSome
  else true

/-- Will an identifier's packet be issued again: its command is open, and the packet is kept? -/
def canReissue (n id : Nat) (s : State) : Bool := cmdOpen n id s && tabHas s.med.sent (n * 256 + id)

/-- The demand sense of a context starts again; where its data now comes after its window, which never moves, it takes another one
besides (R108, R112). -/
def senseAgain (c : Ctx) (s : State) : State :=
  let ready := s.gtc + 150
  s |> onCtx c.tag (fun c => { c with reissued := true, ready := ready })
    |> when (decide (c.window < ready)) (bookWindow c.tag (maBank c.ma) ready)

/-- The packet of an identifier is issued again, and counted (R111, R173). -/
def reissue (n id : Nat) (s : State) : State :=
  if canReissue n id s then
    s |> (match frameDemand 1 id n .sense s with | some c => senseAgain c | none => fun s => s)
      |> when (id == 1) (onBank n (fun b => { b with senseReady := s.gtc + 150 }))
      |> sendAgain n id |> finc F.MMBn_REISSUE_COUNT (bankWheel n)
  else s

/-- A packet with a CRC error: the wheel issues it again; more than 16 on a channel in a second are a burst (R173,
R179). -/
def caCrc (f : EventFrame) (s : State) : State :=
  let w := f.w.val
  let old := (tabGet [] s.med.caErrs w).filter (fun t => decide (s.gtc < t + 1000000000))
  if coreOn s && frameGood 3 f then
    s |> finc F.MMBn_CACRC_COUNT w
      |> onMed (fun m => { m with caErrs := tabSet [] w (old ++ [s.gtc]) m.caErrs })
      |> when (decide (16 ≤ old.length)) (fun s => s |> fset F.MMBn_ERR_CA_BURST w |> land 0x09 4 (srcWheel w) 0 none)
      |> reissue (frameBank f) f.id.toNat
  else s

def execCaCrcError (f : EventFrame) (s : State) : Host.Outcome State Fault Refusal := onWheel f.w (caCrc f) s

/-- A write-data CRC error: the wheel sends the PROG again (R175). -/
def writeCrc (f : EventFrame) (s : State) : State :=
  if coreOn s && frameGood 4 f then s |> finc F.MMBn_WCRC_COUNT f.w.val |> reissue (frameBank f) f.id.toNat else s

def execWriteCrcError (f : EventFrame) (s : State) : Host.Outcome State Fault Refusal := onWheel f.w (writeCrc f) s

/-- A refused SENSE: the die's sets were lost; REFLOAD, then the SENSE again (R174, R111). -/
def bandMismatch (f : EventFrame) (s : State) : State :=
  let n := frameBank f
  if coreOn s && frameGood 8 f && canReissue n f.id.toNat s then
    s |> sendReload f.w.val f.d.val (dieBand s f.w.val f.d.val) |> reissue n f.id.toNat
  else s

def execBandMismatch (f : EventFrame) (s : State) : Host.Outcome State Fault Refusal := onWheel f.w (bandMismatch f) s

/-! ### Tag operations (R158, R161, R164, R168, R174, R192) -/

/-- Rows of a bank with a written line. -/
def bankRows (s : State) (n : Nat) : List Nat :=
  (s.med.lines.filterMap (fun x => if maBank x.1 = n then some (x.1 / 16) else none)).eraseDups

/-- TAGAGE in a bank: rows with tag `v` become settled. -/
def settleTags (n v : Nat) (s : State) : State :=
  onMed (fun m => { m with tags := (bankRows s n).foldl (fun t row =>
    if (tabGet tagReset t row).tag = v then tabSet tagReset row ⟨v, true⟩ t else t) m.tags }) s

/-- Every bank has completed the TAGAGE: PE advances, or the sweep of RECOVER ends. -/
def agingDone (s : State) : State :=
  if s.mode = .recover && s.life.step = .sweep then s |> fclr F.HUB_EPOCH_AGING 0 |> closeRecord
  else match s.med.aging with
    | none => fclr F.HUB_EPOCH_AGING 0 s
    | some _ =>
      let pe := (s.med.pe + 1) % 2 ^ 32
      s |> onMed (fun m => { m with pe := pe, aging := none }) |> fput F.HUB_EPOCH_PE 0 pe |> fclr F.HUB_EPOCH_AGING 0
        |> ctrUpdate ctrEpoch pe |> learnAll

/-- The TAGAGE of a value has completed in a bank. -/
def ageDone (n v : Nat) (s : State) : State :=
  if nsHas (n * 8 + v) s.med.agingLeft then
    let s1 := s |> settleTags n v |> onMed (fun m => { m with agingLeft := nsDel (n * 8 + v) m.agingLeft })
    if s1.med.agingLeft.isEmpty then agingDone s1 else s1
  else s

/-- The tag operation of a bank has completed. -/
def clrOpDone (n : Nat) (s : State) : State :=
  match (bankSt s n).tagop with
  | none => s
  | some d =>
    let s1 := s |> onBank n (fun b => { b with tagop := none }) |> clearRow d.ma
    match d.kind with
    | .tagClr e => clrDone e s1
    | .tagClrGap r => gapCleared r s1
    | _ => s1

/-- A TAGCLR or TAGAGE has completed: the frame's identifier tells which. -/
def tagDone (f : EventFrame) (s : State) : State :=
  let n := frameBank f
  let id := f.id.toNat
  if !frameGood 5 f then s
  else if id = cmdId 7 .tagClrSpare then s |> clrOpDone n |> gates
  else if id = dieId 7 255 then (if nsHas (f.w.val * 8 + f.d.val) s.med.clrDies then s |> dieCleared f.w.val f.d.val |> eraseEnd else s)
  else if 8 ≤ id && id < 16 then ageDone n (id - 8) s
  else s

def execTagOperationDone (f : EventFrame) (s : State) : Host.Outcome State Fault Refusal := onWheel f.w (tagDone f) s

/-! ### Die faults (R155, R172, R176, R178, R179, R193) -/

/-- A die's thermal limit: the controller learns it, and the die's alert line, R172, does the rest. -/
def thermalLimit (f : EventFrame) (s : State) : State := when (coreOn s && frameGood 6 f) (fset F.MMBn_ERR_ALERT f.w.val) s

def execThermalLimit (f : EventFrame) (s : State) : Host.Outcome State Fault Refusal := onWheel f.w (thermalLimit f) s

/-- A die's alert line is asserted. -/
def mmbAlert (w : Wheel) (s : State) : State := when (coreOn s) (fset F.MMBn_ERR_ALERT w.val) s

def execMmbAlert (w : Wheel) (s : State) : Host.Outcome State Fault Refusal := onWheel w (mmbAlert w) s

/-- A die's CHECK in RECOVER: a fault latches BRAKE; when every die has passed, the checkpoints are read (R193). -/
def selfCheck (f : EventFrame) (s : State) : State :=
  let w := f.w.val
  let k := w * 8 + f.d.val
  if frameFor 7 (dieId 12 0) f && s.mode = .recover && s.life.step = .check && nsHas k s.life.checkLeft then
    if f.detail = 0 then
      let s1 := s |> onLife (fun l => { l with checkLeft := nsDel k l.checkLeft })
        |> fput F.MMBn_STATUS_CHECKED w (fget s F.MMBn_STATUS_CHECKED w + (if fget s F.MMBn_STATUS_CHECKED w / 2 ^ f.d.val % 2 = 1 then 0 else 2 ^ f.d.val))
      if s1.life.checkLeft.isEmpty then s1 |> onLife (fun l => { l with step := .reading }) else s1
    else s |> fset F.MMBn_ERR_CHECK_FAIL w |> land 0x09 4 (srcWheel w) 0 none |> latchBrake 7 (srcDie w f.d.val)
  else s

def execSelfCheckResult (f : EventFrame) (s : State) : Host.Outcome State Fault Refusal := onWheel f.w (selfCheck f) s

/-- The operation a row fault concerns: the program, the sense, the tag operation or the demand read that its identifier names. -/
def faultOp (n id : Nat) (s : State) : Option Desc :=
  let b := bankSt s n
  if id = 1 then b.sense
  else if id = 3 then (b.prog.filter Prog.runs).map (fun p => p.op)
  else if id = 7 then b.tagop
  else (frameDemand 1 id n .sense s).bind (fun c => demandDesc s c.tag)

/-- Region and slot of the block at an MA: that of the exception entry which names it, else that of its row, unless it is remapped or
no rotation slot. -/
def slotAtMa (s : State) (ma : Nat) : Option (Nat × Nat) :=
  match s.med.xtab.find? (fun e => !e.dead && e.spare / 16 == ma / 16) with
  | some e => some (e.region, e.slot)
  | none =>
    let slot := ma / 16 % 262144
    ((wheelRegions s (bankWheel (maBank ma))).find? (fun r =>
      rowMa s r 0 / 4194304 == ma / 4194304 && slotMa s r slot / 16 == ma / 16 && decide (slot ≤ Config.rotN))).map (fun r => (r, slot))

/-- The slot that lies at an MA is retired. -/
def retireAt (ma : Nat) (s : State) : State :=
  match slotAtMa s ma with | some rs => startRetire rs.1 rs.2 false s | none => s

/-- What a row fault of a command leads to (R155): the operation is given up or repeated, and the slot is retired. A write-back's line
stays dirty; what copies the slot reads it again. -/
def faultedOp (id : Nat) (d : Desc) (s : State) : State :=
  match d.kind with
  | .demandRead _ => retireAt d.ma s
  | .gapCopy r k => if id = 3 then gapFails r k d s else retireAt d.ma s
  | .retireCopy _ _ _ => if id = 3 then retireAgain s else s
  | .drainLine loc area slot => drainFails area slot loc s
  | .restoreHome _ => s |> requeue d |> retireAt d.ma
  | .indexLine _ _ => requeue d s
  | .bodyLine _ _ => requeue d s
  | .seal _ => requeue d s
  | .tagClr _ => s |> requeue d |> retireAt d.ma
  | .tagClrGap r => gapAgain r s
  | .tagClrSpare => retireAgain s
  | _ => s |> uncarry d.id |> retireAt d.ma

/-- A die reports a row fault. -/
def rowFault (f : EventFrame) (s : State) : State :=
  let n := frameBank f
  let id := f.id.toNat
  if coreOn s && frameGood 9 f then
    let s0 := fset F.MMBn_ERR_ROW_FAULT f.w.val s
    match faultOp n id s with
    | none => s0
    | some d =>
      s0 |> onBank n (fun b => if id = 1 then { b with sense := none } else if id = 3 then { b with prog := none }
              else if id = 7 then { b with tagop := none } else b)
         |> faultedOp id d |> gates
  else s

def execRowFault (f : EventFrame) (s : State) : Host.Outcome State Fault Refusal := onWheel f.w (rowFault f) s

/-! ### The cache scrub (R71 to R73, R77) -/

/-- Is a sector of a way checked for errors: the way holds a line, and the sector is valid (R64)? -/
def sectorHeld (s : State) (loc sector : Nat) : Bool := (wayAt s loc).v && (wayAt s loc).sv.getLsbD sector

/-- The scrub rewrites a scratch way's tag (R70); the report is the model's choice (log 78). -/
def rewriteScratchTag (loc : Nat) (s : State) : State :=
  s |> finc F.CCHn_TAGPAR_COUNT (locSlice loc) |> fset F.CCHn_ERR_TAGPAR_DIRTY (locSlice loc) |> lastErr loc 4

/-- The scrub finds a tag parity error: the third in a row takes the way out of use until RAMP (R72). -/
def scrubTag (loc : Nat) (dir : DirCheck) (s : State) : State :=
  let f := tagParity loc dir s
  let runs := (wayAt s loc).runs + 1
  let y := wayAt f.st loc
  if locScratch s loc then rewriteScratchTag loc s
  else if f.lost then directoryLost loc f.st
  else
    f.st |> setWay loc { y with runs := runs, perm := y.perm || decide (3 ≤ runs) }
      |> when (decide (3 ≤ runs) && !y.perm) (land 0x0A 4 (srcWheel (locSlice loc)) 0 none)

/-- One finding of the scrub. -/
def scrubOne (w : Nat) (set : Nat) (x : ScrubFinding) (s : State) : State :=
  let loc := wayLoc w set x.way.val
  match x.found with
  | .clean => s
  | .sec => when (sectorHeld s loc x.sector.val) (secErr loc) s
  | .ded => when (sectorHeld s loc x.sector.val) (dedErr loc x.sector.val 5) s
  | .portSec => s
  | .dirSec _ => dirErr loc s
  | .dirWord _ => dirWordErr loc s
  | .tagPar _ dir => scrubTag loc dir s

/-- A finding of the drain's walk of the directory (R73): only the loss of a line matters to it (log 79). -/
def walkOne (w : Nat) (set : Nat) (x : ScrubFinding) (s : State) : State :=
  match x.found with
  | .tagPar way .bad =>
    let f := tagParity (wayLoc w set way.val) .bad s
    if f.lost then directoryLost f.loc f.st else s
  | _ => s

/-- A way whose tag read good ends its run of errors; one out of use returns to use, from the next tick (R71, R72). -/
def scrubWay (w set : Nat) (found : List ScrubFinding) (i : Nat) (s : State) : State :=
  let loc := wayLoc w set i
  let bad := found.any (fun x => x.way.val == i && (match x.found with | .tagPar _ _ => true | _ => false))
  let y := wayAt s loc
  if bad then s
  else
    s |> when (y.runs != 0) (setWay loc { y with runs := 0, off := false })
      |> when (y.off && y.runs == 0) (setWay loc { y with off := false })
      |> when y.off (onCache (fun c => { c with fresh := nsAdd loc c.fresh }))

/-- Locked lines of the set that are not resident are filled and locked again (R77). -/
def relock (w set : Nat) (s : State) : State :=
  forEach (s.cache.lockList.filter (fun l => wheelOf s l == w && setOf s l == set && (locate s l).isNone
      && !anyOp s (fun d => d.kind == .lockFill && d.line == l)))
    (fun line s => enqueue (mkDesc .lockFill .background (maBank (maOf s line)) line (maOf s line) false true) s) s

/-- The scrub visits the slice's next set: words are corrected, parity is checked, scratch tags are rewritten and ways
return to use. -/
def scrubVisit (w : Wheel) (found : List ScrubFinding) (s : State) : State :=
  let set := tabGet 0 s.cache.scrubSet w.val
  if draining s then forEach found (walkOne w.val set) s
  else if inService s then
    s |> forEach found (scrubOne w.val set)
      |> forEach (List.range 16) (scrubWay w.val set found)
      |> relock w.val set
      |> onCache (fun c => { c with scrubSet := tabSet 0 w.val ((set + 1) % 4096) c.scrubSet })
  else s

def execScrubSetVisit (w : Wheel) (found : List ScrubFinding) (s : State) : Host.Outcome State Fault Refusal :=
  onWheel w (scrubVisit w found) s

/-! ### Epochs, bands, drift of the strobes, checkpoints (R164, R166, R169, R178) -/

/-- TAGAGE of the tag that the next epoch will use goes to every bank (R164). -/
def epochAdvance (s : State) : State :=
  if inService s && s.med.aging.isNone && s.med.agingLeft.isEmpty then
    let v := (s.med.pe + 1) % 8
    let banks := List.range (Config.banks s.config)
    s |> onMed (fun m => { m with aging := some v, agingLeft := banks.map (fun n => n * 8 + v) })
      |> fset F.HUB_EPOCH_AGING 0
      |> forEach banks (fun n s => sendDie 8 (bankWheel n) (bankDie n) (bankInDie n) 0 v s)
  else s

def execEpochAdvance (s : State) : Host.Outcome State Fault Refusal := run epochAdvance s

/-- The band of a temperature, when the present band is `b` and a change needs 3 °C beyond the edge (R166). -/
def newBand (b : Nat) (t : Int) : Nat :=
  let up := if 78 ≤ t then 3 else if 58 ≤ t then 2 else if 38 ≤ t then 1 else 0
  let down := if 72 < t then 3 else if 52 < t then 2 else if 32 < t then 1 else 0
  if b < up then up else if down < b then down else b

/-- The hottest die of a channel: temperature and die. -/
def hottest (s : State) (w : Nat) : Int × Nat :=
  (List.range 8).foldl (fun m d => let t := tabGet 0 s.med.temps (w * 8 + d); if m.1 < t then (t, d) else m)
    (tabGet 0 s.med.temps (w * 8), 0)

/-- A die's band `b` is kept, or its REFLOAD waits for a non-demand window; what waited for another band is not wanted any more. -/
def followBand (w d b b' : Nat) (s : State) : State :=
  if b' = b then onMed (fun m => { m with dieWait := m.dieWait.filter (fun x => !(x.w == w && x.d == d && x.band.isSome && x.band != some b)) }) s
  else s |> wantReload w d b' |> sendWaits

/-- The wheel has read a die's temperature. -/
def temperatureRead (w : Wheel) (d : Die) (c : Int) (s : State) : State :=
  if coreOn s then
    let b := dieBand s w.val d.val
    let s1 := onMed (fun m => { m with temps := tabSet 0 (w.val * 8 + d.val) c m.temps }) s
    let h := hottest s1 w.val
    s1 |> fput F.MMBn_TEMP_MAX_C w.val (h.1 % 256).toNat |> fput F.MMBn_TEMP_MAX_DIE w.val h.2
       |> followBand w.val d.val b (newBand b c)
  else s

def execDieTemperatureRead (w : Wheel) (d : Die) (celsius : Int) (s : State) : Host.Outcome State Fault Refusal :=
  onWheel w (temperatureRead w d celsius) s

/-- Each wheel reads its dies' oscillator counts with MRR in non-demand windows; the delays it corrects are timing (log 70). -/
def dqsTrack (w : Wheel) (s : State) : State :=
  if inService s then
    s |> onMed (fun m => { m with dieWait := m.dieWait ++ (List.range 8).map (fun d => ⟨w.val, d, none⟩) }) |> sendWaits
  else s

def execDqsDriftTrack (w : Wheel) (s : State) : Host.Outcome State Fault Refusal := onWheel w (dqsTrack w) s

/-- The service checkpoint falls due. -/
def checkpointDue (s : State) : State := if inService s then s |> dueCkpt |> serviceCkpt else s

def execServiceCheckpointDue (s : State) : Host.Outcome State Fault Refusal := run checkpointDue s

end Sys2Proof.Machine
end

