-- ==== Sys2Proof/Machine/PortView.lean ====
section
/-! DEFINITION. What the host reads of the function (R32, R36 to R41, R59, R331): the supported features, the PCI header, the
extended capabilities, the DVSECs, and BAR0. Register layouts that the manual leaves to PCI Express and CXL 3.1 are PRESUMED
(log 95). -/
namespace Sys2Proof.Machine

/-! ### Features (R32) -/

/-- The features that R32's table names. -/
inductive PortFeature where
  | flit256
  | flit68
  | flitLatencyOptimised
  | flitPbr
  | link (width rate : Nat)
  | cxlIo
  | cxlMem
  | cxlCache
  | multiLogicalDevice
  | dynamicCapacity
  | backInvalidate
  | hdmDecoder (n : Nat)
  | interleave (ways granularity : Nat)
  | dataPoison
  | viral
  | aer
  | ras
  | generalMediaEvent
  | memoryModuleEvent
  | dramEvent
  | dynamicCapacityEvent
  | labelStorage
  | gpf
  | cxlIde
  | pcieLinkIde
  | pcieSelectiveIde
  | spdm12
  | cdat
  | performanceMonitor
  | flr
  | hotReset
  | cxlReset
  deriving DecidableEq, Repr

/-- The table of R32. -/
def supported : PortFeature → Bool
  | .flit256 => true
  | .flit68 => false
  | .flitLatencyOptimised => false
  | .flitPbr => false
  | .link w r => linkSupported w r
  | .cxlIo => true
  | .cxlMem => true
  | .cxlCache => false
  | .multiLogicalDevice => false
  | .dynamicCapacity => false
  | .backInvalidate => false
  | .hdmDecoder n => decide (n < 8)
  | .interleave w g => [1, 2, 4, 8, 16].contains w && [256, 512, 1024, 2048, 4096, 8192, 16384].contains g
  | .dataPoison => true
  | .viral => true
  | .aer => true
  | .ras => true
  | .generalMediaEvent => true
  | .memoryModuleEvent => true
  | .dramEvent => false
  | .dynamicCapacityEvent => false
  | .labelStorage => true
  | .gpf => true
  | .cxlIde => true
  | .pcieLinkIde => true
  | .pcieSelectiveIde => false
  | .spdm12 => true
  | .cdat => true
  | .performanceMonitor => false
  | .flr => true
  | .hotReset => true
  | .cxlReset => true

/-! ### Configuration space (R36 to R38) -/

/-- The PCI header's values. -/
structure PciHeader where
  vendor : Nat
  device : Nat
  revision : Nat
  classCode : Nat
  subsystemVendor : Nat
  subsystemId : Nat
  bar0Size : Nat
  bar0Is64 : Bool
  bar0Prefetchable : Bool
  otherBars : Nat
  msixVectors : Nat
  deriving DecidableEq, Repr

/-- The header of R36. -/
def pciHeader (s : State) : PciHeader :=
  { vendor := 0x1F9D, device := Config.deviceId s.config, revision := s.stepping, classCode := 0x050210,
    subsystemVendor := subsystem s % 2 ^ 16, subsystemId := subsystem s / 2 ^ 16, bar0Size := 512 * 1024, bar0Is64 := true,
    bar0Prefetchable := false, otherBars := 0, msixVectors := 8 }

/-- The extended capabilities of R37. -/
inductive ExtCap where
  | aer
  | serialNumber (value : BitVec 64)
  | dataLinkFeature
  | physicalLayer (gts : Nat)
  | laneMargining
  | ide
  | doe (protocols : List Nat)
  | dvsec (id : Nat)
  deriving DecidableEq, Repr

/-- The DOE protocols' types: Discovery, CMA/SPDM, Secured CMA/SPDM, CXL Table Access. -/
def extCaps (s : State) : List ExtCap :=
  [.aer, .serialNumber s.serial, .dataLinkFeature, .physicalLayer 16, .physicalLayer 32, .physicalLayer 64, .laneMargining, .ide,
   .doe [0, 1, 2, 2], .dvsec 0, .dvsec 5, .dvsec 7, .dvsec 8]

/-- The vendor of every DVSEC. -/
def dvsecVendor : Nat := 0x1E98

/-- The PCIe DVSEC for CXL devices (0). -/
structure DeviceDvsec where
  cacheCapable : Bool
  ioCapable : Bool
  memCapable : Bool
  memHwInit : Bool
  hdmCount : Nat
  viralCapable : Bool
  multipleLogicalDevice : Bool
  cxlResetCapable : Bool
  /-- 001b: 100 ms -/
  cxlResetTimeout : Nat
  cxlResetMemClr : Bool
  pmInitReporting : Bool
  /-- Range 1: its size in bytes, and its base -/
  rangeSize : Nat
  rangeBase : Nat
  infoValid : Bool
  active : Bool
  mediaType : Nat
  memoryClass : Nat
  activeTimeout : Nat
  range2 : Nat
  viralEnable : Bool
  deriving DecidableEq, Repr

/-- The capacity is known once the hub's firmware runs (DEDUCED: within 10 ms of RAMP). -/
def deviceDvsec (s : State) : DeviceDvsec :=
  { cacheCapable := supported .cxlCache, ioCapable := supported .cxlIo, memCapable := supported .cxlMem, memHwInit := false, hdmCount := 1
    viralCapable := supported .viral, multipleLogicalDevice := supported .multiLogicalDevice, cxlResetCapable := supported .cxlReset
    cxlResetTimeout := 1, cxlResetMemClr := false, pmInitReporting := true, rangeSize := totalUnits s * 2 ^ 28
    rangeBase := s.host.rangeBase, infoValid := s.host.mbxReady, active := s.host.memActive, mediaType := 2, memoryClass := 2
    activeTimeout := 0, range2 := 0, viralEnable := s.host.viralEnable }

/-- The GPF DVSEC (5): Phase 2 duration 1 µs (base 1, scale 0), power 0 mW. -/
structure GpfDvsec where
  base : Nat
  scale : Nat
  power : Nat
  deriving DecidableEq, Repr

def gpfDvsec : GpfDvsec := ⟨1, 0, 0⟩

/-- The Flex Bus port DVSEC (7). -/
structure FlexBusDvsec where
  cache : Bool
  io : Bool
  mem : Bool
  flit256 : Bool
  flit68 : Bool
  pbr : Bool
  latencyOptimised : Bool
  multiLogicalDevice : Bool
  deriving DecidableEq, Repr

def flexBusDvsec : FlexBusDvsec :=
  ⟨supported .cxlCache, supported .cxlIo, supported .cxlMem, supported .flit256, supported .flit68, supported .flitPbr,
    supported .flitLatencyOptimised, supported .multiLogicalDevice⟩

/-- The Register Locator DVSEC (8): BIR, block identifier, offset. -/
def registerLocator : List (Nat × Nat × Nat) := [(0, 0x01, 0x00000), (0, 0x03, 0x10000), (0, 0xFF, 0x60000)]

/-! ### BAR0 (R39) -/

/-- The bit of the RAS capability's uncorrectable status that a condition of R52 sets; none for the correctable ones. -/
def rasBit : Nat → Option Nat
  | 0 => some 10
  | 1 => some 11
  | 4 => some 16
  | 6 => some 14
  | _ => none

/-- The same of its correctable status. -/
def rasCorrBit : Nat → Option Nat
  | 2 => some 2
  | 3 => some 3
  | 5 => some 1
  | _ => none

/-- A status word from the conditions that are set. -/
def rasWord (s : State) (bit : Nat → Option Nat) : Nat := (s.host.ras.filterMap bit).foldl (fun w b => w + 2 ^ b) 0

/-- Where the two status registers lie. -/
def rasUncorrAt : Nat := 0x1100
def rasCorrAt : Nat := 0x110C

/-- The words of decoder `n`: base, size, control, DPA skip. -/
def decoderWord (s : State) (n : Nat) : Nat → Nat
  | 0 => (decoder s n).base % 2 ^ 32
  | 1 => (decoder s n).base / 2 ^ 32
  | 2 => (decoder s n).size % 2 ^ 32
  | 3 => (decoder s n).size / 2 ^ 32
  | 4 =>
    let d := decoder s n
    d.ig % 16 + d.iw % 16 * 16 + d.lock.toNat * 2 ^ 8 + d.committed.toNat * (2 ^ 9 + 2 ^ 10) + d.errNotCommitted.toNat * (2 ^ 9 + 2 ^ 11) + 2 ^ 12
  | 5 => (decoder s n).skip % 2 ^ 32
  | 6 => (decoder s n).skip / 2 ^ 32
  | _ => 0

/-- The component registers' words from 0x1000: the CXL capability header names RAS (2), Link (4), HDM Decoder (5) and IDE (7);
the words of which the manual gives no field are open. -/
def componentWord (s : State) (a : Nat) : Nat :=
  let cap (id version offset : Nat) : Nat := id + version * 2 ^ 16 + offset * 2 ^ 20
  if a < 0x1000 then 0
  else if a = 0x1000 then cap 1 1 1 + 3 * 2 ^ 24
  else if a = 0x1004 then cap 2 2 0x100
  else if a = 0x1008 then cap 4 2 0x200
  else if a = 0x100C then cap 5 3 0x300
  else if a = 0x1010 then cap 7 2 0x500
  else if a = rasUncorrAt then rasWord s rasBit
  else if a = rasCorrAt then rasWord s rasCorrBit
  else if a = 0x1300 then 4 + 2 ^ 8 + 2 ^ 9 + 2 ^ 12
  else if 0x1310 ≤ a && decide (a < 0x1410) then decoderWord s ((a - 0x1310) / 32) ((a - 0x1310) % 32 / 4)
  else if a < 0x1600 && decide (0x1100 ≤ a) then (Config.portWord a).val
  else 0

/-- The capabilities array: four entries of 16 bytes after the array's own. -/
def capsWord (k : Nat) : Nat :=
  let entry (id offset length : Nat) : Nat → Nat
    | 0 => id + 2 ^ 16
    | 1 => offset
    | 2 => length
    | _ => 0
  match k / 4 with
  | 0 => if k = 0 then 2 ^ 16 + 2 ^ 24 else if k = 1 then 4 else 0
  | 1 => entry 1 0x100 0x100 (k % 4)
  | 2 => entry 2 0x10000 0x10020 (k % 4)
  | 3 => entry 3 0x30000 0x10020 (k % 4)
  | 4 => entry 0x4000 0x200 0x100 (k % 4)
  | _ => 0

/-- The event status: a bit for each log that holds records. -/
def eventStatus (s : State) : Nat := bitsOf 4 (fun log => !(tabGet logReset s.host.logs log).recs.isEmpty)

/-- The Memory Device Status: Media Status in bits 3:2, Mailbox Interface Ready in bit 4 (R40). -/
def memoryStatus (s : State) : Nat := s.host.mediaStatus % 4 * 4 + s.host.mbxReady.toNat * 16

/-- Word `k` of the registers and the payload of a mailbox (R331). Its commands come whole, as commands of this model; its
doorbell reads 1 while it holds one. -/
def mailboxWord (s : State) (via : Transport) (k : Nat) : Nat :=
  let r := tabGet ⟨0, ⟨0, 0⟩, []⟩ s.mbx.answers (viaNo via)
  match k with
  | 0 => 16 + (via == .primary).toNat * (2 ^ 5 + 2 ^ 6)
  | 1 => (transportBusy s via).toNat
  | 2 => r.opcode % 2 ^ 16 + r.out.length % 2 ^ 16 * 2 ^ 16
  | 3 => r.out.length / 2 ^ 16
  | 4 => s.mbx.bg.isSome.toNat
  | 5 => r.ret.rc + r.ret.vs * 2 ^ 16
  | 6 => leAt 2 2 (bgStatus s) + leAt 0 1 (bgStatus s) / 2 * 2 ^ 16
  | 7 => leAt 4 4 (bgStatus s)
  | _ => leAt ((k - 8) * 4) 4 r.out

/-- A word of the MSI-X table: a vector that nothing has written is masked. -/
def msixWord (s : State) (k : Nat) : Nat := tabGet (if k % 4 = 3 then 1 else 0) s.host.msixTable k

/-- A 32-bit read of BAR0. No vector is pending: the model delivers each at once. Unlisted offsets read 0. -/
def bar0Word (s : State) (a : Nat) : Nat :=
  if a < 0x10000 then componentWord s a
  else if a < 0x10100 then capsWord ((a - 0x10000) / 4)
  else if a < 0x10200 then (if a = 0x10100 then eventStatus s else 0)
  else if a < 0x10300 then (if a = 0x10200 then memoryStatus s else 0)
  else if 0x20000 ≤ a && decide (a < 0x30020) then mailboxWord s .primary ((a - 0x20000) / 4)
  else if 0x40000 ≤ a && decide (a < 0x50020) then mailboxWord s .secondary ((a - 0x40000) / 4)
  else if 0x60000 ≤ a && decide (a < 0x70000) then (viewWord s a).getD 0
  else if 0x70000 ≤ a && decide (a < 0x70080) then msixWord s ((a - 0x70000) / 4)
  else 0

/-- The word at a dword offset of BAR0; none where the host does not reach the function. -/
def bar0Read (s : State) (a : Nat) : Option Nat := if ioLink s && a % 4 == 0 then some (bar0Word s a) else none

/-! ### Writes that the port takes (R9, R38, R39) -/

/-- The RAS conditions whose status bits a write of ones clears. -/
def clearRas (bit : Nat → Option Nat) (value : Nat) (s : State) : State :=
  onHost (fun h => { h with ras := h.ras.filter (fun c => match bit c with
    | some b => value / 2 ^ b % 2 = 0
    | none => true) }) s

/-- A 32-bit write to BAR0: the HPT block's fields by their access codes, the RAS status by ones, the MSI-X table's words.
The decoders' and the mailboxes' registers come as commands of their own. -/
def bar0Write (a value : Nat) (hpt : State → State) (s : State) : State :=
  if 0x60000 ≤ a && decide (a < 0x70000) then hpt s
  else if a = rasUncorrAt then clearRas rasBit value s
  else if a = rasCorrAt then clearRas rasCorrBit value s
  else if 0x70000 ≤ a && decide (a < 0x70080) && a % 4 == 0 then
    onHost (fun h => { h with msixTable := tabPut ((a - 0x70000) / 4) value h.msixTable }) s
  else s

/-- A write of half of Range 1's base: the low register holds bits 31 to 28. -/
def rangeBaseWrite (high : Bool) (value : Nat) (s : State) : State :=
  onHost (fun h => { h with rangeBase :=
    if high then h.rangeBase % 2 ^ 32 + value * 2 ^ 32 else h.rangeBase / 2 ^ 32 * 2 ^ 32 + value / 2 ^ 28 * 2 ^ 28 }) s

end Sys2Proof.Machine
end

