-- ==== Sys2Proof/Machine/RegWrite.lean ====
section
/-! DEFINITION. Register access (R9 to R12, R38, R59, R237, R246, R247, R253, R260 to R262, R358 to R361): what a write does by the
access codes of the fields, the pass-through commands, and writes that come without a command. -/
namespace Sys2Proof.Machine

/-! ### Writes (R9, R12) -/

/-- Fields that read fixed values and ignore writes (R246): MC0's schedule and trigger, and MC1's slot 0. -/
def fixedField (f : Fld) (i : Nat) : Bool :=
  let sched := [F.MCVn_CFG_SPACING, F.MCVn_CFG_LP_SPACING, F.MCVn_CFG_LEN, F.MCVn_TRIG_SRC, F.MCVn_TRIG_CHAN, F.MCVn_TRIG_CONV,
    F.MCVn_TRIG_CH, F.MCVn_TRIG_EDGE, F.MCVn_TRIG_PERIOD]
  (i == 0 && sched.contains f)
    || (f.base == F.MCVn_SLOTj_CH0.base && (decide (i < 32) || (i == 32 && (f == F.MCVn_SLOTj_CH0 || f == F.MCVn_SLOTj_USE0))))

/-- The bits of `mask` in a field of width `w` go to `v`, the others stay at `old`. -/
def mergeBits (w old v mask : Nat) : Nat := (old &&& ((2 ^ w - 1) ^^^ mask)) ||| (v &&& mask)

/-- Write one field of instance `i` by its access code: RW takes the masked bits; RW1C is cleared by a 1 that the mask covers,
unless the hardware sets the bit in the same tick. -/
def writeField (value mask i : Nat) (f : Fld) (s : State) : State :=
  let v := fieldOf f value
  let m := fieldOf f mask
  match f.acc with
  | .ro => s
  | .wo => s
  | .rw => if m = 0 || fixedField f i then s else fput f i (mergeBits f.width (fget s f i) v m) s
  | .rw1c => if v &&& m ≠ 0 && tabGet (2 ^ 64) s.setAt (f.key i) ≠ tickOf s then fclr f i s else s
  | .rw1s => if v &&& m ≠ 0 then fput f i (fget s f i ||| (v &&& m)) s else s

/-- Does a write set a one-bit field of a register? -/
def writes1 (f : Fld) (r : RegDef) (value mask : Nat) : Bool :=
  r.base == f.base && fieldOf f value % 2 == 1 && fieldOf f mask % 2 == 1

/-- What follows from a write besides the fields: WO bits act (R247, R253, R261); clearing MCV_ERR.LIMIT ends its alert
(R257); a gang left invalid sets CFG_BAD (R237). -/
def afterWrite (r : RegDef) (i value mask : Nat) (s : State) : State :=
  s |> when (writes1 F.MCVn_SEL_INJ r value mask) (fun s => inject i (fget s F.MCVn_SEL_INJ_CH i) s)
    |> when (writes1 F.MCVn_CAL_START r value mask) (calibrate i)
    |> when (writes1 F.MCV_DIAG_START r value mask) (fun s => diagnose (fget s F.MCV_DIAG_INPUT 0) s)
    |> when (r.base == F.MCV_ERR_LIMIT.base && !fon s F.MCV_ERR_LIMIT 0) (onMcv (fun m => { m with limAlert := false }))
    |> when (r.base == F.SEQ_GANGg_MEMBERS.base && (List.range 8).any (gangBad s)) (fset F.SEQ_ERR_CFG_BAD 0)

/-- Write a register instance. -/
def writeReg (value mask : Nat) (x : RegDef × Nat) (s : State) : State :=
  s |> forEach x.1.fields (writeField value mask x.2) |> afterWrite x.1 x.2 value mask

/-- Does the mask cover a bit that a write can act on (R359)? -/
def maskActs (r : RegDef) (mask : Nat) : Bool := r.fields.any (fun f => f.acc != .ro && fieldOf f mask != 0)

/-- Does a masked value set a reserved bit (R10)? -/
def setsReserved (r : RegDef) (value mask : Nat) : Bool :=
  let v := value &&& mask
  imageOf (fun _ => true) r v != v

/-! ### Read Registers (R358, R359) -/

/-- One read: its value, whether it reads as 0 for want of a register or its power, and what the read does: reading
MCVn_FIFO2 removes the entry (R260). -/
def readOne (ep : Endpoint) (a : Nat) (s : State) : Nat × Bool × State :=
  if ep = .aon && !aonAddr a then (0, true, s)
  else match viewWord s a with
    | none => (0, true, s)
    | some w =>
      let pop := match regAt a with
        | some (r, n) => if r.base = F.MCVn_FIFO2_WORD.base then fifoPop n s else s
        | none => s
      (w, false, pop)

/-- Is an address word well formed: bits [31:24] 0, aligned (R358)? -/
def addrOk (a : Nat) : Bool := decide (a < 2 ^ 24) && a % 4 == 0

/-- Read Registers. -/
def readRegisters (via : Transport) (input : List Byte) (s : State) : State :=
  let n := leAt 0 2 input
  let as := wordsOf n (input.drop 4)
  if n = 0 || !rsvOk 2 2 input then refuse via 0xC0F0 vsBadArg s
  else if input.length ≠ 4 + 4 * n || payloadMax via < 4 + 4 * n then refuse via 0xC0F0 vsLength s
  else if !as.all addrOk then refuse via 0xC0F0 vsBadArg s
  else
    let ep := endpoint s via
    let x := as.foldl (fun (acc : State × Nat × List Byte) a =>
      let r := readOne ep a acc.1
      (r.2.2, acc.2.1 + r.2.1.toNat, acc.2.2 ++ leBytes 4 r.1)) (s, 0, [])
    succeed via 0xC0F0 (leBytes 4 x.2.1 ++ x.2.2) x.1

def execReadRegisters (via : Transport) (input : List Byte) (s : State) : Host.Outcome State Fault Refusal :=
  run (command via 0xC0F0 .any (fun n => decide (4 ≤ n)) input (readRegisters via input)) s

/-! ### Write Registers (R10, R12, R359) -/

/-- What a list of entries has come to: the state, applied, skipped, the first skipped, entries with reserved bits. -/
structure WriteTally where
  s : State
  applied : Nat
  skipped : Nat
  first : Nat
  rsv : Nat

/-- One entry. -/
def writeEntry (t : WriteTally) (x : Nat × Nat × Nat × Nat) : WriteTally :=
  let a := x.2.1
  let value := x.2.2.1
  let mask := x.2.2.2
  let skip (t : WriteTally) : WriteTally := { t with skipped := t.skipped + 1, first := if t.skipped = 0 then x.1 else t.first }
  match if addrPowered t.s a then regAt a else none with
  | none => skip t
  | some r =>
    let t1 := if setsReserved r.1 value mask then
        { t with rsv := t.rsv + 1, s := t.s |> finc F.MBX_PT_RSV_COUNT 0 |> fset F.MBX_ERR_PT_RSV 0 }
      else t
    if maskActs r.1 mask then { t1 with s := writeReg value mask r t1.s, applied := t1.applied + 1 } else skip t1

/-- The entries: index, address, value, mask. -/
def writeEntries (k : Nat) : Nat → List Byte → List (Nat × Nat × Nat × Nat)
  | 0, _ => []
  | n + 1, bs => (k, leAt 0 4 bs, leAt 4 4 bs, leAt 8 4 bs) :: writeEntries (k + 1) n (bs.drop 12)

/-- Write Registers: the entries in list order, in one tick. -/
def writeRegisters (via : Transport) (input : List Byte) (s : State) : State :=
  let n := leAt 0 2 input
  let es := writeEntries 0 n (input.drop 4)
  if n = 0 || 1024 < n || !rsvOk 2 2 input then refuse via 0xC0F1 vsBadArg s
  else if input.length ≠ 4 + 12 * n then refuse via 0xC0F1 vsLength s
  else if !es.all (fun e => addrOk e.2.1) then refuse via 0xC0F1 vsBadArg s
  else
    let t := es.foldl writeEntry ⟨s, 0, 0, 0xFFFFFFFF, 0⟩
    succeed via 0xC0F1 (leBytes 4 t.applied ++ leBytes 4 t.skipped ++ leBytes 4 t.first ++ leBytes 4 t.rsv) t.s

/-- Outside MAINTENANCE the hub refuses the whole command and counts the refusal. -/
def writeRegistersAt (via : Transport) (input : List Byte) (s : State) : State :=
  if !transportBusy s via && endpoint s via = .hub && s.mode ≠ .maintenance then
    s |> finc F.MBX_PT_REFUSED_COUNT 0 |> fset F.MBX_ERR_PT_REFUSED 0 |> refuse via 0xC0F1 vsWrongMode
  else command via 0xC0F1 .maintenance (fun n => decide (4 ≤ n)) input (writeRegisters via input) s

def execWriteRegisters (via : Transport) (input : List Byte) (s : State) : Host.Outcome State Fault Refusal :=
  run (writeRegistersAt via input) s

/-! ### Writes without a command (R9, R38, R59) -/

/-- All of the register at an address, where there is one. -/
def writeAt (a value : Nat) (s : State) : State :=
  match regAt a with
  | some x => writeReg value 0xFFFFFFFF x s
  | none => s

/-- A register write: the host's through BAR0, in any mode; the host's to the DVSEC's Control register, whose bit 14 is
Viral_Enable (PRESUMED, log 45), or to Range 1's base; the firmware's to any register whose domain is powered. -/
def registerWrite (path : WritePath) (a value : Nat) (s : State) : State :=
  match path with
  | .bar0 => when (ioLink s) (bar0Write a value (writeAt a value)) s
  | .dvsecControl => when (ioLink s) (onHost (fun h => { h with viralEnable := value / 2 ^ 14 % 2 = 1 })) s
  | .rangeBaseLow => when (ioLink s) (rangeBaseWrite false value) s
  | .rangeBaseHigh => when (ioLink s) (rangeBaseWrite true value) s
  | .firmware => when (hubRuns s && addrPowered s a) (writeAt a value) s

def execRegisterWrite (path : WritePath) (addr : BitVec 24) (value : BitVec 32) (s : State) : Host.Outcome State Fault Refusal :=
  run (registerWrite path addr.toNat value.toNat) s

end Sys2Proof.Machine
end

