-- ==== Sys2Proof/Machine/Tick.lean ====
section
/-! DEFINITION. The cadence tick (R7, R18): what is done at each 250 ns boundary. -/
namespace Sys2Proof.Machine

/-! ### Registers that take stored values (R245, R302, R346, R347, R353 to R357) -/

/-- Load the registers whose stored words lie in a range of the saddlebag. -/
def loadRange (x : Nat × Nat) (s : State) : State :=
  forEach (allRegs.filter (fun r => r.home.isSome || r.base == F.MCVn_SLOTj_CH0.base)) (fun r s =>
    forEach ((List.range r.count).filter (fun i => match regHome r i with
      | some a => decide (x.1 ≤ a) && decide (a < x.1 + x.2)
      | none => false)) (loadReg r) s) s

/-- The tandem takes a new configuration: regions newly mirrored are divergent (R323, R357). -/
def reloadTandem (s : State) : State :=
  let new := (storedRegions s).filter (fun m => !nsHas m s.tnd.own)
  let own := storedRegions s
  s |> onTnd (fun t => { t with
        serial := BitVec.ofNat 64 (sbNat s (homeTnd + 4) 8), own := own
        divergent := (regionExtents new).foldl (fun d e => nsAdd e d) (t.divergent.filter (fun e => nsHas (e / 512) own)) })
    |> when (!new.isEmpty) (setTnd F.TND_STATUS_DIVERGED 1)
    |> (fun s => setTnd F.TND_STATUS_PARTNER (fget s F.TND_CFG_PARTNER 0) s)
    |> (fun s => fput F.TND_STATUS_LINK 0 (if tndEn s then 1 else 0) s)

/-- Patrol starts a new pass (R355). -/
def restartPatrol (s : State) : State :=
  placePatrol { s.med.patrol with wheel := 0, region := (wheelRegions s 0).headD 0, slot := 0, thisNeed := [], visited := 0, visit := none } s

/-- One range: the fields of the registers it holds, and what is kept elsewhere. -/
def reloadOne (x : Nat × Nat) (s : State) : State :=
  if x.1 = ctrProtect then fput F.SBG_STATUS_BP 0 ((ctrValue s ctrProtect).getD 0 % 4) s
  else if x = (homePatrol, 0) then restartPatrol s
  else s |> loadRange x |> when (x.1 == homeTnd) reloadTandem

/-- The tick after a store: its registers take their values. -/
def reloadStored (s : State) : State :=
  let rs := s.mbx.reload
  s |> onMbx (fun m => { m with reload := [] }) |> forEach rs reloadOne

/-! ### The parts of a tick -/

/-- The last of the old tick: enables are admitted (R221), overflow lines move (R66), and decoder commits take effect (R60). -/
def tickEnd (s : State) : State := s |> when (sbReady s) admitEnables |> when (coreOn s) (fun s => s |> moveOvfs |> applyCommits)

/-- The boundary: edges are driven, comparators armed, margins stepped, converters started, and what was decided for this
tick begins (R18, R71, R100, R221, R242). -/
def tickBoundary (s : State) : State :=
  s |> toNextTick |> pgEdges |> armComparators |> driveEdges |> completeWait |> marginTicks
    |> forEach (List.range 8) convTick
    |> reloadStored |> slewStep
    |> onCache (fun c => { c with fresh := [] }) |> onSched (fun q => { q with bgUsed := [] }) |> turnEngines

/-- Changes of mode other than by a trip: completions, made in the tick after their condition is met (R184, R185). -/
def modeChanges (s : State) : State := s |> releaseDies |> tryRecover |> tryService |> endFreewheel |> leaveHold

/-- Contexts whose host is gone end once their work is done (R57). -/
def dropMuted (s : State) : State :=
  onSched (fun q => { q with ctxs := q.ctxs.filter (fun c => !(c.mute && c.st == .respond)) }) s

/-- The ledger first, then the credits it allows (R31, R48, R67, R321). -/
def tickLedger (s0 : State) : State :=
  let s := ledgerTick s0
  if coreOn s then s |> returnCredits |> grantMirror (fget s F.HPT_CREDIT_RWD_OUT 0) |> dropMuted else s

/-- The energy check of a drain: at or below E_fixed with lines left, it is cut short (R135, R136). -/
def checkDrain (s : State) : State :=
  let mine := s.fw.kind = .full || (s.fw.kind = .brakeDrain && s.fw.onHold)
  if draining s && mine && eAvail s s.led.code ≤ eFixed s && s.cache.dir.any (fun x => x.2.dv) then cutFreewheel s else s

/-- The queues' tick: work that waited for room, the background operations, the drain with its index, checkpoints, admission and what
the gates may start, drafting and free gap passes (R18, R99, R100, R104, R133, R140, R160; drafting comes after admission and the
starts of the same tick, DESIGN CHOICE, log 28). -/
def tickQueues (s : State) : State :=
  if coreOn s then
    s |> resyncTick |> feedMedia |> feedHome |> bgTick |> feedDrain |> feedIndex |> feedCkpt
      |> admitAll |> gates |> draftAll |> pruneDrafts
      |> when (inService s) freePassAll
      |> fwProgress |> checkDrain |> recProgress
  else s

/-- A cadence tick. OFF has none: the GTC stands (R17). -/
def cadenceTick (s : State) : State :=
  if aonOn s then s |> tickEnd |> tickBoundary |> modeChanges |> tickLedger |> tickQueues |> clearProgress else s

def execCadenceTick (s : State) : Host.Outcome State Fault Refusal := run cadenceTick s

end Sys2Proof.Machine
end

