-- ==== Sys2Proof/Machine/Dispatch.lean ====
section
/-! DEFINITION. The dispatch: one arm for each command, each a direct call of its meaning. -/
namespace Sys2Proof.Machine

/-- The effect of a command on everything but the queue of waiting commands (R18). -/
def exec (i : Instr) (s : State) : Host.Outcome State Fault Refusal :=
  match i with
  | .memrd tag hpa t chk => Sys2Proof.Machine.execMemrd tag hpa t chk s
  | .memrddata tag hpa t chk => Sys2Proof.Machine.execMemrddata tag hpa t chk s
  | .memwr tag hpa t data poison chk => Sys2Proof.Machine.execMemwr tag hpa t data poison chk s
  | .memwrptl tag hpa t data be poison chk => Sys2Proof.Machine.execMemwrptl tag hpa t data be poison chk s
  | .meminv tag hpa => Sys2Proof.Machine.execMeminv tag hpa s
  | .meminvnt tag hpa => Sys2Proof.Machine.execMeminvnt tag hpa s
  | .memspecrd hpa => Sys2Proof.Machine.execMemspecrd hpa s
  | .demandReadDispatch tag t => Sys2Proof.Machine.execDemandReadDispatch tag t s
  | .senseLatched b t => Sys2Proof.Machine.execSenseLatched b t s
  | .demandWindowStart tag t => Sys2Proof.Machine.execDemandWindowStart tag t s
  | .nonDemandTransfer b t => Sys2Proof.Machine.execNonDemandTransfer b t s
  | .decodeComplete src errs soft t => Sys2Proof.Machine.execDecodeComplete src errs soft t s
  | .responseTransmit tag t => Sys2Proof.Machine.execResponseTransmit tag t s
  | .backgroundAgePromotion b => Sys2Proof.Machine.execBackgroundAgePromotion b s
  | .suspendLong b => Sys2Proof.Machine.execSuspendLong b s
  | .jobComplete w j => Sys2Proof.Machine.execJobComplete w j s
  | .programVerified f => Sys2Proof.Machine.execProgramVerified f s
  | .verifyFailed f => Sys2Proof.Machine.execVerifyFailed f s
  | .suspendedAtSafePoint f => Sys2Proof.Machine.execSuspendedAtSafePoint f s
  | .caCrcError f => Sys2Proof.Machine.execCaCrcError f s
  | .writeCrcError f => Sys2Proof.Machine.execWriteCrcError f s
  | .tagOperationDone f => Sys2Proof.Machine.execTagOperationDone f s
  | .thermalLimit f => Sys2Proof.Machine.execThermalLimit f s
  | .selfCheckResult f => Sys2Proof.Machine.execSelfCheckResult f s
  | .bandMismatch f => Sys2Proof.Machine.execBandMismatch f s
  | .rowFault f => Sys2Proof.Machine.execRowFault f s
  | .mmbAlert w => Sys2Proof.Machine.execMmbAlert w s
  | .scrubSetVisit w found => Sys2Proof.Machine.execScrubSetVisit w found s
  | .patrolStep w t => Sys2Proof.Machine.execPatrolStep w t s
  | .dieTemperatureRead w d celsius => Sys2Proof.Machine.execDieTemperatureRead w d celsius s
  | .dqsDriftTrack w => Sys2Proof.Machine.execDqsDriftTrack w s
  | .recallComplete straps corrected ue => Sys2Proof.Machine.execRecallComplete straps corrected ue s
  | .vinFallTrip t => Sys2Proof.Machine.execVinFallTrip t s
  | .pwrfailNAssert t => Sys2Proof.Machine.execPwrfailNAssert t s
  | .firmwareAuthenticated newerOk otherOk => Sys2Proof.Machine.execFirmwareAuthenticated newerOk otherOk s
  | .microcodeLoaded version => Sys2Proof.Machine.execMicrocodeLoaded version s
  | .rstWaitEnd w => Sys2Proof.Machine.execRstWaitEnd w s
  | .trainingComplete w passed => Sys2Proof.Machine.execTrainingComplete w passed s
  | .cacheTestComplete badWays otherBad => Sys2Proof.Machine.execCacheTestComplete badWays otherBad s
  | .recoverReadComplete r => Sys2Proof.Machine.execRecoverReadComplete r s
  | .uvTrip c t => Sys2Proof.Machine.execUvTrip c t s
  | .ovTrip c t => Sys2Proof.Machine.execOvTrip c t s
  | .pgEdge c high t => Sys2Proof.Machine.execPgEdge c high t s
  | .pgTimeoutExpiry tgt => Sys2Proof.Machine.execPgTimeoutExpiry tgt s
  | .retryBackoffEnd tgt => Sys2Proof.Machine.execRetryBackoffEnd tgt s
  | .marginSettleEnd c => Sys2Proof.Machine.execMarginSettleEnd c s
  | .trimNeutralHoldEnd c => Sys2Proof.Machine.execTrimNeutralHoldEnd c s
  | .nominalSettleEnd c => Sys2Proof.Machine.execNominalSettleEnd c s
  | .pmbusTransactionComplete port ok data => Sys2Proof.Machine.execPmbusTransactionComplete port ok data s
  | .pmbusStretchTimeout port => Sys2Proof.Machine.execPmbusStretchTimeout port s
  | .slotDue n => Sys2Proof.Machine.execSlotDue n s
  | .triggerPeriodExpiry n => Sys2Proof.Machine.execTriggerPeriodExpiry n s
  | .conversionComplete n u => Sys2Proof.Machine.execConversionComplete n u s
  | .injectedRequest n ch => Sys2Proof.Machine.execInjectedRequest n ch s
  | .calibrationStart n => Sys2Proof.Machine.execCalibrationStart n s
  | .diagnosisStart input => Sys2Proof.Machine.execDiagnosisStart input s
  | .fifoRead n => Sys2Proof.Machine.execFifoRead n s
  | .recordWriteVerify aOk bOk => Sys2Proof.Machine.execRecordWriteVerify aOk bOk s
  | .lazyStoreExpiry page => Sys2Proof.Machine.execLazyStoreExpiry page s
  | .storeStart bank => Sys2Proof.Machine.execStoreStart bank s
  | .saddlebagStoreComplete bank ok => Sys2Proof.Machine.execSaddlebagStoreComplete bank ok s
  | .capacitorRecharge bank => Sys2Proof.Machine.execCapacitorRecharge bank s
  | .timeFrame f t => Sys2Proof.Machine.execTimeFrame f t s
  | .presentFrame f t => Sys2Proof.Machine.execPresentFrame f t s
  | .brakeFrame f => Sys2Proof.Machine.execBrakeFrame f s
  | .faultFrame f => Sys2Proof.Machine.execFaultFrame f s
  | .recordFrame f => Sys2Proof.Machine.execRecordFrame f s
  | .recackFrame f => Sys2Proof.Machine.execRecackFrame f s
  | .tandemLinkUp x4at64 => Sys2Proof.Machine.execTandemLinkUp x4at64 s
  | .mackDeadline tag => Sys2Proof.Machine.execMackDeadline tag s
  | .mwr m => Sys2Proof.Machine.execMwr m s
  | .mack tag => Sys2Proof.Machine.execMack tag s
  | .mcred count => Sys2Proof.Machine.execMcred count s
  | .mrel slot extent => Sys2Proof.Machine.execMrel slot extent s
  | .rsync m => Sys2Proof.Machine.execRsync m s
  | .rdone slot extent => Sys2Proof.Machine.execRdone slot extent s
  | .config m => Sys2Proof.Machine.execConfig m s
  | .role reqAck => Sys2Proof.Machine.execRole reqAck s
  | .linkTrained width rate => Sys2Proof.Machine.execLinkTrained width rate s
  | .linkRetrain width rate => Sys2Proof.Machine.execLinkRetrain width rate s
  | .flitCrcThreshold retry => Sys2Proof.Machine.execFlitCrcThreshold retry s
  | .hdmDecoderCommit n v => Sys2Proof.Machine.execHdmDecoderCommit n v s
  | .doeDiscovery index => Sys2Proof.Machine.execDoeDiscovery index s
  | .cxlTableAccess entry => Sys2Proof.Machine.execCxlTableAccess entry s
  | .cxlIdeKm m => Sys2Proof.Machine.execCxlIdeKm m s
  | .ideKm m => Sys2Proof.Machine.execIdeKm m s
  | .getVersion via m => Sys2Proof.Machine.execGetVersion via m s
  | .getCapabilities via m => Sys2Proof.Machine.execGetCapabilities via m s
  | .negotiateAlgorithms via m => Sys2Proof.Machine.execNegotiateAlgorithms via m s
  | .getDigests via m => Sys2Proof.Machine.execGetDigests via m s
  | .getCertificate via m => Sys2Proof.Machine.execGetCertificate via m s
  | .challenge via m => Sys2Proof.Machine.execChallenge via m s
  | .getMeasurements via m => Sys2Proof.Machine.execGetMeasurements via m s
  | .keyExchange via m => Sys2Proof.Machine.execKeyExchange via m s
  | .finish via m => Sys2Proof.Machine.execFinish via m s
  | .keyUpdate via m => Sys2Proof.Machine.execKeyUpdate via m s
  | .heartbeat via m => Sys2Proof.Machine.execHeartbeat via m s
  | .endSession via m => Sys2Proof.Machine.execEndSession via m s
  | .getCsr via m => Sys2Proof.Machine.execGetCsr via m s
  | .setCertificate via m => Sys2Proof.Machine.execSetCertificate via m s
  | .setEndpointId eid => Sys2Proof.Machine.execSetEndpointId eid s
  | .identify via input => Sys2Proof.Machine.execIdentify via input s
  | .backgroundOperationStatus via input => Sys2Proof.Machine.execBackgroundOperationStatus via input s
  | .requestAbortBackgroundOperation via input => Sys2Proof.Machine.execRequestAbortBackgroundOperation via input s
  | .getEventRecords via input => Sys2Proof.Machine.execGetEventRecords via input s
  | .clearEventRecords via input => Sys2Proof.Machine.execClearEventRecords via input s
  | .getEventInterruptPolicy via input => Sys2Proof.Machine.execGetEventInterruptPolicy via input s
  | .setEventInterruptPolicy via input => Sys2Proof.Machine.execSetEventInterruptPolicy via input s
  | .getFwInfo via input => Sys2Proof.Machine.execGetFwInfo via input s
  | .transferFw via input => Sys2Proof.Machine.execTransferFw via input s
  | .activateFw via input => Sys2Proof.Machine.execActivateFw via input s
  | .fwActivationComplete authentic => Sys2Proof.Machine.execFwActivationComplete authentic s
  | .getTimestamp via input => Sys2Proof.Machine.execGetTimestamp via input s
  | .setTimestamp via input => Sys2Proof.Machine.execSetTimestamp via input s
  | .getSupportedLogs via input => Sys2Proof.Machine.execGetSupportedLogs via input s
  | .getLog via input => Sys2Proof.Machine.execGetLog via input s
  | .identifyMemoryDevice via input => Sys2Proof.Machine.execIdentifyMemoryDevice via input s
  | .getPartitionInfo via input => Sys2Proof.Machine.execGetPartitionInfo via input s
  | .setPartitionInfo via input => Sys2Proof.Machine.execSetPartitionInfo via input s
  | .getLsa via input => Sys2Proof.Machine.execGetLsa via input s
  | .setLsa via input => Sys2Proof.Machine.execSetLsa via input s
  | .getHealthInfo via input => Sys2Proof.Machine.execGetHealthInfo via input s
  | .getAlertConfiguration via input => Sys2Proof.Machine.execGetAlertConfiguration via input s
  | .setAlertConfiguration via input => Sys2Proof.Machine.execSetAlertConfiguration via input s
  | .getShutdownState via input => Sys2Proof.Machine.execGetShutdownState via input s
  | .setShutdownState via input => Sys2Proof.Machine.execSetShutdownState via input s
  | .getPoisonList via input => Sys2Proof.Machine.execGetPoisonList via input s
  | .injectPoison via input => Sys2Proof.Machine.execInjectPoison via input s
  | .clearPoison via input => Sys2Proof.Machine.execClearPoison via input s
  | .scanMedia via input => Sys2Proof.Machine.execScanMedia via input s
  | .getScanMediaCapabilities via input => Sys2Proof.Machine.execGetScanMediaCapabilities via input s
  | .getScanMediaResults via input => Sys2Proof.Machine.execGetScanMediaResults via input s
  | .sanitize via input => Sys2Proof.Machine.execSanitize via input s
  | .secureErase via input => Sys2Proof.Machine.execSecureErase via input s
  | .unsupportedOpcode via opcode => Sys2Proof.Machine.execUnsupportedOpcode via opcode s
  | .getDeviceStatus via input => Sys2Proof.Machine.execGetDeviceStatus via input s
  | .nonceFetch via input => Sys2Proof.Machine.execNonceFetch via input s
  | .nonceExpiry via => Sys2Proof.Machine.execNonceExpiry via s
  | .changeModeRamp via input => Sys2Proof.Machine.execChangeModeRamp via input s
  | .changeModeService via input => Sys2Proof.Machine.execChangeModeService via input s
  | .changeModeMaintenance via input => Sys2Proof.Machine.execChangeModeMaintenance via input s
  | .brakeRelease via input => Sys2Proof.Machine.execBrakeRelease via input s
  | .setOwnerKey via input => Sys2Proof.Machine.execSetOwnerKey via input s
  | .cryptoErase via input => Sys2Proof.Machine.execCryptoErase via input s
  | .getServiceConfig via input => Sys2Proof.Machine.execGetServiceConfig via input s
  | .setServiceConfig via input => Sys2Proof.Machine.execSetServiceConfig via input s
  | .getBackgroundResult via input => Sys2Proof.Machine.execGetBackgroundResult via input s
  | .getRailConfig via input => Sys2Proof.Machine.execGetRailConfig via input s
  | .setRailTable via input => Sys2Proof.Machine.execSetRailTable via input s
  | .setRailChannel via input => Sys2Proof.Machine.execSetRailChannel via input s
  | .setRailGlobals via input => Sys2Proof.Machine.execSetRailGlobals via input s
  | .marginRailTrim via input => Sys2Proof.Machine.execMarginRailTrim via input s
  | .marginRailHigh via input => Sys2Proof.Machine.execMarginRailHigh via input s
  | .marginRailLow via input => Sys2Proof.Machine.execMarginRailLow via input s
  | .marginRailSetpoint via input => Sys2Proof.Machine.execMarginRailSetpoint via input s
  | .marginRailNominal via input => Sys2Proof.Machine.execMarginRailNominal via input s
  | .railCommandEnable via input => Sys2Proof.Machine.execRailCommandEnable via input s
  | .railCommandDisable via input => Sys2Proof.Machine.execRailCommandDisable via input s
  | .readRecords via input => Sys2Proof.Machine.execReadRecords via input s
  | .readCursor via input => Sys2Proof.Machine.execReadCursor via input s
  | .getSnapshotList via input => Sys2Proof.Machine.execGetSnapshotList via input s
  | .clearRecorder via input => Sys2Proof.Machine.execClearRecorder via input s
  | .setSnapshotList via input => Sys2Proof.Machine.execSetSnapshotList via input s
  | .readPages via input => Sys2Proof.Machine.execReadPages via input s
  | .writePages via input => Sys2Proof.Machine.execWritePages via input s
  | .setSaddlebagProtection via input => Sys2Proof.Machine.execSetSaddlebagProtection via input s
  | .getConverterConfig via input => Sys2Proof.Machine.execGetConverterConfig via input s
  | .setConverterSchedule via input => Sys2Proof.Machine.execSetConverterSchedule via input s
  | .setInputConfig via input => Sys2Proof.Machine.execSetInputConfig via input s
  | .calibrateConverter via input => Sys2Proof.Machine.execCalibrateConverter via input s
  | .diagnoseInput via input => Sys2Proof.Machine.execDiagnoseInput via input s
  | .getLedgerStatus via input => Sys2Proof.Machine.execGetLedgerStatus via input s
  | .setLedgerConfig via input => Sys2Proof.Machine.execSetLedgerConfig via input s
  | .measureCapacitance via input => Sys2Proof.Machine.execMeasureCapacitance via input s
  | .getCacheStatus via input => Sys2Proof.Machine.execGetCacheStatus via input s
  | .setCacheModeNormal via input => Sys2Proof.Machine.execSetCacheModeNormal via input s
  | .setCacheModeBypass via input => Sys2Proof.Machine.execSetCacheModeBypass via input s
  | .lockCacheLines via input => Sys2Proof.Machine.execLockCacheLines via input s
  | .unlockCacheLines via input => Sys2Proof.Machine.execUnlockCacheLines via input s
  | .setScratchCarveOut via input => Sys2Proof.Machine.execSetScratchCarveOut via input s
  | .releaseRange via input => Sys2Proof.Machine.execReleaseRange via input s
  | .getReleaseBitmap via input => Sys2Proof.Machine.execGetReleaseBitmap via input s
  | .getMediaStatus via input => Sys2Proof.Machine.execGetMediaStatus via input s
  | .setPatrol via input => Sys2Proof.Machine.execSetPatrol via input s
  | .getPelotonStatus via input => Sys2Proof.Machine.execGetPelotonStatus via input s
  | .setPelotonConfig via input => Sys2Proof.Machine.execSetPelotonConfig via input s
  | .getTandemStatus via input => Sys2Proof.Machine.execGetTandemStatus via input s
  | .setTandemConfiguration via input => Sys2Proof.Machine.execSetTandemConfiguration via input s
  | .promoteMirrorHolder via input => Sys2Proof.Machine.execPromoteMirrorHolder via input s
  | .promoteMirrorOwner via input => Sys2Proof.Machine.execPromoteMirrorOwner via input s
  | .readRegisters via input => Sys2Proof.Machine.execReadRegisters via input s
  | .writeRegisters via input => Sys2Proof.Machine.execWriteRegisters via input s
  | .registerWrite path addr value => Sys2Proof.Machine.execRegisterWrite path addr value s
  | .presentHeardExpiry d => Sys2Proof.Machine.execPresentHeardExpiry d s
  | .storeSupplyThreshold ok => Sys2Proof.Machine.execStoreSupplyThreshold ok s
  | .comparatorRelease c ov => Sys2Proof.Machine.execComparatorRelease c ov s
  | .shadowReadComplete page differs => Sys2Proof.Machine.execShadowReadComplete page differs s
  | .cadenceTick => Sys2Proof.Machine.execCadenceTick s
  | .epochAdvance => Sys2Proof.Machine.execEpochAdvance s
  | .serviceCheckpointDue => Sys2Proof.Machine.execServiceCheckpointDue s
  | .vaonPowerOn => Sys2Proof.Machine.execVaonPowerOn s
  | .recorderScanComplete => Sys2Proof.Machine.execRecorderScanComplete s
  | .vaonPowerOff => Sys2Proof.Machine.execVaonPowerOff s
  | .vaonWarning => Sys2Proof.Machine.execVaonWarning s
  | .vaonWarnClear => Sys2Proof.Machine.execVaonWarnClear s
  | .vinRise => Sys2Proof.Machine.execVinRise s
  | .pwrfailNDeassert => Sys2Proof.Machine.execPwrfailNDeassert s
  | .holdUvTrip => Sys2Proof.Machine.execHoldUvTrip s
  | .freewheelT1 => Sys2Proof.Machine.execFreewheelT1 s
  | .autostoreComplete => Sys2Proof.Machine.execAutostoreComplete s
  | .debounceExpiry => Sys2Proof.Machine.execDebounceExpiry s
  | .coreRailDetect => Sys2Proof.Machine.execCoreRailDetect s
  | .mmbRailDetect => Sys2Proof.Machine.execMmbRailDetect s
  | .sramRailDetect => Sys2Proof.Machine.execSramRailDetect s
  | .maintenanceEntry => Sys2Proof.Machine.execMaintenanceEntry s
  | .serviceReturn => Sys2Proof.Machine.execServiceReturn s
  | .brakeT1 => Sys2Proof.Machine.execBrakeT1 s
  | .hubWatchdogExpiry => Sys2Proof.Machine.execHubWatchdogExpiry s
  | .hubMemoryError => Sys2Proof.Machine.execHubMemoryError s
  | .portBufferError => Sys2Proof.Machine.execPortBufferError s
  | .gangSyncTimeout => Sys2Proof.Machine.execGangSyncTimeout s
  | .waitTicksExpiry => Sys2Proof.Machine.execWaitTicksExpiry s
  | .offDelayExpiry => Sys2Proof.Machine.execOffDelayExpiry s
  | .seqEnd => Sys2Proof.Machine.execSeqEnd s
  | .seqEnable => Sys2Proof.Machine.execSeqEnable s
  | .seqDisable => Sys2Proof.Machine.execSeqDisable s
  | .waitPg => Sys2Proof.Machine.execWaitPg s
  | .waitTicks => Sys2Proof.Machine.execWaitTicks s
  | .checkWindow => Sys2Proof.Machine.execCheckWindow s
  | .gangSync => Sys2Proof.Machine.execGangSync s
  | .branchOnFault => Sys2Proof.Machine.execBranchOnFault s
  | .slotUnsyncTimeout => Sys2Proof.Machine.execSlotUnsyncTimeout s
  | .capTestDue => Sys2Proof.Machine.execCapTestDue s
  | .capTestDeferEnd => Sys2Proof.Machine.execCapTestDeferEnd s
  | .capTestDiscardEnd => Sys2Proof.Machine.execCapTestDiscardEnd s
  | .capTestTimeout => Sys2Proof.Machine.execCapTestTimeout s
  | .recordCapture => Sys2Proof.Machine.execRecordCapture s
  | .recordWriteStart => Sys2Proof.Machine.execRecordWriteStart s
  | .recackTimeout => Sys2Proof.Machine.execRecackTimeout s
  | .refreshPassStart => Sys2Proof.Machine.execRefreshPassStart s
  | .timeFrameSend => Sys2Proof.Machine.execTimeFrameSend s
  | .presentFrameSend => Sys2Proof.Machine.execPresentFrameSend s
  | .masterLossTimeout => Sys2Proof.Machine.execMasterLossTimeout s
  | .masterClaimWindowEnd => Sys2Proof.Machine.execMasterClaimWindowEnd s
  | .splitClear => Sys2Proof.Machine.execSplitClear s
  | .tandemLinkDown => Sys2Proof.Machine.execTandemLinkDown s
  | .tandemMessageTimeout => Sys2Proof.Machine.execTandemMessageTimeout s
  | .electricalIdleEnd => Sys2Proof.Machine.execElectricalIdleEnd s
  | .hbSend => Sys2Proof.Machine.execHbSend s
  | .hb => Sys2Proof.Machine.execHb s
  | .quiesce => Sys2Proof.Machine.execQuiesce s
  | .perstNAssert => Sys2Proof.Machine.execPerstNAssert s
  | .perstNRelease => Sys2Proof.Machine.execPerstNRelease s
  | .hotReset => Sys2Proof.Machine.execHotReset s
  | .linkDown => Sys2Proof.Machine.execLinkDown s
  | .flr => Sys2Proof.Machine.execFlr s
  | .cxlReset => Sys2Proof.Machine.execCxlReset s
  | .cxlResetComplete => Sys2Proof.Machine.execCxlResetComplete s
  | .ideRxError => Sys2Proof.Machine.execIdeRxError s
  | .viralReceived => Sys2Proof.Machine.execViralReceived s
  | .gpfPhase1 => Sys2Proof.Machine.execGpfPhase1 s
  | .gpfPhase2 => Sys2Proof.Machine.execGpfPhase2 s
  | .getEndpointId => Sys2Proof.Machine.execGetEndpointId s
  | .getEndpointUuid => Sys2Proof.Machine.execGetEndpointUuid s
  | .getMctpVersionSupport => Sys2Proof.Machine.execGetMctpVersionSupport s
  | .getMessageTypeSupport => Sys2Proof.Machine.execGetMessageTypeSupport s
  | .smbusClockLowTimeout => Sys2Proof.Machine.execSmbusClockLowTimeout s
  | .backgroundAbortStop => Sys2Proof.Machine.execBackgroundAbortStop s
  | .lockoutEnd => Sys2Proof.Machine.execLockoutEnd s
  | .ownTimeFrameReturnTimeout => Sys2Proof.Machine.execOwnTimeFrameReturnTimeout s

end Sys2Proof.Machine
end

