-- ==== Sys2Proof/Machine/Order.lean ====
section
/-! DEFINITION. The order of the events of one tick (R19 to R21, R31): their groups, stamps and sources, and the queue that takes
them in that order. -/
namespace Sys2Proof.Machine

/-- The groups in which the events of one tick are worked (R20). -/
inductive EventGroup where
  | trip
  | completion
  | request
  deriving DecidableEq, Repr

/-- The group of an event: a trip or fault, the end of an operation or of a wait, or a request for new work (R20, R221). -/
def eventGroup (i : Instr) : EventGroup :=
  match i with
  | .vinFallTrip _ | .pwrfailNAssert _ | .uvTrip _ _ | .ovTrip _ _ | .rowFault _ | .thermalLimit _ | .mmbAlert _
  | .holdUvTrip | .hubWatchdogExpiry | .hubMemoryError | .portBufferError | .ideRxError | .vaonPowerOff | .vaonWarning
  | .tandemLinkDown | .brakeFrame _ | .faultFrame _ | .flitCrcThreshold _ | .viralReceived => .trip
  | .demandReadDispatch _ _ | .senseLatched _ _ | .demandWindowStart _ _ | .nonDemandTransfer _ _
  | .decodeComplete _ _ _ _ | .responseTransmit _ _ | .backgroundAgePromotion _ | .suspendLong _ | .jobComplete _ _
  | .programVerified _ | .verifyFailed _ | .suspendedAtSafePoint _ | .caCrcError _ | .writeCrcError _
  | .tagOperationDone _ | .selfCheckResult _ | .bandMismatch _ | .scrubSetVisit _ _ | .patrolStep _ _
  | .dieTemperatureRead _ _ _ | .dqsDriftTrack _ | .recallComplete _ _ _ | .firmwareAuthenticated _ _
  | .microcodeLoaded _ | .rstWaitEnd _ | .trainingComplete _ _ | .cacheTestComplete _ _ | .recoverReadComplete _
  | .pgEdge _ _ _ | .pgTimeoutExpiry _ | .retryBackoffEnd _ | .marginSettleEnd _ | .trimNeutralHoldEnd _
  | .nominalSettleEnd _ | .pmbusTransactionComplete _ _ _ | .pmbusStretchTimeout _ | .slotDue _
  | .triggerPeriodExpiry _ | .conversionComplete _ _ | .recordWriteVerify _ _ | .lazyStoreExpiry _ | .storeStart _
  | .saddlebagStoreComplete _ _ | .capacitorRecharge _ | .recackFrame _ | .tandemLinkUp _ | .mackDeadline _ | .mack _
  | .linkTrained _ _ | .linkRetrain _ _ | .fwActivationComplete _ | .nonceExpiry _ | .presentHeardExpiry _
  | .storeSupplyThreshold _ | .comparatorRelease _ _ | .shadowReadComplete _ _ | .epochAdvance | .serviceCheckpointDue
  | .vaonPowerOn | .recorderScanComplete | .vaonWarnClear | .vinRise | .pwrfailNDeassert | .freewheelT1
  | .autostoreComplete | .debounceExpiry | .coreRailDetect | .mmbRailDetect | .sramRailDetect | .maintenanceEntry
  | .serviceReturn | .brakeT1 | .gangSyncTimeout | .waitTicksExpiry | .offDelayExpiry | .slotUnsyncTimeout
  | .capTestDue | .capTestDeferEnd | .capTestDiscardEnd | .capTestTimeout | .recordCapture | .recordWriteStart
  | .recackTimeout | .refreshPassStart | .timeFrameSend | .presentFrameSend | .masterLossTimeout
  | .masterClaimWindowEnd | .splitClear | .tandemMessageTimeout | .electricalIdleEnd | .hbSend | .cxlResetComplete
  | .smbusClockLowTimeout | .backgroundAbortStop | .lockoutEnd | .ownTimeFrameReturnTimeout | .cadenceTick => .completion
  | .memrd _ _ _ _ | .memrddata _ _ _ _ | .memwr _ _ _ _ _ _ | .memwrptl _ _ _ _ _ _ _ | .meminv _ _ | .meminvnt _ _
  | .memspecrd _ | .injectedRequest _ _ | .calibrationStart _ | .diagnosisStart _ | .fifoRead _ | .timeFrame _ _
  | .presentFrame _ _ | .recordFrame _ | .mwr _ | .mcred _ | .mrel _ _ | .rsync _ | .rdone _ _ | .config _ | .role _
  | .hdmDecoderCommit _ _ | .doeDiscovery _ | .cxlTableAccess _ | .cxlIdeKm _ | .ideKm _ | .getVersion _ _
  | .getCapabilities _ _ | .negotiateAlgorithms _ _ | .getDigests _ _ | .getCertificate _ _ | .challenge _ _
  | .getMeasurements _ _ | .keyExchange _ _ | .finish _ _ | .keyUpdate _ _ | .heartbeat _ _ | .endSession _ _
  | .getCsr _ _ | .setCertificate _ _ | .setEndpointId _ | .identify _ _ | .backgroundOperationStatus _ _
  | .requestAbortBackgroundOperation _ _ | .getEventRecords _ _ | .clearEventRecords _ _
  | .getEventInterruptPolicy _ _ | .setEventInterruptPolicy _ _ | .getFwInfo _ _ | .transferFw _ _ | .activateFw _ _
  | .getTimestamp _ _ | .setTimestamp _ _ | .getSupportedLogs _ _ | .getLog _ _ | .identifyMemoryDevice _ _
  | .getPartitionInfo _ _ | .setPartitionInfo _ _ | .getLsa _ _ | .setLsa _ _ | .getHealthInfo _ _
  | .getAlertConfiguration _ _ | .setAlertConfiguration _ _ | .getShutdownState _ _ | .setShutdownState _ _
  | .getPoisonList _ _ | .injectPoison _ _ | .clearPoison _ _ | .scanMedia _ _ | .getScanMediaCapabilities _ _
  | .getScanMediaResults _ _ | .sanitize _ _ | .secureErase _ _ | .unsupportedOpcode _ _ | .getDeviceStatus _ _
  | .nonceFetch _ _ | .changeModeRamp _ _ | .changeModeService _ _ | .changeModeMaintenance _ _ | .brakeRelease _ _
  | .setOwnerKey _ _ | .cryptoErase _ _ | .getServiceConfig _ _ | .setServiceConfig _ _ | .getBackgroundResult _ _
  | .getRailConfig _ _ | .setRailTable _ _ | .setRailChannel _ _ | .setRailGlobals _ _ | .marginRailTrim _ _
  | .marginRailHigh _ _ | .marginRailLow _ _ | .marginRailSetpoint _ _ | .marginRailNominal _ _
  | .railCommandEnable _ _ | .railCommandDisable _ _ | .readRecords _ _ | .readCursor _ _ | .getSnapshotList _ _
  | .clearRecorder _ _ | .setSnapshotList _ _ | .readPages _ _ | .writePages _ _ | .setSaddlebagProtection _ _
  | .getConverterConfig _ _ | .setConverterSchedule _ _ | .setInputConfig _ _ | .calibrateConverter _ _
  | .diagnoseInput _ _ | .getLedgerStatus _ _ | .setLedgerConfig _ _ | .measureCapacitance _ _ | .getCacheStatus _ _
  | .setCacheModeNormal _ _ | .setCacheModeBypass _ _ | .lockCacheLines _ _ | .unlockCacheLines _ _
  | .setScratchCarveOut _ _ | .releaseRange _ _ | .getReleaseBitmap _ _ | .getMediaStatus _ _ | .setPatrol _ _
  | .getPelotonStatus _ _ | .setPelotonConfig _ _ | .getTandemStatus _ _ | .setTandemConfiguration _ _
  | .promoteMirrorHolder _ _ | .promoteMirrorOwner _ _ | .readRegisters _ _ | .writeRegisters _ _
  | .registerWrite _ _ _ | .seqEnd | .seqEnable | .seqDisable | .waitPg | .waitTicks | .checkWindow | .gangSync
  | .branchOnFault | .hb | .quiesce | .perstNAssert | .perstNRelease | .hotReset | .linkDown | .flr | .cxlReset
  | .gpfPhase1 | .gpfPhase2 | .getEndpointId | .getEndpointUuid | .getMctpVersionSupport | .getMessageTypeSupport => .request

/-- A group's place in the order. -/
def groupNo : EventGroup → Nat
  | .trip => 0
  | .completion => 1
  | .request => 2

/-- The stamp that an event brings from its source (R19). -/
def eventTime (i : Instr) : Option Nat :=
  match i with
  | .memrd _ _ t _ => some t
  | .memrddata _ _ t _ => some t
  | .memwr _ _ t _ _ _ => some t
  | .memwrptl _ _ t _ _ _ _ => some t
  | .demandReadDispatch _ t => some t
  | .senseLatched _ t => some t
  | .demandWindowStart _ t => some t
  | .nonDemandTransfer _ t => some t
  | .decodeComplete _ _ _ t => some t
  | .responseTransmit _ t => some t
  | .vinFallTrip t => some t
  | .pwrfailNAssert t => some t
  | .uvTrip _ t => some t
  | .ovTrip _ t => some t
  | .pgEdge _ _ t => some t
  | .timeFrame _ t => some t
  | .presentFrame _ t => some t
  | .patrolStep _ t => some t
  | _ => none

/-- The source number of an event (R21). -/
def eventSource (s : State) (i : Instr) : Nat :=
  match i with
  | .uvTrip c _ => srcRail c.val
  | .ovTrip c _ => srcRail c.val
  | .pgEdge c _ _ => srcRail c.val
  | .marginSettleEnd c => srcRail c.val
  | .trimNeutralHoldEnd c => srcRail c.val
  | .nominalSettleEnd c => srcRail c.val
  | .comparatorRelease c _ => srcRail c.val
  | .pgTimeoutExpiry tgt => srcRail (tgtLow s tgt)
  | .retryBackoffEnd tgt => srcRail (tgtLow s tgt)
  | .slotDue n => srcConv n.val
  | .triggerPeriodExpiry n => srcConv n.val
  | .conversionComplete n _ => srcConv n.val
  | .calibrationStart n => srcConv n.val
  | .injectedRequest n _ => srcConv n.val
  | .fifoRead n => srcConv n.val
  | .capTestDue | .capTestDeferEnd | .capTestDiscardEnd | .capTestTimeout => srcLedger
  | .vinFallTrip _ | .pwrfailNAssert _ | .holdUvTrip | .freewheelT1 | .brakeT1 | .autostoreComplete | .vinRise
  | .pwrfailNDeassert => srcFreewheel
  | .caCrcError f => srcWheel f.w.val
  | .writeCrcError f => srcWheel f.w.val
  | .thermalLimit f => srcWheel f.w.val
  | .selfCheckResult f => srcWheel f.w.val
  | .bandMismatch f => srcWheel f.w.val
  | .rowFault f => srcWheel f.w.val
  | .suspendedAtSafePoint f => srcWheel f.w.val
  | .mmbAlert w => srcWheel w.val
  | .scrubSetVisit w _ => srcWheel w.val
  | .patrolStep w _ => srcWheel w.val
  | .dieTemperatureRead w _ _ => srcWheel w.val
  | .dqsDriftTrack w => srcWheel w.val
  | .rstWaitEnd w => srcWheel w.val
  | .trainingComplete w _ => srcWheel w.val
  | .programVerified f => srcSpoke f.w.val (f.d.val * 2 + f.bank.val / 8)
  | .verifyFailed f => srcSpoke f.w.val (f.d.val * 2 + f.bank.val / 8)
  | .tagOperationDone f => srcSpoke f.w.val (f.d.val * 2 + f.bank.val / 8)
  | .senseLatched b _ => srcSpoke b.w.val (b.d.val * 2 + b.b.val / 8)
  | .nonDemandTransfer b _ => srcSpoke b.w.val (b.d.val * 2 + b.b.val / 8)
  | .backgroundAgePromotion b => srcSpoke b.w.val (b.d.val * 2 + b.b.val / 8)
  | .suspendLong b => srcSpoke b.w.val (b.d.val * 2 + b.b.val / 8)
  | .jobComplete w sp => srcSpoke w.val sp.val
  | .memrd _ _ _ _ | .memrddata _ _ _ _ | .memwr _ _ _ _ _ _ | .memwrptl _ _ _ _ _ _ _ | .meminv _ _ | .meminvnt _ _
  | .memspecrd _ | .demandReadDispatch _ _ | .demandWindowStart _ _ | .decodeComplete _ _ _ _ | .responseTransmit _ _
  | .linkTrained _ _ | .linkRetrain _ _ | .flitCrcThreshold _ | .hdmDecoderCommit _ _ | .doeDiscovery _
  | .cxlTableAccess _ | .cxlIdeKm _ | .ideKm _ | .portBufferError | .perstNAssert | .perstNRelease | .hotReset
  | .linkDown | .flr | .cxlReset | .cxlResetComplete | .ideRxError | .viralReceived | .gpfPhase1 | .gpfPhase2 => srcHost
  | .tandemLinkUp _ | .mackDeadline _ | .mwr _ | .mack _ | .mcred _ | .mrel _ _ | .rsync _ | .rdone _ _ | .config _
  | .role _ | .tandemLinkDown | .tandemMessageTimeout | .electricalIdleEnd | .hbSend | .hb | .quiesce => srcTandem
  | .timeFrame _ _ | .presentFrame _ _ | .brakeFrame _ | .faultFrame _ | .recordFrame _ | .recackFrame _
  | .presentHeardExpiry _ | .timeFrameSend | .presentFrameSend | .masterLossTimeout | .masterClaimWindowEnd
  | .splitClear | .ownTimeFrameReturnTimeout => srcRing
  | .recordWriteVerify _ _ | .recordCapture | .recordWriteStart | .recackTimeout | .recorderScanComplete => srcRecorder
  | .lazyStoreExpiry _ | .storeStart _ | .saddlebagStoreComplete _ _ | .capacitorRecharge _ | .storeSupplyThreshold _
  | .shadowReadComplete _ _ | .refreshPassStart | .recallComplete _ _ _ => srcSaddlebag
  | _ => srcHub

/-- The transport that a mailbox command came by. -/
def eventVia (i : Instr) : Option Transport :=
  match i with
  | .identify via _ => some via
  | .backgroundOperationStatus via _ => some via
  | .requestAbortBackgroundOperation via _ => some via
  | .getEventRecords via _ => some via
  | .clearEventRecords via _ => some via
  | .getEventInterruptPolicy via _ => some via
  | .setEventInterruptPolicy via _ => some via
  | .getFwInfo via _ => some via
  | .transferFw via _ => some via
  | .activateFw via _ => some via
  | .getTimestamp via _ => some via
  | .setTimestamp via _ => some via
  | .getSupportedLogs via _ => some via
  | .getLog via _ => some via
  | .identifyMemoryDevice via _ => some via
  | .getPartitionInfo via _ => some via
  | .setPartitionInfo via _ => some via
  | .getLsa via _ => some via
  | .setLsa via _ => some via
  | .getHealthInfo via _ => some via
  | .getAlertConfiguration via _ => some via
  | .setAlertConfiguration via _ => some via
  | .getShutdownState via _ => some via
  | .setShutdownState via _ => some via
  | .getPoisonList via _ => some via
  | .injectPoison via _ => some via
  | .clearPoison via _ => some via
  | .scanMedia via _ => some via
  | .getScanMediaCapabilities via _ => some via
  | .getScanMediaResults via _ => some via
  | .sanitize via _ => some via
  | .secureErase via _ => some via
  | .unsupportedOpcode via _ => some via
  | .getDeviceStatus via _ => some via
  | .nonceFetch via _ => some via
  | .nonceExpiry via => some via
  | .changeModeRamp via _ => some via
  | .changeModeService via _ => some via
  | .changeModeMaintenance via _ => some via
  | .brakeRelease via _ => some via
  | .setOwnerKey via _ => some via
  | .cryptoErase via _ => some via
  | .getServiceConfig via _ => some via
  | .setServiceConfig via _ => some via
  | .getBackgroundResult via _ => some via
  | .getRailConfig via _ => some via
  | .setRailTable via _ => some via
  | .setRailChannel via _ => some via
  | .setRailGlobals via _ => some via
  | .marginRailTrim via _ => some via
  | .marginRailHigh via _ => some via
  | .marginRailLow via _ => some via
  | .marginRailSetpoint via _ => some via
  | .marginRailNominal via _ => some via
  | .railCommandEnable via _ => some via
  | .railCommandDisable via _ => some via
  | .readRecords via _ => some via
  | .readCursor via _ => some via
  | .getSnapshotList via _ => some via
  | .clearRecorder via _ => some via
  | .setSnapshotList via _ => some via
  | .readPages via _ => some via
  | .writePages via _ => some via
  | .setSaddlebagProtection via _ => some via
  | .getConverterConfig via _ => some via
  | .setConverterSchedule via _ => some via
  | .setInputConfig via _ => some via
  | .calibrateConverter via _ => some via
  | .diagnoseInput via _ => some via
  | .getLedgerStatus via _ => some via
  | .setLedgerConfig via _ => some via
  | .measureCapacitance via _ => some via
  | .getCacheStatus via _ => some via
  | .setCacheModeNormal via _ => some via
  | .setCacheModeBypass via _ => some via
  | .lockCacheLines via _ => some via
  | .unlockCacheLines via _ => some via
  | .setScratchCarveOut via _ => some via
  | .releaseRange via _ => some via
  | .getReleaseBitmap via _ => some via
  | .getMediaStatus via _ => some via
  | .setPatrol via _ => some via
  | .getPelotonStatus via _ => some via
  | .setPelotonConfig via _ => some via
  | .getTandemStatus via _ => some via
  | .setTandemConfiguration via _ => some via
  | .promoteMirrorHolder via _ => some via
  | .promoteMirrorOwner via _ => some via
  | .readRegisters via _ => some via
  | .writeRegisters via _ => some via
  | _ => none

/-- The key of an event among those of its tick; one that brings no stamp has the present GTC. -/
def eventKey (s : State) (i : Instr) : List Nat :=
  [groupNo (eventGroup i), (eventTime i).getD s.gtc, eventSource s i, ((eventVia i).map viaNo).getD 0]

/-- The order of two events of one tick (R19, R20). -/
def eventLe (s : State) (a b : Instr) : Bool := decide (eventKey s a ≤ eventKey s b)

/-- The events of one tick in the order in which they are worked; where R19 and R20 leave two alike, they keep the order of their
arrival. -/
def tickOrder (s : State) (es : List Instr) : List Instr := sortBy (eventLe s) es

/-- The events of one tick arrive: they queue in their order, behind what waits already. -/
def State.receive (es : List Instr) (s : State) : State := { s with pending := s.pending ++ tickOrder s es }

end Sys2Proof.Machine
end

