-- ==== Sys2Proof/Safety.lean ====
section
/-! DEFINITION. What a safe run is, and the words the statements use: what a run can stop on, what a step keeps, and the
conditions under which a command has its own effect. -/
namespace Sys2Proof.Machine

/-- The step answers a next state. -/
def goesOn (s : State) : Bool :=
  match step s with
  | .next _ => true
  | .fault _ => false
  | .refused _ => false

/-- The command's wheel exists in the configuration (R22). -/
def wheelOk (s : State) (w : Wheel) : Bool := decide (w.val < Config.wheels s.config)

/-- The wheel a command names, if it names one: its own operand, a bank's, or a die event frame's. -/
def namedWheel : Instr → Option Wheel
  | .senseLatched b _ => some b.w
  | .nonDemandTransfer b _ => some b.w
  | .backgroundAgePromotion b => some b.w
  | .suspendLong b => some b.w
  | .jobComplete w _ => some w
  | .programVerified f => some f.w
  | .verifyFailed f => some f.w
  | .suspendedAtSafePoint f => some f.w
  | .caCrcError f => some f.w
  | .writeCrcError f => some f.w
  | .tagOperationDone f => some f.w
  | .thermalLimit f => some f.w
  | .selfCheckResult f => some f.w
  | .bandMismatch f => some f.w
  | .rowFault f => some f.w
  | .mmbAlert w => some w
  | .scrubSetVisit w _ => some w
  | .patrolStep w _ => some w
  | .dieTemperatureRead w _ _ => some w
  | .dqsDriftTrack w => some w
  | .rstWaitEnd w => some w
  | .trainingComplete w _ => some w
  | _ => none

/-- The GTC is 64 bits wide (R17): every step keeps it so. -/
def gtcOk (s : State) : Prop := s.gtc < 2 ^ 64

/-- Every register field but those named, each with its instance, keeps its value. -/
def regsKept (s t : State) (changed : List (Fld × Nat)) : Prop :=
  ∀ (g : Fld) (i : Nat), (∀ p ∈ changed, g.key i ≠ p.1.key p.2) → fget t g i = fget s g i

/-- The parts of the state, for frames: what no command changes (R3) and the queue are not among them. -/
inductive Part where
  | gtc | stamp | mode | regs | pins | host | cache | sched | led | fw | med | life | seq | mcv | rcd | sbg | pel | tnd | mbx | outbox | freeIx
  deriving DecidableEq, Repr

/-- Two states agree on a part. -/
def agree (s t : State) : Part → Prop
  | .gtc => t.gtc = s.gtc
  | .stamp => t.stamp = s.stamp
  | .mode => t.mode = s.mode
  | .regs => t.regs = s.regs ∧ t.setAt = s.setAt
  | .pins => t.pins = s.pins
  | .host => t.host = s.host
  | .cache => t.cache = s.cache
  | .sched => t.sched = s.sched
  | .led => t.led = s.led
  | .fw => t.fw = s.fw
  | .med => t.med = s.med
  | .life => t.life = s.life
  | .seq => t.seq = s.seq
  | .mcv => t.mcv = s.mcv
  | .rcd => t.rcd = s.rcd
  | .sbg => t.sbg = s.sbg
  | .pel => t.pel = s.pel
  | .tnd => t.tnd = s.tnd
  | .mbx => t.mbx = s.mbx
  | .outbox => t.outbox = s.outbox
  | .freeIx => t.freeIx = s.freeIx

/-- Every part of the state but those named is as it was. -/
def keptBut (s t : State) (changed : List Part) : Prop :=
  t.config = s.config ∧ t.serial = s.serial ∧ t.stepping = s.stepping ∧ t.pending = s.pending
    ∧ ∀ p : Part, p ∉ changed → agree s t p

/-- Nothing outside the always-retained parts is powered: what VAON_POWER_OFF leaves (R185). -/
def powerless (s : State) : Prop :=
  s.mode = .off ∧ s.regs = [] ∧ s.setAt = [] ∧ s.pins = { State.reset.pins with vaon := false, perst := s.pins.perst }
    ∧ s.host = hostReset ∧ s.cache = cacheReset ∧ s.sched = schedReset ∧ s.led = ledgerReset ∧ s.fw = fwReset
    ∧ s.seq = seqReset ∧ s.mcv = mcvReset ∧ s.rcd = rcdReset ∧ s.pel = pelReset ∧ s.tnd = tndReset ∧ s.mbx = mbxReset
    ∧ s.life = { lifeReset with fwVersion := s.life.fwVersion, fwBad := s.life.fwBad }
    ∧ s.med = { mediaReset with lines := s.med.lines, tags := s.med.tags, drain := s.med.drain, index := s.med.index
                                ckpts := s.med.ckpts }
    ∧ s.sbg = { sbgReset with shadow := s.sbg.shadow, written := s.sbg.written }

/-- The saddlebag's memories are in canonical form, and every running store's image lies in its page. -/
def sbForm (s : State) : Prop :=
  Memory.wf s.sbg.work ∧ Memory.wf s.sbg.shadow
    ∧ ∀ b r, runningStore s b = some r → Memory.wf r.image ∧ ∀ x ∈ r.image, x.1 / 256 = r.page

/-- The changes of mode that R185's table names. -/
def modeMay : Mode → Mode → Bool
  | .off, .standby => true
  | .standby, .ramp => true
  | .ramp, .recover => true
  | .ramp, .freewheel => true
  | .recover, .freewheel => true
  | .ramp, .brake => true
  | .recover, .brake => true
  | .recover, .service => true
  | .service, .maintenance => true
  | .maintenance, .service => true
  | .service, .freewheel => true
  | .maintenance, .freewheel => true
  | .service, .brake => true
  | .maintenance, .brake => true
  | .freewheel, .standby => true
  | .freewheel, .brake => true
  | .brake, .standby => true
  | _, .off => true
  | _, _ => false

/-- The port serves a host request of a new tag stamped `t`: it meets SERVICE and no brake, with the link up and CXL.mem enabled,
no viral from a brake, and a context free (within the port's credits one always is, R89). -/
def hostServes (s : State) (tag : BitVec 16) (t : Nat) : Prop :=
  gtcOk s ∧ memLink s = true ∧ modeAt t s = .service ∧ s.mode ≠ .brake ∧ s.host.viralBrake = false ∧ ctxOf s tag = none
    ∧ ctxFull s = false

/-- The context of a served load at its answer. -/
def answeredLoad (op : CtxOp) (tag : BitVec 16) (hpa dpa t : Nat) (data : Sector) (poison : Bool) : Ctx :=
  { newCtx op tag hpa dpa t 480 with st := .respond, served := true, rdata := data, rpoison := poison }

/-- What the block sends when a transport's command ends: the answer, and on the primary mailbox vector 0 where the link carries it. -/
def sends (s : State) (via : Transport) (op : Nat) (r : RetCode) (out : List Byte) : List Emission :=
  .mbox via op r out :: (if via = .primary ∧ s.host.linkUp = true then [.msix 0] else [])

/-- What a mailbox's registers then show: its last answer (R331); MCTP has no such registers. -/
def shows (s : State) (via : Transport) (op : Nat) (r : RetCode) (out : List Byte) : Tab MbxAnswer :=
  if via = .mctp then s.mbx.answers else tabPut (viaNo via) ⟨op, r, out⟩ s.mbx.answers

/-- The state after a command that only answers. -/
def ended (s : State) (via : Transport) (op : Nat) (r : RetCode) (out : List Byte) : State :=
  { s with outbox := s.outbox ++ sends s via op r out, mbx := { s.mbx with answers := shows s via op r out } }

/-- What it sends when it refuses a vendor command (R334). -/
def refuses (s : State) (via : Transport) (op vs : Nat) : List Emission := sends s via op ⟨rcOf vs, vs⟩ (leBytes 4 vs)

/-- The state after a vendor command that is refused, and changes nothing else (R334). -/
def declined (s : State) (via : Transport) (op vs : Nat) : State := ended s via op ⟨rcOf vs, vs⟩ (leBytes 4 vs)

/-- A command reaches its own meaning: its transport is free, and the endpoint that answers takes the command in this mode. -/
def reaches (s : State) (via : Transport) (op : Nat) (acc : Accept) : Prop :=
  gtcOk s ∧ transportBusy s via = false
    ∧ ((endpoint s via = .aon ∧ aonServes s op = true)
      ∨ (endpoint s via = .hub ∧ hubGate s via op = 0 ∧ accepted s acc = true ∧ (via = .mctp → overMctp op = true)))

/-- A stored command's end: with none of its pages left to store it is answered at once and its registers load at the next tick;
else it waits for exactly the dirty ones of its pages. -/
def endsStored (s t : State) (via : Transport) (op : Nat) (pages : List Nat) (reload : List (Nat × Nat)) (out : List Byte) : Prop :=
  if ∀ p ∈ pages, pageDirty t p = false then
    t.outbox = s.outbox ++ sends s via op ⟨0, 0⟩ out
      ∧ t.mbx = { s.mbx with reload := s.mbx.reload ++ reload, answers := shows s via op ⟨0, 0⟩ out }
  else
    t.outbox = s.outbox ∧ ∃ f : Fg, t.mbx = { s.mbx with fg := s.mbx.fg ++ [f] } ∧ f.via = some via ∧ f.opcode = op ∧ f.out = out
      ∧ f.reload = reload ∧ ∀ p, p ∈ f.pages ↔ p ∈ pages ∧ pageDirty t p = true

/-- The working copy holds new bytes from byte `a` on, and everywhere else what it held; a page of theirs that is dirty is to be
stored. -/
def wrote (s t : State) (a : Nat) (bs : List Byte) : Prop :=
  (∀ k, sbByte t k = if a ≤ k ∧ k < a + bs.length then bs.getD (k - a) 0 else sbByte s k)
    ∧ (∀ p ∈ pagesOf a bs.length, pageDirty t p = true → nsHas p t.sbg.reqs = true)
    ∧ t.sbg.shadow = s.sbg.shadow ∧ t.sbg.running = s.sbg.running

/-- An authorised command's nonce, owner key and token are good, outside a lockout (R341, R342). -/
def tokenGood (s : State) (via : Transport) (op : Nat) (input : List Byte) : Prop :=
  lockedOut s = false ∧ ∃ x k, liveNonce s via = some x ∧ ownerKey s = some k
    ∧ tokenFor k x op (input.take (input.length - 16)) = input.drop (input.length - 16)

end Sys2Proof.Machine
end

