-- ==== Sys2Proof/WellFormed.lean ====
section
/-! DEFINITION. Which commands are well formed: addresses, stamps and operands inside the ranges the manual gives
them. A command outside them names nothing the hardware can receive. The meanings are total all the same: no meaning
leans on these checks. -/
namespace Sys2Proof

/-- A host address as CXL.mem carries it: 52 bits, a 64-byte sector (R24, R46). -/
def hpaOk (hpa : Nat) : Bool := decide (hpa < 2 ^ 52) && decide (hpa % 64 = 0)

/-- A stamp of the 64-bit counter (R17). -/
def stampOk (t : Nat) : Bool := decide (t < 2 ^ 64)

/-- A payload fits the largest payload area a transport has, 64 KiB (R331). -/
def payloadOk (xs : List Byte) : Bool := decide (xs.length ≤ 65536)

/-- A link width of the port (R33). -/
def widthOk (w : Nat) : Bool := [1, 2, 4, 8, 16].contains w

/-- The sensor of a die reads in whole degrees of eight bits (R166). -/
def celsiusOk (c : Int) : Bool := decide (-128 ≤ c) && decide (c ≤ 127)

/-- A codeword has 2,304 bits, so no more of them are in error (R148). -/
def errorsOk (e : BitErrors) : Bool := decide (e.bits ≤ 2304)

/-- A CONFIG message's bitmap lists regions, each once, as many as it says (R320). -/
def configOk (m : ConfigMsg) : Bool :=
  decide m.bitmap.Nodup && decide (m.bitmap.length = m.mirrored.toNat) && m.bitmap.all (fun r => decide (r < 65536))

/-- Pages of the saddlebag (R290). -/
def pagesOk (xs : List Nat) : Bool := xs.all (fun p => decide (p < 4096))

/-- Registers of a decoder as wide as the host writes them (R45): 64 bits. -/
def decoderOk (v : DecoderWords) : Bool := decide (v.base < 2 ^ 64) && decide (v.size < 2 ^ 64) && decide (v.skip < 2 ^ 64)

/-- The opcodes that have a row of their own (R338, R346 to R358). -/
def listedOpcodes : List Nat := 0x4101 :: (Machine.stdOpcodes ++ Machine.vendorOpcodes)

/-- The scrub visits a set of at most 16 ways of four sectors (R61, R71). -/
def scrubOk (xs : List ScrubFinding) : Bool := decide (xs.length ≤ 64)

/-- The checks of a command's operands; a command without operands has none. -/
def wellFormed : Instr → Bool
  | .memrd _ hpa t _ => hpaOk hpa && stampOk t
  | .memrddata _ hpa t _ => hpaOk hpa && stampOk t
  | .memwr _ hpa t _ _ _ => hpaOk hpa && stampOk t
  | .memwrptl _ hpa t _ _ _ _ => hpaOk hpa && stampOk t
  | .meminv _ hpa => hpaOk hpa
  | .meminvnt _ hpa => hpaOk hpa
  | .memspecrd hpa => hpaOk hpa
  | .demandReadDispatch _ t => stampOk t
  | .senseLatched _ t => stampOk t
  | .demandWindowStart _ t => stampOk t
  | .nonDemandTransfer _ t => stampOk t
  | .decodeComplete _ e _ t => errorsOk e && stampOk t
  | .responseTransmit _ t => stampOk t
  | .scrubSetVisit _ xs => scrubOk xs
  | .dieTemperatureRead _ _ c => celsiusOk c
  | .recallComplete _ c u => pagesOk c && pagesOk u
  | .vinFallTrip t => stampOk t
  | .pwrfailNAssert t => stampOk t
  | .uvTrip _ t => stampOk t
  | .ovTrip _ t => stampOk t
  | .pgEdge _ _ t => stampOk t
  | .timeFrame _ t => stampOk t
  | .presentFrame _ t => stampOk t
  | .config m => configOk m
  | .linkTrained w _ => widthOk w
  | .linkRetrain w _ => widthOk w
  | .hdmDecoderCommit _ v => decoderOk v
  | .unsupportedOpcode _ op => !listedOpcodes.contains op.toNat
  | .setLsa _ xs => payloadOk xs
  | .writePages _ xs => payloadOk xs
  | .transferFw _ xs => payloadOk xs
  | _ => true

end Sys2Proof
end

