-- ==== Sys2Proof/Certificates/Slice0/Obligations.lean ====
section
/-! DEFINITION. The statements for the provers: one definition each, in the words of the model. -/
open Sys2Proof Sys2Proof.Machine

/-- For every command c and state s: when c is at the front of the queue of waiting commands, a step of s is exec of c on s with
the queue's rest, so commands run first in, first out. That an empty queue leaves the block as it is (step answers the same
state) is the model's choice, log entry 11. The events of one tick that arrive join the end of the queue, each once and none beside
them, in the order of group (trips and faults, then completions and expiries, then requests), stamp and source number, and among
requests to the hub by mailbox, primary first; those that these leave alike keep the order of their arrival. -/
def Obligations.StepRunsFrontOfQueue : Prop :=
  (∀ (s : State) (c : Instr) (rest : List Instr), s.pending = c :: rest → step s = exec c { s with pending := rest })
    ∧ (∀ s : State, s.pending = [] → step s = .next s)
    ∧ ∀ (s : State) (es : List Instr), ∃ out, s.receive es = { s with pending := s.pending ++ out } ∧ out.Perm es
        ∧ out.Pairwise (fun a b => eventKey s a ≤ eventKey s b)
        ∧ ∀ k, out.filter (fun e => eventKey s e = k) = es.filter (fun e => eventKey s e = k)

/-- After reset the GTC is 0, the mode is STANDBY with the core rails off, every register field reads the value its register table
gives for reset, the always-on endpoint has not yet recalled the saddlebag (SBG_STATUS.READY reads 0), the working copy, the media
and the queue hold nothing, nothing has been sent, and the memories have their canonical form. That State.reset is the instant after VAON has risen, rather than OFF, and
that empty memory reads as erased bytes are the model's choices (log entries 14 and 15). -/
def Obligations.ResetLeavesStandbyAndDefaults : Prop :=
  State.reset.gtc = 0 ∧ State.reset.mode = .standby ∧ coreOn State.reset = false
    ∧ (∀ (f : Fld) (i : Nat), fget State.reset f i = f.dflt)
    ∧ sbReady State.reset = false ∧ State.reset.sbg = sbgReset ∧ State.reset.med.lines = []
    ∧ State.reset.pending = [] ∧ State.reset.outbox = [] ∧ gtcOk State.reset
    ∧ sbForm State.reset

/-- For every command and every state: exec answers a next state, unless the command names a wheel (in an operand, a bank or a die
event frame) that the configuration does not have, and then it stops with the fault fusedOffWheel. No command is refused. -/
def Obligations.CommandsStopOnlyAtFusedOffWheels : Prop :=
  ∀ (c : Instr) (s : State),
    match namedWheel c with
    | none => ∃ t, exec c s = .next t
    | some w =>
      if w.val < Config.wheels s.config then ∃ t, exec c s = .next t
      else exec c s = .fault .fusedOffWheel

/-- For every state whose GTC is 64 bits wide: whatever command a step runs, the next state has the same configuration, serial
number and stepping, a GTC that is again 64 bits wide, and the queue without its front command. -/
def Obligations.StepKeepsWhatManufactureFixed : Prop :=
  ∀ s t : State, gtcOk s → step s = .next t →
    t.config = s.config ∧ t.serial = s.serial ∧ t.stepping = s.stepping ∧ gtcOk t ∧ t.pending = s.pending.tail

/-- For every state in OFF with nothing powered (as VAON_POWER_OFF leaves it), every command but VAON_POWER_ON that answers a
next state leaves every part of the device as it is: the registers, the media, the saddlebag's shadow, the firmware store, what
was sent, and the GTC, which stands still. Only the level that the host drives on PERST_N may differ. -/
def Obligations.OffIsInertUntilVaonRises : Prop :=
  ∀ (c : Instr) (s t : State), powerless s → gtcOk s → c ≠ .vaonPowerOn → exec c s = .next t →
    t = { s with pins := { s.pins with perst := t.pins.perst } } ∧ powerless t

/-- In every mode but OFF, VAON_POWER_OFF completes with OFF and nothing powered; media lines and tags, the drain areas, the
checkpoints, the firmware store and, while no saddlebag store runs, the shadow are as before. In OFF, VAON_POWER_ON completes with
STANDBY, the GTC at 0 and the debounce and the restart counted from there, and changes nothing else but the level of VAON. In OFF,
VAON_POWER_OFF changes nothing, and outside OFF VAON_POWER_ON changes nothing. -/
def Obligations.PowerOffLeavesOffAndRetainedParts : Prop :=
  ∀ s : State, gtcOk s →
    (s.mode ≠ .off → ∃ t, exec .vaonPowerOff s = .next t ∧ powerless t
      ∧ t.med.lines = s.med.lines ∧ t.med.tags = s.med.tags ∧ t.med.drain = s.med.drain ∧ t.med.index = s.med.index
      ∧ t.med.ckpts = s.med.ckpts ∧ t.life.fwVersion = s.life.fwVersion
      ∧ (s.sbg.running = [] → t.sbg.shadow = s.sbg.shadow ∧ t.sbg.written = s.sbg.written) ∧ t.outbox = s.outbox)
    ∧ (s.mode = .off → exec .vaonPowerOff s = .next s)
    ∧ (s.mode = .off → exec .vaonPowerOn s = .next { s with
        mode := .standby, gtc := 0, pins := { s.pins with vaon := true }, life := { s.life with restartAt := 0, goodSince := 0 } })
    ∧ (s.mode ≠ .off → exec .vaonPowerOn s = .next s)

/-- For every state with the core powered outside FREEWHEEL: PERST_N_ASSERT on a high pin outside RAMP and RECOVER, HOT_RESET and
LINK_DOWN on a link that is up complete with the link down, Memory_Active clear, every HDM decoder at its default, no commit
waiting, viral control off, the IDE keys gone, no credit with the host, the mailboxes' registers clear, every context that is not a
partial store still merging gone, and HPT_RESET_CAUSE.LAST reading 1, 2 and 3. In RAMP and RECOVER PERST_N_ASSERT only takes the
link down. PERST_N_ASSERT holds the port (the pin reads asserted); after HOT_RESET and LINK_DOWN with the pin released the link
trains again. PERST_N_RELEASE with the core powered outside FREEWHEEL and the pin asserted makes the link train and changes nothing
else. The cache, the media, the ledger, the saddlebag, the mode and every register outside the port keep their values. -/
def Obligations.ConventionalResetsClearThePort : Prop :=
  ∀ s : State, gtcOk s → coreOn s = true → s.mode ≠ .freewheel →
    let link : List (Fld × Nat) := [(F.HPT_LINK_STATUS_WIDTH, 0), (F.HPT_LINK_STATUS_RATE, 0), (F.HPT_LINK_STATUS_MEM_ENABLED, 0),
      (F.HPT_LINK_STATUS_DEGRADED, 0), (F.HPT_LINK_STATUS_IDE_ACTIVE, 0), (F.HPT_LINK_STATUS_VIRAL_TX, 0),
      (F.HPT_LINK_STATUS_VIRAL_RX, 0), (F.HPT_CREDIT_RWD_OUT, 0)]
    let gone : HostPort := { s.host with
      linkUp := false, reqOut := 0, ide := ⟨false, false, false, false⟩, viralBrake := false, cxlResetting := false }
    let down : List Emission := if s.host.linkUp then [.linkDown] else []
    let done (t : State) (cause : Nat) : Prop :=
      t.host = { gone with decoders := [], commitDue := [], viralEnable := false, memActive := false, activeOwed := true }
        ∧ t.mbx.answers = [] ∧ fget t F.HPT_RESET_CAUSE_LAST 0 = cause
        ∧ (∀ p ∈ link, fget t p.1 p.2 = 0)
        ∧ (∀ c ∈ t.sched.ctxs, c.mute = true ∧ c.op = .storePtl)
        ∧ keptBut s t [.host, .sched, .mbx, .seq, .mcv, .rcd, .pins, .outbox, .regs]
        ∧ regsKept s t ((F.HPT_RESET_CAUSE_LAST, 0) :: link)
    (s.pins.perst = false →
        (s.mode ≠ .ramp → s.mode ≠ .recover → ∃ t, exec .perstNAssert s = .next t ∧ done t 1
          ∧ t.pins = { s.pins with perst := true } ∧ t.outbox = s.outbox ++ down)
        ∧ (s.mode = .ramp ∨ s.mode = .recover → ∃ t, exec .perstNAssert s = .next t ∧ t.host = gone
          ∧ (∀ p ∈ link, fget t p.1 p.2 = 0) ∧ t.pins = { s.pins with perst := true } ∧ t.outbox = s.outbox ++ down
          ∧ keptBut s t [.host, .pins, .outbox, .regs] ∧ regsKept s t link))
      ∧ (s.host.linkUp = true → (∃ t, exec .hotReset s = .next t ∧ done t 2 ∧ t.pins = s.pins
            ∧ t.outbox = s.outbox ++ (if s.pins.perst then [.linkDown] else [.linkDown, .linkTrain]))
          ∧ (∃ t, exec .linkDown s = .next t ∧ done t 3 ∧ t.pins = s.pins
            ∧ t.outbox = s.outbox ++ (if s.pins.perst then [.linkDown] else [.linkDown, .linkTrain])))
      ∧ (s.pins.perst = true → exec .perstNRelease s
            = .next { s with pins := { s.pins with perst := false }, outbox := s.outbox ++ [.linkTrain] })

/-- For every state with the core powered and the link up, outside FREEWHEEL: FLR completes with cause 4, the port's and the memory
path's state as it was. CXL_RESET completes with cause 5, every HDM decoder at its default, no commit waiting, Memory_Active clear,
the reset under way, the link up as before and every context that is not a partial store still merging gone. CXL_RESET_COMPLETE
while a CXL Reset is under way ends it; in SERVICE on a link that is not degraded Memory_Active is set again, and no register
changes. -/
def Obligations.FunctionAndCxlResetsKeepTheLink : Prop :=
  ∀ s : State, gtcOk s → coreOn s = true → s.host.linkUp = true → s.mode ≠ .freewheel →
    (∃ t, exec .flr s = .next t ∧ t.host = s.host ∧ t.sched = s.sched ∧ fget t F.HPT_RESET_CAUSE_LAST 0 = 4
        ∧ keptBut s t [.mbx, .seq, .mcv, .rcd, .regs]
        ∧ regsKept s t [(F.HPT_RESET_CAUSE_LAST, 0)])
      ∧ (∃ t, exec .cxlReset s = .next t ∧ t.host = { s.host with
            decoders := [], commitDue := [], viralEnable := false, memActive := false, activeOwed := true, cxlResetting := true }
        ∧ fget t F.HPT_RESET_CAUSE_LAST 0 = 5 ∧ (∀ c ∈ t.sched.ctxs, c.mute = true ∧ c.op = .storePtl)
        ∧ keptBut s t [.host, .sched, .regs]
        ∧ regsKept s t [(F.HPT_RESET_CAUSE_LAST, 0)])
      ∧ (s.host.cxlResetting = true → ∃ t, exec .cxlResetComplete s = .next t ∧ t.host.cxlResetting = false
        ∧ (s.mode = .service → fon s F.HPT_LINK_STATUS_DEGRADED 0 = false → t.host.memActive = true)
        ∧ keptBut s t [.host])

/-- For every state with the core powered outside FREEWHEEL: LINK_TRAINED with PERST_N released and the link down completes with the
link up, the port's 1,024 Req credits sent to the host, and HPT_LINK_STATUS holding the width and the rate. At x16 or x8 and 32 or
64 GT/s CXL.mem is enabled; at any other pair it is disabled, DEGRADED and the error bit LINK_DEGRADED are set, and an event lands
for the recorder. In SERVICE with Memory_Active owed and the link not degraded, it is set. LINK_RETRAIN of a link that is up with
CXL.mem enabled completes with the new width and rate, one more retrain counted (to 0xFFFF), and the error bit RETRAIN set; below
the minimum CXL.mem is disabled and DEGRADED set, and above it CXL.mem stays enabled. Either way MSI-X vector 7 is raised, and
nothing outside the port, its contexts and the recorder changes. -/
def Obligations.LinkTrainingSetsWidthRateAndMem : Prop :=
  ∀ (s : State) (width : Nat) (rate : Fin 6), gtcOk s → coreOn s = true → s.mode ≠ .freewheel → width < 32 →
    let good : Bool := (width == 16 || width == 8) && decide (4 ≤ rate.val)
    let moved : List (Fld × Nat) := [(F.HPT_LINK_STATUS_WIDTH, 0), (F.HPT_LINK_STATUS_RATE, 0), (F.HPT_LINK_STATUS_MEM_ENABLED, 0),
      (F.HPT_LINK_STATUS_DEGRADED, 0), (F.HPT_ERR_STATUS_LINK_DEGRADED, 0), (F.HPT_ERR_STATUS_RETRAIN, 0),
      (F.HPT_LINK_STATUS_RETRAIN_COUNT, 0)]
    let wide (t : State) : Prop := fget t F.HPT_LINK_STATUS_WIDTH 0 = width ∧ fget t F.HPT_LINK_STATUS_RATE 0 = rate.val
      ∧ (good = true → t.rcd = s.rcd)
      ∧ (good = false → fget t F.HPT_LINK_STATUS_MEM_ENABLED 0 = 0 ∧ fget t F.HPT_LINK_STATUS_DEGRADED 0 = 1
          ∧ fget t F.HPT_ERR_STATUS_LINK_DEGRADED 0 = 1
          ∧ t.rcd = { s.rcd with landed := s.rcd.landed ++ [⟨s.gtc, srcHost, 0x0B, 5, 0, none, none⟩] })
      ∧ regsKept s t moved
    (s.pins.perst = false → s.host.linkUp = false → ∃ t, exec (.linkTrained width rate) s = .next t ∧ wide t
        ∧ t.host = { s.host with linkUp := true, reqOut := 1024, memActive := t.host.memActive, activeOwed := t.host.activeOwed }
        ∧ (good = true → fget t F.HPT_LINK_STATUS_MEM_ENABLED 0 = 1)
        ∧ (good = true → s.mode = .service → s.host.activeOwed = true → fon s F.HPT_LINK_STATUS_DEGRADED 0 = false →
            t.host.memActive = true ∧ t.host.activeOwed = false)
        ∧ (good = false ∨ s.mode ≠ .service ∨ s.host.activeOwed = false →
            t.host.memActive = s.host.memActive ∧ t.host.activeOwed = s.host.activeOwed)
        ∧ fget t F.HPT_LINK_STATUS_RETRAIN_COUNT 0 = fget s F.HPT_LINK_STATUS_RETRAIN_COUNT 0
        ∧ t.outbox = s.outbox ++ [.reqCredits 1024, .msix 7]
        ∧ keptBut s t [.host, .rcd, .outbox, .regs])
      ∧ (s.host.linkUp = true → fon s F.HPT_LINK_STATUS_MEM_ENABLED 0 = true → ∃ t, exec (.linkRetrain width rate) s = .next t ∧ wide t
        ∧ fget t F.HPT_LINK_STATUS_RETRAIN_COUNT 0 = min (fget s F.HPT_LINK_STATUS_RETRAIN_COUNT 0 + 1) 0xFFFF
        ∧ fget t F.HPT_ERR_STATUS_RETRAIN 0 = 1
        ∧ (good = true → fget t F.HPT_LINK_STATUS_MEM_ENABLED 0 = fget s F.HPT_LINK_STATUS_MEM_ENABLED 0 ∧ t.sched = s.sched)
        ∧ t.outbox = s.outbox ++ [.msix 7]
        ∧ keptBut s t [.sched, .rcd, .outbox, .regs])

/-- For every state with the core powered and the link up: FLIT_CRC_THRESHOLD completes with its RAS status set, a correctable AER
message and MSI-X vector 7. IDE_RX_ERROR with CXL.mem keys in use completes with the stream insecure, its keys gone,
HPT_LINK_STATUS.IDE_ACTIVE clear, its RAS status set and a fatal AER message. VIRAL_RECEIVED completes with HPT_LINK_STATUS.VIRAL_RX
and the error bit set, an event landed and a CXL event posted, and does not change the mode. GPF_PHASE1 and GPF_PHASE2 while the
link is not quiesced complete with the phase's answer and change nothing else. -/
def Obligations.LinkErrorsViralAndGpf : Prop :=
  ∀ s : State, gtcOk s → coreOn s = true → s.host.linkUp = true →
    (∀ retry : Bool, exec (.flitCrcThreshold retry) s
        = .next { s with host := { s.host with ras := nsAdd (if retry then 3 else 2) s.host.ras }, outbox := s.outbox ++ [.aer 0, .msix 7] })
      ∧ (s.host.ide.memKeys = true → ∃ t, exec .ideRxError s = .next t
        ∧ t.host = { s.host with ide := { s.host.ide with memKeys := false, insecure := true }, ras := nsAdd 4 s.host.ras }
        ∧ fget t F.HPT_LINK_STATUS_IDE_ACTIVE 0 = 0
        ∧ t.outbox = s.outbox ++ [.aer 2, .msix 7] ∧ regsKept s t [(F.HPT_LINK_STATUS_IDE_ACTIVE, 0)]
        ∧ keptBut s t [.host, .outbox, .regs])
      ∧ (∃ t, exec .viralReceived s = .next t ∧ fget t F.HPT_LINK_STATUS_VIRAL_RX 0 = 1
        ∧ fget t F.HPT_ERR_STATUS_VIRAL_RX 0 = 1 ∧ t.host = { s.host with logs := t.host.logs }
        ∧ t.rcd.landed.map (fun l => (l.stamp, l.source, l.type, l.cls))
            = s.rcd.landed.map (fun l => (l.stamp, l.source, l.type, l.cls))
                ++ [(s.gtc, srcHost, 0x0B, 5), (s.gtc, srcHost, 0x0C, 5)]
        ∧ regsKept s t [(F.HPT_LINK_STATUS_VIRAL_RX, 0), (F.HPT_ERR_STATUS_VIRAL_RX, 0)]
        ∧ keptBut s t [.host, .rcd, .outbox, .regs])
      ∧ (s.host.quiesced = false →
          exec .gpfPhase1 s = .next { s with outbox := s.outbox ++ [.gpf 1] }
            ∧ exec .gpfPhase2 s = .next { s with outbox := s.outbox ++ [.gpf 2] })

/-- For every state in which the host reaches the function, every decoder and every register contents: HDM_DECODER_COMMIT completes
with the commit waiting for the end of the tick, behind those already waiting, and changes nothing else. At the tick's end a commit
that is the only one waiting leaves a decoder that is not both committed and locked holding the words written; it reads committed
exactly when the interleave ways and granularity are legal, base and size are multiples of 256 MiB (the size of 256 MiB times the
ways), the lower decoder is committed, the range stays in one partition, and no committed lower decoder overlaps it, and otherwise
reads error-not-committed. A committed and locked decoder ignores it. No other decoder, no register and nothing else changes. -/
def Obligations.DecoderCommitHoldsOrRefuses : Prop :=
  ∀ (s : State) (n : Fin 8) (v : DecoderWords), gtcOk s →
    let d : Decoder := ⟨v.base, v.size, v.skip, v.iw.toNat, v.ig.toNat, false, false, v.lock⟩
    let ok : Prop := v.iw.toNat ≤ 4 ∧ v.ig.toNat ≤ 6 ∧ v.base % 0x10000000 = 0 ∧ v.size % (0x10000000 * ways d) = 0
      ∧ (n.val = 0 ∨ (decoder s (n.val - 1)).committed = true)
      ∧ rangeInPartition s (dpaBelow s n.val + v.skip) (v.size / ways d) = true
      ∧ ∀ m < n.val, (decoder s m).committed = true →
          overlaps (decoder s m).base (decoder s m).size v.base v.size = false
    (ioLink s = true → exec (.hdmDecoderCommit n v) s
        = .next { s with host := { s.host with commitDue := s.host.commitDue ++ [(n.val, d)] } })
      ∧ (s.host.commitDue = [(n.val, d)] →
          let t := applyCommits s
          let open_ := (decoder s n.val).committed = false ∨ (decoder s n.val).lock = false
          (open_ → ok → decoder t n.val = { d with committed := true, errNotCommitted := false })
            ∧ (open_ → ¬ ok → decoder t n.val = { d with committed := false, errNotCommitted := true })
            ∧ (¬ open_ → decoder t n.val = decoder s n.val)
            ∧ (∀ m : Nat, m ≠ n.val → decoder t m = decoder s m)
            ∧ t = { s with host := { s.host with commitDue := [], decoders := t.host.decoders } })

/-- For every state in which the host reaches the function and the hub runs: DOE_DISCOVERY of an index below four answers the
protocol of that index and the next index (0 after the last), of a higher index the absent protocol 0xFFFF; CXL_TABLE_ACCESS of an
entry the CDAT has answers that entry, with the next entry's handle (0xFFFF after the last), and of any other an empty answer.
Each sends one DOE response and changes nothing else. The protocol numbers and the CDAT's layout are PRESUMED from the standards
(log entry 45). -/
def Obligations.DoeAnswersAndChangesNothing : Prop :=
  ∀ s : State, gtcOk s → doeUp s = true →
    (∀ ix : Byte, exec (.doeDiscovery ix) s = .next { s with outbox := s.outbox ++ [.doe 0
        (match ix.toNat with
         | 0 => [0x01, 0x00, 0, 1]
         | 1 => [0x01, 0x00, 1, 2]
         | 2 => [0x01, 0x00, 2, 3]
         | 3 => [0x98, 0x1E, 2, 0]
         | _ => [0xFF, 0xFF, 0, 0])] })
      ∧ ∀ e : BitVec 16,
          let all := cdatHeader s :: cdatEntries s
          exec (.cxlTableAccess e) s = .next { s with outbox := s.outbox ++ [.doe 3
            (if h : e.toNat < all.length then
              [0, 0] ++ leBytes 2 (if e.toNat + 1 < all.length then e.toNat + 1 else 0xFFFF) ++ all[e.toNat]
             else [0, 0] ++ leBytes 2 0xFFFF)] }

/-- For every state in which the responder answers on a transport: GET_VERSION, then GET_CAPABILITIES, then NEGOTIATE_ALGORITHMS
complete with the negotiation one stage further and the version 1.2, the capabilities and the algorithms answered (GET_VERSION starts
it again at any time), and after the last GET_DIGESTS, CHALLENGE
of a slot with a certificate, GET_MEASUREMENTS of index 0 to 5 or 0xFF, GET_CERTIFICATE of slot 0 and GET_CSR complete with one answer
and leave everything else. GET_CERTIFICATE of an owner slot that has been written answers what was written. SET_CERTIFICATE of an
owner slot in MAINTENANCE puts what was sent into that slot's 36 pages of the saddlebag (the layout within them is the model's, log
entry 57), changes no other byte of it, and waits for the pages' stores. A request ahead of the negotiation is answered with an
error. The message numbers are PRESUMED from SPDM (log entry 45), and the contents the manual does not give are free values
(log entry 6). -/
def Obligations.SpdmNegotiatesInOrder : Prop :=
  ∀ (s : State) (via : SpdmTransport) (m : SpdmMessage), gtcOk s → spdmUp s via = true →
    let answered (u : State) (code : Nat) : State :=
      { u with outbox := s.outbox ++ [.spdm via code m.session (Config.spdmData s.freeIx)], freeIx := s.freeIx + 1 }
    let negotiated (n code : Nat) (out : List Byte) : State :=
      { s with host := { s.host with spdm := { s.host.spdm with stage := tabSet 0 (spdmNo via) n s.host.spdm.stage } }
               outbox := s.outbox ++ [.spdm via code m.session out] }
    exec (.getVersion via m) s = .next (negotiated 1 0x04 ([0, 0, 0, 1] ++ leBytes 2 0x1200))
      ∧ (1 ≤ spdmStage s via → exec (.getCapabilities via m) s = .next (negotiated 2 0x61 spdmCapabilities))
      ∧ (2 ≤ spdmStage s via → exec (.negotiateAlgorithms via m) s = .next (negotiated 3 0x63 spdmAlgorithms))
      ∧ (3 ≤ spdmStage s via →
          exec (.getDigests via m) s = .next (answered s 0x01)
            ∧ exec (.getCsr via m) s = .next (answered s 0x6D)
            ∧ (m.slot = 0 ∨ (ownerCert s m.slot.val).isSome = true → exec (.challenge via m) s = .next (answered s 0x03))
            ∧ (m.index ≠ 0 → m.index.toNat ≤ 5 ∨ m.index = 0xFF → exec (.getMeasurements via m) s = .next (answered s 0x60))
            ∧ (m.index = 0 → exec (.getMeasurements via m) s
                = .next { s with outbox := s.outbox ++ [.spdm via 0x60 m.session [5]] })
            ∧ (m.slot = 0 → exec (.getCertificate via m) s = .next (answered s 0x02))
            ∧ (∀ c, ownerCert s m.slot.val = some c → exec (.getCertificate via m) s
                = .next { s with outbox := s.outbox ++ [.spdm via 0x02 m.session c] })
            ∧ (m.slot ≠ 0 → s.mode = .maintenance → m.data.length ≤ 36 * 256 - 2 → Memory.wf s.sbg.work →
                ∃ t, exec (.setCertificate via m) s = .next t ∧ ownerCert t m.slot.val = some m.data
                  ∧ (∀ a, a / 256 < 3328 + 36 * (m.slot.val - 1) ∨ 3328 + 36 * m.slot.val ≤ a / 256 → sbByte t a = sbByte s a)
                  ∧ keptBut s t [.host, .sbg, .outbox, .freeIx]))
      ∧ (spdmStage s via < 3 → exec (.getDigests via m) s
          = .next { s with outbox := s.outbox ++ [.spdm via 0x7F m.session [4]] })
      ∧ (spdmStage s via < 1 → exec (.getCapabilities via m) s
          = .next { s with outbox := s.outbox ++ [.spdm via 0x7F m.session [4]] })
      ∧ (spdmStage s via < 2 → exec (.negotiateAlgorithms via m) s
          = .next { s with outbox := s.outbox ++ [.spdm via 0x7F m.session [4]] })

/-- For every state in which the responder answers on a transport whose negotiation is done: KEY_EXCHANGE of a number that is not
open, for a slot with a certificate and fewer than four sessions open, completes with the session open and not yet established;
with four open it answers an error and opens none. FINISH of an open session that is not established establishes it; KEY_UPDATE and
HEARTBEAT of an established session answer and change nothing; END_SESSION of an established session removes it. CXL_IDE_KM of an
established session on DOE completes with the CXL.mem stream's keys as the message says, HPT_LINK_STATUS.IDE_ACTIVE the same and an
answer; IDE_KM sets the CXL.io stream's keys. No memory, cache or media state changes in any of them. -/
def Obligations.SpdmSessionsOpenAndClose : Prop :=
  ∀ (s : State) (via : SpdmTransport) (m : SpdmMessage), gtcOk s → spdmUp s via = true → 3 ≤ spdmStage s via →
    let answered (l : List (BitVec 32 × Bool)) (code : Nat) : State :=
      { s with host := { s.host with spdm := { s.host.spdm with sessions := l } }
               outbox := s.outbox ++ [.spdm via code m.session (Config.spdmData s.freeIx)], freeIx := s.freeIx + 1 }
    let l := s.host.spdm.sessions
    ((∀ x ∈ l, x.1 ≠ m.session) → (m.slot = 0 ∨ (ownerCert s m.slot.val).isSome = true) →
        (l.length < 4 → exec (.keyExchange via m) s = .next (answered (l ++ [(m.session, false)]) 0x64))
          ∧ (4 ≤ l.length → exec (.keyExchange via m) s
              = .next { s with outbox := s.outbox ++ [.spdm via 0x7F m.session [0x0A]] }))
      ∧ ((∃ x ∈ l, x.1 = m.session) → (∀ x ∈ l, x.1 = m.session → x.2 = false) →
          exec (.finish via m) s = .next (answered (l.map (fun x => if x.1 = m.session then (x.1, true) else x)) 0x65))
      ∧ ((∃ x ∈ l, x.1 = m.session ∧ x.2 = true) →
          exec (.keyUpdate via m) s = .next (answered l 0x69) ∧ exec (.heartbeat via m) s = .next (answered l 0x68)
            ∧ exec (.endSession via m) s = .next (answered (l.filter (fun x => x.1 != m.session)) 0x6C))
      ∧ (∀ k : IdeKmMessage, doeUp s = true → (∃ x ∈ l, x.1 = k.session ∧ x.2 = true) →
          (∃ t, exec (.cxlIdeKm k) s = .next t ∧ t.host.ide.memKeys = k.go ∧ t.host.ide.ioKeys = s.host.ide.ioKeys
              ∧ fget t F.HPT_LINK_STATUS_IDE_ACTIVE 0 = k.go.toNat
              ∧ t.outbox = s.outbox ++ [.spdm .doe 0x7E k.session [], .msix 7]
              ∧ regsKept s t [(F.HPT_LINK_STATUS_IDE_ACTIVE, 0)]
              ∧ keptBut s t [.host, .outbox, .regs] ∧ t.host = { s.host with ide := t.host.ide })
            ∧ exec (.ideKm k) s = .next { s with host := { s.host with ide := { s.host.ide with ioKeys := k.go } }
                                                 outbox := s.outbox ++ [.spdm .doe 0x7E k.session []] })

/-- For every state with VAON good and the saddlebag recalled: SET_ENDPOINT_ID completes with the endpoint's identifier as sent, and
GET_ENDPOINT_ID answers it; GET_ENDPOINT_UUID and GET_MCTP_VERSION_SUPPORT answer contents the manual does not give (free values, log
entry 6); GET_MESSAGE_TYPE_SUPPORT answers the three types control, SPDM and CXL CCI. Whenever VAON is good an SMBus clock held low too
long makes the device release the bus. Each sends once and changes nothing else; the command numbers are PRESUMED from MCTP
(log entry 45). -/
def Obligations.SidebandControlCommandsAnswer : Prop :=
  ∀ s : State, gtcOk s → aonOn s = true →
    (sbReady s = true →
      (∀ eid : Byte, exec (.setEndpointId eid) s
          = .next { s with mbx := { s.mbx with eid := eid }, outbox := s.outbox ++ [.mctpControl 1 [0, eid]] })
        ∧ exec .getEndpointId s = .next { s with outbox := s.outbox ++ [.mctpControl 2 [0, s.mbx.eid]] }
        ∧ exec .getEndpointUuid s = .next { s with outbox := s.outbox ++ [.mctpControl 3 (Config.endpointUuid s.serial)] }
        ∧ exec .getMctpVersionSupport s = .next { s with outbox := s.outbox ++ [.mctpControl 4 Config.mctpVersions] }
        ∧ exec .getMessageTypeSupport s = .next { s with outbox := s.outbox ++ [.mctpControl 5 [0, 3, 0x00, 0x05, 0x08]] })
      ∧ exec .smbusClockLowTimeout s = .next { s with outbox := s.outbox ++ [.smbusRelease] }

/-- For every state in which the port receives requests (core powered, link up with CXL.mem enabled, not quiesced): MEMINV and
MEMINVNT complete at once with Cmp of their tag and their Req credit back with the host, MEMSPECRD with the credit back and no
response, and none of them changes anything else. Where the port receives nothing, MEMSPECRD completes with nothing changed. -/
def Obligations.RequestsWithoutContextComplete : Prop :=
  ∀ (s : State) (tag : BitVec 16) (hpa : Nat), gtcOk s →
    let done (out : List Emission) : State := { s with
      host := { s.host with reqOut := min 1024 (s.host.reqOut - 1 + 1) }, outbox := s.outbox ++ out ++ [.reqCredits 1] }
    (memLink s = true → exec (.meminv tag hpa) s = .next (done [.cmp tag])
        ∧ exec (.meminvnt tag hpa) s = .next (done [.cmp tag]) ∧ exec (.memspecrd hpa) s = .next (done []))
      ∧ (memLink s = false → exec (.memspecrd hpa) s = .next s)

/-- For every state in SERVICE that serves the host, and every load (MEMRD and MEMRDDATA) whose HPA decodes to a DPA in the
persistent partition with the key good, whose line the cache holds with the sector valid, and whose arrays read clean: the load
completes with a context in RESPOND that carries exactly the cached sector and its poison bit. The GTC is the later of itself and the
event's instant; a Req credit of the host is used, and only the replacement state and the context high-water mark change besides. -/
def Obligations.CachedLoadReturnsTheSector : Prop :=
  ∀ (s : State) (tag : BitVec 16) (hpa t dpa loc : Nat), hostServes s tag t → t < 2 ^ 64 →
    hdmDecode s hpa = some dpa → dpa < Config.capacity s.config → scratchBacked s dpa = false → s.med.keyBad = false →
    locate s (lineOf dpa) = some loc → (locSv s loc).getLsbD (sectorOf dpa) = true →
    let done (op : CtxOp) (u : State) : Prop :=
      keptBut s u [.gtc, .cache, .sched, .host, .regs] ∧ u.gtc = max s.gtc t ∧ u.cache = { s.cache with plru := u.cache.plru }
        ∧ u.host = { s.host with reqOut := s.host.reqOut - 1 }
        ∧ u.sched = { s.sched with ctxs := s.sched.ctxs ++ [answeredLoad op tag hpa dpa t
                       (lineGet (locData s loc) (sectorOf dpa)) ((locSp s loc).getLsbD (sectorOf dpa))] }
        ∧ regsKept s u [(F.WHL_CTX_HWM, 0)]
    (∃ u, exec (.memrd tag hpa t .clean) s = .next u ∧ done .load u)
      ∧ ∃ u, exec (.memrddata tag hpa t .clean) s = .next u ∧ done .loadData u

/-- For every state in SERVICE that serves the host and every HPA in no committed decoder: MEMRD and MEMRDDATA complete with a
context in RESPOND holding all-ones data with poison; MEMWR and MEMWRPTL, with a credit held, complete with a context in RESPOND
that returns the credit with its Cmp, and neither the cache nor the media takes the data. Either way HPT_ERR_STATUS.DECODE_MISS
is set, HPT_DECODE_MISS counts one (to its maximum), nothing joins the poison list, no event is posted, nothing lands for the
recorder, and nothing is sent (a store that carries poison is reported as every such store is). When the response then leaves it is MemData with all ones and poison, or Cmp and one RwD credit. The rule's example: with
decoder 0 of base 0x40_0000_0000, size 0xE00_0000_0000, IW 2 and IG 4, HPA 0x52_3456_6A40 is DPA 0x4_8D15_9A40, and decoder 1's DPA
base is 0x380_0000_0000. -/
def Obligations.UnheldAddressesAnswerAndDiscard : Prop :=
  (∀ (s : State) (tag : BitVec 16) (hpa t : Nat) (data : Sector) (be : BitVec 64) (poison : Bool) (chk : ArrayCheck),
    hostServes s tag t → t < 2 ^ 64 → hdmDecode s hpa = none →
    let noted (u : State) : Prop :=
      fget u F.HPT_ERR_STATUS_DECODE_MISS 0 = 1
        ∧ fget u F.HPT_DECODE_MISS_COUNT 0 = min (fget s F.HPT_DECODE_MISS_COUNT 0 + 1) (fmax F.HPT_DECODE_MISS_COUNT)
        ∧ u.host.poisonList = s.host.poisonList ∧ u.host.poisonOverflow = s.host.poisonOverflow ∧ u.host.logs = s.host.logs
        ∧ u.host.queued = s.host.queued ∧ u.rcd = s.rcd ∧ u.cache = s.cache ∧ u.med = s.med
    let answered (c : Ctx) (out : List Emission) (u : State) : Prop :=
      u.sched = { s.sched with ctxs := s.sched.ctxs ++ [c] }
        ∧ ∀ t' : Nat, nextResponse u = some c →
            ∃ v, exec (.responseTransmit tag t') u = .next v ∧ v.outbox = u.outbox ++ out ∧ ctxOf v tag = none
    let load (op : CtxOp) : Ctx := { newCtx op tag hpa 0 t 480 with st := .respond, rdata := allOnes, rpoison := true }
    let store (op : CtxOp) : Ctx := { newCtx op tag hpa 0 t 90 with st := .respond, creditBack := true }
    (∃ u, exec (.memrd tag hpa t chk) s = .next u ∧ noted u ∧ u.outbox = s.outbox
        ∧ answered (load .load) [.memData tag allOnes true, .reqCredits 1] u)
      ∧ (∃ u, exec (.memrddata tag hpa t chk) s = .next u ∧ noted u ∧ u.outbox = s.outbox
          ∧ answered (load .loadData) [.memData tag allOnes true, .reqCredits 1] u)
      ∧ (0 < fget s F.HPT_CREDIT_RWD_OUT 0 → fon s F.HPT_LINK_STATUS_VIRAL_RX 0 = false →
          (∃ u, exec (.memwr tag hpa t data poison chk) s = .next u ∧ noted u ∧ (poison = false → u.outbox = s.outbox)
              ∧ answered (store .store) [.cmp tag, .rwdCredits 1] u)
            ∧ ∃ u, exec (.memwrptl tag hpa t data be poison chk) s = .next u ∧ noted u ∧ (poison = false → u.outbox = s.outbox)
              ∧ answered (store .storePtl) [.cmp tag, .rwdCredits 1] u))
    ∧ ∀ s : State, decoder s 0 = ⟨0x4000000000, 0xE0000000000, 0, 2, 4, true, false, false⟩ →
        (decoder s 1).skip = 0 → hdmDecode s 0x5234566A40 = some 0x48D159A40 ∧ dpaBase s 1 = 0x38000000000

/-- For every state in SERVICE that serves the host with stores allowed, a credit held, the condition full, the cache normal, no
tandem, and every store without poison whose HPA decodes to a DPA of the persistent partition, whose line the cache holds with the
sector valid and good, on no dead slot and not waiting for restoration, with arrays that read clean: MEMWR completes with the
sector holding the store's data, MEMWRPTL with the enabled bytes of the store over the old ones; the sector is valid and not
poisoned, the line dirty in the directory, the context in RESPOND, the host's credit one less. Every other sector of the line, and
every other way, overflow slot and directory entry, and the media, keep what they held. -/
def Obligations.StoreToCachedSectorIsHeldDirty : Prop :=
  ∀ (s : State) (tag : BitVec 16) (hpa t dpa loc : Nat) (data : Sector) (be : BitVec 64), hostServes s tag t → t < 2 ^ 64 →
    fon s F.HPT_LINK_STATUS_VIRAL_RX 0 = false → 0 < fget s F.HPT_CREDIT_RWD_OUT 0 → fget s F.HPT_CREDIT_RWD_OUT 0 < 2 ^ 10 →
    programAck s = false → tndEn s = false → tndUp s = false →
    hdmDecode s hpa = some dpa → dpa < Config.capacity s.config → scratchBacked s dpa = false →
    locate s (lineOf dpa) = some loc → (locSv s loc).getLsbD (sectorOf dpa) = true → (locSp s loc).getLsbD (sectorOf dpa) = false →
    lineDead s (lineOf dpa) = false → nsHas (lineOf dpa) s.med.restored = false →
    let done (op : CtxOp) (d : Sector) (u : State) : Prop :=
      lineGet (locData u loc) (sectorOf dpa) = d
        ∧ (∀ i < 4, i ≠ sectorOf dpa → lineGet (locData u loc) i = lineGet (locData s loc) i)
        ∧ locSv u loc = locSv s loc ∧ locSp u loc = locSp s loc ∧ locDirty u loc = true
        ∧ (∃ c, ctxOf u tag = some c ∧ c.op = op ∧ c.dpa = dpa ∧ c.st = .respond)
        ∧ fget u F.HPT_CREDIT_RWD_OUT 0 = fget s F.HPT_CREDIT_RWD_OUT 0 - 1
        ∧ (∀ n, n ≠ wayKey loc → tabGet wayReset u.cache.ways n = tabGet wayReset s.cache.ways n)
        ∧ (∀ n, n ≠ ovfKey loc → tabGet ovfReset u.cache.ovf n = tabGet ovfReset s.cache.ovf n)
        ∧ (∀ n, n ≠ loc → dirAt u n = dirAt s n)
        ∧ regsKept s u [(F.HPT_CREDIT_RWD_OUT, 0), (F.WHL_CTX_HWM, 0)]
        ∧ keptBut s u [.gtc, .cache, .sched, .host, .regs] ∧ u.sched = { s.sched with ctxs := u.sched.ctxs }
        ∧ u.host = { s.host with poisonList := u.host.poisonList }
    (∃ u, exec (.memwr tag hpa t data false .clean) s = .next u ∧ done .store data u)
      ∧ ∃ u, exec (.memwrptl tag hpa t data be false .clean) s = .next u
          ∧ done .storePtl (mergeBytes be (lineGet (locData s loc) (sectorOf dpa)) data) u

/-- For every powered state with the link up whose next response (of the contexts ready to answer, the earliest deadline first, in order of
arrival) is of the tag: RESPONSE_TRANSMIT completes. A load sends MemData with its data and poison and returns a Req credit; a store
sends Cmp, with a returned RwD credit counted where one is due. Its context is gone, every other context stands, and only the
latency, poison and credit registers change. A tag that is not next sends nothing. -/
def Obligations.ResponsesLeaveByDeadline : Prop :=
  ∀ (s : State) (c : Ctx) (t : Nat), gtcOk s → s.mode ≠ .off → s.host.linkUp = true → nextResponse s = some c →
    let load : Bool := c.op == .load || c.op == .loadData
    (∃ u, exec (.responseTransmit c.tag t) s = .next u
        ∧ u.outbox = s.outbox ++ (if load then [.memData c.tag c.rdata c.rpoison, .reqCredits 1]
            else if c.creditBack then [.cmp c.tag, .rwdCredits 1] else [.cmp c.tag])
        ∧ u.sched = { s.sched with ctxs := s.sched.ctxs.filter (fun x => x.tag != c.tag) }
        ∧ keptBut s u [.gtc, .sched, .host, .outbox, .regs] ∧ u.gtc = max s.gtc (t % 2 ^ 64)
        ∧ u.host = { s.host with erased := u.host.erased, reqOut := if load then min 1024 (s.host.reqOut + 1) else s.host.reqOut }
        ∧ regsKept s u [(F.HPT_POISON_TX_COUNT, 0), (F.HPT_CREDIT_RWD_OUT, 0), (F.WHLn_LAT_MAX_NS, ctxWheel s c),
            (F.WHLn_EXC_COUNT_COUNT, ctxWheel s c), (F.WHLn_ERR_EXCURSION, ctxWheel s c), (F.WHLn_EXC_LAST_LAT, ctxWheel s c),
            (F.WHLn_EXC_LAST_D, ctxWheel s c), (F.WHLn_EXC_LAST_C, ctxWheel s c), (F.WHLn_EXC_LAST_QWAIT, ctxWheel s c),
            (F.WHLn_EXC_LAST_REISSUE, ctxWheel s c)])
      ∧ ∀ tag : BitVec 16, tag ≠ c.tag → exec (.responseTransmit tag t) s = .next s

/-- For every powered state and every demand read. DEMAND_READ_DISPATCH of the first demand read not yet dispatched in its bank
completes with the SENSE packet sent and the read's context sensing, ready at the time the gate gives (150 ns after the bank is
free), with its window booked from there and the windows of other banks that displaced it counted. SENSE_LATCHED of the bank's demand
read whose sense ends first, with no read waiting for a queue slot, completes with its context waiting for its window and its
descriptor free, no earlier than its ready time. DEMAND_WINDOW_START of a read waiting for its window completes with the XFER packet
sent and the context in its decode, no earlier than the booked window. In both, the gates then start what they may. DECODE_COMPLETE,
of at most 16 bit errors, of a load in its decode, whose line is programmed, not released and not in the cache, completes with the
context in RESPOND carrying the line's sector as decrypted. In none of them does the media change, but for what is open on the bus. -/
def Obligations.DemandReadCrossesItsBank : Prop :=
  ∀ (s : State) (tag : BitVec 16) (t : Nat), gtcOk s → s.mode ≠ .off → t < 2 ^ 64 →
    let s1 := advanceTo t s
    let sent (u : State) (n op ma : Nat) : Prop :=
      ∃ p, u.outbox = s.outbox ++ [.packet (bankWheel n) (bankDie n) p] ∧ p.op = op ∧ p.bank = bankInDie n ∧ p.row = maRow ma
        ∧ p.line = maLine ma ∧ p.crc = crc8 (leBytes 7 (packetBits p)) ∧ u.med = { s.med with sent := u.med.sent }
    (∀ d, demandDesc s tag = some d → nextDemand s d.bank = some d → ∃ u, exec (.demandReadDispatch tag t) s = .next u
        ∧ (∀ c, ctxOf s tag = some c →
            let ready := readyTime s1 d.bank d.needSense
            let got := findWindow d.bank (windowsOf s1 (bankWheel d.bank)) ready 0
            ctxOf u tag = some { c with st := .sense, ready := ready, window := got.1, displaced := c.displaced + got.2 })
        ∧ sent u d.bank 1 d.ma ∧ regsKept s u [(F.WHLn_DISPLACED_COUNT, bankWheel d.bank)]
        ∧ keptBut s u [.gtc, .sched, .med, .outbox, .regs] ∧ u.gtc = max s.gtc t)
      ∧ (∀ (b : BankId) (c : Ctx), wheelOk s b.w = true → sensing s (bankNo b) = some c → ctxOf s c.tag = some c →
          (∀ x ∈ s.sched.ctxs, x.st ≠ .qwait) → c.ready < 2 ^ 64 → ∃ u, exec (.senseLatched b t) s = .next (settle s (gates u))
            ∧ ctxOf u c.tag = some { c with st := .window } ∧ u.gtc = max (max s.gtc t) c.ready
            ∧ (∀ d, demandDesc s c.tag = some d → ∀ x ∈ u.sched.queue, x.id ≠ d.id)
            ∧ keptBut s u [.gtc, .stamp, .sched])
      ∧ (∀ c, ctxOf s tag = some c → c.st = .window → c.window < 2 ^ 64 →
          ∃ u, exec (.demandWindowStart tag t) s = .next (settle s (gates u))
            ∧ ctxOf u tag = some { c with st := .decode2 } ∧ u.gtc = max (max s.gtc t) c.window
            ∧ sent u (maBank c.ma) 2 c.ma ∧ keptBut s u [.gtc, .stamp, .sched, .med, .outbox])
      ∧ ∀ (c : Ctx) (errs : BitErrors) (soft : SoftMap) (m : MLine), ctxOf s tag = some c → c.st = .decode2 → c.op ≠ .storePtl →
          errs.bits ≤ 16 → mlineAt s c.ma = some m → lineReleased s (lineOf c.dpa) = false → locate s (lineOf c.dpa) = none →
          ∃ u, exec (.decodeComplete (.demand tag) errs soft t) s = .next u
            ∧ ctxOf u tag = some { c with
                st := .respond, rdata := lineGet (decrypt s (lineOf c.dpa) m) (sectorOf c.dpa), rpoison := m.sp.getLsbD (sectorOf c.dpa) }
            ∧ keptBut s u [.gtc, .cache, .sched, .regs] ∧ u.gtc = max s.gtc t

/-- For every bank, every rising list of booked 30 ns windows and every start: the window found begins no earlier than the start,
overlaps none of the booked windows, and every instant from the start before it overlaps some booked window, so it is the earliest
free one. The windows counted as having displaced it are windows of other banks, so they number no more than those. -/
def Obligations.BookedWindowsNeverOverlap : Prop :=
  ∀ (n start : Nat) (booked : List (Nat × Nat)), (booked.map (·.1)).Pairwise (· < ·) →
    let w := (findWindow n booked start 0).1
    start ≤ w ∧ (∀ x ∈ booked, x.1 + 30 ≤ w ∨ w + 30 ≤ x.1)
      ∧ (∀ y, start ≤ y → y < w → ∃ x ∈ booked, x.1 < y + 30 ∧ y < x.1 + 30)
      ∧ (findWindow n booked start 0).2 ≤ (booked.filter (fun x => x.2 != n)).length

/-- For every powered state and every bank of a wheel the configuration has. NON_DEMAND_TRANSFER of a latched line, with the bus free
of other transfers, no booked window in the next 30 ns and the bank's last line decoded, sends the XFER packet, leaves the latch for
the decode and adds the decode to the hub's job queue, and the gates then start what they may; otherwise it waits.
BACKGROUND_AGE_PROMOTION of the bank's oldest unaged background entry, with allowance left, marks exactly that entry aged.
SUSPEND_LONG of a program suspended and not yet counted counts it once for its home spoke and changes nothing else. JOB_COMPLETE of a
spoke's soft decode frees the spoke. DECODE_COMPLETE of at most 16 bit errors of a bank's own write-back read puts the write-back at
the head of the queue with the line's data, ready to program, and the gates then start what they may. No line of the media changes. -/
def Obligations.BankGateTimersAndTransfers : Prop :=
  ∀ (s : State) (b : BankId) (t : Nat), gtcOk s → s.mode ≠ .off → t < 2 ^ 64 → wheelOk s b.w = true →
    let n := bankNo b
    (∀ d, (bankSt s n).latch = some d →
        let free : Prop := tabGet 0 s.sched.busUntil b.w.val ≤ max s.gtc t ∧ (bankSt s n).decoding = none
          ∧ ∀ x ∈ windowsOf (advanceTo t s) b.w.val, max s.gtc t + 30 ≤ x.1
        (free → ∃ u, exec (.nonDemandTransfer b t) s = .next (settle s (gates u))
            ∧ bankSt u n = { bankSt s n with latch := none, decoding := some d }
            ∧ (∀ m, m ≠ n → bankSt u m = bankSt s m) ∧ u.sched.jobs = s.sched.jobs ++ [.softDecode n]
            ∧ tabGet 0 u.sched.busUntil b.w.val = max s.gtc t + 30
            ∧ (∃ p, u.outbox = s.outbox ++ [.packet (bankWheel d.bank) (bankDie d.bank) p] ∧ p.op = 2)
            ∧ keptBut s u [.gtc, .stamp, .sched, .med, .outbox] ∧ u.med = { s.med with sent := u.med.sent } ∧ u.gtc = max s.gtc t)
          ∧ (¬ free → exec (.nonDemandTransfer b t) s = .next { s with gtc := max s.gtc t }))
      ∧ (∀ d, s.sched.queue.find? (fun x => x.bank == n && x.cls == .background && !x.aged) = some d → bgLeft s b.w.val = true →
          ∃ u, exec (.backgroundAgePromotion b) s = .next u
            ∧ u.sched = { s.sched with queue := s.sched.queue.map (fun e => if e.id = d.id then { e with aged := true } else e) }
            ∧ keptBut s u [.gtc, .sched])
      ∧ (∀ p, (bankSt s n).prog = some p → p.suspended = true → p.longCounted = false →
          ∃ u, exec (.suspendLong b) s = .next u
            ∧ bankSt u n = { bankSt s n with prog := some { p with longCounted := true } }
            ∧ fget u F.SPKg_SUSP_LONG_COUNT (homeG n)
                = min (fget s F.SPKg_SUSP_LONG_COUNT (homeG n) + 1) (fmax F.SPKg_SUSP_LONG_COUNT)
            ∧ regsKept s u [(F.SPKg_SUSP_LONG_COUNT, homeG n)]
            ∧ keptBut s u [.gtc, .sched, .regs] ∧ u.sched = { s.sched with banks := u.sched.banks })
      ∧ (∀ (sp : Fin 16) (k : Nat), tabGet none (s.sched.running.map (fun x => (x.1, some x.2))) (16 * b.w.val + sp.val)
            = some (.softDecode k) → ∃ u, exec (.jobComplete b.w sp) s = .next u
            ∧ keptBut s u [.sched] ∧ u.sched = { s.sched with running := tabDel (16 * b.w.val + sp.val) s.sched.running, engNow := u.sched.engNow })
      ∧ ∀ (d : Desc) (loc : Nat) (errs : BitErrors) (soft : SoftMap) (m : MLine), (bankSt s n).decoding = some d →
          d.kind = .writeBack loc → errs.bits ≤ 16 → lineReleased s d.line = false → mlineAt s d.ma = some m →
          ∃ u, exec (.decodeComplete (.bank b) errs soft t) s = .next (settle s (gates u))
            ∧ u.sched.queue = { d with data := decrypt s d.line m, sp := m.sp, ready := true } :: s.sched.queue
            ∧ bankSt u n = { bankSt s n with decoding := none } ∧ keptBut s u [.gtc, .stamp, .sched, .regs] ∧ u.gtc = max s.gtc t

/-- For every state in SERVICE and every frame of a wheel the configuration has, whose CRC is good, whose identifier is that of a
program, and whose bank runs one. PROGRAM_VERIFIED of a write-back or a rewrite completes with the line programmed at its address
under the key that its packet used, its row tagged with its packet's epoch, and the bank free; a write-back whose cached line has not
changed and is not pinned leaves it clean, and the stores it carries are ready to be answered. VERIFY_FAILED of a write-back, of a
line whose program has failed fewer than twice in a row and whose block nothing holds, completes with the failure counted against the
line, the write-back again at the head of the queue, the bank free and every media line as it was. The bank gates then start what
they may. -/
def Obligations.ProgramsVerifyOrAreRetried : Prop :=
  ∀ (s : State) (f : EventFrame) (p : Prog), gtcOk s → s.mode = .service → wheelOk s f.w = true →
    (bankSt s (frameBank f)).prog = some p → p.runs = true →
    (frameFor 0 3 f = true → ((∃ loc, p.op.kind = .writeBack loc) ∨ p.op.kind = .rewrite) →
        ∃ t, exec (.programVerified f) s = .next (settle s (gates t))
          ∧ mlineAt t p.op.ma
              = some ⟨if p.op.sp = 15 then zeroLine else p.op.data, p.op.key, p.op.line, p.op.sp, BitVec.ofNat 8 p.op.pe, false⟩
          ∧ tabGet tagReset t.med.tags (p.op.ma / 16) = ⟨p.op.pe % 8, false⟩
          ∧ (bankSt t (frameBank f)).prog = none
          ∧ (∀ ma, ma ≠ p.op.ma → mlineAt t ma = mlineAt s ma)
          ∧ ∀ k loc, p.op.kind = .writeBack k → locate s p.op.line = some loc → (dirAt s loc).dv = true → locPinned s loc = false →
              sameAsProgrammed s loc p.op = true →
                locDirty t loc = false
                  ∧ ∀ c ∈ t.sched.ctxs, c.carried = p.op.id + 1 → c.st ≠ .program)
      ∧ ∀ loc, frameFor 1 3 f = true → p.op.kind = .writeBack loc → tabGet 0 s.med.attempts p.op.ma < 2 →
          gapHolds s (slotOfLine s p.op.line).1 (slotOfLine s p.op.line).2 = false →
          retireHolds s (slotOfLine s p.op.line).1 (slotOfLine s p.op.line).2 = false →
          ∃ t, exec (.verifyFailed f) s = .next (settle s (gates t))
            ∧ tabGet 0 t.med.attempts p.op.ma = tabGet 0 s.med.attempts p.op.ma + 1
            ∧ t.sched.queue = p.op :: s.sched.queue ∧ (bankSt t (frameBank f)).prog = none
            ∧ t.med.lines = s.med.lines ∧ t.cache = s.cache ∧ t.host = s.host ∧ t.outbox = s.outbox ∧ t.gtc = s.gtc

/-- For every state with the core powered and every frame of a wheel the configuration has, with a good CRC over the kind of its
event. SUSPENDED_AT_SAFE_POINT of a suspended program lets its bank sense from now on at the latest and changes nothing else.
CA_CRC_ERROR counts one CA error on the channel and WRITE_CRC_ERROR one write error; each sends the packet that the frame's
identifier names again, with its burst, where that command is still open, and counts the reissue, and otherwise sends nothing.
BAND_MISMATCH of an open command sends REFLOAD of the die's band first, and of no open command changes nothing. THERMAL_LIMIT and
MMB_ALERT set the channel's ALERT bit and change nothing else. ROW_FAULT sets ROW_FAULT, and of a bank's write-back gives the program
up and leaves the slot at its address being retired, waiting to be, or dead, after which the bank gates start what they may. SELF_CHECK_RESULT of a
die still to be checked in RECOVER marks it checked when good and, unless it is the last, only that; a fault sets CHECK_FAIL and
latches BRAKE. A frame with a bad CRC changes nothing; that, and the identifiers, are the model's choice (log entries 82 and 92). -/
def Obligations.DieFramesReissueAndReport : Prop :=
  ∀ (s : State) (f : EventFrame), gtcOk s → coreOn s = true → wheelOk s f.w = true →
    let n := frameBank f
    let w := f.w.val
    let id := f.id.toNat
    let again (t : State) : Prop :=
      if canReissue n id s then
        fget t F.MMBn_REISSUE_COUNT w = min (fget s F.MMBn_REISSUE_COUNT w + 1) (fmax F.MMBn_REISSUE_COUNT)
          ∧ ∀ x, tabGet none (s.med.sent.map (fun x => (x.1, some x.2))) (n * 256 + id) = some x →
              t.outbox = s.outbox ++ .packet w f.d.val (sealPacket x.1)
                :: (if x.2.isEmpty then [] else [.burst w f.d.val (scramble (sealPacket x.1) x.2)])
      else fget t F.MMBn_REISSUE_COUNT w = fget s F.MMBn_REISSUE_COUNT w ∧ t.outbox = s.outbox
    (∀ p, frameFor 2 4 f = true → (bankSt s n).prog = some p → p.suspended = true → ∃ t, exec (.suspendedAtSafePoint f) s = .next t
        ∧ bankSt t n = { bankSt s n with readyAt := min (bankSt s n).readyAt s.gtc }
        ∧ keptBut s t [.sched] ∧ t.sched = { s.sched with banks := t.sched.banks })
      ∧ (frameGood 3 f = true → ∃ t, exec (.caCrcError f) s = .next t ∧ again t
        ∧ fget t F.MMBn_CACRC_COUNT w = min (fget s F.MMBn_CACRC_COUNT w + 1) (fmax F.MMBn_CACRC_COUNT)
        ∧ regsKept s t [(F.MMBn_CACRC_COUNT, w), (F.MMBn_REISSUE_COUNT, w), (F.MMBn_ERR_CA_BURST, w), (F.WHLn_DISPLACED_COUNT, w)]
        ∧ keptBut s t [.med, .sched, .rcd, .outbox, .regs])
      ∧ (frameGood 4 f = true → ∃ t, exec (.writeCrcError f) s = .next t ∧ again t
        ∧ fget t F.MMBn_WCRC_COUNT w = min (fget s F.MMBn_WCRC_COUNT w + 1) (fmax F.MMBn_WCRC_COUNT)
        ∧ regsKept s t [(F.MMBn_WCRC_COUNT, w), (F.MMBn_REISSUE_COUNT, w), (F.WHLn_DISPLACED_COUNT, w)]
        ∧ keptBut s t [.med, .sched, .outbox, .regs])
      ∧ (frameGood 8 f = true → canReissue n id s = true → ∃ t q rest, exec (.bandMismatch f) s = .next t
        ∧ t.outbox = s.outbox ++ .packet w f.d.val q :: rest ∧ q.op = 9 ∧ q.band = dieBand s w f.d.val
        ∧ fget t F.MMBn_REISSUE_COUNT w = min (fget s F.MMBn_REISSUE_COUNT w + 1) (fmax F.MMBn_REISSUE_COUNT)
        ∧ regsKept s t [(F.MMBn_REISSUE_COUNT, w), (F.MMBn_STATUS_BANDS, w), (F.WHLn_DISPLACED_COUNT, w)]
        ∧ keptBut s t [.med, .sched, .outbox, .regs])
      ∧ (frameGood 8 f = true → canReissue n id s = false → exec (.bandMismatch f) s = .next s)
      ∧ (∃ t, (frameGood 6 f = true → exec (.thermalLimit f) s = .next t) ∧ exec (.mmbAlert f.w) s = .next t
        ∧ fget t F.MMBn_ERR_ALERT w = 1 ∧ regsKept s t [(F.MMBn_ERR_ALERT, w)] ∧ keptBut s t [.regs])
      ∧ (frameGood 9 f = true → faultOp n id s = none → ∃ t, exec (.rowFault f) s = .next t ∧ fget t F.MMBn_ERR_ROW_FAULT w = 1
        ∧ regsKept s t [(F.MMBn_ERR_ROW_FAULT, w)] ∧ keptBut s t [.regs])
      ∧ (∀ p loc rs, frameGood 9 f = true → id = 3 → (bankSt s n).prog = some p → p.runs = true → p.op.kind = .writeBack loc →
          slotAtMa s p.op.ma = some rs → ∃ t, exec (.rowFault f) s = .next (settle s (gates t))
            ∧ fget t F.MMBn_ERR_ROW_FAULT w = 1 ∧ (bankSt t n).prog = none ∧ t.med.lines = s.med.lines
            ∧ ((∃ x, t.med.retire = some x ∧ x.region = rs.1 ∧ x.slot = rs.2) ∨ (∃ g, (rs.1, rs.2, g) ∈ t.med.retireWait)
                ∨ ∃ e, xentry t rs.1 rs.2 = some e ∧ e.dead = true))
      ∧ (frameFor 7 28 f = true → s.mode = .recover → s.life.step = .check → nsHas (w * 8 + f.d.val) s.life.checkLeft = true →
          (f.detail = 0 → nsDel (w * 8 + f.d.val) s.life.checkLeft ≠ [] → ∃ t, exec (.selfCheckResult f) s = .next t
              ∧ t.life = { s.life with checkLeft := nsDel (w * 8 + f.d.val) s.life.checkLeft }
              ∧ regsKept s t [(F.MMBn_STATUS_CHECKED, w)]
              ∧ keptBut s t [.life, .regs])
            ∧ (f.detail ≠ 0 → ∃ t, exec (.selfCheckResult f) s = .next t ∧ t.mode = .brake
              ∧ fget t F.MMBn_ERR_CHECK_FAIL w = 1 ∧ fget t F.HUB_BRAKE_CAUSE 0 = 7))
      ∧ ((∀ k ≤ 9, frameGood k f = false) →
          exec (.caCrcError f) s = .next s ∧ exec (.writeCrcError f) s = .next s ∧ exec (.bandMismatch f) s = .next s
            ∧ exec (.thermalLimit f) s = .next s ∧ exec (.rowFault f) s = .next s ∧ exec (.selfCheckResult f) s = .next s
            ∧ exec (.suspendedAtSafePoint f) s = .next s ∧ exec (.programVerified f) s = .next s
            ∧ exec (.verifyFailed f) s = .next s ∧ exec (.tagOperationDone f) s = .next s)

/-- For every state and every frame of a wheel the configuration has, with a good CRC. TAG_OPERATION_DONE of a TAGCLR, in a bank that
runs an extent's, completes with every line of the cleared row unwritten, its tag cleared, every line of other rows as it was, the
bank free and one TAGCLR of the extent fewer to come, and the bank gates then start what they may. Of a die's clear that is under way
and not the last, it completes with every line of the die unwritten and the others as they were. Of a TAGAGE that its bank has to
finish, it completes with that bank's age done and no line changed; while others remain nothing else changes, and after the last,
outside RECOVER, the program epoch is one more and AGING clears. In SERVICE or MAINTENANCE with no epoch advance under way,
EPOCH_ADVANCE completes with AGING set, a TAGAGE of the next epoch's tag sent to every bank of the device, and the program epoch
unchanged until they are done. The identifiers by which a frame names its command are the model's choice (log entry 82). -/
def Obligations.TagOperationsClearAndAge : Prop :=
  (∀ (s : State) (f : EventFrame), gtcOk s → wheelOk s f.w = true → frameGood 5 f = true →
    let n := frameBank f
    let id := f.id.toNat
    let k := f.w.val * 8 + f.d.val
    (∀ d e, id = 7 → (bankSt s n).tagop = some d → d.kind = .tagClr e →
        ∃ t, exec (.tagOperationDone f) s = .next (settle s (gates t))
          ∧ (∀ ma, ma / 16 = d.ma / 16 → mlineAt t ma = none) ∧ (∀ ma, ma / 16 ≠ d.ma / 16 → mlineAt t ma = mlineAt s ma)
          ∧ tabGet tagReset t.med.tags (d.ma / 16) = tagReset ∧ (bankSt t n).tagop = none
          ∧ tabGet 0 t.med.clrLeft e = tabGet 0 s.med.clrLeft e - 1
          ∧ keptBut s t [.stamp, .med, .sched] ∧ t.sched = { s.sched with banks := t.sched.banks })
      ∧ (id = 23 → nsHas k s.med.clrDies = true → nsDel k s.med.clrDies ≠ [] → ∃ t, exec (.tagOperationDone f) s = .next t
            ∧ t.med.clrDies = nsDel k s.med.clrDies
            ∧ (∀ ma, maBank ma / 16 = k → mlineAt t ma = none) ∧ (∀ ma, maBank ma / 16 ≠ k → mlineAt t ma = mlineAt s ma)
            ∧ keptBut s t [.med])
      ∧ ∀ v < 8, id = 8 + v → nsHas (n * 8 + v) s.med.agingLeft = true → ∃ t, exec (.tagOperationDone f) s = .next t
          ∧ t.med.agingLeft = nsDel (n * 8 + v) s.med.agingLeft ∧ t.med.lines = s.med.lines
          ∧ (nsDel (n * 8 + v) s.med.agingLeft ≠ [] → t.med.pe = s.med.pe ∧ keptBut s t [.med])
          ∧ ∀ a, nsDel (n * 8 + v) s.med.agingLeft = [] → s.mode ≠ .recover → s.med.aging = some a →
              t.med.pe = (s.med.pe + 1) % 2 ^ 32 ∧ t.med.aging = none ∧ fget t F.HUB_EPOCH_AGING 0 = 0)
    ∧ ∀ s : State, gtcOk s → inService s = true → s.med.aging = none → s.med.agingLeft = [] →
        ∃ t, exec .epochAdvance s = .next t
          ∧ fget t F.HUB_EPOCH_AGING 0 = 1 ∧ t.med.aging = some ((s.med.pe + 1) % 8) ∧ t.med.pe = s.med.pe
          ∧ t.med.agingLeft = (List.range (Config.banks s.config)).map (fun n => n * 8 + (s.med.pe + 1) % 8)
          ∧ t.outbox.length = s.outbox.length + Config.banks s.config
          ∧ (∀ n < Config.banks s.config, ∃ q, t.outbox[s.outbox.length + n]? = some (.packet (bankWheel n) (bankDie n) q)
              ∧ q.op = 8 ∧ q.bank = bankInDie n ∧ q.arg = (s.med.pe + 1) % 8)
          ∧ regsKept s t [(F.HUB_EPOCH_AGING, 0)]
          ∧ keptBut s t [.med, .outbox, .regs]
          ∧ t.med = { s.med with aging := t.med.aging, agingLeft := t.med.agingLeft, sent := t.med.sent }

/-- For every state in SERVICE or MAINTENANCE with the core powered, and every wheel the configuration has. SCRUB_SET_VISIT that finds
no error completes with the slice's next set (modulo 4,096), every way of the visited set in use again but those out of use until
RAMP, its run of errors ended, and no line's data or state changed. PATROL_STEP of patrol's wheel, with patrol enabled and no visit
under way, completes with the visit of its slot begun (its 16 lines to be read, and the exception table's look-up a job), or, of a
slot that is skipped, with patrol at its next slot, the GTC at its stamp or beyond, and nothing else changed. DIE_TEMPERATURE_READ completes with the die's temperature; when its band
changes and nothing else waits, REFLOAD of the new band's sets is sent at once where the bus is free, and waits where it is not.
DQS_DRIFT_TRACK, with nothing else waiting, asks the eight dies of the channel by MRR, one to each non-demand window from now on, and
changes nothing else. SERVICE_CHECKPOINT_DUE with no checkpoint being written completes with the next checkpoint of KIND 1 begun
under the next sequence number, its body to be written and its seal not yet. -/
def Obligations.PeriodicMediaWorkCompletes : Prop :=
  ∀ (s : State) (w : Wheel), gtcOk s → inService s = true → coreOn s = true → wheelOk s w = true →
    let set := tabGet 0 s.cache.scrubSet w.val
    let p := s.med.patrol
    (draining s = false → ∃ t, exec (.scrubSetVisit w []) s = .next t
        ∧ tabGet 0 t.cache.scrubSet w.val = (set + 1) % 4096
        ∧ (∀ i < 16, (wayAt t (wayLoc w.val set i)).off = false ∧ (wayAt t (wayLoc w.val set i)).runs = 0)
        ∧ (∀ loc, { wayAt t loc with off := false, runs := 0 } = { wayAt s loc with off := false, runs := 0 })
        ∧ t.cache.dir = s.cache.dir ∧ t.cache.ovf = s.cache.ovf ∧ t.med = s.med)
      ∧ (∀ x : Nat, fon s F.HUB_PATROL_CFG_EN 0 = true → w.val = p.wheel → p.visit = none →
            (patrolSkips s p.region p.slot = false → exec (.patrolStep w x) s = .next { s with
                gtc := max s.gtc (x % 2 ^ 64)
                med := { s.med with patrol := { p with visit := some ⟨p.region, p.slot, List.range 16, []⟩ } }
                sched := { s.sched with jobs := s.sched.jobs ++ [.xtabLookup p.region p.slot] } })
              ∧ (patrolSkips s p.region p.slot = true → ∃ t, exec (.patrolStep w x) s = .next t
                ∧ t.med = { s.med with patrol := patrolNext s } ∧ t.gtc = max s.gtc (x % 2 ^ 64) ∧ keptBut s t [.gtc, .med, .regs]
                ∧ regsKept s t [(F.HUB_PATROL_POS_PASSES, 0), (F.HUB_PATROL_POS_REGION, 0), (F.HUB_PATROL_POS_PCT, 0)]))
      ∧ (∀ (d : Die) (c : Int),
          let b := newBand (dieBand s w.val d.val) c
          let free := busFree s w.val 6
          ∃ t, exec (.dieTemperatureRead w d c) s = .next t
            ∧ tabGet 0 t.med.temps (w.val * 8 + d.val) = c
            ∧ (b = dieBand s w.val d.val → t.outbox = s.outbox)
            ∧ (b ≠ dieBand s w.val d.val → s.med.dieWait = [] → free = true → ∃ q, q.op = 9 ∧ q.band = b ∧ t.med.dieWait = []
                ∧ t.outbox = s.outbox ++ [.packet w.val d.val q, .burst w.val d.val (scramble q (reloadBytes s w.val d.val b))])
            ∧ (b ≠ dieBand s w.val d.val → s.med.dieWait = [] → free = false →
                t.outbox = s.outbox ∧ t.med.dieWait = [⟨w.val, d.val, some b⟩])
            ∧ keptBut s t [.med, .sched, .outbox, .regs])
      ∧ (s.med.dieWait = [] → ∃ t, exec (.dqsDriftTrack w) s = .next t
          ∧ (busFree s w.val 6 = true → (∃ q, t.outbox = s.outbox ++ [.packet w.val 0 q] ∧ q.op = 11)
              ∧ t.med.dieWait = (List.range 7).map (fun d => ⟨w.val, d + 1, none⟩))
          ∧ (busFree s w.val 6 = false → t.outbox = s.outbox ∧ t.med.dieWait = (List.range 8).map (fun d => ⟨w.val, d, none⟩))
          ∧ keptBut s t [.med, .sched, .outbox])
      ∧ (ckptBusy s = false → ∃ t, exec .serviceCheckpointDue s = .next t
          ∧ t.med.ckptSeq = s.med.ckptSeq + 1 ∧ t.med.ckptDue = false
          ∧ (ckptAt t (ckptSlot s 1)).kind = 1 ∧ (ckptAt t (ckptSlot s 1)).seq = s.med.ckptSeq + 1
          ∧ (ckptAt t (ckptSlot s 1)).sealed = false ∧ t.med.ckptNow.map (·.slot) = some (ckptSlot s 1)
          ∧ t.med.lines = s.med.lines ∧ t.cache = s.cache ∧ t.mode = s.mode)

/-- For every state outside OFF. VAON_WARNING sets VAON_WARN and, with dirty pages and no autostore running, AUTOSTORE of exactly those
pages; VAON_WARN_CLEAR clears VAON_WARN. VIN_RISE of an input that does not count as good shows it good and, unless PWRFAIL_N is low and in use, the debounce
counts from now; of one that does, it is its fall back below VIN_RISE (log 103): it no longer counts as good, which alone trips nothing. PWRFAIL_N high again shows so. In RAMP, RECOVER, SERVICE and MAINTENANCE, VIN_FALL_TRIP, and PWRFAIL_N low when in use, enter FREEWHEEL at
the event's instant: in full when REC_CLOSED is set, else in the short form, with FW_ACTIVE set, the old mode in PREV and every
pending enable request cancelled, and nothing in the cache's lines, the queues or the media moved; an ignored PWRFAIL_N only shows.
HOLD_UV_TRIP off hold-up energy only shows HOLD_LOW, until the next one, a release, clears it (log 103); in a draining freewheel it cuts the drain short, abandons
every program and the checkpoint being written, flags it in LDG_ERR and SEQ_ERR, lowers the rails, and no seal follows. -/
def Obligations.InputEventsShowAndTrip : Prop :=
  ∀ (s : State) (x : Nat), gtcOk s → s.mode ≠ .off →
    let tripped (t : State) : Prop :=
      t.mode = .freewheel ∧ t.gtc = max s.gtc (x % 2 ^ 64) ∧ t.fw.stage = .t0 ∧ t.fw.t0 = x % 2 ^ 64
        ∧ t.fw.kind = (if fget s F.HUB_MODE_REC_CLOSED 0 = 0 then .short else .full)
        ∧ fget t F.LDG_STATUS_FW_ACTIVE 0 = 1 ∧ fget t F.HUB_MODE_PREV 0 = modeCode s.mode ∧ t.seq.pend = []
        ∧ t.med = s.med ∧ t.cache.ways = s.cache.ways ∧ t.cache.dir = s.cache.dir ∧ t.cache.ovf = s.cache.ovf ∧ t.sched = s.sched
    (sbReady s = true → fget s F.SBG_STATUS_AUTOSTORE 0 = 0 → s.sbg.since ≠ [] →
        ∃ t, exec .vaonWarning s = .next t ∧ fget t F.SBG_STATUS_VAON_WARN 0 = 1 ∧ fget t F.SBG_STATUS_AUTOSTORE 0 = 1
          ∧ t.sbg = { s.sbg with autoset := s.sbg.since.map (fun y => y.1) }
          ∧ regsKept s t [(F.SBG_STATUS_VAON_WARN, 0), (F.SBG_STATUS_AUTOSTORE, 0)] ∧ keptBut s t [.regs, .sbg])
      ∧ (∃ t, exec .vaonWarnClear s = .next t ∧ fget t F.SBG_STATUS_VAON_WARN 0 = 0
          ∧ regsKept s t [(F.SBG_STATUS_VAON_WARN, 0)] ∧ keptBut s t [.regs])
      ∧ (fget s F.SEQ_IN_STATUS_VIN_GOOD 0 = 0 → ∃ t, exec .vinRise s = .next t ∧ fget t F.SEQ_IN_STATUS_VIN_LOW 0 = 0 ∧ fget t F.SEQ_IN_STATUS_VIN_GOOD 0 = 1
          ∧ (fget s F.SEQ_IN_STATUS_PWRFAIL 0 = 0 → t.life = { s.life with goodSince := s.gtc })
          ∧ regsKept s t [(F.SEQ_IN_STATUS_VIN_LOW, 0), (F.SEQ_IN_STATUS_VIN_GOOD, 0)] ∧ keptBut s t [.regs, .life, .fw])
      ∧ (fget s F.SEQ_IN_STATUS_VIN_GOOD 0 = 1 → ∃ t, exec .vinRise s = .next t ∧ fget t F.SEQ_IN_STATUS_VIN_GOOD 0 = 0
          ∧ regsKept s t [(F.SEQ_IN_STATUS_VIN_GOOD, 0)] ∧ keptBut s t [.regs])
      ∧ (∃ t, exec .pwrfailNDeassert s = .next t ∧ fget t F.SEQ_IN_STATUS_PWRFAIL 0 = 0
          ∧ regsKept s t [(F.SEQ_IN_STATUS_PWRFAIL, 0)] ∧ keptBut s t [.regs, .life, .fw])
      ∧ (s.mode = .ramp ∨ s.mode = .recover ∨ s.mode = .service ∨ s.mode = .maintenance →
          (∃ t, exec (.vinFallTrip x) s = .next t ∧ tripped t)
            ∧ (fget s F.SEQ_IN_CFG_PWRFAIL_EN 0 = 1 → ∃ t, exec (.pwrfailNAssert x) s = .next t ∧ tripped t))
      ∧ (fget s F.SEQ_IN_CFG_PWRFAIL_EN 0 = 0 → ∃ t, exec (.pwrfailNAssert x) s = .next t
          ∧ fget t F.SEQ_IN_STATUS_PWRFAIL 0 = 1 ∧ t.gtc = max s.gtc (x % 2 ^ 64)
          ∧ regsKept s t [(F.SEQ_IN_STATUS_PWRFAIL, 0)] ∧ keptBut s t [.regs, .gtc])
      ∧ (s.mode ≠ .freewheel → s.mode ≠ .brake → ∃ t, exec .holdUvTrip s = .next t
          ∧ fget t F.SEQ_IN_STATUS_HOLD_LOW 0 = (if fget s F.SEQ_IN_STATUS_HOLD_LOW 0 = 0 then 1 else 0)
          ∧ regsKept s t [(F.SEQ_IN_STATUS_HOLD_LOW, 0)] ∧ keptBut s t [.regs])
      ∧ (s.mode = .freewheel → s.fw.stage = .draining → ∃ t, exec .holdUvTrip s = .next t
          ∧ t.mode = .freewheel ∧ t.fw.cutShort = true ∧ t.fw.stage = .lowering ∧ t.fw.sealed = s.fw.sealed
          ∧ t.sched.queue = [] ∧ t.sched.wait = []
          ∧ (∀ n, (bankSt t n).prog = none) ∧ t.med = { s.med with ckptNow := none } ∧ fget t F.SEQ_IN_STATUS_HOLD_LOW 0 = 1
          ∧ fget t F.LDG_ERR_SHORT_FW 0 = 1 ∧ fget t F.SEQ_ERR_HOLD_LOW_FW 0 = 1)

/-- For every state in the trip tick of a full freewheel (FREEWHEEL_T1) or of a brake with drain (BRAKE_T1) whose GTC has not passed
the next tick: the command completes at the next tick with the drain under way in the area that no newest sealed checkpoint carries,
that area empty, under the next checkpoint sequence number, the queue left with demand reads and drain programs only, autostore of
every page then dirty, every store that waited for its program ready to be acknowledged, and no media line changed. AUTOSTORE_COMPLETE with every
page stored and no drain or freewheel under way clears AUTOSTORE. -/
def Obligations.DrainStartsAtTheNextTick : Prop :=
  ∀ s : State, gtcOk s →
    let next := (s.fw.t0 / 250 + 1) * 250
    let starts (t : State) : Prop :=
      t.gtc = next ∧ t.mode = s.mode ∧ t.fw.stage = .draining ∧ t.fw.t0 = s.fw.t0 ∧ t.fw.area = drainArea s
        ∧ t.fw.seq = s.med.ckptSeq + 1 ∧ t.med.ckptSeq = s.med.ckptSeq + 1
        ∧ (∀ x ∈ t.med.drain, x ∈ s.med.drain ∧ x.1 / 67584 / 16 ≠ drainArea s)
        ∧ (∀ d ∈ t.sched.queue, d ∈ s.sched.queue ∧ (d.cls = .demand ∨ d.cls = .drain))
        ∧ (∀ c ∈ t.sched.ctxs, c.st ≠ .program) ∧ t.sbg.autoset = t.sbg.since.map (fun y => y.1)
        ∧ t.med.lines = s.med.lines ∧ t.med.ckpts = s.med.ckpts ∧ t.cache = s.cache
    (s.fw.stage = .t0 → s.gtc ≤ next → next < 2 ^ 64 →
        (s.mode = .freewheel → s.fw.kind = .full → ∃ t, exec .freewheelT1 s = .next t ∧ starts t)
          ∧ (s.mode = .brake → s.fw.kind = .brakeDrain → ∃ t, exec .brakeT1 s = .next t ∧ starts t))
      ∧ (fget s F.SBG_STATUS_AUTOSTORE 0 = 1 → s.sbg.autoset = [] → s.fw.stage = .idle → s.mode ≠ .freewheel →
        ∃ t, exec .autostoreComplete s = .next t ∧ fget t F.SBG_STATUS_AUTOSTORE 0 = 0
          ∧ regsKept s t [(F.SBG_STATUS_AUTOSTORE, 0)] ∧ keptBut s t [.regs, .fw]
          ∧ t.fw = { s.fw with autostoreDone := true })

/-- For every state in RAMP. CORE_RAIL_DETECT sets the core's detector and starts link
training when PERST_N is high; MMB_RAIL_DETECT and SRAM_RAIL_DETECT set theirs, and the latter starts the cache memory test; nothing
else changes. With the core up, FIRMWARE_AUTHENTICATED boots the newer slot if it is good, else the other, shown in
HUB_RESTART, and makes the mailbox ready; with neither, BRAKE latches with cause 0x08. MICROCODE_LOADED then gives every spoke its version.
With the dies' reset released, RST_WAIT_END comes no earlier than 1 ms after the release and sends the channel's 48 training packets
with their 16 data bursts; TRAINING_COMPLETE with all eight dies shows them trained, and otherwise latches BRAKE with cause 0x07, naming
the lowest die that failed by its first spoke (the model's name for a die, log 93). CACHE_TEST_COMPLETE without a failure completes the test, and with a failing directory word, overflow slot or too many ways
latches BRAKE with cause 0x09. -/
def Obligations.RampStepsComplete : Prop :=
  ∀ s : State, gtcOk s → s.mode = .ramp →
    let braked (t : State) (cause source : Nat) : Prop :=
      t.mode = .brake ∧ fget t F.HUB_BRAKE_CAUSE 0 = cause ∧ fget t F.HUB_BRAKE_SOURCE 0 = source ∧ fget t F.HUB_BRAKE_DRAIN 0 = 0
        ∧ t.pins.fault = true
    (s.pins.coreDet = false → exec .coreRailDetect s = .next { s with
        pins := { s.pins with coreDet := true }, outbox := if s.pins.perst then s.outbox else s.outbox ++ [.linkTrain] })
      ∧ exec .mmbRailDetect s = .next { s with pins := { s.pins with mmbDet := true } }
      ∧ (s.pins.sramDet = false → exec .sramRailDetect s = .next { s with
        pins := { s.pins with sramDet := true }, life := { s.life with cacheTesting := true } })
      ∧ (s.pins.coreDet = true → s.life.hubUp = false →
        (∀ other, ∃ t, exec (.firmwareAuthenticated true other) s = .next t ∧ t.life = { s.life with hubUp := true, fwRunning := newerSlot s }
            ∧ fget t F.HUB_RESTART_FW_SLOT 0 = newerSlot s ∧ fget t F.HUB_RESTART_FW_OTHER_BAD 0 = 0
            ∧ t.host = { s.host with mbxReady := true }
            ∧ regsKept s t [(F.HUB_RESTART_FW_SLOT, 0), (F.HUB_RESTART_FW_OTHER_BAD, 0)] ∧ keptBut s t [.regs, .life, .host])
          ∧ (∃ t, exec (.firmwareAuthenticated false true) s = .next t ∧ t.life = { s.life with hubUp := true, fwRunning := 1 - newerSlot s }
            ∧ fget t F.HUB_RESTART_FW_SLOT 0 = 1 - newerSlot s ∧ fget t F.HUB_RESTART_FW_OTHER_BAD 0 = 1)
          ∧ ∃ t, exec (.firmwareAuthenticated false false) s = .next t ∧ braked t 8 0x600)
      ∧ (s.life.hubUp = true → s.life.ucodeDone = false → ∀ v : BitVec 16, ∃ t, exec (.microcodeLoaded v) s = .next t
        ∧ t.life = { s.life with ucodeDone := true }
        ∧ (∀ g < 16 * Config.wheels s.config, fget t F.SPKg_UCODE_VERSION g = v.toNat) ∧ keptBut s t [.regs, .life])
      ∧ (s.pins.mmbRst = true → ∀ w : Wheel, wheelOk s w = true →
        (∃ t l, exec (.rstWaitEnd w) s = .next t ∧ t.gtc = max s.gtc ((s.life.rstAt + 1000000) % 2 ^ 64)
            ∧ t.outbox = s.outbox ++ l ∧ l.length = 64
            ∧ (∀ e ∈ l, (∃ d q, e = .packet w.val d q ∧ d < 8) ∨ ∃ d bs, e = .burst w.val d bs ∧ d < 8)
            ∧ t.med.lines = s.med.lines ∧ keptBut s t [.gtc, .med, .outbox, .regs])
          ∧ (∃ t, exec (.trainingComplete w 255) s = .next t ∧ fget t F.MMBn_STATUS_TRAINED w.val = 255
            ∧ regsKept s t [(F.MMBn_STATUS_TRAINED, w.val)] ∧ keptBut s t [.regs])
          ∧ ∀ (b : BitVec 8) (d : Fin 8), b.getLsbD d.val = false → (∀ e : Fin 8, e < d → b.getLsbD e.val = true) →
            ∃ t, exec (.trainingComplete w b) s = .next t ∧ braked t 7 (0x400 + 16 * w.val + 2 * d.val)
              ∧ fget t F.MMBn_STATUS_TRAINED w.val = b.toNat ∧ fget t F.MMBn_ERR_TRAIN_FAIL w.val = 1)
      ∧ (s.life.cacheTesting = true →
        exec (.cacheTestComplete [] false) s = .next { s with life := { s.life with cacheTesting := false, cacheDone := true } }
          ∧ ∀ ws, ∃ t, exec (.cacheTestComplete ws true) s = .next t ∧ braked t 9 0x600)

/-- For every state in STANDBY after recall, with the input good, no temperature shut-down in force, and RAMP automatic or asked for:
DEBOUNCE_EXPIRY completes with RAMP, PREV showing STANDBY, at the first tick after DEBOUNCE_MS (at least 1 ms) from the input's good and,
with AUTO_RAMP clear, after the acceptance of the request; the sequence running from its first step with nothing enabled or pending, REC_CLOSED clear, the cache and the
queues empty, the hub not yet up, and the media lines, tags, drain areas and checkpoints as they were. -/
def Obligations.RampIsEnteredAfterDebounce : Prop :=
  ∀ s : State, gtcOk s → s.mode = .standby → sbReady s = true → inputGood s = true → s.life.hot = false →
    (fget s F.HUB_MODE_CFG_AUTO_RAMP 0 ≠ 0 ∨ s.life.rampRequest = true) →
      let ends := s.life.goodSince + max 1 (fget s F.HUB_MODE_CFG_DEBOUNCE_MS 0) * 1000000
      let met := if fget s F.HUB_MODE_CFG_AUTO_RAMP 0 ≠ 0 then ends else max ends s.life.acceptedAt
      ∃ t, exec .debounceExpiry s = .next t ∧ t.mode = .ramp ∧ fget t F.HUB_MODE_PREV 0 = 1
        ∧ t.gtc = max ((met / 250 + 1) * 250) ((s.gtc + 249) / 250 * 250) % 2 ^ 64
        ∧ fget t F.SEQ_CTRL_STATE 0 = 1 ∧ fget t F.SEQ_CTRL_STEP 0 = 0 ∧ fget t F.HUB_MODE_REC_CLOSED 0 = 0
        ∧ t.seq.pend = [] ∧ t.seq.edges = [] ∧ t.seq.fflArmed = true
        ∧ t.cache = cacheReset ∧ t.sched = schedReset ∧ t.fw = fwReset ∧ t.life.hubUp = false ∧ t.life.seqDone = false
        ∧ t.med.lines = s.med.lines ∧ t.med.tags = s.med.tags ∧ t.med.drain = s.med.drain ∧ t.med.index = s.med.index
        ∧ t.med.ckpts = s.med.ckpts ∧ t.med.key = s.med.key ∧ t.config = s.config

/-- For every state outside OFF before recall has completed: RECALL_COMPLETE with no bad word completes with SBG_STATUS.READY set, the ring's device
number equal to the straps and its EPOCH to 0xF0 plus it, converters 0 and 1 calibrating, the shadow, mode, media lines and tags as they
were, and, where no key has ever been stored, the working copy equal to the shadow. Once recall has completed, RECALL_COMPLETE changes nothing. -/
def Obligations.RecallLoadsTheSaddlebag : Prop :=
  ∀ (s : State) (straps : Devid), gtcOk s → s.mode ≠ .off →
    (sbReady s = false → ∃ t, exec (.recallComplete straps [] []) s = .next t ∧ sbReady t = true
        ∧ fget t F.PEL_STATUS_DEVID 0 = straps.val ∧ fget t F.PEL_STATUS_EPOCH 0 = 0xF0 + straps.val
        ∧ (conv t 0).calibrating = true ∧ (conv t 1).calibrating = true
        ∧ t.mode = s.mode ∧ t.sbg.shadow = s.sbg.shadow ∧ t.med.lines = s.med.lines ∧ t.med.tags = s.med.tags
        ∧ ((∀ p ∈ [4033, 4034, 4035, 4036], nsHas p s.sbg.written = false) → t.sbg.work = s.sbg.shadow))
      ∧ (sbReady s = true → ∀ ce ue, exec (.recallComplete straps ce ue) s = .next s)

/-- For every state in RECOVER whose dies have passed their checks, with no checkpoint, no drained line and no shutdown record or
recorded checkpoint: RECOVER_READ_COMPLETE completes with no dirty shutdown counted, an empty cache as it was, the TAGAGE sweep of every tag value
begun on every bank and AGING set; the mode stays RECOVER. Where HUB_CKPT records a checkpoint that none on media reaches, it latches
BRAKE with cause 0x0A instead, without drain. -/
def Obligations.NewCardRecoversEmpty : Prop :=
  ∀ (s : State) (r : RecoverReads), gtcOk s → s.mode = .recover → s.life.step = .reading → s.med.ckpts = [] →
    (shutdownRec s = none → ctrValue s ctrHubCkpt = none →
        ∃ t, exec (.recoverReadComplete r) s = .next t ∧ t.mode = .recover ∧ t.life.step = .sweep
          ∧ t.life.dirty = false ∧ t.life.dsc = 0 ∧ fget t F.HUB_EPOCH_AGING 0 = 1
          ∧ t.med.agingLeft = List.range (8 * Config.banks s.config)
          ∧ t.med.lines = s.med.lines ∧ t.cache = s.cache ∧ t.outbox.length = s.outbox.length + 8 * Config.banks s.config)
      ∧ (∀ v, ctrValue s ctrHubCkpt = some v → ∃ t, exec (.recoverReadComplete r) s = .next t ∧ t.mode = .brake
          ∧ fget t F.HUB_BRAKE_CAUSE 0 = 10 ∧ fget t F.HUB_BRAKE_DRAIN 0 = 0 ∧ t.med.lines = s.med.lines)

/-- For every state in RECOVER at its reads, with an empty cache, whose shutdown record names a freewheel (STATE 2) and whose only
checkpoint is its seal with a digest that matches, and one drained line under it, whole, unpoisoned, neither scratch nor pinned,
written under the media's key: RECOVER_READ_COMPLETE completes with the line in the cache at its own set, with all four sectors valid and none
poisoned, the drained data, and dirty; no media line changes and no dirty shutdown is counted. -/
def Obligations.SealedLineIsBackDirty : Prop :=
  ∀ (s : State) (r : RecoverReads) (k slot dsc : Nat) (c : Ckpt) (d : DrainSlot) (es : List Nat), gtcOk s → s.mode = .recover →
    s.life.step = .reading → s.cache = cacheReset → s.med.held = [] → scratchSteps s = 0 →
    r.badSeal = [] → r.badDigest = [] → r.badIndex = [] → r.badSlot = [] → ctrValue s ctrHubCkpt = none →
    s.med.ckpts = [(slot, c)] → c.sealed = true → c.kind = 2 → shutdownRec s = some (dsc, 2, c.seq, c.area) →
    s.med.drain = [(k, d)] → s.med.index = [((c.area * 16 + keyWheel k) * 4096 + keySlot k / 28, ⟨c.seq, es⟩)] →
    k / 67584 / 16 = c.area → d.v = true → d.sv = 15 → d.sp = 0 → d.scr = false → d.pin = false → d.key = s.med.key →
      ∃ t loc, exec (.recoverReadComplete r) s = .next t ∧ locate t d.line = some loc
        ∧ locSv t loc = 15 ∧ locSp t loc = 0 ∧ locData t loc = d.data ∧ (dirAt t loc).dv = true ∧ (dirAt t loc).line = d.line
        ∧ t.life.dirty = false ∧ t.life.dsc = dsc ∧ t.mode = .recover ∧ t.med.lines = s.med.lines
        ∧ fget t F.HUB_RESTART_RESTORED 0 = 1

/-- For every state whose capacitance measurement is idle. In SERVICE with MAINTENANCE asked for, MAINTENANCE_ENTRY completes in the first tick after the acceptance with MAINTENANCE, PREV
showing SERVICE and the media status 3; media, cache, queues and ledger stay. In MAINTENANCE with SERVICE asked for, every margin back, every enabled
rail in window, no calibration running and no dirty line in a way that joins scratch, SERVICE_RETURN completes in the first tick after
the acceptance with SERVICE, PREV showing MAINTENANCE, media status 1, a checkpoint due, and no media line changed. In
SERVICE with the core powered and the hub up, HUB_WATCHDOG_EXPIRY and HUB_MEMORY_ERROR latch BRAKE with cause 0x05, to be drained,
and the hub runs no more; PORT_BUFFER_ERROR latches BRAKE with cause 0x03, to be drained, and sets Internal_Error. -/
def Obligations.MaintenanceAndFatalFaults : Prop :=
  ∀ s : State, gtcOk s → s.led.test.phase = .idle →
    let braked (t : State) (cause source : Nat) : Prop :=
      t.mode = .brake ∧ fget t F.HUB_BRAKE_CAUSE 0 = cause ∧ fget t F.HUB_BRAKE_SOURCE 0 = source ∧ fget t F.HUB_BRAKE_DRAIN 0 = 1
        ∧ t.pins.fault = true ∧ t.fw.kind = .brakeDrain ∧ t.fw.stage = .t0 ∧ t.fw.t0 = s.gtc ∧ t.med.lines = s.med.lines
        ∧ t.cache.ways = s.cache.ways ∧ t.cache.dir = s.cache.dir ∧ t.cache.ovf = s.cache.ovf
    let tick : Nat := max ((s.life.acceptedAt / 250 + 1) * 250) ((s.gtc + 249) / 250 * 250) % 2 ^ 64
    (s.mode = .service → s.life.toMaintenance = true → ∃ t, exec .maintenanceEntry s = .next t ∧ t.mode = .maintenance
        ∧ fget t F.HUB_MODE_PREV 0 = 4 ∧ t.host.mediaStatus = 3 ∧ t.gtc = tick
        ∧ t.life = { s.life with toMaintenance := false, modeSince := t.gtc }
        ∧ keptBut s t [.gtc, .mode, .regs, .host, .life, .rcd, .mcv, .mbx, .outbox])
      ∧ (s.mode = .maintenance → s.life.toService = true → serviceReady s = true → ∃ t, exec .serviceReturn s = .next t
        ∧ t.mode = .service ∧ fget t F.HUB_MODE_PREV 0 = 5 ∧ t.host.mediaStatus = 1 ∧ t.gtc = tick
        ∧ t.life = { s.life with toService := false, modeSince := t.gtc }
        ∧ t.med.ckptDue = true ∧ t.med.lines = s.med.lines)
      ∧ (s.mode = .service → coreOn s = true →
        let hubFailed (t : State) : Prop := braked t 5 0x600 ∧ t.life.hubUp = false ∧ t.host.mbxReady = false
        (s.life.hubUp = true → (∃ t, exec .hubWatchdogExpiry s = .next t ∧ hubFailed t)
            ∧ ∃ t, exec .hubMemoryError s = .next t ∧ hubFailed t)
          ∧ ∃ t, exec .portBufferError s = .next t ∧ braked t 3 0x500 ∧ nsHas 6 t.host.ras = true)

/-- For every state in RAMP with the sequence running at a step before the last, whose word has operation OP and target tgt. A step not
yet begun, in its tick: END completes the sequence; ENABLE places the request of a target neither enabled nor pending nor taken
off; DISABLE decides the disable edge of an enabled target and cancels its request; WAIT_PG of a good target, CHECK_WINDOW of a target
in window and GANG_SYNC of an agreeing gang go on; WAIT_PG and GANG_SYNC of others, and WAIT_TICKS, wait from this tick; CHECK_WINDOW of a
tripped target whose response is note is a CHECK fault (5); BRANCH_ON_FAULT goes to its target step when the target has FAULT_SEEN, else on. A
waiting step: WAIT_TICKS_EXPIRY goes on after max(1, ARG) ticks; GANG_SYNC_TIMEOUT and, for a target that is enabled but not good,
PG_TIMEOUT_EXPIRY, after ARG ticks or PG_TIMEOUT, are faults 6 and 3 of every channel of the target and, with response note, go on. Going on is to the next step, in the tick after. -/
def Obligations.SequenceStepsAct : Prop :=
  ∀ s : State, gtcOk s → s.mode = .ramp → fget s F.SEQ_CTRL_STATE 0 = 1 → fget s F.SEQ_CTRL_STEP 0 < 63 →
    let k := fget s F.SEQ_CTRL_STEP 0
    let w := stepWord s
    let tgt := stepTarget w
    let at_ (u t : State) (j : Nat) : Prop :=
      fget t F.SEQ_CTRL_STEP 0 = j ∧ fget t F.SEQ_CTRL_STATE 0 = 1 ∧ t.seq.waiting = false ∧ t.seq.stepSince = tickOf u + 1 ∧ t.mode = .ramp
    let faulted (t : State) (kind : Nat) : Prop :=
      fget t F.SEQ_ERR_NOTE 0 = 1
        ∧ ∀ c ∈ tgtChans s tgt, fget t F.SEQ_CHn_STATUS_FAULT_SEEN c = 1 ∧ fget t F.SEQ_CHn_STATUS_LAST_KIND c = kind
    let here : State := { s with seq := { s.seq with waiting := true, stepSince := tickOf s } }
    let on : State := { s with seq := { s.seq with waiting := false, stepSince := tickOf s + 1 } }
    let plain (t : State) (j : Nat) : Prop :=
      at_ s t j ∧ t.seq = on.seq ∧ regsKept s t [(F.SEQ_CTRL_STEP, 0)] ∧ keptBut s t [.regs, .seq]
    (s.seq.waiting = false → s.seq.stepSince ≤ tickOf s →
      (stepOp w = 0 → ∃ t, exec .seqEnd s = .next t ∧ fget t F.SEQ_CTRL_STATE 0 = 3
          ∧ t.life = { s.life with seqDone := true } ∧ t.seq = s.seq ∧ regsKept s t [(F.SEQ_CTRL_STATE, 0)] ∧ keptBut s t [.regs, .seq, .life])
        ∧ (stepOp w = 1 → tgtOn s tgt = false → takenOff s tgt = false → (tgt, true) ∉ s.seq.edges → tgt ∉ s.seq.pend →
          ∃ t, exec .seqEnable s = .next t ∧ at_ s t (k + 1) ∧ t.seq = { on.seq with pend := s.seq.pend ++ [tgt] }
            ∧ regsKept s t [(F.SEQ_CTRL_STEP, 0)] ∧ keptBut s t [.regs, .seq])
        ∧ (stepOp w = 2 → tgtAnyOn s tgt = true → ∃ t, exec .seqDisable s = .next t ∧ at_ s t (k + 1)
            ∧ (tgt, false) ∈ t.seq.edges ∧ (tgt, true) ∉ t.seq.edges ∧ tgt ∉ t.seq.pend
            ∧ regsKept s t [(F.SEQ_CTRL_STEP, 0)] ∧ keptBut s t [.regs, .seq])
        ∧ (stepOp w = 3 → (waitOver s tgt = true → ∃ t, exec .waitPg s = .next t ∧ plain t (k + 1))
            ∧ (waitOver s tgt = false → exec .waitPg s = .next here))
        ∧ (stepOp w = 4 → exec .waitTicks s = .next here)
        ∧ (stepOp w = 5 → ((∀ c ∈ tgtChans s tgt, inWindow s c = true) → ∃ t, exec .checkWindow s = .next t ∧ plain t (k + 1))
            ∧ ((∃ c ∈ tgtChans s tgt, inWindow s c = false) → respOf s tgt 5 = 0 → ∃ t, exec .checkWindow s = .next t
                ∧ at_ s t (k + 1) ∧ faulted t 5))
        ∧ (stepOp w = 6 → (gangAgrees s tgt = true → ∃ t, exec .gangSync s = .next t ∧ plain t (k + 1))
            ∧ (gangAgrees s tgt = false → exec .gangSync s = .next here))
        ∧ (stepOp w = 7 → stepArg w / 64 % 2 = 0 → ∃ t, exec .branchOnFault s = .next t
            ∧ plain t (if (tgtChans s tgt).any (fun c => fon s F.SEQ_CHn_STATUS_FAULT_SEEN c) then stepArg w % 64 else k + 1)))
      ∧ (s.seq.waiting = true →
        (stepOp w = 4 → ∃ t, exec .waitTicksExpiry s = .next t
            ∧ t.gtc = max s.gtc ((s.seq.stepSince + max 1 (stepArg w)) * 250 % 2 ^ 64) ∧ at_ t t (k + 1)
            ∧ regsKept s t [(F.SEQ_CTRL_STEP, 0)] ∧ keptBut s t [.gtc, .regs, .seq])
          ∧ (stepOp w = 6 → respOf s tgt 6 = 0 → ∃ t, exec .gangSyncTimeout s = .next t ∧ faulted t 6
            ∧ t.gtc = max s.gtc ((s.seq.stepSince + stepArg w) * 250 % 2 ^ 64) ∧ at_ t t (k + 1))
          ∧ (stepOp w = 3 → tgtGood s tgt = false → (retryOf s tgt).phase ≠ 2 → (∀ r ∈ s.seq.railWait, r.2 ≠ tgt) → tgtOn s tgt = true →
            respOf s tgt 3 = 0 → ∃ t, exec (.pgTimeoutExpiry tgt) s = .next t ∧ faulted t 3 ∧ at_ t t (k + 1)
              ∧ t.gtc = max s.gtc ((s.seq.stepSince + (if stepArg w = 0 then tgtTicks s tgt else stepArg w)) * 250 % 2 ^ 64)))

/-- For every state in SERVICE and every channel outside every gang. UV_TRIP with the comparator in use and armed, OV_TRIP in use and
not masked, and PG falling with power good in use (active high) and the UV comparator armed, are faults 1, 2 and 4: FAULT_SEEN, LAST_KIND and the fault count
follow, and then the response: note sets NOTE; retry, with retries left, decides the disable edge and shows RETRYING; group-off
shows OFF_FAULT and GROUP_OFF; brake latches BRAKE with cause 0x01 for a CRIT channel and 0x02 for others, from the rail. A trip whose comparator is
not in use only shows. COMPARATOR_RELEASE with power good in use clears the trip and nothing else. A PG edge shows at its pin; one that
lands in its own tick waits for the next, where it is processed, and one whose tick has passed is processed at once: the fall is fault 4,
and the rise of an enabled channel arms its UV comparator. -/
def Obligations.RailFaultsTakeTheirResponse : Prop :=
  ∀ (s : State) (c : Chan) (x : Nat), gtcOk s → s.mode = .service → gangOf s c.val = none → fget s F.SEQ_CTRL_STATE 0 = 3 →
    let n := c.val
    let responds (t : State) (kind r : Nat) : Prop :=
      t.gtc = max s.gtc (x % 2 ^ 64)
        ∧ fget t F.SEQ_CHn_STATUS_FAULT_SEEN n = 1 ∧ fget t F.SEQ_CHn_STATUS_LAST_KIND n = kind
        ∧ fget t F.SEQ_CHn_COUNT_FAULTS n = min (fget s F.SEQ_CHn_COUNT_FAULTS n + 1) (fmax F.SEQ_CHn_COUNT_FAULTS)
        ∧ (r = 0 → t.mode = .service ∧ fget t F.SEQ_ERR_NOTE 0 = 1)
        ∧ (r = 1 → (retryOf s (.chan c)).count < retryMax s (.chan c) →
            t.mode = .service ∧ (Target.chan c, false) ∈ t.seq.edges ∧ fget t F.SEQ_CHn_STATUS_RETRYING n = 1 ∧ fget t F.SEQ_ERR_RETRY 0 = 1)
        ∧ (r = 2 → t.mode = .service ∧ fget t F.SEQ_CHn_STATUS_OFF_FAULT n = 1 ∧ fget t F.SEQ_ERR_GROUP_OFF 0 = 1)
        ∧ (r = 3 → t.mode = .brake ∧ fget t F.HUB_BRAKE_CAUSE 0 = (if fon s F.SEQ_CHn_CFG_CRIT n then 1 else 2)
            ∧ fget t F.HUB_BRAKE_SOURCE 0 = n)
    (fon s F.SEQ_CHn_WIN_UV_EN n = true → fon s F.SEQ_CHn_STATUS_UV_ARMED n = true →
        ∃ t, exec (.uvTrip c x) s = .next t ∧ fget t F.SEQ_CHn_STATUS_UV_TRIP n = 1 ∧ responds t 1 (fget s F.SEQ_CHn_CFG_RESP_UV n))
      ∧ (fon s F.SEQ_CHn_WIN_UV_EN n = false → ∃ t, exec (.uvTrip c x) s = .next t ∧ fget t F.SEQ_CHn_STATUS_UV_TRIP n = 1
          ∧ fget t F.SEQ_CHn_STATUS_FAULT_SEEN n = fget s F.SEQ_CHn_STATUS_FAULT_SEEN n ∧ keptBut s t [.gtc, .regs, .mcv])
      ∧ (tabGet 0 s.seq.ovMask n ≤ tickOf s → fon s F.SEQ_CHn_WIN_OV_EN n = true →
        ∃ t, exec (.ovTrip c x) s = .next t ∧ fget t F.SEQ_CHn_STATUS_OV_TRIP n = 1 ∧ responds t 2 (fget s F.SEQ_CHn_CFG_RESP_OV n))
      ∧ (fon s F.SEQ_CHn_CFG_PG_EN n = true → ∀ ov, ∃ t, exec (.comparatorRelease c ov) s = .next t
          ∧ fget t (if ov then F.SEQ_CHn_STATUS_OV_TRIP else F.SEQ_CHn_STATUS_UV_TRIP) n = 0
          ∧ regsKept s t [(if ov then F.SEQ_CHn_STATUS_OV_TRIP else F.SEQ_CHn_STATUS_UV_TRIP, n)] ∧ keptBut s t [.regs])
      ∧ (fon s F.SEQ_CHn_CFG_PG_EN n = true → fon s F.SEQ_CHn_CFG_PG_POL n = false → s.seq.pgDue = [] → x < 2 ^ 64 →
        (tickOf s ≤ x / 250 → ∀ up, ∃ t, exec (.pgEdge c up x) s = .next t ∧ t.pins.pg.getLsbD n = up ∧ t.gtc = max s.gtc x
            ∧ t.seq = { s.seq with pgDue := [(n, up, x / 250)] }
            ∧ fget t F.SEQ_CHn_STATUS_FAULT_SEEN n = fget s F.SEQ_CHn_STATUS_FAULT_SEEN n ∧ keptBut s t [.gtc, .pins, .seq, .regs, .mcv])
          ∧ (x / 250 < tickOf s → chanOn s n = true →
            (fon s F.SEQ_CHn_STATUS_UV_ARMED n = true → ∃ t, exec (.pgEdge c false x) s = .next t
                ∧ t.pins.pg.getLsbD n = false ∧ responds t 4 (fget s F.SEQ_CHn_CFG_RESP_UV n))
              ∧ (fon s F.SEQ_CHn_STATUS_UV_ARMED n = false → fon s F.SEQ_CHn_WIN_UV_EN n = true → fon s F.SEQ_CHn_STATUS_UV_TRIP n = false →
                (∀ e ∈ s.seq.edges, e.2 = false → n ∉ tgtChans s e.1) → ∃ t, exec (.pgEdge c true x) s = .next t
                  ∧ t.pins.pg.getLsbD n = true ∧ fget t F.SEQ_CHn_STATUS_UV_ARMED n = 1 ∧ t.mode = .service)))

/-- For every state outside OFF. RETRY_BACKOFF_END of a target in backoff completes with its enable request pending, waiting for power good, 1, 2 or 4 ms
after the retry began. OFF_DELAY_EXPIRY of the one power-down whose disable edge has been driven, OFF_DELAY ticks after that edge, lowers its next entry, if that is not down
yet; with no entry left it ends, and in a freewheel the last rail takes the core's supplies with it: STATE 5, the internal detectors
low, the dies in reset, the link down. SLOT_UNSYNC_TIMEOUT outside STANDBY, in a peloton whose time is not aligned,
allows admission on the device's own time and shows it in SEQ_ERR. -/
def Obligations.RetriesAndPowerDownsGoOn : Prop :=
  ∀ s : State, gtcOk s → s.mode ≠ .off →
    (∀ tgt, (retryOf s tgt).phase = 1 → ∃ t, exec (.retryBackoffEnd tgt) s = .next t
        ∧ t.gtc = max s.gtc (((retryOf s tgt).since + backoffTicks (retryOf s tgt).count) * 250 % 2 ^ 64)
        ∧ (retryOf t tgt).phase = 2 ∧ (retryOf t tgt).count = (retryOf s tgt).count ∧ tgt ∈ t.seq.pend ∧ keptBut s t [.gtc, .seq])
      ∧ (∀ d, s.seq.down = [d] → downDue s d = true →
        ∀ tgt0, d.waiting = some tgt0 →
        let ends : Nat := max s.gtc ((d.since + offDelay s tgt0) * 250 % 2 ^ 64)
        (∀ tgt rest, d.left = tgt :: rest → tgtDown s tgt = false → ∃ t, exec .offDelayExpiry s = .next t ∧ t.gtc = ends
            ∧ t.seq.down = [{ d with left := rest, waiting := some tgt, since := tickOf t + 1 }] ∧ (tgt, false) ∈ t.seq.edges
            ∧ keptBut s t [.gtc, .seq])
          ∧ (d.left = [] → d.why = .group → exec .offDelayExpiry s = .next { s with gtc := ends, seq := { s.seq with down := [] } })
          ∧ (d.left = [] → d.why = .all → s.mode = .freewheel → ∃ t, exec .offDelayExpiry s = .next t
            ∧ t.gtc = ends ∧ fget t F.SEQ_CTRL_STATE 0 = 5 ∧ t.mode = .freewheel ∧ t.fw = { s.fw with railsDown := true }
            ∧ t.pins = { s.pins with coreDet := false, sramDet := false, mmbDet := false, mmbRst := false } ∧ t.host.linkUp = false
            ∧ t.seq = { s.seq with down := [] }))
      ∧ (s.mode ≠ .standby → fon s F.SEQ_INRUSH_PEL_EN 0 = true → slotAligned s = false → s.seq.unsync = 0 →
        ∃ t, exec .slotUnsyncTimeout s = .next t ∧ t.gtc = max s.gtc ((s.seq.rampAt + 10000000) % 2 ^ 64)
          ∧ t.seq = { s.seq with unsync := 1 } ∧ fget t F.SEQ_ERR_SLOT_UNSYNC 0 = 1
          ∧ regsKept s t [(F.SEQ_ERR_SLOT_UNSYNC, 0)] ∧ keptBut s t [.gtc, .seq, .regs])

/-- For every state in SERVICE with one margin, of a channel c outside every gang. MARGIN_SETTLE_END of a settling margin applies its window, to
be checked in the next tick; TRIM_NEUTRAL_HOLD_END starts the move of a first hold and, after a return, stops the trim drive;
NOMINAL_SETTLE_END restores the stored window, ends the margin and answers RESULT 3 to the command that waits. On its port, a PMBus
transaction that succeeds sends the next one, with PEC and the port's speed as configured, and keeps what VOUT_COMMAND read first; the last starts the settling time; VOUT_MODE read in another mode
refuses the margin, CONFLICT (log entry 26), with the stored window back; the first failure is tried again, and a stretched
clock sets PMB_ERR, answers RESULT 2 and counts a fault. -/
def Obligations.MarginsSettleAndReturn : Prop :=
  ∀ (s : State) (c : Chan) (m : Margin), gtcOk s → s.mode = .service → s.seq.margins = [(c.val, m)] → gangOf s c.val = none →
    m.uv < 1024 → m.ov < 1024 →
    let n := c.val
    let phased (u t : State) (m' : Margin) : Prop := t.seq = { u.seq with margins := [(n, m')] }
    let answered (t : State) (r : Nat) : Prop :=
      ∀ v, m.via = some v → Emission.mbox v 0xC014 ⟨0, 0⟩ [BitVec.ofNat 8 r] ∈ t.outbox
    let window (t : State) (uv ov : Nat) : Prop := fget t F.SEQ_CHn_WIN_UV n = uv ∧ fget t F.SEQ_CHn_WIN_OV n = ov
    (m.phase = .settling → ∃ t, exec (.marginSettleEnd c) s = .next t ∧ t.gtc = max s.gtc ((m.since + m.settle) * 250 % 2 ^ 64)
        ∧ window t m.uv m.ov ∧ phased s t { m with phase := .checking }
        ∧ regsKept s t [(F.SEQ_CHn_WIN_UV, n), (F.SEQ_CHn_WIN_OV, n)] ∧ keptBut s t [.gtc, .regs, .seq])
      ∧ (m.phase = .neutralFirst → ∃ t, exec (.trimNeutralHoldEnd c) s = .next t ∧ t.gtc = max s.gtc ((m.since + 4) * 250 % 2 ^ 64)
        ∧ phased s t { m with phase := .moving } ∧ keptBut s t [.gtc, .seq])
      ∧ (m.phase = .neutralHold → ∃ t, exec (.trimNeutralHoldEnd c) s = .next t ∧ t.gtc = max s.gtc ((m.since + 4) * 250 % 2 ^ 64)
        ∧ fget t F.SEQ_CHn_TRIM_DRIVING n = 0 ∧ fget t F.SEQ_CHn_TRIM_CODE n = 0
        ∧ phased s t { m with phase := .nominalSettle, since := tickOf t }
        ∧ regsKept s t [(F.SEQ_CHn_TRIM_DRIVING, n), (F.SEQ_CHn_TRIM_CODE, n)] ∧ keptBut s t [.gtc, .regs, .seq])
      ∧ (m.phase = .nominalSettle → ∃ t, exec (.nominalSettleEnd c) s = .next t ∧ t.gtc = max s.gtc ((m.since + 400) * 250 % 2 ^ 64)
        ∧ window t (storedWin s n).1 (storedWin s n).2 ∧ fget t F.SEQ_CHn_STATUS_MARGINED n = 0 ∧ t.seq.margins = [] ∧ answered t 3)
      ∧ (m.phase = .pmbus → m.attempt = 1 → ∀ port : Fin 2, portOf s n = port.val →
        let fast := fon s (if port.val = 0 then F.SEQ_CFG_PMB0_FAST else F.SEQ_CFG_PMB1_FAST) 0
        let pec := fon s F.SEQ_CHn_MARGIN_PEC n
        (∀ cmd x cmd2 x2 rest (data : BitVec 16), m.todo = (cmd, x) :: (cmd2, x2) :: rest → cmd ≠ 0x120 →
          ∃ t, exec (.pmbusTransactionComplete port true data) s = .next t
            ∧ t.outbox = s.outbox ++ [.pmbus port.val (fget s F.SEQ_CHn_MARGIN_ADDR n) cmd2 x2 pec fast]
            ∧ phased s t { m with todo := (cmd2, x2) :: rest, kept := if cmd = 0x121 ∧ m.kept = none then some data.toNat else m.kept }
            ∧ keptBut s t [.outbox, .seq])
          ∧ (∀ cmd x (data : BitVec 16), m.todo = [(cmd, x)] → cmd ≠ 0x120 → cmd ≠ 0x121 → m.action ≠ 4 →
            exec (.pmbusTransactionComplete port true data) s = .next { s with seq := { s.seq with
              margins := [(n, { m with todo := [], attempt := 0, phase := .settling, since := tickOf s })] } })
          ∧ (∀ x rest (data : BitVec 16), m.todo = (0x120, x) :: rest → data.toNat / 32 % 8 ≠ 0 →
            ∃ t, exec (.pmbusTransactionComplete port true data) s = .next t ∧ t.seq.margins = []
              ∧ window t (storedWin s n).1 (storedWin s n).2
              ∧ ∀ v, m.via = some v → Emission.mbox v 0xC014 ⟨rcOf vsConflict, vsConflict⟩ (leBytes 4 vsConflict) ∈ t.outbox)
          ∧ (∀ cmd x rest (data : BitVec 16), m.todo = (cmd, x) :: rest →
            ∃ t, exec (.pmbusTransactionComplete port false data) s = .next t
              ∧ t.outbox = s.outbox ++ [.pmbus port.val (fget s F.SEQ_CHn_MARGIN_ADDR n) cmd x pec fast]
              ∧ phased s t { m with attempt := 2 } ∧ keptBut s t [.outbox, .seq])
          ∧ ∃ t, exec (.pmbusStretchTimeout port) s = .next t ∧ t.mode = .service ∧ fget t F.SEQ_ERR_PMB_ERR 0 = 1 ∧ answered t 2
              ∧ fget t F.SEQ_CHn_STATUS_FAULT_SEEN n = 1 ∧ fget t F.SEQ_CHn_STATUS_LAST_KIND n = 7)

/-- For every state outside OFF and every converter n that is on, does not calibrate and runs no diagnosis. SLOT_DUE of an in-use slot
within a cycle, at its due boundary with the converter free, starts its channel's conversion and steps to the next slot. TRIGGER_PERIOD_EXPIRY of a
converter set to source 3, idle, starts the trigger's channel at the next multiple of PERIOD. CONVERSION_COMPLETE of a scheduled conversion of an
external input AINk, 4 ticks (32 in low power) after its start, puts the corrected code in the input's VAL.RAW and, where the FIFO is used and not full, an
entry with that code, TAG k, the converter number and the sampling time at its end. INJECTED_REQUEST is kept for the next boundary, unless one waits
already or, on MC0, a capacitance test, a freewheel, a brake with drain or the last 64 ticks bar it: then it only sets
INJ_REFUSED. FIFO_READ removes the oldest entry and changes nothing else. -/
def Obligations.ConversionsRunAndReport : Prop :=
  ∀ (s : State) (n : Conv), gtcOk s → s.mode ≠ .off →
    let c := conv s n.val
    (c.on = true → c.calibrating = false → diagOn s n.val = none →
      (∀ ch, c.run = none → c.injPend = false → c.held = false → c.late = none → c.slot ≠ 0 → c.effSlots.getD c.slot 16 = ch → ch < 16 →
          s.gtc ≤ c.nextDue * 250 → c.nextDue * 250 < 2 ^ 64 →
          let sp := if c.lp then c.effLp else c.effSp
          convTicks c.lp ≤ sp → ∃ t, exec (.slotDue n) s = .next t ∧ t.gtc = c.nextDue * 250
            ∧ conv t n.val = { c with
                run := some ⟨ch, .scheduled, c.nextDue, c.lp⟩, slot := if c.slot + 1 < c.effSlots.length then c.slot + 1 else 0
                nextDue := c.nextDue + sp }
            ∧ fget t F.MCVn_SEL_CH n.val = ch ∧ regsKept s t [(F.MCVn_SEL_CH, n.val)] ∧ keptBut s t [.gtc, .mcv, .regs])
        ∧ (n.val ≠ 0 → eget s n.val F.MCVn_TRIG_SRC n.val = 3 → convBusy s n.val = false →
          let p := max 1 (eget s n.val F.MCVn_TRIG_PERIOD n.val)
          ∃ t, exec (.triggerPeriodExpiry n) s = .next t ∧ t.gtc = max s.gtc ((tickOf s + p - 1) / p * p * 250 % 2 ^ 64)
            ∧ (conv t n.val).run = some ⟨eget s n.val F.MCVn_TRIG_CH n.val, .triggered, tickOf t, c.lp⟩
            ∧ regsKept s t [(F.MCVn_SEL_CH, n.val)] ∧ keptBut s t [.gtc, .mcv, .regs])
        ∧ (∀ (r : ConvRun) (k : Nat) (u : BitVec 12), c.run = some r → r.work = .scheduled → ainOf n.val r.ch = some k → schedOn s n.val = true →
          ∃ t, exec (.conversionComplete n u) s = .next t ∧ t.gtc = max s.gtc ((r.start + convTicks r.lp) * 250 % 2 ^ 64)
            ∧ fget t F.MCV_INk_VAL_RAW k = (convRaw s n.val u.toNat).1
            ∧ (entersFifo s n.val r.ch = true → (tabGet [] s.mcv.fifo n.val).length < 32 →
              ∃ e, tabGet [] t.mcv.fifo n.val = tabGet [] s.mcv.fifo n.val ++ [e] ∧ e.w0 % 4096 = (convRaw s n.val u.toNat).1
                ∧ e.w1 % 128 = k ∧ e.w1 / 512 = n.val ∧ e.w2 = r.start * 250 % 2 ^ 32)))
      ∧ (∀ ch, injRefused s n.val = false → ∃ t, exec (.injectedRequest n ch) s = .next t
          ∧ conv t n.val = { c with injPend := true, injCh := ch.val } ∧ fget t F.MCVn_SEL_INJ_CH n.val = ch.val
          ∧ regsKept s t [(F.MCVn_SEL_INJ_CH, n.val)] ∧ keptBut s t [.mcv, .regs])
      ∧ (∀ ch, c.injPend = true ∨ (n.val = 0 ∧ (fget s F.LDG_STATUS_CAP_TEST 0 ≠ 0 ∨ s.mode = .freewheel
            ∨ (s.mode = .brake ∧ fget s F.LDG_STATUS_FW_ACTIVE 0 ≠ 0) ∨ ∃ x, c.lastInj = some x ∧ tickOf s < x + 64)) →
          ∃ t, exec (.injectedRequest n ch) s = .next t ∧ fget t F.MCV_ERR_INJ_REFUSED 0 = 1
            ∧ regsKept s t [(F.MCV_ERR_INJ_REFUSED, 0)] ∧ keptBut s t [.regs])
      ∧ ∃ t, exec (.fifoRead n) s = .next t ∧ tabGet [] t.mcv.fifo n.val = (tabGet [] s.mcv.fifo n.val).tail
          ∧ (∀ m, m ≠ n.val → tabGet [] t.mcv.fifo m = tabGet [] s.mcv.fifo m) ∧ t.mcv = { s.mcv with fifo := t.mcv.fifo } ∧ keptBut s t [.mcv]

/-- For every state outside OFF. CALIBRATION_START in MAINTENANCE of a converter that does not calibrate (and, for MC0, outside a
capacitance test) starts one and changes nothing else; elsewhere it changes nothing. The last of the 64 calibration conversions, when
the result is not accepted, ends it with CAL_FAIL set and the coefficients as they were. DIAGNOSIS_START of an input 0 to 95 outside FREEWHEEL and BRAKE whose
rail is off and whose pair runs no diagnosis (for the pair of MC0 and MC1, outside a capacitance test) starts it: DONE 0, the input shown. Otherwise it
shows RESULT 5 (refused) and DONE; that a refused diagnosis shows RESULT 5 without DIAG_FAULT is the model's reading, log entry 48. -/
def Obligations.CalibrationAndDiagnosisAct : Prop :=
  ∀ s : State, gtcOk s → s.mode ≠ .off →
    (∀ n : Conv, s.mode = .maintenance → (conv s n.val).calibrating = false → (n.val = 0 → fget s F.LDG_STATUS_CAP_TEST 0 = 0) →
        ∃ t, exec (.calibrationStart n) s = .next t ∧ (conv t n.val).calibrating = true ∧ (conv t n.val).calCount = 0
          ∧ (conv t n.val).calVia = none ∧ keptBut s t [.mcv])
      ∧ (∀ n : Conv, s.mode ≠ .maintenance → exec (.calibrationStart n) s = .next s)
      ∧ (∀ (n : Conv) (r : ConvRun) (u : BitVec 12), (conv s n.val).run = some r → r.work = .calibration →
        (conv s n.val).calibrating = true → (conv s n.val).calAbort = false → (conv s n.val).calCount = 63 →
        calAccepts (conv s n.val).calLo ((conv s n.val).calHi + u.toNat) = false →
        ∃ t, exec (.conversionComplete n u) s = .next t ∧ fget t F.MCV_ERR_CAL_FAIL 0 = 1
          ∧ fget t F.MCVn_CAL_OFFSET n.val = fget s F.MCVn_CAL_OFFSET n.val ∧ fget t F.MCVn_CAL_GAIN n.val = fget s F.MCVn_CAL_GAIN n.val)
      ∧ (∀ k : BitVec 7, let p := (convOf k.toNat).1 / 2
        (k.toNat < 96 → s.mode ≠ .freewheel → s.mode ≠ .brake → diagOf s p = none → (k.toNat < 32 → chanOn s k.toNat = false) →
          (p = 0 → fget s F.LDG_STATUS_CAP_TEST 0 = 0) → ∃ t, exec (.diagnosisStart k) s = .next t
            ∧ diagOf t p = some ⟨k.toNat, [], 0, none, false⟩ ∧ fget t F.MCV_DIAG_INPUT 0 = k.toNat
            ∧ fget t F.MCV_DIAG_RES_INPUT 0 = k.toNat ∧ fget t F.MCV_DIAG_RES_DONE 0 = 0
            ∧ regsKept s t [(F.MCV_DIAG_INPUT, 0), (F.MCV_DIAG_RES_INPUT, 0), (F.MCV_DIAG_RES_DONE, 0)] ∧ keptBut s t [.mcv, .regs])
          ∧ (diagRefused s k.toNat = true → ∃ t, exec (.diagnosisStart k) s = .next t
            ∧ fget t F.MCV_DIAG_RES_RESULT 0 = 5 ∧ fget t F.MCV_DIAG_RES_DONE 0 = 1 ∧ fget t F.MCV_DIAG_RES_INPUT 0 = k.toNat
            ∧ keptBut s t [.regs]))

/-- For every state. CAP_TEST_DUE in SERVICE, MAINTENANCE or STANDBY after recall, with tests enabled and none running, begins step 1
and changes nothing else. CAP_TEST_DEFER_END goes back to step 1 a minute after the deferral; CAP_TEST_DISCARD_END starts recording
16 µs after HOLD_LOAD was asserted. CAP_TEST_TIMEOUT, 20 ms after it (counted from there by the model's choice, log 101), of an automatic
measurement releases HOLD_LOAD, clears CAP_TEST,
counts the rejection, sets CAP_REJECT and lengthens the run; the third rejection of a run and each later one sets CAP_FAIL3; the
history stays as it was. -/
def Obligations.CapacitanceMeasurementSteps : Prop :=
  ∀ s : State, gtcOk s → s.mode ≠ .off →
    (inService s = true ∨ s.mode = .standby → sbReady s = true → fon s F.LDG_CFG_CAP_EN 0 = true → s.led.test.phase = .idle →
        ∃ t, exec .capTestDue s = .next t ∧ t.led.test.phase = .waiting ∧ t.led.test.run = s.led.test.run
          ∧ t.led.test.byCommand = false ∧ keptBut s t [.led] ∧ t.led = { s.led with test := t.led.test })
      ∧ (s.led.test.phase = .deferred → exec .capTestDeferEnd s = .next { s with
        gtc := max s.gtc ((s.led.test.startAt + 60000000000) % 2 ^ 64)
        led := { s.led with test := { s.led.test with phase := .waiting, settle := [] } } })
      ∧ (s.led.test.phase = .discarding → exec .capTestDiscardEnd s = .next { s with
        gtc := max s.gtc ((s.led.test.startAt + 16000) % 2 ^ 64)
        led := { s.led with test := { s.led.test with phase := .recording, recs := [] } } })
      ∧ (s.led.test.phase = .recording → s.led.test.byCommand = false → ∃ t, exec .capTestTimeout s = .next t
        ∧ t.gtc = max s.gtc ((s.led.test.startAt + 20000000) % 2 ^ 64)
        ∧ t.led.test.phase = .idle ∧ t.led.test.run = s.led.test.run + 1 ∧ t.pins = { s.pins with holdLoad := false }
        ∧ fget t F.LDG_STATUS_CAP_TEST 0 = 0 ∧ fget t F.LDG_ERR_CAP_REJECT 0 = 1
        ∧ fget t F.LDG_CAP_REJECTS_COUNT 0 = min (fget s F.LDG_CAP_REJECTS_COUNT 0 + 1) (fmax F.LDG_CAP_REJECTS_COUNT)
        ∧ (2 ≤ s.led.test.run → fget t F.LDG_ERR_CAP_FAIL3 0 = 1)
        ∧ regsKept s t [(F.LDG_STATUS_CAP_TEST, 0), (F.LDG_ERR_CAP_REJECT, 0), (F.LDG_CAP_REJECTS_COUNT, 0), (F.LDG_ERR_CAP_FAIL3, 0)]
        ∧ keptBut s t [.gtc, .led, .pins, .regs, .rcd])

/-- The ledger's tick, for every state whose latest MC0 result for HOLD_SENSE landed in an earlier tick: with that code (at most 4,095),
LDG_VCAP shows the code and the reservoir voltage floor(code x 1,250 x KDIV_X256 / (4,096 x 256)) in millivolts, as far as its 16 bits
hold it, with KDIV_X256 as in LDG_CONST3; E_avail is computed from that voltage; and with the core powered, where the code is 0 or 4,095, LDG_ERR.SENSE_RANGE is set and E_avail is 0. -/
def Obligations.ReservoirVoltageAndSenseRange : Prop :=
  ∀ s : State, s.led.newTick < tickOf s → s.led.newCode ≤ 4095 →
    let code := s.led.newCode
    let v := code * 1250 * fget s F.LDG_CONST3_KDIV_X256 0 / (4096 * 256)
    vcapOf s code = v ∧ fget (ledgerTick s) F.LDG_VCAP_CODE 0 = code ∧ fget (ledgerTick s) F.LDG_VCAP_MV 0 = min 65535 v
      ∧ (coreOn s = true → code ≠ 0 → code ≠ 4095 →
        fget (ledgerTick s) F.LDG_EAVAIL_UJ 0 = min (eAvailAt s v) (2 ^ 32 - 1))
      ∧ (coreOn s = true → code = 0 ∨ code = 4095 →
        fget (ledgerTick s) F.LDG_ERR_SENSE_RANGE 0 = 1 ∧ fget (ledgerTick s) F.LDG_EAVAIL_UJ 0 = 0)

/-- In OFF, CADENCE_TICK changes nothing: the GTC starts at 0 with VAON. In STANDBY with no enable, edge, comparator, power-good edge,
margin or slew due, it completes at the next boundary with the reservoir voltage of the code in use shown, the cache, the queues, the banks,
the contexts, the media and the host's view as they were, and the mode STANDBY. -/
def Obligations.CadenceTickInOffAndStandby : Prop :=
  ∀ s : State, gtcOk s →
    (s.mode = .off → exec .cadenceTick s = .next s)
      ∧ (s.mode = .standby → s.seq.pend = [] → s.seq.edges = [] → s.seq.armNext = [] → s.seq.pgDue = [] → s.seq.margins = [] → s.pel.slew = 0 →
        s.mbx.reload = [] → ∃ t, exec .cadenceTick s = .next t
          ∧ t.gtc = (tickOf s + 1) * 250 % 2 ^ 64 ∧ t.mode = .standby
          ∧ fget t F.LDG_VCAP_MV 0 = min 65535 (vcapOf s t.led.code)
          ∧ t.med = s.med ∧ t.host = s.host ∧ t.sbg = s.sbg ∧ t.cache = { s.cache with fresh := [] }
          ∧ t.sched.queue = s.sched.queue ∧ t.sched.banks = s.sched.banks ∧ t.sched.ctxs = s.sched.ctxs ∧ t.sched.wait = s.sched.wait)

/-- For every state outside OFF after recall. While the scan runs, RECORDER_SCAN_COMPLETE ends it and puts the AON_UP record at the head of
the queue with the next number, those held after it. RECORD_CAPTURE of one landed event of a type other than FIRST_FAULT, no scan running, in the tick after its stamp, puts a record of its type, class
and source at the end of the queue with the number REC_SEQ shows, which then counts on. RECORD_WRITE_START of the head, neither CLEAR nor in volatile mode, with the supply good, begins its write to the
slot at the write pointer and to a free permanent slot: the slot's copies in use then hold its bytes. RECORD_WRITE_VERIFY with
both stored copies good ends the write: NEWEST, the write pointer and the permanent count step on; with copy A bad alone it also
marks the recorder degraded and copy A bad. RECACK_TIMEOUT of a first try sends the record once more; of the second gives it up with FWD_FAIL. -/
def Obligations.RecordsAreCapturedWrittenAndVerified : Prop :=
  ∀ s : State, gtcOk s → s.mode ≠ .off → sbReady s = true →
    (scanning s = true → ∃ t up, exec .recorderScanComplete s = .next t ∧ scanning t = false
        ∧ t.rcd.queue.head? = some up ∧ up.type = 1 ∧ up.source = 0x700 ∧ up.cls = 7 ∧ up.seq = scanNext s
        ∧ t.rcd.queue.length = s.rcd.queue.length + 1 ∧ t.rcd.lostSince = 0)
      ∧ (∀ l : Landed, s.rcd.landed = [l] → l.type ≠ 2 → scanning s = false → s.rcd.queue.length < 32 →
        ∃ t r, exec .recordCapture s = .next t ∧ t.gtc = max s.gtc ((l.stamp / 250 + 1) * 250 % 2 ^ 64)
          ∧ t.rcd = { s.rcd with landed := [], queue := s.rcd.queue ++ [r], lostSince := 0 }
          ∧ r.type = l.type ∧ r.cls = l.cls ∧ r.source = l.source ∧ r.seq = fget s F.REC_SEQ_SEQ 0
          ∧ r.epoch = fget s F.PEL_STATUS_EPOCH 0 ∧ (∀ ws, l.fixed = some ws → r.snap = ws.take 26)
          ∧ fget t F.REC_SEQ_SEQ 0 = (fget s F.REC_SEQ_SEQ 0 + 1) % 2 ^ 32
          ∧ regsKept s t [(F.REC_SEQ_SEQ, 0), (F.REC_QUEUE_HWM, 0)] ∧ keptBut s t [.gtc, .rcd, .regs])
      ∧ (∀ (r : Rcd) (rest : List Rcd), s.rcd.queue = r :: rest → s.rcd.ffl = none → scanning s = false → s.rcd.writing = none →
        s.rcd.clearing = none → recVolatile s = false → fon s F.SBG_STATUS_SUPPLY_OK 0 = true → r.type ≠ 0x10 →
        ∃ t, exec .recordWriteStart s = .next t ∧ t.rcd = { s.rcd with
              queue := rest
              writing := some (r, fget s F.REC_WP_SLOT 0, if fget s F.REC_STATUS_PERM 0 < 128 then fget s F.REC_STATUS_PERM 0 else 4096) }
          ∧ (∀ b < 2, copyUsed s b = true → 128 ≤ fget s F.REC_WP_SLOT 0 → fget s F.REC_WP_SLOT 0 < 2176 →
              copyBytes t (fget s F.REC_WP_SLOT 0) b = rcdBytes r)
          ∧ keptBut s t [.rcd, .sbg])
      ∧ (∀ (r : Rcd) (slot perm : Nat), s.rcd.writing = some (r, slot, perm) → r.type ≠ 3 → r.type ≠ 4 → r.type ≠ 0x10 →
        copyUsed s 0 = true → copyUsed s 1 = true → (∀ b, (copyPages slot perm b).any (storePending s) = false) →
        copyStored s r slot perm 0 true = true → copyStored s r slot perm 1 true = true →
        let stands (t : State) : Prop :=
          t.rcd.writing = none ∧ fget t F.REC_NEWEST_SEQ 0 = r.seq % 2 ^ 32 ∧ fget t F.REC_WP_SLOT 0 = nextCirc slot % 2 ^ 12
            ∧ (perm < 128 → fget t F.REC_STATUS_PERM 0 = min (fget s F.REC_STATUS_PERM 0 + 1) (fmax F.REC_STATUS_PERM))
            ∧ t.sbg = s.sbg
        (∃ t, exec (.recordWriteVerify true true) s = .next t ∧ stands t ∧ keptBut s t [.rcd, .regs]
            ∧ regsKept s t [(F.REC_NEWEST_SEQ, 0), (F.REC_WP_SLOT, 0), (F.REC_STATUS_PERM, 0), (F.REC_OLDEST_SEQ, 0)])
          ∧ ∃ t, exec (.recordWriteVerify false true) s = .next t ∧ stands t ∧ fget t F.REC_STATUS_DEGRADED 0 = 1
            ∧ fget t F.REC_STATUS_BANK_A_BAD 0 = 1 ∧ fget t F.REC_ERR_VERIFY_A 0 = 1 ∧ fget t F.REC_STATUS_BANK_B_BAD 0 = 0)
      ∧ (∀ (r : Rcd) (n x : Nat), s.rcd.fwd = some (r, n, x) → s.rcd.fwdWait = [] →
        ∃ t, exec .recackTimeout s = .next t ∧ t.gtc = max s.gtc ((x + 100000) % 2 ^ 64)
          ∧ (n = 1 → t.rcd = { s.rcd with fwd := some (r, 2, t.gtc) }
              ∧ (fon s F.PEL_CFG_EN 0 = true → t.outbox.length = s.outbox.length + 22) ∧ keptBut s t [.gtc, .rcd, .outbox])
          ∧ (n ≠ 1 → t.rcd = { s.rcd with fwd := none } ∧ fget t F.REC_ERR_FWD_FAIL 0 = 1 ∧ t.outbox = s.outbox))

/-- For every two copies a and b of a slot, good when the CRC is correct and blank when all bytes are 0xFF: both good with one SEQ and identical
give the record; both good with one SEQ and differing give copy A, returned with COPY_DISAGREE set; both good with two SEQs give the one
with the higher SEQ; one good copy alone is given; both blank make a blank slot; everything else is a damaged slot. Scrub rewrites copy B from
A, or A from B, exactly where the copy given differs from the other one, and leaves blank and damaged slots alone. -/
def Obligations.RecordCopiesResolve : Prop :=
  ∀ a b : List Byte,
    (rcdGood a = true → rcdGood b = true → a = b → resolveCopies a b = .record a false false)
      ∧ (rcdGood a = true → rcdGood b = true → rcdSeq a = rcdSeq b → a ≠ b →
        resolveCopies a b = .record a false true ∧ returnBytes a true = withDisagree true a)
      ∧ (rcdGood a = true → rcdGood b = true → rcdSeq a < rcdSeq b → resolveCopies a b = .record b true false)
      ∧ (rcdGood a = true → rcdGood b = true → rcdSeq b < rcdSeq a → resolveCopies a b = .record a false false)
      ∧ (rcdGood a = true → rcdGood b = false → resolveCopies a b = .record a false false)
      ∧ (rcdGood a = false → rcdGood b = true → resolveCopies a b = .record b true false)
      ∧ (rcdGood a = false → rcdGood b = false →
        resolveCopies a b = if (∀ x ∈ a, x = (0xFF : Byte)) ∧ (∀ x ∈ b, x = (0xFF : Byte)) then .blank else .damaged)
      ∧ ∀ (s : State) (slot : Nat), copyBytes s slot 0 = a → copyBytes s slot 1 = b →
        (∀ d, resolveCopies a b = .record a false d → a ≠ b → scrubSlot slot s = repairCopy slot 1 a s)
          ∧ (resolveCopies a b = .record b true false → a ≠ b → scrubSlot slot s = repairCopy slot 0 b s)
          ∧ (resolveCopies a b = .blank ∨ resolveCopies a b = .damaged ∨ a = b → scrubSlot slot s = s)

/-- For every state in SERVICE after recall whose saddlebag is in canonical form. LAZY_STORE_EXPIRY of a dirty page requests its store. STORE_START of an idle bank takes its next page as it now reads, when
supply and capacitor allow, and otherwise only sets NO_SUPPLY. SADDLEBAG_STORE_COMPLETE of an LSA page's good store makes the shadow's page the image taken,
every other page as it was, the page clean exactly when it has not changed since, and counts the store; a first failure repeats it with
STORE_RETRY; a second leaves it dirty with STORE_FAIL and FAILPAGE. CAPACITOR_RECHARGE sets the bank's CAP_OK bit and
STORE_SUPPLY_THRESHOLD SUPPLY_OK, and nothing else. REFRESH_PASS_START starts a pass, the next 24 hours later;
SHADOW_READ_COMPLETE of a bank's next page, not its last, notes it weak exactly when it reads differently or differs from its working copy. -/
def Obligations.SaddlebagStoresPages : Prop :=
  ∀ s : State, gtcOk s → s.mode = .service → sbReady s = true → sbForm s →
    (∀ p : Fin 4096, pageDirty s p.val = true → nsHas p.val s.sbg.reqs = false → ∃ t, exec (.lazyStoreExpiry p) s = .next t
        ∧ nsHas p.val t.sbg.reqs = true ∧ t.sbg = { s.sbg with reqs := t.sbg.reqs } ∧ keptBut s t [.gtc, .sbg]
        ∧ t.gtc = max s.gtc ((tabGet 0 s.sbg.since p.val - 1 + max 1 (fget s F.SBG_CFG_LAZY_MS 0) * 1000000) % 2 ^ 64))
      ∧ (∀ (b : Fin 16) (p : Nat), runningStore s b.val = none → nextStore s b.val = some p →
        (storeAllowed s b.val = true → ∃ t, exec (.storeStart b) s = .next t
            ∧ runningStore t b.val = some ⟨p, 0, pageCells s.sbg.work p, nsHas p s.sbg.autoset⟩ ∧ (∀ c, c ≠ b.val → runningStore t c = runningStore s c)
            ∧ t.sbg = { s.sbg with running := t.sbg.running } ∧ keptBut s t [.sbg])
          ∧ (storeAllowed s b.val = false → ∃ t, exec (.storeStart b) s = .next t ∧ fget t F.SBG_ERR_NO_SUPPLY 0 = 1
            ∧ regsKept s t [(F.SBG_ERR_NO_SUPPLY, 0)] ∧ keptBut s t [.regs]))
      ∧ (∀ (b : Fin 16) (r : StoreRun), runningStore s b.val = some r → r.page < 512 →
        (s.rcd.clearing = none → s.sbg.ctrWait = [] → ∃ t, exec (.saddlebagStoreComplete b true) s = .next t
            ∧ pageCells t.sbg.shadow r.page = r.image ∧ (∀ a, a / 256 ≠ r.page → tabGet blankByte t.sbg.shadow a = tabGet blankByte s.sbg.shadow a)
            ∧ t.sbg.work = s.sbg.work ∧ nsHas r.page t.sbg.written = true ∧ runningStore t b.val = none
            ∧ pageDirty t r.page = decide (pageCells s.sbg.work r.page ≠ r.image)
            ∧ fget t F.SBG_STORES_COUNT 0 = min (fget s F.SBG_STORES_COUNT 0 + 1) (fmax F.SBG_STORES_COUNT))
          ∧ (r.fails = 0 → ∃ t, exec (.saddlebagStoreComplete b false) s = .next t ∧ runningStore t b.val = some { r with fails := 1 }
            ∧ fget t F.SBG_ERR_STORE_RETRY 0 = 1 ∧ t.sbg.shadow = s.sbg.shadow ∧ t.sbg.work = s.sbg.work
            ∧ regsKept s t [(F.SBG_ERR_STORE_RETRY, 0)] ∧ keptBut s t [.sbg, .regs])
          ∧ (r.fails ≠ 0 → ∃ t, exec (.saddlebagStoreComplete b false) s = .next t ∧ runningStore t b.val = none
            ∧ pageDirty t r.page = true ∧ fget t F.SBG_ERR_STORE_FAIL 0 = 1 ∧ fget t F.SBG_UE_PAGE_FAILPAGE 0 = r.page
            ∧ t.sbg.shadow = s.sbg.shadow ∧ t.sbg.work = s.sbg.work))
      ∧ (∀ b : Fin 16, fget s F.SBG_BANK_CAP_OK 0 < 2 ^ 16 → fget s F.SBG_BANK_CAP_OK 0 / 2 ^ b.val % 2 = 0 →
        ∃ t, exec (.capacitorRecharge b) s = .next t ∧ fget t F.SBG_BANK_CAP_OK 0 = fget s F.SBG_BANK_CAP_OK 0 + 2 ^ b.val
          ∧ regsKept s t [(F.SBG_BANK_CAP_OK, 0)] ∧ keptBut s t [.regs])
      ∧ (∀ ok : Bool, ∃ t, exec (.storeSupplyThreshold ok) s = .next t ∧ fget t F.SBG_STATUS_SUPPLY_OK 0 = ok.toNat
        ∧ regsKept s t [(F.SBG_STATUS_SUPPLY_OK, 0)] ∧ keptBut s t [.regs])
      ∧ (fon s F.SBG_STATUS_REFRESH 0 = false → ∃ t, exec .refreshPassStart s = .next t
        ∧ t.gtc = max s.gtc (s.sbg.refreshDue % 2 ^ 64) ∧ fget t F.SBG_STATUS_REFRESH 0 = 1 ∧ fget t F.SBG_REFRESH_WEAK 0 = 0
        ∧ t.sbg.refreshNext = [] ∧ t.sbg.weak = [] ∧ t.sbg.refreshDue = s.sbg.refreshDue + 86400000000000
        ∧ t.sbg.shadow = s.sbg.shadow ∧ t.sbg.running = s.sbg.running ∧ keptBut s t [.gtc, .sbg, .regs]
        ∧ (scanning s = true → t.sbg.work = s.sbg.work ∧ regsKept s t [(F.SBG_STATUS_REFRESH, 0), (F.SBG_REFRESH_WEAK, 0)]))
      ∧ (∀ (p : Fin 4096) (differs : Bool), fon s F.SBG_STATUS_REFRESH 0 = true → runningStore s (pageBank p.val) = none →
        nextStore s (pageBank p.val) = none → refreshPage s (pageBank p.val) = some p.val → p.val % 256 < 254 →
        pageDirty s (p.val + 1) = false → nsHas p.val s.sbg.weak = false → ∃ t, exec (.shadowReadComplete p differs) s = .next t
          ∧ nsHas p.val t.sbg.weak = (differs || decide (pageCells s.sbg.work p.val ≠ pageCells s.sbg.shadow p.val))
          ∧ tabGet 0 t.sbg.refreshNext (pageBank p.val) = p.val % 256 + 1
          ∧ t.sbg = { s.sbg with refreshNext := t.sbg.refreshNext, weak := t.sbg.weak } ∧ keptBut s t [.sbg])

/-- The invariant: the working copy and the shadow list addresses strictly rising with no entry equal to what an unlisted byte reads as
(an erased cell, 0xFF), and the image of every running page store has that form and lies in its page. In every state that
has it, whatever command a step runs, the next state has it: stores land whole pages, and reading a byte has one meaning. -/
def Obligations.SaddlebagKeepsItsForm : Prop :=
  ∀ s t : State, sbForm s → step s = .next t → sbForm t

/-- For every state and every command: when a step answers a next state in another mode, the two modes are one of the pairs of the
table of transitions (no other transition exists). So nothing leaves OFF but for STANDBY, SERVICE is entered only from RECOVER and MAINTENANCE,
and a brake is left only for STANDBY or OFF. -/
def Obligations.ModesChangeOnlyByTheTable : Prop :=
  ∀ s t : State, step s = .next t → t.mode ≠ s.mode → modeMay s.mode t.mode = true

/-- For every state that uses the ring. A frame of any type whose CRC is not that of its bytes is counted and dropped. A good BRAKE or FAULT frame of another device that
has crossed fewer than 15 links leaves with one more hop and a delay raised by the forwarding time (510 to 514 sixteenths of a
nanosecond), IN_DELAY and a new CRC; it shows its sender, writes a PELOTON record with the sender's number, for BRAKE sets BRAKE_SEEN, and never changes the mode. A
TIME frame of the device's own back at a master gives the measured round trip. The TIME frame of a lower-numbered device, the first
heard, is followed: MASTER, EPOCH and HOPS; in STANDBY behind it the GTC steps forward by the nearest whole offset and the device is
aligned. A PRESENT frame of another device shows it heard, with its RAILS_DOWN. The first RECORD fragment for this device is gathered,
and a RECACK of the record being forwarded ends its forwarding. -/
def Obligations.RingFramesAreForwardedAndTaken : Prop :=
  ∀ (s : State) (f : RingFrame) (x : Nat), gtcOk s → ringUsed s = true →
    let o := f.origin.val
    let good (n : Nat) : Prop := f.crc = frameCrc n f
    (∀ c n, (c = .timeFrame f x ∧ n = 1) ∨ (c = .presentFrame f x ∧ n = 2) ∨ (c = .brakeFrame f ∧ n = 3) ∨ (c = .faultFrame f ∧ n = 4)
          ∨ (c = .recordFrame f ∧ n = 5) ∨ (c = .recackFrame f ∧ n = 6) → ¬ good n →
        ∃ t, exec c s = .next t ∧ fget t F.PEL_ERR_CRC 0 = 1
          ∧ fget t F.PEL_CRC_COUNT_COUNT 0 = min (fget s F.PEL_CRC_COUNT_COUNT 0 + 1) (fmax F.PEL_CRC_COUNT_COUNT)
          ∧ regsKept s t [(F.PEL_CRC_COUNT_COUNT, 0), (F.PEL_ERR_CRC, 0)] ∧ keptBut s t [.regs])
      ∧ (o ≠ devid s →
        let passed (t : State) (n d : Nat) : Prop := 510 ≤ d ∧ d ≤ 514
            ∧ t.outbox = s.outbox ++ [.ring n (withCrc n { f with
                hops := Fin.ofNat 16 (f.hops.val + 1), delay := f.delay + BitVec.ofNat 16 (d + fget s F.PEL_CFG_IN_DELAY 0) })]
            ∧ fget t F.PEL_PRESENT_HEARD 0 / 2 ^ o % 2 = 1 ∧ (n = 3 → fget t F.PEL_ERR_BRAKE_SEEN 0 = 1)
            ∧ t.rcd.landed = s.rcd.landed ++ [⟨s.gtc, 0x520, 0x0D, 6, 0, none, some o⟩]
            ∧ regsKept s t [(F.PEL_PRESENT_HEARD, 0), (F.PEL_ERR_BRAKE_SEEN, 0)] ∧ keptBut s t [.outbox, .freeIx, .regs, .rcd]
        (f.hops.val < 15 → good 3 → ∃ t d, exec (.brakeFrame f) s = .next t ∧ passed t 3 d)
          ∧ (f.hops.val < 15 → good 4 → ∃ t d, exec (.faultFrame f) s = .next t ∧ passed t 4 d)
          ∧ (good 1 → s.mode = .standby → o < devid s → isMaster s = false → s.pel.masters = [] → s.pel.dup = false →
            let g := max s.gtc (x % 2 ^ 64)
            let off := nearest16 ((f.payload.toNat * 16 + f.delay.toNat + fget s F.PEL_CFG_IN_DELAY 0 : Nat) - (g * 16 : Nat))
            0 < off → ∃ t, exec (.timeFrame f x) s = .next t ∧ fget t F.PEL_STATUS_MASTER 0 = o
              ∧ fget t F.PEL_STATUS_EPOCH 0 = f.epoch.toNat ∧ fget t F.PEL_STATUS_HOPS 0 = (f.hops.val + 1) % 16
              ∧ fget t F.PEL_STATUS_IS_MASTER 0 = 0 ∧ fget t F.PEL_STATUS_ALIGNED 0 = 1 ∧ t.gtc = (g + off.toNat) % 2 ^ 64 ∧ t.mode = .standby)
          ∧ (good 2 → tndEn s = false → ∃ t, exec (.presentFrame f x) s = .next t ∧ t.gtc = max s.gtc (x % 2 ^ 64)
            ∧ fget t F.PEL_PRESENT_HEARD 0 / 2 ^ o % 2 = 1 ∧ fget t F.PEL_PRESENT_RAILS_DOWN 0 / 2 ^ o % 2 = f.payload.toNat / 2 ^ 19 % 2
            ∧ regsKept s t [(F.PEL_PRESENT_HEARD, 0), (F.PEL_PRESENT_RAILS_DOWN, 0), (F.PEL_ERR_SLOT_MISMATCH, 0)]
            ∧ keptBut s t [.gtc, .outbox, .freeIx, .regs, .pel])
          ∧ (good 5 → f.payload.toNat % 16 = devid s → f.payload.toNat / 256 % 256 = 0 → ∃ t, exec (.recordFrame f) s = .next t
            ∧ tabGet [] t.rcd.gather o = leBytes 6 (f.payload.toNat / 2 ^ 16) ∧ keptBut s t [.outbox, .freeIx, .rcd])
          ∧ (∀ (r : Rcd) (n y : Nat), s.rcd.fwd = some (r, n, y) → s.rcd.fwdWait = [] → good 6 → f.payload.toNat % 16 = devid s →
            f.payload.toNat / 16 % 2 ^ 32 = r.seq % 2 ^ 32 → ∃ t, exec (.recackFrame f) s = .next t
              ∧ t.rcd = { s.rcd with fwd := none } ∧ keptBut s t [.outbox, .freeIx, .rcd]))
      ∧ (good 1 → o = devid s → isMaster s = true → ∃ t, exec (.timeFrame f x) s = .next t ∧ t.gtc = max s.gtc (x % 2 ^ 64)
        ∧ t.pel = { s.pel with ownReturn := t.gtc } ∧ fget t F.PEL_RTT_MEASURED 0 = min ((t.gtc - f.payload.toNat) * 16) 65535
        ∧ regsKept s t [(F.PEL_RTT_MEASURED, 0), (F.PEL_RTT_DECLARED, 0), (F.PEL_ERR_DELAY_CHECK, 0)] ∧ keptBut s t [.gtc, .pel, .regs])

/-- For every state that uses the ring. A master's TIME_FRAME_SEND sends a TIME frame that carries the GTC, 16 ticks after the last; every
device's PRESENT_FRAME_SEND sends its PRESENT payload. MASTER_LOSS_TIMEOUT of the only master heard, by a device that shares its number with
none, after the first millisecond, sets MASTER_LOST and makes the device master of a new time base whose count is that master's plus one
(0 to 14, wrapping). MASTER_CLAIM_WINDOW_END of a device that has heard no master and no lower-numbered device makes it
master. OWN_TIME_FRAME_RETURN_TIMEOUT of a master sets SPLIT, 16 µs after its last return; SPLIT_CLEAR of another device clears it, 256 µs
after the last TIME frame of another EPOCH. PRESENT_HEARD_EXPIRY clears the device's HEARD bit 256 µs after its last frame. -/
def Obligations.RingTimersKeepTimeAndPresence : Prop :=
  ∀ s : State, gtcOk s → ringUsed s = true → devid s < 16 →
    let frame (type payload : Nat) : RingFrame := withCrc type
      ⟨Fin.ofNat 16 (devid s), 0, BitVec.ofNat 8 (fget s F.PEL_STATUS_EPOCH 0), BitVec.ofNat 64 payload, 0, 0⟩
    let master (t : State) : Prop :=
      fget t F.PEL_STATUS_IS_MASTER 0 = 1 ∧ fget t F.PEL_STATUS_MASTER 0 = devid s ∧ fget t F.PEL_STATUS_ALIGNED 0 = 1
        ∧ t.mode = s.mode ∧ t.med = s.med
    (isMaster s = true → ∃ t, exec .timeFrameSend s = .next t ∧ t.gtc = max s.gtc ((s.pel.lastSend / 250 + 16) * 250 % 2 ^ 64)
        ∧ t.outbox = s.outbox ++ [.ring 1 (frame 1 t.gtc)] ∧ t.pel = { s.pel with lastSend := t.gtc } ∧ keptBut s t [.gtc, .pel, .outbox])
      ∧ exec .presentFrameSend s = .next { s with outbox := s.outbox ++ [.ring 2 (frame 2 (presentWord s))] }
      ∧ (∀ (m : Nat) (h : Heard), isMaster s = false → s.pel.masters = [(m, h)] → fget s F.PEL_STATUS_MASTER 0 = m → s.pel.dup = false →
        s.pel.claimOpen = false → ∃ t, exec .masterLossTimeout s = .next t
          ∧ t.gtc = max s.gtc ((h.stamp + 16000) % 2 ^ 64) ∧ fget t F.PEL_ERR_MASTER_LOST 0 = 1 ∧ master t
          ∧ fget t F.PEL_STATUS_EPOCH 0 = (h.epoch / 16 + 1) % 15 * 16 + devid s)
      ∧ (isMaster s = false → s.pel.claimOpen = true → s.pel.dup = false → s.pel.masters = [] → (∀ p ∈ s.pel.present, devid s ≤ p.1) →
        ∃ t, exec .masterClaimWindowEnd s = .next t ∧ t.gtc = max s.gtc ((s.pel.startAt + 1000000) % 2 ^ 64) ∧ master t
          ∧ t.pel.claimOpen = false)
      ∧ (isMaster s = true → ∃ t, exec .ownTimeFrameReturnTimeout s = .next t ∧ t.gtc = max s.gtc ((s.pel.ownReturn + 16000) % 2 ^ 64)
        ∧ (fget s F.PEL_STATUS_SPLIT 0 ≤ 1 → fget t F.PEL_STATUS_SPLIT 0 = 1) ∧ regsKept s t [(F.PEL_STATUS_SPLIT, 0)]
        ∧ keptBut s t [.gtc, .regs, .rcd])
      ∧ (isMaster s = false → fget s F.PEL_STATUS_SPLIT 0 = 1 → ∃ t, exec .splitClear s = .next t
        ∧ t.gtc = max s.gtc ((s.pel.otherEpochAt + 256000) % 2 ^ 64) ∧ fget t F.PEL_STATUS_SPLIT 0 = 0
        ∧ regsKept s t [(F.PEL_STATUS_SPLIT, 0)] ∧ keptBut s t [.gtc, .regs])
      ∧ ∀ (d : Devid) (p : Present), s.pel.present = [(d.val, p)] → ∃ t, exec (.presentHeardExpiry d) s = .next t
          ∧ t.gtc = max s.gtc ((p.stamp + 256000) % 2 ^ 64) ∧ fget t F.PEL_PRESENT_HEARD 0 / 2 ^ d.val % 2 = 0
          ∧ regsKept s t [(F.PEL_PRESENT_HEARD, 0)] ∧ keptBut s t [.gtc, .regs]

/-- For every state with the core powered. A tandem member whose port has trained at x4 and 64 GT/s sends CONFIG and waits for the
partner's. A CONFIG that does not match sets MISMATCH; one that shows both sides writable sets CONFLICT; one that matches brings
the link up with the partner's regions. On a link that is up, TANDEM_LINK_DOWN, TANDEM_MESSAGE_TIMEOUT (4 µs after the last
message) and MACK_DEADLINE of a waiting store (MACK_TIMEOUT) lose it: LINK lost, every waiting store acknowledged with its extent divergent, no
credits, the port in electrical idle. ELECTRICAL_IDLE_END, 100 µs later, lets it train again. HB_SEND sends HB; HB and QUIESCE keep the instant,
and whether it was a QUIESCE. ROLE: a request makes promoted copies read-only again and is acknowledged; the acknowledgement makes a demoted
owner's regions writable (the two byte values are presumed, log entry 43). -/
def Obligations.TandemLinkComesUpAndIsLost : Prop :=
  ∀ s : State, gtcOk s → coreOn s = true →
    let link := fget s F.TND_STATUS_LINK 0
    let lost (t : State) : Prop :=
      fget t F.TND_STATUS_LINK 0 = 4 ∧ fget t F.TND_ERR_LINK_LOST 0 = 1 ∧ t.tnd.waiting = [] ∧ t.tnd.idle = true
        ∧ (∀ w ∈ s.tnd.waiting, extentDivergent t (extentOf w.2.1) = true ∧ ∀ c ∈ t.sched.ctxs, c.tag = w.1 → c.st ≠ .mirror)
        ∧ fget t F.TND_CREDIT_HELD 0 = 0 ∧ fget t F.TND_CREDIT_GRANTED 0 = 0 ∧ Emission.tandemIdle ∈ t.outbox
        ∧ t.mode = s.mode ∧ t.med = s.med ∧ t.cache = s.cache
    (tndEn s = true → s.tnd.idle = false → link = 1 ∨ link = 4 → ∃ t, exec (.tandemLinkUp true) s = .next t
        ∧ fget t F.TND_STATUS_LINK 0 = 2 ∧ t.outbox = s.outbox ++ [.tandem (.config (ownConfig s))]
        ∧ t.tnd = { s.tnd with configSent := true, lastMsg := s.gtc }
        ∧ regsKept s t [(F.TND_STATUS_LINK, 0)] ∧ keptBut s t [.regs, .tnd, .outbox])
      ∧ (link = 2 → ∀ m : ConfigMsg,
        (configMatches s m = false → ∃ t, exec (.config m) s = .next t ∧ fget t F.TND_STATUS_LINK 0 = 5 ∧ fget t F.TND_ERR_MISMATCH 0 = 1
            ∧ keptBut s t [.regs, .tnd])
          ∧ (configMatches s m = true → bothWritable s m = true → ∃ t, exec (.config m) s = .next t
            ∧ fget t F.TND_STATUS_LINK 0 = 6 ∧ fget t F.TND_ERR_CONFLICT 0 = 1 ∧ t.mode = s.mode)
          ∧ (configMatches s m = true → bothWritable s m = false → ∃ t, exec (.config m) s = .next t
            ∧ fget t F.TND_STATUS_LINK 0 = 3 ∧ t.tnd.peerRegions = m.bitmap ∧ t.tnd.peerBase = m.mirrorBase.toNat
            ∧ t.tnd.configGood = true ∧ t.mode = s.mode ∧ t.med = s.med ∧ t.cache = s.cache))
      ∧ (link = 3 →
        (∃ t, exec .tandemLinkDown s = .next t ∧ lost t)
          ∧ (∃ t, exec .tandemMessageTimeout s = .next t ∧ lost t ∧ t.gtc = max s.gtc ((s.tnd.lastMsg + 4000) % 2 ^ 64))
          ∧ (∀ w ∈ s.tnd.waiting, (∀ v ∈ s.tnd.waiting, v.1 = w.1 → v = w) → ∃ t, exec (.mackDeadline w.1) s = .next t ∧ lost t
            ∧ fget t F.TND_ERR_MACK_TIMEOUT 0 = 1 ∧ t.gtc = max s.gtc (w.2.2 % 2 ^ 64))
          ∧ exec .hbSend s = .next { s with outbox := s.outbox ++ [.tandem .hb] }
          ∧ exec .hb s = .next { s with tnd := { s.tnd with lastMsg := s.gtc, lastQuiesce := false } }
          ∧ exec .quiesce s = .next { s with tnd := { s.tnd with lastMsg := s.gtc, lastQuiesce := true } }
          ∧ (fget s F.TND_STATUS_PEER_COPY 0 = 3 → ∃ t, exec (.role 0) s = .next t ∧ fget t F.TND_STATUS_PEER_COPY 0 = 1
            ∧ t.tnd.promoted = false ∧ t.outbox = s.outbox ++ [.tandem (.role 1)] ∧ t.med = s.med ∧ t.cache = s.cache)
          ∧ (fget s F.TND_STATUS_OWN 0 = 2 → s.tnd.roleSent = true → ∃ t, exec (.role 1) s = .next t ∧ fget t F.TND_STATUS_OWN 0 = 0
            ∧ t.tnd.roleSent = false ∧ t.outbox = s.outbox ∧ t.med = s.med ∧ t.cache = s.cache))
      ∧ (s.tnd.idle = true → link = 4 → ∃ t, exec .electricalIdleEnd s = .next t ∧ fget t F.TND_STATUS_LINK 0 = 1
        ∧ t.gtc = max s.gtc ((s.tnd.idleAt + 100000) % 2 ^ 64) ∧ t.tnd = { s.tnd with idle := false }
        ∧ regsKept s t [(F.TND_STATUS_LINK, 0)] ∧ keptBut s t [.gtc, .regs, .tnd])

/-- For every state in SERVICE with the tandem link up and no QUIESCE due. MWR to a slot held for the partner, whose line the cache holds
on no dead slot, stores the sector, dirty, takes one granted credit and sends MACK with its tag. MACK of a waiting store
takes it off the list, lets it be answered and counts it. MCRED adds its credits. MREL releases the same extent of
the slot, again where it was released before (at a device that is not demoted). RSYNC stores a whole line that no MWR has written since. RDONE of a slot that is not received here clears at its primary the divergence of its extent, as long as others remain nothing
else; with the last, DIVERGED clears and the resynchronisation is done. -/
def Obligations.MirroredDataMoves : Prop :=
  ∀ s : State, gtcOk s → s.mode = .service → coreOn s = true → tndUp s = true → s.tnd.quiesceDue = false →
    (∀ (m : MwrMsg) (loc : Nat),
        let line := storeLineNo s m.slot.toNat m.line.toNat
        let i := m.sect.toNat % 4
        slotHeld s m.slot.toNat = true → fget s F.TND_CREDIT_GRANTED 0 < 2 ^ 10 → locate s line = some loc → lineDead s line = false → nsHas line s.med.restored = false →
        ∃ t, exec (.mwr m) s = .next t ∧ lineGet (locData t loc) i = m.data ∧ (locSv t loc).getLsbD i = true ∧ (locSp t loc).getLsbD i = false
          ∧ locDirty t loc = true ∧ (∀ j < 4, j ≠ i → lineGet (locData t loc) j = lineGet (locData s loc) j)
          ∧ fget t F.TND_CREDIT_GRANTED 0 = fget s F.TND_CREDIT_GRANTED 0 - 1 ∧ t.outbox = s.outbox ++ [.tandem (.mack m.tag)]
          ∧ (∀ n, n ≠ loc → dirAt t n = dirAt s n) ∧ regsKept s t [(F.TND_CREDIT_GRANTED, 0)]
          ∧ keptBut s t [.cache, .regs, .tnd, .outbox, .host])
      ∧ (∀ tag : BitVec 16, (∃ w ∈ s.tnd.waiting, w.1 = tag) → ∃ t, exec (.mack tag) s = .next t
        ∧ t.tnd.waiting = s.tnd.waiting.filter (fun w => w.1 != tag) ∧ (∀ c ∈ t.sched.ctxs, c.tag = tag → c.st ≠ .mirror)
        ∧ fget t F.TND_MIRRORED_COUNT 0 = min (fget s F.TND_MIRRORED_COUNT 0 + 1) (fmax F.TND_MIRRORED_COUNT)
        ∧ regsKept s t [(F.TND_MIRRORED_COUNT, 0)] ∧ keptBut s t [.sched, .tnd, .regs])
      ∧ (∀ n : BitVec 16, ∃ t, exec (.mcred n) s = .next t
        ∧ fget t F.TND_CREDIT_HELD 0 = min (fget s F.TND_CREDIT_HELD 0 + n.toNat) (fmax F.TND_CREDIT_HELD)
        ∧ regsKept s t [(F.TND_CREDIT_HELD, 0)] ∧ keptBut s t [.tnd, .regs])
      ∧ (∀ slot extent : BitVec 16, let e := (fget s F.TND_CFG_MIRROR_BASE 0 + slot.toNat) * 512 + extent.toNat % 512
        slotHeld s slot.toNat = true → fget s F.TND_STATUS_OWN 0 ≠ 2 → ∃ t, exec (.mrel slot extent) s = .next t
          ∧ bmGet t.med.released e = true ∧ (∀ x, x ≠ e → bmGet t.med.released x = bmGet s.med.released x)
          ∧ t.med.lines = s.med.lines ∧ t.mode = .service)
      ∧ (∀ (m : RsyncMsg) (loc : Nat),
        let line := slotFirst s m.slot.toNat + m.line.toNat % 4194304
        takesResync s m.slot.toNat = true → nsHas line s.tnd.mwrSince = false → locate s line = some loc → lineDead s line = false →
        nsHas line s.med.restored = false → ∃ t, exec (.rsync m) s = .next t ∧ locData t loc = m.data ∧ locSv t loc = 15 ∧ locSp t loc = m.sp
          ∧ locDirty t loc = true ∧ (∀ n, n ≠ loc → dirAt t n = dirAt s n) ∧ keptBut s t [.cache, .tnd, .host])
      ∧ (∀ slot extent : BitVec 16, let e := s.tnd.own.getD slot.toNat 0 * 512 + extent.toNat % 512
        slot.toNat < s.tnd.own.length → fget s F.TND_STATUS_OWN 0 = 0 → takesResync s slot.toNat = false → s.tnd.divergeAll = false →
        nsHas e s.tnd.divergent = true → ∃ t, exec (.rdone slot extent) s = .next t ∧ nsHas e t.tnd.divergent = false
          ∧ (nsDel e s.tnd.divergent ≠ [] → keptBut s t [.tnd])
          ∧ (nsDel e s.tnd.divergent = [] → fget t F.TND_STATUS_DIVERGED 0 = 0 ∧ fget t F.TND_STATUS_RESYNC 0 = 0
            ∧ fget t F.TND_ERR_RESYNC_DONE 0 = 1))

/-- For every state in which the command reaches its meaning (free transport, the hub answers, no gate against it): each of
IDENTIFY, BACKGROUND_OPERATION_STATUS, GET_EVENT_RECORDS, GET_EVENT_INTERRUPT_POLICY, GET_FW_INFO, GET_TIMESTAMP,
GET_SUPPORTED_LOGS, GET_LOG, IDENTIFY_MEMORY_DEVICE, GET_PARTITION_INFO, GET_LSA, GET_HEALTH_INFO, GET_ALERT_CONFIGURATION,
GET_SHUTDOWN_STATE, GET_POISON_LIST, GET_SCAN_MEDIA_CAPABILITIES and GET_SCAN_MEDIA_RESULTS with a well-formed input completes
with Success, its payload sent on its transport and shown by its mailbox, and no other change. SET_PARTITION_INFO and any
unlisted standard opcode end with return code 3, an unlisted vendor opcode with NOT_OFFERED. (The CXL layouts are the model's,
log 45; the status byte of a running operation is 1 plus twice its per cent; GET_LSA reads the working copy; the time is what
the host set, counted on.) -/
def Obligations.StandardQueriesAnswer : Prop :=
  ∀ (s : State) (via : Transport) (input : List Byte),
    let ok (op : Nat) (out : List Byte) : State := ended s via op ⟨0, 0⟩ out
    (reaches s via 0x0001 .any → exec (.identify via []) s = .next (ok 0x0001 (leBytes 2 0x1F9D ++ leBytes 2 (Config.deviceId s.config)
        ++ leBytes 4 (subsystem s)
        ++ leBytes 8 s.serial.toNat ++ [if via = .mctp then 12 else 16, 3])))
      ∧ (s.mbx.bg = none → s.mbx.last = none → (reaches s via 0x0002 .any →
          exec (.backgroundOperationStatus via []) s = .next (ok 0x0002 (leBytes 8 0))))
      ∧ (∀ b, s.mbx.bg = some b → (reaches s via 0x0002 .any → exec (.backgroundOperationStatus via []) s
          = .next (ok 0x0002 (leBytes 1 (1 + 2 * bgPct s) ++ [0] ++ leBytes 2 b.opcode
          ++ leBytes 2 0 ++ leBytes 2 (if b.opcode ∈ [0x0201, 0x0202, 0x4400, 0x4401, 0xC004] then 1 else 0)))))
      ∧ (∀ op r out, s.mbx.bg = none → s.mbx.last = some (op, r, out) →
          (reaches s via 0x0002 .any → exec (.backgroundOperationStatus via []) s = .next (ok 0x0002 (leBytes 1 200 ++ [0] ++ leBytes 2 op
              ++ leBytes 2 r.rc ++ leBytes 2 0))))
      ∧ (∀ (log : Fin 4) (l : EventLog), tabGet logReset s.host.logs log.val = l → l.overflow = false → l.lost = 0 →
          (reaches s via 0x0100 .any → exec (.getEventRecords via [BitVec.ofNat 8 log.val]) s = .next (ok 0x0100 (List.replicate 20 0
              ++ leBytes 2 l.recs.length ++ List.replicate 10 0 ++ l.recs.flatMap (eventRecord s log.val)))))
      ∧ (reaches s via 0x0102 .any → exec (.getEventInterruptPolicy via []) s = .next (ok 0x0102 (policyOut s)))
      ∧ (reaches s via 0x0200 .any → exec (.getFwInfo via []) s = .next (ok 0x0200 (fwInfo s)))
      ∧ (s.host.timestamp = 0 → (reaches s via 0x0300 .any → exec (.getTimestamp via []) s = .next (ok 0x0300 (leBytes 8 0))))
      ∧ (s.host.timestamp ≠ 0 → s.host.timestampGtc ≤ s.gtc →
          (reaches s via 0x0300 .any → exec (.getTimestamp via []) s
              = .next (ok 0x0300 (leBytes 8 ((s.host.timestamp + (s.gtc - s.host.timestampGtc)) % 2 ^ 64)))))
      ∧ (reaches s via 0x0400 .any → exec (.getSupportedLogs via []) s = .next (ok 0x0400 ([1, 0] ++ List.replicate 6 0 ++ effectsUuid
          ++ leBytes 4 effectsLog.length)))
      ∧ (input.length = 24 → input.take 16 = effectsUuid → leAt 16 4 input + leAt 20 4 input ≤ effectsLog.length →
          (reaches s via 0x0401 .any → exec (.getLog via input) s = .next (ok 0x0401 ((effectsLog.drop (leAt 16 4 input)).take (leAt 20 4 input)))))
      ∧ (reaches s via 0x4000 .any → exec (.identifyMemoryDevice via []) s = .next (ok 0x4000 (memoryDevice s)))
      ∧ (reaches s via 0x4100 .any → exec (.getPartitionInfo via []) s = .next (ok 0x4100 (leBytes 8 0 ++ leBytes 8 (totalUnits s)
          ++ List.replicate 16 0)))
      ∧ (input.length = 8 → leAt 0 4 input + leAt 4 4 input ≤ 131072 → leAt 4 4 input ≤ 65536 →
          (reaches s via 0x4102 .any → exec (.getLsa via input) s
              = .next (ok 0x4102 ((List.range (leAt 4 4 input)).map (fun i => sbByte s (leAt 0 4 input + i))))))
      ∧ (reaches s via 0x4200 .any → exec (.getHealthInfo via []) s = .next (ok 0x4200 (healthOut s)))
      ∧ (reaches s via 0x4201 .any → exec (.getAlertConfiguration via []) s = .next (ok 0x4201 (alertOut s)))
      ∧ (reaches s via 0x4203 .any → exec (.getShutdownState via []) s = .next (ok 0x4203 (leBytes 1 ((storedWord s (3280 * 256 + 4)).getD 0))))
      ∧ (input.length = 16 → s.host.poisonList = [] → s.host.poisonOverflow = none → bgOf s 0x4304 = none →
          (reaches s via 0x4300 .any → exec (.getPoisonList via input) s = .next (ok 0x4300 (List.replicate 32 0))))
      ∧ (∀ r : PoisonRec, input.length = 16 → s.host.poisonList = [r] → s.host.poisonOverflow = none → bgOf s 0x4304 = none →
          leAt 0 8 input / 64 * 64 < r.dpa + 64 * r.len → r.dpa < leAt 0 8 input / 64 * 64 + 64 * leAt 8 8 input →
          (reaches s via 0x4300 .any → exec (.getPoisonList via input) s = .next (ok 0x4300 (List.replicate 10 0 ++ [1, 0] ++ List.replicate 20 0
            ++ leBytes 8 (r.dpa / 64 * 64 + r.source % 8) ++ leBytes 4 r.len ++ List.replicate 4 0))))
      ∧ (input.length = 16 → scanRange s input = true →
          (reaches s via 0x4303 .any → exec (.getScanMediaCapabilities via input) s
              = .next (ok 0x4303 (leBytes 4 (Config.scanEstimate (scanLines input).2)))))
      ∧ (reaches s via 0x4305 .any → exec (.getScanMediaResults via []) s = .next (ok 0x4305 (scanOut s)))
      ∧ (reaches s via 0x4101 .any →
          exec (.setPartitionInfo via input) s = .next (ended s via 0x4101 ⟨3, 0⟩ []))
      ∧ (∀ o : BitVec 16, reaches s via o.toNat .any → exec (.unsupportedOpcode via o) s
          = .next (if o.toNat < 0xC000 then ended s via o.toNat ⟨3, 0⟩ [] else ended s via o.toNat ⟨3, 0x0107⟩ [0x07, 0x01, 0, 0]))

/-- For every state in which the command reaches its meaning, at the hub or (for those of the AON endpoint) in STANDBY and the
hold: GET_DEVICE_STATUS, GET_LEDGER_STATUS, READ_RECORDS, READ_CURSOR, READ_REGISTERS, GET_SERVICE_CONFIG,
GET_BACKGROUND_RESULT, GET_RAIL_CONFIG, GET_SNAPSHOT_LIST, READ_PAGES, GET_CONVERTER_CONFIG, GET_CACHE_STATUS,
GET_RELEASE_BITMAP, GET_MEDIA_STATUS, GET_PELOTON_STATUS and GET_TANDEM_STATUS with a well-formed input complete with Success,
their payload, and no other change. The payloads hold the registers that the tables name, by their pass-through addresses for
media, peloton and tandem status; a page read of up to 256 bytes wraps within its page; READ_REGISTERS of addresses that are no
FIFO2 gives each word, 0 and counted where unmapped or unpowered; the device status is 48 bytes with configuration, mode, serial
number, nonce (zeros here) and GTC in place. A part beyond 3 and an unsupported argument are not covered here. -/
def Obligations.VendorQueriesAnswer : Prop :=
  ∀ (s : State) (via : Transport),
    let ok (op : Nat) (out : List Byte) : State := ended s via op ⟨0, 0⟩ out
    let words (as : List Nat) : List Byte := as.flatMap (fun a => leBytes 4 ((viewWord s a).getD 0))
    let regs (fs : List Fld) (i : Nat) : List Byte := fs.flatMap (fun f => leBytes 4 (regWord s f i))
    (reaches s via 0xC000 .any → ∃ out, exec (.getDeviceStatus via [0, 0, 0, 0]) s
          = .next (ended s via 0xC000 ⟨0, 0⟩ out)
        ∧ out.length = 48 ∧ leAt 0 1 out = Config.configByte s.config ∧ leAt 1 1 out = modeCode s.mode ∧ leAt 8 8 out = s.serial.toNat
        ∧ leAt 24 16 out = 0 ∧ leAt 40 8 out = s.gtc ∧ (coreOn s = false → leAt 2 1 out = 0 ∧ leAt 4 4 out = 0))
      ∧ (reaches s via 0xC040 .any → exec (.getLedgerStatus via []) s = .next (ok 0xC040 (words ((List.range 25).map (fun i => 0xA0000 + 4 * i))
          ++ (if coreOn s then leBytes 4 s.led.eBase ++ leBytes 4 s.led.eCover else List.replicate 8 0))))
      ∧ (∀ first count : Nat, first + count ≤ 2176 → first < 2176 → count ≤ entryLimit via →
          (reaches s via 0xC020 .any → exec (.readRecords via (leBytes 2 first
              ++ leBytes 2 count)) s = .next (ok 0xC020 (readHeader s (first + count) count
              ++ (List.range count).flatMap (fun i => slotEntry s (first + i) none)))))
      ∧ (∀ cur n : Nat, cur < 2 ^ 32 → n ≤ entryLimit via → (∀ x ∈ circRecords s, x.2 < cur) → s.rcd.vring = [] →
          (reaches s via 0xC021 .any → exec (.readCursor via (leBytes 4 cur ++ leBytes 2 n)) s = .next (ok 0xC021 (readHeader s cur 0))))
      ∧ (∀ cur slot seq : Nat, cur < 2 ^ 32 → circRecords s = [(slot, seq)] → slot ∈ writeOrder s → cur ≤ seq → s.rcd.vring = [] →
          (reaches s via 0xC021 .any → exec (.readCursor via (leBytes 4 cur ++ [1, 0])) s = .next (ok 0xC021 (readHeader s (seq + 1) 1
              ++ slotEntry s slot (slotSeq s slot)))))
      ∧ (∀ as : List Nat, as ≠ [] → 4 + 4 * as.length ≤ payloadMax via → (∀ a ∈ as, a < 2 ^ 24 ∧ a % 4 = 0) → endpoint s via = .hub →
          (∀ a ∈ as, ∀ r n, regAt a = some (r, n) → r.base ≠ F.MCVn_FIFO2_WORD.base) →
          (reaches s via 0xC0F0 .any → exec (.readRegisters via (leBytes 2 as.length ++ [0, 0]
              ++ as.flatMap (leBytes 4))) s = .next (ok 0xC0F0 (leBytes 4 (as.filter (fun a => (viewWord s a).isNone)).length ++ words as))))
      ∧ (reaches s via 0xC008 .hub → exec (.getServiceConfig via []) s
          = .next (ok 0xC008 (serviceRegs.flatMap (fun f => leBytes 4 (regStored s f 0)))))
      ∧ (s.mbx.last = none → (reaches s via 0xC00F .hub → exec (.getBackgroundResult via []) s = .next (ok 0xC00F (List.replicate 8 0))))
      ∧ (∀ op r out, s.mbx.last = some (op, r, out) →
          (reaches s via 0xC00F .hub → exec (.getBackgroundResult via []) s = .next (ok 0xC00F (leBytes 2 op ++ leBytes 2 r.rc ++ [0, 0, 0, 0]
              ++ out))))
      ∧ (∀ t < 2, (reaches s via 0xC010 .hub → exec (.getRailConfig via [BitVec.ofNat 8 t, 0, 0, 0]) s
          = .next (ok 0xC010 ((List.range 64).flatMap (fun k => leBytes 4 ((storedWord s ((768 + t) * 256 + 4 * k)).getD 0))))))
      ∧ (reaches s via 0xC010 .hub → exec (.getRailConfig via [2, 0, 0, 0]) s
          = .next (ok 0xC010 ((List.range 32).flatMap (fun c => regs chanRegs c))))
      ∧ (reaches s via 0xC010 .hub → exec (.getRailConfig via [3, 0, 0, 0]) s
          = .next (ok 0xC010 ((List.range 8).flatMap (fun g => regs [F.SEQ_GANGg_MEMBERS] g)
          ++ regs [F.SEQ_IN_CFG_VIN_FALL, F.SEQ_INRUSH_BUDGET, F.SEQ_CFG_PU_TABLE] 0)))
      ∧ (∀ c < 8, (reaches s via 0xC022 .hub → exec (.getSnapshotList via [BitVec.ofNat 8 c, 0, 0, 0]) s
          = .next (ok 0xC022 ((listWords s c).flatMap (leBytes 4) ++ leBytes 2 (listId s c)))))
      ∧ (∀ page off n : Nat, page < 4033 → off < 256 → 0 < n → n ≤ 256 →
          (reaches s via 0xC028 .hub → exec (.readPages via (leBytes 2 page ++ leBytes 1 off ++ [0]
              ++ leBytes 4 n)) s = .next (ok 0xC028 ((List.range n).map (fun i => sbByte s (256 * page + (off + i) % 256))))))
      ∧ (∀ n < 8, (reaches s via 0xC030 .hub → exec (.getConverterConfig via [BitVec.ofNat 8 n, 0, 0, 0]) s
          = .next (ok 0xC030 (regs [F.MCVn_CFG_SPACING, F.MCVn_TRIG_SRC] n
          ++ (List.range 32).flatMap (fun j => regs [F.MCVn_SLOTj_CH0] (32 * n + j)) ++ regs [F.MCVn_CAL_OFFSET] n))))
      ∧ (reaches s via 0xC050 .hub → exec (.getCacheStatus via []) s = .next (ok 0xC050 (words [0x80000, 0x80004]
          ++ (List.range (Config.wheels s.config)).flatMap (fun n =>
          regs [F.CCHn_STATUS_DIRTY, F.CCHn_LOCKED_COUNT, F.CCHn_WAY_OFF_COUNT, F.CCHn_WAY_PERM_COUNT] n))))
      ∧ (∀ a n : Nat, a % 8 = 0 → n % 8 = 0 → a + n ≤ Config.extents s.config → n / 8 ≤ payloadMax via →
          (reaches s via 0xC061 .hub → exec (.getReleaseBitmap via (leBytes 4 a
              ++ leBytes 4 n)) s = .next (ok 0xC061 ((List.range (n / 8)).flatMap (fun i => leBytes 1 (bitsOf 8 (fun b => bmGet s.med.released (a + 8 * i + b))))))))
      ∧ (reaches s via 0xC062 .hub → exec (.getMediaStatus via []) s = .next (ok 0xC062 (words [0x100, 0x104, 0x108, 0x10C, 0x110, 0x114, 0x118])))
      ∧ (reaches s via 0xC070 .hub → exec (.getPelotonStatus via []) s
          = .next (ok 0xC070 (words [0xCA000, 0xCA004, 0xCA008, 0xCA00C, 0xCA010, 0xCA014])))
      ∧ (reaches s via 0xC072 .hub → exec (.getTandemStatus via []) s
          = .next (ok 0xC072 (words [0xA2000, 0xA2004, 0xA2008, 0xA200C, 0xA2010, 0xA2014, 0xA2018, 0xA201C]
          ++ leBytes 8 s.tnd.serial.toNat ++ regionBytes s.tnd.own)))

/-- For every state in which the command reaches its meaning and no page it stores to is protected, with an input that passes
its checks: SET_SERVICE_CONFIG, SET_RAIL_TABLE, SET_RAIL_CHANNEL, SET_RAIL_GLOBALS, SET_SNAPSHOT_LIST, WRITE_PAGES,
SET_CONVERTER_SCHEDULE, SET_INPUT_CONFIG, SET_LEDGER_CONFIG, SET_PATROL, SET_PELOTON_CONFIG, SET_TANDEM_CONFIGURATION, SET_LSA,
SET_SHUTDOWN_STATE, SET_CACHE_MODE_NORMAL, SET_SCRATCH_CARVE_OUT, ACTIVATE_FW offline and SET_OWNER_KEY without a stored key
complete with exactly their bytes in the working copy at their place (of register images only the RW fields; a word of all ones
is in none of them), each dirty page of theirs requested, and the answer sent at once when none of those pages is dirty, else
held until they are stored; the registers loaded from them follow by the tick after. Nothing else changes but, for the cache
mode and the carve-out, their CCH_MODE fields; a bypass left serves on until the next tick. Where two ranges are written
(tandem, key copies) both read as given. The places of words that the manual leaves open are the model's (log 8, log 13). -/
def Obligations.StoredSettingsAreWritten : Prop :=
  ∀ (s : State) (via : Transport) (input : List Byte),
    let may (op : Nat) (acc : Accept) (a n : Nat) : Prop := reaches s via op acc ∧ rangeProtected s a n = false
    let stored (u : State) (op a : Nat) (bs : List Byte) (reload : List (Nat × Nat)) (out : List Byte) : Prop :=
      wrote s u a bs ∧ endsStored s u via op (pagesOf a bs.length) reload out ∧ keptBut s u [.sbg, .mbx, .outbox]
    let ws (n off : Nat) : List Nat := wordsOf n (input.drop off)
    (input.length = 28 → imagesOk serviceRegs (ws 7 0) = true →
        (may 0xC009 .working (816 * 256) (List.length (imagesRw serviceRegs (ws 7 0))) → ∃ u, exec (.setServiceConfig via input) s = .next u
            ∧ stored u 0xC009 (816 * 256) (imagesRw serviceRegs (ws 7 0)) [(816 * 256, 28)] []))
      ∧ (∀ t < 2, input.length = 260 → input.take 4 = [BitVec.ofNat 8 t, 0, 0, 0] →
          noneBlank (ws 64 4) = true → railsAllowed (asStored ((768 + t) * 256) (input.drop 4) s) = true →
          (may 0xC011 .working ((768 + t) * 256) (List.length (input.drop 4)) → ∃ u, exec (.setRailTable via input) s = .next u
              ∧ stored u 0xC011 ((768 + t) * 256) (input.drop 4) [] (pathsOut (asStored ((768 + t) * 256) (input.drop 4) s))))
      ∧ (∀ c < 32, input.length = 28 → input.take 4 = [BitVec.ofNat 8 c, 0, 0, 0] → imagesOk chanRegs (ws 6 4) = true →
          railsAllowed (asStored (770 * 256 + 64 * c) (imagesRw chanRegs (ws 6 4)) s) = true →
          (may 0xC012 .working (770 * 256 + 64 * c) (List.length (imagesRw chanRegs (ws 6 4))) → ∃ u, exec (.setRailChannel via input) s = .next u
              ∧ stored u 0xC012 (770 * 256 + 64 * c) (imagesRw chanRegs (ws 6 4)) [] (pathsOut (asStored (770 * 256 + 64 * c) (imagesRw chanRegs (ws 6 4)) s))))
      ∧ (input.length = 44 → imagesOk globalRegs (ws 11 0) = true → railsAllowed (asStored (778 * 256) (imagesRw globalRegs (ws 11 0)) s) = true →
          (may 0xC013 .working (778 * 256) (List.length (imagesRw globalRegs (ws 11 0))) → ∃ u, exec (.setRailGlobals via input) s = .next u
              ∧ stored u 0xC013 (778 * 256) (imagesRw globalRegs (ws 11 0)) [] (pathsOut (asStored (778 * 256) (imagesRw globalRegs (ws 11 0)) s))))
      ∧ (∀ c < 8, input.length = 108 → input.take 4 = [BitVec.ofNat 8 c, 0, 0, 0] →
          (∀ e ∈ ws 26 4, e = 0xFFFFFFFF ∨ e < 2 ^ 28) → let id := if listStored s c ∧ listId s c < 0xFFFE then listId s c + 1 else 1
          (may 0xC024 .working ((800 + c / 2) * 256 + 128 * (c % 2)) (List.length (input.drop 4 ++ leBytes 2 id)) →
              ∃ u, exec (.setSnapshotList via input) s = .next u ∧ stored u 0xC024 ((800 + c / 2) * 256 + 128 * (c % 2)) (input.drop 4
              ++ leBytes 2 id) [] (leBytes 2 id)))
      ∧ (∀ page off : Nat, ∀ data : List Byte, (page < 512 ∨ 800 ≤ page ∧ page < 960) → 0 < data.length → off + data.length ≤ 256 →
          wordsStand page off data (afterPages page off data s) = true → (may 0xC029 .maintenance (256 * page + off) data.length →
              ∃ u, exec (.writePages via (leBytes 2 page ++ leBytes 1 off ++ [0] ++ leBytes 4 data.length ++ data)) s = .next u
              ∧ stored u 0xC029 (256 * page + off) data [] []))
      ∧ (∀ n < 8, n ≠ 0 → input.length = 140 → input.take 4 = [BitVec.ofNat 8 n, 0, 0, 0] →
          imagesOk ([F.MCVn_CFG_SPACING, F.MCVn_TRIG_SRC] ++ slotRegs) (ws 34 4) = true →
          (n = 1 → mc1Allowed (leAt 4 4 input) (leAt 12 4 input) = true) → let len := leAt 4 4 input / 65536 % 64 + 1
          (may 0xC031 .working ((784 + n) * 256) (List.length (imagesRw ([F.MCVn_CFG_SPACING, F.MCVn_TRIG_SRC] ++ slotRegs) (ws 34 4))) →
              ∃ u, exec (.setConverterSchedule via input) s = .next u
              ∧ stored u 0xC031 ((784 + n) * 256) (imagesRw ([F.MCVn_CFG_SPACING, F.MCVn_TRIG_SRC]
              ++ slotRegs) (ws 34 4)) [((784 + n) * 256, 136)] (leBytes 4 (len * max 4 (leAt 4 1 input))
              ++ leBytes 4 (len * max 32 (leAt 5 1 input)))))
      ∧ (∀ k < 96, input.length = 12 → input.take 4 = [BitVec.ofNat 8 k, 0, 0, 0] → imagesOk [F.MCV_INk_CFG_ORDER, F.MCV_INk_LIM_LO] (ws 2 4) = true →
          (may 0xC032 .working (792 * 256 + 8 * k) (List.length (imagesRw [F.MCV_INk_CFG_ORDER, F.MCV_INk_LIM_LO] (ws 2 4))) →
              ∃ u, exec (.setInputConfig via input) s = .next u
              ∧ stored u 0xC032 (792 * 256 + 8 * k) (imagesRw [F.MCV_INk_CFG_ORDER, F.MCV_INk_LIM_LO] (ws 2 4)) [(792 * 256 + 8 * k, 8)] []))
      ∧ (∀ w : Nat, w < 2 ^ 24 → (may 0xC032 .working (795 * 256 + 32) (List.length (leBytes 4 w)) →
          ∃ u, exec (.setInputConfig via ([0xFF, 0, 0, 0] ++ leBytes 4 w ++ [0, 0, 0, 0])) s = .next u
          ∧ stored u 0xC032 (795 * 256 + 32) (leBytes 4 w) [(795 * 256 + 32, 4)] []))
      ∧ (input.length = 24 → s.mode = .maintenance → imagesOk ledgerRegs (ws 6 0) = true →
          (may 0xC041 .working (808 * 256) (List.length (imagesRw ledgerRegs (ws 6 0))) → ∃ u, exec (.setLedgerConfig via input) s = .next u
              ∧ stored u 0xC041 (808 * 256) (imagesRw ledgerRegs (ws 6 0)) [(808 * 256, 24)] []))
      ∧ (∀ hours thresh : Nat, hours < 256 → 0 < thresh → thresh ≤ 20 → ∀ en restart : Bool,
          (may 0xC063 .working (816 * 256 + 28) (List.length (leBytes 4 (hours + thresh * 256 + en.toNat * 8192))) →
              ∃ u, exec (.setPatrol via [BitVec.ofNat 8 hours, BitVec.ofNat 8 thresh, BitVec.ofNat 8 (en.toNat + 2 * restart.toNat), 0]) s
              = .next u ∧ stored u 0xC063 (816 * 256 + 28) (leBytes 4 (hours + thresh * 256 + en.toNat * 8192))
                ((816 * 256 + 28, 4) :: if restart then [(816 * 256 + 28, 0)] else []) []))
      ∧ (input.length = 4 → imageOk F.PEL_CFG_IN_DELAY (leAt 0 4 input) = true →
          (may 0xC071 .maintenance (848 * 256 + 32) (List.length (leBytes 4 (imageRw F.PEL_CFG_IN_DELAY (leAt 0 4 input)))) →
              ∃ u, exec (.setPelotonConfig via input) s = .next u
              ∧ stored u 0xC071 (848 * 256 + 32) (leBytes 4 (imageRw F.PEL_CFG_IN_DELAY (leAt 0 4 input))) [(848 * 256 + 32, 4)] []))
      ∧ (reaches s via 0xC073 .maintenance → input.length = 460 → imageOk F.TND_CFG_PARTNER (leAt 0 4 input) = true →
          let base := fieldOf F.TND_CFG_MIRROR_BASE (leAt 0 4 input)
          bitmapTop (input.drop 12) ≤ base → base < Config.capacity s.config / 2 ^ 30 → fget s F.TND_STATUS_LINK 0 ≠ 2 →
          fget s F.TND_STATUS_LINK 0 ≠ 3 → rangeProtected s (849 * 256) 12 = false → rangeProtected s (850 * 256) 448 = false →
          ∃ t, exec (.setTandemConfiguration via input) s = .next t ∧ sbBytes t (849 * 256) 12 = input.take 12
            ∧ sbBytes t (850 * 256) 448 = input.drop 12
            ∧ (∀ k, ¬(849 * 256 ≤ k ∧ k < 849 * 256 + 12) → ¬(850 * 256 ≤ k ∧ k < 850 * 256 + 448) → sbByte t k = sbByte s k)
            ∧ endsStored s t via 0xC073 [849, 850, 851] [(849 * 256, 704)] [] ∧ keptBut s t [.sbg, .mbx, .outbox])
      ∧ (8 < input.length → leAt 0 4 input + (input.length - 8) ≤ 131072 →
          (may 0x4103 .any (leAt 0 4 input) (List.length (input.drop 8)) → ∃ u, exec (.setLsa via input) s = .next u
              ∧ stored u 0x4103 (leAt 0 4 input) (input.drop 8) [] []))
      ∧ (∀ b : Byte, (may 0x4204 .any (3280 * 256 + 4) (List.length [b, 0, 0, 0]) → ∃ u, exec (.setShutdownState via [b]) s = .next u
          ∧ stored u 0x4204 (3280 * 256 + 4) [b, 0, 0, 0] [] []))
      ∧ (fget s F.CCH_MODE_STATE 0 ≠ 1 → reaches s via 0xC051 .working → ∃ t, exec (.setCacheModeNormal via [0, 0, 0, 0]) s = .next t
          ∧ fget t F.CCH_MODE_STATE 0 = 0 ∧ regsKept s t [(F.CCH_MODE_STATE, 0)]
          ∧ t.cache = { s.cache with bypassUntil := if fget s F.CCH_MODE_STATE 0 = 2 then tickOf s + 1 else s.cache.bypassUntil }
          ∧ wrote s t (3280 * 256) (leBytes 4 (fget s F.CCH_MODE_SCRATCH_STEPS 0 * 8 + fget s F.CCH_MODE_SCRATCH_NEXT 0 * 256))
          ∧ endsStored s t via 0xC051 [3280] [] [] ∧ keptBut s t [.sbg, .mbx, .outbox, .regs, .cache])
      ∧ (∀ n : Nat, n ≤ 16 → s.config = .s416 → reaches s via 0xC054 .maintenance →
          ∃ t, exec (.setScratchCarveOut via [BitVec.ofNat 8 n, 0, 0, 0]) s = .next t
          ∧ fget t F.CCH_MODE_SCRATCH_NEXT 0 = n ∧ regsKept s t [(F.CCH_MODE_SCRATCH_NEXT, 0)]
          ∧ wrote s t (3280 * 256) (leBytes 4 ((if fget s F.CCH_MODE_STATE 0 = 2 then 2 else 0) + fget s F.CCH_MODE_SCRATCH_STEPS 0 * 8 + n * 256))
          ∧ endsStored s t via 0xC054 [3280] [] [BitVec.ofNat 8 (scratchSteps s), BitVec.ofNat 8 n] ∧ keptBut s t [.sbg, .mbx, .outbox, .regs])
      ∧ (∀ slot : Nat, (slot = 1 ∨ slot = 2) → s.mode = .maintenance →
          (may 0x0202 .any (3280 * 256 + 8) (List.length (leBytes 4 (slot - 1))) → ∃ u, exec (.activateFw via [1, BitVec.ofNat 8 slot]) s = .next u
              ∧ stored u 0x0202 (3280 * 256 + 8) (leBytes 4 (slot - 1)) [] []))
      ∧ (ownerKey s = none → input.length = 32 → endpoint s via = .hub → hubGate s via 0xC003 = 0 → inService s = true → reaches s via 0xC003 .own →
          ∃ t, exec (.setOwnerKey via input) s = .next t ∧ ownerKey t = some input
            ∧ (∀ p ∈ [4033, 4034], sbBytes t (p * 256) 36 = input ++ leBytes 4 (crc32 input))
            ∧ (∀ k, k / 256 ≠ 4033 → k / 256 ≠ 4034 → sbByte t k = sbByte s k)
            ∧ endsStored s t via 0xC003 [4033, 4034] [] [] ∧ keptBut s t [.sbg, .mbx, .outbox])

/-- For every state in which the command reaches its meaning: CLEAR_EVENT_RECORDS empties a log, SET_EVENT_INTERRUPT_POLICY,
SET_TIMESTAMP (with a TIMESTAMP record) and SET_ALERT_CONFIGURATION set what they carry; REQUEST_ABORT ends nothing where
nothing runs or what runs cannot be aborted, else asks for the stop, which BACKGROUND_ABORT_STOP makes, the operation ending
0012h; a flush to bypass stops at once. INJECT_POISON and CLEAR_POISON of a cached sector poison it (its data open) and store
the 64 bytes given. UNLOCK_CACHE_LINES of all lines unlocks them; RELEASE_RANGE of one extent releases it, its lines that are
not locked gone from the cache, and counts it as new or as released before. TRANSFER_FW of a whole image ends with a version in
the slot not running; FW_ACTIVATION_COMPLETE runs the image and stores its slot (the operation ending with that store), or keeps
the old one. NONCE_FETCH issues a nonce; NONCE_EXPIRY and LOCKOUT_END end theirs at their time. WRITE_REGISTERS in MAINTENANCE
changes only the masked bits of an RW field, clears an RW1C bit, and skips an unmapped address; in SERVICE it is refused and
counted. REGISTER_WRITE does so through BAR0 for the port, writes the MSI-X table there, sets Viral_Enable and Range 1's base
through the DVSEC (log 45, log 95), and by firmware writes any powered register. -/
def Obligations.ImmediateCommandsAct : Prop :=
  ∀ (s : State) (via : Transport), gtcOk s →
    let tells (t : State) (op : Nat) (out : List Byte) : Prop :=
      t.outbox = s.outbox ++ sends s via op ⟨0, 0⟩ out ∧ t.mbx = { s.mbx with answers := shows s via op ⟨0, 0⟩ out }
    (∀ log : Fin 4, reaches s via 0x0101 .any → ∃ t, exec (.clearEventRecords via [BitVec.ofNat 8 log.val, 1, 0, 0, 0, 0]) s = .next t
        ∧ tabGet logReset t.host.logs log.val = { tabGet logReset s.host.logs log.val with
            recs := [], overflow := false, lost := 0, firstLost := 0, lastLost := 0 }
        ∧ (∀ k, k ≠ log.val → tabGet logReset t.host.logs k = tabGet logReset s.host.logs k)
        ∧ t.host = { s.host with logs := t.host.logs } ∧ tells t 0x0101 [] ∧ keptBut s t [.host, .mbx, .outbox])
      ∧ (∀ ps : List Byte, ps.length = 4 → (∀ b ∈ ps, b.toNat % 4 ≤ 1) → reaches s via 0x0103 .any →
        exec (.setEventInterruptPolicy via ps) s
          = .next (ended { s with host := { s.host with intPolicy := ps } } via 0x0103 ⟨0, 0⟩ []))
      ∧ (∀ x : Nat, x < 2 ^ 64 → reaches s via 0x0301 .any → ∃ t l, exec (.setTimestamp via (leBytes 8 x)) s = .next t
        ∧ t.host = { s.host with timestamp := x, timestampGtc := s.gtc } ∧ t.rcd = { s.rcd with landed := s.rcd.landed ++ [l] }
        ∧ l.type = 0x13 ∧ l.fixed = some [x % 2 ^ 32, x / 2 ^ 32, s.gtc % 2 ^ 32, s.gtc / 2 ^ 32] ∧ tells t 0x0301 []
        ∧ keptBut s t [.host, .rcd, .mbx, .outbox])
      ∧ (∀ en v : Byte, reaches s via 0x4202 .any → let cfg := s.host.alertCfg ++ List.replicate (12 - s.host.alertCfg.length) 0
        ∃ t, exec (.setAlertConfiguration via ([1, en &&& 1, v] ++ List.replicate 9 0)) s = .next t
          ∧ t.host.alertCfg = (cfg.getD 0 0 &&& 0xFE ||| en &&& 1) :: cfg.getD 1 0 :: v :: cfg.drop 3
          ∧ t.host = { s.host with alertCfg := t.host.alertCfg } ∧ tells t 0x4202 [] ∧ keptBut s t [.host, .mbx, .outbox])
      ∧ (reaches s via 0x0005 .any →
        (s.mbx.bg = none ∨ (∃ b, s.mbx.bg = some b ∧ b.opcode ∈ [0x0201, 0x0202, 0x4400, 0x4401, 0xC004]) →
          exec (.requestAbortBackgroundOperation via []) s = .next (ended s via 0x0005 ⟨0, 0⟩ []))
        ∧ (∀ b, s.mbx.bg = some b → b.opcode ∈ [0x4304, 0xC042, 0xC052] → exec (.requestAbortBackgroundOperation via []) s
            = .next (ended { s with mbx := { s.mbx with abortReq := true } } via 0x0005 ⟨0, 0⟩ []))
        ∧ ∀ b, s.mbx.bg = some b → b.opcode = 0xC051 → b.pages = [] → ∃ t, exec (.requestAbortBackgroundOperation via []) s = .next t
            ∧ fget t F.CCH_MODE_STATE 0 = 0 ∧ fget t F.CCH_MODE_FLUSH_ABORTED 0 = 1 ∧ fget t F.CCH_FLUSH_REMAIN_LINES 0 = 0
            ∧ t.cache = { s.cache with flush := [], flushUntil := tickOf s + 1 } ∧ fget t F.MBX_ERR_BG_ABORTED 0 = 1
            ∧ t.mbx = { s.mbx with bg := none, last := some (0xC051, ⟨0x12, 0⟩, []), abortReq := false, answers := shows s via 0x0005 ⟨0, 0⟩ [] }
            ∧ regsKept s t [(F.CCH_MODE_STATE, 0), (F.CCH_MODE_FLUSH_ABORTED, 0), (F.CCH_FLUSH_REMAIN_LINES, 0), (F.MBX_ERR_BG_ABORTED, 0)]
            ∧ keptBut s t [.cache, .mbx, .regs, .outbox])
      ∧ (∀ b, s.mbx.bg = some b → b.opcode = 0x4304 → s.mbx.abortReq = true → b.filling = false → ∃ t, exec .backgroundAbortStop s = .next t
        ∧ t.mbx = { s.mbx with bg := none, last := some (0x4304, ⟨0x12, 0⟩, []), abortReq := false } ∧ fget t F.MBX_ERR_BG_ABORTED 0 = 1
        ∧ regsKept s t [(F.MBX_ERR_BG_ABORTED, 0)] ∧ keptBut s t [.mbx, .regs, .outbox])
      ∧ (∀ dpa loc : Nat, dpa % 64 = 0 → dpa < Config.capacity s.config → locate s (lineOf dpa) = some loc → lineDead s (lineOf dpa) = false →
        lineMirrored s (lineOf dpa) = false → nsHas (lineOf dpa) s.med.restored = false →
        let stored (t : State) (p : Bool) : Prop :=
          (locSv t loc).getLsbD (sectorOf dpa) = true ∧ (locSp t loc).getLsbD (sectorOf dpa) = p ∧ locDirty t loc = true
            ∧ (∀ i < 4, i ≠ sectorOf dpa → lineGet (locData t loc) i = lineGet (locData s loc) i) ∧ t.med = s.med
        (s.host.injected.length < 64 → nsHas dpa s.host.injected = false → reaches s via 0x4301 .working →
          ∃ t, exec (.injectPoison via (leBytes 8 dpa)) s = .next t ∧ stored t true ∧ nsHas dpa t.host.injected = true
            ∧ t.freeIx = s.freeIx + 1 ∧ tells t 0x4301 [] ∧ keptBut s t [.cache, .host, .freeIx, .mbx, .outbox, .regs, .sched])
        ∧ ∀ d : List Byte, d.length = 64 → reaches s via 0x4302 .working → ∃ t, exec (.clearPoison via (leBytes 8 dpa ++ d)) s = .next t
          ∧ stored t false ∧ lineGet (locData t loc) (sectorOf dpa) = BitVec.ofNat 512 (ofLe d) ∧ nsHas dpa t.host.injected = false
          ∧ tells t 0x4302 [] ∧ keptBut s t [.cache, .host, .mbx, .outbox, .regs, .sched])
      ∧ (s.config ≠ .s416 → reaches s via 0xC053 .working → ∃ t, exec (.unlockCacheLines via (List.replicate 8 0)) s = .next t
        ∧ t.cache.lockList = [] ∧ t.cache.dir = s.cache.dir ∧ t.cache.ovf = s.cache.ovf ∧ tells t 0xC053 (leBytes 4 s.cache.lockList.length)
        ∧ keptBut s t [.cache, .mbx, .outbox])
      ∧ (∀ e : Nat, e < Config.extents s.config → reachesStore s (2097152 * e, 2097152) = false → reaches s via 0xC060 .working →
        let input := [1, 0, 0, 0, 0, 0, 0, 0] ++ leBytes 8 (2097152 * e) ++ leBytes 8 2097152
        tndEn s = false → ∃ t, exec (.releaseRange via input) s = .next t ∧ bmGet t.med.released e = true
          ∧ bmGet t.med.relPending e = true ∧ (∀ k, k ≠ e → bmGet t.med.released k = bmGet s.med.released k)
          ∧ (tabWf wayReset s.cache.ways = true → tabWf ovfReset s.cache.ovf = true →
              ∀ l, extentOf l = e → onLockList s l = false → locate t l = none)
          ∧ t.med.lines = s.med.lines ∧ t.med.tags = s.med.tags
          ∧ tells t 0xC060 (if bmGet s.med.released e then [0, 0, 0, 0, 1, 0, 0, 0] else [1, 0, 0, 0, 0, 0, 0, 0]))
      ∧ (∀ img : List Byte, img.length ≤ 65536 → s.mode = .maintenance → s.life.fwRunning < 2 → s.life.fwParts = 0 → s.mbx.bg = none →
        via = .primary → reaches s via 0x0201 .any →
        ∃ t, exec (.transferFw via ([0, BitVec.ofNat 8 (2 - s.life.fwRunning)] ++ List.replicate 126 0 ++ img)) s = .next t
          ∧ t.life = { s.life with fwVersion := t.life.fwVersion, fwParts := 0 } ∧ fwVersionOf t s.life.fwRunning = fwVersionOf s s.life.fwRunning
          ∧ fwVersionOf t (1 - s.life.fwRunning) = Config.freeNat s.freeIx % 2 ^ 32 ∧ t.freeIx = s.freeIx + 1
          ∧ t.mbx = { s.mbx with bg := none, last := some (0x0201, ⟨0, 0⟩, []), abortReq := false, answers := shows s via 0x0201 ⟨1, 0⟩ [] }
          ∧ keptBut s t [.life, .mbx, .outbox, .freeIx])
      ∧ (∀ b, s.mode = .maintenance → s.life.activating = true → s.mbx.bg = some b → b.opcode = 0x0202 → s.life.actSlot < 2 →
        (∃ t, exec (.fwActivationComplete true) s = .next t ∧ t.life.activating = false ∧ t.life.fwRunning = s.life.actSlot
          ∧ fget t F.HUB_RESTART_FW_SLOT 0 = s.life.actSlot ∧ sbBytes t (3280 * 256 + 8) 4 = leBytes 4 s.life.actSlot
          ∧ t.mbx = (if pageDirty t 3280 then { s.mbx with bg := some { b with pages := [3280] } }
              else { s.mbx with bg := none, last := some (0x0202, ⟨0, 0⟩, []), abortReq := false })
          ∧ keptBut s t [.life, .mbx, .regs, .sbg, .outbox])
        ∧ ∃ t, exec (.fwActivationComplete false) s = .next t ∧ t.life.activating = false ∧ t.life.fwRunning = s.life.fwRunning
          ∧ t.mbx.bg = none ∧ t.mbx.last = some (0x0202, ⟨0x0C, 0⟩, []) ∧ keptBut s t [.life, .mbx, .outbox])
      ∧ (reaches s via 0xC000 .any → ∃ t out, exec (.nonceFetch via [1, 0, 0, 0]) s = .next t ∧ out.length = 48
        ∧ t.outbox = s.outbox ++ sends s via 0xC000 ⟨0, 0⟩ out
        ∧ t.mbx = { s.mbx with nonces := t.mbx.nonces, answers := shows s via 0xC000 ⟨0, 0⟩ out }
        ∧ leAt 24 16 out = (Config.nonce s.freeIx).toNat ∧ leAt 40 8 out = s.gtc ∧ nonceOf t (viaNo via) = some ⟨Config.nonce s.freeIx, s.gtc⟩
        ∧ (∀ k, k ≠ viaNo via → nonceOf t k = nonceOf s k) ∧ t.freeIx = s.freeIx + 1 ∧ keptBut s t [.mbx, .freeIx, .outbox])
      ∧ (∀ n, s.mode ≠ .off → nonceOf s (viaNo via) = some n → ∃ t, exec (.nonceExpiry via) s = .next t ∧ nonceOf t (viaNo via) = none
        ∧ t.gtc = max s.gtc ((n.issued + 60000000000) % 2 ^ 64) ∧ keptBut s t [.gtc, .mbx])
      ∧ (s.mode ≠ .off → s.mbx.lockAt ≠ 0 → ∃ t, exec .lockoutEnd s = .next t ∧ lockedOut t = false ∧ t.gtc = max s.gtc (s.mbx.lockAt % 2 ^ 64)
        ∧ t.mbx = { s.mbx with lockAt := 0 } ∧ keptBut s t [.gtc, .mbx])
      ∧ (∀ a v m : Nat, v < 2 ^ 32 → m < 2 ^ 32 → endpoint s via = .hub →
        let input := [1, 0, 0, 0] ++ leBytes 4 a ++ leBytes 4 v ++ leBytes 4 m
        (s.mode = .maintenance → reaches s via 0xC0F1 .maintenance →
          (a = 0x20008 → v < 32 → m ≠ 0 → m < 32 → ∃ t, exec (.writeRegisters via input) s = .next t
            ∧ fget t F.WHL_BG_ALLOW_PER_TICK 0 = ((fget s F.WHL_BG_ALLOW_PER_TICK 0 &&& (31 - m)) ||| (v &&& m))
            ∧ regsKept s t [(F.WHL_BG_ALLOW_PER_TICK, 0)] ∧ tells t 0xC0F1 ([1, 0, 0, 0, 0, 0, 0, 0] ++ List.replicate 4 0xFF ++ [0, 0, 0, 0])
            ∧ keptBut s t [.regs, .mbx, .outbox])
          ∧ (a = 0x86020 → v = 1 → m = 1 → tabGet (2 ^ 64) s.setAt (F.CCHn_ERR_SEC.key 5) ≠ tickOf s →
              ∃ t, exec (.writeRegisters via input) s = .next t
            ∧ fget t F.CCHn_ERR_SEC 5 = 0 ∧ regsKept s t [(F.CCHn_ERR_SEC, 5)] ∧ keptBut s t [.regs, .mbx, .outbox])
          ∧ (a = 0x50000 → exec (.writeRegisters via input) s
              = .next (ended s via 0xC0F1 ⟨0, 0⟩ ([0, 0, 0, 0, 1, 0, 0, 0] ++ List.replicate 8 0))))
        ∧ (s.mode = .service → transportBusy s via = false → ∃ t, exec (.writeRegisters via input) s = .next t
          ∧ fget t F.MBX_PT_REFUSED_COUNT 0 = min (fget s F.MBX_PT_REFUSED_COUNT 0 + 1) (2 ^ 32 - 1) ∧ fget t F.MBX_ERR_PT_REFUSED 0 = 1
          ∧ regsKept s t [(F.MBX_PT_REFUSED_COUNT, 0), (F.MBX_ERR_PT_REFUSED, 0)]
          ∧ t.outbox = s.outbox ++ refuses s via 0xC0F1 0x0101 ∧ t.mbx = (declined s via 0xC0F1 0x0101).mbx ∧ keptBut s t [.regs, .mbx, .outbox]))
      ∧ (s.host.linkUp = true → coreOn s = true → ∀ v : BitVec 32,
        (tabGet (2 ^ 64) s.setAt (F.HPT_ERR_STATUS_RETRAIN.key 0) ≠ tickOf s → ∃ t, exec (.registerWrite .bar0 0x6001C 0x20) s = .next t
          ∧ fget t F.HPT_ERR_STATUS_RETRAIN 0 = 0 ∧ regsKept s t [(F.HPT_ERR_STATUS_RETRAIN, 0)] ∧ keptBut s t [.regs])
        ∧ exec (.registerWrite .bar0 0x20008 v) s = .next s
        ∧ exec (.registerWrite .bar0 0x70004 v) s = .next { s with host := { s.host with msixTable := tabPut 1 v.toNat s.host.msixTable } }
        ∧ exec (.registerWrite .rangeBaseHigh 0 v) s
            = .next { s with host := { s.host with rangeBase := s.host.rangeBase % 2 ^ 32 + v.toNat * 2 ^ 32 } }
        ∧ exec (.registerWrite .dvsecControl 0 v) s = .next { s with host := { s.host with viralEnable := v.getLsbD 14 } }
        ∧ (hubRuns s = true → ∃ t, exec (.registerWrite .firmware 0x20008 v) s = .next t
          ∧ fget t F.WHL_BG_ALLOW_PER_TICK 0 = v.toNat % 32 ∧ regsKept s t [(F.WHL_BG_ALLOW_PER_TICK, 0)] ∧ keptBut s t [.regs]))

/-- For every state in which the command reaches its meaning with no background operation running, on the primary mailbox or
MCTP: SCAN_MEDIA of a range, LOCK_CACHE_LINES of one range (S208, S104), SANITIZE, SECURE_ERASE, CRYPTO_ERASE,
MEASURE_CAPACITANCE, SET_CACHE_MODE_BYPASS without locked lines and ACTIVATE_FW online complete with 0001h and the operation in
progress under its opcode. The lines to scan or lock stand as the operation's work and nothing else changes; a measurement waits
for step 1 on the command's behalf; bypass with dirty lines to write back shows STATE 1 and their number; an activation is under
way for its slot; an erase leaves no lock, no dirty or valid line outside scratch, an empty poison list, every extent released
and pending, a new key, and one TAGCLR per die sent. While another operation runs each of the vendor ones is refused with
BG_BUSY, and on the secondary mailbox with MAILBOX, and nothing changes. -/
def Obligations.BackgroundCommandsStart : Prop :=
  ∀ (s : State) (via : Transport), gtcOk s → via ≠ .secondary → s.mbx.bg = none →
    let starts (t : State) (op : Nat) : Prop := ∃ b rest,
      t.mbx = { s.mbx with bg := some b, last := none, abortReq := false, answers := shows s via op ⟨1, 0⟩ [] }
      ∧ b.opcode = op ∧ b.via = via ∧ t.outbox = s.outbox ++ sends s via op ⟨1, 0⟩ [] ++ rest
    let erased (t : State) (op : Nat) : Prop := starts t op ∧ t.cache.lockList = [] ∧ t.cache.ovf = []
      ∧ (∀ k w, (k, w) ∈ t.cache.ways → w.v = true → locScratch s (wayLoc (k / 65536) (k % 65536 / 16) (k % 16)) = true)
      ∧ (∀ n, (dirAt t n).dv = true → (dirAt t n).scr = true) ∧ t.host.poisonList = [] ∧ t.host.injected = [] ∧ t.med.key = s.med.key + 1
      ∧ t.med.released = bmFull ∧ t.med.relPending = bmFull ∧ t.med.clrDies = allDies s
      ∧ (∀ n, n < 8 * Config.wheels s.config → ∃ q, .packet (n / 8) (n % 8) q ∈ t.outbox ∧ q.op = 7)
    (∀ input : List Byte, input.length = 17 → scanRange s input = true → reaches s via 0x4304 .working → ∃ t, exec (.scanMedia via input) s = .next t
        ∧ starts t 0x4304 ∧ (∃ b, t.mbx.bg = some b ∧ b.todo = [(leAt 0 8 input / 256,
            (leAt 0 8 input + 64 * leAt 8 8 input + 255) / 256 - leAt 0 8 input / 256)])
        ∧ t.host = { s.host with scanResults := [] } ∧ keptBut s t [.mbx, .host, .outbox])
      ∧ (∀ l n : Nat, 0 < n → 256 * (l + n) ≤ Config.capacity s.config → s.config ≠ .s416 → reaches s via 0xC052 .working →
        ∃ t, exec (.lockCacheLines via ([1, 0, 0, 0, 0, 0, 0, 0] ++ leBytes 8 (256 * l) ++ leBytes 8 (256 * n))) s = .next t
          ∧ starts t 0xC052 ∧ (∃ b, t.mbx.bg = some b ∧ b.todo = [(l, n)] ∧ b.total = n) ∧ keptBut s t [.mbx, .outbox])
      ∧ (reaches s via 0x4400 .maintenance → ∃ t, exec (.sanitize via []) s = .next t ∧ erased t 0x4400)
      ∧ (reaches s via 0x4401 .maintenance → ∃ t, exec (.secureErase via []) s = .next t ∧ erased t 0x4401)
      ∧ (reaches s via 0xC004 .maintenance → ∃ t, exec (.cryptoErase via []) s = .next t ∧ erased t 0xC004)
      ∧ (fon s F.LDG_STATUS_CAP_TEST 0 = false → capBarred s = false → reaches s via 0xC042 .working →
        ∃ t, exec (.measureCapacitance via []) s = .next t ∧ starts t 0xC042 ∧ t.led.test.phase = .waiting ∧ t.led.test.byCommand = true
          ∧ t.led = { s.led with test := t.led.test } ∧ keptBut s t [.mbx, .led, .outbox])
      ∧ (anyLocked s = false → (∃ x ∈ s.cache.dir, x.2.dv = true ∧ x.2.p = false ∧ x.2.scr = false) → reaches s via 0xC051 .working →
        ∃ t, exec (.setCacheModeBypass via [2, 0, 0, 0]) s = .next t ∧ starts t 0xC051 ∧ fget t F.CCH_MODE_STATE 0 = 1
          ∧ (∀ l, l ∈ t.cache.flush ↔ ∃ x ∈ s.cache.dir, x.2.dv = true ∧ x.2.p = false ∧ x.2.scr = false ∧ x.2.line = l)
          ∧ fget t F.CCH_FLUSH_REMAIN_LINES 0 = t.cache.flush.length % 2 ^ 21 ∧ t.cache = { s.cache with flush := t.cache.flush }
          ∧ regsKept s t [(F.CCH_MODE_STATE, 0), (F.CCH_FLUSH_REMAIN_LINES, 0)] ∧ keptBut s t [.mbx, .cache, .regs, .outbox])
      ∧ (∀ slot : Nat, (slot = 1 ∨ slot = 2) → s.mode = .maintenance → reaches s via 0x0202 .any →
        ∃ t, exec (.activateFw via [0, BitVec.ofNat 8 slot]) s = .next t ∧ starts t 0x0202
          ∧ t.life = { s.life with activating := true, actSlot := slot - 1 } ∧ keptBut s t [.mbx, .life, .outbox])
      ∧ ∀ (b : Bg) (u : State), (u = { s with mbx := { s.mbx with bg := some b } } ∨ u = s) →
        (∀ v, (v = via ∧ u ≠ s) ∨ v = .secondary → reaches u v 0xC004 .maintenance → exec (.cryptoErase v []) u
            = .next (declined u v 0xC004 (if v = .secondary then 0x010F else 0x010C)))

/-- For every state in which the command reaches its meaning, with its fixed length and a good nonce and token outside a
lockout: CHANGE_MODE_MAINTENANCE in SERVICE asks for MAINTENANCE and waits; BRAKE_RELEASE in the hold with the latched cause
answers Success and asks for STANDBY, which the next tick's mode changes enter (leaveHold), HOLD clear, FAULT_N released, the
releases counted; SET_OWNER_KEY puts the new key in place; CLEAR_RECORDER with the highest SEQ begins the clear;
SET_SADDLEBAG_PROTECTION in MAINTENANCE updates the protection counter; PROMOTE_MIRROR_HOLDER without link and partner makes a
copy held writable; PROMOTE_MIRROR_OWNER of a demoted owner without link, the partner not PROMOTED, takes its regions back
divergent. Each consumes the nonce, resets the failure count and lands one AUTH record. In FREEWHEEL CHANGE_MODE_MAINTENANCE is
refused with WRONG_MODE and its nonce gone. Without a live nonce the answer is NONCE_NONE, with a bad token TOKEN_BAD, its
failure counted, the fourth beginning a lockout of 10 s; during a lockout AUTH_LOCKOUT, the nonce kept. CHANGE_MODE_RAMP in
STANDBY sets the request and answers 1, and the AON endpoint takes no other target; CHANGE_MODE_SERVICE in MAINTENANCE asks for
SERVICE and waits; neither needs a token. -/
def Obligations.AuthorisedCommandsCheckAndAct : Prop :=
  ∀ (s : State) (via : Transport) (input : List Byte), gtcOk s →
    let waits (t : State) : Prop := ∃ f, t.mbx.fg = s.mbx.fg ++ [f] ∧ f.via = some via ∧ f.opcode = 0xC001 ∧ t.outbox = s.outbox
    let passed (t : State) (op : Nat) : Prop := nonceOf t (viaNo via) = none ∧ t.mbx.fails = 0
      ∧ ∃ l ∈ t.rcd.landed, l.type = 0x0F ∧ (l.fixed.getD []).take 2 = [op, 0]
    let tells (t : State) (op : Nat) (out : List Byte) : Prop :=
      t.outbox = s.outbox ++ sends s via op ⟨0, 0⟩ out ∧ t.mbx.answers = shows s via op ⟨0, 0⟩ out
    let turned (t : State) (op vs : Nat) : Prop := t.outbox = (declined s via op vs).outbox ∧ t.mbx.answers = (declined s via op vs).mbx.answers
    (input.length = 20 → input.take 4 = [5, 0, 0, 0] → reaches s via 0xC001 .own → tokenGood s via 0xC001 input →
        (s.mode = .service → hubGate s via 0xC001 = 0 → ∃ t, exec (.changeModeMaintenance via input) s = .next t ∧ passed t 0xC001
          ∧ t.life = { s.life with toMaintenance := true, acceptedAt := s.gtc } ∧ waits t ∧ keptBut s t [.mbx, .life, .rcd]))
      ∧ (s.mode = .freewheel → input.length = 20 → input.take 4 = [5, 0, 0, 0] → gtcOk s → transportBusy s via = false → endpoint s via = .hub →
        tokenGood s via 0xC001 input → ∃ t, exec (.changeModeMaintenance via input) s = .next t ∧ nonceOf t (viaNo via) = none
          ∧ turned t 0xC001 0x0101 ∧ t.mode = .freewheel ∧ t.life = s.life)
      ∧ (input.length = 20 → s.mode = .brake → fon s F.HUB_MODE_HOLD 0 = true →
          input.take 4 = [BitVec.ofNat 8 (fget s F.HUB_BRAKE_CAUSE 0), 0, 0, 0] →
        fget s F.HUB_BRAKE_CAUSE 0 < 256 → reaches s via 0xC002 .own → tokenGood s via 0xC002 input →
        ∃ t, exec (.brakeRelease via input) s = .next t ∧ passed t 0xC002 ∧ tells t 0xC002 []
          ∧ t.life = { s.life with toStandby := true, acceptedAt := s.gtc } ∧ keptBut s t [.mbx, .life, .rcd, .outbox])
      ∧ (s.mode = .brake → s.life.toStandby = true → (leaveHold s).mode = .standby ∧ fget (leaveHold s) F.HUB_MODE_HOLD 0 = 0
        ∧ (leaveHold s).pins.fault = false ∧ (leaveHold s).life.toStandby = false ∧ (leaveHold s).med = s.med
        ∧ fget (leaveHold s) F.HUB_BRAKE_RELEASES 0 = min (fget s F.HUB_BRAKE_RELEASES 0 + 1) (fmax F.HUB_BRAKE_RELEASES))
      ∧ (∀ k, ownerKey s = some k → input.length = 48 → inService s = true → hubGate s via 0xC003 = 0 → endpoint s via = .hub →
          reaches s via 0xC003 .own →
        tokenGood s via 0xC003 input → ∃ t, exec (.setOwnerKey via input) s = .next t ∧ passed t 0xC003 ∧ ownerKey t = some (input.take 32)
          ∧ keptBut s t [.sbg, .mbx, .rcd, .outbox])
      ∧ (input.length = 20 → accepted s .hub = true → leAt 0 4 input = (fget s F.REC_SEQ_SEQ 0 + (2 ^ 32 - 1)) % 2 ^ 32 → recVolatile s = false →
        s.rcd.clearing = none → hubGate s via 0xC023 = 0 → endpoint s via = .hub → reaches s via 0xC023 .own → tokenGood s via 0xC023 input →
        ∃ t, exec (.clearRecorder via input) s = .next t ∧ passed t 0xC023 ∧ t.rcd.clearing = some (some via)
          ∧ (∃ l ∈ t.rcd.landed, l.type = 0x10) ∧ t.outbox = s.outbox ∧ keptBut s t [.mbx, .rcd])
      ∧ (∀ bp < 4, input.length = 20 → input.take 4 = [BitVec.ofNat 8 bp, 0, 0, 0] → s.mode = .maintenance → hubGate s via 0xC02B = 0 →
        endpoint s via = .hub → ctrUnstored s ctrProtect = false → s.sbg.ctrWait = [] → reaches s via 0xC02B .own → tokenGood s via 0xC02B input →
        ∃ t, exec (.setSaddlebagProtection via input) s = .next t ∧ passed t 0xC02B ∧ ctrValue t ctrProtect = some bp
          ∧ fget t F.SBG_STATUS_BP 0 = fget s F.SBG_STATUS_BP 0 ∧ keptBut s t [.sbg, .mbx, .rcd, .outbox])
      ∧ (input.length = 20 → input.take 4 = [0, 0, 0, 0] → inService s = true → hubGate s via 0xC074 = 0 → endpoint s via = .hub → tndUp s = false →
        partnerServes s = false → fget s F.TND_STATUS_LINK 0 ≠ 6 → (fget s F.TND_STATUS_PEER_COPY 0 = 1 ∨ fget s F.TND_STATUS_PEER_COPY 0 = 2) →
        reaches s via 0xC074 .own → tokenGood s via 0xC074 input → ∃ t, exec (.promoteMirrorHolder via input) s = .next t ∧ passed t 0xC074
          ∧ fget t F.TND_STATUS_PEER_COPY 0 = 3 ∧ t.tnd.promoted = true ∧ fget t F.TND_ERR_PROMOTED 0 = 1 ∧ tells t 0xC074 [0] ∧ t.med = s.med)
      ∧ (input.length = 20 → input.take 4 = [1, 0, 0, 0] → inService s = true → hubGate s via 0xC074 = 0 → endpoint s via = .hub → tndUp s = false →
        s.tnd.peerPromoted = false → fget s F.TND_STATUS_OWN 0 = 2 → s.tnd.own ≠ [] → fget s F.TND_STATUS_LINK 0 ≠ 6 →
        reaches s via 0xC074 .own → tokenGood s via 0xC074 input → ∃ t, exec (.promoteMirrorOwner via input) s = .next t ∧ passed t 0xC074
          ∧ fget t F.TND_STATUS_OWN 0 = 0 ∧ t.tnd.divergeAll = true ∧ fget t F.TND_STATUS_DIVERGED 0 = 1 ∧ tells t 0xC074 [0] ∧ t.med = s.med)
      ∧ (input.length = 20 → input.take 4 = [5, 0, 0, 0] → endpoint s via = .hub → reaches s via 0xC001 .own →
        (lockedOut s = true → ∃ t, exec (.changeModeMaintenance via input) s = .next t ∧ turned t 0xC001 0x0105
            ∧ t.mbx = { s.mbx with answers := t.mbx.answers } ∧ t.mode = s.mode ∧ t.life = s.life)
        ∧ (lockedOut s = false → liveNonce s via = none → ∃ t, exec (.changeModeMaintenance via input) s = .next t
            ∧ turned t 0xC001 0x0104 ∧ t.mbx.fails = s.mbx.fails ∧ t.mode = s.mode ∧ t.life = s.life)
        ∧ ∀ x k, lockedOut s = false → liveNonce s via = some x → ownerKey s = some k → tokenFor k x 0xC001 (input.take 4) ≠ input.drop 4 →
          ∃ t, exec (.changeModeMaintenance via input) s = .next t ∧ turned t 0xC001 0x0103
            ∧ nonceOf t (viaNo via) = none ∧ fget t F.MBX_ERR_AUTH_FAIL 0 = 1 ∧ t.mode = s.mode ∧ t.life = s.life
            ∧ (s.mbx.fails ≠ 3 → t.mbx.fails = s.mbx.fails + 1 ∧ lockedOut t = false)
            ∧ (s.mbx.fails = 3 → t.mbx.fails = 0 ∧ t.mbx.lockAt = s.gtc + 10000000000))
      ∧ (s.mode = .standby → reaches s via 0xC001 .own → exec (.changeModeRamp via [2, 0, 0, 0]) s
          = .next (ended { s with life := { s.life with rampRequest := true, acceptedAt := s.gtc } } via 0xC001 ⟨0, 0⟩ [1])
          ∧ (endpoint s via = .aon → exec (.changeModeService via [4, 0, 0, 0]) s = .next (declined s via 0xC001 0x0102)))
      ∧ (s.mode = .maintenance → s.seq.margins = [] → hubGate s via 0xC001 = 0 → reaches s via 0xC001 .own →
        ∃ t, exec (.changeModeService via [4, 0, 0, 0]) s = .next t ∧ t.life = { s.life with toService := true, acceptedAt := s.gtc } ∧ waits t
          ∧ keptBut s t [.mbx, .life])

/-- For every state in which the command reaches its meaning: MARGIN_RAIL_TRIM of a channel with a trim path already driven,
enabled and with power good, no command waiting for its margin, completes with the margin moving to TARGET from now, the windows
widened to cover the old and the new and the command waiting; MARGIN_RAIL_HIGH, LOW and SETPOINT with a PMBus path put the
regulator's transactions in line, PAGE first; MARGIN_RAIL_NOMINAL begins the return to the neutral code. RAIL_COMMAND_ENABLE of
a channel that is off clears OFF_FAULT and places its admission request, the command waiting; RAIL_COMMAND_DISABLE of one that
is not critical decides its falling edge, a retry of it ended (a power-up it paused goes on), answering 2; of a critical one
CONFLICT, nothing changed. CALIBRATE_CONVERTER in MAINTENANCE and DIAGNOSE_INPUT of a free pair begin, and the command waits for
their end. -/
def Obligations.RailAndConverterCommandsBegin : Prop :=
  ∀ (s : State) (via : Transport) (c : Chan), gtcOk s →
    let margin (a settle uv ov target : Nat) : List Byte :=
      [BitVec.ofNat 8 c.val, BitVec.ofNat 8 a] ++ leBytes 2 settle ++ leBytes 2 uv ++ leBytes 2 ov ++ leBytes 2 target
    let chan := [BitVec.ofNat 8 c.val]
    (∀ settle uv ov target : Nat, reaches s via 0xC014 .maintenance → 4 ≤ settle → settle ≤ 4000 → uv < 1024 → ov < 1024 → target < 1024 →
        gangOf s c.val = none → chanOn s c.val = true → powerGood s c.val = true → (∀ m, marginOf s c.val = some m → m.via = none) →
        let path := fget (loadReg (regOf F.SEQ_CHn_MARGIN_PATH) c.val s) F.SEQ_CHn_MARGIN_PATH c.val
        let windows (t : State) : Prop := fget t F.SEQ_CHn_WIN_UV c.val = min (fget s F.SEQ_CHn_WIN_UV c.val) uv
          ∧ fget t F.SEQ_CHn_WIN_OV c.val = max (fget s F.SEQ_CHn_WIN_OV c.val) ov
          ∧ regsKept s t [(F.SEQ_CHn_WIN_UV, c.val), (F.SEQ_CHn_WIN_OV, c.val)]
        let pm (t : State) (m : Margin) (a : Nat) : Prop := marginOf t c.val = some m ∧ m.phase = .pmbus ∧ m.via = some via
          ∧ m.action = a ∧ m.settle = settle ∧ m.uv = uv ∧ m.ov = ov
          ∧ m.todo.head? = some (0, fget s F.SEQ_CHn_MARGIN_PAGE c.val) ∧ windows t ∧ keptBut s t [.regs, .seq, .outbox]
        (path = 1 → fon s F.SEQ_CHn_TRIM_DRIVING c.val = true → ∃ t m, exec (.marginRailTrim via (margin 0 settle uv ov target)) s = .next t
            ∧ marginOf t c.val = some m ∧ m.phase = .moving ∧ m.via = some via ∧ m.target = target ∧ m.settle = settle ∧ m.uv = uv ∧ m.ov = ov
            ∧ m.since = tickOf s ∧ windows t ∧ keptBut s t [.regs, .seq])
          ∧ (path = 2 → (∃ t m, exec (.marginRailHigh via (margin 1 settle uv ov target)) s = .next t ∧ pm t m 1)
              ∧ (∃ t m, exec (.marginRailLow via (margin 2 settle uv ov target)) s = .next t ∧ pm t m 2)
            ∧ (∃ t m, exec (.marginRailSetpoint via (margin 3 settle uv ov target)) s = .next t ∧ pm t m 3))
          ∧ (path = 1 → fget s F.SEQ_CHn_MARGIN_PATH c.val = 1 → fon s F.SEQ_CHn_TRIM_DRIVING c.val = true →
            ∃ t m, exec (.marginRailNominal via (margin 4 0 0 0 0)) s = .next t ∧ marginOf t c.val = some m ∧ m.phase = .toNeutral ∧ m.via = some via
              ∧ m.target = fget s F.SEQ_CHn_TRIM_NEUTRAL c.val ∧ keptBut s t [.regs, .seq]))
      ∧ (reaches s via 0xC015 .maintenance → fget s F.SEQ_CHn_CFG_EN_MODE c.val ≠ 0 → gangOf s c.val = none →
        (chanOn s c.val = false → s.seq.pend.contains (.chan c) = false → ∃ t, exec (.railCommandEnable via (chan ++ [0, 0, 0])) s = .next t
            ∧ t.seq = { s.seq with pend := s.seq.pend ++ [.chan c], railWait := s.seq.railWait ++ [(some via, .chan c)] }
            ∧ fget t F.SEQ_CHn_STATUS_OFF_FAULT c.val = 0 ∧ regsKept s t [(F.SEQ_CHn_STATUS_OFF_FAULT, c.val)] ∧ keptBut s t [.regs, .seq])
          ∧ (tgtCrit s (.chan c) = true → exec (.railCommandDisable via (chan ++ [1, 0, 0])) s
              = .next (declined s via 0xC015 0x010B))
          ∧ (tgtCrit s (.chan c) = false → chanOn s c.val = true → ∃ t, exec (.railCommandDisable via (chan ++ [1, 0, 0])) s = .next t
            ∧ t.seq.edges.contains (.chan c, false) = true ∧ t.seq.pend.contains (.chan c) = false
            ∧ t.outbox = s.outbox ++ sends s via 0xC015 ⟨0, 0⟩ [2] ∧ t.mbx = { s.mbx with answers := shows s via 0xC015 ⟨0, 0⟩ [2] }
            ∧ regsKept s t [(F.SEQ_CHn_STATUS_RETRYING, c.val), (F.SEQ_CTRL_STATE, 0)] ∧ keptBut s t [.seq, .mbx, .regs, .outbox]))
      ∧ (∀ n < 8, reaches s via 0xC033 .maintenance → calRefused s n = false →
        ∃ t, exec (.calibrateConverter via [BitVec.ofNat 8 n, 0, 0, 0]) s = .next t ∧ (conv t n).calibrating = true ∧ (conv t n).calVia = some via
          ∧ (conv t n).calCount = 0 ∧ (∀ k, k ≠ n → conv t k = conv s k) ∧ keptBut s t [.mcv])
      ∧ ∀ k < 96, reaches s via 0xC034 .working → diagRefused s k = false →
        ∃ t d, exec (.diagnoseInput via [BitVec.ofNat 8 k, 0, 0, 0]) s = .next t ∧ diagOf t ((convOf k).1 / 2) = some d ∧ d.input = k
          ∧ d.via = some via ∧ fget t F.MCV_DIAG_INPUT 0 = k ∧ fget t F.MCV_DIAG_RES_DONE 0 = 0
          ∧ regsKept s t [(F.MCV_DIAG_INPUT, 0), (F.MCV_DIAG_RES_INPUT, 0), (F.MCV_DIAG_RES_DONE, 0)] ∧ keptBut s t [.mcv, .regs]
end

