-- ==== Sys2Proof/Laws/Tab.lean ====
section
/-! SUPPORT. Laws of sparse tables: a read after a write, and the canonical form that every write keeps. -/
namespace Sys2Proof.Machine

variable {α : Type}

theorem tabGet_tabPut_same (d v : α) (n : Nat) (t : Tab α) : tabGet d (tabPut n v t) n = v := by
  induction t with
  | nil => simp [tabPut, tabGet]
  | cons x t ih =>
    obtain ⟨k, w⟩ := x
    by_cases h1 : n < k
    · simp [tabPut, h1, tabGet]
    · by_cases h2 : n = k
      · simp [tabPut, h2, tabGet]
      · simp [tabPut, h1, h2, tabGet, ih, Ne.symm h2]

theorem tabGet_tabPut_ne (d v : α) {n m : Nat} (h : m ≠ n) (t : Tab α) : tabGet d (tabPut n v t) m = tabGet d t m := by
  induction t with
  | nil => simp [tabPut, tabGet, Ne.symm h]
  | cons x t ih =>
    obtain ⟨k, w⟩ := x
    by_cases h1 : n < k
    · simp [tabPut, h1, tabGet, Ne.symm h]
    · by_cases h2 : n = k
      · subst h2; simp [tabPut, tabGet, Ne.symm h]
      · simp [tabPut, h1, h2, tabGet, ih]

theorem tabAbove_mono {a b : Nat} (h : a ≤ b) (t : Tab α) (ht : tabAbove b t = true) : tabAbove a t = true := by
  induction t with
  | nil => rfl
  | cons x t ih =>
    obtain ⟨k, w⟩ := x
    simp [tabAbove] at ht ⊢
    exact ⟨by omega, ih ht.2⟩

theorem tabGet_of_above (d : α) {n : Nat} (t : Tab α) (h : tabAbove n t = true) : tabGet d t n = d := by
  induction t with
  | nil => rfl
  | cons x t ih =>
    obtain ⟨k, w⟩ := x
    simp [tabAbove] at h
    have : k ≠ n := by omega
    simp [tabGet, this, ih h.2]

theorem tabGet_tabDel_ne (d : α) {n m : Nat} (h : m ≠ n) (t : Tab α) : tabGet d (tabDel n t) m = tabGet d t m := by
  induction t with
  | nil => rfl
  | cons x t ih =>
    obtain ⟨k, w⟩ := x
    by_cases h1 : n = k
    · subst h1; simp [tabDel, tabGet, Ne.symm h, ih]
    · simp [tabDel, h1, tabGet, ih]

theorem tabGet_tabDel_same (d : α) (n : Nat) (t : Tab α) : tabGet d (tabDel n t) n = d := by
  induction t with
  | nil => rfl
  | cons x t ih =>
    obtain ⟨k, w⟩ := x
    by_cases h1 : n = k
    · subst h1; simp [tabDel, ih]
    · simp [tabDel, h1, tabGet, Ne.symm h1, ih]

theorem tabAbove_tabDel {n m : Nat} (t : Tab α) (h : tabAbove m t = true) : tabAbove m (tabDel n t) = true := by
  induction t with
  | nil => rfl
  | cons x t ih =>
    obtain ⟨k, w⟩ := x
    simp [tabAbove] at h
    by_cases h1 : n = k
    · subst h1; simpa [tabDel] using ih h.2
    · simp [tabDel, h1, tabAbove, h.1, ih h.2]

theorem tabAbove_tabPut {n m : Nat} (v : α) (t : Tab α) (hn : m < n) (h : tabAbove m t = true) : tabAbove m (tabPut n v t) = true := by
  induction t with
  | nil => simp [tabPut, tabAbove, hn]
  | cons x t ih =>
    obtain ⟨k, w⟩ := x
    simp [tabAbove] at h
    by_cases h1 : n < k
    · simp [tabPut, h1, tabAbove, hn, h]
    · by_cases h2 : n = k
      · subst h2; simp [tabPut, tabAbove, h]
      · simp [tabPut, h1, h2, tabAbove, h.1, ih h.2]

theorem tabDel_wf [DecidableEq α] (d : α) (n : Nat) (t : Tab α) (h : tabWf d t = true) : tabWf d (tabDel n t) = true := by
  induction t with
  | nil => rfl
  | cons x t ih =>
    obtain ⟨k, w⟩ := x
    simp [tabWf] at h
    by_cases h1 : n = k
    · subst h1; simpa [tabDel] using ih h.2
    · simp [tabDel, h1, tabWf, h, ih h.2, tabAbove_tabDel t h.1.1]

theorem tabPut_wf [DecidableEq α] (d : α) (n : Nat) (v : α) (hv : v ≠ d) (t : Tab α) (h : tabWf d t = true) :
    tabWf d (tabPut n v t) = true := by
  induction t with
  | nil => simp [tabPut, tabWf, tabAbove, hv]
  | cons x t ih =>
    obtain ⟨k, w⟩ := x
    simp [tabWf] at h
    by_cases h1 : n < k
    · simp [tabPut, h1, tabWf, tabAbove, hv, h, tabAbove_mono (Nat.le_of_lt h1) t h.1.1]
    · by_cases h2 : n = k
      · subst h2; simp [tabPut, tabWf, hv, h]
      · simp [tabPut, h1, h2, tabWf, h, ih h.2]
        exact tabAbove_tabPut v t (by omega) h.1.1

/-- Writing keeps the canonical form. -/
theorem tabSet_wf [DecidableEq α] (d : α) (n : Nat) (v : α) (t : Tab α) (h : tabWf d t = true) : tabWf d (tabSet d n v t) = true := by
  by_cases hv : v = d
  · simp [tabSet, hv, tabDel_wf d n t h]
  · simp [tabSet, hv, tabPut_wf d n v hv t h]

theorem tabGet_tabSet_ne [DecidableEq α] (d v : α) {n m : Nat} (h : m ≠ n) (t : Tab α) :
    tabGet d (tabSet d n v t) m = tabGet d t m := by
  by_cases hv : v = d
  · simp [tabSet, hv, tabGet_tabDel_ne d h]
  · simp [tabSet, hv, tabGet_tabPut_ne d v h]

/-- A read gives the value last written. -/
theorem tabGet_tabSet_same [DecidableEq α] (d v : α) (n : Nat) (t : Tab α) : tabGet d (tabSet d n v t) n = v := by
  by_cases hv : v = d
  · subst hv; simp [tabSet, tabGet_tabDel_same v n t]
  · simp [tabSet, hv, tabGet_tabPut_same]

theorem tabGet_tabSet [DecidableEq α] (d v : α) (n m : Nat) (t : Tab α) :
    tabGet d (tabSet d n v t) m = if m = n then v else tabGet d t m := by
  by_cases h : m = n
  · subst h; simp [tabGet_tabSet_same]
  · simp [h, tabGet_tabSet_ne d v h]

theorem tabHas_tabDel_same (n : Nat) (t : Tab α) : tabHas (tabDel n t) n = false := by
  induction t with
  | nil => rfl
  | cons x t ih =>
    obtain ⟨k, w⟩ := x
    by_cases h1 : n = k
    · subst h1; simp [tabDel, ih]
    · simp [tabDel, h1, tabHas, Ne.symm h1, ih]

theorem nsHas_nsAdd_same (n : Nat) (l : NSet) : nsHas n (nsAdd n l) = true := by
  induction l with
  | nil => simp [nsAdd, nsHas]
  | cons k t ih =>
    by_cases h1 : n < k
    · simp [nsAdd, h1, nsHas]
    · by_cases h2 : n = k
      · simp [nsAdd, h2, nsHas]
      · simp [nsAdd, h1, h2, nsHas, ih]

theorem nsHas_nsDel_same (n : Nat) (l : NSet) : nsHas n (nsDel n l) = false := by
  induction l with
  | nil => rfl
  | cons k t ih =>
    by_cases h1 : k = n
    · simp [nsDel, h1, ih]
    · simp [nsDel, h1, nsHas, ih]

theorem nsHas_nsDel_ne {n m : Nat} (h : m ≠ n) (l : NSet) : nsHas m (nsDel n l) = nsHas m l := by
  induction l with
  | nil => rfl
  | cons k t ih =>
    by_cases h1 : k = n
    · subst h1; simp [nsDel, nsHas, Ne.symm h, ih]
    · simp [nsDel, h1, nsHas, ih]

theorem nsHas_nsAdd_ne {n m : Nat} (h : m ≠ n) (l : NSet) : nsHas m (nsAdd n l) = nsHas m l := by
  induction l with
  | nil => simp [nsAdd, nsHas, Ne.symm h]
  | cons k t ih =>
    by_cases h1 : n < k
    · simp [nsAdd, h1, nsHas, Ne.symm h]
    · by_cases h2 : n = k
      · subst h2; simp [nsAdd, nsHas, Ne.symm h]
      · simp [nsAdd, h1, h2, nsHas, ih]

theorem tabGet_eq_of_wf_ne [DecidableEq α] (d : α) (t : Tab α) (k : Nat) (v : α) (h : tabWf d ((k, v) :: t) = true) : v ≠ d := by
  simp [tabWf] at h; exact h.1.2

end Sys2Proof.Machine
end

