-- ==== Sys2Proof/Laws/State.lean ====
section
/-! SUPPORT. What each update of the state gives for each field, and the laws of register fields: later proofs never
unfold a record update. -/
namespace Sys2Proof.Machine

/-! `onHost` -/
@[simp] theorem onHost_config (f : HostPort → HostPort) (s : State) : (onHost f s).config = s.config := rfl
@[simp] theorem onHost_serial (f : HostPort → HostPort) (s : State) : (onHost f s).serial = s.serial := rfl
@[simp] theorem onHost_stepping (f : HostPort → HostPort) (s : State) : (onHost f s).stepping = s.stepping := rfl
@[simp] theorem onHost_gtc (f : HostPort → HostPort) (s : State) : (onHost f s).gtc = s.gtc := rfl
@[simp] theorem onHost_stamp (f : HostPort → HostPort) (s : State) : (onHost f s).stamp = s.stamp := rfl
@[simp] theorem onHost_mode (f : HostPort → HostPort) (s : State) : (onHost f s).mode = s.mode := rfl
@[simp] theorem onHost_regs (f : HostPort → HostPort) (s : State) : (onHost f s).regs = s.regs := rfl
@[simp] theorem onHost_setAt (f : HostPort → HostPort) (s : State) : (onHost f s).setAt = s.setAt := rfl
@[simp] theorem onHost_pins (f : HostPort → HostPort) (s : State) : (onHost f s).pins = s.pins := rfl
@[simp] theorem onHost_host (f : HostPort → HostPort) (s : State) : (onHost f s).host = f s.host := rfl
@[simp] theorem onHost_cache (f : HostPort → HostPort) (s : State) : (onHost f s).cache = s.cache := rfl
@[simp] theorem onHost_sched (f : HostPort → HostPort) (s : State) : (onHost f s).sched = s.sched := rfl
@[simp] theorem onHost_led (f : HostPort → HostPort) (s : State) : (onHost f s).led = s.led := rfl
@[simp] theorem onHost_fw (f : HostPort → HostPort) (s : State) : (onHost f s).fw = s.fw := rfl
@[simp] theorem onHost_med (f : HostPort → HostPort) (s : State) : (onHost f s).med = s.med := rfl
@[simp] theorem onHost_life (f : HostPort → HostPort) (s : State) : (onHost f s).life = s.life := rfl
@[simp] theorem onHost_seq (f : HostPort → HostPort) (s : State) : (onHost f s).seq = s.seq := rfl
@[simp] theorem onHost_mcv (f : HostPort → HostPort) (s : State) : (onHost f s).mcv = s.mcv := rfl
@[simp] theorem onHost_rcd (f : HostPort → HostPort) (s : State) : (onHost f s).rcd = s.rcd := rfl
@[simp] theorem onHost_sbg (f : HostPort → HostPort) (s : State) : (onHost f s).sbg = s.sbg := rfl
@[simp] theorem onHost_pel (f : HostPort → HostPort) (s : State) : (onHost f s).pel = s.pel := rfl
@[simp] theorem onHost_tnd (f : HostPort → HostPort) (s : State) : (onHost f s).tnd = s.tnd := rfl
@[simp] theorem onHost_mbx (f : HostPort → HostPort) (s : State) : (onHost f s).mbx = s.mbx := rfl
@[simp] theorem onHost_outbox (f : HostPort → HostPort) (s : State) : (onHost f s).outbox = s.outbox := rfl
@[simp] theorem onHost_freeIx (f : HostPort → HostPort) (s : State) : (onHost f s).freeIx = s.freeIx := rfl
@[simp] theorem onHost_pending (f : HostPort → HostPort) (s : State) : (onHost f s).pending = s.pending := rfl
@[simp] theorem fget_onHost (f : HostPort → HostPort) (s : State) (g : Fld) (i : Nat) : fget (onHost f s) g i = fget s g i := rfl
@[simp] theorem fon_onHost (f : HostPort → HostPort) (s : State) (g : Fld) (i : Nat) : fon (onHost f s) g i = fon s g i := rfl
/-! `onCache` -/
@[simp] theorem onCache_config (f : Cache → Cache) (s : State) : (onCache f s).config = s.config := rfl
@[simp] theorem onCache_serial (f : Cache → Cache) (s : State) : (onCache f s).serial = s.serial := rfl
@[simp] theorem onCache_stepping (f : Cache → Cache) (s : State) : (onCache f s).stepping = s.stepping := rfl
@[simp] theorem onCache_gtc (f : Cache → Cache) (s : State) : (onCache f s).gtc = s.gtc := rfl
@[simp] theorem onCache_stamp (f : Cache → Cache) (s : State) : (onCache f s).stamp = s.stamp := rfl
@[simp] theorem onCache_mode (f : Cache → Cache) (s : State) : (onCache f s).mode = s.mode := rfl
@[simp] theorem onCache_regs (f : Cache → Cache) (s : State) : (onCache f s).regs = s.regs := rfl
@[simp] theorem onCache_setAt (f : Cache → Cache) (s : State) : (onCache f s).setAt = s.setAt := rfl
@[simp] theorem onCache_pins (f : Cache → Cache) (s : State) : (onCache f s).pins = s.pins := rfl
@[simp] theorem onCache_host (f : Cache → Cache) (s : State) : (onCache f s).host = s.host := rfl
@[simp] theorem onCache_cache (f : Cache → Cache) (s : State) : (onCache f s).cache = f s.cache := rfl
@[simp] theorem onCache_sched (f : Cache → Cache) (s : State) : (onCache f s).sched = s.sched := rfl
@[simp] theorem onCache_led (f : Cache → Cache) (s : State) : (onCache f s).led = s.led := rfl
@[simp] theorem onCache_fw (f : Cache → Cache) (s : State) : (onCache f s).fw = s.fw := rfl
@[simp] theorem onCache_med (f : Cache → Cache) (s : State) : (onCache f s).med = s.med := rfl
@[simp] theorem onCache_life (f : Cache → Cache) (s : State) : (onCache f s).life = s.life := rfl
@[simp] theorem onCache_seq (f : Cache → Cache) (s : State) : (onCache f s).seq = s.seq := rfl
@[simp] theorem onCache_mcv (f : Cache → Cache) (s : State) : (onCache f s).mcv = s.mcv := rfl
@[simp] theorem onCache_rcd (f : Cache → Cache) (s : State) : (onCache f s).rcd = s.rcd := rfl
@[simp] theorem onCache_sbg (f : Cache → Cache) (s : State) : (onCache f s).sbg = s.sbg := rfl
@[simp] theorem onCache_pel (f : Cache → Cache) (s : State) : (onCache f s).pel = s.pel := rfl
@[simp] theorem onCache_tnd (f : Cache → Cache) (s : State) : (onCache f s).tnd = s.tnd := rfl
@[simp] theorem onCache_mbx (f : Cache → Cache) (s : State) : (onCache f s).mbx = s.mbx := rfl
@[simp] theorem onCache_outbox (f : Cache → Cache) (s : State) : (onCache f s).outbox = s.outbox := rfl
@[simp] theorem onCache_freeIx (f : Cache → Cache) (s : State) : (onCache f s).freeIx = s.freeIx := rfl
@[simp] theorem onCache_pending (f : Cache → Cache) (s : State) : (onCache f s).pending = s.pending := rfl
@[simp] theorem fget_onCache (f : Cache → Cache) (s : State) (g : Fld) (i : Nat) : fget (onCache f s) g i = fget s g i := rfl
@[simp] theorem fon_onCache (f : Cache → Cache) (s : State) (g : Fld) (i : Nat) : fon (onCache f s) g i = fon s g i := rfl
/-! `onSched` -/
@[simp] theorem onSched_config (f : Sched → Sched) (s : State) : (onSched f s).config = s.config := rfl
@[simp] theorem onSched_serial (f : Sched → Sched) (s : State) : (onSched f s).serial = s.serial := rfl
@[simp] theorem onSched_stepping (f : Sched → Sched) (s : State) : (onSched f s).stepping = s.stepping := rfl
@[simp] theorem onSched_gtc (f : Sched → Sched) (s : State) : (onSched f s).gtc = s.gtc := rfl
@[simp] theorem onSched_stamp (f : Sched → Sched) (s : State) : (onSched f s).stamp = s.stamp := rfl
@[simp] theorem onSched_mode (f : Sched → Sched) (s : State) : (onSched f s).mode = s.mode := rfl
@[simp] theorem onSched_regs (f : Sched → Sched) (s : State) : (onSched f s).regs = s.regs := rfl
@[simp] theorem onSched_setAt (f : Sched → Sched) (s : State) : (onSched f s).setAt = s.setAt := rfl
@[simp] theorem onSched_pins (f : Sched → Sched) (s : State) : (onSched f s).pins = s.pins := rfl
@[simp] theorem onSched_host (f : Sched → Sched) (s : State) : (onSched f s).host = s.host := rfl
@[simp] theorem onSched_cache (f : Sched → Sched) (s : State) : (onSched f s).cache = s.cache := rfl
@[simp] theorem onSched_sched (f : Sched → Sched) (s : State) : (onSched f s).sched = f s.sched := rfl
@[simp] theorem onSched_led (f : Sched → Sched) (s : State) : (onSched f s).led = s.led := rfl
@[simp] theorem onSched_fw (f : Sched → Sched) (s : State) : (onSched f s).fw = s.fw := rfl
@[simp] theorem onSched_med (f : Sched → Sched) (s : State) : (onSched f s).med = s.med := rfl
@[simp] theorem onSched_life (f : Sched → Sched) (s : State) : (onSched f s).life = s.life := rfl
@[simp] theorem onSched_seq (f : Sched → Sched) (s : State) : (onSched f s).seq = s.seq := rfl
@[simp] theorem onSched_mcv (f : Sched → Sched) (s : State) : (onSched f s).mcv = s.mcv := rfl
@[simp] theorem onSched_rcd (f : Sched → Sched) (s : State) : (onSched f s).rcd = s.rcd := rfl
@[simp] theorem onSched_sbg (f : Sched → Sched) (s : State) : (onSched f s).sbg = s.sbg := rfl
@[simp] theorem onSched_pel (f : Sched → Sched) (s : State) : (onSched f s).pel = s.pel := rfl
@[simp] theorem onSched_tnd (f : Sched → Sched) (s : State) : (onSched f s).tnd = s.tnd := rfl
@[simp] theorem onSched_mbx (f : Sched → Sched) (s : State) : (onSched f s).mbx = s.mbx := rfl
@[simp] theorem onSched_outbox (f : Sched → Sched) (s : State) : (onSched f s).outbox = s.outbox := rfl
@[simp] theorem onSched_freeIx (f : Sched → Sched) (s : State) : (onSched f s).freeIx = s.freeIx := rfl
@[simp] theorem onSched_pending (f : Sched → Sched) (s : State) : (onSched f s).pending = s.pending := rfl
@[simp] theorem fget_onSched (f : Sched → Sched) (s : State) (g : Fld) (i : Nat) : fget (onSched f s) g i = fget s g i := rfl
@[simp] theorem fon_onSched (f : Sched → Sched) (s : State) (g : Fld) (i : Nat) : fon (onSched f s) g i = fon s g i := rfl
/-! `onLed` -/
@[simp] theorem onLed_config (f : Ledger → Ledger) (s : State) : (onLed f s).config = s.config := rfl
@[simp] theorem onLed_serial (f : Ledger → Ledger) (s : State) : (onLed f s).serial = s.serial := rfl
@[simp] theorem onLed_stepping (f : Ledger → Ledger) (s : State) : (onLed f s).stepping = s.stepping := rfl
@[simp] theorem onLed_gtc (f : Ledger → Ledger) (s : State) : (onLed f s).gtc = s.gtc := rfl
@[simp] theorem onLed_stamp (f : Ledger → Ledger) (s : State) : (onLed f s).stamp = s.stamp := rfl
@[simp] theorem onLed_mode (f : Ledger → Ledger) (s : State) : (onLed f s).mode = s.mode := rfl
@[simp] theorem onLed_regs (f : Ledger → Ledger) (s : State) : (onLed f s).regs = s.regs := rfl
@[simp] theorem onLed_setAt (f : Ledger → Ledger) (s : State) : (onLed f s).setAt = s.setAt := rfl
@[simp] theorem onLed_pins (f : Ledger → Ledger) (s : State) : (onLed f s).pins = s.pins := rfl
@[simp] theorem onLed_host (f : Ledger → Ledger) (s : State) : (onLed f s).host = s.host := rfl
@[simp] theorem onLed_cache (f : Ledger → Ledger) (s : State) : (onLed f s).cache = s.cache := rfl
@[simp] theorem onLed_sched (f : Ledger → Ledger) (s : State) : (onLed f s).sched = s.sched := rfl
@[simp] theorem onLed_led (f : Ledger → Ledger) (s : State) : (onLed f s).led = f s.led := rfl
@[simp] theorem onLed_fw (f : Ledger → Ledger) (s : State) : (onLed f s).fw = s.fw := rfl
@[simp] theorem onLed_med (f : Ledger → Ledger) (s : State) : (onLed f s).med = s.med := rfl
@[simp] theorem onLed_life (f : Ledger → Ledger) (s : State) : (onLed f s).life = s.life := rfl
@[simp] theorem onLed_seq (f : Ledger → Ledger) (s : State) : (onLed f s).seq = s.seq := rfl
@[simp] theorem onLed_mcv (f : Ledger → Ledger) (s : State) : (onLed f s).mcv = s.mcv := rfl
@[simp] theorem onLed_rcd (f : Ledger → Ledger) (s : State) : (onLed f s).rcd = s.rcd := rfl
@[simp] theorem onLed_sbg (f : Ledger → Ledger) (s : State) : (onLed f s).sbg = s.sbg := rfl
@[simp] theorem onLed_pel (f : Ledger → Ledger) (s : State) : (onLed f s).pel = s.pel := rfl
@[simp] theorem onLed_tnd (f : Ledger → Ledger) (s : State) : (onLed f s).tnd = s.tnd := rfl
@[simp] theorem onLed_mbx (f : Ledger → Ledger) (s : State) : (onLed f s).mbx = s.mbx := rfl
@[simp] theorem onLed_outbox (f : Ledger → Ledger) (s : State) : (onLed f s).outbox = s.outbox := rfl
@[simp] theorem onLed_freeIx (f : Ledger → Ledger) (s : State) : (onLed f s).freeIx = s.freeIx := rfl
@[simp] theorem onLed_pending (f : Ledger → Ledger) (s : State) : (onLed f s).pending = s.pending := rfl
@[simp] theorem fget_onLed (f : Ledger → Ledger) (s : State) (g : Fld) (i : Nat) : fget (onLed f s) g i = fget s g i := rfl
@[simp] theorem fon_onLed (f : Ledger → Ledger) (s : State) (g : Fld) (i : Nat) : fon (onLed f s) g i = fon s g i := rfl
/-! `onFw` -/
@[simp] theorem onFw_config (f : Freewheel → Freewheel) (s : State) : (onFw f s).config = s.config := rfl
@[simp] theorem onFw_serial (f : Freewheel → Freewheel) (s : State) : (onFw f s).serial = s.serial := rfl
@[simp] theorem onFw_stepping (f : Freewheel → Freewheel) (s : State) : (onFw f s).stepping = s.stepping := rfl
@[simp] theorem onFw_gtc (f : Freewheel → Freewheel) (s : State) : (onFw f s).gtc = s.gtc := rfl
@[simp] theorem onFw_stamp (f : Freewheel → Freewheel) (s : State) : (onFw f s).stamp = s.stamp := rfl
@[simp] theorem onFw_mode (f : Freewheel → Freewheel) (s : State) : (onFw f s).mode = s.mode := rfl
@[simp] theorem onFw_regs (f : Freewheel → Freewheel) (s : State) : (onFw f s).regs = s.regs := rfl
@[simp] theorem onFw_setAt (f : Freewheel → Freewheel) (s : State) : (onFw f s).setAt = s.setAt := rfl
@[simp] theorem onFw_pins (f : Freewheel → Freewheel) (s : State) : (onFw f s).pins = s.pins := rfl
@[simp] theorem onFw_host (f : Freewheel → Freewheel) (s : State) : (onFw f s).host = s.host := rfl
@[simp] theorem onFw_cache (f : Freewheel → Freewheel) (s : State) : (onFw f s).cache = s.cache := rfl
@[simp] theorem onFw_sched (f : Freewheel → Freewheel) (s : State) : (onFw f s).sched = s.sched := rfl
@[simp] theorem onFw_led (f : Freewheel → Freewheel) (s : State) : (onFw f s).led = s.led := rfl
@[simp] theorem onFw_fw (f : Freewheel → Freewheel) (s : State) : (onFw f s).fw = f s.fw := rfl
@[simp] theorem onFw_med (f : Freewheel → Freewheel) (s : State) : (onFw f s).med = s.med := rfl
@[simp] theorem onFw_life (f : Freewheel → Freewheel) (s : State) : (onFw f s).life = s.life := rfl
@[simp] theorem onFw_seq (f : Freewheel → Freewheel) (s : State) : (onFw f s).seq = s.seq := rfl
@[simp] theorem onFw_mcv (f : Freewheel → Freewheel) (s : State) : (onFw f s).mcv = s.mcv := rfl
@[simp] theorem onFw_rcd (f : Freewheel → Freewheel) (s : State) : (onFw f s).rcd = s.rcd := rfl
@[simp] theorem onFw_sbg (f : Freewheel → Freewheel) (s : State) : (onFw f s).sbg = s.sbg := rfl
@[simp] theorem onFw_pel (f : Freewheel → Freewheel) (s : State) : (onFw f s).pel = s.pel := rfl
@[simp] theorem onFw_tnd (f : Freewheel → Freewheel) (s : State) : (onFw f s).tnd = s.tnd := rfl
@[simp] theorem onFw_mbx (f : Freewheel → Freewheel) (s : State) : (onFw f s).mbx = s.mbx := rfl
@[simp] theorem onFw_outbox (f : Freewheel → Freewheel) (s : State) : (onFw f s).outbox = s.outbox := rfl
@[simp] theorem onFw_freeIx (f : Freewheel → Freewheel) (s : State) : (onFw f s).freeIx = s.freeIx := rfl
@[simp] theorem onFw_pending (f : Freewheel → Freewheel) (s : State) : (onFw f s).pending = s.pending := rfl
@[simp] theorem fget_onFw (f : Freewheel → Freewheel) (s : State) (g : Fld) (i : Nat) : fget (onFw f s) g i = fget s g i := rfl
@[simp] theorem fon_onFw (f : Freewheel → Freewheel) (s : State) (g : Fld) (i : Nat) : fon (onFw f s) g i = fon s g i := rfl
/-! `onMed` -/
@[simp] theorem onMed_config (f : Media → Media) (s : State) : (onMed f s).config = s.config := rfl
@[simp] theorem onMed_serial (f : Media → Media) (s : State) : (onMed f s).serial = s.serial := rfl
@[simp] theorem onMed_stepping (f : Media → Media) (s : State) : (onMed f s).stepping = s.stepping := rfl
@[simp] theorem onMed_gtc (f : Media → Media) (s : State) : (onMed f s).gtc = s.gtc := rfl
@[simp] theorem onMed_stamp (f : Media → Media) (s : State) : (onMed f s).stamp = s.stamp := rfl
@[simp] theorem onMed_mode (f : Media → Media) (s : State) : (onMed f s).mode = s.mode := rfl
@[simp] theorem onMed_regs (f : Media → Media) (s : State) : (onMed f s).regs = s.regs := rfl
@[simp] theorem onMed_setAt (f : Media → Media) (s : State) : (onMed f s).setAt = s.setAt := rfl
@[simp] theorem onMed_pins (f : Media → Media) (s : State) : (onMed f s).pins = s.pins := rfl
@[simp] theorem onMed_host (f : Media → Media) (s : State) : (onMed f s).host = s.host := rfl
@[simp] theorem onMed_cache (f : Media → Media) (s : State) : (onMed f s).cache = s.cache := rfl
@[simp] theorem onMed_sched (f : Media → Media) (s : State) : (onMed f s).sched = s.sched := rfl
@[simp] theorem onMed_led (f : Media → Media) (s : State) : (onMed f s).led = s.led := rfl
@[simp] theorem onMed_fw (f : Media → Media) (s : State) : (onMed f s).fw = s.fw := rfl
@[simp] theorem onMed_med (f : Media → Media) (s : State) : (onMed f s).med = f s.med := rfl
@[simp] theorem onMed_life (f : Media → Media) (s : State) : (onMed f s).life = s.life := rfl
@[simp] theorem onMed_seq (f : Media → Media) (s : State) : (onMed f s).seq = s.seq := rfl
@[simp] theorem onMed_mcv (f : Media → Media) (s : State) : (onMed f s).mcv = s.mcv := rfl
@[simp] theorem onMed_rcd (f : Media → Media) (s : State) : (onMed f s).rcd = s.rcd := rfl
@[simp] theorem onMed_sbg (f : Media → Media) (s : State) : (onMed f s).sbg = s.sbg := rfl
@[simp] theorem onMed_pel (f : Media → Media) (s : State) : (onMed f s).pel = s.pel := rfl
@[simp] theorem onMed_tnd (f : Media → Media) (s : State) : (onMed f s).tnd = s.tnd := rfl
@[simp] theorem onMed_mbx (f : Media → Media) (s : State) : (onMed f s).mbx = s.mbx := rfl
@[simp] theorem onMed_outbox (f : Media → Media) (s : State) : (onMed f s).outbox = s.outbox := rfl
@[simp] theorem onMed_freeIx (f : Media → Media) (s : State) : (onMed f s).freeIx = s.freeIx := rfl
@[simp] theorem onMed_pending (f : Media → Media) (s : State) : (onMed f s).pending = s.pending := rfl
@[simp] theorem fget_onMed (f : Media → Media) (s : State) (g : Fld) (i : Nat) : fget (onMed f s) g i = fget s g i := rfl
@[simp] theorem fon_onMed (f : Media → Media) (s : State) (g : Fld) (i : Nat) : fon (onMed f s) g i = fon s g i := rfl
/-! `onLife` -/
@[simp] theorem onLife_config (f : Life → Life) (s : State) : (onLife f s).config = s.config := rfl
@[simp] theorem onLife_serial (f : Life → Life) (s : State) : (onLife f s).serial = s.serial := rfl
@[simp] theorem onLife_stepping (f : Life → Life) (s : State) : (onLife f s).stepping = s.stepping := rfl
@[simp] theorem onLife_gtc (f : Life → Life) (s : State) : (onLife f s).gtc = s.gtc := rfl
@[simp] theorem onLife_stamp (f : Life → Life) (s : State) : (onLife f s).stamp = s.stamp := rfl
@[simp] theorem onLife_mode (f : Life → Life) (s : State) : (onLife f s).mode = s.mode := rfl
@[simp] theorem onLife_regs (f : Life → Life) (s : State) : (onLife f s).regs = s.regs := rfl
@[simp] theorem onLife_setAt (f : Life → Life) (s : State) : (onLife f s).setAt = s.setAt := rfl
@[simp] theorem onLife_pins (f : Life → Life) (s : State) : (onLife f s).pins = s.pins := rfl
@[simp] theorem onLife_host (f : Life → Life) (s : State) : (onLife f s).host = s.host := rfl
@[simp] theorem onLife_cache (f : Life → Life) (s : State) : (onLife f s).cache = s.cache := rfl
@[simp] theorem onLife_sched (f : Life → Life) (s : State) : (onLife f s).sched = s.sched := rfl
@[simp] theorem onLife_led (f : Life → Life) (s : State) : (onLife f s).led = s.led := rfl
@[simp] theorem onLife_fw (f : Life → Life) (s : State) : (onLife f s).fw = s.fw := rfl
@[simp] theorem onLife_med (f : Life → Life) (s : State) : (onLife f s).med = s.med := rfl
@[simp] theorem onLife_life (f : Life → Life) (s : State) : (onLife f s).life = f s.life := rfl
@[simp] theorem onLife_seq (f : Life → Life) (s : State) : (onLife f s).seq = s.seq := rfl
@[simp] theorem onLife_mcv (f : Life → Life) (s : State) : (onLife f s).mcv = s.mcv := rfl
@[simp] theorem onLife_rcd (f : Life → Life) (s : State) : (onLife f s).rcd = s.rcd := rfl
@[simp] theorem onLife_sbg (f : Life → Life) (s : State) : (onLife f s).sbg = s.sbg := rfl
@[simp] theorem onLife_pel (f : Life → Life) (s : State) : (onLife f s).pel = s.pel := rfl
@[simp] theorem onLife_tnd (f : Life → Life) (s : State) : (onLife f s).tnd = s.tnd := rfl
@[simp] theorem onLife_mbx (f : Life → Life) (s : State) : (onLife f s).mbx = s.mbx := rfl
@[simp] theorem onLife_outbox (f : Life → Life) (s : State) : (onLife f s).outbox = s.outbox := rfl
@[simp] theorem onLife_freeIx (f : Life → Life) (s : State) : (onLife f s).freeIx = s.freeIx := rfl
@[simp] theorem onLife_pending (f : Life → Life) (s : State) : (onLife f s).pending = s.pending := rfl
@[simp] theorem fget_onLife (f : Life → Life) (s : State) (g : Fld) (i : Nat) : fget (onLife f s) g i = fget s g i := rfl
@[simp] theorem fon_onLife (f : Life → Life) (s : State) (g : Fld) (i : Nat) : fon (onLife f s) g i = fon s g i := rfl
/-! `onSeq` -/
@[simp] theorem onSeq_config (f : Sequencer → Sequencer) (s : State) : (onSeq f s).config = s.config := rfl
@[simp] theorem onSeq_serial (f : Sequencer → Sequencer) (s : State) : (onSeq f s).serial = s.serial := rfl
@[simp] theorem onSeq_stepping (f : Sequencer → Sequencer) (s : State) : (onSeq f s).stepping = s.stepping := rfl
@[simp] theorem onSeq_gtc (f : Sequencer → Sequencer) (s : State) : (onSeq f s).gtc = s.gtc := rfl
@[simp] theorem onSeq_stamp (f : Sequencer → Sequencer) (s : State) : (onSeq f s).stamp = s.stamp := rfl
@[simp] theorem onSeq_mode (f : Sequencer → Sequencer) (s : State) : (onSeq f s).mode = s.mode := rfl
@[simp] theorem onSeq_regs (f : Sequencer → Sequencer) (s : State) : (onSeq f s).regs = s.regs := rfl
@[simp] theorem onSeq_setAt (f : Sequencer → Sequencer) (s : State) : (onSeq f s).setAt = s.setAt := rfl
@[simp] theorem onSeq_pins (f : Sequencer → Sequencer) (s : State) : (onSeq f s).pins = s.pins := rfl
@[simp] theorem onSeq_host (f : Sequencer → Sequencer) (s : State) : (onSeq f s).host = s.host := rfl
@[simp] theorem onSeq_cache (f : Sequencer → Sequencer) (s : State) : (onSeq f s).cache = s.cache := rfl
@[simp] theorem onSeq_sched (f : Sequencer → Sequencer) (s : State) : (onSeq f s).sched = s.sched := rfl
@[simp] theorem onSeq_led (f : Sequencer → Sequencer) (s : State) : (onSeq f s).led = s.led := rfl
@[simp] theorem onSeq_fw (f : Sequencer → Sequencer) (s : State) : (onSeq f s).fw = s.fw := rfl
@[simp] theorem onSeq_med (f : Sequencer → Sequencer) (s : State) : (onSeq f s).med = s.med := rfl
@[simp] theorem onSeq_life (f : Sequencer → Sequencer) (s : State) : (onSeq f s).life = s.life := rfl
@[simp] theorem onSeq_seq (f : Sequencer → Sequencer) (s : State) : (onSeq f s).seq = f s.seq := rfl
@[simp] theorem onSeq_mcv (f : Sequencer → Sequencer) (s : State) : (onSeq f s).mcv = s.mcv := rfl
@[simp] theorem onSeq_rcd (f : Sequencer → Sequencer) (s : State) : (onSeq f s).rcd = s.rcd := rfl
@[simp] theorem onSeq_sbg (f : Sequencer → Sequencer) (s : State) : (onSeq f s).sbg = s.sbg := rfl
@[simp] theorem onSeq_pel (f : Sequencer → Sequencer) (s : State) : (onSeq f s).pel = s.pel := rfl
@[simp] theorem onSeq_tnd (f : Sequencer → Sequencer) (s : State) : (onSeq f s).tnd = s.tnd := rfl
@[simp] theorem onSeq_mbx (f : Sequencer → Sequencer) (s : State) : (onSeq f s).mbx = s.mbx := rfl
@[simp] theorem onSeq_outbox (f : Sequencer → Sequencer) (s : State) : (onSeq f s).outbox = s.outbox := rfl
@[simp] theorem onSeq_freeIx (f : Sequencer → Sequencer) (s : State) : (onSeq f s).freeIx = s.freeIx := rfl
@[simp] theorem onSeq_pending (f : Sequencer → Sequencer) (s : State) : (onSeq f s).pending = s.pending := rfl
@[simp] theorem fget_onSeq (f : Sequencer → Sequencer) (s : State) (g : Fld) (i : Nat) : fget (onSeq f s) g i = fget s g i := rfl
@[simp] theorem fon_onSeq (f : Sequencer → Sequencer) (s : State) (g : Fld) (i : Nat) : fon (onSeq f s) g i = fon s g i := rfl
/-! `onMcv` -/
@[simp] theorem onMcv_config (f : Converters → Converters) (s : State) : (onMcv f s).config = s.config := rfl
@[simp] theorem onMcv_serial (f : Converters → Converters) (s : State) : (onMcv f s).serial = s.serial := rfl
@[simp] theorem onMcv_stepping (f : Converters → Converters) (s : State) : (onMcv f s).stepping = s.stepping := rfl
@[simp] theorem onMcv_gtc (f : Converters → Converters) (s : State) : (onMcv f s).gtc = s.gtc := rfl
@[simp] theorem onMcv_stamp (f : Converters → Converters) (s : State) : (onMcv f s).stamp = s.stamp := rfl
@[simp] theorem onMcv_mode (f : Converters → Converters) (s : State) : (onMcv f s).mode = s.mode := rfl
@[simp] theorem onMcv_regs (f : Converters → Converters) (s : State) : (onMcv f s).regs = s.regs := rfl
@[simp] theorem onMcv_setAt (f : Converters → Converters) (s : State) : (onMcv f s).setAt = s.setAt := rfl
@[simp] theorem onMcv_pins (f : Converters → Converters) (s : State) : (onMcv f s).pins = s.pins := rfl
@[simp] theorem onMcv_host (f : Converters → Converters) (s : State) : (onMcv f s).host = s.host := rfl
@[simp] theorem onMcv_cache (f : Converters → Converters) (s : State) : (onMcv f s).cache = s.cache := rfl
@[simp] theorem onMcv_sched (f : Converters → Converters) (s : State) : (onMcv f s).sched = s.sched := rfl
@[simp] theorem onMcv_led (f : Converters → Converters) (s : State) : (onMcv f s).led = s.led := rfl
@[simp] theorem onMcv_fw (f : Converters → Converters) (s : State) : (onMcv f s).fw = s.fw := rfl
@[simp] theorem onMcv_med (f : Converters → Converters) (s : State) : (onMcv f s).med = s.med := rfl
@[simp] theorem onMcv_life (f : Converters → Converters) (s : State) : (onMcv f s).life = s.life := rfl
@[simp] theorem onMcv_seq (f : Converters → Converters) (s : State) : (onMcv f s).seq = s.seq := rfl
@[simp] theorem onMcv_mcv (f : Converters → Converters) (s : State) : (onMcv f s).mcv = f s.mcv := rfl
@[simp] theorem onMcv_rcd (f : Converters → Converters) (s : State) : (onMcv f s).rcd = s.rcd := rfl
@[simp] theorem onMcv_sbg (f : Converters → Converters) (s : State) : (onMcv f s).sbg = s.sbg := rfl
@[simp] theorem onMcv_pel (f : Converters → Converters) (s : State) : (onMcv f s).pel = s.pel := rfl
@[simp] theorem onMcv_tnd (f : Converters → Converters) (s : State) : (onMcv f s).tnd = s.tnd := rfl
@[simp] theorem onMcv_mbx (f : Converters → Converters) (s : State) : (onMcv f s).mbx = s.mbx := rfl
@[simp] theorem onMcv_outbox (f : Converters → Converters) (s : State) : (onMcv f s).outbox = s.outbox := rfl
@[simp] theorem onMcv_freeIx (f : Converters → Converters) (s : State) : (onMcv f s).freeIx = s.freeIx := rfl
@[simp] theorem onMcv_pending (f : Converters → Converters) (s : State) : (onMcv f s).pending = s.pending := rfl
@[simp] theorem fget_onMcv (f : Converters → Converters) (s : State) (g : Fld) (i : Nat) : fget (onMcv f s) g i = fget s g i := rfl
@[simp] theorem fon_onMcv (f : Converters → Converters) (s : State) (g : Fld) (i : Nat) : fon (onMcv f s) g i = fon s g i := rfl
/-! `onRcd` -/
@[simp] theorem onRcd_config (f : Recorder → Recorder) (s : State) : (onRcd f s).config = s.config := rfl
@[simp] theorem onRcd_serial (f : Recorder → Recorder) (s : State) : (onRcd f s).serial = s.serial := rfl
@[simp] theorem onRcd_stepping (f : Recorder → Recorder) (s : State) : (onRcd f s).stepping = s.stepping := rfl
@[simp] theorem onRcd_gtc (f : Recorder → Recorder) (s : State) : (onRcd f s).gtc = s.gtc := rfl
@[simp] theorem onRcd_stamp (f : Recorder → Recorder) (s : State) : (onRcd f s).stamp = s.stamp := rfl
@[simp] theorem onRcd_mode (f : Recorder → Recorder) (s : State) : (onRcd f s).mode = s.mode := rfl
@[simp] theorem onRcd_regs (f : Recorder → Recorder) (s : State) : (onRcd f s).regs = s.regs := rfl
@[simp] theorem onRcd_setAt (f : Recorder → Recorder) (s : State) : (onRcd f s).setAt = s.setAt := rfl
@[simp] theorem onRcd_pins (f : Recorder → Recorder) (s : State) : (onRcd f s).pins = s.pins := rfl
@[simp] theorem onRcd_host (f : Recorder → Recorder) (s : State) : (onRcd f s).host = s.host := rfl
@[simp] theorem onRcd_cache (f : Recorder → Recorder) (s : State) : (onRcd f s).cache = s.cache := rfl
@[simp] theorem onRcd_sched (f : Recorder → Recorder) (s : State) : (onRcd f s).sched = s.sched := rfl
@[simp] theorem onRcd_led (f : Recorder → Recorder) (s : State) : (onRcd f s).led = s.led := rfl
@[simp] theorem onRcd_fw (f : Recorder → Recorder) (s : State) : (onRcd f s).fw = s.fw := rfl
@[simp] theorem onRcd_med (f : Recorder → Recorder) (s : State) : (onRcd f s).med = s.med := rfl
@[simp] theorem onRcd_life (f : Recorder → Recorder) (s : State) : (onRcd f s).life = s.life := rfl
@[simp] theorem onRcd_seq (f : Recorder → Recorder) (s : State) : (onRcd f s).seq = s.seq := rfl
@[simp] theorem onRcd_mcv (f : Recorder → Recorder) (s : State) : (onRcd f s).mcv = s.mcv := rfl
@[simp] theorem onRcd_rcd (f : Recorder → Recorder) (s : State) : (onRcd f s).rcd = f s.rcd := rfl
@[simp] theorem onRcd_sbg (f : Recorder → Recorder) (s : State) : (onRcd f s).sbg = s.sbg := rfl
@[simp] theorem onRcd_pel (f : Recorder → Recorder) (s : State) : (onRcd f s).pel = s.pel := rfl
@[simp] theorem onRcd_tnd (f : Recorder → Recorder) (s : State) : (onRcd f s).tnd = s.tnd := rfl
@[simp] theorem onRcd_mbx (f : Recorder → Recorder) (s : State) : (onRcd f s).mbx = s.mbx := rfl
@[simp] theorem onRcd_outbox (f : Recorder → Recorder) (s : State) : (onRcd f s).outbox = s.outbox := rfl
@[simp] theorem onRcd_freeIx (f : Recorder → Recorder) (s : State) : (onRcd f s).freeIx = s.freeIx := rfl
@[simp] theorem onRcd_pending (f : Recorder → Recorder) (s : State) : (onRcd f s).pending = s.pending := rfl
@[simp] theorem fget_onRcd (f : Recorder → Recorder) (s : State) (g : Fld) (i : Nat) : fget (onRcd f s) g i = fget s g i := rfl
@[simp] theorem fon_onRcd (f : Recorder → Recorder) (s : State) (g : Fld) (i : Nat) : fon (onRcd f s) g i = fon s g i := rfl
/-! `onSbg` -/
@[simp] theorem onSbg_config (f : Saddlebag → Saddlebag) (s : State) : (onSbg f s).config = s.config := rfl
@[simp] theorem onSbg_serial (f : Saddlebag → Saddlebag) (s : State) : (onSbg f s).serial = s.serial := rfl
@[simp] theorem onSbg_stepping (f : Saddlebag → Saddlebag) (s : State) : (onSbg f s).stepping = s.stepping := rfl
@[simp] theorem onSbg_gtc (f : Saddlebag → Saddlebag) (s : State) : (onSbg f s).gtc = s.gtc := rfl
@[simp] theorem onSbg_stamp (f : Saddlebag → Saddlebag) (s : State) : (onSbg f s).stamp = s.stamp := rfl
@[simp] theorem onSbg_mode (f : Saddlebag → Saddlebag) (s : State) : (onSbg f s).mode = s.mode := rfl
@[simp] theorem onSbg_regs (f : Saddlebag → Saddlebag) (s : State) : (onSbg f s).regs = s.regs := rfl
@[simp] theorem onSbg_setAt (f : Saddlebag → Saddlebag) (s : State) : (onSbg f s).setAt = s.setAt := rfl
@[simp] theorem onSbg_pins (f : Saddlebag → Saddlebag) (s : State) : (onSbg f s).pins = s.pins := rfl
@[simp] theorem onSbg_host (f : Saddlebag → Saddlebag) (s : State) : (onSbg f s).host = s.host := rfl
@[simp] theorem onSbg_cache (f : Saddlebag → Saddlebag) (s : State) : (onSbg f s).cache = s.cache := rfl
@[simp] theorem onSbg_sched (f : Saddlebag → Saddlebag) (s : State) : (onSbg f s).sched = s.sched := rfl
@[simp] theorem onSbg_led (f : Saddlebag → Saddlebag) (s : State) : (onSbg f s).led = s.led := rfl
@[simp] theorem onSbg_fw (f : Saddlebag → Saddlebag) (s : State) : (onSbg f s).fw = s.fw := rfl
@[simp] theorem onSbg_med (f : Saddlebag → Saddlebag) (s : State) : (onSbg f s).med = s.med := rfl
@[simp] theorem onSbg_life (f : Saddlebag → Saddlebag) (s : State) : (onSbg f s).life = s.life := rfl
@[simp] theorem onSbg_seq (f : Saddlebag → Saddlebag) (s : State) : (onSbg f s).seq = s.seq := rfl
@[simp] theorem onSbg_mcv (f : Saddlebag → Saddlebag) (s : State) : (onSbg f s).mcv = s.mcv := rfl
@[simp] theorem onSbg_rcd (f : Saddlebag → Saddlebag) (s : State) : (onSbg f s).rcd = s.rcd := rfl
@[simp] theorem onSbg_sbg (f : Saddlebag → Saddlebag) (s : State) : (onSbg f s).sbg = f s.sbg := rfl
@[simp] theorem onSbg_pel (f : Saddlebag → Saddlebag) (s : State) : (onSbg f s).pel = s.pel := rfl
@[simp] theorem onSbg_tnd (f : Saddlebag → Saddlebag) (s : State) : (onSbg f s).tnd = s.tnd := rfl
@[simp] theorem onSbg_mbx (f : Saddlebag → Saddlebag) (s : State) : (onSbg f s).mbx = s.mbx := rfl
@[simp] theorem onSbg_outbox (f : Saddlebag → Saddlebag) (s : State) : (onSbg f s).outbox = s.outbox := rfl
@[simp] theorem onSbg_freeIx (f : Saddlebag → Saddlebag) (s : State) : (onSbg f s).freeIx = s.freeIx := rfl
@[simp] theorem onSbg_pending (f : Saddlebag → Saddlebag) (s : State) : (onSbg f s).pending = s.pending := rfl
@[simp] theorem fget_onSbg (f : Saddlebag → Saddlebag) (s : State) (g : Fld) (i : Nat) : fget (onSbg f s) g i = fget s g i := rfl
@[simp] theorem fon_onSbg (f : Saddlebag → Saddlebag) (s : State) (g : Fld) (i : Nat) : fon (onSbg f s) g i = fon s g i := rfl
/-! `onPel` -/
@[simp] theorem onPel_config (f : Peloton → Peloton) (s : State) : (onPel f s).config = s.config := rfl
@[simp] theorem onPel_serial (f : Peloton → Peloton) (s : State) : (onPel f s).serial = s.serial := rfl
@[simp] theorem onPel_stepping (f : Peloton → Peloton) (s : State) : (onPel f s).stepping = s.stepping := rfl
@[simp] theorem onPel_gtc (f : Peloton → Peloton) (s : State) : (onPel f s).gtc = s.gtc := rfl
@[simp] theorem onPel_stamp (f : Peloton → Peloton) (s : State) : (onPel f s).stamp = s.stamp := rfl
@[simp] theorem onPel_mode (f : Peloton → Peloton) (s : State) : (onPel f s).mode = s.mode := rfl
@[simp] theorem onPel_regs (f : Peloton → Peloton) (s : State) : (onPel f s).regs = s.regs := rfl
@[simp] theorem onPel_setAt (f : Peloton → Peloton) (s : State) : (onPel f s).setAt = s.setAt := rfl
@[simp] theorem onPel_pins (f : Peloton → Peloton) (s : State) : (onPel f s).pins = s.pins := rfl
@[simp] theorem onPel_host (f : Peloton → Peloton) (s : State) : (onPel f s).host = s.host := rfl
@[simp] theorem onPel_cache (f : Peloton → Peloton) (s : State) : (onPel f s).cache = s.cache := rfl
@[simp] theorem onPel_sched (f : Peloton → Peloton) (s : State) : (onPel f s).sched = s.sched := rfl
@[simp] theorem onPel_led (f : Peloton → Peloton) (s : State) : (onPel f s).led = s.led := rfl
@[simp] theorem onPel_fw (f : Peloton → Peloton) (s : State) : (onPel f s).fw = s.fw := rfl
@[simp] theorem onPel_med (f : Peloton → Peloton) (s : State) : (onPel f s).med = s.med := rfl
@[simp] theorem onPel_life (f : Peloton → Peloton) (s : State) : (onPel f s).life = s.life := rfl
@[simp] theorem onPel_seq (f : Peloton → Peloton) (s : State) : (onPel f s).seq = s.seq := rfl
@[simp] theorem onPel_mcv (f : Peloton → Peloton) (s : State) : (onPel f s).mcv = s.mcv := rfl
@[simp] theorem onPel_rcd (f : Peloton → Peloton) (s : State) : (onPel f s).rcd = s.rcd := rfl
@[simp] theorem onPel_sbg (f : Peloton → Peloton) (s : State) : (onPel f s).sbg = s.sbg := rfl
@[simp] theorem onPel_pel (f : Peloton → Peloton) (s : State) : (onPel f s).pel = f s.pel := rfl
@[simp] theorem onPel_tnd (f : Peloton → Peloton) (s : State) : (onPel f s).tnd = s.tnd := rfl
@[simp] theorem onPel_mbx (f : Peloton → Peloton) (s : State) : (onPel f s).mbx = s.mbx := rfl
@[simp] theorem onPel_outbox (f : Peloton → Peloton) (s : State) : (onPel f s).outbox = s.outbox := rfl
@[simp] theorem onPel_freeIx (f : Peloton → Peloton) (s : State) : (onPel f s).freeIx = s.freeIx := rfl
@[simp] theorem onPel_pending (f : Peloton → Peloton) (s : State) : (onPel f s).pending = s.pending := rfl
@[simp] theorem fget_onPel (f : Peloton → Peloton) (s : State) (g : Fld) (i : Nat) : fget (onPel f s) g i = fget s g i := rfl
@[simp] theorem fon_onPel (f : Peloton → Peloton) (s : State) (g : Fld) (i : Nat) : fon (onPel f s) g i = fon s g i := rfl
/-! `onTnd` -/
@[simp] theorem onTnd_config (f : Tandem → Tandem) (s : State) : (onTnd f s).config = s.config := rfl
@[simp] theorem onTnd_serial (f : Tandem → Tandem) (s : State) : (onTnd f s).serial = s.serial := rfl
@[simp] theorem onTnd_stepping (f : Tandem → Tandem) (s : State) : (onTnd f s).stepping = s.stepping := rfl
@[simp] theorem onTnd_gtc (f : Tandem → Tandem) (s : State) : (onTnd f s).gtc = s.gtc := rfl
@[simp] theorem onTnd_stamp (f : Tandem → Tandem) (s : State) : (onTnd f s).stamp = s.stamp := rfl
@[simp] theorem onTnd_mode (f : Tandem → Tandem) (s : State) : (onTnd f s).mode = s.mode := rfl
@[simp] theorem onTnd_regs (f : Tandem → Tandem) (s : State) : (onTnd f s).regs = s.regs := rfl
@[simp] theorem onTnd_setAt (f : Tandem → Tandem) (s : State) : (onTnd f s).setAt = s.setAt := rfl
@[simp] theorem onTnd_pins (f : Tandem → Tandem) (s : State) : (onTnd f s).pins = s.pins := rfl
@[simp] theorem onTnd_host (f : Tandem → Tandem) (s : State) : (onTnd f s).host = s.host := rfl
@[simp] theorem onTnd_cache (f : Tandem → Tandem) (s : State) : (onTnd f s).cache = s.cache := rfl
@[simp] theorem onTnd_sched (f : Tandem → Tandem) (s : State) : (onTnd f s).sched = s.sched := rfl
@[simp] theorem onTnd_led (f : Tandem → Tandem) (s : State) : (onTnd f s).led = s.led := rfl
@[simp] theorem onTnd_fw (f : Tandem → Tandem) (s : State) : (onTnd f s).fw = s.fw := rfl
@[simp] theorem onTnd_med (f : Tandem → Tandem) (s : State) : (onTnd f s).med = s.med := rfl
@[simp] theorem onTnd_life (f : Tandem → Tandem) (s : State) : (onTnd f s).life = s.life := rfl
@[simp] theorem onTnd_seq (f : Tandem → Tandem) (s : State) : (onTnd f s).seq = s.seq := rfl
@[simp] theorem onTnd_mcv (f : Tandem → Tandem) (s : State) : (onTnd f s).mcv = s.mcv := rfl
@[simp] theorem onTnd_rcd (f : Tandem → Tandem) (s : State) : (onTnd f s).rcd = s.rcd := rfl
@[simp] theorem onTnd_sbg (f : Tandem → Tandem) (s : State) : (onTnd f s).sbg = s.sbg := rfl
@[simp] theorem onTnd_pel (f : Tandem → Tandem) (s : State) : (onTnd f s).pel = s.pel := rfl
@[simp] theorem onTnd_tnd (f : Tandem → Tandem) (s : State) : (onTnd f s).tnd = f s.tnd := rfl
@[simp] theorem onTnd_mbx (f : Tandem → Tandem) (s : State) : (onTnd f s).mbx = s.mbx := rfl
@[simp] theorem onTnd_outbox (f : Tandem → Tandem) (s : State) : (onTnd f s).outbox = s.outbox := rfl
@[simp] theorem onTnd_freeIx (f : Tandem → Tandem) (s : State) : (onTnd f s).freeIx = s.freeIx := rfl
@[simp] theorem onTnd_pending (f : Tandem → Tandem) (s : State) : (onTnd f s).pending = s.pending := rfl
@[simp] theorem fget_onTnd (f : Tandem → Tandem) (s : State) (g : Fld) (i : Nat) : fget (onTnd f s) g i = fget s g i := rfl
@[simp] theorem fon_onTnd (f : Tandem → Tandem) (s : State) (g : Fld) (i : Nat) : fon (onTnd f s) g i = fon s g i := rfl
/-! `onMbx` -/
@[simp] theorem onMbx_config (f : Mailbox → Mailbox) (s : State) : (onMbx f s).config = s.config := rfl
@[simp] theorem onMbx_serial (f : Mailbox → Mailbox) (s : State) : (onMbx f s).serial = s.serial := rfl
@[simp] theorem onMbx_stepping (f : Mailbox → Mailbox) (s : State) : (onMbx f s).stepping = s.stepping := rfl
@[simp] theorem onMbx_gtc (f : Mailbox → Mailbox) (s : State) : (onMbx f s).gtc = s.gtc := rfl
@[simp] theorem onMbx_stamp (f : Mailbox → Mailbox) (s : State) : (onMbx f s).stamp = s.stamp := rfl
@[simp] theorem onMbx_mode (f : Mailbox → Mailbox) (s : State) : (onMbx f s).mode = s.mode := rfl
@[simp] theorem onMbx_regs (f : Mailbox → Mailbox) (s : State) : (onMbx f s).regs = s.regs := rfl
@[simp] theorem onMbx_setAt (f : Mailbox → Mailbox) (s : State) : (onMbx f s).setAt = s.setAt := rfl
@[simp] theorem onMbx_pins (f : Mailbox → Mailbox) (s : State) : (onMbx f s).pins = s.pins := rfl
@[simp] theorem onMbx_host (f : Mailbox → Mailbox) (s : State) : (onMbx f s).host = s.host := rfl
@[simp] theorem onMbx_cache (f : Mailbox → Mailbox) (s : State) : (onMbx f s).cache = s.cache := rfl
@[simp] theorem onMbx_sched (f : Mailbox → Mailbox) (s : State) : (onMbx f s).sched = s.sched := rfl
@[simp] theorem onMbx_led (f : Mailbox → Mailbox) (s : State) : (onMbx f s).led = s.led := rfl
@[simp] theorem onMbx_fw (f : Mailbox → Mailbox) (s : State) : (onMbx f s).fw = s.fw := rfl
@[simp] theorem onMbx_med (f : Mailbox → Mailbox) (s : State) : (onMbx f s).med = s.med := rfl
@[simp] theorem onMbx_life (f : Mailbox → Mailbox) (s : State) : (onMbx f s).life = s.life := rfl
@[simp] theorem onMbx_seq (f : Mailbox → Mailbox) (s : State) : (onMbx f s).seq = s.seq := rfl
@[simp] theorem onMbx_mcv (f : Mailbox → Mailbox) (s : State) : (onMbx f s).mcv = s.mcv := rfl
@[simp] theorem onMbx_rcd (f : Mailbox → Mailbox) (s : State) : (onMbx f s).rcd = s.rcd := rfl
@[simp] theorem onMbx_sbg (f : Mailbox → Mailbox) (s : State) : (onMbx f s).sbg = s.sbg := rfl
@[simp] theorem onMbx_pel (f : Mailbox → Mailbox) (s : State) : (onMbx f s).pel = s.pel := rfl
@[simp] theorem onMbx_tnd (f : Mailbox → Mailbox) (s : State) : (onMbx f s).tnd = s.tnd := rfl
@[simp] theorem onMbx_mbx (f : Mailbox → Mailbox) (s : State) : (onMbx f s).mbx = f s.mbx := rfl
@[simp] theorem onMbx_outbox (f : Mailbox → Mailbox) (s : State) : (onMbx f s).outbox = s.outbox := rfl
@[simp] theorem onMbx_freeIx (f : Mailbox → Mailbox) (s : State) : (onMbx f s).freeIx = s.freeIx := rfl
@[simp] theorem onMbx_pending (f : Mailbox → Mailbox) (s : State) : (onMbx f s).pending = s.pending := rfl
@[simp] theorem fget_onMbx (f : Mailbox → Mailbox) (s : State) (g : Fld) (i : Nat) : fget (onMbx f s) g i = fget s g i := rfl
@[simp] theorem fon_onMbx (f : Mailbox → Mailbox) (s : State) (g : Fld) (i : Nat) : fon (onMbx f s) g i = fon s g i := rfl
/-! `onPins` -/
@[simp] theorem onPins_config (f : Pins → Pins) (s : State) : (onPins f s).config = s.config := rfl
@[simp] theorem onPins_serial (f : Pins → Pins) (s : State) : (onPins f s).serial = s.serial := rfl
@[simp] theorem onPins_stepping (f : Pins → Pins) (s : State) : (onPins f s).stepping = s.stepping := rfl
@[simp] theorem onPins_gtc (f : Pins → Pins) (s : State) : (onPins f s).gtc = s.gtc := rfl
@[simp] theorem onPins_stamp (f : Pins → Pins) (s : State) : (onPins f s).stamp = s.stamp := rfl
@[simp] theorem onPins_mode (f : Pins → Pins) (s : State) : (onPins f s).mode = s.mode := rfl
@[simp] theorem onPins_regs (f : Pins → Pins) (s : State) : (onPins f s).regs = s.regs := rfl
@[simp] theorem onPins_setAt (f : Pins → Pins) (s : State) : (onPins f s).setAt = s.setAt := rfl
@[simp] theorem onPins_pins (f : Pins → Pins) (s : State) : (onPins f s).pins = f s.pins := rfl
@[simp] theorem onPins_host (f : Pins → Pins) (s : State) : (onPins f s).host = s.host := rfl
@[simp] theorem onPins_cache (f : Pins → Pins) (s : State) : (onPins f s).cache = s.cache := rfl
@[simp] theorem onPins_sched (f : Pins → Pins) (s : State) : (onPins f s).sched = s.sched := rfl
@[simp] theorem onPins_led (f : Pins → Pins) (s : State) : (onPins f s).led = s.led := rfl
@[simp] theorem onPins_fw (f : Pins → Pins) (s : State) : (onPins f s).fw = s.fw := rfl
@[simp] theorem onPins_med (f : Pins → Pins) (s : State) : (onPins f s).med = s.med := rfl
@[simp] theorem onPins_life (f : Pins → Pins) (s : State) : (onPins f s).life = s.life := rfl
@[simp] theorem onPins_seq (f : Pins → Pins) (s : State) : (onPins f s).seq = s.seq := rfl
@[simp] theorem onPins_mcv (f : Pins → Pins) (s : State) : (onPins f s).mcv = s.mcv := rfl
@[simp] theorem onPins_rcd (f : Pins → Pins) (s : State) : (onPins f s).rcd = s.rcd := rfl
@[simp] theorem onPins_sbg (f : Pins → Pins) (s : State) : (onPins f s).sbg = s.sbg := rfl
@[simp] theorem onPins_pel (f : Pins → Pins) (s : State) : (onPins f s).pel = s.pel := rfl
@[simp] theorem onPins_tnd (f : Pins → Pins) (s : State) : (onPins f s).tnd = s.tnd := rfl
@[simp] theorem onPins_mbx (f : Pins → Pins) (s : State) : (onPins f s).mbx = s.mbx := rfl
@[simp] theorem onPins_outbox (f : Pins → Pins) (s : State) : (onPins f s).outbox = s.outbox := rfl
@[simp] theorem onPins_freeIx (f : Pins → Pins) (s : State) : (onPins f s).freeIx = s.freeIx := rfl
@[simp] theorem onPins_pending (f : Pins → Pins) (s : State) : (onPins f s).pending = s.pending := rfl
@[simp] theorem fget_onPins (f : Pins → Pins) (s : State) (g : Fld) (i : Nat) : fget (onPins f s) g i = fget s g i := rfl
@[simp] theorem fon_onPins (f : Pins → Pins) (s : State) (g : Fld) (i : Nat) : fon (onPins f s) g i = fon s g i := rfl
/-! `emit` -/
@[simp] theorem emit_config (e : Emission) (s : State) : (emit e s).config = s.config := rfl
@[simp] theorem emit_serial (e : Emission) (s : State) : (emit e s).serial = s.serial := rfl
@[simp] theorem emit_stepping (e : Emission) (s : State) : (emit e s).stepping = s.stepping := rfl
@[simp] theorem emit_gtc (e : Emission) (s : State) : (emit e s).gtc = s.gtc := rfl
@[simp] theorem emit_stamp (e : Emission) (s : State) : (emit e s).stamp = s.stamp := rfl
@[simp] theorem emit_mode (e : Emission) (s : State) : (emit e s).mode = s.mode := rfl
@[simp] theorem emit_regs (e : Emission) (s : State) : (emit e s).regs = s.regs := rfl
@[simp] theorem emit_setAt (e : Emission) (s : State) : (emit e s).setAt = s.setAt := rfl
@[simp] theorem emit_pins (e : Emission) (s : State) : (emit e s).pins = s.pins := rfl
@[simp] theorem emit_host (e : Emission) (s : State) : (emit e s).host = s.host := rfl
@[simp] theorem emit_cache (e : Emission) (s : State) : (emit e s).cache = s.cache := rfl
@[simp] theorem emit_sched (e : Emission) (s : State) : (emit e s).sched = s.sched := rfl
@[simp] theorem emit_led (e : Emission) (s : State) : (emit e s).led = s.led := rfl
@[simp] theorem emit_fw (e : Emission) (s : State) : (emit e s).fw = s.fw := rfl
@[simp] theorem emit_med (e : Emission) (s : State) : (emit e s).med = s.med := rfl
@[simp] theorem emit_life (e : Emission) (s : State) : (emit e s).life = s.life := rfl
@[simp] theorem emit_seq (e : Emission) (s : State) : (emit e s).seq = s.seq := rfl
@[simp] theorem emit_mcv (e : Emission) (s : State) : (emit e s).mcv = s.mcv := rfl
@[simp] theorem emit_rcd (e : Emission) (s : State) : (emit e s).rcd = s.rcd := rfl
@[simp] theorem emit_sbg (e : Emission) (s : State) : (emit e s).sbg = s.sbg := rfl
@[simp] theorem emit_pel (e : Emission) (s : State) : (emit e s).pel = s.pel := rfl
@[simp] theorem emit_tnd (e : Emission) (s : State) : (emit e s).tnd = s.tnd := rfl
@[simp] theorem emit_mbx (e : Emission) (s : State) : (emit e s).mbx = s.mbx := rfl
@[simp] theorem emit_outbox (e : Emission) (s : State) : (emit e s).outbox = s.outbox ++ [e] := rfl
@[simp] theorem emit_freeIx (e : Emission) (s : State) : (emit e s).freeIx = s.freeIx := rfl
@[simp] theorem emit_pending (e : Emission) (s : State) : (emit e s).pending = s.pending := rfl
@[simp] theorem fget_emit (e : Emission) (s : State) (g : Fld) (j : Nat) : fget (emit e s) g j = fget s g j := rfl
@[simp] theorem fon_emit (e : Emission) (s : State) (g : Fld) (j : Nat) : fon (emit e s) g j = fon s g j := rfl
/-! `fput` -/
@[simp] theorem fput_config (f : Fld) (i v : Nat) (s : State) : (fput f i v s).config = s.config := rfl
@[simp] theorem fput_serial (f : Fld) (i v : Nat) (s : State) : (fput f i v s).serial = s.serial := rfl
@[simp] theorem fput_stepping (f : Fld) (i v : Nat) (s : State) : (fput f i v s).stepping = s.stepping := rfl
@[simp] theorem fput_gtc (f : Fld) (i v : Nat) (s : State) : (fput f i v s).gtc = s.gtc := rfl
@[simp] theorem fput_stamp (f : Fld) (i v : Nat) (s : State) : (fput f i v s).stamp = s.stamp := rfl
@[simp] theorem fput_mode (f : Fld) (i v : Nat) (s : State) : (fput f i v s).mode = s.mode := rfl
@[simp] theorem fput_pins (f : Fld) (i v : Nat) (s : State) : (fput f i v s).pins = s.pins := rfl
@[simp] theorem fput_host (f : Fld) (i v : Nat) (s : State) : (fput f i v s).host = s.host := rfl
@[simp] theorem fput_cache (f : Fld) (i v : Nat) (s : State) : (fput f i v s).cache = s.cache := rfl
@[simp] theorem fput_sched (f : Fld) (i v : Nat) (s : State) : (fput f i v s).sched = s.sched := rfl
@[simp] theorem fput_led (f : Fld) (i v : Nat) (s : State) : (fput f i v s).led = s.led := rfl
@[simp] theorem fput_fw (f : Fld) (i v : Nat) (s : State) : (fput f i v s).fw = s.fw := rfl
@[simp] theorem fput_med (f : Fld) (i v : Nat) (s : State) : (fput f i v s).med = s.med := rfl
@[simp] theorem fput_life (f : Fld) (i v : Nat) (s : State) : (fput f i v s).life = s.life := rfl
@[simp] theorem fput_seq (f : Fld) (i v : Nat) (s : State) : (fput f i v s).seq = s.seq := rfl
@[simp] theorem fput_mcv (f : Fld) (i v : Nat) (s : State) : (fput f i v s).mcv = s.mcv := rfl
@[simp] theorem fput_rcd (f : Fld) (i v : Nat) (s : State) : (fput f i v s).rcd = s.rcd := rfl
@[simp] theorem fput_sbg (f : Fld) (i v : Nat) (s : State) : (fput f i v s).sbg = s.sbg := rfl
@[simp] theorem fput_pel (f : Fld) (i v : Nat) (s : State) : (fput f i v s).pel = s.pel := rfl
@[simp] theorem fput_tnd (f : Fld) (i v : Nat) (s : State) : (fput f i v s).tnd = s.tnd := rfl
@[simp] theorem fput_mbx (f : Fld) (i v : Nat) (s : State) : (fput f i v s).mbx = s.mbx := rfl
@[simp] theorem fput_outbox (f : Fld) (i v : Nat) (s : State) : (fput f i v s).outbox = s.outbox := rfl
@[simp] theorem fput_freeIx (f : Fld) (i v : Nat) (s : State) : (fput f i v s).freeIx = s.freeIx := rfl
@[simp] theorem fput_pending (f : Fld) (i v : Nat) (s : State) : (fput f i v s).pending = s.pending := rfl
/-! `advanceTo` -/
@[simp] theorem advanceTo_config (t : Nat) (s : State) : (advanceTo t s).config = s.config := rfl
@[simp] theorem advanceTo_serial (t : Nat) (s : State) : (advanceTo t s).serial = s.serial := rfl
@[simp] theorem advanceTo_stepping (t : Nat) (s : State) : (advanceTo t s).stepping = s.stepping := rfl
@[simp] theorem advanceTo_gtc (t : Nat) (s : State) : (advanceTo t s).gtc = if s.mode = .off then s.gtc else max s.gtc (t % 2 ^ 64) := rfl
@[simp] theorem advanceTo_stamp (t : Nat) (s : State) : (advanceTo t s).stamp = t % 2 ^ 64 := rfl
@[simp] theorem advanceTo_mode (t : Nat) (s : State) : (advanceTo t s).mode = s.mode := rfl
@[simp] theorem advanceTo_regs (t : Nat) (s : State) : (advanceTo t s).regs = s.regs := rfl
@[simp] theorem advanceTo_setAt (t : Nat) (s : State) : (advanceTo t s).setAt = s.setAt := rfl
@[simp] theorem advanceTo_pins (t : Nat) (s : State) : (advanceTo t s).pins = s.pins := rfl
@[simp] theorem advanceTo_host (t : Nat) (s : State) : (advanceTo t s).host = s.host := rfl
@[simp] theorem advanceTo_cache (t : Nat) (s : State) : (advanceTo t s).cache = s.cache := rfl
@[simp] theorem advanceTo_sched (t : Nat) (s : State) : (advanceTo t s).sched = s.sched := rfl
@[simp] theorem advanceTo_led (t : Nat) (s : State) : (advanceTo t s).led = s.led := rfl
@[simp] theorem advanceTo_fw (t : Nat) (s : State) : (advanceTo t s).fw = s.fw := rfl
@[simp] theorem advanceTo_med (t : Nat) (s : State) : (advanceTo t s).med = s.med := rfl
@[simp] theorem advanceTo_life (t : Nat) (s : State) : (advanceTo t s).life = s.life := rfl
@[simp] theorem advanceTo_seq (t : Nat) (s : State) : (advanceTo t s).seq = s.seq := rfl
@[simp] theorem advanceTo_mcv (t : Nat) (s : State) : (advanceTo t s).mcv = s.mcv := rfl
@[simp] theorem advanceTo_rcd (t : Nat) (s : State) : (advanceTo t s).rcd = s.rcd := rfl
@[simp] theorem advanceTo_sbg (t : Nat) (s : State) : (advanceTo t s).sbg = s.sbg := rfl
@[simp] theorem advanceTo_pel (t : Nat) (s : State) : (advanceTo t s).pel = s.pel := rfl
@[simp] theorem advanceTo_tnd (t : Nat) (s : State) : (advanceTo t s).tnd = s.tnd := rfl
@[simp] theorem advanceTo_mbx (t : Nat) (s : State) : (advanceTo t s).mbx = s.mbx := rfl
@[simp] theorem advanceTo_outbox (t : Nat) (s : State) : (advanceTo t s).outbox = s.outbox := rfl
@[simp] theorem advanceTo_freeIx (t : Nat) (s : State) : (advanceTo t s).freeIx = s.freeIx := rfl
@[simp] theorem advanceTo_pending (t : Nat) (s : State) : (advanceTo t s).pending = s.pending := rfl
@[simp] theorem fget_advanceTo (t : Nat) (s : State) (g : Fld) (j : Nat) : fget (advanceTo t s) g j = fget s g j := rfl
@[simp] theorem fon_advanceTo (t : Nat) (s : State) (g : Fld) (j : Nat) : fon (advanceTo t s) g j = fon s g j := rfl
/-! `stampNow` -/
@[simp] theorem stampNow_config  (s : State) : (stampNow  s).config = s.config := rfl
@[simp] theorem stampNow_serial  (s : State) : (stampNow  s).serial = s.serial := rfl
@[simp] theorem stampNow_stepping  (s : State) : (stampNow  s).stepping = s.stepping := rfl
@[simp] theorem stampNow_gtc  (s : State) : (stampNow  s).gtc = s.gtc := rfl
@[simp] theorem stampNow_stamp  (s : State) : (stampNow  s).stamp = s.gtc := rfl
@[simp] theorem stampNow_mode  (s : State) : (stampNow  s).mode = s.mode := rfl
@[simp] theorem stampNow_regs  (s : State) : (stampNow  s).regs = s.regs := rfl
@[simp] theorem stampNow_setAt  (s : State) : (stampNow  s).setAt = s.setAt := rfl
@[simp] theorem stampNow_pins  (s : State) : (stampNow  s).pins = s.pins := rfl
@[simp] theorem stampNow_host  (s : State) : (stampNow  s).host = s.host := rfl
@[simp] theorem stampNow_cache  (s : State) : (stampNow  s).cache = s.cache := rfl
@[simp] theorem stampNow_sched  (s : State) : (stampNow  s).sched = s.sched := rfl
@[simp] theorem stampNow_led  (s : State) : (stampNow  s).led = s.led := rfl
@[simp] theorem stampNow_fw  (s : State) : (stampNow  s).fw = s.fw := rfl
@[simp] theorem stampNow_med  (s : State) : (stampNow  s).med = s.med := rfl
@[simp] theorem stampNow_life  (s : State) : (stampNow  s).life = s.life := rfl
@[simp] theorem stampNow_seq  (s : State) : (stampNow  s).seq = s.seq := rfl
@[simp] theorem stampNow_mcv  (s : State) : (stampNow  s).mcv = s.mcv := rfl
@[simp] theorem stampNow_rcd  (s : State) : (stampNow  s).rcd = s.rcd := rfl
@[simp] theorem stampNow_sbg  (s : State) : (stampNow  s).sbg = s.sbg := rfl
@[simp] theorem stampNow_pel  (s : State) : (stampNow  s).pel = s.pel := rfl
@[simp] theorem stampNow_tnd  (s : State) : (stampNow  s).tnd = s.tnd := rfl
@[simp] theorem stampNow_mbx  (s : State) : (stampNow  s).mbx = s.mbx := rfl
@[simp] theorem stampNow_outbox  (s : State) : (stampNow  s).outbox = s.outbox := rfl
@[simp] theorem stampNow_freeIx  (s : State) : (stampNow  s).freeIx = s.freeIx := rfl
@[simp] theorem stampNow_pending  (s : State) : (stampNow  s).pending = s.pending := rfl
@[simp] theorem fget_stampNow  (s : State) (g : Fld) (j : Nat) : fget (stampNow  s) g j = fget s g j := rfl
@[simp] theorem fon_stampNow  (s : State) (g : Fld) (j : Nat) : fon (stampNow  s) g j = fon s g j := rfl
/-! `useFree` -/
@[simp] theorem useFree_config  (s : State) : (useFree  s).config = s.config := rfl
@[simp] theorem useFree_serial  (s : State) : (useFree  s).serial = s.serial := rfl
@[simp] theorem useFree_stepping  (s : State) : (useFree  s).stepping = s.stepping := rfl
@[simp] theorem useFree_gtc  (s : State) : (useFree  s).gtc = s.gtc := rfl
@[simp] theorem useFree_stamp  (s : State) : (useFree  s).stamp = s.stamp := rfl
@[simp] theorem useFree_mode  (s : State) : (useFree  s).mode = s.mode := rfl
@[simp] theorem useFree_regs  (s : State) : (useFree  s).regs = s.regs := rfl
@[simp] theorem useFree_setAt  (s : State) : (useFree  s).setAt = s.setAt := rfl
@[simp] theorem useFree_pins  (s : State) : (useFree  s).pins = s.pins := rfl
@[simp] theorem useFree_host  (s : State) : (useFree  s).host = s.host := rfl
@[simp] theorem useFree_cache  (s : State) : (useFree  s).cache = s.cache := rfl
@[simp] theorem useFree_sched  (s : State) : (useFree  s).sched = s.sched := rfl
@[simp] theorem useFree_led  (s : State) : (useFree  s).led = s.led := rfl
@[simp] theorem useFree_fw  (s : State) : (useFree  s).fw = s.fw := rfl
@[simp] theorem useFree_med  (s : State) : (useFree  s).med = s.med := rfl
@[simp] theorem useFree_life  (s : State) : (useFree  s).life = s.life := rfl
@[simp] theorem useFree_seq  (s : State) : (useFree  s).seq = s.seq := rfl
@[simp] theorem useFree_mcv  (s : State) : (useFree  s).mcv = s.mcv := rfl
@[simp] theorem useFree_rcd  (s : State) : (useFree  s).rcd = s.rcd := rfl
@[simp] theorem useFree_sbg  (s : State) : (useFree  s).sbg = s.sbg := rfl
@[simp] theorem useFree_pel  (s : State) : (useFree  s).pel = s.pel := rfl
@[simp] theorem useFree_tnd  (s : State) : (useFree  s).tnd = s.tnd := rfl
@[simp] theorem useFree_mbx  (s : State) : (useFree  s).mbx = s.mbx := rfl
@[simp] theorem useFree_outbox  (s : State) : (useFree  s).outbox = s.outbox := rfl
@[simp] theorem useFree_freeIx  (s : State) : (useFree  s).freeIx = s.freeIx + 1 := rfl
@[simp] theorem useFree_pending  (s : State) : (useFree  s).pending = s.pending := rfl
@[simp] theorem fget_useFree  (s : State) (g : Fld) (j : Nat) : fget (useFree  s) g j = fget s g j := rfl
@[simp] theorem fon_useFree  (s : State) (g : Fld) (j : Nat) : fon (useFree  s) g j = fon s g j := rfl

/-! ### Settling -/

@[simp] theorem settle_config (s t : State) : (settle s t).config = s.config := rfl
@[simp] theorem settle_serial (s t : State) : (settle s t).serial = s.serial := rfl
@[simp] theorem settle_stepping (s t : State) : (settle s t).stepping = s.stepping := rfl
@[simp] theorem settle_gtc (s t : State) : (settle s t).gtc = t.gtc % 2 ^ 64 := rfl
@[simp] theorem settle_stamp (s t : State) : (settle s t).stamp = s.stamp := rfl
@[simp] theorem settle_mode (s t : State) : (settle s t).mode = t.mode := rfl
@[simp] theorem settle_regs (s t : State) : (settle s t).regs = t.regs := rfl
@[simp] theorem settle_setAt (s t : State) : (settle s t).setAt = t.setAt := rfl
@[simp] theorem settle_pins (s t : State) : (settle s t).pins = t.pins := rfl
@[simp] theorem settle_host (s t : State) : (settle s t).host = t.host := rfl
@[simp] theorem settle_cache (s t : State) : (settle s t).cache = t.cache := rfl
@[simp] theorem settle_sched (s t : State) : (settle s t).sched = t.sched := rfl
@[simp] theorem settle_led (s t : State) : (settle s t).led = t.led := rfl
@[simp] theorem settle_fw (s t : State) : (settle s t).fw = t.fw := rfl
@[simp] theorem settle_med (s t : State) : (settle s t).med = t.med := rfl
@[simp] theorem settle_life (s t : State) : (settle s t).life = t.life := rfl
@[simp] theorem settle_seq (s t : State) : (settle s t).seq = t.seq := rfl
@[simp] theorem settle_mcv (s t : State) : (settle s t).mcv = t.mcv := rfl
@[simp] theorem settle_rcd (s t : State) : (settle s t).rcd = t.rcd := rfl
@[simp] theorem settle_sbg (s t : State) : (settle s t).sbg = t.sbg := rfl
@[simp] theorem settle_pel (s t : State) : (settle s t).pel = t.pel := rfl
@[simp] theorem settle_tnd (s t : State) : (settle s t).tnd = t.tnd := rfl
@[simp] theorem settle_mbx (s t : State) : (settle s t).mbx = t.mbx := rfl
@[simp] theorem settle_outbox (s t : State) : (settle s t).outbox = t.outbox := rfl
@[simp] theorem settle_freeIx (s t : State) : (settle s t).freeIx = t.freeIx := rfl
@[simp] theorem settle_pending (s t : State) : (settle s t).pending = s.pending := rfl
@[simp] theorem fget_settle (s t : State) (g : Fld) (i : Nat) : fget (settle s t) g i = fget t g i := rfl
@[simp] theorem fon_settle (s t : State) (g : Fld) (i : Nat) : fon (settle s t) g i = fon t g i := rfl
@[simp] theorem run_eq (k : State → State) (s : State) : run k s = .next (settle s (k (stampNow s))) := rfl

theorem onWheel_ok {w : Wheel} {k : State → State} {s : State} (h : w.val < Config.wheels s.config) :
    onWheel w k s = .next (settle s (k (stampNow s))) := by simp [onWheel, h]

theorem onWheel_off {w : Wheel} {k : State → State} {s : State} (h : ¬ w.val < Config.wheels s.config) :
    onWheel w k s = .fault .fusedOffWheel := by simp [onWheel, h]

/-- A state whose counter is 64 bits wide and which changed nothing that is fixed settles to itself. -/
theorem settle_self {s : State} (h : s.gtc < 2 ^ 64) : settle s s = s := by
  cases s; simp only [settle] at *; rw [Nat.mod_eq_of_lt h]

/-- A command without effect leaves the state as it is. -/
theorem settle_stampNow {s : State} (h : s.gtc < 2 ^ 64) : settle s (stampNow s) = s := by
  cases s; simp only [settle, stampNow] at *; rw [Nat.mod_eq_of_lt h]

/-- An effect that changes nothing that is fixed, and keeps the counter 64 bits wide, is its own settlement but for the stamp. -/
theorem run_next {k : State → State} {s t : State} (he : k (stampNow s) = t) (hc : t.config = s.config) (hs : t.serial = s.serial)
    (ht : t.stepping = s.stepping) (hp : t.pending = s.pending) (hg : t.gtc < 2 ^ 64) : run k s = .next { t with stamp := s.stamp } := by
  simp only [run_eq, settle, he, ← hc, ← hs, ← ht, ← hp, Nat.mod_eq_of_lt hg]

/-- States with equal parts are equal. -/
theorem state_eq {s t : State} (h : s.config = t.config ∧ s.serial = t.serial ∧ s.stepping = t.stepping ∧ s.gtc = t.gtc ∧ s.stamp = t.stamp ∧ s.mode = t.mode
    ∧ s.regs = t.regs ∧ s.setAt = t.setAt ∧ s.pins = t.pins ∧ s.host = t.host ∧ s.cache = t.cache ∧ s.sched = t.sched
    ∧ s.led = t.led ∧ s.fw = t.fw ∧ s.med = t.med ∧ s.life = t.life ∧ s.seq = t.seq ∧ s.mcv = t.mcv
    ∧ s.rcd = t.rcd ∧ s.sbg = t.sbg ∧ s.pel = t.pel ∧ s.tnd = t.tnd ∧ s.mbx = t.mbx ∧ s.outbox = t.outbox
    ∧ s.freeIx = t.freeIx ∧ s.pending = t.pending) : s = t := by
  cases s; cases t; simp_all

/-! ### Register fields -/

/-- A field reads the value last written, cut to its width. -/
@[simp] theorem fget_fput_same (f : Fld) (i v : Nat) (s : State) : fget (fput f i v s) f i = v % 2 ^ f.width := by
  simp [fget, fput, tabGet_tabSet_same]

theorem tabGet_default {α : Type} [DecidableEq α] (d e v : α) {n m : Nat} (h : m ≠ n) (t : Tab α) :
    tabGet e (tabSet d n v t) m = tabGet e t m := by
  by_cases hv : v = d
  · simp [tabSet, hv, tabGet_tabDel_ne e h]
  · simp [tabSet, hv, tabGet_tabPut_ne e v h]

/-- A write to one field leaves every other field. -/
theorem fget_fput_other (f g : Fld) (i j v : Nat) (s : State) (h : g.key j ≠ f.key i) : fget (fput f i v s) g j = fget s g j := by
  simp [fget, fput, tabGet_default f.dflt g.dflt _ h]

theorem fget_fput (f g : Fld) (i j v : Nat) (s : State) (hk : g.key j = f.key i → g = f ∧ j = i) :
    fget (fput f i v s) g j = if g.key j = f.key i then v % 2 ^ f.width else fget s g j := by
  by_cases h : g.key j = f.key i
  · obtain ⟨rfl, rfl⟩ := hk h; simp
  · simp [h, fget_fput_other f g i j v s h]

/-- A cleared field reads 0, a set one-bit field 1. -/
@[simp] theorem fget_fclr_same (f : Fld) (i : Nat) (s : State) : fget (fclr f i s) f i = 0 := by simp [fclr]

theorem fon_fset_same (f : Fld) (i : Nat) (s : State) (h : f.width = 1) : fon (fset f i s) f i = true := by
  simp [fset, fon, h]

/-! `fset` -/
@[simp] theorem fset_config (f : Fld) (i : Nat) (s : State) : (fset f i s).config = s.config := rfl
@[simp] theorem fset_serial (f : Fld) (i : Nat) (s : State) : (fset f i s).serial = s.serial := rfl
@[simp] theorem fset_stepping (f : Fld) (i : Nat) (s : State) : (fset f i s).stepping = s.stepping := rfl
@[simp] theorem fset_gtc (f : Fld) (i : Nat) (s : State) : (fset f i s).gtc = s.gtc := rfl
@[simp] theorem fset_stamp (f : Fld) (i : Nat) (s : State) : (fset f i s).stamp = s.stamp := rfl
@[simp] theorem fset_mode (f : Fld) (i : Nat) (s : State) : (fset f i s).mode = s.mode := rfl
@[simp] theorem fset_pins (f : Fld) (i : Nat) (s : State) : (fset f i s).pins = s.pins := rfl
@[simp] theorem fset_host (f : Fld) (i : Nat) (s : State) : (fset f i s).host = s.host := rfl
@[simp] theorem fset_cache (f : Fld) (i : Nat) (s : State) : (fset f i s).cache = s.cache := rfl
@[simp] theorem fset_sched (f : Fld) (i : Nat) (s : State) : (fset f i s).sched = s.sched := rfl
@[simp] theorem fset_led (f : Fld) (i : Nat) (s : State) : (fset f i s).led = s.led := rfl
@[simp] theorem fset_fw (f : Fld) (i : Nat) (s : State) : (fset f i s).fw = s.fw := rfl
@[simp] theorem fset_med (f : Fld) (i : Nat) (s : State) : (fset f i s).med = s.med := rfl
@[simp] theorem fset_life (f : Fld) (i : Nat) (s : State) : (fset f i s).life = s.life := rfl
@[simp] theorem fset_seq (f : Fld) (i : Nat) (s : State) : (fset f i s).seq = s.seq := rfl
@[simp] theorem fset_mcv (f : Fld) (i : Nat) (s : State) : (fset f i s).mcv = s.mcv := rfl
@[simp] theorem fset_rcd (f : Fld) (i : Nat) (s : State) : (fset f i s).rcd = s.rcd := rfl
@[simp] theorem fset_sbg (f : Fld) (i : Nat) (s : State) : (fset f i s).sbg = s.sbg := rfl
@[simp] theorem fset_pel (f : Fld) (i : Nat) (s : State) : (fset f i s).pel = s.pel := rfl
@[simp] theorem fset_tnd (f : Fld) (i : Nat) (s : State) : (fset f i s).tnd = s.tnd := rfl
@[simp] theorem fset_mbx (f : Fld) (i : Nat) (s : State) : (fset f i s).mbx = s.mbx := rfl
@[simp] theorem fset_outbox (f : Fld) (i : Nat) (s : State) : (fset f i s).outbox = s.outbox := rfl
@[simp] theorem fset_freeIx (f : Fld) (i : Nat) (s : State) : (fset f i s).freeIx = s.freeIx := rfl
@[simp] theorem fset_pending (f : Fld) (i : Nat) (s : State) : (fset f i s).pending = s.pending := rfl
/-! `fclr` -/
@[simp] theorem fclr_config (f : Fld) (i : Nat) (s : State) : (fclr f i s).config = s.config := rfl
@[simp] theorem fclr_serial (f : Fld) (i : Nat) (s : State) : (fclr f i s).serial = s.serial := rfl
@[simp] theorem fclr_stepping (f : Fld) (i : Nat) (s : State) : (fclr f i s).stepping = s.stepping := rfl
@[simp] theorem fclr_gtc (f : Fld) (i : Nat) (s : State) : (fclr f i s).gtc = s.gtc := rfl
@[simp] theorem fclr_stamp (f : Fld) (i : Nat) (s : State) : (fclr f i s).stamp = s.stamp := rfl
@[simp] theorem fclr_mode (f : Fld) (i : Nat) (s : State) : (fclr f i s).mode = s.mode := rfl
@[simp] theorem fclr_pins (f : Fld) (i : Nat) (s : State) : (fclr f i s).pins = s.pins := rfl
@[simp] theorem fclr_host (f : Fld) (i : Nat) (s : State) : (fclr f i s).host = s.host := rfl
@[simp] theorem fclr_cache (f : Fld) (i : Nat) (s : State) : (fclr f i s).cache = s.cache := rfl
@[simp] theorem fclr_sched (f : Fld) (i : Nat) (s : State) : (fclr f i s).sched = s.sched := rfl
@[simp] theorem fclr_led (f : Fld) (i : Nat) (s : State) : (fclr f i s).led = s.led := rfl
@[simp] theorem fclr_fw (f : Fld) (i : Nat) (s : State) : (fclr f i s).fw = s.fw := rfl
@[simp] theorem fclr_med (f : Fld) (i : Nat) (s : State) : (fclr f i s).med = s.med := rfl
@[simp] theorem fclr_life (f : Fld) (i : Nat) (s : State) : (fclr f i s).life = s.life := rfl
@[simp] theorem fclr_seq (f : Fld) (i : Nat) (s : State) : (fclr f i s).seq = s.seq := rfl
@[simp] theorem fclr_mcv (f : Fld) (i : Nat) (s : State) : (fclr f i s).mcv = s.mcv := rfl
@[simp] theorem fclr_rcd (f : Fld) (i : Nat) (s : State) : (fclr f i s).rcd = s.rcd := rfl
@[simp] theorem fclr_sbg (f : Fld) (i : Nat) (s : State) : (fclr f i s).sbg = s.sbg := rfl
@[simp] theorem fclr_pel (f : Fld) (i : Nat) (s : State) : (fclr f i s).pel = s.pel := rfl
@[simp] theorem fclr_tnd (f : Fld) (i : Nat) (s : State) : (fclr f i s).tnd = s.tnd := rfl
@[simp] theorem fclr_mbx (f : Fld) (i : Nat) (s : State) : (fclr f i s).mbx = s.mbx := rfl
@[simp] theorem fclr_outbox (f : Fld) (i : Nat) (s : State) : (fclr f i s).outbox = s.outbox := rfl
@[simp] theorem fclr_freeIx (f : Fld) (i : Nat) (s : State) : (fclr f i s).freeIx = s.freeIx := rfl
@[simp] theorem fclr_pending (f : Fld) (i : Nat) (s : State) : (fclr f i s).pending = s.pending := rfl
/-! `fbit` -/
@[simp] theorem fbit_config (f : Fld) (i : Nat) (b : Bool) (s : State) : (fbit f i b s).config = s.config := rfl
@[simp] theorem fbit_serial (f : Fld) (i : Nat) (b : Bool) (s : State) : (fbit f i b s).serial = s.serial := rfl
@[simp] theorem fbit_stepping (f : Fld) (i : Nat) (b : Bool) (s : State) : (fbit f i b s).stepping = s.stepping := rfl
@[simp] theorem fbit_gtc (f : Fld) (i : Nat) (b : Bool) (s : State) : (fbit f i b s).gtc = s.gtc := rfl
@[simp] theorem fbit_stamp (f : Fld) (i : Nat) (b : Bool) (s : State) : (fbit f i b s).stamp = s.stamp := rfl
@[simp] theorem fbit_mode (f : Fld) (i : Nat) (b : Bool) (s : State) : (fbit f i b s).mode = s.mode := rfl
@[simp] theorem fbit_pins (f : Fld) (i : Nat) (b : Bool) (s : State) : (fbit f i b s).pins = s.pins := rfl
@[simp] theorem fbit_host (f : Fld) (i : Nat) (b : Bool) (s : State) : (fbit f i b s).host = s.host := rfl
@[simp] theorem fbit_cache (f : Fld) (i : Nat) (b : Bool) (s : State) : (fbit f i b s).cache = s.cache := rfl
@[simp] theorem fbit_sched (f : Fld) (i : Nat) (b : Bool) (s : State) : (fbit f i b s).sched = s.sched := rfl
@[simp] theorem fbit_led (f : Fld) (i : Nat) (b : Bool) (s : State) : (fbit f i b s).led = s.led := rfl
@[simp] theorem fbit_fw (f : Fld) (i : Nat) (b : Bool) (s : State) : (fbit f i b s).fw = s.fw := rfl
@[simp] theorem fbit_med (f : Fld) (i : Nat) (b : Bool) (s : State) : (fbit f i b s).med = s.med := rfl
@[simp] theorem fbit_life (f : Fld) (i : Nat) (b : Bool) (s : State) : (fbit f i b s).life = s.life := rfl
@[simp] theorem fbit_seq (f : Fld) (i : Nat) (b : Bool) (s : State) : (fbit f i b s).seq = s.seq := rfl
@[simp] theorem fbit_mcv (f : Fld) (i : Nat) (b : Bool) (s : State) : (fbit f i b s).mcv = s.mcv := rfl
@[simp] theorem fbit_rcd (f : Fld) (i : Nat) (b : Bool) (s : State) : (fbit f i b s).rcd = s.rcd := rfl
@[simp] theorem fbit_sbg (f : Fld) (i : Nat) (b : Bool) (s : State) : (fbit f i b s).sbg = s.sbg := rfl
@[simp] theorem fbit_pel (f : Fld) (i : Nat) (b : Bool) (s : State) : (fbit f i b s).pel = s.pel := rfl
@[simp] theorem fbit_tnd (f : Fld) (i : Nat) (b : Bool) (s : State) : (fbit f i b s).tnd = s.tnd := rfl
@[simp] theorem fbit_mbx (f : Fld) (i : Nat) (b : Bool) (s : State) : (fbit f i b s).mbx = s.mbx := rfl
@[simp] theorem fbit_outbox (f : Fld) (i : Nat) (b : Bool) (s : State) : (fbit f i b s).outbox = s.outbox := rfl
@[simp] theorem fbit_freeIx (f : Fld) (i : Nat) (b : Bool) (s : State) : (fbit f i b s).freeIx = s.freeIx := rfl
@[simp] theorem fbit_pending (f : Fld) (i : Nat) (b : Bool) (s : State) : (fbit f i b s).pending = s.pending := rfl
/-! `fadd` -/
@[simp] theorem fadd_config (f : Fld) (i n : Nat) (s : State) : (fadd f i n s).config = s.config := rfl
@[simp] theorem fadd_serial (f : Fld) (i n : Nat) (s : State) : (fadd f i n s).serial = s.serial := rfl
@[simp] theorem fadd_stepping (f : Fld) (i n : Nat) (s : State) : (fadd f i n s).stepping = s.stepping := rfl
@[simp] theorem fadd_gtc (f : Fld) (i n : Nat) (s : State) : (fadd f i n s).gtc = s.gtc := rfl
@[simp] theorem fadd_stamp (f : Fld) (i n : Nat) (s : State) : (fadd f i n s).stamp = s.stamp := rfl
@[simp] theorem fadd_mode (f : Fld) (i n : Nat) (s : State) : (fadd f i n s).mode = s.mode := rfl
@[simp] theorem fadd_pins (f : Fld) (i n : Nat) (s : State) : (fadd f i n s).pins = s.pins := rfl
@[simp] theorem fadd_host (f : Fld) (i n : Nat) (s : State) : (fadd f i n s).host = s.host := rfl
@[simp] theorem fadd_cache (f : Fld) (i n : Nat) (s : State) : (fadd f i n s).cache = s.cache := rfl
@[simp] theorem fadd_sched (f : Fld) (i n : Nat) (s : State) : (fadd f i n s).sched = s.sched := rfl
@[simp] theorem fadd_led (f : Fld) (i n : Nat) (s : State) : (fadd f i n s).led = s.led := rfl
@[simp] theorem fadd_fw (f : Fld) (i n : Nat) (s : State) : (fadd f i n s).fw = s.fw := rfl
@[simp] theorem fadd_med (f : Fld) (i n : Nat) (s : State) : (fadd f i n s).med = s.med := rfl
@[simp] theorem fadd_life (f : Fld) (i n : Nat) (s : State) : (fadd f i n s).life = s.life := rfl
@[simp] theorem fadd_seq (f : Fld) (i n : Nat) (s : State) : (fadd f i n s).seq = s.seq := rfl
@[simp] theorem fadd_mcv (f : Fld) (i n : Nat) (s : State) : (fadd f i n s).mcv = s.mcv := rfl
@[simp] theorem fadd_rcd (f : Fld) (i n : Nat) (s : State) : (fadd f i n s).rcd = s.rcd := rfl
@[simp] theorem fadd_sbg (f : Fld) (i n : Nat) (s : State) : (fadd f i n s).sbg = s.sbg := rfl
@[simp] theorem fadd_pel (f : Fld) (i n : Nat) (s : State) : (fadd f i n s).pel = s.pel := rfl
@[simp] theorem fadd_tnd (f : Fld) (i n : Nat) (s : State) : (fadd f i n s).tnd = s.tnd := rfl
@[simp] theorem fadd_mbx (f : Fld) (i n : Nat) (s : State) : (fadd f i n s).mbx = s.mbx := rfl
@[simp] theorem fadd_outbox (f : Fld) (i n : Nat) (s : State) : (fadd f i n s).outbox = s.outbox := rfl
@[simp] theorem fadd_freeIx (f : Fld) (i n : Nat) (s : State) : (fadd f i n s).freeIx = s.freeIx := rfl
@[simp] theorem fadd_pending (f : Fld) (i n : Nat) (s : State) : (fadd f i n s).pending = s.pending := rfl
/-! `finc` -/
@[simp] theorem finc_config (f : Fld) (i : Nat) (s : State) : (finc f i s).config = s.config := rfl
@[simp] theorem finc_serial (f : Fld) (i : Nat) (s : State) : (finc f i s).serial = s.serial := rfl
@[simp] theorem finc_stepping (f : Fld) (i : Nat) (s : State) : (finc f i s).stepping = s.stepping := rfl
@[simp] theorem finc_gtc (f : Fld) (i : Nat) (s : State) : (finc f i s).gtc = s.gtc := rfl
@[simp] theorem finc_stamp (f : Fld) (i : Nat) (s : State) : (finc f i s).stamp = s.stamp := rfl
@[simp] theorem finc_mode (f : Fld) (i : Nat) (s : State) : (finc f i s).mode = s.mode := rfl
@[simp] theorem finc_pins (f : Fld) (i : Nat) (s : State) : (finc f i s).pins = s.pins := rfl
@[simp] theorem finc_host (f : Fld) (i : Nat) (s : State) : (finc f i s).host = s.host := rfl
@[simp] theorem finc_cache (f : Fld) (i : Nat) (s : State) : (finc f i s).cache = s.cache := rfl
@[simp] theorem finc_sched (f : Fld) (i : Nat) (s : State) : (finc f i s).sched = s.sched := rfl
@[simp] theorem finc_led (f : Fld) (i : Nat) (s : State) : (finc f i s).led = s.led := rfl
@[simp] theorem finc_fw (f : Fld) (i : Nat) (s : State) : (finc f i s).fw = s.fw := rfl
@[simp] theorem finc_med (f : Fld) (i : Nat) (s : State) : (finc f i s).med = s.med := rfl
@[simp] theorem finc_life (f : Fld) (i : Nat) (s : State) : (finc f i s).life = s.life := rfl
@[simp] theorem finc_seq (f : Fld) (i : Nat) (s : State) : (finc f i s).seq = s.seq := rfl
@[simp] theorem finc_mcv (f : Fld) (i : Nat) (s : State) : (finc f i s).mcv = s.mcv := rfl
@[simp] theorem finc_rcd (f : Fld) (i : Nat) (s : State) : (finc f i s).rcd = s.rcd := rfl
@[simp] theorem finc_sbg (f : Fld) (i : Nat) (s : State) : (finc f i s).sbg = s.sbg := rfl
@[simp] theorem finc_pel (f : Fld) (i : Nat) (s : State) : (finc f i s).pel = s.pel := rfl
@[simp] theorem finc_tnd (f : Fld) (i : Nat) (s : State) : (finc f i s).tnd = s.tnd := rfl
@[simp] theorem finc_mbx (f : Fld) (i : Nat) (s : State) : (finc f i s).mbx = s.mbx := rfl
@[simp] theorem finc_outbox (f : Fld) (i : Nat) (s : State) : (finc f i s).outbox = s.outbox := rfl
@[simp] theorem finc_freeIx (f : Fld) (i : Nat) (s : State) : (finc f i s).freeIx = s.freeIx := rfl
@[simp] theorem finc_pending (f : Fld) (i : Nat) (s : State) : (finc f i s).pending = s.pending := rfl
/-! `fhigh` -/
@[simp] theorem fhigh_config (f : Fld) (i v : Nat) (s : State) : (fhigh f i v s).config = s.config := rfl
@[simp] theorem fhigh_serial (f : Fld) (i v : Nat) (s : State) : (fhigh f i v s).serial = s.serial := rfl
@[simp] theorem fhigh_stepping (f : Fld) (i v : Nat) (s : State) : (fhigh f i v s).stepping = s.stepping := rfl
@[simp] theorem fhigh_gtc (f : Fld) (i v : Nat) (s : State) : (fhigh f i v s).gtc = s.gtc := rfl
@[simp] theorem fhigh_stamp (f : Fld) (i v : Nat) (s : State) : (fhigh f i v s).stamp = s.stamp := rfl
@[simp] theorem fhigh_mode (f : Fld) (i v : Nat) (s : State) : (fhigh f i v s).mode = s.mode := rfl
@[simp] theorem fhigh_pins (f : Fld) (i v : Nat) (s : State) : (fhigh f i v s).pins = s.pins := rfl
@[simp] theorem fhigh_host (f : Fld) (i v : Nat) (s : State) : (fhigh f i v s).host = s.host := rfl
@[simp] theorem fhigh_cache (f : Fld) (i v : Nat) (s : State) : (fhigh f i v s).cache = s.cache := rfl
@[simp] theorem fhigh_sched (f : Fld) (i v : Nat) (s : State) : (fhigh f i v s).sched = s.sched := rfl
@[simp] theorem fhigh_led (f : Fld) (i v : Nat) (s : State) : (fhigh f i v s).led = s.led := rfl
@[simp] theorem fhigh_fw (f : Fld) (i v : Nat) (s : State) : (fhigh f i v s).fw = s.fw := rfl
@[simp] theorem fhigh_med (f : Fld) (i v : Nat) (s : State) : (fhigh f i v s).med = s.med := rfl
@[simp] theorem fhigh_life (f : Fld) (i v : Nat) (s : State) : (fhigh f i v s).life = s.life := rfl
@[simp] theorem fhigh_seq (f : Fld) (i v : Nat) (s : State) : (fhigh f i v s).seq = s.seq := rfl
@[simp] theorem fhigh_mcv (f : Fld) (i v : Nat) (s : State) : (fhigh f i v s).mcv = s.mcv := rfl
@[simp] theorem fhigh_rcd (f : Fld) (i v : Nat) (s : State) : (fhigh f i v s).rcd = s.rcd := rfl
@[simp] theorem fhigh_sbg (f : Fld) (i v : Nat) (s : State) : (fhigh f i v s).sbg = s.sbg := rfl
@[simp] theorem fhigh_pel (f : Fld) (i v : Nat) (s : State) : (fhigh f i v s).pel = s.pel := rfl
@[simp] theorem fhigh_tnd (f : Fld) (i v : Nat) (s : State) : (fhigh f i v s).tnd = s.tnd := rfl
@[simp] theorem fhigh_mbx (f : Fld) (i v : Nat) (s : State) : (fhigh f i v s).mbx = s.mbx := rfl
@[simp] theorem fhigh_outbox (f : Fld) (i v : Nat) (s : State) : (fhigh f i v s).outbox = s.outbox := rfl
@[simp] theorem fhigh_freeIx (f : Fld) (i v : Nat) (s : State) : (fhigh f i v s).freeIx = s.freeIx := rfl
@[simp] theorem fhigh_pending (f : Fld) (i v : Nat) (s : State) : (fhigh f i v s).pending = s.pending := rfl
/-! `when` -/
@[simp] theorem when_config (b : Bool) (f : State → State) (s : State) : (when b f s).config = if b then (f s).config else s.config := by cases b <;> rfl
@[simp] theorem when_serial (b : Bool) (f : State → State) (s : State) : (when b f s).serial = if b then (f s).serial else s.serial := by cases b <;> rfl
@[simp] theorem when_stepping (b : Bool) (f : State → State) (s : State) : (when b f s).stepping = if b then (f s).stepping else s.stepping := by cases b <;> rfl
@[simp] theorem when_gtc (b : Bool) (f : State → State) (s : State) : (when b f s).gtc = if b then (f s).gtc else s.gtc := by cases b <;> rfl
@[simp] theorem when_stamp (b : Bool) (f : State → State) (s : State) : (when b f s).stamp = if b then (f s).stamp else s.stamp := by cases b <;> rfl
@[simp] theorem when_mode (b : Bool) (f : State → State) (s : State) : (when b f s).mode = if b then (f s).mode else s.mode := by cases b <;> rfl
@[simp] theorem when_regs (b : Bool) (f : State → State) (s : State) : (when b f s).regs = if b then (f s).regs else s.regs := by cases b <;> rfl
@[simp] theorem when_setAt (b : Bool) (f : State → State) (s : State) : (when b f s).setAt = if b then (f s).setAt else s.setAt := by cases b <;> rfl
@[simp] theorem when_pins (b : Bool) (f : State → State) (s : State) : (when b f s).pins = if b then (f s).pins else s.pins := by cases b <;> rfl
@[simp] theorem when_host (b : Bool) (f : State → State) (s : State) : (when b f s).host = if b then (f s).host else s.host := by cases b <;> rfl
@[simp] theorem when_cache (b : Bool) (f : State → State) (s : State) : (when b f s).cache = if b then (f s).cache else s.cache := by cases b <;> rfl
@[simp] theorem when_sched (b : Bool) (f : State → State) (s : State) : (when b f s).sched = if b then (f s).sched else s.sched := by cases b <;> rfl
@[simp] theorem when_led (b : Bool) (f : State → State) (s : State) : (when b f s).led = if b then (f s).led else s.led := by cases b <;> rfl
@[simp] theorem when_fw (b : Bool) (f : State → State) (s : State) : (when b f s).fw = if b then (f s).fw else s.fw := by cases b <;> rfl
@[simp] theorem when_med (b : Bool) (f : State → State) (s : State) : (when b f s).med = if b then (f s).med else s.med := by cases b <;> rfl
@[simp] theorem when_life (b : Bool) (f : State → State) (s : State) : (when b f s).life = if b then (f s).life else s.life := by cases b <;> rfl
@[simp] theorem when_seq (b : Bool) (f : State → State) (s : State) : (when b f s).seq = if b then (f s).seq else s.seq := by cases b <;> rfl
@[simp] theorem when_mcv (b : Bool) (f : State → State) (s : State) : (when b f s).mcv = if b then (f s).mcv else s.mcv := by cases b <;> rfl
@[simp] theorem when_rcd (b : Bool) (f : State → State) (s : State) : (when b f s).rcd = if b then (f s).rcd else s.rcd := by cases b <;> rfl
@[simp] theorem when_sbg (b : Bool) (f : State → State) (s : State) : (when b f s).sbg = if b then (f s).sbg else s.sbg := by cases b <;> rfl
@[simp] theorem when_pel (b : Bool) (f : State → State) (s : State) : (when b f s).pel = if b then (f s).pel else s.pel := by cases b <;> rfl
@[simp] theorem when_tnd (b : Bool) (f : State → State) (s : State) : (when b f s).tnd = if b then (f s).tnd else s.tnd := by cases b <;> rfl
@[simp] theorem when_mbx (b : Bool) (f : State → State) (s : State) : (when b f s).mbx = if b then (f s).mbx else s.mbx := by cases b <;> rfl
@[simp] theorem when_outbox (b : Bool) (f : State → State) (s : State) : (when b f s).outbox = if b then (f s).outbox else s.outbox := by cases b <;> rfl
@[simp] theorem when_freeIx (b : Bool) (f : State → State) (s : State) : (when b f s).freeIx = if b then (f s).freeIx else s.freeIx := by cases b <;> rfl
@[simp] theorem when_pending (b : Bool) (f : State → State) (s : State) : (when b f s).pending = if b then (f s).pending else s.pending := by cases b <;> rfl
@[simp] theorem fget_when (b : Bool) (f : State → State) (s : State) (g : Fld) (i : Nat) : fget (when b f s) g i = if b then fget (f s) g i else fget s g i := by
  cases b <;> rfl

@[simp] theorem when_true (f : State → State) (s : State) : when true f s = f s := rfl
@[simp] theorem when_false (f : State → State) (s : State) : when false f s = s := rfl
@[simp] theorem forEach_nil {α : Type} (f : α → State → State) (s : State) : forEach [] f s = s := rfl
@[simp] theorem forEach_cons {α : Type} (x : α) (xs : List α) (f : α → State → State) (s : State) :
    forEach (x :: xs) f s = forEach xs f (f x s) := rfl

/-- What every step of a loop keeps, the loop keeps. -/
theorem forEach_keeps {α β : Type} (g : State → β) (f : α → State → State) (h : ∀ x s, g (f x s) = g s) (xs : List α) (s : State) :
    g (forEach xs f s) = g s := by
  induction xs generalizing s with
  | nil => rfl
  | cons x xs ih => simp [ih, h]

end Sys2Proof.Machine
end

