-- ==== Sys2Proof/Laws/Frames.lean ====
section
/-! SUPPORT. How frames compose, what a write of a register field keeps, and how a command's end settles. -/
namespace Sys2Proof.Machine

/-! ### Registers -/

theorem regsKept_refl (s : State) (fs : List (Fld × Nat)) : regsKept s s fs := fun _ _ _ => rfl

theorem regsKept_trans {s t u : State} {fs : List (Fld × Nat)} (h : regsKept s t fs) (k : regsKept t u fs) : regsKept s u fs :=
  fun g i hg => (k g i hg).trans (h g i hg)

theorem regsKept_mono {s t : State} {fs gs : List (Fld × Nat)} (h : regsKept s t fs) (hs : ∀ p ∈ fs, p ∈ gs) : regsKept s t gs :=
  fun g i hg => h g i (fun p hp => hg p (hs p hp))

/-- A write of one field keeps every field but that one. -/
theorem regsKept_fput (f : Fld) (i v : Nat) (s : State) : regsKept s (fput f i v s) [(f, i)] :=
  fun g j hg => fget_fput_other f g i j v s (hg (f, i) (by simp))

/-- What leaves the register table alone keeps every field. -/
theorem regsKept_of_regs {s t : State} (h : t.regs = s.regs) (fs : List (Fld × Nat)) : regsKept s t fs :=
  fun g i _ => by simp [fget, h]

/-! ### Parts -/

theorem agree_refl (s : State) (p : Part) : agree s s p := by cases p <;> simp [agree]

theorem agree_trans {s t u : State} {p : Part} (h : agree s t p) (k : agree t u p) : agree s u p := by
  cases p <;> simp only [agree] at h k ⊢
  case regs => exact ⟨k.1.trans h.1, k.2.trans h.2⟩
  all_goals exact k.trans h

theorem keptBut_refl (s : State) (ps : List Part) : keptBut s s ps := ⟨rfl, rfl, rfl, rfl, fun p _ => agree_refl s p⟩

theorem keptBut_trans {s t u : State} {ps : List Part} (h : keptBut s t ps) (k : keptBut t u ps) : keptBut s u ps :=
  ⟨k.1.trans h.1, k.2.1.trans h.2.1, k.2.2.1.trans h.2.2.1, k.2.2.2.1.trans h.2.2.2.1,
    fun p hp => agree_trans (h.2.2.2.2 p hp) (k.2.2.2.2 p hp)⟩

theorem keptBut_mono {s t : State} {ps qs : List Part} (h : keptBut s t ps) (hs : ∀ p ∈ ps, p ∈ qs) : keptBut s t qs :=
  ⟨h.1, h.2.1, h.2.2.1, h.2.2.2.1, fun p hp => h.2.2.2.2 p (fun hq => hp (hs p hq))⟩

/-- A command in progress may change the stamp (R19): nothing else tells it from its beginning. -/
theorem keptBut_stampNow (s : State) (ps : List Part) : keptBut s (stampNow s) (.stamp :: ps) :=
  ⟨rfl, rfl, rfl, rfl, fun p hp => by cases p <;> simp_all [agree]⟩

/-- A loop keeps what each of its steps keeps. -/
theorem forEach_keptBut {α : Type} {ps : List Part} (f : α → State → State) (h : ∀ x s, keptBut s (f x s) ps) (xs : List α) :
    ∀ s, keptBut s (forEach xs f s) ps := by
  induction xs with
  | nil => intro s; exact keptBut_refl s ps
  | cons x t ih => intro s; exact keptBut_trans (h x s) (ih (f x s))

theorem when_keptBut {ps : List Part} (b : Bool) (f : State → State) (s : State) (h : keptBut s (f s) ps) : keptBut s (when b f s) ps := by
  cases b
  · exact keptBut_refl s ps
  · exact h

/-! ### The stamp: nothing the commands ask of a state depends on it -/

@[simp] theorem aonOn_stampNow (s : State) : aonOn (stampNow s) = aonOn s := rfl
@[simp] theorem coreOn_stampNow (s : State) : coreOn (stampNow s) = coreOn s := rfl
@[simp] theorem ioLink_stampNow (s : State) : ioLink (stampNow s) = ioLink s := rfl
@[simp] theorem memLink_stampNow (s : State) : memLink (stampNow s) = memLink s := rfl
@[simp] theorem doeUp_stampNow (s : State) : doeUp (stampNow s) = doeUp s := rfl
@[simp] theorem mctpUp_stampNow (s : State) : mctpUp (stampNow s) = mctpUp s := rfl
@[simp] theorem sbReady_stampNow (s : State) : sbReady (stampNow s) = sbReady s := rfl
@[simp] theorem hubRuns_stampNow (s : State) : hubRuns (stampNow s) = hubRuns s := rfl
@[simp] theorem inService_stampNow (s : State) : inService (stampNow s) = inService s := rfl
@[simp] theorem tickOf_stampNow (s : State) : tickOf (stampNow s) = tickOf s := rfl
@[simp] theorem spdmUp_stampNow (s : State) (v : SpdmTransport) : spdmUp (stampNow s) v = spdmUp s v := rfl
@[simp] theorem spdmStage_stampNow (s : State) (v : SpdmTransport) : spdmStage (stampNow s) v = spdmStage s v := rfl
@[simp] theorem decoder_stampNow (s : State) (n : Nat) : decoder (stampNow s) n = decoder s n := rfl
@[simp] theorem ctxOf_stampNow (s : State) (g : BitVec 16) : ctxOf (stampNow s) g = ctxOf s g := rfl
@[simp] theorem endpoint_stampNow (s : State) (v : Transport) : endpoint (stampNow s) v = endpoint s v := rfl
@[simp] theorem transportBusy_stampNow (s : State) (v : Transport) : transportBusy (stampNow s) v = transportBusy s v := rfl
@[simp] theorem hubGate_stampNow (s : State) (v : Transport) (n : Nat) : hubGate (stampNow s) v n = hubGate s v n := rfl
@[simp] theorem aonServes_stampNow (s : State) (n : Nat) : aonServes (stampNow s) n = aonServes s n := rfl
@[simp] theorem accepted_stampNow (s : State) (a : Accept) : accepted (stampNow s) a = accepted s a := rfl
@[simp] theorem sbByte_stampNow (s : State) (n : Nat) : sbByte (stampNow s) n = sbByte s n := rfl
@[simp] theorem pageDirty_stampNow (s : State) (n : Nat) : pageDirty (stampNow s) n = pageDirty s n := rfl
@[simp] theorem ownerCert_stampNow (s : State) (n : Nat) : ownerCert (stampNow s) n = ownerCert s n := rfl
@[simp] theorem sessionOpen_stampNow (s : State) (n : BitVec 32) : sessionOpen (stampNow s) n = sessionOpen s n := rfl
@[simp] theorem sessionLive_stampNow (s : State) (n : BitVec 32) : sessionLive (stampNow s) n = sessionLive s n := rfl
@[simp] theorem slotHasCert_stampNow (s : State) (n : Nat) : slotHasCert (stampNow s) n = slotHasCert s n := rfl
@[simp] theorem packFlds_stampNow (s : State) (l : List Fld) (n : Nat) : packFlds (stampNow s) l n = packFlds s l n := rfl

/-! ### Settling -/

/-- What a command leaves of the parts: an effect that keeps all but `ps` and the stamp, from a state whose GTC is 64 bits wide. -/
theorem keptBut_settle {s t : State} {ps : List Part} (hg : gtcOk s) (h : keptBut s t (.stamp :: ps)) : keptBut s (settle s t) ps := by
  refine ⟨rfl, rfl, rfl, rfl, fun p hp => ?_⟩
  by_cases hs : p = .stamp
  · subst hs; rfl
  have k := h.2.2.2.2 p (by simp [hs, hp])
  cases p <;> simp only [agree, settle] at k ⊢ <;> try exact k
  rw [k]; exact Nat.mod_eq_of_lt hg

/-- What a command whose effect keeps all but `ps` and the stamp leaves. -/
theorem keptBut_run {k : State → State} {s : State} {ps : List Part} (hg : gtcOk s) (h : keptBut (stampNow s) (k (stampNow s)) (.stamp :: ps)) :
    ∃ t, run k s = .next t ∧ keptBut s t ps :=
  ⟨_, run_eq k s, keptBut_settle hg (keptBut_trans (keptBut_stampNow s ps) h)⟩

/-- A command whose effect keeps the GTC and what no command changes settles to that effect, but for the stamp. -/
theorem settle_of_kept {s t : State} {ps : List Part} (hg : gtcOk s) (h : keptBut s t ps) (ht : Part.gtc ∉ ps) :
    settle s t = { t with stamp := s.stamp } := by
  have k : t.gtc = s.gtc := h.2.2.2.2 .gtc ht
  have e : t.gtc % 2 ^ 64 = t.gtc := by rw [k]; exact Nat.mod_eq_of_lt hg
  obtain ⟨h1, h2, h3, h4, -⟩ := h
  simp only [settle, e, ← h1, ← h2, ← h3, ← h4]

end Sys2Proof.Machine
end

