-- ==== Sys2Proof/Laws/Mailbox.lean ====
section
/-! SUPPORT. What a mailbox command passes and how it ends, said once: a command that reaches its meaning is its body, and an
answer is what it sends. -/
namespace Sys2Proof.Machine

/-! ### Answers -/

/-- An answer sends what `sends` says, shows in its mailbox's registers, and changes nothing else. -/
theorem answer_eq (via : Transport) (op : Nat) (r : RetCode) (out : List Byte) (s : State) : answer via op r out s = ended s via op r out := by
  by_cases hl : s.host.linkUp = true <;> cases via <;> simp [answer, ended, sends, shows, when, msix, emit, onMbx, hl, viaNo]

theorem succeed_eq (via : Transport) (op : Nat) (out : List Byte) (s : State) : succeed via op out s = ended s via op ⟨0, 0⟩ out :=
  answer_eq via op ⟨0, 0⟩ out s

theorem refuseStd_eq (via : Transport) (op rc : Nat) (s : State) : refuseStd via op rc s = ended s via op ⟨rc, 0⟩ [] :=
  answer_eq via op ⟨rc, 0⟩ [] s

theorem refuse_eq {op : Nat} (h : 0xC000 ≤ op) (via : Transport) (vs : Nat) (s : State) :
    refuse via op vs s = ended s via op ⟨rcOf vs, vs⟩ (leBytes 4 vs) := by
  simp only [refuse, h, if_true, answer_eq]

/-- A command that only answers settles to its answer. -/
theorem settle_ended {s : State} (hg : gtcOk s) (via : Transport) (op : Nat) (r : RetCode) (out : List Byte) :
    settle s (ended (stampNow s) via op r out) = ended s via op r out := by
  simp only [settle, ended, sends, shows, stampNow]
  congr 1
  exact Nat.mod_eq_of_lt hg

/-! ### What a command passes -/

/-- A command that reaches its meaning with a good length, over MCTP within its limit, is its body. -/
theorem command_of_reaches {s : State} {via : Transport} {op : Nat} {acc : Accept} {lenOk : Nat → Bool} {input : List Byte}
    (body : State → State) (h : reaches s via op acc) (hl : lenOk input.length = true)
    (hs : via = .mctp → input.length ≤ payloadMax via) :
    command via op acc lenOk input body s = body s := by
  obtain ⟨-, hb, h | h⟩ := h
  · simp [command, hb, h.1, h.2, hl]
  · obtain ⟨he, hg, ha, hm⟩ := h
    have hm' : ¬(via = .mctp ∧ overMctp op = false) := fun k => by simp [hm k.1] at k
    have hs' : ¬(via = .mctp ∧ payloadMax via < input.length) := fun k => absurd (hs k.1) (by omega)
    simp [command, hb, he, hg, ha, hl, hm', hs']

/-- What a command can do: nothing (its transport is busy or nobody answers), a refusal, or its body. -/
theorem command_cases (via : Transport) (op : Nat) (acc : Accept) (lenOk : Nat → Bool) (input : List Byte) (body : State → State) (s : State) :
    command via op acc lenOk input body s = s
      ∨ (∃ vs, command via op acc lenOk input body s = refuse via op vs s)
      ∨ command via op acc lenOk input body s = refuseStd via op 3 s
      ∨ (command via op acc lenOk input body s = body s ∧ lenOk input.length = true) := by
  unfold command
  split
  · exact .inl rfl
  · split
    · exact .inl rfl
    · split
      · exact .inr (.inl ⟨_, rfl⟩)
      · split
        · rename_i hl; exact .inr (.inr (.inr ⟨rfl, hl⟩))
        · exact .inr (.inl ⟨_, rfl⟩)
    · split
      · exact .inr (.inr (.inl rfl))
      · split
        · exact .inr (.inl ⟨_, rfl⟩)
        · split
          · exact .inr (.inl ⟨_, rfl⟩)
          · split
            · exact .inr (.inl ⟨_, rfl⟩)
            · rename_i hl
              exact .inr (.inr (.inr ⟨rfl, by simp only [Bool.or_eq_true, not_or, Bool.not_eq_true', Bool.not_eq_false] at hl; exact hl.1⟩))

/-- An authorised command with a good token whose gate is open and whose own conditions hold acts, and then lands its record. -/
theorem authorised_of_good {s : State} {via : Transport} {op : Nat} {input : List Byte} {own : State → Nat} (act : State → State)
    (h : tokenGood s via op input) (hg : hubGate s via op = 0)
    (ho : own (onMbx (fun m => { m with fails := 0 }) (dropNonce via s)) = 0) :
    authorised via op input own act s
      = authRecord op 0 input (act (onMbx (fun m => { m with fails := 0 }) (dropNonce via s))) := by
  obtain ⟨hl, x, k, hn, hk, ht⟩ := h
  have hk' : ownerKey (dropNonce via s) = ownerKey s := rfl
  have hc : checkToken via op input s = (0, onMbx (fun m => { m with fails := 0 }) (dropNonce via s)) := by
    simp [checkToken, hl, hn, hk, ht]
  simp [authorised, hc, hg, ho]

/-! ### Stores that a command waits for -/

/-- The pages a stored command waits for are the dirty ones of those it named. -/
theorem mem_dirtyPages (s : State) (pages : List Nat) (p : Nat) :
    p ∈ (pages.filter (pageDirty s)).foldl (fun t p => nsAdd p t) [] ↔ p ∈ pages ∧ pageDirty s p = true := by
  have key : ∀ (l : List Nat) (acc : List Nat), p ∈ l.foldl (fun t p => nsAdd p t) acc ↔ p ∈ acc ∨ p ∈ l := by
    have add : ∀ (n : Nat) (l : List Nat), p ∈ nsAdd n l ↔ p = n ∨ p ∈ l := by
      intro n l
      induction l with
      | nil => simp [nsAdd]
      | cons k t ih =>
        unfold nsAdd
        split
        · simp
        · split
          · rename_i h; subst h; simp
          · simp only [List.mem_cons, ih]; tauto
    intro l
    induction l with
    | nil => intro acc; simp
    | cons k t ih => intro acc; simp only [List.foldl_cons, ih, add, List.mem_cons]; tauto
  simp [key, List.mem_filter]

end Sys2Proof.Machine
end

