-- ==== Sys2Proof/Laws/Memory.lean ====
section
/-! SUPPORT. The saddlebag's memories: what a write leaves at every address, and that every memory operation keeps the canonical
form, which the memories have at reset. -/
namespace Sys2Proof.Machine

variable {α : Type}

/-! ### Filters -/

theorem tabAbove_tabFilter (p : Nat → Bool) {n : Nat} (t : Tab α) (h : tabAbove n t = true) : tabAbove n (tabFilter p t) = true := by
  induction t with
  | nil => rfl
  | cons x t ih =>
    obtain ⟨k, v⟩ := x
    simp only [tabAbove, Bool.and_eq_true] at h
    by_cases hp : p k = true
    · simp [tabFilter, hp, tabAbove, ih h.2, of_decide_eq_true h.1]
    · simp [tabFilter, hp, ih h.2]

theorem tabFilter_wf [DecidableEq α] (d : α) (p : Nat → Bool) (t : Tab α) (h : tabWf d t = true) : tabWf d (tabFilter p t) = true := by
  induction t with
  | nil => rfl
  | cons x t ih =>
    obtain ⟨k, v⟩ := x
    simp only [tabWf, Bool.and_eq_true] at h
    by_cases hp : p k = true
    · simp [tabFilter, hp, tabWf, tabAbove_tabFilter p t h.1.1, of_decide_eq_true h.1.2, ih h.2]
    · simp [tabFilter, hp, ih h.2]

theorem tabGet_tabFilter (d : α) (p : Nat → Bool) (t : Tab α) (n : Nat) :
    tabGet d (tabFilter p t) n = if p n then tabGet d t n else d := by
  induction t with
  | nil => simp [tabFilter, tabGet]
  | cons x t ih =>
    obtain ⟨k, v⟩ := x
    by_cases hk : k = n
    · subst hk
      by_cases hp : p k = true
      · simp [tabFilter, hp, tabGet]
      · simp only [tabFilter, hp, if_false, Bool.false_eq_true, ih]
    · by_cases hp : p k = true
      · simp [tabFilter, hp, tabGet, hk, ih]
      · simp only [tabFilter, hp, if_false, Bool.false_eq_true, ih, tabGet, hk]

/-- Every listed key passes the filter. -/
theorem mem_tabFilter (p : Nat → Bool) (t : Tab α) (x : Nat × α) (h : x ∈ tabFilter p t) : p x.1 = true ∧ x ∈ t := by
  induction t with
  | nil => simp [tabFilter] at h
  | cons y t ih =>
    obtain ⟨k, v⟩ := y
    by_cases hp : p k = true
    · simp only [tabFilter, hp, if_true, List.mem_cons] at h
      rcases h with h | h
      · subst h; exact ⟨hp, by simp⟩
      · exact ⟨(ih h).1, by simp [(ih h).2]⟩
    · simp only [tabFilter, hp, Bool.false_eq_true, if_false] at h
      exact ⟨(ih h).1, by simp [(ih h).2]⟩

/-! ### Joining two tables -/

theorem tabAbove_append (n : Nat) (a b : Tab α) : tabAbove n (a ++ b) = (tabAbove n a && tabAbove n b) := by
  induction a with
  | nil => simp [tabAbove]
  | cons x a ih => obtain ⟨k, v⟩ := x; simp [tabAbove, ih, Bool.and_assoc]

theorem tabAbove_of_mem {n : Nat} (t : Tab α) (h : ∀ x ∈ t, n < x.1) : tabAbove n t = true := by
  induction t with
  | nil => rfl
  | cons x t ih =>
    obtain ⟨k, v⟩ := x
    simp only [tabAbove, Bool.and_eq_true, decide_eq_true_eq]
    exact ⟨h (k, v) (by simp), ih (fun y hy => h y (by simp [hy]))⟩

theorem tabWf_append [DecidableEq α] (d : α) (a b : Tab α) (ha : tabWf d a = true) (hb : tabWf d b = true)
    (h : ∀ x ∈ a, ∀ y ∈ b, x.1 < y.1) : tabWf d (a ++ b) = true := by
  induction a with
  | nil => exact hb
  | cons x a ih =>
    obtain ⟨k, v⟩ := x
    simp only [tabWf, Bool.and_eq_true] at ha
    simp only [List.cons_append, tabWf, tabAbove_append, Bool.and_eq_true]
    exact ⟨⟨⟨ha.1.1, tabAbove_of_mem b (h (k, v) (by simp))⟩, ha.1.2⟩, ih ha.2 (fun x hx => h x (by simp [hx]))⟩

theorem tabGet_append (d : α) (a b : Tab α) (n : Nat) :
    tabGet d (a ++ b) n = if tabHas a n then tabGet d a n else tabGet d b n := by
  induction a with
  | nil => simp [tabHas]
  | cons x a ih =>
    obtain ⟨k, v⟩ := x
    by_cases hk : k = n
    · simp [tabGet, tabHas, hk]
    · simp [tabGet, tabHas, hk, ih]

theorem tabGet_of_not_tabHas (d : α) (t : Tab α) (n : Nat) (h : tabHas t n = false) : tabGet d t n = d := by
  induction t with
  | nil => rfl
  | cons x t ih =>
    obtain ⟨k, v⟩ := x
    by_cases hk : k = n
    · simp [tabHas, hk] at h
    · simp only [tabHas, hk, if_false] at h
      simp [tabGet, hk, ih h]

theorem tabHas_eq_false_of_mem (t : Tab α) (n : Nat) (h : ∀ x ∈ t, x.1 ≠ n) : tabHas t n = false := by
  induction t with
  | nil => rfl
  | cons x t ih =>
    obtain ⟨k, v⟩ := x
    simp [tabHas, h _ (List.mem_cons_self ..), ih (fun y hy => h y (by simp [hy]))]

/-! ### Writes of bytes -/

theorem putBytes_wf (bs : List Byte) : ∀ (a : Nat) (m : List Host.Cell), Memory.wf m → Memory.wf (putBytes a bs m) := by
  induction bs with
  | nil => intro a m h; exact h
  | cons b t ih => intro a m h; exact ih (a + 1) _ (tabSet_wf blankByte a b m h)

theorem putWrap_wf (p : Nat) (bs : List Byte) : ∀ (off : Nat) (m : List Host.Cell), Memory.wf m → Memory.wf (putWrap p off bs m) := by
  induction bs with
  | nil => intro off m h; exact h
  | cons b t ih => intro off m h; exact ih (off + 1) _ (tabSet_wf blankByte _ b m h)

/-- A read after a write: the bytes written at their addresses, every other byte as it was. -/
theorem tabGet_putBytes (bs : List Byte) : ∀ (a : Nat) (m : List Host.Cell) (k : Nat),
    tabGet blankByte (putBytes a bs m) k = if a ≤ k ∧ k < a + bs.length then bs.getD (k - a) 0 else tabGet blankByte m k := by
  induction bs with
  | nil =>
    intro a m k
    have : ¬(a ≤ k ∧ k < a + ([] : List Byte).length) := by simp
    simp only [putBytes, this, if_false]
  | cons b t ih =>
    intro a m k
    simp only [putBytes, ih, tabGet_tabSet, List.length_cons]
    by_cases h1 : k = a
    · subst h1; simp
    · by_cases h2 : a + 1 ≤ k ∧ k < a + 1 + t.length
      · have h3 : a ≤ k ∧ k < a + (t.length + 1) := by omega
        obtain ⟨j, rfl⟩ : ∃ j, k = a + 1 + j := ⟨k - (a + 1), by omega⟩
        have e1 : a + 1 + j - (a + 1) = j := by omega
        have e2 : a + 1 + j - a = j + 1 := by omega
        simp [h2, h3, e1, e2]
      · have h3 : ¬(a ≤ k ∧ k < a + (t.length + 1)) := by omega
        rw [if_neg h2, if_neg h3, if_neg h1]

/-! ### Whole pages -/

theorem pageCells_wf (m : List Host.Cell) (p : Nat) (h : Memory.wf m) : Memory.wf (pageCells m p) := tabFilter_wf blankByte _ m h

/-- The cells of a page lie in it. -/
theorem mem_pageCells (m : List Host.Cell) (p : Nat) (x : Host.Cell) (h : x ∈ pageCells m p) : x.1 / 256 = p := by
  simpa using (mem_tabFilter _ m x h).1

theorem putPage_wf (p : Nat) (cells m : List Host.Cell) (hc : Memory.wf cells) (hp : ∀ x ∈ cells, x.1 / 256 = p) (hm : Memory.wf m) :
    Memory.wf (putPage p cells m) := by
  refine tabWf_append blankByte _ _ (tabWf_append blankByte _ _ (tabFilter_wf _ _ _ hm) hc ?_) (tabFilter_wf _ _ _ hm) ?_
  · intro x hx y hy
    have h1 := (mem_tabFilter _ m x hx).1
    have h2 := hp y hy
    simp only [decide_eq_true_eq] at h1
    omega
  · intro x hx y hy
    have h2 := (mem_tabFilter _ m y hy).1
    simp only [decide_eq_true_eq] at h2
    rcases List.mem_append.mp hx with h | h
    · have h1 := (mem_tabFilter _ m x h).1
      simp only [decide_eq_true_eq] at h1
      omega
    · have h1 := hp x h
      omega

/-- A page put into a memory reads as the cells given, every other page as it was. -/
theorem tabGet_putPage (p : Nat) (cells m : List Host.Cell) (hp : ∀ x ∈ cells, x.1 / 256 = p) (k : Nat) :
    tabGet blankByte (putPage p cells m) k = if k / 256 = p then tabGet blankByte cells k else tabGet blankByte m k := by
  have lo : tabHas (tabFilter (fun k => decide (k / 256 < p)) m) k = false ∨ k / 256 < p := by
    by_cases h : k / 256 < p
    · exact Or.inr h
    · refine Or.inl (tabHas_eq_false_of_mem _ _ (fun x hx he => h ?_))
      have := (mem_tabFilter _ m x hx).1
      simp only [decide_eq_true_eq] at this
      rw [he] at this; exact this
  have mid : k / 256 ≠ p → tabHas cells k = false := fun h =>
    tabHas_eq_false_of_mem _ _ (fun x hx he => h (by rw [← he]; exact hp x hx))
  unfold putPage
  rw [List.append_assoc, tabGet_append, tabGet_append]
  by_cases h : k / 256 = p
  · have h0 : tabHas (tabFilter (fun k => decide (k / 256 < p)) m) k = false := by
      rcases lo with h1 | h1
      · exact h1
      · omega
    simp only [h0, Bool.false_eq_true, if_false, h, if_true]
    by_cases hc : tabHas cells k = true
    · simp [hc]
    · have hc' : tabHas cells k = false := by simpa using hc
      simp [hc', tabGet_of_not_tabHas blankByte cells k hc', tabGet_tabFilter, h]
  · simp only [mid h, Bool.false_eq_true, if_false, h]
    by_cases hl : k / 256 < p
    · by_cases hh : tabHas (tabFilter (fun k => decide (k / 256 < p)) m) k = true
      · simp [hh, tabGet_tabFilter, hl]
      · have hh' : tabHas (tabFilter (fun k => decide (k / 256 < p)) m) k = false := by simpa using hh
        have h1 := tabGet_of_not_tabHas blankByte _ k hh'
        simp only [tabGet_tabFilter, hl, decide_true, if_true] at h1
        have h2 : ¬ p < k / 256 := by omega
        simp [hh', tabGet_tabFilter, h2, h1]
    · have h0 : tabHas (tabFilter (fun k => decide (k / 256 < p)) m) k = false := lo.resolve_right hl
      have h2 : p < k / 256 := by omega
      simp [h0, tabGet_tabFilter, h2]

/-! ### The saddlebag's operations -/

/-- What a step of bookkeeping for a page keeps: the memories and the running stores. -/
def sameBytes (s t : State) : Prop :=
  t.sbg.work = s.sbg.work ∧ t.sbg.shadow = s.sbg.shadow ∧ t.sbg.running = s.sbg.running

theorem sameBytes_refl (s : State) : sameBytes s s := ⟨rfl, rfl, rfl⟩

theorem sameBytes_trans {s t u : State} (h : sameBytes s t) (k : sameBytes t u) : sameBytes s u :=
  ⟨k.1.trans h.1, k.2.1.trans h.2.1, k.2.2.trans h.2.2⟩

theorem touchPage_bytes (p : Nat) (s : State) : sameBytes s (touchPage p s) := by
  unfold touchPage
  split
  · exact sameBytes_refl s
  · split
    · exact sameBytes_refl s
    · exact ⟨rfl, rfl, rfl⟩

theorem sbRequest_bytes (p : Nat) (s : State) : sameBytes s (sbRequest p s) := by
  unfold sbRequest
  split
  · exact ⟨rfl, rfl, rfl⟩
  · exact sameBytes_refl s

theorem forEach_bytes {β : Type} (f : β → State → State) (h : ∀ x s, sameBytes s (f x s)) (xs : List β) :
    ∀ s, sameBytes s (forEach xs f s) := by
  induction xs with
  | nil => intro s; exact sameBytes_refl s
  | cons x t ih => intro s; exact sameBytes_trans (h x s) (ih (f x s))

/-- A write to the working copy leaves the bytes given there, and the shadow and the running stores as they were. -/
theorem sbPut_bytes (a : Nat) (bs : List Byte) (s : State) :
    (sbPut a bs s).sbg.work = putBytes a bs s.sbg.work ∧ (sbPut a bs s).sbg.shadow = s.sbg.shadow
      ∧ (sbPut a bs s).sbg.running = s.sbg.running :=
  forEach_bytes touchPage touchPage_bytes (pagesOf a bs.length) (onSbg (fun g => { g with work := putBytes a bs g.work }) s)

theorem sbPutWrap_bytes (p off : Nat) (bs : List Byte) (s : State) :
    (sbPutWrap p off bs s).sbg.work = putWrap p off bs s.sbg.work ∧ (sbPutWrap p off bs s).sbg.shadow = s.sbg.shadow
      ∧ (sbPutWrap p off bs s).sbg.running = s.sbg.running :=
  touchPage_bytes p (onSbg (fun g => { g with work := putWrap p off bs g.work }) s)

theorem sbStore_bytes (a : Nat) (bs : List Byte) (s : State) :
    (sbStore a bs s).sbg.work = putBytes a bs s.sbg.work ∧ (sbStore a bs s).sbg.shadow = s.sbg.shadow
      ∧ (sbStore a bs s).sbg.running = s.sbg.running :=
  let h := forEach_bytes sbRequest sbRequest_bytes (pagesOf a bs.length) (sbPut a bs s)
  let k := sbPut_bytes a bs s
  ⟨h.1.trans k.1, h.2.1.trans k.2.1, h.2.2.trans k.2.2⟩

/-- A byte of the working copy after a write. -/
theorem sbByte_sbStore (a : Nat) (bs : List Byte) (s : State) (k : Nat) :
    sbByte (sbStore a bs s) k = if a ≤ k ∧ k < a + bs.length then bs.getD (k - a) 0 else sbByte s k := by
  unfold sbByte
  rw [(sbStore_bytes a bs s).1, tabGet_putBytes]

/-- A write keeps the canonical form. -/
theorem sbStore_form (a : Nat) (bs : List Byte) (s : State) (h : sbForm s) : sbForm (sbStore a bs s) := by
  obtain ⟨h1, h2, h3⟩ := h
  obtain ⟨e1, e2, e3⟩ := sbStore_bytes a bs s
  refine ⟨?_, ?_, ?_⟩
  · rw [e1]; exact putBytes_wf bs a _ h1
  · rw [e2]; exact h2
  · intro b r hr
    unfold runningStore at hr
    rw [e3] at hr
    exact h3 b r hr

/-- A store begins with its page's cells, which have the form. -/
theorem storeStart_form (b : Nat) (s : State) (h : sbForm s) : sbForm (storeStart b s) := by
  unfold storeStart
  split
  · exact h
  · split
    · exact h
    · rename_i p _
      split
      · refine ⟨h.1, h.2.1, fun c r hr => ?_⟩
        by_cases hc : c = b
        · subst hc
          simp only [runningStore, onSbg, tabGet_tabPut_same, Option.some.injEq] at hr
          subst hr
          exact ⟨pageCells_wf _ _ h.1, fun x hx => mem_pageCells _ _ x hx⟩
        · simp only [runningStore, onSbg, tabGet_tabPut_ne _ _ hc] at hr
          exact h.2.2 c r hr
      · exact h

/-- The memories have the form at reset. -/
theorem reset_form : sbForm State.reset := by
  refine ⟨rfl, rfl, fun b r h => ?_⟩
  simp [runningStore, State.reset, sbgReset, tabGet] at h

end Sys2Proof.Machine
end

