-- ==== Sys2Proof/Tests/Slice0.lean ====
section
/-! SUPPORT. Tests: the well-formedness checks refuse ill-formed commands; for every statement, states and operands that meet
its hypotheses, clause by clause; and a few single steps with results worked out from the manual by hand. -/
namespace Sys2Proof.Tests
open Sys2Proof.Machine
set_option Elab.async false

/-! ### States the tests run on -/

/-- The device in a mode, recalled and powered, its link up at x16 and 64 GT/s, the hub running. -/
def up (m : Mode) : State :=
  { State.reset with
    mode := m
    pins := { State.reset.pins with vaon := true, perst := false, coreDet := true, sramDet := true, mmbDet := true }
    host := { hostReset with linkUp := true, mbxReady := true, memActive := true }
    life := { lifeReset with hubUp := true } }
    |> fput F.SBG_STATUS_READY 0 1 |> fput F.HPT_LINK_STATUS_MEM_ENABLED 0 1 |> fput F.SEQ_CTRL_STATE 0 3
    |> fput F.HPT_CREDIT_RWD_OUT 0 5

/-- The device in SERVICE and in MAINTENANCE. -/
def svc : State := up .service
def mnt : State := up .maintenance

/-- A new device, powered and recalled, in STANDBY: the always-on endpoint answers on MCTP. -/
def sby : State := fput F.SBG_STATUS_READY 0 1 State.reset

/-- SERVICE with page 5 dirty. -/
def dirtied : State := sbPut (256 * 5 + 7) [1, 2, 3] svc

/-- A step's next state, or the state itself where it stops. -/
def go (c : Instr) (s : State) : State :=
  match exec c s with
  | .next t => t
  | .fault _ => s
  | .refused _ => s

/-- An outcome is exactly this next state. -/
def isNext (o : Host.Outcome State Fault Refusal) (t : State) : Bool :=
  match o with
  | .next u => decide (u = t)
  | .fault _ => false
  | .refused _ => false

theorem next_of_isNext {o : Host.Outcome State Fault Refusal} {t : State} (h : isNext o t = true) : o = .next t := by
  cases o with
  | next u => exact congrArg _ (of_decide_eq_true h)
  | fault f => cases h
  | refused f => cases h

/-! ### The well-formedness checks refuse -/

theorem test_hpa_refused : wellFormed (.memspecrd 32) = false := by decide
theorem test_hpa_range_refused : wellFormed (.meminv 0 (2 ^ 52)) = false := by decide
theorem test_hpa_accepted : wellFormed (.meminv 0 (2 ^ 52 - 64)) = true := by decide
theorem test_stamp_refused : wellFormed (.vinFallTrip (2 ^ 64)) = false := by decide
theorem test_payload_refused : wellFormed (.writePages .primary (List.replicate 65537 0)) = false := by decide +kernel
theorem test_width_refused : wellFormed (.linkTrained 12 5) = false := by decide
theorem test_celsius_refused : wellFormed (.dieTemperatureRead 0 0 200) = false := by decide
theorem test_errors_refused : wellFormed (.decodeComplete (.demand 1) ⟨2305, true⟩ ⟨false, ⟨0, 0, 0⟩, ⟨0, 0, 0⟩, ⟨0, 0, 0⟩⟩ 0) = false := by decide
theorem test_config_refused : wellFormed (.config ⟨0, 0, 0, 0, false, 0, 2, [3, 3]⟩) = false := by decide
theorem test_pages_refused : wellFormed (.recallComplete 0 [4096] []) = false := by decide
theorem test_decoder_refused : wellFormed (.hdmDecoderCommit 0 ⟨2 ^ 64, 0, 0, 0, 0, false⟩) = false := by decide
theorem test_opcode_refused : wellFormed (.unsupportedOpcode .primary 0xC000) = false := by decide
theorem test_scrub_refused : wellFormed (.scrubSetVisit 0 (List.replicate 65 ⟨0, 0, .clean⟩)) = false := by decide +kernel

/-- The table gives no row bits, so no word spells a command. -/
theorem test_no_word_is_a_command (n w : Nat) : decodeTableWord n w = none := rfl

/-! ### Witnesses: general statements, the port, its configuration -/

theorem witness_StepRunsFrontOfQueue :
    { svc with pending := [.hotReset, .flr] }.pending = .hotReset :: [.flr] ∧ svc.pending = [] := by decide +kernel

theorem witness_StepKeepsWhatManufactureFixed :
    gtcOk { svc with gtc := 2 ^ 64 - 1, pending := [.getEndpointId] }
      ∧ step { svc with gtc := 2 ^ 64 - 1, pending := [.getEndpointId] }
        = .next { svc with gtc := 2 ^ 64 - 1, outbox := [.mctpControl 2 [0, 0]] } :=
  ⟨by delta gtcOk; decide +kernel, next_of_isNext (by decide +kernel)⟩

/-- The device after VAON_POWER_OFF. -/
def off : State := go .vaonPowerOff svc

theorem witness_OffIsInertUntilVaonRises :
    powerless off ∧ exec .hotReset off = .next off ∧ exec .cadenceTick off = .next off :=
  ⟨by delta powerless; decide +kernel, next_of_isNext (by decide +kernel), next_of_isNext (by decide +kernel)⟩

theorem witness_PowerOffLeavesOffAndRetainedParts :
    gtcOk svc ∧ svc.mode ≠ .off ∧ svc.sbg.running = [] ∧ gtcOk off ∧ off.mode = .off := by
  delta gtcOk; decide +kernel

/-- SERVICE with PERST_N low. -/
def held : State := { svc with pins := { svc.pins with perst := true } }

theorem witness_ConventionalResetsClearThePort :
    gtcOk svc ∧ coreOn svc = true ∧ svc.mode ≠ .freewheel ∧ svc.pins.perst = false ∧ svc.host.linkUp = true
      ∧ svc.mode ≠ .ramp ∧ svc.mode ≠ .recover ∧ (up .ramp).mode = .ramp ∧ coreOn (up .ramp) = true ∧ (up .ramp).pins.perst = false
      ∧ gtcOk held ∧ coreOn held = true ∧ held.mode ≠ .freewheel ∧ held.pins.perst = true ∧ held.host.linkUp = true := by
  delta gtcOk; decide +kernel

theorem witness_FunctionAndCxlResetsKeepTheLink :
    gtcOk svc ∧ coreOn svc = true ∧ svc.host.linkUp = true ∧ svc.mode ≠ .freewheel
      ∧ (let s := go .cxlReset svc
        gtcOk s ∧ coreOn s = true ∧ s.host.linkUp = true ∧ s.mode ≠ .freewheel ∧ s.host.cxlResetting = true ∧ s.mode = .service
          ∧ fon s F.HPT_LINK_STATUS_DEGRADED 0 = false) := by
  delta gtcOk; decide +kernel

/-- SERVICE with the link down, Memory_Active owed. -/
def down : State := { svc with host := { svc.host with linkUp := false, memActive := false, activeOwed := true } }

theorem witness_LinkTrainingSetsWidthRateAndMem :
    gtcOk down ∧ coreOn down = true ∧ down.mode ≠ .freewheel ∧ down.pins.perst = false ∧ down.host.linkUp = false
      ∧ down.mode = .service ∧ down.host.activeOwed = true ∧ fon down F.HPT_LINK_STATUS_DEGRADED 0 = false
      ∧ ((8 == 16 || 8 == 8) && decide (4 ≤ (4 : Fin 6).val)) = true ∧ ((8 == 16 || 8 == 8) && decide (4 ≤ (3 : Fin 6).val)) = false
      ∧ ((31 == 16 || 31 == 8) && decide (4 ≤ (5 : Fin 6).val)) = false
      ∧ gtcOk svc ∧ coreOn svc = true ∧ svc.mode ≠ .freewheel ∧ svc.host.linkUp = true
      ∧ fon svc F.HPT_LINK_STATUS_MEM_ENABLED 0 = true := by
  delta gtcOk; decide +kernel

/-- SERVICE with CXL.mem keys in use. -/
def keyed : State := { svc with host := { svc.host with ide := ⟨true, true, false, false⟩ } }

theorem witness_LinkErrorsViralAndGpf :
    gtcOk keyed ∧ coreOn keyed = true ∧ keyed.host.linkUp = true ∧ keyed.host.ide.memKeys = true ∧ keyed.host.quiesced = false := by
  delta gtcOk; decide +kernel

/-- Words of a legal decoder 0 over 4 GiB, and of one whose size is not a multiple of 256 MiB. -/
def legal : DecoderWords := ⟨0x4000000000, 0x100000000, 0, 0, 0, true⟩
def odd : DecoderWords := ⟨0x4000000000, 0x10000001, 0, 0, 0, false⟩
/-- A commit whose tick ends. -/
def commit (n : Fin 8) (v : DecoderWords) (s : State) : State := applyCommits (go (.hdmDecoderCommit n v) s)
/-- SERVICE with decoder 0 committed and locked. -/
def locked : State := commit 0 legal svc

/-- A commit that waits for the end of its tick; a second decoder above the first. -/
def due (s : State) (n : Fin 8) (v : DecoderWords) : State := go (.hdmDecoderCommit n v) s
def above : DecoderWords := { legal with base := 0x5000000000 }
def wordsOfDecoder (v : DecoderWords) : Decoder := ⟨v.base, v.size, v.skip, v.iw.toNat, v.ig.toNat, false, false, v.lock⟩

/-- The words are legal for decoder `n`. -/
abbrev okWords (s : State) (n : Fin 8) (v : DecoderWords) : Prop :=
  v.iw.toNat ≤ 4 ∧ v.ig.toNat ≤ 6 ∧ v.base % 0x10000000 = 0 ∧ v.size % (0x10000000 * ways (wordsOfDecoder v)) = 0
    ∧ (n.val = 0 ∨ (decoder s (n.val - 1)).committed = true)
    ∧ rangeInPartition s (dpaBelow s n.val + v.skip) (v.size / ways (wordsOfDecoder v)) = true
    ∧ ∀ m < n.val, (decoder s m).committed = true → overlaps (decoder s m).base (decoder s m).size v.base v.size = false

theorem witness_DecoderCommitHoldsOrRefuses :
    gtcOk svc ∧ ioLink svc = true ∧ (due svc 0 legal).host.commitDue = [(0, wordsOfDecoder legal)] ∧ (decoder (due svc 0 legal) 0).committed = false
      ∧ okWords (due svc 0 legal) 0 legal ∧ ¬ okWords (due svc 0 odd) 0 odd
      ∧ gtcOk locked ∧ (due locked 0 odd).host.commitDue = [(0, wordsOfDecoder odd)] ∧ (decoder (due locked 0 odd) 0).committed = true
      ∧ (decoder (due locked 0 odd) 0).lock = true ∧ (due locked 1 above).host.commitDue = [(1, wordsOfDecoder above)]
      ∧ (decoder (due locked 1 above) 1).committed = false ∧ okWords (due locked 1 above) 1 above ∧ ¬ okWords (due locked 1 legal) 1 legal := by
  delta gtcOk; refine ⟨?_, ?_, ?_, ?_, ?_, ?_, ?_⟩ <;> decide +kernel

theorem witness_DoeAnswersAndChangesNothing :
    gtcOk svc ∧ doeUp svc = true ∧ 3 < (cdatHeader svc :: cdatEntries svc).length ∧ (cdatHeader svc :: cdatEntries svc).length < 0xFFFF := by
  delta gtcOk; decide +kernel

/-- A message of SPDM, in MAINTENANCE with the negotiation at a stage and sessions open. -/
def msg (slot : Fin 8) (ix : Byte) : SpdmMessage := ⟨7, slot, ix, []⟩
def spdmAt (stage : Nat) (l : List (BitVec 32 × Bool)) : State :=
  { mnt with host := { mnt.host with spdm := ⟨[(0, stage)], l, []⟩ } }

theorem witness_SpdmNegotiatesInOrder :
    (∀ n < 4, gtcOk (spdmAt n []) ∧ spdmUp (spdmAt n []) .doe = true ∧ spdmStage (spdmAt n []) .doe = n)
      ∧ spdmUp (spdmAt 0 []) .mctp = true ∧ (msg 0 5).slot = 0 ∧ (msg 0 5).index ≠ 0 ∧ (msg 0 5).index.toNat ≤ 5 ∧ (msg 0 0xFF).index = 0xFF
      ∧ (msg 0 0).index = 0 ∧ (msg 1 0).slot ≠ 0 ∧ (spdmAt 3 []).mode = .maintenance ∧ (msg 1 0).data.length ≤ 36 * 256 - 2
      ∧ Memory.wf (spdmAt 3 []).sbg.work ∧ ownerCert (spdmAt 3 []) 1 = none
      ∧ ownerCert (go (.setCertificate .doe ⟨7, 1, 0, [9, 8]⟩) (spdmAt 3 [])) 1 = some [9, 8] := by
  delta gtcOk; decide +kernel

/-- Four sessions open, none of them the message's. -/
def four : List (BitVec 32 × Bool) := [(1, true), (2, true), (3, false), (4, false)]

theorem witness_SpdmSessionsOpenAndClose :
    (∀ l ∈ [four, four.tail, [(7, false)], [(7, true)]],
        gtcOk (spdmAt 3 l) ∧ spdmUp (spdmAt 3 l) .doe = true ∧ 3 ≤ spdmStage (spdmAt 3 l) .doe ∧ doeUp (spdmAt 3 l) = true)
      ∧ four.all (fun x => x.1 != (msg 0 0).session) = true ∧ four.length = 4 := by
  delta gtcOk; decide +kernel

theorem witness_SidebandControlCommandsAnswer :
    gtcOk sby ∧ aonOn sby = true ∧ sbReady sby = true ∧ aonOn State.reset = true := by
  delta gtcOk; decide +kernel
/-! ### Witnesses: memory and the spokes -/

/-- The way of a line's own set that the tests put it in (the line's wheel and set are open: they hang on the key). -/
def homeWay (s : State) (line : Nat) : Nat := wayLoc (wheelOf s line) (setOf s line) 0

/-- A way that holds a line, whole and good. -/
def goodWay (line : Nat) : Way := { wayReset with line := line, sv := 15, v := true, data := ⟨1, 2, 3, 4⟩ }

/-- The cache holds a line. -/
def withLine (line : Nat) (s : State) : State := { s with cache := { cacheReset with ways := [(wayKey (homeWay s line), goodWay line)] } }

theorem setLocs_head (sl set : Nat) : ∃ l, setLocs sl set = wayLoc sl set 0 :: l := ⟨_, rfl⟩

theorem homeWay_congr {s t : State} (hc : t.config = s.config) (hk : t.med.key = s.med.key) (line : Nat) :
    homeWay t line = homeWay s line := by
  unfold homeWay wheelOf Machine.setOf placeOf wheelOfBank quot
  rw [hc, hk]

theorem locate_home (t : State) (line : Nat) (h : scratchSteps t = 0)
    (hw : t.cache.ways = [(wayKey (homeWay t line), goodWay line)]) : locate t line = some (homeWay t line) := by
  obtain ⟨l, e⟩ := setLocs_head (wheelOf t line) (setOf t line)
  have ha : wayAt t (homeWay t line) = goodWay line := by simp [wayAt, hw, tabGet]
  have hs : locScratch t (homeWay t line) = false := by
    unfold locScratch scratchWay
    rw [h]
    simp
  have hl : wayLive t (homeWay t line) = true := by simp [wayLive, ha, hs, goodWay, wayReset]
  unfold locate findLine
  rw [e, List.find?_cons_of_pos (by
    show (wayLive t (homeWay t line) && (wayAt t (homeWay t line)).line == line) = true
    rw [hl, ha]
    simp [goodWay])]
  rfl

theorem locate_withLine (s : State) (line : Nat) (h : scratchSteps s = 0) :
    locate (withLine line s) line = some (homeWay s line) :=
  locate_home (withLine line s) line h rfl

theorem locSv_withLine (s : State) (line : Nat) : locSv (withLine line s) (homeWay s line) = 15 ∧ locSp (withLine line s) (homeWay s line) = 0 := by
  have h : locOvf (homeWay s line) = false := by
    have : setOf s line < 4096 := (Config.setHash s.med.key line).isLt
    exact decide_eq_false (by simp only [locIx, homeWay, wayLoc]; omega)
  simp [locSv, locSp, h, wayAt, withLine, tabGet, wayReset, goodWay]

/-- SERVICE with decoder 0 over 4 GiB from address 0, the host's credits out, and the ledger's write-through lifted. -/
def served : State :=
  let s := commit 0 ⟨0, 0x100000000, 0, 0, 0, false⟩ (fput F.LDG_STATUS_DEFICIT 0 0 svc)
  { s with led := { s.led with wt := false }, host := { s.host with reqOut := 1024 } }

/-- What a request at `hpa` meets in `served`, with the line in the cache or without. -/
abbrev meets (s : State) (hpa : Nat) : Prop :=
  hostServes s 9 3 ∧ hdmDecode s hpa = some hpa ∧ hpa < Config.capacity s.config ∧ scratchBacked s hpa = false ∧ s.med.keyBad = false

theorem witness_RequestsWithoutContextComplete : gtcOk svc ∧ memLink svc = true ∧ gtcOk sby ∧ memLink sby = false := by
  delta gtcOk; decide +kernel

theorem witness_CachedLoadReturnsTheSector :
    let s := withLine 0x41 served
    meets s 0x4180 ∧ locate s (lineOf 0x4180) = some (homeWay served 0x41)
      ∧ (locSv s (homeWay served 0x41)).getLsbD (sectorOf 0x4180) = true :=
  ⟨by delta meets hostServes gtcOk; decide +kernel, locate_withLine served 0x41 (by decide +kernel),
    by rw [(locSv_withLine served 0x41).1]; decide⟩

/-- The rule's example: decoder 0 of base 0x40_0000_0000, size 0xE00_0000_0000, IW 2 and IG 4. -/
def exampleDecoder : State :=
  { svc with host := { svc.host with decoders := [(0, ⟨0x4000000000, 0xE0000000000, 0, 2, 4, true, false, false⟩)] } }

theorem witness_UnheldAddressesAnswerAndDiscard :
    hostServes svc 0 5 ∧ hdmDecode svc (2 ^ 52 - 64) = none ∧ 0 < fget svc F.HPT_CREDIT_RWD_OUT 0 ∧ fon svc F.HPT_LINK_STATUS_VIRAL_RX 0 = false
      ∧ nextResponse (go (.memrd 0 64 5 .clean) svc) = some { newCtx .load 0 64 0 5 480 with st := .respond, rdata := allOnes, rpoison := true }
      ∧ decoder exampleDecoder 0 = ⟨0x4000000000, 0xE0000000000, 0, 2, 4, true, false, false⟩ ∧ (decoder exampleDecoder 1).skip = 0 := by
  delta hostServes gtcOk; decide +kernel

theorem witness_StoreToCachedSectorIsHeldDirty :
    let s := withLine 0xFFFFFF served
    meets s 0xFFFFFFC0 ∧ fon s F.HPT_LINK_STATUS_VIRAL_RX 0 = false ∧ 0 < fget s F.HPT_CREDIT_RWD_OUT 0 ∧ fget s F.HPT_CREDIT_RWD_OUT 0 < 2 ^ 10
      ∧ programAck s = false ∧ tndEn s = false ∧ tndUp s = false
      ∧ lineDead s (lineOf 0xFFFFFFC0) = false ∧ nsHas (lineOf 0xFFFFFFC0) s.med.restored = false
      ∧ locate s (lineOf 0xFFFFFFC0) = some (homeWay served 0xFFFFFF)
      ∧ (locSv s (homeWay served 0xFFFFFF)).getLsbD (sectorOf 0xFFFFFFC0) = true
      ∧ (locSp s (homeWay served 0xFFFFFF)).getLsbD (sectorOf 0xFFFFFFC0) = false := by
  refine ⟨?_, ?_, ?_, ?_, ?_, ?_, ?_, ?_, ?_, locate_withLine served 0xFFFFFF (by decide +kernel), ?_, ?_⟩
  · delta meets hostServes gtcOk; decide +kernel
  iterate 8 · decide +kernel
  · rw [(locSv_withLine served 0xFFFFFF).1]; decide
  · rw [(locSv_withLine served 0xFFFFFF).2]; decide

theorem witness_ResponsesLeaveByDeadline :
    let s := go (.memrd 3 64 7 .clean) (go (.memrd 2 64 5 .clean) svc)
    gtcOk s ∧ s.mode ≠ .off ∧ s.host.linkUp = true ∧ (nextResponse s).map (fun c => c.tag) = some 2 ∧ (3 : BitVec 16) ≠ 2 := by
  delta gtcOk; decide +kernel

/-- A demand read of tag 5 in bank 17 of wheel 0, its context in a state of its course, and its line. -/
def readMa : Nat := packMa 0 1 1 77 3
def readCtx (st : CtxState) : Ctx := { newCtx .load 5 0x40 0x40 100 480 with ma := readMa, st := st, ready := 300, window := 330 }
def readDesc (ready : Bool) : Desc := { mkDesc (.demandRead 5) .demand 17 0 readMa false false with id := 4, ready := ready }
/-- The line as the media hold it. -/
def readLine : MLine := ⟨⟨1, 2, 3, 4⟩, 0, 0, 2, 0, true⟩
def reading (st : CtxState) (ready : Bool) : State :=
  { svc with sched := { schedReset with ctxs := [readCtx st], queue := [readDesc ready] }
             med := { mediaReset with lines := [(readMa, readLine)] } }

theorem witness_DemandReadCrossesItsBank :
    let r := reading .queued false
    let s := reading .sense true
    let w := reading .window true
    let d := reading .decode2 true
    (gtcOk r ∧ r.mode ≠ .off ∧ demandDesc r 5 = some (readDesc false) ∧ nextDemand r 17 = some (readDesc false) ∧ (readDesc false).bank = 17
        ∧ ctxOf r 5 = some (readCtx .queued))
      ∧ (gtcOk s ∧ s.mode ≠ .off ∧ wheelOk s 0 = true ∧ sensing s (bankNo ⟨0, 1, 1⟩) = some (readCtx .sense)
        ∧ ctxOf s 5 = some (readCtx .sense) ∧ ∀ x ∈ s.sched.ctxs, x.st ≠ .qwait)
      ∧ (gtcOk w ∧ w.mode ≠ .off ∧ ctxOf w 5 = some (readCtx .window))
      ∧ gtcOk d ∧ d.mode ≠ .off ∧ ctxOf d 5 = some (readCtx .decode2) ∧ mlineAt d readMa = some readLine
        ∧ lineReleased d (lineOf 0x40) = false ∧ locate d (lineOf 0x40) = none := by
  delta gtcOk; decide +kernel

theorem witness_BookedWindowsNeverOverlap :
    let ws : List (Nat × Nat) := [(100, 1), (130, 2), (170, 9)]
    (ws.map (·.1)).Pairwise (· < ·) ∧ findWindow 9 ws 110 0 = (200, 2) ∧ findWindow 1 [(100, 1), (170, 9)] 110 0 = (130, 0) := by
  decide +kernel

def bgDesc : Desc := { mkDesc .rewrite .background 0 7 readMa true true with id := 8 }
/-- Bank 0 of wheel 0 in a state, with a wheel's windows booked. -/
def banked (b : BankSt) (ws : List (Nat × Nat)) : State :=
  { svc with sched := { schedReset with queue := [bgDesc], banks := [(0, b)], windows := [(0, ws)], running := [(3, .softDecode 9)] }
             med := { mediaReset with lines := [(readMa, readLine)] } }
def writeDesc (loc : Nat) : Desc := { mkDesc (.writeBack loc) .write 0 0 readMa true true with id := 6 }
/-- A program of bank 0, suspended. -/
def heldProg : Prog := ⟨writeDesc 0, true, 0, false, true⟩

theorem witness_BankGateTimersAndTransfers :
    (gtcOk (banked bankReset []) ∧ (banked bankReset []).mode ≠ .off ∧ wheelOk svc 0 = true ∧ wheelOk svc 15 = true)
      ∧ (let s := banked { bankReset with latch := some (writeDesc 0) } [(130, 4)]
        (bankSt s (bankNo ⟨0, 0, 0⟩)).latch = some (writeDesc 0) ∧ tabGet 0 s.sched.busUntil 0 = 0 ∧ (bankSt s 0).decoding = none
          ∧ (∀ x ∈ windowsOf (advanceTo 100 s) 0, max s.gtc 100 + 30 ≤ x.1) ∧ ¬ ∀ x ∈ windowsOf (advanceTo 101 s) 0, max s.gtc 101 + 30 ≤ x.1)
      ∧ ((banked bankReset []).sched.queue.find? (fun x => x.bank == 0 && x.cls == .background && !x.aged)
          = some bgDesc ∧ bgLeft (banked bankReset []) 0 = true)
      ∧ (let s := banked { bankReset with prog := some heldProg } []
        (bankSt s 0).prog = some heldProg ∧ heldProg.suspended = true ∧ heldProg.longCounted = false)
      ∧ tabGet none ((banked bankReset []).sched.running.map (fun x => (x.1, some x.2))) (16 * 0 + 3) = some (.softDecode 9)
      ∧ (let s := banked { bankReset with decoding := some (writeDesc 0) } []
        (bankSt s 0).decoding = some (writeDesc 0) ∧ (writeDesc 0).kind = .writeBack 0 ∧ lineReleased s (writeDesc 0).line = false
          ∧ mlineAt s (writeDesc 0).ma = some readLine) := by
  delta gtcOk; decide +kernel


/-! ### Witnesses: the media and the life cycle -/

/-- A frame of bank 0, die 0, wheel 0, with a good CRC over a kind. -/
def frame (kind id detail : Nat) : EventFrame :=
  let f : EventFrame := ⟨0, 0, 0, BitVec.ofNat 8 id, BitVec.ofNat 8 detail, 0⟩
  { f with crc := BitVec.ofNat 8 (crc8 (leBytes 3 (frameBits kind f))) }

/-- A program of line 0x41. -/
def progDesc (k : OpKind) : Desc := { mkDesc k .write 0 0x41 (packMa 0 0 0 77 3) true true with data := ⟨1, 2, 3, 4⟩, id := 7 }
/-- Bank 0 of wheel 0 runs a program of a line, its packet kept. -/
def programming (k : OpKind) (suspended : Bool) (s : State) : State :=
  { s with
    sched := { schedReset with banks := [(0, { bankReset with prog := some ⟨progDesc k, suspended, 0, false, true⟩ })] }
    med := { s.med with sent := [(3, (⟨3, 0, 77, 3, 2, 0, false, 3, 0, 0⟩, [9]))] } }

/-- The line 0x41 cached, dirty and just programmed. -/
def writtenBack : State :=
  programming (.writeBack 3) false { withLine 0x41 served with cache := { (withLine 0x41 served).cache with
    dir := [(homeWay served 0x41, { dirReset with line := 0x41, dv := true })] } }

theorem homeWay_writtenBack (line : Nat) : homeWay writtenBack line = homeWay served line :=
  homeWay_congr (by decide +kernel) (by decide +kernel) line

theorem locate_writtenBack : locate writtenBack 0x41 = some (homeWay served 0x41) :=
  (locate_home writtenBack 0x41 (by decide +kernel) (by rw [homeWay_writtenBack]; rfl)).trans (congrArg some (homeWay_writtenBack 0x41))

theorem locOvf_homeWay (s : State) (line : Nat) : locOvf (homeWay s line) = false := by
  have : setOf s line < 4096 := (Config.setHash s.med.key line).isLt
  exact decide_eq_false (by simp only [locIx, homeWay, wayLoc]; omega)

theorem wayAt_writtenBack : wayAt writtenBack (homeWay served 0x41) = goodWay 0x41 := by
  show tabGet wayReset [(wayKey (homeWay served 0x41), _)] (wayKey (homeWay served 0x41)) = _
  simp [tabGet]

theorem witness_ProgramsVerifyOrAreRetried :
    let s := programming (.writeBack 3) false svc
    (gtcOk writtenBack ∧ writtenBack.mode = .service ∧ wheelOk writtenBack 0 = true ∧ frameFor 0 3 (frame 0 3 0) = true
        ∧ (bankSt writtenBack (frameBank (frame 0 3 0))).prog = some ⟨progDesc (.writeBack 3), false, 0, false, true⟩)
      ∧ locate writtenBack (progDesc (.writeBack 3)).line = some (homeWay served 0x41)
      ∧ (dirAt writtenBack (homeWay served 0x41)).dv = true ∧ locPinned writtenBack (homeWay served 0x41) = false
      ∧ sameAsProgrammed writtenBack (homeWay served 0x41) (progDesc (.writeBack 3)) = true
      ∧ (frameFor 1 3 (frame 1 3 0) = true ∧ tabGet 0 s.med.attempts (progDesc (.writeBack 3)).ma < 2
        ∧ gapHolds s (slotOfLine s 0x41).1 (slotOfLine s 0x41).2 = false ∧ retireHolds s (slotOfLine s 0x41).1 (slotOfLine s 0x41).2 = false)
      ∧ (bankSt (programming .rewrite false svc) (frameBank (frame 0 3 0))).prog.map (fun p => p.op.kind) = some .rewrite := by
  refine ⟨?_, locate_writtenBack, ?_, ?_, ?_, ?_, ?_⟩
  · delta gtcOk; decide +kernel
  · show (tabGet dirReset [(homeWay served 0x41, _)] (homeWay served 0x41)).dv = true
    simp [tabGet]
  · simp only [locPinned, locOvf_homeWay, wayAt_writtenBack]; decide
  · simp only [sameAsProgrammed, locSv, locSp, locData, locOvf_homeWay, wayAt_writtenBack]; decide +kernel
  · exact ⟨by decide +kernel, by decide +kernel, rfl, rfl⟩
  · decide +kernel

/-- RECOVER at the dies' checks, with dies 0 and 127 left. -/
def checking : State := { up .recover with life := { (up .recover).life with step := .check, checkLeft := [0, 127] } }

theorem witness_DieFramesReissueAndReport :
    let s := programming (.writeBack 3) false svc
    let p := programming (.writeBack 3) true svc
    (gtcOk s ∧ coreOn s = true ∧ wheelOk s 0 = true ∧ canReissue 0 3 s = true ∧ canReissue 0 1 s = false)
      ∧ (frameFor 2 4 (frame 2 4 0) = true ∧ (bankSt p 0).prog = some ⟨progDesc (.writeBack 3), true, 0, false, true⟩)
      ∧ (∀ k ≤ 9, frameGood k (frame k 3 0) = true) ∧ faultOp 0 1 s = none ∧ slotAtMa s (progDesc (.writeBack 3)).ma = some (0, 77)
      ∧ (gtcOk checking ∧ coreOn checking = true ∧ checking.mode = .recover ∧ checking.life.step = .check
        ∧ frameFor 7 28 (frame 7 28 0) = true ∧ frameFor 7 28 (frame 7 28 1) = true ∧ nsHas 0 checking.life.checkLeft = true
        ∧ nsDel 0 checking.life.checkLeft ≠ [])
      ∧ ∀ k ≤ 9, frameGood k ⟨0, 0, 0, 0, 0, 0xFF⟩ = false := by
  delta gtcOk; decide +kernel

/-- Bank 0 at the TAGCLR of extent 6; a die's clear under way; a bank with two TAGAGEs to finish. -/
def clearing : State :=
  { svc with sched := { schedReset with banks := [(0, { bankReset with tagop := some (mkDesc (.tagClr 6) .background 0 0 0 false false) })] } }
def clearingDie : State := { svc with med := { mediaReset with clrDies := [0, 5] } }
def ageing : State := { svc with med := { mediaReset with agingLeft := [3, 20], aging := some 3 } }

theorem witness_TagOperationsClearAndAge :
    (gtcOk clearing ∧ wheelOk clearing 0 = true ∧ frameGood 5 (frame 5 7 0) = true ∧ (frame 5 7 0).id.toNat = 7
        ∧ (bankSt clearing (frameBank (frame 5 7 0))).tagop = some (mkDesc (.tagClr 6) .background 0 0 0 false false))
      ∧ (frameGood 5 (frame 5 23 0) = true ∧ nsHas 0 clearingDie.med.clrDies = true ∧ nsDel 0 clearingDie.med.clrDies ≠ [])
      ∧ (frameGood 5 (frame 5 11 0) = true ∧ nsHas (0 * 8 + 3) ageing.med.agingLeft = true ∧ nsDel 3 ageing.med.agingLeft ≠ []
        ∧ nsDel 3 [3] = [] ∧ ageing.mode ≠ .recover ∧ ageing.med.aging = some 3)
      ∧ gtcOk svc ∧ inService svc = true ∧ svc.med.aging = none ∧ svc.med.agingLeft = [] := by
  delta gtcOk; decide +kernel

/-- SERVICE with patrol enabled at a slot of wheel 15's region 30: the gap, or another. -/
def patrolling (slot : Nat) : State :=
  fset F.HUB_PATROL_CFG_EN 0 { svc with med := { mediaReset with patrol := { mediaReset.patrol with wheel := 15, region := 30, slot := slot } } }

theorem witness_PeriodicMediaWorkCompletes :
    let s := patrolling 229376
    let busy := { s with sched := { s.sched with busUntil := [(15, 30)] } }
    (gtcOk s ∧ inService s = true ∧ coreOn s = true ∧ wheelOk s 15 = true ∧ draining s = false)
      ∧ (fon s F.HUB_PATROL_CFG_EN 0 = true ∧ (15 : Wheel).val = s.med.patrol.wheel ∧ s.med.patrol.visit = none ∧ patrolSkips s 30 229376 = true)
      ∧ (s.med.dieWait = [] ∧ busFree s 15 6 = true ∧ busFree busy 15 6 = false ∧ newBand (dieBand s 15 0) 37 = dieBand s 15 0
        ∧ newBand (dieBand s 15 0) 38 ≠ dieBand s 15 0)
      ∧ ckptBusy s = false := by
  delta gtcOk; decide +kernel

/-- FREEWHEEL in its drain, and BRAKE with drain and FREEWHEEL at their trip. -/
def drainer : State := { up .freewheel with fw := { fwReset with kind := .full, stage := .draining } }
def tripFull : State := { up .freewheel with gtc := 1000, fw := { fwReset with kind := .full, stage := .t0, t0 := 1000 } }
def tripBrake : State := { up .brake with gtc := 1000, fw := { fwReset with kind := .brakeDrain, stage := .t0, t0 := 1000 } }

theorem witness_InputEventsShowAndTrip :
    gtcOk dirtied ∧ dirtied.mode ≠ .off ∧ sbReady dirtied = true ∧ fget dirtied F.SBG_STATUS_AUTOSTORE 0 = 0 ∧ dirtied.sbg.since ≠ []
      ∧ fget svc F.SEQ_IN_STATUS_PWRFAIL 0 = 0 ∧ svc.mode = .service
      ∧ fget (fput F.SEQ_IN_CFG_PWRFAIL_EN 0 1 svc) F.SEQ_IN_CFG_PWRFAIL_EN 0 = 1
      ∧ fget (fput F.SEQ_IN_CFG_PWRFAIL_EN 0 0 svc) F.SEQ_IN_CFG_PWRFAIL_EN 0 = 0
      ∧ svc.mode ≠ .freewheel ∧ svc.mode ≠ .brake
      ∧ (∀ b ∈ [false, true], fget (fbit F.SEQ_IN_STATUS_VIN_GOOD 0 b svc) F.SEQ_IN_STATUS_VIN_GOOD 0 = b.toNat)
      ∧ gtcOk drainer ∧ drainer.mode ≠ .off ∧ drainer.mode = .freewheel ∧ drainer.fw.stage = .draining := by
  delta gtcOk; decide +kernel

theorem witness_DrainStartsAtTheNextTick :
    (∀ s ∈ [tripFull, tripBrake], gtcOk s ∧ s.fw.stage = .t0 ∧ s.gtc ≤ (s.fw.t0 / 250 + 1) * 250 ∧ (s.fw.t0 / 250 + 1) * 250 < 2 ^ 64)
      ∧ tripFull.mode = .freewheel ∧ tripFull.fw.kind = .full ∧ tripBrake.mode = .brake ∧ tripBrake.fw.kind = .brakeDrain
      ∧ (let s := fset F.SBG_STATUS_AUTOSTORE 0 svc
        gtcOk s ∧ fget s F.SBG_STATUS_AUTOSTORE 0 = 1 ∧ s.sbg.autoset = [] ∧ s.fw.stage = .idle ∧ s.mode ≠ .freewheel) := by
  delta gtcOk; decide +kernel

/-- RAMP with its pins and life at a step of the hub's boot. -/
def ramp (core hub ucode testing : Bool) : State :=
  { up .ramp with
    pins := { (up .ramp).pins with coreDet := core, sramDet := false, mmbRst := true }
    life := { lifeReset with hubUp := hub, ucodeDone := ucode, cacheTesting := testing } }

theorem witness_RampStepsComplete :
    (∀ s ∈ [ramp false false false false, ramp true false false false, ramp true true false true, ramp true true true false],
        gtcOk s ∧ s.mode = .ramp ∧ s.pins.sramDet = false ∧ s.pins.mmbRst = true ∧ wheelOk s 15 = true)
      ∧ (0xF7 : BitVec 8).getLsbD (3 : Fin 8).val = false ∧ (∀ e : Fin 8, e < 3 → (0xF7 : BitVec 8).getLsbD e.val = true)
      ∧ (ramp false false false false).pins.coreDet = false ∧ (ramp true false false false).pins.coreDet = true
      ∧ (ramp true false false false).life.hubUp = false ∧ (ramp true true false true).life.hubUp = true
      ∧ (ramp true true false true).life.ucodeDone = false ∧ (ramp true true false true).life.cacheTesting = true
      := by
  delta gtcOk; decide +kernel

theorem witness_RampIsEnteredAfterDebounce :
    let s := fset F.SEQ_IN_STATUS_VIN_GOOD 0 sby
    gtcOk s ∧ s.mode = .standby ∧ sbReady s = true ∧ inputGood s = true ∧ s.life.hot = false ∧ fget s F.HUB_MODE_CFG_AUTO_RAMP 0 ≠ 0 := by
  delta gtcOk; decide +kernel

theorem witness_RecallLoadsTheSaddlebag :
    gtcOk State.reset ∧ State.reset.mode ≠ .off ∧ sbReady State.reset = false
      ∧ (∀ p ∈ [4033, 4034, 4035, 4036], nsHas p State.reset.sbg.written = false) ∧ gtcOk sby ∧ sby.mode ≠ .off ∧ sbReady sby = true := by
  delta gtcOk; decide +kernel

/-- A counter holding a body under a SEQ, in its first slot. -/
def withCtr (addr body seq : Nat) (s : State) : State := sbPut addr (ctrBytes addr body seq) s
/-- RECOVER at its reads. -/
def recovering : State := { up .recover with life := { (up .recover).life with step := .reading } }

theorem witness_NewCardRecoversEmpty :
    gtcOk recovering ∧ recovering.mode = .recover ∧ recovering.life.step = .reading ∧ recovering.med.ckpts = []
      ∧ shutdownRec recovering = none ∧ ctrValue recovering ctrHubCkpt = none
      ∧ (let s := withCtr ctrHubCkpt 7 4095 recovering
        gtcOk s ∧ s.mode = .recover ∧ s.life.step = .reading ∧ s.med.ckpts = [] ∧ ctrValue s ctrHubCkpt = some 7) := by
  delta gtcOk; decide +kernel

/-- RECOVER after a sealed freewheel that drained line 0x12345 to slot 30 of wheel 3 in area 1. -/
def sealedCkpt : Ckpt := { ckptReset with seq := 77, kind := 2, area := 1, sealed := true }
def drainedLine : DrainSlot := { drainReset with line := 0x12345, sv := 15, v := true, data := ⟨1, 2, 3, 4⟩ }
def drainedKey : Nat := (1 * 16 + 3) * 67584 + 30
def sealedCard : State :=
  withCtr ctrShutdown (shutdownBody 9 2 77 1) 0 { recovering with med := { mediaReset with
    ckpts := [(2, sealedCkpt)], drain := [(drainedKey, drainedLine)]
    index := [((1 * 16 + keyWheel drainedKey) * 4096 + keySlot drainedKey / 28, ⟨77, []⟩)] } }

theorem witness_SealedLineIsBackDirty :
    gtcOk sealedCard ∧ sealedCard.mode = .recover ∧ sealedCard.life.step = .reading ∧ sealedCard.cache = cacheReset
      ∧ sealedCard.med.held = [] ∧ scratchSteps sealedCard = 0 ∧ ctrValue sealedCard ctrHubCkpt = none
      ∧ sealedCard.med.ckpts = [(2, sealedCkpt)] ∧ shutdownRec sealedCard = some (9, 2, 77, 1)
      ∧ sealedCard.med.drain = [(drainedKey, drainedLine)]
      ∧ sealedCard.med.index = [((sealedCkpt.area * 16 + keyWheel drainedKey) * 4096 + keySlot drainedKey / 28, ⟨sealedCkpt.seq, []⟩)]
      ∧ drainedKey / 67584 / 16 = sealedCkpt.area ∧ drainedLine.v = true ∧ drainedLine.sv = 15 ∧ drainedLine.sp = 0
      ∧ drainedLine.scr = false ∧ drainedLine.pin = false ∧ drainedLine.key = sealedCard.med.key := by
  delta gtcOk; decide +kernel

theorem witness_MaintenanceAndFatalFaults :
    (let s := { svc with life := { svc.life with toMaintenance := true } };
      gtcOk s ∧ s.led.test.phase = .idle ∧ s.mode = .service ∧ s.life.toMaintenance = true ∧ coreOn s = true ∧ s.life.hubUp = true)
      ∧ (let s := { mnt with life := { mnt.life with toService := true } };
        gtcOk s ∧ s.led.test.phase = .idle ∧ s.mode = .maintenance ∧ s.life.toService = true ∧ serviceReady s = true) := by
  delta gtcOk; decide +kernel

/-! ### Witnesses: the rails and the measurement converters -/

/-- RAMP at step 2, whose word is `w`; at its begin, or waiting. -/
def stepping (w : Nat) (waiting : Bool) : State :=
  let s := up .ramp |> fput F.SEQ_CTRL_STATE 0 1 |> fput F.SEQ_CTRL_STEP 0 62 |> fput F.SEQ_STEPk_STEP 62 w
  { s with life := lifeReset, seq := { seqReset with waiting := waiting } }
/-- Channel 31 as a step's target, and gang 3, of channels 5 and 6. -/
def tgt31 : Nat := 31 * 16
def gang3 : Nat := 512 + 3 * 16
def ganged (s : State) : State := fput F.SEQ_GANGg_MEMBERS 3 0x60 s

theorem witness_SequenceStepsAct :
    (∀ w ∈ [0, 1 + tgt31, 2 + tgt31, 3 + tgt31, 4, 5 + tgt31, 6 + gang3, 7 + tgt31 + 40 * 1024], ∀ b,
        gtcOk (stepping w b) ∧ (stepping w b).mode = .ramp ∧ fget (stepping w b) F.SEQ_CTRL_STATE 0 = 1
          ∧ fget (stepping w b) F.SEQ_CTRL_STEP 0 = 62 ∧ stepWord (stepping w b) = w ∧ (stepping w b).seq.waiting = b
          ∧ (stepping w b).seq.stepSince ≤ tickOf (stepping w b) ∧ (stepping w b).life.hubUp = false)
      ∧ (let s := stepping (1 + tgt31) false; let t := stepTarget (1 + tgt31)
        t = .chan 31 ∧ tgtOn s t = false ∧ takenOff s t = false ∧ (t, true) ∉ s.seq.edges ∧ t ∉ s.seq.pend)
      ∧ (let s := fset F.SEQ_CHn_STATUS_EN 31 (stepping (2 + tgt31) false); tgtAnyOn s (.chan 31) = true)
      ∧ waitOver (stepping (3 + tgt31) false) (.chan 31) = true
      ∧ waitOver (fset F.SEQ_CHn_CFG_PG_EN 31 (stepping (3 + tgt31) false)) (.chan 31) = false
      ∧ (∀ c ∈ tgtChans (stepping (5 + tgt31) false) (.chan 31), inWindow (stepping (5 + tgt31) false) c = true)
      ∧ (let s := fset F.SEQ_CHn_STATUS_UV_TRIP 31 (stepping (5 + tgt31) false)
        (∃ c ∈ tgtChans s (.chan 31), inWindow s c = false) ∧ respOf s (.chan 31) 5 = 0)
      ∧ stepTarget (6 + gang3) = .gang 3 ∧ gangAgrees (ganged (fset F.SEQ_CHn_CFG_PG_EN 5 (fset F.SEQ_CHn_CFG_PG_EN 6 (stepping (6 + gang3) false)))) (.gang 3) = true
      ∧ gangAgrees (ganged (fset F.SEQ_CHn_STATUS_EN 5 (stepping (6 + gang3) false))) (.gang 3) = false
      ∧ respOf (ganged (stepping (6 + gang3) true)) (.gang 3) 6 = 0
      ∧ stepArg (7 + tgt31 + 40 * 1024) = 40 ∧ 40 / 64 % 2 = 0
      ∧ (let s := fset F.SEQ_CHn_STATUS_EN 31 (fset F.SEQ_CHn_CFG_PG_EN 31 (stepping (3 + tgt31) true))
        tgtGood s (.chan 31) = false ∧ (retryOf s (.chan 31)).phase ≠ 2 ∧ (∀ r ∈ s.seq.railWait, r.2 ≠ .chan 31) ∧ tgtOn s (.chan 31) = true
          ∧ respOf s (.chan 31) 3 = 0) := by
  delta gtcOk; decide +kernel

/-- SERVICE with both comparators of a channel in use, the UV one armed, and its power good in use. -/
def watched (c : Nat) : State :=
  svc |> fset F.SEQ_CHn_WIN_UV_EN c |> fset F.SEQ_CHn_WIN_OV_EN c |> fset F.SEQ_CHn_STATUS_UV_ARMED c |> fset F.SEQ_CHn_CFG_PG_EN c
    |> fset F.SEQ_CHn_STATUS_EN c

theorem witness_RailFaultsTakeTheirResponse :
    (∀ c ∈ [0, 31], ∀ r < 4, let s := watched c |> fput F.SEQ_CHn_CFG_RESP_UV c r |> fput F.SEQ_CHn_CFG_RESP_OV c r
      gtcOk s ∧ s.mode = .service ∧ s.seq.pgDue = [] ∧ gangOf s c = none ∧ fget s F.SEQ_CTRL_STATE 0 = 3 ∧ fon s F.SEQ_CHn_WIN_UV_EN c = true
        ∧ fon s F.SEQ_CHn_STATUS_UV_ARMED c = true ∧ tabGet 0 s.seq.ovMask c ≤ tickOf s ∧ fon s F.SEQ_CHn_WIN_OV_EN c = true
        ∧ fon s F.SEQ_CHn_CFG_PG_EN c = true ∧ fon s F.SEQ_CHn_CFG_PG_POL c = false ∧ chanOn s c = true
        ∧ fget s F.SEQ_CHn_CFG_RESP_UV c = r ∧ fget s F.SEQ_CHn_CFG_RESP_OV c = r)
      ∧ (retryOf (watched 5) (.chan 5)).count < retryMax (watched 5) (.chan 5)
      ∧ fon svc F.SEQ_CHn_WIN_UV_EN 5 = false
      ∧ (let s := { fput F.SEQ_CHn_STATUS_UV_ARMED 5 0 (watched 5) with gtc := 500 }
        tickOf s ≤ 500 / 250 ∧ 499 / 250 < tickOf s ∧ chanOn s 5 = true ∧ s.seq.edges = []
          ∧ fon s F.SEQ_CHn_STATUS_UV_ARMED 5 = false ∧ fon s F.SEQ_CHn_WIN_UV_EN 5 = true ∧ fon s F.SEQ_CHn_STATUS_UV_TRIP 5 = false) := by
  delta gtcOk; decide +kernel

theorem witness_RetriesAndPowerDownsGoOn :
    (let s := setRetry (.chan 5) ⟨2, 1, 7⟩ svc; gtcOk s ∧ s.mode ≠ .off ∧ (retryOf s (.chan 5)).phase = 1)
      ∧ (let d : PowerDown := ⟨.all, [.chan 7], some (.chan 5), 3⟩
        let s := fset F.SEQ_CHn_STATUS_EN 7 { up .freewheel with seq := { seqReset with down := [d] } }
        gtcOk s ∧ s.mode ≠ .off ∧ s.seq.down = [d] ∧ downDue s d = true ∧ d.waiting = some (.chan 5) ∧ d.left = .chan 7 :: [] ∧ tgtDown s (.chan 7) = false)
      ∧ (let d : PowerDown := ⟨.group, [], some (.chan 5), 3⟩
        let s := { svc with seq := { seqReset with down := [d] } };
        gtcOk s ∧ s.mode ≠ .off ∧ s.seq.down = [d] ∧ downDue s d = true ∧ d.waiting = some (.chan 5) ∧ d.left = [] ∧ d.why = .group)
      ∧ (let d : PowerDown := ⟨.all, [], some (.chan 5), 3⟩
        let s := { up .freewheel with seq := { seqReset with down := [d] } };
        gtcOk s ∧ s.mode ≠ .off ∧ s.seq.down = [d] ∧ downDue s d = true ∧ d.waiting = some (.chan 5) ∧ d.left = [] ∧ d.why = .all ∧ s.mode = .freewheel ∧ s.fw.recordDone = false)
      ∧ (let s := fset F.SEQ_INRUSH_PEL_EN 0 (up .ramp)
        gtcOk s ∧ s.mode ≠ .off ∧ s.mode ≠ .standby ∧ fon s F.SEQ_INRUSH_PEL_EN 0 = true ∧ slotAligned s = false ∧ s.seq.unsync = 0) := by
  delta gtcOk; decide +kernel

/-- SERVICE with one margin, of channel 5. -/
def margin0 : Margin := ⟨.settling, 10, 1023, 5, 100, 3, some .primary, 1, none, [], 0⟩
def margined (m : Margin) : State := { svc with seq := { seqReset with margins := [(5, m)] } }

theorem witness_MarginsSettleAndReturn :
    (∀ p ∈ [MarginPhase.settling, .neutralFirst, .neutralHold, .nominalSettle, .pmbus],
        let m := { margin0 with phase := p, attempt := 1 };
        gtcOk (margined m) ∧ (margined m).mode = .service ∧ (margined m).seq.margins = [(5, m)] ∧ gangOf (margined m) 5 = none
          ∧ m.uv < 1024 ∧ m.ov < 1024 ∧ m.phase = p ∧ m.attempt = 1 ∧ portOf (margined m) 5 = (0 : Fin 2).val)
      ∧ { margin0 with todo := [(0x20, 7), (0x121, 0)] }.todo = (0x20, 7) :: (0x121, 0) :: [] ∧ 0x20 ≠ 0x120
      ∧ margin0.action ≠ 4 ∧ (0x20 : BitVec 16).toNat / 32 % 8 ≠ 0 ∧ margin0.via = some .primary := by
  delta gtcOk; decide +kernel

/-- SERVICE with converter `n` on, at slot 2 of the channels 1, 2 and 3. -/
def scheduled (n : Nat) : State :=
  svc |> onConv n (fun _ => { convReset with on := true, effSlots := [1, 2, 3], slot := 2, nextDue := 3, effSp := 6 })
    |> fset F.MCVn_CFG_EN n
    |> onMcv (fun m => { m with eff := tabPut (F.MCV_INk_CFG_FIFO_EN.key ((ainOf n 3).getD 0)) 1 m.eff })

theorem witness_ConversionsRunAndReport :
    (∀ n ∈ [0, 7], let s := scheduled n; let c := conv s n
      gtcOk s ∧ s.mode ≠ .off ∧ c.on = true ∧ c.calibrating = false ∧ diagOn s n = none ∧ c.run = none ∧ c.injPend = false ∧ c.held = false
        ∧ c.late = none ∧ c.slot ≠ 0 ∧ c.effSlots.getD c.slot 16 = 3 ∧ s.gtc ≤ c.nextDue * 250 ∧ c.nextDue * 250 < 2 ^ 64
        ∧ convTicks c.lp ≤ (if c.lp then c.effLp else c.effSp) ∧ injRefused s n = false)
      ∧ (let s := onMcv (fun m => { m with eff := tabPut (F.MCVn_TRIG_SRC.key 7) 3 m.eff }) (onConv 7 (fun c => { c with slot := 0, nextDue := 99 }) (scheduled 7))
        eget s 7 F.MCVn_TRIG_SRC 7 = 3 ∧ convBusy s 7 = false)
      ∧ (let s := onConv 7 (fun c => { c with run := some ⟨3, .scheduled, 3, false⟩ }) (scheduled 7)
        (conv s 7).run = some ⟨3, .scheduled, 3, false⟩ ∧ ainOf 7 3 = some 63 ∧ schedOn s 7 = true ∧ entersFifo s 7 3 = true
          ∧ (tabGet [] s.mcv.fifo 7).length < 32)
      ∧ (conv (onConv 7 (fun c => { c with injPend := true }) (scheduled 7)) 7).injPend = true
      ∧ fget (fset F.LDG_STATUS_CAP_TEST 0 svc) F.LDG_STATUS_CAP_TEST 0 ≠ 0
      ∧ (conv (onConv 0 (fun c => { c with lastInj := some 0 }) svc) 0).lastInj = some 0 ∧ tickOf svc < 0 + 64 := by
  delta gtcOk; decide +kernel

/-- Converter 7 at the last conversion of a calibration that cannot be accepted. -/
def calibrating7 : State :=
  onConv 7 (fun c => { c with run := some ⟨0, .calibration, 0, false⟩, calibrating := true, calCount := 63, calLo := 5, calHi := 9 }) mnt

theorem witness_CalibrationAndDiagnosisAct :
    gtcOk mnt ∧ mnt.mode = .maintenance ∧ (conv mnt 0).calibrating = false ∧ (conv mnt 7).calibrating = false
      ∧ fget mnt F.LDG_STATUS_CAP_TEST 0 = 0 ∧ svc.mode ≠ .maintenance
      ∧ (conv calibrating7 7).run = some ⟨0, .calibration, 0, false⟩ ∧ (conv calibrating7 7).calibrating = true
      ∧ (conv calibrating7 7).calAbort = false ∧ (conv calibrating7 7).calCount = 63 ∧ calAccepts 5 (9 + 0xFFF) = false
      ∧ (∀ k ∈ [0, 31, 32, 95], k < 96 ∧ svc.mode ≠ .freewheel ∧ svc.mode ≠ .brake ∧ diagOf svc ((convOf k).1 / 2) = none ∧ chanOn svc k = false)
      ∧ diagRefused svc 96 = true ∧ diagRefused (fset F.SEQ_CHn_STATUS_EN 31 svc) 31 = true := by
  delta gtcOk; decide +kernel

/-- A capacitance measurement in a phase, with two rejections behind it. -/
def measuring (p : CapPhase) : State := { svc with led := { svc.led with test := { capTestReset with phase := p, run := 2 } } }

theorem witness_CapacitanceMeasurementSteps :
    (let s := fset F.LDG_CFG_CAP_EN 0 svc;
      gtcOk s ∧ s.mode ≠ .off ∧ inService s = true ∧ sbReady s = true ∧ fon s F.LDG_CFG_CAP_EN 0 = true ∧ s.led.test.phase = .idle)
      ∧ (∀ p ∈ [CapPhase.deferred, .discarding, .recording], gtcOk (measuring p) ∧ (measuring p).mode ≠ .off ∧ (measuring p).led.test.phase = p
          ∧ (measuring p).led.test.byCommand = false ∧ 2 ≤ (measuring p).led.test.run) := by
  delta gtcOk; decide +kernel

theorem witness_ReservoirVoltageAndSenseRange :
    ∀ code ∈ [0, 1, 4094, 4095], let s := { svc with gtc := 500, led := { svc.led with newCode := code, newTick := 1 } };
      s.led.newTick < tickOf s ∧ s.led.newCode ≤ 4095 ∧ coreOn s = true ∧ s.led.newCode = code := by
  decide +kernel

theorem witness_CadenceTickInOffAndStandby :
    gtcOk off ∧ off.mode = .off ∧ gtcOk sby ∧ sby.mode = .standby ∧ sby.seq.pend = [] ∧ sby.seq.edges = [] ∧ sby.seq.armNext = []
      ∧ sby.seq.pgDue = [] ∧ sby.seq.margins = [] ∧ sby.pel.slew = 0 ∧ sby.mbx.reload = [] := by
  delta gtcOk; decide +kernel

/-! ### Witnesses: the recorder, the saddlebag, the ring and the tandem -/

/-- STANDBY after recall, the scan over, with the supply good. -/
def quiet : State := sby |> fput F.REC_STATUS_SCANNING 0 0 |> fset F.SBG_STATUS_SUPPLY_OK 0
def record0 : Rcd := ⟨5, 1, 0, 5, 9, 0, 1, 0, 0, [7], 0⟩
/-- The record is at the head of the queue. -/
def queued : State := { quiet with rcd := { rcdReset with queue := [record0] } }
/-- The record being written to slot 128 and permanent slot 0, its copies stored. -/
def written : State :=
  { quiet with
    rcd := { rcdReset with writing := some (record0, 128, 0) }
    sbg := { sbgReset with shadow := putBytes (slotAddr 128 0) (rcdBytes record0) (putBytes (slotAddr 128 1) (rcdBytes record0)
      (putBytes (slotAddr 0 0) (rcdBytes record0) (putBytes (slotAddr 0 1) (rcdBytes record0) []))) } }

theorem witness_RecordsAreCapturedWrittenAndVerified :
    (∀ s ∈ [quiet, queued, written], gtcOk s ∧ s.mode ≠ .off ∧ sbReady s = true ∧ scanning s = false)
      ∧ scanning (fset F.REC_STATUS_SCANNING 0 sby) = true ∧ quiet.rcd.queue.length < 32
      ∧ queued.rcd.queue = record0 :: [] ∧ queued.rcd.ffl = none ∧ queued.rcd.writing = none ∧ queued.rcd.clearing = none
      ∧ recVolatile queued = false ∧ fon queued F.SBG_STATUS_SUPPLY_OK 0 = true ∧ record0.type ≠ 0x10 ∧ record0.type ≠ 2
      ∧ record0.type ≠ 3 ∧ record0.type ≠ 4 ∧ copyUsed queued 0 = true ∧ copyUsed queued 1 = true
      ∧ 128 ≤ fget queued F.REC_WP_SLOT 0 ∧ fget queued F.REC_WP_SLOT 0 < 2176
      ∧ written.rcd.writing = some (record0, 128, 0) ∧ copyUsed written 0 = true ∧ copyUsed written 1 = true
      ∧ copyStored written record0 128 0 0 true = true ∧ copyStored written record0 128 0 1 true = true
      ∧ (let s := { quiet with rcd := { rcdReset with fwd := some (record0, 1, 0) } }; s.rcd.fwd = some (record0, 1, 0) ∧ s.rcd.fwdWait = []) := by
  delta gtcOk; decide +kernel

theorem no_store_pending (p : Nat) : storePending written p = false := rfl

theorem witness_RecordStoresDone (b : Nat) : (copyPages 128 0 b).any (storePending written) = false := by
  rw [List.any_eq_false]
  intro p _
  simp [no_store_pending]

theorem witness_RecordCopiesResolve :
    let a := rcdBytes record0
    let b := rcdBytes { record0 with seq := 10 }
    let c := rcdBytes { record0 with type := 6 }
    let x : List Byte := List.replicate 128 0xFF
    rcdGood a = true ∧ rcdGood b = true ∧ rcdGood c = true ∧ rcdSeq a < rcdSeq b ∧ rcdSeq a = rcdSeq c ∧ a ≠ c
      ∧ rcdGood x = false ∧ rcdGood (List.replicate 128 0) = false ∧ (∀ y ∈ x, y = (0xFF : Byte))
      ∧ copyBytes (sbPut (slotAddr 128 0) a quiet) 128 0 = a ∧ copyBytes (sbPut (slotAddr 128 0) a quiet) 128 1 = x := by
  decide +kernel

/-- SERVICE with page 5 dirty, its store requested, running, and failed once. -/
def supplied : State := dirtied |> fset F.SBG_STATUS_SUPPLY_OK 0 |> fput F.SBG_BANK_CAP_OK 0 0x0001
def requested : State := onSbg (fun g => { g with reqs := [5] }) supplied
def run5 (fails : Nat) : StoreRun := ⟨5, fails, pageCells dirtied.sbg.work 5, false⟩
def storing (fails : Nat) : State := onSbg (fun g => { g with reqs := [], running := [(0, some (run5 fails))] }) supplied

theorem sbForm_of_idle {s : State} (hi : Memory.wf s.sbg.work ∧ Memory.wf s.sbg.shadow ∧ s.sbg.running = []) : sbForm s := by
  obtain ⟨hw, hs, hr⟩ := hi
  refine ⟨hw, hs, fun b r h => ?_⟩
  unfold runningStore at h
  rw [hr] at h
  cases h

theorem witness_SaddlebagStoresPages :
    (∀ s ∈ [dirtied, requested, svc], gtcOk s ∧ s.mode = .service ∧ sbReady s = true)
      ∧ sbForm dirtied ∧ sbForm requested ∧ sbForm svc ∧ pageDirty dirtied 5 = true ∧ nsHas 5 dirtied.sbg.reqs = false
      ∧ runningStore requested 0 = none ∧ nextStore requested 0 = some 5 ∧ storeAllowed requested 0 = true
      ∧ storeAllowed (fput F.SBG_BANK_CAP_OK 0 0 requested) 0 = false
      ∧ fget svc F.SBG_BANK_CAP_OK 0 < 2 ^ 16 ∧ fget svc F.SBG_BANK_CAP_OK 0 / 2 ^ 15 % 2 = 0
      ∧ fon svc F.SBG_STATUS_REFRESH 0 = false ∧ scanning (fset F.REC_STATUS_SCANNING 0 svc) = true
      ∧ (let s := onSbg (fun g => { g with refreshNext := [(15, 253)] }) (fset F.SBG_STATUS_REFRESH 0 svc)
        fon s F.SBG_STATUS_REFRESH 0 = true ∧ runningStore s (pageBank 4093) = none ∧ nextStore s (pageBank 4093) = none
          ∧ refreshPage s (pageBank 4093) = some 4093 ∧ 4093 % 256 < 254 ∧ pageDirty s 4094 = false ∧ nsHas 4093 s.sbg.weak = false) := by
  refine ⟨by delta gtcOk; decide +kernel, sbForm_of_idle ?_, sbForm_of_idle ?_, sbForm_of_idle ?_, ?_⟩ <;> decide +kernel

theorem witness_RunningStores :
    ∀ n < 2, gtcOk (storing n) ∧ (storing n).mode = .service ∧ sbReady (storing n) = true ∧ sbForm (storing n)
      ∧ runningStore (storing n) 0 = some (run5 n) ∧ (run5 n).page < 512 ∧ (storing n).rcd.clearing = none
      ∧ (storing n).sbg.ctrWait = [] ∧ ((run5 n).fails = 0 ∨ (run5 n).fails ≠ 0) := by
  intro n _
  have hi : Memory.wf (run5 n).image ∧ ∀ x ∈ (run5 n).image, x.1 / 256 = 5 := by
    show Memory.wf (pageCells dirtied.sbg.work 5) ∧ ∀ x ∈ pageCells dirtied.sbg.work 5, x.1 / 256 = 5
    decide +kernel
  refine ⟨(by delta gtcOk; decide +kernel : gtcOk supplied), (by decide +kernel : supplied.mode = .service),
    (by decide +kernel : sbReady supplied = true), ⟨(by decide +kernel : Memory.wf supplied.sbg.work),
      (by decide +kernel : Memory.wf supplied.sbg.shadow), fun b r h => ?_⟩, rfl, (by decide : 5 < 512),
    (by decide +kernel : supplied.rcd.clearing = none), (by decide +kernel : supplied.sbg.ctrWait = []), Nat.eq_zero_or_pos n |>.imp id Nat.ne_of_gt⟩
  change (if 0 = b then some (run5 n) else none) = some r at h
  split at h
  · injection h with h; subst h; exact hi
  · cases h

theorem witness_SaddlebagKeepsItsForm :
    sbForm { svc with pending := [.getEndpointId] } ∧ step { svc with pending := [.getEndpointId] }
      = .next { svc with outbox := [.mctpControl 2 [0, 0]] } :=
  ⟨sbForm_of_idle (by decide +kernel), next_of_isNext (by decide +kernel)⟩

theorem witness_ModesChangeOnlyByTheTable :
    step { off with pending := [.vaonPowerOn] } = .next (go .vaonPowerOn off) ∧ (go .vaonPowerOn off).mode ≠ off.mode :=
  ⟨next_of_isNext (by decide +kernel), by decide +kernel⟩

/-- STANDBY on the ring as device 6, and as its master. -/
def ringed : State := sby |> fset F.PEL_CFG_EN 0 |> fput F.PEL_STATUS_DEVID 0 6 |> fput F.PEL_CFG_IN_DELAY 0 40
def mastered : State := fset F.PEL_STATUS_IS_MASTER 0 ringed
/-- A frame of a type from device 3, with the CRC of its bytes. -/
def frame3 (type : Nat) (payload : BitVec 64) : RingFrame := withCrc type ⟨3, 14, 0x23, payload, 700, 0⟩

theorem witness_RingFramesAreForwardedAndTaken :
    gtcOk ringed ∧ ringUsed ringed = true
      ∧ (∀ n ∈ [1, 2, 3, 4, 5, 6], (frame3 n 6).crc = frameCrc n (frame3 n 6)
        ∧ (let f := { frame3 n 6 with crc := (frame3 n 6).crc ^^^ 1 }; f.crc ≠ frameCrc n f)
        ∧ (frame3 n 6).origin.val ≠ devid ringed ∧ (frame3 n 6).hops.val < 15)
      ∧ ringed.mode = .standby ∧ (frame3 1 900).origin.val < devid ringed ∧ isMaster ringed = false ∧ ringed.pel.masters = []
      ∧ ringed.pel.dup = false
      ∧ 0 < nearest16 (((frame3 1 900).payload.toNat * 16 + (frame3 1 900).delay.toNat + fget ringed F.PEL_CFG_IN_DELAY 0 : Nat)
          - (max ringed.gtc (100 % 2 ^ 64) * 16 : Nat))
      ∧ tndEn ringed = false ∧ (frame3 5 6).payload.toNat % 16 = devid ringed ∧ (frame3 5 6).payload.toNat / 256 % 256 = 0
      ∧ (let s := { ringed with rcd := { rcdReset with fwd := some (record0, 1, 0) } }
        let f := frame3 6 (BitVec.ofNat 64 (6 + record0.seq * 16));
        s.rcd.fwd = some (record0, 1, 0) ∧ s.rcd.fwdWait = [] ∧ f.crc = frameCrc 6 f ∧ f.payload.toNat % 16 = devid s
          ∧ f.payload.toNat / 16 % 2 ^ 32 = record0.seq % 2 ^ 32)
      ∧ ringUsed mastered = true ∧ isMaster mastered = true
      ∧ (let f := withCrc 1 { frame3 1 0 with origin := 6 }; f.crc = frameCrc 1 f ∧ f.origin.val = devid mastered) := by
  delta gtcOk; decide +kernel

theorem witness_RingTimersKeepTimeAndPresence :
    (∀ s ∈ [ringed, mastered], gtcOk s ∧ ringUsed s = true ∧ devid s < 16) ∧ isMaster mastered = true ∧ isMaster ringed = false
      ∧ (let s := fput F.PEL_STATUS_MASTER 0 3 { ringed with pel := { pelReset with masters := [(3, ⟨0, 0xE3⟩)], claimOpen := false } }
        gtcOk s ∧ ringUsed s = true ∧ isMaster s = false ∧ s.pel.masters = [(3, ⟨0, 0xE3⟩)] ∧ fget s F.PEL_STATUS_MASTER 0 = 3
          ∧ s.pel.dup = false ∧ s.pel.claimOpen = false)
      ∧ ringed.pel.claimOpen = true ∧ ringed.pel.dup = false ∧ ringed.pel.masters = [] ∧ (∀ p ∈ ringed.pel.present, devid ringed ≤ p.1)
      ∧ fget mastered F.PEL_STATUS_SPLIT 0 ≤ 1 ∧ fget (fset F.PEL_STATUS_SPLIT 0 ringed) F.PEL_STATUS_SPLIT 0 = 1
      ∧ (let s := { ringed with pel := { pelReset with present := [(15, ⟨0, 0, 0⟩)] } }; s.pel.present = [((15 : Devid).val, ⟨0, 0, 0⟩)]) := by
  delta gtcOk; decide +kernel

/-- SERVICE as a tandem member whose link is at a stage, with region 1 mirrored and the partner's region 2 held. -/
def tandem (link : Nat) : State :=
  { served with tnd := { tndReset with own := [1], serial := 77, peerRegions := [2], waiting := [(4, 4194309, 440), (5, 4194310, 441)]
                                       divergent := [515, 516] } }
    |> fset F.TND_CFG_EN 0 |> fput F.TND_STATUS_LINK 0 link |> fput F.TND_CFG_MIRROR_BASE 0 100 |> fput F.TND_CREDIT_GRANTED 0 9
    |> fput F.TND_STATUS_OWN 0 0 |> fput F.TND_STATUS_PEER_COPY 0 1
def partner : ConfigMsg := ⟨77, 1, 0, 0, false, 100, 1, [2]⟩

theorem witness_TandemLinkComesUpAndIsLost :
    (∀ l < 5, gtcOk (tandem l) ∧ coreOn (tandem l) = true ∧ tndEn (tandem l) = true ∧ fget (tandem l) F.TND_STATUS_LINK 0 = l
        ∧ (tandem l).tnd.idle = false)
      ∧ configMatches (tandem 2) { partner with serial := 5 } = false
      ∧ configMatches (tandem 2) { partner with peerCopy := 3 } = true ∧ bothWritable (tandem 2) { partner with peerCopy := 3 } = true
      ∧ configMatches (tandem 2) partner = true ∧ bothWritable (tandem 2) partner = false
      ∧ (∀ w ∈ (tandem 3).tnd.waiting, ∀ v ∈ (tandem 3).tnd.waiting, v.1 = w.1 → v = w) ∧ (tandem 3).tnd.waiting ≠ []
      ∧ (let s := fput F.TND_STATUS_PEER_COPY 0 3 (tandem 3); fget s F.TND_STATUS_LINK 0 = 3 ∧ fget s F.TND_STATUS_PEER_COPY 0 = 3)
      ∧ (let s := fput F.TND_STATUS_OWN 0 2 (onTnd (fun t => { t with roleSent := true }) (tandem 3))
        fget s F.TND_STATUS_LINK 0 = 3 ∧ fget s F.TND_STATUS_OWN 0 = 2 ∧ s.tnd.roleSent = true)
      ∧ (let s := onTnd (fun t => { t with idle := true }) (tandem 4); s.tnd.idle = true ∧ fget s F.TND_STATUS_LINK 0 = 4) := by
  delta gtcOk; decide +kernel

/-- The line that an MWR of slot 0, line 5 stores to. -/
def mwrLine : Nat := storeLineNo (tandem 3) 0 5
def mirrored : State := withLine mwrLine (tandem 3)

theorem witness_MirroredDataMoves :
    gtcOk mirrored ∧ mirrored.mode = .service ∧ coreOn mirrored = true ∧ tndUp mirrored = true ∧ mirrored.tnd.quiesceDue = false
      ∧ slotHeld mirrored 0 = true ∧ fget mirrored F.TND_CREDIT_GRANTED 0 < 2 ^ 10 ∧ lineDead mirrored mwrLine = false
      ∧ nsHas mwrLine mirrored.med.restored = false ∧ mwrLine = storeLineNo mirrored 0 5 ∧ mwrLine = slotFirst mirrored 0 + 5 % 4194304
      ∧ (∃ w ∈ mirrored.tnd.waiting, w.1 = 5) ∧ bmGet mirrored.med.released ((100 + 0) * 512 + 511) = false
      ∧ takesResync mirrored 0 = true ∧ nsHas mwrLine mirrored.tnd.mwrSince = false ∧ 0 < mirrored.tnd.own.length
      ∧ fget mirrored F.TND_STATUS_OWN 0 = 0 ∧ mirrored.tnd.divergeAll = false
      ∧ locate mirrored mwrLine = some (homeWay (tandem 3) mwrLine) :=
  ⟨by delta gtcOk; decide +kernel, by
    iterate 16 refine ⟨by decide +kernel, ?_⟩
    exact ⟨by decide +kernel, locate_withLine (tandem 3) mwrLine (by decide +kernel)⟩⟩

/-- Its clause about RDONE, at a primary that holds no copy. -/
theorem witness_MirroredDataMoves_rdone :
    let s := onTnd (fun t => { t with peerRegions := [] }) (tandem 3)
    gtcOk s ∧ s.mode = .service ∧ coreOn s = true ∧ tndUp s = true ∧ s.tnd.quiesceDue = false ∧ 0 < s.tnd.own.length
      ∧ fget s F.TND_STATUS_OWN 0 = 0 ∧ takesResync s 0 = false ∧ s.tnd.divergeAll = false
      ∧ nsHas (s.tnd.own.getD 0 0 * 512 + 3) s.tnd.divergent = true
      ∧ nsDel (s.tnd.own.getD 0 0 * 512 + 3) s.tnd.divergent ≠ [] := by
  delta gtcOk; decide +kernel

/-! ### Witnesses: the mailbox -/

/-- A command reaches its meaning, as a test. -/
def canReach (s : State) (via : Transport) (op : Nat) (acc : Accept) : Bool :=
  decide (s.gtc < 2 ^ 64) && !transportBusy s via
    && ((decide (endpoint s via = .aon) && aonServes s op)
      || (decide (endpoint s via = .hub) && decide (hubGate s via op = 0) && accepted s acc && (decide (via ≠ .mctp) || overMctp op)))

theorem reaches_of_canReach {s : State} {via : Transport} {op : Nat} {acc : Accept} (h : canReach s via op acc = true) :
    reaches s via op acc := by
  simp only [canReach, Bool.and_eq_true, Bool.or_eq_true, decide_eq_true_eq, Bool.not_eq_true'] at h
  refine ⟨h.1.1, h.1.2, ?_⟩
  rcases h.2 with a | a
  · exact Or.inl a
  · exact Or.inr ⟨a.1.1.1, a.1.1.2, a.1.2, fun e => a.2.resolve_left (fun n => n e)⟩

theorem witness_StandardQueriesAnswer :
    (∀ op ∈ [0x0001, 0x0002, 0x0100, 0x0102, 0x0200, 0x0300, 0x0400, 0x0401, 0x4000, 0x4100, 0x4101, 0x4102, 0x4200, 0x4201, 0x4203, 0x4300,
          0x4303, 0x4305, 0x4500, 0xC0AA], canReach svc .primary op .any = true ∧ canReach svc .secondary op .any = true)
      ∧ (∀ op ∈ [0x0001, 0x0002, 0x0200, 0x0300, 0x0400, 0x0401, 0x4000, 0x4200, 0x4201], canReach svc .mctp op .any = true)
      ∧ svc.mbx.bg = none ∧ svc.mbx.last = none ∧ svc.host.timestamp = 0 ∧ svc.host.poisonList = [] ∧ svc.host.poisonOverflow = none
      ∧ bgOf svc 0x4304 = none
      ∧ (let s := { svc with mbx := { mbxReset with bg := some ⟨0xC004, .primary, [], 0, [], 0, false, []⟩ } }; canReach s .primary 2 .any = true)
      ∧ (let s := { svc with mbx := { mbxReset with last := some (0x4304, ⟨0x12, 0⟩, []) } }; canReach s .primary 2 .any = true ∧ s.mbx.bg = none)
      ∧ (let s := { svc with host := { svc.host with logs := [(3, ⟨[⟨1, 0, 0, 5, 9⟩], false, 0, 1, 0, 0⟩)] } };
        (tabGet logReset s.host.logs (3 : Fin 4).val).overflow = false ∧ (tabGet logReset s.host.logs 3).lost = 0 ∧ canReach s .primary 0x100 .any = true)
      ∧ (let s := { svc with gtc := 2000, host := { svc.host with timestamp := 77, timestampGtc := 1000 } };
        s.host.timestamp ≠ 0 ∧ s.host.timestampGtc ≤ s.gtc ∧ canReach s .primary 0x300 .any = true)
      ∧ (let i := effectsUuid ++ leBytes 4 (effectsLog.length - 4) ++ leBytes 4 4
        i.length = 24 ∧ i.take 16 = effectsUuid ∧ leAt 16 4 i + leAt 20 4 i ≤ effectsLog.length)
      ∧ (let i := leBytes 4 131071 ++ leBytes 4 1; i.length = 8 ∧ leAt 0 4 i + leAt 4 4 i ≤ 131072 ∧ leAt 4 4 i ≤ 65536)
      ∧ (let s := { svc with host := { svc.host with poisonList := [⟨0x12340, 4, 3⟩] } }; let i := leBytes 8 0x12300 ++ leBytes 8 2;
        canReach s .primary 0x4300 .any = true ∧ i.length = 16 ∧ s.host.poisonOverflow = none ∧ leAt 0 8 i / 64 * 64 < 0x12340 + 64 * 4
          ∧ 0x12340 < leAt 0 8 i / 64 * 64 + 64 * leAt 8 8 i)
      ∧ (let i := leBytes 8 64 ++ leBytes 8 1; i.length = 16 ∧ scanRange svc i = true) := by
  decide +kernel

/-- No slot of an empty working copy holds a record. -/
theorem no_record (s : State) (h : s.sbg.work = []) (k : Nat) : slotSeq s k = none := by
  have hb : ∀ b, copyBytes s k b = List.replicate 128 0xFF := by
    intro b
    unfold copyBytes sbBytes sbByte
    rw [h]
    rfl
  unfold slotSeq resolveSlot
  rw [hb 0, hb 1, (by decide +kernel : resolveCopies (List.replicate 128 0xFF) (List.replicate 128 0xFF) = .blank)]

theorem no_records (s : State) (h : s.sbg.work = []) : circRecords s = [] := by
  unfold circRecords
  rw [List.filterMap_eq_nil_iff]
  intro k _
  rw [no_record s h]
  rfl

/-- One record, of SEQ 9, in copy A of slot 128. -/
def recorded : State := sbPut (slotAddr 128 0) (rcdBytes record0) svc

theorem copy_elsewhere (k b : Nat) (hk : 128 ≤ k) (hk' : k < 2176) (h : k ≠ 128 ∨ b ≠ 0) :
    copyBytes recorded k b = List.replicate 128 0xFF := by
  unfold copyBytes sbBytes
  rw [List.eq_replicate_iff]
  refine ⟨by simp, fun x hx => ?_⟩
  obtain ⟨i, hi, rfl⟩ := List.mem_map.mp hx
  have hi := List.mem_range.mp hi
  have hl : (rcdBytes record0).length = 128 := by decide +kernel
  unfold sbByte recorded
  rw [(sbPut_bytes _ _ _).1, tabGet_putBytes, hl, if_neg]
  · rfl
  · unfold slotAddr
    by_cases hb : b = 0
    · subst hb; simp; omega
    · simp [hb]; omega

theorem one_record : circRecords recorded = [(128, 9)] := by
  have h0 : slotSeq recorded 128 = some 9 := by decide +kernel
  have h1 : ∀ k, 128 < k → k < 2176 → slotSeq recorded k = none := by
    intro k h h'
    unfold slotSeq resolveSlot
    rw [copy_elsewhere k 0 (by omega) h' (Or.inl (by omega)), copy_elsewhere k 1 (by omega) h' (Or.inl (by omega)),
      (by decide +kernel : resolveCopies (List.replicate 128 0xFF) (List.replicate 128 0xFF) = .blank)]
  unfold circRecords circSlots
  rw [List.range_succ_eq_map, List.map_cons, List.filterMap_cons]
  simp only [Nat.zero_add, h0, Option.map_some]
  rw [List.filterMap_eq_nil_iff.mpr]
  intro k hk
  obtain ⟨j, hj, rfl⟩ := List.mem_map.mp hk
  obtain ⟨i, hi, rfl⟩ := List.mem_map.mp hj
  have := List.mem_range.mp hi
  rw [h1 _ (by omega) (by omega)]
  rfl

theorem witness_ReadCursor :
    canReach svc .primary 0xC021 .any = true ∧ canReach sby .mctp 0xC021 .any = true ∧ (∀ x ∈ circRecords svc, x.2 < 0) ∧ svc.rcd.vring = []
      ∧ canReach recorded .primary 0xC021 .any = true ∧ circRecords recorded = [(128, 9)] ∧ 128 ∈ writeOrder recorded ∧ recorded.rcd.vring = [] := by
  have none : ∀ x ∈ circRecords svc, x.2 < 0 := by
    rw [no_records svc (by decide +kernel)]
    exact fun x hx => nomatch hx
  have first : 128 ∈ writeOrder recorded := List.mem_map.mpr ⟨0, by simp, by decide +kernel⟩
  refine ⟨?_, ?_, none, ?_, ?_, one_record, first, ?_⟩ <;> decide +kernel

theorem witness_VendorQueriesAnswer :
    (∀ op ∈ [0xC000, 0xC040, 0xC020, 0xC0F0], canReach svc .primary op .any = true ∧ canReach svc .mctp op .any = true ∧ canReach sby .mctp op .any = true)
      ∧ (∀ op ∈ [0xC008, 0xC00F, 0xC010, 0xC022, 0xC028, 0xC030, 0xC050, 0xC061, 0xC062, 0xC070, 0xC072], canReach svc .secondary op .hub = true)
      ∧ coreOn sby = false ∧ 2175 + 1 ≤ 2176 ∧ 2175 < 2176 ∧ 1 ≤ entryLimit .mctp ∧ endpoint svc .primary = .hub
      ∧ (∀ a ∈ [0x100, 0x50000, 0xFFFFFC], a < 2 ^ 24 ∧ a % 4 = 0)
      ∧ (∀ a ∈ [0x100, 0x50000, 0xFFFFFC], (regAt a).all (fun x => x.1.base != F.MCVn_FIFO2_WORD.base) = true)
      ∧ 4 + 4 * [0x100, 0x50000, 0xFFFFFC].length ≤ payloadMax .mctp
      ∧ (let s := { svc with mbx := { mbxReset with last := some (0xC052, ⟨0x12, 0⟩, [1, 2]) } }; canReach s .primary 0xC00F .hub = true)
      ∧ Config.extents svc.config - 8 + 8 ≤ Config.extents svc.config ∧ (Config.extents svc.config - 8) % 8 = 0
      ∧ 8 / 8 ≤ payloadMax .mctp := by
  decide +kernel

/-- MAINTENANCE, where no page is protected. -/
theorem witness_StoredSettingsReach :
    (∀ op ∈ [0xC009, 0xC011, 0xC012, 0xC013, 0xC024, 0xC031, 0xC032, 0xC041, 0xC063, 0xC051], canReach svc .primary op .working = true)
      ∧ (∀ op ∈ [0xC029, 0xC071, 0xC073, 0xC054], canReach mnt .mctp op .maintenance = true)
      ∧ canReach svc .secondary 0x4103 .any = true ∧ canReach svc .primary 0x4204 .any = true ∧ canReach mnt .primary 0x0202 .any = true
      ∧ canReach svc .primary 0xC003 .own = true ∧ endpoint svc .primary = .hub ∧ hubGate svc .primary 0xC003 = 0 ∧ inService svc = true
      ∧ (∀ x ∈ [(816 * 256, 28), (769 * 256, 256), (770 * 256 + 64 * 31, 24), (778 * 256, 44), (803 * 256 + 128, 106), (256 * 959 + 255, 1),
          (791 * 256, 136), (792 * 256 + 8 * 95, 8), (795 * 256 + 32, 4), (808 * 256, 24), (816 * 256 + 28, 4), (848 * 256 + 32, 4),
          (131071, 1), (3280 * 256 + 4, 4), (3280 * 256 + 8, 4), (849 * 256, 12), (850 * 256, 448)], rangeProtected mnt x.1 x.2 = false)
      ∧ (∀ x ∈ [(0, 0), (511, 255), (800, 0), (959, 255)], wordsStand x.1 x.2 [5] (afterPages x.1 x.2 [5] mnt) = true)
      ∧ fget svc F.CCH_MODE_STATE 0 ≠ 1 ∧ mnt.config = .s416 ∧ mnt.mode = .maintenance := by
  decide +kernel

theorem witness_OwnerKeyUnset : ownerKey svc = none := by decide +kernel

/-- Inputs that pass their checks. -/
def scheduleIn (n : Nat) : List Byte :=
  [BitVec.ofNat 8 n, 0, 0, 0] ++ leBytes 4 (10 + 40 * 256 + 6 * 65536) ++ leBytes 4 0 ++ (if n = 1 then leBytes 4 29 else leBytes 4 17)
    ++ (List.range 31).flatMap (fun _ => leBytes 4 0)
def tandemIn : List Byte := leBytes 4 (100 * 2 ^ 6) ++ leBytes 8 0x1234567 ++ [7] ++ List.replicate 447 0

theorem witness_StoredSettingsInputs :
    imagesOk serviceRegs (wordsOf 7 (List.replicate 28 0)) = true ∧ (List.replicate 28 (0 : Byte)).length = 28
      ∧ (let i := [31, 0, 0, 0] ++ List.replicate 24 (0 : Byte); i.length = 28 ∧ imagesOk chanRegs (wordsOf 6 (i.drop 4)) = true)
      ∧ imagesOk globalRegs (wordsOf 11 (List.replicate 44 0)) = true
      ∧ (let i := [7, 0, 0, 0] ++ List.replicate 104 (0xFF : Byte); i.length = 108 ∧ ∀ e ∈ wordsOf 26 (i.drop 4), e = 0xFFFFFFFF ∨ e < 2 ^ 28)
      ∧ (∀ n ∈ [1, 7], (scheduleIn n).length = 140 ∧ (scheduleIn n).take 4 = [BitVec.ofNat 8 n, 0, 0, 0]
          ∧ imagesOk ([F.MCVn_CFG_SPACING, F.MCVn_TRIG_SRC] ++ slotRegs) (wordsOf 34 ((scheduleIn n).drop 4)) = true)
      ∧ mc1Allowed (leAt 4 4 (scheduleIn 1)) (leAt 12 4 (scheduleIn 1)) = true
      ∧ (let i := [95, 0, 0, 0] ++ leBytes 4 0x405 ++ leBytes 4 0x01FFF000
        i.length = 12 ∧ imagesOk [F.MCV_INk_CFG_ORDER, F.MCV_INk_LIM_LO] (wordsOf 2 (i.drop 4)) = true)
      ∧ imagesOk ledgerRegs (wordsOf 6 (List.replicate 24 0)) = true ∧ imageOk F.PEL_CFG_IN_DELAY (leAt 0 4 (leBytes 4 40)) = true
      ∧ tandemIn.length = 460 ∧ imageOk F.TND_CFG_PARTNER (leAt 0 4 tandemIn) = true
      ∧ bitmapTop (tandemIn.drop 12) ≤ fieldOf F.TND_CFG_MIRROR_BASE (leAt 0 4 tandemIn)
      ∧ fieldOf F.TND_CFG_MIRROR_BASE (leAt 0 4 tandemIn) < Config.capacity mnt.config / 2 ^ 30
      ∧ fget mnt F.TND_STATUS_LINK 0 ≠ 2 ∧ fget mnt F.TND_STATUS_LINK 0 ≠ 3
      ∧ (let i := leBytes 4 131071 ++ leBytes 4 0 ++ [5]; 8 < i.length ∧ leAt 0 4 i + (i.length - 8) ≤ 131072) := by
  decide +kernel

/-- A table of END steps, each with every other bit set. -/
def ends : List Byte := (List.replicate 64 [0xF0, 0xFF, 0xFF, 0xFF]).flatten

theorem witness_RailTableAllowed :
    noneBlank (wordsOf 64 ends) = true ∧ railsAllowed (asStored (769 * 256) ends svc) = true := by decide +kernel

theorem witness_RailChannelAllowed :
    railsAllowed (asStored (770 * 256 + 64 * 31) (imagesRw chanRegs (wordsOf 6 (List.replicate 24 0))) svc) = true := by decide +kernel

theorem witness_RailGlobalsAllowed :
    railsAllowed (asStored (778 * 256) (imagesRw globalRegs (wordsOf 11 (List.replicate 44 0))) svc) = true := by decide +kernel

/-- SERVICE with a background operation that runs. -/
def busy (op : Nat) (s : State) : State := { s with mbx := { s.mbx with bg := some ⟨op, .primary, [], 0, [], 0, false, []⟩ } }
/-- A register write of Write Registers. -/
def writeIn (a v m : Nat) : List Byte := [1, 0, 0, 0] ++ leBytes 4 a ++ leBytes 4 v ++ leBytes 4 m

theorem witness_ImmediateCommandsAct :
    (∀ op ∈ [0x0101, 0x0103, 0x0301, 0x4202, 0x0005, 0xC000], canReach svc .primary op .any = true ∧ gtcOk svc)
      ∧ (∀ op ∈ [0x4301, 0x4302, 0xC053, 0xC060], canReach { svc with config := .s208 } .primary op .working = true)
      ∧ canReach mnt .primary 0x0201 .any = true ∧ canReach mnt .primary 0xC0F1 .maintenance = true
      ∧ ([0, 1, 0, 1] : List Byte).length = 4 ∧ (∀ b ∈ ([0, 1, 0, 1] : List Byte), b.toNat % 4 ≤ 1)
      ∧ svc.mbx.bg = none ∧ 0x4400 ∈ [0x0201, 0x0202, 0x4400, 0x4401, 0xC004] ∧ canReach (busy 0x4400 svc) .mctp 5 .any = true
      ∧ (∀ op ∈ [0x4304, 0xC042, 0xC051, 0xC052], canReach (busy op svc) .primary 5 .any = true) ∧ (busy 0x4304 svc).mbx.bg = some ⟨0x4304, .primary, [], 0, [], 0, false, []⟩
      ∧ (onMbx (fun m => { m with abortReq := true }) (busy 0x4304 svc)).mbx.abortReq = true
      ∧ svc.host.injected.length < 64 ∧ nsHas 0x4180 svc.host.injected = false ∧ ({ svc with config := .s208 } : State).config ≠ .s416
      ∧ Config.extents svc.config - 1 < Config.extents svc.config
      ∧ reachesStore svc (2097152 * (Config.extents svc.config - 1), 2097152) = false ∧ tndEn svc = false
      ∧ tabWf wayReset svc.cache.ways = true ∧ tabWf ovfReset svc.cache.ovf = true
      ∧ bmGet svc.med.released 5 = false ∧ bmGet (bmSet svc.med.released 5 true) 5 = true
      ∧ mnt.mode = .maintenance ∧ mnt.life.fwRunning < 2 ∧ mnt.life.fwParts = 0 ∧ mnt.mbx.bg = none := by
  delta gtcOk; decide +kernel

theorem witness_ImmediatePoison :
    let s := withLine 0x41 svc
    0x4180 % 64 = 0 ∧ 0x4180 < Config.capacity s.config ∧ lineDead s 0x41 = false ∧ lineMirrored s 0x41 = false
      ∧ nsHas 0x41 s.med.restored = false ∧ canReach s .primary 0x4301 .working = true ∧ canReach s .primary 0x4302 .working = true
      ∧ lineOf 0x4180 = 0x41 ∧ locate s 0x41 = some (homeWay svc 0x41) :=
  by
  iterate 7 refine ⟨by decide +kernel, ?_⟩
  exact ⟨by decide, locate_withLine svc 0x41 (by decide +kernel)⟩

theorem witness_ImmediateTimersAndRegisters :
    (let s := { busy 0x0202 mnt with life := { mnt.life with activating := true, actSlot := 1 } };
      s.mode = .maintenance ∧ s.life.activating = true ∧ s.mbx.bg = some ⟨0x0202, .primary, [], 0, [], 0, false, []⟩ ∧ s.life.actSlot < 2)
      ∧ (let s := onMbx (fun m => { m with nonces := [(2, ⟨7, 40⟩)], lockAt := 9 }) svc; s.mode ≠ .off ∧ nonceOf s (viaNo .mctp) = some ⟨7, 40⟩ ∧ s.mbx.lockAt ≠ 0)
      ∧ endpoint mnt .primary = .hub ∧ (31 : Nat) < 32 ∧ tabGet (2 ^ 64) mnt.setAt (F.CCHn_ERR_SEC.key 5) ≠ tickOf mnt
      ∧ endpoint svc .primary = .hub ∧ transportBusy svc .primary = false ∧ svc.host.linkUp = true ∧ coreOn svc = true
      ∧ tabGet (2 ^ 64) svc.setAt (F.HPT_ERR_STATUS_RETRAIN.key 0) ≠ tickOf svc ∧ hubRuns svc = true := by
  decide +kernel

theorem witness_BackgroundCommandsStart :
    gtcOk svc ∧ svc.mbx.bg = none ∧ mnt.mbx.bg = none
      ∧ canReach svc .primary 0x4304 .working = true ∧ canReach { svc with config := .s104 } .mctp 0xC052 .working = true
      ∧ canReach mnt .primary 0x4400 .maintenance = true ∧ canReach mnt .primary 0x4401 .maintenance = true
      ∧ canReach mnt .mctp 0xC004 .maintenance = true ∧ canReach svc .mctp 0xC042 .working = true
      ∧ canReach svc .primary 0xC051 .working = true ∧ canReach mnt .primary 0x0202 .any = true
      ∧ (let i := leBytes 8 (Config.capacity svc.config - 64) ++ leBytes 8 1 ++ [0]; i.length = 17 ∧ scanRange svc i = true)
      ∧ 256 * (Config.capacity .s104 / 256 - 1 + 1) ≤ Config.capacity .s104 ∧ DevConfig.s104 ≠ .s416
      ∧ fon svc F.LDG_STATUS_CAP_TEST 0 = false ∧ capBarred svc = false
      ∧ (let s := { svc with cache := { cacheReset with dir := [(3, { dirReset with line := 9, dv := true })] } };
        anyLocked s = false ∧ (∃ x ∈ s.cache.dir, x.2.dv = true ∧ x.2.p = false ∧ x.2.scr = false) ∧ canReach s .primary 0xC051 .working = true)
      ∧ mnt.mode = .maintenance ∧ canReach (busy 0x4400 mnt) .primary 0xC004 .maintenance = true ∧ busy 0x4400 mnt ≠ mnt
      ∧ canReach (busy 0x4400 mnt) .secondary 0xC004 .maintenance = true ∧ canReach mnt .secondary 0xC004 .maintenance = true := by
  delta gtcOk; decide +kernel

/-- An owner key, a nonce on the primary mailbox, and what an authorised command then sends. -/
def testKey : List Byte := List.replicate 32 7
def testNonce : Nonce := ⟨0x123456789, 0⟩
def owned (s : State) : State :=
  onMbx (fun m => { m with nonces := [(0, testNonce), (2, testNonce)] }) (sbPut (4033 * 256) (testKey ++ leBytes 4 (crc32 testKey)) s)
def signed (op : Nat) (args : List Byte) : List Byte := args ++ tokenFor testKey testNonce op args

/-- A command's nonce, key and token are good, as a test. -/
def canPass (s : State) (via : Transport) (op : Nat) (args : List Byte) : Bool :=
  !lockedOut s && decide (liveNonce s via = some testNonce) && decide (ownerKey s = some testKey)
    && decide ((signed op args).length = args.length + 16)

theorem tokenGood_of_canPass {s : State} {via : Transport} {op : Nat} {args : List Byte} (h : canPass s via op args = true) :
    tokenGood s via op (signed op args) := by
  simp only [canPass, Bool.and_eq_true, decide_eq_true_eq, Bool.not_eq_true'] at h
  obtain ⟨⟨⟨h1, h2⟩, h3⟩, h4⟩ := h
  refine ⟨h1, testNonce, testKey, h2, h3, ?_⟩
  rw [h4, Nat.add_sub_cancel]
  unfold signed
  rw [List.take_left', List.drop_left']
  · rfl
  · rfl

theorem witness_Tokens :
    canPass (owned svc) .primary 0xC001 [5, 0, 0, 0] = true ∧ canPass (owned (up .freewheel)) .primary 0xC001 [5, 0, 0, 0] = true
      ∧ canPass (owned svc) .primary 0xC003 (List.replicate 32 9) = true ∧ canPass (owned svc) .primary 0xC023 (leBytes 4 0) = true
      ∧ canPass (owned mnt) .primary 0xC02B [3, 0, 0, 0] = true ∧ canPass (owned svc) .primary 0xC074 [0, 0, 0, 0] = true
      ∧ canPass (owned svc) .primary 0xC074 [1, 0, 0, 0] = true ∧ canPass (owned sby) .mctp 0xC002 [6, 0, 0, 0] = true := by
  decide +kernel

theorem witness_AuthorisedCommandsCheckAndAct :
    (∀ op ∈ [0xC001, 0xC003, 0xC023, 0xC074], canReach (owned svc) .primary op .own = true ∧ hubGate (owned svc) .primary op = 0)
      ∧ gtcOk (owned svc) ∧ (owned svc).mode = .service ∧ endpoint (owned svc) .primary = .hub ∧ inService (owned svc) = true
      ∧ transportBusy (owned (up .freewheel)) .primary = false ∧ endpoint (owned (up .freewheel)) .primary = .hub
      ∧ (let s := fset F.HUB_MODE_HOLD 0 (fput F.HUB_BRAKE_CAUSE 0 6 (owned (up .brake)))
        s.mode = .brake ∧ fon s F.HUB_MODE_HOLD 0 = true ∧ fget s F.HUB_BRAKE_CAUSE 0 = 6 ∧ fget s F.HUB_BRAKE_CAUSE 0 < 256
          ∧ canReach s .mctp 0xC002 .own = true)
      ∧ (let s := { up .brake with life := { lifeReset with toStandby := true } }; s.mode = .brake ∧ s.life.toStandby = true)
      ∧ accepted (owned svc) .hub = true ∧ leAt 0 4 (leBytes 4 0) = (fget (fput F.REC_SEQ_SEQ 0 1 (owned svc)) F.REC_SEQ_SEQ 0 + (2 ^ 32 - 1)) % 2 ^ 32
      ∧ recVolatile (owned svc) = false ∧ (owned svc).rcd.clearing = none
      ∧ canReach (owned mnt) .primary 0xC02B .own = true ∧ ctrUnstored (owned mnt) ctrProtect = false ∧ (owned mnt).sbg.ctrWait = []
      ∧ tndUp svc = false ∧ partnerServes svc = false ∧ fget svc F.TND_STATUS_LINK 0 ≠ 6
      ∧ fget (fput F.TND_STATUS_PEER_COPY 0 2 svc) F.TND_STATUS_PEER_COPY 0 = 2
      ∧ (let s := fput F.TND_STATUS_OWN 0 2 (onTnd (fun t => { t with own := [3] }) svc)
        s.tnd.peerPromoted = false ∧ fget s F.TND_STATUS_OWN 0 = 2 ∧ s.tnd.own ≠ [] ∧ fget s F.TND_STATUS_LINK 0 ≠ 6)
      ∧ lockedOut (onMbx (fun m => { m with lockAt := 9 }) svc) = true ∧ liveNonce svc .primary = none
      ∧ tokenFor testKey testNonce 0xC001 [5, 0, 0, 0] ≠ List.replicate 16 0
      ∧ (onMbx (fun m => { m with fails := 3 }) svc).mbx.fails = 3 ∧ canReach sby .mctp 0xC001 .own = true ∧ endpoint sby .mctp = .aon ∧ sby.mode = .standby
      ∧ mnt.mode = .maintenance ∧ mnt.seq.margins = [] ∧ hubGate mnt .primary 0xC001 = 0 ∧ canReach mnt .primary 0xC001 .own = true := by
  delta gtcOk; decide +kernel

/-- MAINTENANCE with channel 31 on, its margin path stored. -/
def marginable (path : Nat) : State :=
  sbPut (homeChan 31 + 12) (leBytes 4 path) (mnt |> fset F.SEQ_CHn_STATUS_EN 31 |> fput F.SEQ_CHn_MARGIN_PATH 31 path |> fset F.SEQ_CHn_TRIM_DRIVING 31)

theorem witness_RailAndConverterCommandsBegin :
    (∀ p ∈ [1, 2], gtcOk (marginable p) ∧ canReach (marginable p) .primary 0xC014 .maintenance = true ∧ gangOf (marginable p) 31 = none
        ∧ chanOn (marginable p) 31 = true ∧ powerGood (marginable p) 31 = true ∧ marginOf (marginable p) 31 = none
        ∧ fget (loadReg (regOf F.SEQ_CHn_MARGIN_PATH) 31 (marginable p)) F.SEQ_CHn_MARGIN_PATH 31 = p
        ∧ fon (marginable p) F.SEQ_CHn_TRIM_DRIVING 31 = true ∧ fget (marginable p) F.SEQ_CHn_MARGIN_PATH 31 = p)
      ∧ (let s := fput F.SEQ_CHn_CFG_EN_MODE 31 1 mnt
        canReach s .primary 0xC015 .maintenance = true ∧ fget s F.SEQ_CHn_CFG_EN_MODE 31 ≠ 0 ∧ gangOf s 31 = none ∧ chanOn s 31 = false
          ∧ s.seq.pend.contains (.chan 31) = false ∧ tgtCrit s (.chan 31) = false ∧ chanOn (fset F.SEQ_CHn_STATUS_EN 31 s) 31 = true
          ∧ tgtCrit (fset F.SEQ_CHn_CFG_CRIT 31 s) (.chan 31) = true)
      ∧ canReach mnt .primary 0xC033 .maintenance = true ∧ calRefused mnt 7 = false ∧ calRefused mnt 0 = false
      ∧ canReach svc .primary 0xC034 .working = true ∧ diagRefused svc 0 = false ∧ diagRefused svc 95 = false := by
  delta gtcOk; decide +kernel

/-! ### Single steps and small computations, with results from the manual or by hand -/

/-- R47's own example. -/
theorem test_hdm_example : hdmDecode exampleDecoder 0x5234566A40 = some 0x48D159A40 ∧ dpaBase exampleDecoder 1 = 0x38000000000 := by
  decide +kernel

/-- The check values of CRC-32 and CRC-16/CCITT over "123456789". -/
def digits : List Byte := [0x31, 0x32, 0x33, 0x34, 0x35, 0x36, 0x37, 0x38, 0x39]
theorem test_crc32_check : crc32 digits = 0xCBF43926 := by decide +kernel
theorem test_crc16_check : crc16 digits = 0x29B1 := by decide +kernel

/-- RFC 4231, test case 1: the first four bytes of the tag. -/
theorem test_hmac_check :
    (hmacSha256 (List.replicate 20 0x0B) [0x48, 0x69, 0x20, 0x54, 0x68, 0x65, 0x72, 0x65]).take 4 = [0xB0, 0x34, 0x4C, 0x61] := by
  decide +kernel

/-- A wheel the configuration lacks stops the command; one it has does not. -/
theorem test_fused_off_wheel :
    (match exec (.mmbAlert 15) { svc with config := .s208 } with | .fault .fusedOffWheel => true | _ => false) = true
      ∧ fget (go (.mmbAlert 7) { svc with config := .s208 }) F.MMBn_ERR_ALERT 7 = 1 := by decide +kernel

theorem test_queue_pops_front :
    isNext (step { svc with pending := [.getEndpointId, .flr] }) { svc with pending := [.flr], outbox := [.mctpControl 2 [0, 0]] } = true := by
  decide +kernel

theorem test_tick_goes_to_the_boundary : (go .cadenceTick { sby with gtc := 251 }).gtc = 500 ∧ (go .cadenceTick { sby with gtc := 500 }).gtc = 750 := by
  decide +kernel

theorem test_vaon_rises : (go .vaonPowerOn off).mode = .standby ∧ (go .vaonPowerOff svc).mode = .off := by decide +kernel

theorem test_narrow_link_has_no_mem :
    fget (go (.linkTrained 4 5) down) F.HPT_LINK_STATUS_MEM_ENABLED 0 = 0 ∧ fget (go (.linkTrained 8 4) down) F.HPT_LINK_STATUS_MEM_ENABLED 0 = 1 := by
  decide +kernel

theorem test_flr_keeps_the_link : (go .flr svc).host.linkUp = true ∧ (go .hotReset svc).host.linkUp = false := by decide +kernel

theorem test_meminv_answers : (go (.meminv 5 64) svc).outbox = [.cmp 5, .reqCredits 1] := by decide +kernel

theorem test_undecoded_store_is_discarded :
    (go (.responseTransmit 5 9) (go (.memwr 5 64 3 1 false .clean) svc)).outbox = [.cmp 5, .rwdCredits 1]
      ∧ fget (go (.memwr 5 64 3 1 false .clean) svc) F.HPT_DECODE_MISS_COUNT 0 = 1 := by decide +kernel

theorem test_decoder_refuses_odd_size :
    (decoder (commit 0 odd svc) 0).errNotCommitted = true ∧ (decoder locked 0).committed = true := by decide +kernel

theorem test_locked_decoder_ignores : (commit 0 odd locked).host.decoders = locked.host.decoders := by decide +kernel

/-- The bands of R166: edges at 35, 55 and 75 degrees, passed by 3 degrees. -/
theorem test_bands : newBand 0 37 = 0 ∧ newBand 0 38 = 1 ∧ newBand 1 33 = 1 ∧ newBand 1 32 = 0 ∧ newBand 2 78 = 3 := by decide

theorem test_windows_do_not_overlap : findWindow 9 [(100, 1), (130, 2)] 95 0 = (160, 2) := by decide

theorem test_vin_fall_enters_freewheel :
    (go (.vinFallTrip 77) svc).mode = .freewheel ∧ fget (go (.vinFallTrip 77) svc) F.HUB_MODE_PREV 0 = 4 := by decide +kernel

theorem test_hub_watchdog_brakes :
    (go .hubWatchdogExpiry svc).mode = .brake ∧ fget (go .hubWatchdogExpiry svc) F.HUB_BRAKE_CAUSE 0 = 5 := by decide +kernel

theorem test_bad_firmware_brakes : fget (go (.firmwareAuthenticated false false) (ramp true false false false)) F.HUB_BRAKE_CAUSE 0 = 8 := by
  decide +kernel

theorem test_critical_rail_brakes :
    fget (go (.uvTrip 5 9) (watched 5 |> fput F.SEQ_CHn_CFG_RESP_UV 5 3 |> fset F.SEQ_CHn_CFG_CRIT 5)) F.HUB_BRAKE_CAUSE 0 = 1
      ∧ fget (go (.uvTrip 5 9) (watched 5 |> fput F.SEQ_CHn_CFG_RESP_UV 5 3)) F.HUB_BRAKE_CAUSE 0 = 2 := by decide +kernel

theorem test_branch_taken_on_fault :
    fget (go .branchOnFault (fset F.SEQ_CHn_STATUS_FAULT_SEEN 31 (stepping (7 + tgt31 + 40 * 1024) false))) F.SEQ_CTRL_STEP 0 = 40
      ∧ fget (go .branchOnFault (stepping (7 + tgt31 + 40 * 1024) false)) F.SEQ_CTRL_STEP 0 = 63 := by decide +kernel

/-- R118: the code times 1,250 times KDIV_X256, over 4,096 times 256. -/
theorem test_reservoir_voltage : vcapOf (fput F.LDG_CONST3_KDIV_X256 0 256 svc) 4095 = 1249 := by decide +kernel

theorem test_capacitor_shows : fget (go (.capacitorRecharge 15) svc) F.SBG_BANK_CAP_OK 0 = 0x8000 := by decide +kernel

theorem test_store_makes_page_clean :
    pageDirty (go (.saddlebagStoreComplete 0 true) (storing 0)) 5 = false ∧ pageDirty (go (.saddlebagStoreComplete 0 false) (storing 1)) 5 = true := by
  decide +kernel

theorem test_brake_frame_leaves_mode : (go (.brakeFrame (frame3 3 0)) ringed).mode = .standby
      ∧ fget (go (.brakeFrame (frame3 3 0)) ringed) F.PEL_PRESENT_HEARD 0 = 8 := by
  decide +kernel

theorem test_bad_crc_is_counted : fget (go (.faultFrame { frame3 4 0 with crc := 0 }) ringed) F.PEL_CRC_COUNT_COUNT 0 = 1 := by decide +kernel

theorem test_link_loss_acknowledges : (go .tandemLinkDown (tandem 3)).tnd.waiting = [] ∧ fget (go .tandemLinkDown (tandem 3)) F.TND_STATUS_LINK 0 = 4 := by
  decide +kernel

theorem test_credits_add : fget (go (.mcred 12) (tandem 3)) F.TND_CREDIT_HELD 0 = 12 := by decide +kernel

theorem test_registers_pass_through :
    (go (.readRegisters .primary [1, 0, 0, 0, 0, 0, 5, 0]) svc).outbox = [.mbox .primary 0xC0F0 ⟨0, 0⟩ [1, 0, 0, 0, 0, 0, 0, 0], .msix 0] := by
  decide +kernel

theorem test_register_writes_need_maintenance : fget (go (.writeRegisters .primary (writeIn 0x20008 1 1)) svc) F.MBX_PT_REFUSED_COUNT 0 = 1 := by
  decide +kernel

theorem test_maintenance_needs_a_nonce :
    (go (.changeModeMaintenance .secondary (signed 0xC001 [5, 0, 0, 0])) svc).life.toMaintenance = false
      ∧ (go (.changeModeMaintenance .primary (signed 0xC001 [5, 0, 0, 0])) (owned svc)).life.toMaintenance = true := by
  decide +kernel

theorem test_unlisted_opcodes :
    (go (.unsupportedOpcode .secondary 0x4500) svc).outbox = [.mbox .secondary 0x4500 ⟨3, 0⟩ []]
      ∧ (go (.unsupportedOpcode .secondary 0xC0AA) svc).outbox = [.mbox .secondary 0xC0AA ⟨3, 0x0107⟩ [7, 1, 0, 0]] := by decide +kernel
end Sys2Proof.Tests
end

section
/-! PROOF. What becomes of a request that no committed decoder holds (R47): the rules of the operations it passes through, the
state its flow leaves, and the response that leaves later. -/
namespace Sys2Proof.Machine

/-! ### The shared operations of a request -/

@[simp] theorem memLink_advanceTo (t : Nat) (s : State) : memLink (advanceTo t s) = memLink s := rfl
@[simp] theorem ctxFull_advanceTo (t : Nat) (s : State) : ctxFull (advanceTo t s) = ctxFull s := rfl
@[simp] theorem ctxOf_advanceTo (t : Nat) (s : State) (tag : BitVec 16) : ctxOf (advanceTo t s) tag = ctxOf s tag := rfl
@[simp] theorem modeAt_advanceTo (t u : Nat) (s : State) : modeAt t (advanceTo u s) = modeAt t s := rfl
@[simp] theorem ctxFull_stampNow (s : State) : ctxFull (stampNow s) = ctxFull s := rfl
@[simp] theorem nextResponse_stampNow (s : State) : nextResponse (stampNow s) = nextResponse s := rfl
@[simp] theorem modeAt_stampNow (t : Nat) (s : State) : modeAt t (stampNow s) = modeAt t s := rfl

/-- A command whose effect is known settles to it. -/
theorem run_of_effect {k : State → State} {s t : State} (h : k (stampNow s) = t) : run k s = .next (settle s t) := by rw [run_eq, h]

/-- Requests are served only over a link that is up. -/
theorem linkUp_of_hostServes {s : State} {tag : BitVec 16} {t : Nat} (h : hostServes s tag t) : s.host.linkUp = true := by
  obtain ⟨-, hlink, -⟩ := h
  simp only [memLink, Bool.and_eq_true] at hlink
  obtain ⟨⟨⟨-, hup⟩, -⟩, -⟩ := hlink
  exact hup

/-- Whether an HPA is held depends on the decoders alone. -/
theorem hdmDecode_none_of_decoders {s u : State} {hpa : Nat} (hd : hdmDecode s hpa = none) (h : u.host.decoders = s.host.decoders) :
    hdmDecode u hpa = none := by
  have hdec : decoder u = decoder s := funext fun n => by rw [decoder, decoder, h]
  have hin : inDecoder u hpa = inDecoder s hpa := funext fun n => by rw [inDecoder, inDecoder, hdec]
  simpa [hdmDecode, hin] using hd

/-- A RAS report sets its bit and may send; it changes nothing else. -/
theorem rasReport_eq (bit cls : Nat) (s : State) :
    ∃ out, rasReport bit cls s = { onHost (fun h => { h with ras := nsAdd bit h.ras }) s with outbox := s.outbox ++ out } := by
  cases hl : s.host.linkUp
  · exact ⟨[], by simp [rasReport, msix, onHost, hl]⟩
  · exact ⟨[.aer cls, .msix 7], by simp [rasReport, msix, onHost, emit, hl]⟩

/-- Handing a mirror credit back concerns the tandem alone. -/
theorem handBack_eq (s : State) : ∃ f, handBack s = onTnd f s := by
  unfold handBack
  split
  · exact ⟨_, rfl⟩
  · exact ⟨id, rfl⟩

@[simp] theorem addCtx_host (c : Ctx) (s : State) : (addCtx c s).host = s.host := rfl
@[simp] theorem addCtx_cache (c : Ctx) (s : State) : (addCtx c s).cache = s.cache := rfl
@[simp] theorem addCtx_med (c : Ctx) (s : State) : (addCtx c s).med = s.med := rfl
@[simp] theorem addCtx_rcd (c : Ctx) (s : State) : (addCtx c s).rcd = s.rcd := rfl
@[simp] theorem addCtx_outbox (c : Ctx) (s : State) : (addCtx c s).outbox = s.outbox := rfl
@[simp] theorem addCtx_sched (c : Ctx) (s : State) : (addCtx c s).sched = { s.sched with ctxs := s.sched.ctxs ++ [c] } := rfl

/-- A new context raises the high-water mark and no other register field. -/
theorem fget_addCtx (c : Ctx) (s : State) {g : Fld} {i : Nat} (h : g.key i ≠ F.WHL_CTX_HWM.key 0) :
    fget (addCtx c s) g i = fget s g i :=
  fget_fput_other F.WHL_CTX_HWM g 0 i _ _ h

@[simp] theorem countMiss_host (s : State) : (countMiss s).host = s.host := rfl
@[simp] theorem countMiss_cache (s : State) : (countMiss s).cache = s.cache := rfl
@[simp] theorem countMiss_med (s : State) : (countMiss s).med = s.med := rfl
@[simp] theorem countMiss_rcd (s : State) : (countMiss s).rcd = s.rcd := rfl
@[simp] theorem countMiss_outbox (s : State) : (countMiss s).outbox = s.outbox := rfl
@[simp] theorem countMiss_sched (s : State) : (countMiss s).sched = s.sched := rfl

theorem fget_countMiss_flag (s : State) : fget (countMiss s) F.HPT_ERR_STATUS_DECODE_MISS 0 = 1 := by
  simp [countMiss, fset, F.HPT_ERR_STATUS_DECODE_MISS]

/-- The count of misses goes up by one and saturates. -/
theorem fget_countMiss_count (s : State) :
    fget (countMiss s) F.HPT_DECODE_MISS_COUNT 0 = min (fget s F.HPT_DECODE_MISS_COUNT 0 + 1) (fmax F.HPT_DECODE_MISS_COUNT) := by
  have hlt : fmax F.HPT_DECODE_MISS_COUNT < 2 ^ F.HPT_DECODE_MISS_COUNT.width := by decide
  simp only [countMiss, fset, finc, fadd]
  rw [fget_fput_other _ _ _ _ _ _ (by decide), fget_fput_same, Nat.mod_eq_of_lt (lt_of_le_of_lt (min_le_right _ _) hlt)]

/-! ### The response -/

/-- What a context's response sends (R89): MemData and a Req credit for a load, Cmp for a store, with its RwD credit where one
is to return. -/
def responseOut (c : Ctx) : List Emission :=
  if c.op = .load || c.op = .loadData then [.memData c.tag c.rdata c.rpoison, .reqCredits 1]
  else if c.creditBack then [.cmp c.tag, .rwdCredits 1] else [.cmp c.tag]

@[simp] theorem countLatency_outbox (c : Ctx) (s : State) : (countLatency c s).outbox = s.outbox := by
  simp [countLatency]

theorem transmit_outbox (c : Ctx) (s : State) : (transmit c s).outbox = s.outbox ++ responseOut c := by
  unfold transmit responseOut
  split
  · simp [giveReq, freeCtx]
  · cases c.creditBack <;> simp [freeCtx]

theorem ctxOf_freeCtx_same (tag : BitVec 16) (s : State) : ctxOf (freeCtx tag s) tag = none := by
  simp [ctxOf, freeCtx]

theorem ctxOf_transmit (c : Ctx) (s : State) : ctxOf (transmit c s) c.tag = none := by
  unfold transmit
  split <;> exact ctxOf_freeCtx_same c.tag _

/-- The next response leaves over a link that is up: it is sent, and its context is free. -/
theorem responseTransmit_of_next {u : State} {c : Ctx} (t : Nat) (hn : nextResponse u = some c) (hl : u.host.linkUp = true) :
    ∃ v, exec (.responseTransmit c.tag t) u = .next v ∧ v.outbox = u.outbox ++ responseOut c ∧ ctxOf v c.tag = none := by
  have hstep : transmitStep c.tag t (stampNow u) = transmit c (advanceTo t (stampNow u)) := by
    simp [transmitStep, hn, hl]
  refine ⟨_, run_of_effect hstep, ?_, ?_⟩
  · rw [settle_outbox, transmit_outbox, advanceTo_outbox, stampNow_outbox]
  · exact ctxOf_transmit c _

/-! ### What a miss leaves -/

/-- The two registers of R47 tell of the miss, and the poison list, the event logs, the recorder, the cache and the media do not. -/
def missNoted (s u : State) : Prop :=
  fget u F.HPT_ERR_STATUS_DECODE_MISS 0 = 1
    ∧ fget u F.HPT_DECODE_MISS_COUNT 0 = min (fget s F.HPT_DECODE_MISS_COUNT 0 + 1) (fmax F.HPT_DECODE_MISS_COUNT)
    ∧ u.host.poisonList = s.host.poisonList ∧ u.host.poisonOverflow = s.host.poisonOverflow ∧ u.host.logs = s.host.logs
    ∧ u.host.queued = s.host.queued ∧ u.rcd = s.rcd ∧ u.cache = s.cache ∧ u.med = s.med

/-- The request's context joins those of `s`, and its response, when it is the next to leave, is sent and frees it. -/
def answerOwed (c : Ctx) (s u : State) : Prop :=
  u.sched = { s.sched with ctxs := s.sched.ctxs ++ [c] }
    ∧ ∀ t, nextResponse u = some c →
        ∃ v, exec (.responseTransmit c.tag t) u = .next v ∧ v.outbox = u.outbox ++ responseOut c ∧ ctxOf v c.tag = none

/-- What receiving a request keeps: all the host port holds but the host's Req credits and the RAS bits, the contexts and queues,
the recorder, the cache, the media, and the count of misses. -/
def receiptKept (s v : State) : Prop :=
  (∃ req ras, v.host = { s.host with reqOut := req, ras := ras }) ∧ v.sched = s.sched ∧ v.rcd = s.rcd ∧ v.cache = s.cache
    ∧ v.med = s.med ∧ fget v F.HPT_DECODE_MISS_COUNT 0 = fget s F.HPT_DECODE_MISS_COUNT 0

theorem receiptKept_hdmDecode {s v : State} {hpa : Nat} (h : receiptKept s v) (hd : hdmDecode s hpa = none) : hdmDecode v hpa = none := by
  obtain ⟨⟨req, ras, hhost⟩, -⟩ := h
  exact hdmDecode_none_of_decoders hd (by rw [hhost])

/-- A miss counted and answered after the receipt of its request is noted and owes its answer; at most the tandem knows more. -/
theorem miss_of_receiptKept {s v : State} (f : Tandem → Tandem) (c : Ctx) (h : receiptKept s v) (hl : s.host.linkUp = true) :
    missNoted s (settle s (addCtx c (onTnd f (countMiss v)))) ∧ answerOwed c s (settle s (addCtx c (onTnd f (countMiss v)))) := by
  obtain ⟨⟨req, ras, hhost⟩, hsched, hrcd, hcache, hmed, hcount⟩ := h
  refine ⟨⟨?_, ?_, ?_⟩, ?_, ?_⟩
  · rw [fget_settle, fget_addCtx _ _ (by decide), fget_onTnd, fget_countMiss_flag]
  · rw [fget_settle, fget_addCtx _ _ (by decide), fget_onTnd, fget_countMiss_count, hcount]
  · simp [hhost, hrcd, hcache, hmed]
  · simp [hsched]
  · exact fun t hn => responseTransmit_of_next t hn (by simpa [hhost] using hl)

/-! ### Loads -/

/-- A load as it is received: its stamp, and a Req credit of the host used. -/
def loadReceived (t : Nat) (s : State) : State := takeReq (advanceTo t (stampNow s))

theorem receiptKept_loadReceived (t : Nat) (s : State) : receiptKept s (loadReceived t s) := ⟨⟨_, _, rfl⟩, rfl, rfl, rfl, rfl, rfl⟩

/-- The way of an undecoded load: received, counted, answered. -/
theorem loadFlow_of_unheld {s : State} {tag : BitVec 16} {hpa t : Nat} (op : CtxOp) (chk : ArrayCheck) (hs : hostServes s tag t)
    (hd : hdmDecode s hpa = none) :
    loadFlow op tag hpa t chk (stampNow s) = answerLoad op tag hpa t (countMiss (loadReceived t s)) := by
  obtain ⟨-, hlink, hmode, hbrake, hviral, htag, hfull⟩ := hs
  have hmiss : hdmDecode (loadReceived t s) hpa = none := receiptKept_hdmDecode (receiptKept_loadReceived t s) hd
  rw [loadReceived] at hmiss ⊢
  simp [loadFlow, serviceLoad, refusesLoad, refusesIn, hlink, hmode, hbrake, hviral, htag, hfull, hmiss]

/-- An undecoded load is noted, owes an answer of poisoned ones, and sends nothing yet. -/
theorem load_unheld {s : State} {tag : BitVec 16} {hpa t : Nat} (op : CtxOp) (chk : ArrayCheck) (hs : hostServes s tag t)
    (hd : hdmDecode s hpa = none) :
    ∃ u, run (loadFlow op tag hpa t chk) s = .next u ∧ missNoted s u ∧ u.outbox = s.outbox
      ∧ answerOwed { newCtx op tag hpa 0 t 480 with st := .respond, rdata := allOnes, rpoison := true } s u := by
  obtain ⟨hnoted, howed⟩ := miss_of_receiptKept id
    { newCtx op tag hpa 0 t 480 with st := .respond, rdata := allOnes, rpoison := true } (receiptKept_loadReceived t s)
    (linkUp_of_hostServes hs)
  exact ⟨_, run_of_effect (loadFlow_of_unheld op chk hs hd), hnoted, rfl, howed⟩

/-! ### Stores -/

/-- A store as it is received: the poison it carries reported (R51), and its RwD credit taken (R67). -/
def storeReceived (t : Nat) (poison : Bool) (s : State) : State :=
  fput F.HPT_CREDIT_RWD_OUT 0 (fget s F.HPT_CREDIT_RWD_OUT 0 - 1) (when poison poisonReceived (advanceTo t (stampNow s)))

theorem receiptKept_storeReceived (t : Nat) (poison : Bool) (s : State) : receiptKept s (storeReceived t poison s) := by
  cases poison
  · refine ⟨⟨_, _, rfl⟩, rfl, rfl, rfl, rfl, ?_⟩
    rw [storeReceived, fget_fput_other _ _ _ _ _ _ (by decide), when_false, fget_advanceTo, fget_stampNow]
  · obtain ⟨out, he⟩ := rasReport_eq 0 1 (advanceTo t (stampNow s))
    rw [storeReceived, when_true, poisonReceived, he]
    refine ⟨⟨_, _, rfl⟩, rfl, rfl, rfl, rfl, ?_⟩
    rw [fget_fput_other _ _ _ _ _ _ (by decide)]
    rfl

/-- The way of an undecoded store: received, counted, a mirror credit handed back, answered. -/
theorem storeFlow_of_unheld {s : State} {tag : BitVec 16} {hpa t : Nat} (op : CtxOp) (data : Sector) (be : BitVec 64) (poison : Bool)
    (chk : ArrayCheck) (hs : hostServes s tag t) (hd : hdmDecode s hpa = none) (hc : 0 < fget s F.HPT_CREDIT_RWD_OUT 0)
    (hv : fon s F.HPT_LINK_STATUS_VIRAL_RX 0 = false) :
    storeFlow op tag hpa t data be poison chk (stampNow s)
      = answerStore op tag hpa t true (handBack (countMiss (storeReceived t poison s))) := by
  obtain ⟨-, hlink, hmode, -, hviral, htag, hfull⟩ := hs
  have hmiss : hdmDecode (storeReceived t poison s) hpa = none := receiptKept_hdmDecode (receiptKept_storeReceived t poison s) hd
  rw [storeReceived] at hmiss ⊢
  simp [storeFlow, serviceStore, newCtx, refusesStore, refusesIn, hlink, hmode, hviral, htag, hfull, hmiss, hv, hc.ne']

/-- An undecoded store is noted, owes its Cmp with the credit, and sends nothing yet but the report of its poison. -/
theorem store_unheld {s : State} {tag : BitVec 16} {hpa t : Nat} (op : CtxOp) (data : Sector) (be : BitVec 64) (poison : Bool)
    (chk : ArrayCheck) (hs : hostServes s tag t) (hd : hdmDecode s hpa = none) (hc : 0 < fget s F.HPT_CREDIT_RWD_OUT 0)
    (hv : fon s F.HPT_LINK_STATUS_VIRAL_RX 0 = false) :
    ∃ u, run (storeFlow op tag hpa t data be poison chk) s = .next u ∧ missNoted s u ∧ (poison = false → u.outbox = s.outbox)
      ∧ answerOwed { newCtx op tag hpa 0 t 90 with st := .respond, creditBack := true } s u := by
  obtain ⟨f, hback⟩ := handBack_eq (countMiss (storeReceived t poison s))
  have hflow := storeFlow_of_unheld op data be poison chk hs hd hc hv
  rw [hback, answerStore] at hflow
  obtain ⟨hnoted, howed⟩ := miss_of_receiptKept f { newCtx op tag hpa 0 t 90 with st := .respond, creditBack := true }
    (receiptKept_storeReceived t poison s) (linkUp_of_hostServes hs)
  refine ⟨_, run_of_effect hflow, hnoted, fun hp => ?_, howed⟩
  simp [storeReceived, hp]

/-! ### The rule's example -/

/-- A committed decoder 0 that holds an HPA decodes it. -/
theorem hdmDecode_of_first {s : State} {hpa : Nat} (h : inDecoder s hpa 0 = true) : hdmDecode s hpa = some (decodeIn s hpa 0) := by
  simp [hdmDecode, List.range, List.range.loop, h]

/-- Settles O18: an undecoded request is received, counted and answered, and its response follows from its context. -/
theorem unheldAddressesAnswerAndDiscard : Obligations.UnheldAddressesAnswerAndDiscard := by
  unfold Obligations.UnheldAddressesAnswerAndDiscard
  refine ⟨fun s tag hpa t data be poison chk hs _ hd => ⟨?memrd, ?memrddata, fun hc hv => ⟨?memwr, ?memwrptl⟩⟩,
    fun s h0 h1 => ⟨?dpa, ?base⟩⟩
  case memrd => exact load_unheld .load chk hs hd
  case memrddata => exact load_unheld .loadData chk hs hd
  case memwr => exact store_unheld .store data (BitVec.allOnes 64) poison chk hs hd hc hv
  case memwrptl => exact store_unheld .storePtl data be poison chk hs hd hc hv
  case dpa =>
    rw [hdmDecode_of_first (by simp [inDecoder, h0])]
    simp [decodeIn, dpaBase, dpaBelow, ways, h0]
  case base => simp [dpaBase, dpaBelow, ways, h0, h1]

end Sys2Proof.Machine
end

section
/-! PROOF. What the ledger's tick shows of the reservoir (R118, R119): the register fields each part of the tick may write, what
it reads of those it leaves alone, and the voltage and the energy it shows. -/
namespace Sys2Proof.Machine

/-! ### Frames of register fields, built up along a chain of operations -/

/-- Writing a field that may change keeps the rest. -/
theorem regsKept_fput_of_mem {s t : State} {fs : List (Fld × Nat)} {f : Fld} {i : Nat} (h : regsKept s t fs) (hm : (f, i) ∈ fs)
    (v : Nat) : regsKept s (fput f i v t) fs :=
  regsKept_trans h (regsKept_mono (regsKept_fput f i v t) (by simpa using hm))

/-- What leaves the register table alone keeps what is kept already. -/
theorem regsKept_of_regs_eq {s t u : State} {fs : List (Fld × Nat)} (h : regsKept s t fs) (hr : u.regs = t.regs) : regsKept s u fs :=
  regsKept_trans h (regsKept_of_regs hr fs)

/-- A conditional operation keeps what the operation keeps. -/
theorem regsKept_when {s t : State} {fs : List (Fld × Nat)} {f : State → State} (h : regsKept s t fs)
    (hf : ∀ u, regsKept s u fs → regsKept s (f u) fs) (b : Bool) : regsKept s (when b f t) fs := by
  cases b
  · exact h
  · exact hf t h

@[simp] theorem msix_regs (v : Nat) (s : State) : (msix v s).regs = s.regs := by
  unfold msix
  split <;> rfl

@[simp] theorem land_regs (type cls source flags : Nat) (fixed : Option (List Nat)) (s : State) :
    (land type cls source flags fixed s).regs = s.regs := rfl

/-- An event record goes to its log, the recorder and the host, and to no register field. -/
@[simp] theorem postModule_regs (log sub cls source : Nat) (s : State) : (postModule log sub cls source s).regs = s.regs := by
  simp [postModule, postEvent]

/-! ### The AON part: V_cap and C_eff -/

/-- The fields of the AON domain that the ledger's tick writes. -/
def ledgerAonFields : List (Fld × Nat) :=
  [(F.LDG_VCAP_CODE, 0), (F.LDG_VCAP_MV, 0), (F.LDG_CEFF_UF, 0), (F.LDG_CEFF_COUNT, 0)]

theorem regsKept_ledgerAon (s : State) : regsKept s (ledgerAon s) ledgerAonFields := by
  unfold ledgerAon
  apply regsKept_fput_of_mem _ (by simp [ledgerAonFields])
  apply regsKept_fput_of_mem _ (by simp [ledgerAonFields])
  apply regsKept_fput_of_mem _ (by simp [ledgerAonFields])
  apply regsKept_fput_of_mem _ (by simp [ledgerAonFields])
  exact regsKept_of_regs rfl _

/-- The registers from LDG_CAP0 on, the history and the constants among them, lie past those the AON part writes. -/
theorem fget_ledgerAon_of_base (s : State) {g : Fld} (h : 0xA0020 ≤ g.base) (i : Nat) : fget (ledgerAon s) g i = fget s g i := by
  have hbelow : ∀ p ∈ ledgerAonFields, p.1.key p.2 < 0xA0020 * 8 := by decide
  refine regsKept_ledgerAon s g i fun p hp => ?_
  have hp' := hbelow p hp
  have hg : g.base * 8 ≤ g.key i := by unfold Fld.key; omega
  omega

/-- A result that landed in an earlier tick is the code in use from this tick on (R119). -/
theorem ledgerAon_code {s : State} (h : s.led.newTick < tickOf s) : (ledgerAon s).led.code = s.led.newCode := by
  simp [ledgerAon, h]

theorem fget_ledgerAon_vcapCode {s : State} (h : s.led.newTick < tickOf s) :
    fget (ledgerAon s) F.LDG_VCAP_CODE 0 = s.led.newCode % 2 ^ 12 := by
  simp only [ledgerAon, h, if_true]
  rw [fget_fput_other _ _ _ _ _ _ (by decide), fget_fput_other _ _ _ _ _ _ (by decide), fget_fput_other _ _ _ _ _ _ (by decide),
    fget_fput_same]
  rfl

theorem fget_ledgerAon_vcapMv {s : State} (h : s.led.newTick < tickOf s) :
    fget (ledgerAon s) F.LDG_VCAP_MV 0 = min 65535 (vcapOf s s.led.newCode) := by
  have hlt : min 65535 (vcapOf s s.led.newCode) < 2 ^ F.LDG_VCAP_MV.width := lt_of_le_of_lt (min_le_left _ _) (by decide)
  simp only [ledgerAon, h, if_true]
  rw [fget_fput_other _ _ _ _ _ _ (by decide), fget_fput_other _ _ _ _ _ _ (by decide), fget_fput_same, Nat.mod_eq_of_lt hlt]

/-! What E_avail is computed from is not among the fields the AON part writes. -/

@[simp] theorem vcapOf_ledgerAon (s : State) (code : Nat) : vcapOf (ledgerAon s) code = vcapOf s code := by
  rw [vcapOf, fget_ledgerAon_of_base s (by decide), vcapOf]

@[simp] theorem capEntries_ledgerAon (s : State) : capEntries (ledgerAon s) = capEntries s := by
  have hvalid (n : Nat) : fon (ledgerAon s) F.LDG_CAPn_VALID n = fon s F.LDG_CAPn_VALID n := by
    rw [fon, fget_ledgerAon_of_base s (by decide), fon]
  have huf := fget_ledgerAon_of_base s (g := F.LDG_CAPn_UF) (by decide)
  simp only [capEntries, hvalid, huf]

@[simp] theorem eAvailAt_ledgerAon (s : State) (v : Nat) : eAvailAt (ledgerAon s) v = eAvailAt s v := by
  have hvmin := fget_ledgerAon_of_base s (g := F.LDG_CONST1_V_MIN) (by decide)
  have heta := fget_ledgerAon_of_base s (g := F.LDG_CONST1_ETA) (by decide)
  simp only [eAvailAt, cEff, capEntries_ledgerAon, hvmin, heta]

@[simp] theorem eAvail_ledgerAon (s : State) (code : Nat) : eAvail (ledgerAon s) code = eAvail s code := by
  simp [eAvail]

/-- At either end of its range a code says nothing of the reservoir (R118). -/
theorem eAvail_of_outOfRange (s : State) {code : Nat} (h : code = 0 ∨ code = 4095) : eAvail s code = 0 := by
  simp [eAvail, h]

theorem eAvail_of_inRange (s : State) {code : Nat} (h0 : code ≠ 0) (h1 : code ≠ 4095) :
    eAvail s code = eAvailAt s (vcapOf s code) := by
  simp [eAvail, h0, h1]

/-! ### The core part: what follows E_avail -/

/-- E_avail of the code in use as the core part of the tick shows it, with SENSE_RANGE for a code out of range. -/
def showAvail (s : State) : State :=
  s |> when (s.led.code == 0 || s.led.code == 4095) (fset F.LDG_ERR_SENSE_RANGE 0)
    |> fput F.LDG_EAVAIL_UJ 0 (min (eAvail s s.led.code) (2 ^ 32 - 1))

/-- The fields that show E_avail and its range error. -/
def availFields : List (Fld × Nat) := [(F.LDG_ERR_SENSE_RANGE, 0), (F.LDG_EAVAIL_UJ, 0)]

theorem regsKept_showAvail (s : State) : regsKept s (showAvail s) availFields := by
  apply regsKept_fput_of_mem _ (by simp [availFields])
  exact regsKept_when (regsKept_refl _ _) (fun u hu => regsKept_fput_of_mem hu (by simp [availFields]) 1) _

/-- E_avail with the counts the tick shows beside it, as they stand while a freewheel or a brake with drain runs (R133). -/
def showCounts (s : State) : State :=
  showAvail s |> fbit F.LDG_STATUS_CAP_VALID 0 (!(capEntries s).isEmpty) |> fput F.LDG_NDIRTY_LINES 0 (nDirty s)
    |> fput F.LDG_NSCRATCH_SCRATCH 0 (nScratch s) |> fput F.LDG_NSCRATCH_SBGDIRTY 0 (dirtyPages s)

/-- The fields that the core part of the tick writes after E_avail. -/
def ledgerCoreFields : List (Fld × Nat) :=
  [(F.LDG_STATUS_CAP_VALID, 0), (F.LDG_NDIRTY_LINES, 0), (F.LDG_NSCRATCH_SCRATCH, 0), (F.LDG_NSCRATCH_SBGDIRTY, 0),
    (F.LDG_ENEED_UJ, 0), (F.LDG_ERR_DEFICIT, 0), (F.LDG_STATUS_DEFICIT, 0), (F.LDG_ERR_WT_ENTER, 0), (F.LDG_STATUS_COND, 0),
    (F.LDG_ALLOW_LINES, 0), (F.LDG_STATUS_BACKPRESSURE, 0)]

theorem regsKept_showCounts (s : State) : regsKept (showAvail s) (showCounts s) ledgerCoreFields := by
  unfold showCounts
  apply regsKept_fput_of_mem _ (by simp [ledgerCoreFields])
  apply regsKept_fput_of_mem _ (by simp [ledgerCoreFields])
  apply regsKept_fput_of_mem _ (by simp [ledgerCoreFields])
  apply regsKept_fput_of_mem _ (by simp [ledgerCoreFields])
  exact regsKept_refl _ _

theorem regsKept_ledgerCondition {s t : State} (h : regsKept s t ledgerCoreFields) (cover base : Nat) :
    regsKept s (ledgerCondition cover base t) ledgerCoreFields := by
  have hdef (u : State) (hu : regsKept s u ledgerCoreFields) :
      regsKept s (land 0x08 3 srcLedger 0 none (fset F.LDG_ERR_DEFICIT 0 u)) ledgerCoreFields :=
    regsKept_of_regs_eq (regsKept_fput_of_mem hu (by simp [ledgerCoreFields]) 1) (land_regs ..)
  unfold ledgerCondition
  apply regsKept_fput_of_mem _ (by simp [ledgerCoreFields])
  apply regsKept_when _ (fun u hu => regsKept_of_regs_eq hu (postModule_regs ..))
  apply regsKept_when _ (fun u hu => regsKept_of_regs_eq hu (postModule_regs ..))
  apply regsKept_when _ (fun u hu => regsKept_fput_of_mem hu (by simp [ledgerCoreFields]) 1)
  apply regsKept_when _ (fun u hu => regsKept_of_regs_eq hu (onHost_regs ..))
  refine regsKept_of_regs_eq ?_ (onLed_regs ..)
  apply regsKept_fput_of_mem _ (by simp [ledgerCoreFields])
  exact regsKept_when h hdef _

theorem regsKept_backPressure {s t : State} (h : regsKept s t ledgerCoreFields) (allow : Nat) :
    regsKept s (backPressure allow t) ledgerCoreFields := by
  have hmem : (F.LDG_STATUS_BACKPRESSURE, 0) ∈ ledgerCoreFields := by simp [ledgerCoreFields]
  unfold backPressure
  split
  · exact regsKept_fput_of_mem h hmem 1
  · split
    · exact regsKept_fput_of_mem h hmem 0
    · exact h

theorem ledgerTick_of_coreOff {s : State} (h : coreOn s = false) : ledgerTick s = ledgerAon s := by
  have h' : coreOn (ledgerAon s) = false := h
  simp [ledgerTick, h']

theorem regsKept_ledgerTick {s : State} (h : coreOn s = true) :
    regsKept (showAvail (ledgerAon s)) (ledgerTick s) ledgerCoreFields := by
  have h' : coreOn (ledgerAon s) = true := h
  simp only [ledgerTick, h', Bool.not_true, Bool.false_eq_true, if_false]
  split
  · exact regsKept_showCounts _
  · apply regsKept_backPressure
    apply regsKept_fput_of_mem _ (by simp [ledgerCoreFields])
    refine regsKept_of_regs_eq ?_ (onLed_regs ..)
    apply regsKept_ledgerCondition
    apply regsKept_fput_of_mem _ (by simp [ledgerCoreFields])
    exact regsKept_showCounts _

/-! ### What the tick shows -/

/-- The core part leaves the fields of the AON part as they are. -/
theorem fget_ledgerTick_aon (s : State) {g : Fld} {i : Nat}
    (hshow : ∀ p ∈ availFields, g.key i ≠ p.1.key p.2) (hcore : ∀ p ∈ ledgerCoreFields, g.key i ≠ p.1.key p.2) :
    fget (ledgerTick s) g i = fget (ledgerAon s) g i := by
  cases h : coreOn s
  · rw [ledgerTick_of_coreOff h]
  · rw [regsKept_ledgerTick h g i hcore, regsKept_showAvail _ g i hshow]

theorem fget_ledgerTick_eAvail {s : State} (hn : s.led.newTick < tickOf s) (h : coreOn s = true) :
    fget (ledgerTick s) F.LDG_EAVAIL_UJ 0 = min (eAvail s s.led.newCode) (2 ^ 32 - 1) := by
  have hlt : min (eAvail s s.led.newCode) (2 ^ 32 - 1) < 2 ^ F.LDG_EAVAIL_UJ.width := lt_of_le_of_lt (min_le_right _ _) (by decide)
  rw [regsKept_ledgerTick h _ _ (by decide), showAvail, ledgerAon_code hn, eAvail_ledgerAon, fget_fput_same, Nat.mod_eq_of_lt hlt]

theorem fget_ledgerTick_senseRange {s : State} (hn : s.led.newTick < tickOf s) (h : coreOn s = true)
    (hr : s.led.newCode = 0 ∨ s.led.newCode = 4095) : fget (ledgerTick s) F.LDG_ERR_SENSE_RANGE 0 = 1 := by
  have hout : (s.led.newCode == 0 || s.led.newCode == 4095) = true := by simpa using hr
  rw [regsKept_ledgerTick h _ _ (by decide), showAvail, ledgerAon_code hn, fget_fput_other _ _ _ _ _ _ (by decide), hout, when_true,
    fset, fget_fput_same]
  rfl

/-- Settles O43: the tick shows the latest landed code with its voltage, and E_avail from it, or 0 for a code out of range. -/
theorem reservoirVoltageAndSenseRange : Obligations.ReservoirVoltageAndSenseRange := by
  unfold Obligations.ReservoirVoltageAndSenseRange
  intro s hn hc
  refine ⟨rfl, ?code, ?mv, fun h h0 h1 => ?inRange, fun h hr => ⟨fget_ledgerTick_senseRange hn h hr, ?outOfRange⟩⟩
  case code => rw [fget_ledgerTick_aon s (by decide) (by decide), fget_ledgerAon_vcapCode hn, Nat.mod_eq_of_lt (by omega)]
  case mv => rw [fget_ledgerTick_aon s (by decide) (by decide), fget_ledgerAon_vcapMv hn]; rfl
  case inRange => rw [fget_ledgerTick_eAvail hn h, eAvail_of_inRange s h0 h1]; rfl
  case outOfRange => rw [fget_ledgerTick_eAvail hn h, eAvail_of_outOfRange s hr, Nat.zero_min]

end Sys2Proof.Machine
end

section
/-! PROOF. The copy rules of the event recorder (R276): one lemma per row of the table, the copy that a resolved slot returns, and
what scrub (R278) makes of it. -/
namespace Sys2Proof.Machine

/-! ### The rows of the table -/

theorem rcdBlank_iff (bs : List Byte) : rcdBlank bs = true ↔ ∀ x ∈ bs, x = (0xFF : Byte) := by
  simp [rcdBlank, blankByte]

theorem resolveCopies_of_sameSeq {a b : List Byte} (ha : rcdGood a = true) (hb : rcdGood b = true) (h : rcdSeq a = rcdSeq b) :
    resolveCopies a b = .record a false (a != b) := by
  simp only [resolveCopies, ha, hb, h, if_true]

theorem resolveCopies_of_seq_lt {a b : List Byte} (ha : rcdGood a = true) (hb : rcdGood b = true) (h : rcdSeq a < rcdSeq b) :
    resolveCopies a b = .record b true false := by
  simp only [resolveCopies, ha, hb, h, h.ne, if_true, if_false]

theorem resolveCopies_of_seq_gt {a b : List Byte} (ha : rcdGood a = true) (hb : rcdGood b = true) (h : rcdSeq b < rcdSeq a) :
    resolveCopies a b = .record a false false := by
  simp only [resolveCopies, ha, hb, h.ne', h.not_gt, if_true, if_false]

theorem resolveCopies_of_goodA {a b : List Byte} (ha : rcdGood a = true) (hb : rcdGood b = false) :
    resolveCopies a b = .record a false false := by
  simp [resolveCopies, ha, hb]

theorem resolveCopies_of_goodB {a b : List Byte} (ha : rcdGood a = false) (hb : rcdGood b = true) :
    resolveCopies a b = .record b true false := by
  simp [resolveCopies, ha, hb]

theorem resolveCopies_of_noGood {a b : List Byte} (ha : rcdGood a = false) (hb : rcdGood b = false) :
    resolveCopies a b = if (∀ x ∈ a, x = (0xFF : Byte)) ∧ (∀ x ∈ b, x = (0xFF : Byte)) then .blank else .damaged := by
  simp [resolveCopies, ha, hb, rcdBlank_iff]

/-- A record returned is the copy it says it is from. -/
theorem bytes_of_resolveCopies {a b bs : List Byte} {fromB d : Bool} (h : resolveCopies a b = .record bs fromB d) :
    bs = if fromB then b else a := by
  unfold resolveCopies at h
  split_ifs at h <;> cases h <;> rfl

/-! ### Scrub -/

section
variable {s : State} {slot : Nat}

/-- Scrub repairs the other copy, B of a record from A and A of one from B, unless it holds the record already. -/
theorem scrubSlot_of_record {bs : List Byte} {fromB d : Bool} (h : resolveSlot s slot = .record bs fromB d) :
    scrubSlot slot s = if copyBytes s slot (!fromB).toNat = bs then s else repairCopy slot (!fromB).toNat bs s := by
  unfold resolveSlot at h
  cases fromB <;> simp [scrubSlot, h]

theorem scrubSlot_of_blank (h : resolveSlot s slot = .blank) : scrubSlot slot s = s := by
  unfold resolveSlot at h
  simp [scrubSlot, h]

theorem scrubSlot_of_damaged (h : resolveSlot s slot = .damaged) : scrubSlot slot s = s := by
  unfold resolveSlot at h
  simp [scrubSlot, h]

/-- With two equal copies the one returned never differs from the other one. -/
theorem scrubSlot_of_copies_eq (h : copyBytes s slot 0 = copyBytes s slot 1) : scrubSlot slot s = s := by
  cases hr : resolveSlot s slot with
  | blank => exact scrubSlot_of_blank hr
  | damaged => exact scrubSlot_of_damaged hr
  | record bs fromB d =>
    have hbs : copyBytes s slot (!fromB).toNat = bs := by
      rw [bytes_of_resolveCopies hr]
      cases fromB
      · exact h.symm
      · exact h
    rw [scrubSlot_of_record hr, if_pos hbs]

end

/-- Settles O46: the rows of R276's table, and the repair that scrub makes of each. -/
theorem recordCopiesResolve : Obligations.RecordCopiesResolve := by
  unfold Obligations.RecordCopiesResolve
  intro a b
  refine ⟨fun ha hb h => ?identical, fun ha hb h hne => ⟨?differing, rfl⟩, resolveCopies_of_seq_lt, resolveCopies_of_seq_gt,
    resolveCopies_of_goodA, resolveCopies_of_goodB, resolveCopies_of_noGood, ?scrub⟩
  case identical => rw [resolveCopies_of_sameSeq ha hb (congrArg rcdSeq h), bne_eq_false_iff_eq.mpr h]
  case differing => rw [resolveCopies_of_sameSeq ha hb h, bne_iff_ne.mpr hne]
  case scrub =>
    rintro s slot rfl rfl
    refine ⟨fun d h hne => ?fromA, fun h hne => ?fromB, ?unchanged⟩
    case fromA => exact (scrubSlot_of_record h).trans (if_neg hne.symm)
    case fromB => exact (scrubSlot_of_record h).trans (if_neg hne)
    case unchanged =>
      rintro (h | h | h)
      · exact scrubSlot_of_blank h
      · exact scrubSlot_of_damaged h
      · exact scrubSlot_of_copies_eq h

end Sys2Proof.Machine
end

section
/-! PROOF. The shape of every command (O3, O4): an effect on the state that is settled, on a wheel where the command names one. -/
namespace Sys2Proof.Machine

/-- Every command is one effect, run on the state; one that names a wheel acts only where the configuration has it. -/
theorem exec_isEffect (c : Instr) (s : State) : ∃ k : State → State, exec c s =
    match namedWheel c with
    | none => run k s
    | some w => onWheel w k s := by
  cases c <;> exact ⟨_, rfl⟩

/-- Settles O3: an effect that is run answers a next state, and only an effect on a wheel can stop. -/
theorem commandsStopOnlyAtFusedOffWheels : Obligations.CommandsStopOnlyAtFusedOffWheels := by
  unfold Obligations.CommandsStopOnlyAtFusedOffWheels
  intro c s
  obtain ⟨k, hk⟩ := exec_isEffect c s
  rw [hk]
  cases namedWheel c with
  | none => exact ⟨_, run_eq k s⟩
  | some w =>
    by_cases hw : w.val < Config.wheels s.config
    · simp [hw, onWheel, run]
    · simp [hw, onWheel]

/-- A next state is the settled effect of the command. -/
theorem eq_settle_of_effect {c : Instr} {s t : State} {k : State → State}
    (hk : exec c s = match namedWheel c with
      | none => run k s
      | some w => onWheel w k s)
    (h : exec c s = .next t) : t = settle s (k (stampNow s)) := by
  rw [hk] at h
  cases hw : namedWheel c <;> simp only [hw, onWheel, run] at h
  case none => exact (Host.Outcome.next.inj h).symm
  case some w =>
    split at h
    · exact (Host.Outcome.next.inj h).symm
    · cases h

/-- What a command that only changes other parts leaves as it is, the GTC among it. -/
def fixedPart (s : State) : DevConfig × BitVec 64 × Nat × List Instr × Nat × Nat :=
  (s.config, s.serial, s.stepping, s.pending, s.stamp, s.gtc)

/-- An effect that is a state of the same fixed part, but for the stamp, leads to that state. -/
theorem run_of_effect_eq {k : State → State} {s t : State} (hg : gtcOk s) (h : k (stampNow s) = stampNow t)
    (hf : fixedPart t = fixedPart s := by rfl) : run k s = .next t := by
  simp only [fixedPart, Prod.mk.injEq] at hf
  obtain ⟨h1, h2, h3, h4, h5, h6⟩ := hf
  have hm : t.gtc % 2 ^ 64 = t.gtc := by rw [h6]; exact Nat.mod_eq_of_lt hg
  rw [run_of_effect h]
  simp only [settle, stampNow, hm, ← h1, ← h2, ← h3, ← h4, ← h5]

theorem gtcOk_settle (s u : State) : gtcOk (settle s u) := Nat.mod_lt _ (by decide)

/-- Settles O4: settling keeps what no command changes and cuts the GTC to 64 bits; the queue loses its front. -/
theorem stepKeepsWhatManufactureFixed : Obligations.StepKeepsWhatManufactureFixed := by
  unfold Obligations.StepKeepsWhatManufactureFixed
  intro s t hg h
  unfold step at h
  split at h
  next hp =>
    obtain rfl := Host.Outcome.next.inj h
    exact ⟨rfl, rfl, rfl, hg, by simp [hp]⟩
  next c rest hp =>
    obtain ⟨k, hk⟩ := exec_isEffect c { s with pending := rest }
    obtain rfl := eq_settle_of_effect hk h
    exact ⟨rfl, rfl, rfl, gtcOk_settle _ _, by simp [hp, settle]⟩

end Sys2Proof.Machine
end

section
/-! PROOF. Booked windows (R108, O22) and the commits of HDM decoders (R45, R60, O11). -/
namespace Sys2Proof.Machine

/-! ### The earliest free window -/

/-- Does the 30 ns window from `y` overlap the booked one from `x`? -/
def windowsMeet (x y : Nat) : Prop := x < y + 30 ∧ y < x + 30

theorem findWindow_of_meet (n : Nat) {w : Nat × Nat} {start : Nat} (h : windowsMeet w.1 start) (ws : List (Nat × Nat)) (c : Nat) :
    findWindow n (w :: ws) start c = findWindow n ws (w.1 + 30) (if w.2 = n then c else c + 1) := by
  obtain ⟨h1, h2⟩ := h
  simp [findWindow, h1, h2]

theorem findWindow_of_not_meet (n : Nat) {w : Nat × Nat} {start : Nat} (h : ¬ windowsMeet w.1 start) (ws : List (Nat × Nat)) (c : Nat) :
    findWindow n (w :: ws) start c = findWindow n ws start c := by
  have h' : ¬(start < w.1 + 30 ∧ w.1 < start + 30) := fun k => h ⟨k.2, k.1⟩
  simp only [findWindow, Bool.and_eq_true, decide_eq_true_eq, h', if_false]

/-- A start whose window ends before all booked ones is free. -/
theorem findWindow_of_before (n start c : Nat) (ws : List (Nat × Nat)) (h : ∀ x ∈ ws, start + 30 ≤ x.1) :
    findWindow n ws start c = (start, c) := by
  induction ws with
  | nil => rfl
  | cons w ws ih =>
    have hw : ¬ windowsMeet w.1 start := fun k => absurd k.1 (not_lt.mpr (h w (by simp)))
    rw [findWindow_of_not_meet n hw, ih fun x hx => h x (by simp [hx])]

theorem start_le_findWindow (n : Nat) (ws : List (Nat × Nat)) (start c : Nat) : start ≤ (findWindow n ws start c).1 := by
  induction ws generalizing start c with
  | nil => exact le_refl _
  | cons w ws ih =>
    by_cases h : windowsMeet w.1 start
    · rw [findWindow_of_meet n h]
      exact le_trans (le_of_lt h.2) (ih ..)
    · rw [findWindow_of_not_meet n h]
      exact ih ..

/-- Rising windows: the one found meets none of them. A window passed over lies before the start, and so before the window found, or
after it, and then so do all that follow. -/
theorem findWindow_free (n : Nat) (ws : List (Nat × Nat)) (start c : Nat) (hs : (ws.map (·.1)).Pairwise (· < ·)) :
    ∀ x ∈ ws, x.1 + 30 ≤ (findWindow n ws start c).1 ∨ (findWindow n ws start c).1 + 30 ≤ x.1 := by
  induction ws generalizing start c with
  | nil => simp
  | cons w ws ih =>
    obtain ⟨hw, hs'⟩ := List.pairwise_cons.mp hs
    have hrise (x) (hx : x ∈ ws) : w.1 < x.1 := hw _ (List.mem_map_of_mem hx)
    intro x hx
    by_cases h : windowsMeet w.1 start
    · rw [findWindow_of_meet n h]
      rcases List.mem_cons.mp hx with rfl | hx
      · exact .inl (start_le_findWindow ..)
      · exact ih _ _ hs' x hx
    · rw [findWindow_of_not_meet n h]
      rcases List.mem_cons.mp hx with rfl | hx
      · by_cases hlt : x.1 + 30 ≤ start
        · exact .inl (le_trans hlt (start_le_findWindow ..))
        · have hafter : start + 30 ≤ x.1 := not_lt.mp fun k => h ⟨k, not_le.mp hlt⟩
          rw [findWindow_of_before n start c ws fun y hy => le_trans hafter (le_of_lt (hrise y hy))]
          exact .inr hafter
      · exact ih _ _ hs' x hx

/-- Every instant between the start and the window found meets a booked window: the last one that displaced it. -/
theorem findWindow_earliest (n : Nat) (ws : List (Nat × Nat)) (start c y : Nat) (hy : start ≤ y) (hlt : y < (findWindow n ws start c).1) :
    ∃ x ∈ ws, windowsMeet x.1 y := by
  induction ws generalizing start c with
  | nil => exact absurd hlt (not_lt.mpr hy)
  | cons w ws ih =>
    by_cases h : windowsMeet w.1 start
    · by_cases hyw : y < w.1 + 30
      · exact ⟨w, by simp, lt_of_lt_of_le h.1 (Nat.add_le_add_right hy 30), hyw⟩
      · rw [findWindow_of_meet n h] at hlt
        obtain ⟨x, hx, hm⟩ := ih _ _ (not_lt.mp hyw) hlt
        exact ⟨x, by simp [hx], hm⟩
    · rw [findWindow_of_not_meet n h] at hlt
      obtain ⟨x, hx, hm⟩ := ih _ _ hy hlt
      exact ⟨x, by simp [hx], hm⟩

/-- Only windows of other banks are counted. -/
theorem findWindow_count_le (n : Nat) (ws : List (Nat × Nat)) (start c : Nat) :
    (findWindow n ws start c).2 ≤ c + (ws.filter (fun x => x.2 != n)).length := by
  induction ws generalizing start c with
  | nil => exact le_refl _
  | cons w ws ih =>
    have hlen : ((w :: ws).filter (fun x => x.2 != n)).length = (ws.filter (fun x => x.2 != n)).length + if w.2 = n then 0 else 1 := by
      by_cases hb : w.2 = n <;> simp [hb]
    by_cases h : windowsMeet w.1 start
    · rw [findWindow_of_meet n h, hlen]
      refine (ih _ _).trans ?_
      split <;> omega
    · rw [findWindow_of_not_meet n h, hlen]
      exact (ih _ _).trans (by omega)

/-- Settles O22: the window found is free, the earliest, and counts windows of other banks. -/
theorem bookedWindowsNeverOverlap : Obligations.BookedWindowsNeverOverlap := by
  unfold Obligations.BookedWindowsNeverOverlap
  intro n start booked hs
  refine ⟨start_le_findWindow .., findWindow_free n booked start 0 hs, fun y hy hlt => findWindow_earliest n booked start 0 y hy hlt, ?_⟩
  simpa using findWindow_count_le n booked start 0

/-! ### Commits of HDM decoders -/

section
variable (s : State) (n : Nat) (d : Decoder)

/-- What a decoder shows of a commit of the words `d`. -/
def commitShown : Decoder := { d with committed := commitOk s n d, errNotCommitted := !commitOk s n d }

theorem applyCommit_of_locked (hc : (decoder s n).committed = true) (hl : (decoder s n).lock = true) : applyCommit (n, d) s = s := by
  simp [applyCommit, hc, hl]

theorem applyCommit_of_open (h : (decoder s n).committed = false ∨ (decoder s n).lock = false) :
    applyCommit (n, d) s = onHost (fun x => { x with decoders := tabSet decoderReset n (commitShown s n d) x.decoders }) s := by
  have h' : ((decoder s n).committed && (decoder s n).lock) = false := Bool.and_eq_false_iff.mpr h
  simp [applyCommit, h', commitShown]

theorem decoder_applyCommit_ne {m : Nat} (h : m ≠ n) : decoder (applyCommit (n, d) s) m = decoder s m := by
  unfold applyCommit
  split
  · rfl
  · exact tabGet_tabSet_ne _ _ h _

theorem applyCommit_host : applyCommit (n, d) s = { s with host := { s.host with decoders := (applyCommit (n, d) s).host.decoders } } := by
  unfold applyCommit
  split <;> rfl

end

theorem dpaBelow_of_decoders {s u : State} (h : u.host.decoders = s.host.decoders) (n : Nat) : dpaBelow u n = dpaBelow s n := by
  have hdec : decoder u = decoder s := funext fun m => by rw [decoder, decoder, h]
  induction n with
  | zero => rfl
  | succ n ih => simp [dpaBelow, ih, hdec]

/-- Whether a commit is accepted does not depend on the commits that wait. -/
theorem commitOk_commitDue (s : State) (due : List (Nat × Decoder)) (n : Nat) (d : Decoder) :
    commitOk (onHost (fun h => { h with commitDue := due }) s) n d = commitOk s n d := by
  have hb := dpaBelow_of_decoders (s := s) (u := onHost (fun h => { h with commitDue := due }) s) rfl n
  simp only [commitOk, hb]
  rfl

theorem commitOk_iff (s : State) (n : Nat) (d : Decoder) :
    commitOk s n d = true ↔ d.iw ≤ 4 ∧ d.ig ≤ 6 ∧ d.base % 0x10000000 = 0 ∧ d.size % (0x10000000 * ways d) = 0
      ∧ (n = 0 ∨ (decoder s (n - 1)).committed = true) ∧ rangeInPartition s (dpaBelow s n + d.skip) (d.size / ways d) = true
      ∧ ∀ m < n, (decoder s m).committed = true → overlaps (decoder s m).base (decoder s m).size d.base d.size = false := by
  simp [commitOk, and_assoc, imp_iff_not_or]

/-- The only commit of a tick. -/
theorem applyCommits_single {s : State} {n : Nat} {d : Decoder} (h : s.host.commitDue = [(n, d)]) :
    applyCommits s = applyCommit (n, d) (onHost (fun x => { x with commitDue := [] }) s) := by
  simp [applyCommits, h]

/-- Settles O11: a commit waits for the end of its tick, and is then taken, shown as refused, or ignored. -/
theorem decoderCommitHoldsOrRefuses : Obligations.DecoderCommitHoldsOrRefuses := by
  unfold Obligations.DecoderCommitHoldsOrRefuses
  intro s n v hg d ok
  have hok : commitOk s n.val d = true ↔ ok := commitOk_iff s n.val d
  refine ⟨fun hio => ?waits, fun hdue => ?taken⟩
  case waits =>
    exact run_of_effect_eq hg (by simp [commitDecoder, hio, d]; rfl)
  case taken =>
    let s0 := onHost (fun x => { x with commitDue := [] }) s
    have hshown : commitShown s0 n.val d = commitShown s n.val d := by simp [commitShown, s0, commitOk_commitDue]
    have hopen (h : (decoder s n.val).committed = false ∨ (decoder s n.val).lock = false) :
        decoder (applyCommits s) n.val = commitShown s n.val d := by
      rw [applyCommits_single hdue, applyCommit_of_open s0 n.val d h, ← hshown]
      exact tabGet_tabSet_same ..
    refine ⟨fun h k => ?accepted, fun h k => ?refused, fun h => ?ignored, fun m hm => ?others, ?rest⟩
    case accepted => simp [hopen h, commitShown, hok.mpr k]
    case refused => simp [hopen h, commitShown, Bool.eq_false_iff.mpr (fun e => k (hok.mp e))]
    case ignored =>
      rw [not_or, Bool.not_eq_false, Bool.not_eq_false] at h
      rw [applyCommits_single hdue, applyCommit_of_locked s0 n.val d h.1 h.2]
      rfl
    case others =>
      rw [applyCommits_single hdue]
      exact decoder_applyCommit_ne s0 n.val d hm
    case rest =>
      rw [applyCommits_single hdue]
      exact applyCommit_host s0 n.val d

end Sys2Proof.Machine
end

section
/-! PROOF. Reset (O2), and VAON's fall and rise (R185, O6). -/
namespace Sys2Proof.Machine

/-- Settles O2: the fields of State.reset, read one by one; an empty register table reads every field's default. -/
theorem resetLeavesStandbyAndDefaults : Obligations.ResetLeavesStandbyAndDefaults := by
  unfold Obligations.ResetLeavesStandbyAndDefaults
  exact ⟨rfl, rfl, rfl, fun _ _ => rfl, rfl, rfl, rfl, rfl, rfl, Nat.two_pow_pos 64, reset_form⟩

/-- With no store running, the shadow is left as it is. -/
theorem shadowLeft_of_idle {s : State} (h : s.sbg.running = []) : shadowLeft s = (s.sbg.shadow, s.sbg.written) := by
  simp [shadowLeft, h]

theorem vaonOff_of_on {s : State} (h : s.mode ≠ .off) :
    vaonOff s = { State.reset with
      config := s.config, serial := s.serial, stepping := s.stepping, outbox := s.outbox, freeIx := s.freeIx, mode := .off
      pins := { State.reset.pins with vaon := false, perst := s.pins.perst }
      med := { mediaReset with lines := s.med.lines, tags := s.med.tags, drain := s.med.drain, index := s.med.index
                               ckpts := s.med.ckpts }
      life := { lifeReset with fwVersion := s.life.fwVersion, fwBad := s.life.fwBad }
      sbg := { sbgReset with shadow := (shadowLeft s).1, written := (shadowLeft s).2 } } := by
  simp only [vaonOff, h, if_false]

theorem vaonOff_of_off {s : State} (h : s.mode = .off) : vaonOff s = s := by simp [vaonOff, h]

theorem vaonOn_of_on {s : State} (h : s.mode ≠ .off) : vaonOn s = s := by simp [vaonOn, h]

/-- VAON's fall from a powered mode leaves OFF. -/
theorem powerless_vaonOff {s : State} (h : s.mode ≠ .off) : powerless (settle s (vaonOff (stampNow s))) := by
  rw [vaonOff_of_on (s := stampNow s) h]
  exact ⟨rfl, rfl, rfl, rfl, rfl, rfl, rfl, rfl, rfl, rfl, rfl, rfl, rfl, rfl, rfl, rfl, rfl, rfl⟩

/-- Settles O6: VAON's fall keeps the retained parts alone; its rise starts STANDBY at GTC 0. -/
theorem powerOffLeavesOffAndRetainedParts : Obligations.PowerOffLeavesOffAndRetainedParts := by
  unfold Obligations.PowerOffLeavesOffAndRetainedParts
  intro s hg
  refine ⟨fun h => ⟨_, rfl, powerless_vaonOff h, ?retained⟩, fun h => ?offAgain, fun h => ?rise, fun h => ?onAgain⟩
  case retained =>
    rw [vaonOff_of_on (s := stampNow s) h]
    refine ⟨rfl, rfl, rfl, rfl, rfl, rfl, fun hr => ?_, rfl⟩
    have hsh := shadowLeft_of_idle (s := stampNow s) hr
    exact ⟨congrArg Prod.fst hsh, congrArg Prod.snd hsh⟩
  case offAgain => exact run_of_effect_eq hg (vaonOff_of_off (s := stampNow s) h)
  case onAgain => exact run_of_effect_eq hg (vaonOn_of_on (s := stampNow s) h)
  case rise =>
    refine (run_of_effect (if_pos (c := (stampNow s).mode = .off) h)).trans (congrArg _ ?_)
    simp only [settle, onLife, onPins, stampNow]
    rfl

end Sys2Proof.Machine
end

section
/-! PROOF. OFF is inert (R17, R183, O5): what the commands ask of a powerless state, and so what each of them does in it. -/
namespace Sys2Proof.Machine

section
variable {s : State} (h : powerless s)
include h

/-! ### What a powerless state answers -/

theorem mode_off : s.mode = .off := h.1

theorem pins_off : s.pins = { State.reset.pins with vaon := false, perst := s.pins.perst } := by
  obtain ⟨-, -, -, hpins, -⟩ := h
  exact hpins

theorem host_off : s.host = hostReset := by
  obtain ⟨-, -, -, -, hhost, -⟩ := h
  exact hhost

theorem sched_off : s.sched = schedReset := by
  obtain ⟨-, -, -, -, -, -, hsched, -⟩ := h
  exact hsched

theorem led_off : s.led = ledgerReset := by
  obtain ⟨-, -, -, -, -, -, -, hled, -⟩ := h
  exact hled

theorem seq_off : s.seq = seqReset := by
  obtain ⟨-, -, -, -, -, -, -, -, -, hseq, -⟩ := h
  exact hseq

theorem mcv_off : s.mcv = mcvReset := by
  obtain ⟨-, -, -, -, -, -, -, -, -, -, hmcv, -⟩ := h
  exact hmcv

theorem rcd_off : s.rcd = rcdReset := by
  obtain ⟨-, -, -, -, -, -, -, -, -, -, -, hrcd, -⟩ := h
  exact hrcd

theorem pel_off : s.pel = pelReset := by
  obtain ⟨-, -, -, -, -, -, -, -, -, -, -, -, hpel, -⟩ := h
  exact hpel

theorem tnd_off : s.tnd = tndReset := by
  obtain ⟨-, -, -, -, -, -, -, -, -, -, -, -, -, htnd, -⟩ := h
  exact htnd

theorem mbx_off : s.mbx = mbxReset := by
  obtain ⟨-, -, -, -, -, -, -, -, -, -, -, -, -, -, hmbx, -⟩ := h
  exact hmbx

theorem fw_off : s.fw = fwReset := by
  obtain ⟨-, -, -, -, -, -, -, -, hfw, -⟩ := h
  exact hfw

theorem med_off : s.med = { mediaReset with lines := s.med.lines, tags := s.med.tags, drain := s.med.drain, index := s.med.index
                                            ckpts := s.med.ckpts } := by
  obtain ⟨-, -, -, -, -, -, -, -, -, -, -, -, -, -, -, -, hmed, -⟩ := h
  exact hmed

theorem clrDies_off : s.med.clrDies = [] := congrArg Media.clrDies (med_off h)
theorem agingLeft_off : s.med.agingLeft = [] := congrArg Media.agingLeft (med_off h)

theorem sbgRunning_off : s.sbg.running = [] := by
  obtain ⟨-, -, -, -, -, -, -, -, -, -, -, -, -, -, -, -, -, hsbg⟩ := h
  exact congrArg Saddlebag.running hsbg

/-- Every register field reads its default. -/
theorem fget_off (f : Fld) (i : Nat) : fget s f i = f.dflt := by
  obtain ⟨-, hregs, -⟩ := h
  simp [fget, hregs, tabGet]

theorem fon_off (f : Fld) (i : Nat) : fon s f i = (f.dflt != 0) := by simp [fon, fget_off h]

theorem aonOn_off : aonOn s = false := by simp [aonOn, mode_off h]
theorem coreOn_off : coreOn s = false := by simp [coreOn, aonOn_off h]
theorem inService_off : inService s = false := by simp [inService, mode_off h]
theorem hubRuns_off : hubRuns s = false := by simp [hubRuns, coreOn_off h]
theorem ioLink_off : ioLink s = false := by simp [ioLink, coreOn_off h]
theorem memLink_off : memLink s = false := by simp [memLink, coreOn_off h]
theorem doeUp_off : doeUp s = false := by simp [doeUp, ioLink_off h]
theorem mctpUp_off : mctpUp s = false := by simp [mctpUp, aonOn_off h]
theorem spdmUp_off (via : SpdmTransport) : spdmUp s via = false := by cases via <;> simp [spdmUp, doeUp_off h, aonOn_off h]
theorem ringUsed_off : ringUsed s = false := by simp [ringUsed, aonOn_off h]
theorem refreshMode_off : refreshMode s = false := by simp [refreshMode, aonOn_off h]
theorem stepReady_off (op : Nat) : stepReady s op = false := by simp [stepReady, mode_off h]
theorem bankSt_off (n : Nat) : bankSt s n = bankReset := by simp [bankSt, sched_off h, schedReset, tabGet]
theorem ctxOf_off (tag : BitVec 16) : ctxOf s tag = none := by simp [ctxOf, sched_off h, schedReset]
theorem conv_off (n : Nat) : conv s n = convReset := by simp [conv, mcv_off h, mcvReset, tabGet]
theorem marginOf_off (c : Nat) : marginOf s c = none := by simp [marginOf, seq_off h, seqReset, tabGet]
theorem runningStore_off (b : Nat) : runningStore s b = none := by simp [runningStore, sbgRunning_off h, tabGet]
theorem endpoint_off (via : Transport) : endpoint s via = .none := by simp [endpoint, aonOn_off h, hubRuns_off h]
theorem chanOn_off (k : Nat) : chanOn s k = false := by simp [chanOn, fon_off h, F.SEQ_CHn_STATUS_EN]

theorem tgtOn_off (t : Target) : tgtOn s t = false := by
  cases hc : tgtChans s t <;> simp [tgtOn, hc, chanOn_off h]

theorem tndUp_off : tndUp s = false := by simp [tndUp, fget_off h, F.TND_STATUS_LINK]
theorem portActive_off (p : Nat) : portActive s p = none := by simp [portActive, seq_off h, seqReset]

/-! ### What the gates of a family let through -/

theorem command_off (via : Transport) (op : Nat) (acc : Accept) (lenOk : Nat → Bool) (input : List Byte) (body : State → State) :
    command via op acc lenOk input body s = s := by
  simp [command, endpoint_off h]

theorem onFrame_off (type : Nat) (f : RingFrame) (k : State → State) : onFrame type f k s = s := by simp [onFrame, ringUsed_off h]
theorem onMessage_off (q : Bool) (k : State → State) : onMessage q k s = s := by simp [onMessage, coreOn_off h]

theorem spdmRequest_off (req : Nat) (ok : Bool) (via : SpdmTransport) (m : SpdmMessage) (work : State → State) :
    spdmRequest req ok via m work s = s := by
  simp [spdmRequest, spdmUp_off h]

theorem gates_off : gates s = s := by simp [gates, gatesWith, coreOn_off h]

/-! ### What each command then does -/

@[simp] theorem patrolStep_off (w : Wheel) (t : Nat) : patrolStep w t s = s := by
  simp [patrolStep, inService_off h]
@[simp] theorem loadFlow_off (op : CtxOp) (tag : BitVec 16) (hpa t : Nat) (chk : ArrayCheck) :
    loadFlow op tag hpa t chk s = advanceTo t s := by
  simp [loadFlow, memLink_off h, ctxOf_off h]
@[simp] theorem storeFlow_off (op : CtxOp) (tag : BitVec 16) (hpa t : Nat) (data : Sector) (be : BitVec 64) (poison : Bool)
    (chk : ArrayCheck) : storeFlow op tag hpa t data be poison chk s = advanceTo t s := by
  simp [storeFlow, memLink_off h, ctxOf_off h]
@[simp] theorem invalidate_off (tag : BitVec 16) : invalidate tag s = s := by
  simp [invalidate, memLink_off h]
@[simp] theorem dropSpecRd_off : dropSpecRd s = s := by
  simp [dropSpecRd, memLink_off h]
@[simp] theorem dispatchStep_off (tag : BitVec 16) (t : Nat) : dispatchStep tag t s = s := by
  simp [dispatchStep, demandDesc, sched_off h, schedReset]
@[simp] theorem senseLatched_off (b : BankId) (t : Nat) : senseLatched b t s = s := by
  simp [senseLatched, sensing, sched_off h, schedReset, bankSt_off h, bankReset]
@[simp] theorem windowStart_off (tag : BitVec 16) (t : Nat) : windowStart tag t s = s := by
  simp [windowStart, ctxOf_off h]
@[simp] theorem nonDemandTransfer_off (b : BankId) (t : Nat) : nonDemandTransfer b t s = s := by
  simp [nonDemandTransfer, bankSt_off h, bankReset]
@[simp] theorem decodeStep_off (src : DecodeSource) (errs : BitErrors) (soft : SoftMap) (t : Nat) : decodeStep src errs soft t s = s := by
  cases src <;> simp [decodeStep, bankSt_off h, bankReset, ctxOf_off h]
@[simp] theorem transmitStep_off (tag : BitVec 16) (t : Nat) : transmitStep tag t s = s := by
  simp [transmitStep, nextResponse, sched_off h, schedReset]
@[simp] theorem agePromotion_off (b : BankId) : agePromotion b s = s := by
  simp [agePromotion, sched_off h, schedReset]
@[simp] theorem suspendLong_off (b : BankId) : suspendLong b s = s := by
  simp [suspendLong, bankSt_off h, bankReset]
@[simp] theorem jobDone_off (g : Nat) : jobDone g s = s := by
  simp [jobDone, sched_off h, schedReset, tabGet]
@[simp] theorem recoverRead_off (r : RecoverReads) : recoverRead r s = s := by
  simp [recoverRead, mode_off h]
@[simp] theorem capTestDue_off : capTestDue s = s := by
  simp [capTestDue, mode_off h, inService_off h]
@[simp] theorem capDeferEnd_off : capDeferEnd s = s := by
  simp [capDeferEnd, led_off h, ledgerReset, capTestReset]
@[simp] theorem capDiscardEnd_off : capDiscardEnd s = s := by
  simp [capDiscardEnd, led_off h, ledgerReset, capTestReset]
@[simp] theorem capTimeout_off : capTimeout s = s := by
  simp [capTimeout, led_off h, ledgerReset, capTestReset]
@[simp] theorem seqEnd_off : seqEnd s = s := by
  simp [seqEnd, stepReady_off h]
@[simp] theorem seqEnable_off : seqEnable s = s := by
  simp [seqEnable, stepReady_off h]
@[simp] theorem seqDisable_off : seqDisable s = s := by
  simp [seqDisable, stepReady_off h]
@[simp] theorem seqWaitPg_off : seqWaitPg s = s := by
  simp [seqWaitPg, stepReady_off h]
@[simp] theorem seqWaitTicks_off : seqWaitTicks s = s := by
  simp [seqWaitTicks, stepReady_off h]
@[simp] theorem seqCheckWindow_off : seqCheckWindow s = s := by
  simp [seqCheckWindow, stepReady_off h]
@[simp] theorem seqGangSync_off : seqGangSync s = s := by
  simp [seqGangSync, stepReady_off h]
@[simp] theorem seqBranch_off : seqBranch s = s := by
  simp [seqBranch, stepReady_off h]
@[simp] theorem waitTicksExpiry_off : waitTicksExpiry s = s := by
  simp [waitTicksExpiry, mode_off h]
@[simp] theorem gangSyncTimeout_off : gangSyncTimeout s = s := by
  simp [gangSyncTimeout, mode_off h]
@[simp] theorem pgEdge_off (c : Chan) (high : Bool) (t : Nat) : pgEdge c high t s = s := by
  simp [pgEdge, aonOn_off h]
@[simp] theorem pgTimeout_off (tgt : Target) : pgTimeout tgt s = s := by
  simp [pgTimeout, tgtOn_off h]
@[simp] theorem backoffEnd_off (tgt : Target) : backoffEnd tgt s = s := by
  simp [backoffEnd, retryOf, seq_off h, seqReset, retryReset, tabGet]
@[simp] theorem uvTrip_off (c : Chan) (t : Nat) : uvTrip c t s = s := by
  simp [uvTrip, aonOn_off h]
@[simp] theorem ovTrip_off (c : Chan) (t : Nat) : ovTrip c t s = s := by
  simp [ovTrip, aonOn_off h]
@[simp] theorem comparatorRelease_off (c : Chan) (ov : Bool) : comparatorRelease c ov s = s := by
  simp [comparatorRelease, aonOn_off h]
@[simp] theorem offDelayExpiry_off : offDelayExpiry s = s := by
  simp [offDelayExpiry, nextDown, seq_off h, seqReset]
@[simp] theorem slotUnsync_off : slotUnsync s = s := by
  simp [slotUnsync, mode_off h, aonOn_off h]
@[simp] theorem settleEnd_off (c : Chan) : settleEnd c s = s := by
  simp [settleEnd, marginOf_off h]
@[simp] theorem neutralEnd_off (c : Chan) : neutralEnd c s = s := by
  simp [neutralEnd, marginOf_off h]
@[simp] theorem nominalEnd_off (c : Chan) : nominalEnd c s = s := by
  simp [nominalEnd, marginOf_off h]
@[simp] theorem pmbusComplete_off (port : Fin 2) (ok : Bool) (data : BitVec 16) : pmbusComplete port ok data s = s := by
  simp [pmbusComplete, portActive_off h]
@[simp] theorem pmbusStretch_off (port : Fin 2) : pmbusStretch port s = s := by
  simp [pmbusStretch, portActive_off h]
@[simp] theorem captureStep_off : captureStep s = s := by
  simp [captureStep, rcd_off h, rcdReset]
@[simp] theorem recackTimeout_off : recackTimeout s = s := by
  simp [recackTimeout, rcd_off h, rcdReset]
@[simp] theorem writeStart_off : writeStart s = s := by
  simp [writeStart, nextRecord, rcd_off h, rcdReset]
@[simp] theorem verifyStep_off (aOk bOk : Bool) : verifyStep aOk bOk s = s := by
  simp [verifyStep, rcd_off h, rcdReset]
@[simp] theorem scanEnd_off : scanEnd s = s := by
  simp [scanEnd, aonOn_off h]
@[simp] theorem storeStart_off (b : Nat) : storeStart b s = s := by
  simp [storeStart, aonOn_off h, runningStore_off h]
@[simp] theorem storeComplete_off (b : Nat) (ok : Bool) : storeComplete b ok s = s := by
  simp [storeComplete, runningStore_off h]
@[simp] theorem lazyExpiry_off (p : Nat) : lazyExpiry p s = s := by
  simp [lazyExpiry, aonOn_off h]
@[simp] theorem recharge_off (b : Nat) : recharge b s = s := by
  simp [recharge, aonOn_off h]
@[simp] theorem supplyThreshold_off (ok : Bool) : supplyThreshold ok s = s := by
  simp [supplyThreshold, aonOn_off h]
@[simp] theorem refreshStart_off : refreshStart s = s := by
  simp [refreshStart, refreshMode_off h]
@[simp] theorem shadowRead_off (p : Nat) (differs : Bool) : shadowRead p differs s = s := by
  simp [shadowRead, refreshMode_off h, runningStore_off h]
@[simp] theorem slotDue_off (n : Nat) : slotDue n s = s := by
  simp [slotDue, slotsRun, conv_off h, convReset]
@[simp] theorem triggerPeriod_off (n : Nat) : triggerPeriod n s = s := by
  simp [triggerPeriod, eget, mcv_off h, mcvReset, tabGet, fget_off h, F.MCVn_TRIG_SRC]
@[simp] theorem calibrate_off (n : Nat) : calibrate n s = s := by
  simp [calibrate, calRefused, mode_off h, conv_off h, convReset]
@[simp] theorem diagnose_off (k : Nat) : diagnose k s = s := by
  simp [diagnose, aonOn_off h]
@[simp] theorem convComplete_off (n u : Nat) : convComplete n u s = s := by
  simp [convComplete, conv_off h, convReset]
@[simp] theorem fifoPop_off (n : Nat) : fifoPop n s = s := by
  have hq : tabSet [] n (tabGet [] s.mcv.fifo n).tail s.mcv.fifo = s.mcv.fifo := by
    simp [mcv_off h, mcvReset, tabGet, tabSet, tabDel]
  rw [fifoPop, onMcv, hq]
@[simp] theorem timeFrame_off (f : RingFrame) (t : Nat) : timeFrame f t s = s := by
  simp [timeFrame, onFrame_off h]
@[simp] theorem timeSend_off : timeSend s = s := by
  simp [timeSend, ringUsed_off h]
@[simp] theorem masterLoss_off : masterLoss s = s := by
  simp [masterLoss, pel_off h, pelReset]
@[simp] theorem claimEnd_off : claimEnd s = s := by
  simp [claimEnd, ringUsed_off h]
@[simp] theorem returnTimeout_off : returnTimeout s = s := by
  simp [returnTimeout, ringUsed_off h]
@[simp] theorem splitClear_off : splitClear s = s := by
  simp [splitClear, ringUsed_off h]
@[simp] theorem presentSend_off : presentSend s = s := by
  simp [presentSend, ringUsed_off h]
@[simp] theorem presentExpiry_off (d : Devid) : presentExpiry d s = s := by
  simp [presentExpiry, pel_off h, pelReset]
@[simp] theorem brakeFrame_off (f : RingFrame) : brakeFrame f s = s := by
  simp [brakeFrame, onFrame_off h]
@[simp] theorem recordFrame_off (f : RingFrame) : recordFrame f s = s := by
  simp [recordFrame, onFrame_off h]
@[simp] theorem recackFrame_off (f : RingFrame) : recackFrame f s = s := by
  simp [recackFrame, onFrame_off h]
@[simp] theorem configMsg_off (m : ConfigMsg) : configMsg m s = s := by
  simp [configMsg, coreOn_off h]
@[simp] theorem tandemUp_off (x4at64 : Bool) : tandemUp x4at64 s = s := by
  simp [tandemUp, coreOn_off h]
@[simp] theorem tandemLost_off : tandemLost s = s := by
  simp [tandemLost, fget_off h, F.TND_STATUS_LINK, tndUp_off h]
@[simp] theorem messageTimeout_off : messageTimeout s = s := by
  simp [messageTimeout, fget_off h, F.TND_STATUS_LINK, tndUp_off h]
@[simp] theorem mackDeadline_off (tag : BitVec 16) : mackDeadline tag s = s := by
  simp [mackDeadline, tnd_off h, tndReset]
@[simp] theorem idleEnd_off : idleEnd s = s := by
  simp [idleEnd, tnd_off h, tndReset]
@[simp] theorem hbSend_off : hbSend s = s := by
  simp [hbSend, coreOn_off h, tndUp_off h]
@[simp] theorem mwrMsg_off (m : MwrMsg) : mwrMsg m s = s := by
  simp [mwrMsg, onMessage_off h]
@[simp] theorem mackMsg_off (tag : BitVec 16) : mackMsg tag s = s := by
  simp [mackMsg, onMessage_off h]
@[simp] theorem mcredMsg_off (n : Nat) : mcredMsg n s = s := by
  simp [mcredMsg, onMessage_off h]
@[simp] theorem mrelMsg_off (slot extent : Nat) : mrelMsg slot extent s = s := by
  simp [mrelMsg, onMessage_off h]
@[simp] theorem rsyncMsg_off (m : RsyncMsg) : rsyncMsg m s = s := by
  simp [rsyncMsg, onMessage_off h]
@[simp] theorem rdoneMsg_off (slot extent : Nat) : rdoneMsg slot extent s = s := by
  simp [rdoneMsg, onMessage_off h]
@[simp] theorem presentFrame_off (f : RingFrame) (t : Nat) : presentFrame f t s = s := by
  simp [presentFrame, onFrame_off h]
@[simp] theorem roleMsg_off (reqAck : Nat) : roleMsg reqAck s = s := by
  simp [roleMsg, onMessage_off h]
@[simp] theorem vaonOff_off : vaonOff s = s := by
  simp [vaonOff, mode_off h]
@[simp] theorem vaonWarn_off : vaonWarn s = s := by
  simp [vaonWarn, aonOn_off h]
@[simp] theorem recallEnd_off (straps : Devid) (corrected ue0 : List Nat) : recallEnd straps corrected ue0 s = s := by
  simp [recallEnd, aonOn_off h]
@[simp] theorem vinFall_off (t : Nat) : vinFall t s = s := by
  simp [vinFall, aonOn_off h]
@[simp] theorem vinRise_off : vinRise s = s := by
  simp [vinRise, aonOn_off h]
@[simp] theorem pwrfail_off (t : Nat) : pwrfail t s = s := by
  simp [pwrfail, aonOn_off h]
@[simp] theorem pwrfailBack_off : pwrfailBack s = s := by
  simp [pwrfailBack, aonOn_off h]
@[simp] theorem holdUv_off : holdUv s = s := by
  simp [holdUv, aonOn_off h]
@[simp] theorem freewheelT1_off : freewheelT1 s = s := by
  simp [freewheelT1, mode_off h]
@[simp] theorem brakeT1_off : brakeT1 s = s := by
  simp [brakeT1, mode_off h]
@[simp] theorem autostoreEnd_off : autostoreEnd s = s := by
  simp [autostoreEnd, fon_off h, F.SBG_STATUS_AUTOSTORE]
@[simp] theorem debounceEnd_off : debounceEnd s = s := by
  simp [debounceEnd, mode_off h]
@[simp] theorem coreRail_off : coreRail s = s := by
  simp [coreRail, mode_off h]
@[simp] theorem firmwareChecked_off (newerOk otherOk : Bool) : firmwareChecked newerOk otherOk s = s := by
  simp [firmwareChecked, mode_off h]
@[simp] theorem microcode_off (version : Nat) : microcode version s = s := by
  simp [microcode, mode_off h]
@[simp] theorem mmbRail_off : mmbRail s = s := by
  simp [mmbRail, mode_off h]
@[simp] theorem rstEnd_off (w : Nat) : rstEnd w s = s := by
  simp [rstEnd, mode_off h]
@[simp] theorem trained_off (w : Nat) (passed : BitVec 8) : trained w passed s = s := by
  simp [trained, mode_off h]
@[simp] theorem sramRail_off : sramRail s = s := by
  simp [sramRail, mode_off h]
@[simp] theorem cacheTested_off (badWays : List WayId) (otherBad : Bool) : cacheTested badWays otherBad s = s := by
  simp [cacheTested, mode_off h]
@[simp] theorem hubFault_off : hubFault s = s := by
  simp [hubFault, coreOn_off h]
@[simp] theorem portBuffer_off : portBuffer s = s := by
  simp [portBuffer, coreOn_off h]
@[simp] theorem enterMaintenance_off : enterMaintenance s = s := by
  simp [enterMaintenance, mode_off h]
@[simp] theorem returnService_off : returnService s = s := by
  simp [returnService, mode_off h]
@[simp] theorem perstAssert_off : perstAssert s = onPins (fun p => { p with perst := true }) s := by
  simp [perstAssert, aonOn_off h]
@[simp] theorem perstRelease_off : perstRelease s = if s.pins.perst then onPins (fun p => { p with perst := false }) s else s := by
  have hc (f : Pins → Pins) : coreOn (onPins f s) = false := by simp [coreOn, aonOn, mode_off h]
  simp [perstRelease, startTraining, hc]
@[simp] theorem linkReset_off (cause : Nat) : linkReset cause s = s := by
  simp [linkReset, ioLink_off h]
@[simp] theorem functionReset_off : functionReset s = s := by
  simp [functionReset, mode_off h, ioLink_off h]
@[simp] theorem cxlReset_off : cxlReset s = s := by
  simp [cxlReset, mode_off h, ioLink_off h]
@[simp] theorem cxlResetEnd_off : cxlResetEnd s = s := by
  simp [cxlResetEnd, host_off h, hostReset]
@[simp] theorem linkTrained_off (width rate : Nat) : linkTrained width rate s = s := by
  simp [linkTrained, mode_off h, coreOn_off h]
@[simp] theorem linkRetrain_off (width rate : Nat) : linkRetrain width rate s = s := by
  simp [linkRetrain, ioLink_off h]
@[simp] theorem flitThreshold_off (retry : Bool) : flitThreshold retry s = s := by
  simp [flitThreshold, ioLink_off h]
@[simp] theorem ideRxError_off : ideRxError s = s := by
  simp [ideRxError, ioLink_off h]
@[simp] theorem viralReceived_off : viralReceived s = s := by
  simp [viralReceived, ioLink_off h]
@[simp] theorem gpfPhase_off (phase : Nat) : gpfPhase phase s = s := by
  simp [gpfPhase, ioLink_off h]
@[simp] theorem commitDecoder_off (n : Nat) (v : DecoderWords) : commitDecoder n v s = s := by
  simp [commitDecoder, ioLink_off h]
@[simp] theorem spdmNegotiate_off (req need next : Nat) (out : List Byte) (via : SpdmTransport) (m : SpdmMessage) :
    spdmNegotiate req need next out via m s = s := by
  simp [spdmNegotiate, spdmUp_off h]
@[simp] theorem getCertificate_off (via : SpdmTransport) (m : SpdmMessage) : getCertificate via m s = s := by
  unfold getCertificate
  split <;> simp [spdmRequest_off h, spdmUp_off h]
@[simp] theorem getMeasurements_off (via : SpdmTransport) (m : SpdmMessage) : getMeasurements via m s = s := by
  simp [getMeasurements, spdmRequest_off h, spdmUp_off h]
@[simp] theorem keyExchange_off (via : SpdmTransport) (m : SpdmMessage) : keyExchange via m s = s := by
  simp [keyExchange, spdmRequest_off h, spdmUp_off h]
@[simp] theorem setCertificate_off (via : SpdmTransport) (m : SpdmMessage) : setCertificate via m s = s := by
  simp [setCertificate, spdmUp_off h]
@[simp] theorem cxlIdeKm_off (m : IdeKmMessage) : cxlIdeKm m s = s := by
  simp [cxlIdeKm, doeUp_off h]
@[simp] theorem ideKm_off (m : IdeKmMessage) : ideKm m s = s := by
  simp [ideKm, doeUp_off h]
@[simp] theorem setEid_off (eid : Byte) : setEid eid s = s := by
  simp [setEid, mctpUp_off h]
@[simp] theorem nonceExpiry_off (via : Transport) : nonceExpiry via s = s := by
  simp [nonceExpiry, nonceOf, tabGet, mbx_off h, mbxReset]
@[simp] theorem lockoutEnd_off : lockoutEnd s = s := by
  simp [lockoutEnd, lockedOut, mbx_off h, mbxReset]
@[simp] theorem abortStop_off : abortStop s = s := by
  simp [abortStop, mbx_off h, mbxReset]
@[simp] theorem activationEnd_off (authentic : Bool) : activationEnd authentic s = s := by
  simp [activationEnd, mode_off h]
@[simp] theorem programVerified_off (f : EventFrame) : programVerified f s = s := by
  simp [programVerified, frameProg, bankSt_off h, bankReset]
@[simp] theorem verifyFailed_off (f : EventFrame) : verifyFailed f s = s := by
  simp [verifyFailed, frameProg, bankSt_off h, bankReset]
@[simp] theorem suspendedFrame_off (f : EventFrame) : suspendedFrame f s = s := by
  simp [suspendedFrame, bankSt_off h, bankReset]
@[simp] theorem caCrc_off (f : EventFrame) : caCrc f s = s := by
  simp [caCrc, coreOn_off h]
@[simp] theorem writeCrc_off (f : EventFrame) : writeCrc f s = s := by
  simp [writeCrc, coreOn_off h]
@[simp] theorem bandMismatch_off (f : EventFrame) : bandMismatch f s = s := by
  simp [bandMismatch, coreOn_off h]
@[simp] theorem tagDone_off (f : EventFrame) : tagDone f s = s := by
  simp [tagDone, gates_off h, clrOpDone, ageDone, nsHas, clrDies_off h, agingLeft_off h, bankSt_off h, bankReset]
@[simp] theorem thermalLimit_off (f : EventFrame) : thermalLimit f s = s := by
  simp [thermalLimit, coreOn_off h]
@[simp] theorem mmbAlert_off (w : Wheel) : mmbAlert w s = s := by
  simp [mmbAlert, coreOn_off h]
@[simp] theorem selfCheck_off (f : EventFrame) : selfCheck f s = s := by
  simp [selfCheck, mode_off h]
@[simp] theorem rowFault_off (f : EventFrame) : rowFault f s = s := by
  simp [rowFault, coreOn_off h]
@[simp] theorem scrubVisit_off (w : Wheel) (found : List ScrubFinding) : scrubVisit w found s = s := by
  simp [scrubVisit, draining, fw_off h, fwReset, inService_off h]
@[simp] theorem epochAdvance_off : epochAdvance s = s := by
  simp [epochAdvance, inService_off h]
@[simp] theorem temperatureRead_off (w : Wheel) (d : Die) (c : Int) : temperatureRead w d c s = s := by
  simp [temperatureRead, coreOn_off h]
@[simp] theorem dqsTrack_off (w : Wheel) : dqsTrack w s = s := by
  simp [dqsTrack, inService_off h]
@[simp] theorem checkpointDue_off : checkpointDue s = s := by
  simp [checkpointDue, inService_off h]
@[simp] theorem writeRegistersAt_off (via : Transport) (input : List Byte) : writeRegistersAt via input s = s := by
  simp [writeRegistersAt, command_off h, mode_off h, endpoint_off h]
@[simp] theorem registerWrite_off (path : WritePath) (a value : Nat) : registerWrite path a value s = s := by
  cases path <;> simp [registerWrite, hubRuns_off h, ioLink_off h]
@[simp] theorem cadenceTick_off : cadenceTick s = s := by
  simp [cadenceTick, aonOn_off h]

end

/-! ### Every command -/

/-- What a command may do in OFF: bring its stamp, and change the level of PERST_N. -/
def onlyPerst (s t : State) : Prop := t = { s with stamp := t.stamp, pins := { s.pins with perst := t.pins.perst } }

theorem onlyPerst_refl (s : State) : onlyPerst s s := rfl

theorem onlyPerst_advanceTo {s : State} (h : powerless s) (t : Nat) : onlyPerst s (advanceTo t s) := by
  simp [onlyPerst, advanceTo, mode_off h]

theorem onlyPerst_onPins (s : State) (b : Bool) : onlyPerst s (onPins (fun p => { p with perst := b }) s) := rfl

/-- Of an effect that only brings a stamp and PERST_N's level, settling leaves the level. -/
theorem settle_onlyPerst {s u : State} (hg : gtcOk s) (h : onlyPerst (stampNow s) u) :
    settle s u = { s with pins := { s.pins with perst := u.pins.perst } } := by
  rw [h]
  simp only [settle, stampNow]
  congr 1
  exact Nat.mod_eq_of_lt hg

theorem powerless_perst {s : State} (h : powerless s) (b : Bool) : powerless { s with pins := { s.pins with perst := b } } := by
  obtain ⟨hm, hr, hset, hp, hrest⟩ := h
  exact ⟨hm, hr, hset, by rw [hp], hrest⟩


/-- Every command but VAON's rise finds nobody to act in OFF. -/
theorem effect_off (c : Instr) {s : State} (h : powerless s) (hc : c ≠ .vaonPowerOn) : ∃ k : State → State,
    (exec c s = match namedWheel c with
      | none => run k s
      | some w => onWheel w k s) ∧ onlyPerst (stampNow s) (k (stampNow s)) := by
  have hu : powerless (stampNow s) := h
  generalize stampNow s = u at hu ⊢
  cases c <;> refine ⟨_, rfl, ?_⟩
  case vaonPowerOn => exact absurd rfl hc
  case perstNRelease =>
    rw [perstRelease_off hu]
    split
    · exact onlyPerst_onPins u false
    · exact onlyPerst_refl u
  all_goals simp [hu, onlyPerst_refl, onlyPerst_advanceTo, onlyPerst_onPins, command_off, onFrame_off, onMessage_off,
    spdmRequest_off, aonOn_off h, doeUp_off h, mctpUp_off h]

/-- Settles O5: what a command's effect leaves of a powerless state differs from it in PERST_N's level alone. -/
theorem offIsInertUntilVaonRises : Obligations.OffIsInertUntilVaonRises := by
  unfold Obligations.OffIsInertUntilVaonRises
  intro c s t h hg hc he
  obtain ⟨k, hk, honly⟩ := effect_off c h hc
  have ht := eq_settle_of_effect hk he
  rw [settle_onlyPerst hg honly] at ht
  subst ht
  exact ⟨rfl, powerless_perst h _⟩

end Sys2Proof.Machine
end

section
/-! SUPPORT. The footprint of every operation: the parts of the state that it may change. Each lemma says that what is kept up to an
operation is kept across it, when its footprint is among the parts that may change; so a chain of operations is followed by rewriting. -/
namespace Sys2Proof.Machine
set_option Elab.async false

section
variable {s₀ s t : State} {ps qs : List Part}

/-! ### How footprints compose -/

theorem agree_symm {p : Part} (h : agree s t p) : agree t s p := by
  cases p <;> simp only [agree] at h ⊢
  case regs => exact ⟨h.1.symm, h.2.symm⟩
  all_goals exact h.symm

theorem keptBut_symm (h : keptBut s t ps) : keptBut t s ps := by
  obtain ⟨h1, h2, h3, h4, h5⟩ := h
  exact ⟨h1.symm, h2.symm, h3.symm, h4.symm, fun p hp => agree_symm (h5 p hp)⟩

/-- What is kept up to an operation's start is kept up to its end, within its footprint. -/
theorem keptBut_iff (h : keptBut s t ps) : keptBut s₀ t ps ↔ keptBut s₀ s ps :=
  ⟨fun k => keptBut_trans k (keptBut_symm h), fun k => keptBut_trans k h⟩

@[simp] theorem keptBut_self : keptBut s s ps ↔ True := iff_true_intro (keptBut_refl s ps)

@[simp] theorem kept_ite {c : Prop} [Decidable c] (a b : State) :
    keptBut s₀ (if c then a else b) ps ↔ if c then keptBut s₀ a ps else keptBut s₀ b ps := by
  split <;> rfl

@[simp] theorem kept_when (b : Bool) (f : State → State) :
    keptBut s₀ (when b f s) ps ↔ if b then keptBut s₀ (f s) ps else keptBut s₀ s ps := by
  cases b <;> rfl

@[simp] theorem kept_forEach {α : Type} {f : α → State → State} (hf : ∀ x u, keptBut u (f x u) ps) (xs : List α) :
    keptBut s₀ (forEach xs f s) ps ↔ keptBut s₀ s ps :=
  keptBut_iff (forEach_keptBut f hf xs s)

/-- The footprint of an update of one part. -/
theorem kept_of_part {p : Part} (hp : p ∈ ps) (h : ∀ q, q ≠ p → agree s t q)
    (hc : (t.config, t.serial, t.stepping, t.pending) = (s.config, s.serial, s.stepping, s.pending) := by rfl) :
    keptBut s₀ t ps ↔ keptBut s₀ s ps := by
  obtain ⟨h1, h2, h3, h4⟩ : _ ∧ _ ∧ _ ∧ _ := by simpa using hc
  exact keptBut_iff ⟨h1, h2, h3, h4, fun q hq => h q fun e => hq (e ▸ hp)⟩

/-- The footprint of an update of several parts. -/
theorem kept_of_parts (hps : ∀ q ∈ qs, q ∈ ps) (h : ∀ q, q ∉ qs → agree s t q)
    (hc : (t.config, t.serial, t.stepping, t.pending) = (s.config, s.serial, s.stepping, s.pending) := by rfl) :
    keptBut s₀ t ps ↔ keptBut s₀ s ps := by
  obtain ⟨h1, h2, h3, h4⟩ : _ ∧ _ ∧ _ ∧ _ := by simpa using hc
  exact keptBut_iff ⟨h1, h2, h3, h4, fun q hq => h q fun e => hq (hps q e)⟩

end

/-! ### The updates of the state -/

section
variable {s₀ s : State} {ps : List Part}

@[simp] theorem kept_onHost (f : HostPort → HostPort) (hp : .host ∈ ps) : keptBut s₀ (onHost f s) ps ↔ keptBut s₀ s ps :=
  kept_of_part hp fun q hq => by cases q <;> simp_all [agree]
@[simp] theorem kept_onCache (f : Cache → Cache) (hp : .cache ∈ ps) : keptBut s₀ (onCache f s) ps ↔ keptBut s₀ s ps :=
  kept_of_part hp fun q hq => by cases q <;> simp_all [agree]
@[simp] theorem kept_onSched (f : Sched → Sched) (hp : .sched ∈ ps) : keptBut s₀ (onSched f s) ps ↔ keptBut s₀ s ps :=
  kept_of_part hp fun q hq => by cases q <;> simp_all [agree]
@[simp] theorem kept_onLed (f : Ledger → Ledger) (hp : .led ∈ ps) : keptBut s₀ (onLed f s) ps ↔ keptBut s₀ s ps :=
  kept_of_part hp fun q hq => by cases q <;> simp_all [agree]
@[simp] theorem kept_onFw (f : Freewheel → Freewheel) (hp : .fw ∈ ps) : keptBut s₀ (onFw f s) ps ↔ keptBut s₀ s ps :=
  kept_of_part hp fun q hq => by cases q <;> simp_all [agree]
@[simp] theorem kept_onMed (f : Media → Media) (hp : .med ∈ ps) : keptBut s₀ (onMed f s) ps ↔ keptBut s₀ s ps :=
  kept_of_part hp fun q hq => by cases q <;> simp_all [agree]
@[simp] theorem kept_onLife (f : Life → Life) (hp : .life ∈ ps) : keptBut s₀ (onLife f s) ps ↔ keptBut s₀ s ps :=
  kept_of_part hp fun q hq => by cases q <;> simp_all [agree]
@[simp] theorem kept_onSeq (f : Sequencer → Sequencer) (hp : .seq ∈ ps) : keptBut s₀ (onSeq f s) ps ↔ keptBut s₀ s ps :=
  kept_of_part hp fun q hq => by cases q <;> simp_all [agree]
@[simp] theorem kept_onMcv (f : Converters → Converters) (hp : .mcv ∈ ps) : keptBut s₀ (onMcv f s) ps ↔ keptBut s₀ s ps :=
  kept_of_part hp fun q hq => by cases q <;> simp_all [agree]
@[simp] theorem kept_onRcd (f : Recorder → Recorder) (hp : .rcd ∈ ps) : keptBut s₀ (onRcd f s) ps ↔ keptBut s₀ s ps :=
  kept_of_part hp fun q hq => by cases q <;> simp_all [agree]
@[simp] theorem kept_onSbg (f : Saddlebag → Saddlebag) (hp : .sbg ∈ ps) : keptBut s₀ (onSbg f s) ps ↔ keptBut s₀ s ps :=
  kept_of_part hp fun q hq => by cases q <;> simp_all [agree]
@[simp] theorem kept_onPel (f : Peloton → Peloton) (hp : .pel ∈ ps) : keptBut s₀ (onPel f s) ps ↔ keptBut s₀ s ps :=
  kept_of_part hp fun q hq => by cases q <;> simp_all [agree]
@[simp] theorem kept_onTnd (f : Tandem → Tandem) (hp : .tnd ∈ ps) : keptBut s₀ (onTnd f s) ps ↔ keptBut s₀ s ps :=
  kept_of_part hp fun q hq => by cases q <;> simp_all [agree]
@[simp] theorem kept_onMbx (f : Mailbox → Mailbox) (hp : .mbx ∈ ps) : keptBut s₀ (onMbx f s) ps ↔ keptBut s₀ s ps :=
  kept_of_part hp fun q hq => by cases q <;> simp_all [agree]
@[simp] theorem kept_onPins (f : Pins → Pins) (hp : .pins ∈ ps) : keptBut s₀ (onPins f s) ps ↔ keptBut s₀ s ps :=
  kept_of_part hp fun q hq => by cases q <;> simp_all [agree]
@[simp] theorem kept_emit (e : Emission) (hp : .outbox ∈ ps) : keptBut s₀ (emit e s) ps ↔ keptBut s₀ s ps :=
  kept_of_part hp fun q hq => by cases q <;> simp_all [agree]
@[simp] theorem kept_fput (f : Fld) (i v : Nat) (hp : .regs ∈ ps) : keptBut s₀ (fput f i v s) ps ↔ keptBut s₀ s ps :=
  kept_of_part hp fun q hq => by cases q <;> simp_all [agree]
@[simp] theorem kept_useFree (hp : .freeIx ∈ ps) : keptBut s₀ (useFree s) ps ↔ keptBut s₀ s ps :=
  kept_of_part hp fun q hq => by cases q <;> simp_all [agree]

@[simp] theorem kept_stampNow (hp : .stamp ∈ ps) : keptBut s₀ (stampNow s) ps ↔ keptBut s₀ s ps :=
  kept_of_part hp fun q hq => by cases q <;> simp_all [agree]

/-! ### Ops -/

@[simp] theorem kept_advanceTo (t : Nat) (hp : .gtc ∈ ps ∧ .stamp ∈ ps) : keptBut s₀ (advanceTo t s) ps ↔ keptBut s₀ s ps :=
  kept_of_parts (by simp [hp]) (qs := [.gtc, .stamp]) fun q hq => by cases q <;> simp_all [agree]

@[simp] theorem kept_toNextTick (hp : .gtc ∈ ps ∧ .stamp ∈ ps) : keptBut s₀ (toNextTick s) ps ↔ keptBut s₀ s ps :=
  kept_of_parts (by simp [hp]) (qs := [.gtc, .stamp]) fun q hq => by cases q <;> simp_all [agree, toNextTick]

@[simp] theorem kept_nextTickAfter (t : Nat) (hp : .gtc ∈ ps ∧ .stamp ∈ ps) : keptBut s₀ (nextTickAfter t s) ps ↔ keptBut s₀ s ps :=
  kept_of_parts (by simp [hp]) (qs := [.gtc, .stamp]) fun q hq => by cases q <;> simp_all [agree, nextTickAfter]

@[simp] theorem kept_fset (f : Fld) (i : Nat) (hp : .regs ∈ ps) :
    keptBut s₀ (fset f i s) ps ↔ keptBut s₀ s ps := by
  simp [fset, hp]
@[simp] theorem kept_fclr (f : Fld) (i : Nat) (hp : .regs ∈ ps) :
    keptBut s₀ (fclr f i s) ps ↔ keptBut s₀ s ps := by
  simp [fclr, hp]
@[simp] theorem kept_fbit (f : Fld) (i : Nat) (b : Bool) (hp : .regs ∈ ps) :
    keptBut s₀ (fbit f i b s) ps ↔ keptBut s₀ s ps := by
  simp [fbit, hp]
@[simp] theorem kept_fadd (f : Fld) (i n : Nat) (hp : .regs ∈ ps) :
    keptBut s₀ (fadd f i n s) ps ↔ keptBut s₀ s ps := by
  simp [fadd, hp]
@[simp] theorem kept_finc (f : Fld) (i : Nat) (hp : .regs ∈ ps) :
    keptBut s₀ (finc f i s) ps ↔ keptBut s₀ s ps := by
  simp [finc, hp]
@[simp] theorem kept_fhigh (f : Fld) (i v : Nat) (hp : .regs ∈ ps) :
    keptBut s₀ (fhigh f i v s) ps ↔ keptBut s₀ s ps := by
  simp [fhigh, hp]
@[simp] theorem kept_resetCoreRegs (hp : .regs ∈ ps) : keptBut s₀ (resetCoreRegs s) ps ↔ keptBut s₀ s ps :=
  kept_of_part hp fun q hq => by cases q <;> simp_all [agree, resetCoreRegs]

@[simp] theorem kept_ringOut (type : Nat) (payload : Nat) (hp : .outbox ∈ ps) :
    keptBut s₀ (ringOut type payload s) ps ↔ keptBut s₀ s ps := by
  simp [ringOut, hp]
@[simp] theorem kept_land (type cls source flags : Nat) (fixed : Option (List Nat)) (hp : .rcd ∈ ps) :
    keptBut s₀ (land type cls source flags fixed s) ps ↔ keptBut s₀ s ps := by
  simp [land, hp]
@[simp] theorem kept_msix (v : Nat) (hp : .outbox ∈ ps) :
    keptBut s₀ (msix v s) ps ↔ keptBut s₀ s ps := by
  simp [msix, hp]
@[simp] theorem kept_postEvent (log kind sub dpa cls source : Nat) (hp : .host ∈ ps ∧ .rcd ∈ ps ∧ .outbox ∈ ps) :
    keptBut s₀ (postEvent log kind sub dpa cls source s) ps ↔ keptBut s₀ s ps := by
  simp [postEvent, hp]
@[simp] theorem kept_postModule (log sub cls source : Nat) (hp : .host ∈ ps ∧ .rcd ∈ ps ∧ .outbox ∈ ps) :
    keptBut s₀ (postModule log sub cls source s) ps ↔ keptBut s₀ s ps := by
  simp [postModule, hp]
@[simp] theorem kept_postOrQueue (log kind sub dpa cls source : Nat) (hp : .host ∈ ps ∧ .rcd ∈ ps ∧ .outbox ∈ ps) :
    keptBut s₀ (postOrQueue log kind sub dpa cls source s) ps ↔ keptBut s₀ s ps := by
  simp [postOrQueue, hp]
@[simp] theorem kept_addPoison (dpa len source : Nat) (hp : .host ∈ ps) :
    keptBut s₀ (addPoison dpa len source s) ps ↔ keptBut s₀ s ps := by
  simp [addPoison, hp]
@[simp] theorem kept_addPoisonLine (line source : Nat) (hp : .host ∈ ps) :
    keptBut s₀ (addPoisonLine line source s) ps ↔ keptBut s₀ s ps := by
  simp [addPoisonLine, hp]

/-! ### Store -/

@[simp] theorem kept_touchPage (p : Nat) (hp : .sbg ∈ ps) :
    keptBut s₀ (touchPage p s) ps ↔ keptBut s₀ s ps := by
  simp [touchPage, hp]
@[simp] theorem kept_sbPut (a : Nat) (bs : List Byte) (hp : .sbg ∈ ps) :
    keptBut s₀ (sbPut a bs s) ps ↔ keptBut s₀ s ps := by
  simp [sbPut, hp]
@[simp] theorem kept_sbPutWrap (p off : Nat) (bs : List Byte) (hp : .sbg ∈ ps) :
    keptBut s₀ (sbPutWrap p off bs s) ps ↔ keptBut s₀ s ps := by
  simp [sbPutWrap, hp]
@[simp] theorem kept_sbRequest (p : Nat) (hp : .sbg ∈ ps) :
    keptBut s₀ (sbRequest p s) ps ↔ keptBut s₀ s ps := by
  simp [sbRequest, hp]
@[simp] theorem kept_sbStore (a : Nat) (bs : List Byte) (hp : .sbg ∈ ps) :
    keptBut s₀ (sbStore a bs s) ps ↔ keptBut s₀ s ps := by
  simp [sbStore, hp]
@[simp] theorem kept_ctrWrite (addr body : Nat) (hp : .sbg ∈ ps) :
    keptBut s₀ (ctrWrite addr body s) ps ↔ keptBut s₀ s ps := by
  unfold ctrWrite
  split <;> simp [hp]
@[simp] theorem kept_noteOdd (a b : Option Nat) (hp : .regs ∈ ps) :
    keptBut s₀ (noteOdd a b s) ps ↔ keptBut s₀ s ps := by
  unfold noteOdd
  split <;> simp [hp]
@[simp] theorem kept_ctrCheck (addr : Nat) (hp : .regs ∈ ps) :
    keptBut s₀ (ctrCheck addr s) ps ↔ keptBut s₀ s ps := by
  simp [ctrCheck, hp]
@[simp] theorem kept_ctrUpdate (addr body : Nat) (hp : .sbg ∈ ps) :
    keptBut s₀ (ctrUpdate addr body s) ps ↔ keptBut s₀ s ps := by
  simp [ctrUpdate, hp]
@[simp] theorem kept_ctrResume (page : Nat) (hp : .sbg ∈ ps) :
    keptBut s₀ (ctrResume page s) ps ↔ keptBut s₀ s ps := by
  simp [ctrResume, hp]
@[simp] theorem kept_loadReg (r : RegDef) (i : Nat) (hp : .regs ∈ ps) :
    keptBut s₀ (loadReg r i s) ps ↔ keptBut s₀ s ps := by
  unfold loadReg
  split <;> simp [hp]
@[simp] theorem kept_loadRegAll (r : RegDef) (hp : .regs ∈ ps) :
    keptBut s₀ (loadRegAll r s) ps ↔ keptBut s₀ s ps := by
  simp [loadRegAll, hp]

/-! ### Cache -/

@[simp] theorem kept_setWay (loc : Nat) (w : Way) (hp : .cache ∈ ps) :
    keptBut s₀ (setWay loc w s) ps ↔ keptBut s₀ s ps := by
  simp [setWay, hp]
@[simp] theorem kept_setOvf (loc : Nat) (o : OvfSlot) (hp : .cache ∈ ps) :
    keptBut s₀ (setOvf loc o s) ps ↔ keptBut s₀ s ps := by
  simp [setOvf, hp]
@[simp] theorem kept_setDir (loc : Nat) (d : DirEntry) (hp : .cache ∈ ps) :
    keptBut s₀ (setDir loc d s) ps ↔ keptBut s₀ s ps := by
  simp [setDir, hp]
@[simp] theorem kept_setLoc (loc : Nat) (sv sp : BitVec 4) (data : Line) (hp : .cache ∈ ps) :
    keptBut s₀ (setLoc loc sv sp data s) ps ↔ keptBut s₀ s ps := by
  simp [setLoc, hp]
@[simp] theorem kept_useWay (loc : Nat) (hp : .cache ∈ ps) :
    keptBut s₀ (useWay loc s) ps ↔ keptBut s₀ s ps := by
  simp [useWay, hp]
@[simp] theorem kept_placeWay (loc line : Nat) (sv sp : BitVec 4) (pin : Bool) (data : Line) (hp : .cache ∈ ps) :
    keptBut s₀ (placeWay loc line sv sp pin data s) ps ↔ keptBut s₀ s ps := by
  simp [placeWay, hp]
@[simp] theorem kept_placeOvf (loc line : Nat) (sv sp : BitVec 4) (pin : Bool) (data : Line) (hp : .cache ∈ ps) :
    keptBut s₀ (placeOvf loc line sv sp pin data s) ps ↔ keptBut s₀ s ps := by
  simp [placeOvf, hp]
@[simp] theorem kept_makeDirty (loc : Nat) (hp : .cache ∈ ps) :
    keptBut s₀ (makeDirty loc s) ps ↔ keptBut s₀ s ps := by
  unfold makeDirty
  repeat' split
  all_goals simp [hp]
@[simp] theorem kept_pinLoc (loc : Nat) (hp : .cache ∈ ps) :
    keptBut s₀ (pinLoc loc s) ps ↔ keptBut s₀ s ps := by
  simp [pinLoc, hp]
@[simp] theorem kept_dropLoc (loc : Nat) (hp : .cache ∈ ps) :
    keptBut s₀ (dropLoc loc s) ps ↔ keptBut s₀ s ps := by
  unfold dropLoc
  split <;> simp [hp]
@[simp] theorem kept_makeClean (loc : Nat) (hp : .cache ∈ ps) :
    keptBut s₀ (makeClean loc s) ps ↔ keptBut s₀ s ps := by
  simp [makeClean, hp]
@[simp] theorem kept_retarget (loc new : Nat) (hp : .sched ∈ ps) :
    keptBut s₀ (retarget loc new s) ps ↔ keptBut s₀ s ps := by
  simp [retarget, hp]
@[simp] theorem kept_moveOvf (loc : Nat) (hp : .cache ∈ ps ∧ .sched ∈ ps) :
    keptBut s₀ (moveOvf loc s) ps ↔ keptBut s₀ s ps := by
  simp only [moveOvf]
  repeat' split
  all_goals simp [hp]
@[simp] theorem kept_moveOvfs (hp : .cache ∈ ps ∧ .sched ∈ ps) :
    keptBut s₀ (moveOvfs s) ps ↔ keptBut s₀ s ps := by
  simp [moveOvfs, hp]
@[simp] theorem kept_stopFlush (hp : .regs ∈ ps ∧ .cache ∈ ps) :
    keptBut s₀ (stopFlush s) ps ↔ keptBut s₀ s ps := by
  simp [stopFlush, hp]
@[simp] theorem kept_endFlush (hp : .regs ∈ ps ∧ .cache ∈ ps) :
    keptBut s₀ (endFlush s) ps ↔ keptBut s₀ s ps := by
  simp [endFlush, hp]
@[simp] theorem kept_lastErr (loc kind : Nat) (hp : .regs ∈ ps) :
    keptBut s₀ (lastErr loc kind s) ps ↔ keptBut s₀ s ps := by
  simp [lastErr, hp]

/-! ### Bus -/

@[simp] theorem kept_sendPacket (w d : Nat) (p : MmbPacket) (data : List Byte) (hp : .med ∈ ps ∧ .outbox ∈ ps) :
    keptBut s₀ (sendPacket w d p data s) ps ↔ keptBut s₀ s ps := by
  simp [sendPacket, hp]
@[simp] theorem kept_sendAgain (n id : Nat) (hp : .med ∈ ps ∧ .outbox ∈ ps) :
    keptBut s₀ (sendAgain n id s) ps ↔ keptBut s₀ s ps := by
  unfold sendAgain
  split <;> simp [hp]
@[simp] theorem kept_sendOp (op : Nat) (d : Desc) (hp : .med ∈ ps ∧ .outbox ∈ ps) :
    keptBut s₀ (sendOp op d s) ps ↔ keptBut s₀ s ps := by
  simp [sendOp, hp]
@[simp] theorem kept_sendDie (op w d bank row arg : Nat) (hp : .med ∈ ps ∧ .outbox ∈ ps) :
    keptBut s₀ (sendDie op w d bank row arg s) ps ↔ keptBut s₀ s ps := by
  simp [sendDie, hp]
@[simp] theorem kept_sendReload (w d band : Nat) (hp : .regs ∈ ps ∧ .med ∈ ps ∧ .outbox ∈ ps) :
    keptBut s₀ (sendReload w d band s) ps ↔ keptBut s₀ s ps := by
  simp [sendReload, hp]
@[simp] theorem kept_useBus (w len : Nat) (hp : .sched ∈ ps) :
    keptBut s₀ (useBus w len s) ps ↔ keptBut s₀ s ps := by
  simp [useBus, hp]
@[simp] theorem kept_sendWait (x : DieWait) (hp : .regs ∈ ps ∧ .sched ∈ ps ∧ .med ∈ ps ∧ .outbox ∈ ps) :
    keptBut s₀ (sendWait x s) ps ↔ keptBut s₀ s ps := by
  cases hb : x.band <;> simp [sendWait, hb, hp]

@[simp] theorem kept_sendWaits (hp : .regs ∈ ps ∧ .sched ∈ ps ∧ .med ∈ ps ∧ .outbox ∈ ps) :
    keptBut s₀ (sendWaits s) ps ↔ keptBut s₀ s ps := by
  simp [sendWaits, hp]
@[simp] theorem kept_wantReload (w d band : Nat) (hp : .med ∈ ps) :
    keptBut s₀ (wantReload w d band s) ps ↔ keptBut s₀ s ps := by
  simp [wantReload, hp]

/-! ### Sched -/

@[simp] theorem kept_onBank (n : Nat) (f : BankSt → BankSt) (hp : .sched ∈ ps) :
    keptBut s₀ (onBank n f s) ps ↔ keptBut s₀ s ps := by
  simp [onBank, hp]
@[simp] theorem kept_enqueue (d : Desc) (hp : .regs ∈ ps ∧ .sched ∈ ps) :
    keptBut s₀ (enqueue d s) ps ↔ keptBut s₀ s ps := by
  unfold enqueue
  split <;> simp [hp]
@[simp] theorem kept_feedWait (hp : .regs ∈ ps ∧ .sched ∈ ps) :
    keptBut s₀ (feedWait s) ps ↔ keptBut s₀ s ps := by
  simp [feedWait, hp]
@[simp] theorem kept_requeue (d : Desc) (hp : .sched ∈ ps) :
    keptBut s₀ (requeue d s) ps ↔ keptBut s₀ s ps := by
  simp [requeue, hp]
@[simp] theorem kept_unqueue (id : Nat) (hp : .sched ∈ ps) :
    keptBut s₀ (unqueue id s) ps ↔ keptBut s₀ s ps := by
  simp [unqueue, hp]
@[simp] theorem kept_freeBank (n : Nat) (hp : .regs ∈ ps ∧ .sched ∈ ps ∧ .med ∈ ps ∧ .outbox ∈ ps) :
    keptBut s₀ (freeBank n s) ps ↔ keptBut s₀ s ps := by
  simp only [freeBank]
  repeat' split
  all_goals simp [hp]
@[simp] theorem kept_onCtx (tag : BitVec 16) (f : Ctx → Ctx) (hp : .sched ∈ ps) :
    keptBut s₀ (onCtx tag f s) ps ↔ keptBut s₀ s ps := by
  simp [onCtx, hp]
@[simp] theorem kept_freeCtx (tag : BitVec 16) (hp : .sched ∈ ps) :
    keptBut s₀ (freeCtx tag s) ps ↔ keptBut s₀ s ps := by
  simp [freeCtx, hp]
@[simp] theorem kept_addCtx (c : Ctx) (hp : .regs ∈ ps ∧ .sched ∈ ps) :
    keptBut s₀ (addCtx c s) ps ↔ keptBut s₀ s ps := by
  simp [addCtx, hp]
@[simp] theorem kept_enqueueDemand (tag : BitVec 16) (hp : .regs ∈ ps ∧ .sched ∈ ps ∧ .med ∈ ps ∧ .outbox ∈ ps) :
    keptBut s₀ (enqueueDemand tag s) ps ↔ keptBut s₀ s ps := by
  simp only [enqueueDemand]
  repeat' split
  all_goals simp [hp]
@[simp] theorem kept_admitWaiters (n : Nat) (hp : .regs ∈ ps ∧ .sched ∈ ps ∧ .med ∈ ps ∧ .outbox ∈ ps) :
    keptBut s₀ (admitWaiters n s) ps ↔ keptBut s₀ s ps := by
  simp [admitWaiters, hp]
@[simp] theorem kept_bookWindow (tag : BitVec 16) (n ready : Nat) (hp : .regs ∈ ps ∧ .sched ∈ ps) :
    keptBut s₀ (bookWindow tag n ready s) ps ↔ keptBut s₀ s ps := by
  simp [bookWindow, hp]
@[simp] theorem kept_dispatchDemand (tag : BitVec 16) (d : Desc) (hp : .regs ∈ ps ∧ .sched ∈ ps ∧ .med ∈ ps ∧ .outbox ∈ ps) :
    keptBut s₀ (dispatchDemand tag d s) ps ↔ keptBut s₀ s ps := by
  simp [dispatchDemand, hp]
@[simp] theorem kept_useBg (w : Nat) (hp : .sched ∈ ps) :
    keptBut s₀ (useBg w s) ps ↔ keptBut s₀ s ps := by
  simp [useBg, hp]
@[simp] theorem kept_engineUsed (g : Nat) (hp : .sched ∈ ps) :
    keptBut s₀ (engineUsed g s) ps ↔ keptBut s₀ s ps := by
  simp [engineUsed, hp]
@[simp] theorem kept_carry (d : Desc) (hp : .sched ∈ ps) :
    keptBut s₀ (carry d s) ps ↔ keptBut s₀ s ps := by
  unfold carry
  split <;> simp [hp]
@[simp] theorem kept_admitWork (c : Cand) (hp : .regs ∈ ps ∧ .sched ∈ ps ∧ .med ∈ ps ∧ .outbox ∈ ps) :
    keptBut s₀ (admitWork c s) ps ↔ keptBut s₀ s ps := by
  simp only [admitWork]
  repeat' split
  all_goals simp [hp]
@[simp] theorem kept_admitAll (hp : .regs ∈ ps ∧ .sched ∈ ps ∧ .med ∈ ps ∧ .outbox ∈ ps) :
    keptBut s₀ (admitAll s) ps ↔ keptBut s₀ s ps := by
  simp [admitAll, hp]
@[simp] theorem kept_startProgram (fill : State → Desc → Desc) (n : Nat) (hp : .sched ∈ ps ∧ .med ∈ ps ∧ .outbox ∈ ps) :
    keptBut s₀ (startProgram fill n s) ps ↔ keptBut s₀ s ps := by
  unfold startProgram
  split <;> simp [hp]
@[simp] theorem kept_startBankOp (n : Nat) (hp : .sched ∈ ps ∧ .med ∈ ps ∧ .outbox ∈ ps) :
    keptBut s₀ (startBankOp n s) ps ↔ keptBut s₀ s ps := by
  unfold startBankOp
  split <;> simp [hp]
@[simp] theorem kept_gatesWith (fill : State → Desc → Desc) (hp : .regs ∈ ps ∧ .sched ∈ ps ∧ .med ∈ ps ∧ .outbox ∈ ps) :
    keptBut s₀ (gatesWith fill s) ps ↔ keptBut s₀ s ps := by
  simp [gatesWith, hp]
@[simp] theorem kept_turnEngines (hp : .sched ∈ ps) :
    keptBut s₀ (turnEngines s) ps ↔ keptBut s₀ s ps := by
  simp [turnEngines, hp]
@[simp] theorem kept_takeJob (g : Nat) (hp : .regs ∈ ps ∧ .sched ∈ ps) :
    keptBut s₀ (takeJob g s) ps ↔ keptBut s₀ s ps := by
  unfold takeJob
  split <;> simp [hp]
@[simp] theorem kept_draftOne (g : Nat) (acc : State × List (Nat × Nat)) (hp : .regs ∈ ps ∧ .sched ∈ ps) :
    keptBut s₀ (draftOne g acc).1 ps ↔ keptBut s₀ acc.1 ps := by
  unfold draftOne
  split <;> simp [hp]

theorem kept_draftOnes (gs : List Nat) (acc : State × List (Nat × Nat)) (hp : .regs ∈ ps ∧ .sched ∈ ps) :
    keptBut s₀ (gs.foldl (fun acc g => draftOne g acc) acc).1 ps ↔ keptBut s₀ acc.1 ps := by
  induction gs generalizing acc with
  | nil => rfl
  | cons g gs ih => rw [List.foldl_cons, ih, kept_draftOne g acc hp]

@[simp] theorem kept_draftWheel (w : Nat) (hp : .regs ∈ ps ∧ .sched ∈ ps) : keptBut s₀ (draftWheel w s) ps ↔ keptBut s₀ s ps := by
  simp only [draftWheel, kept_draftOnes _ _ hp]

@[simp] theorem kept_draftAll (hp : .regs ∈ ps ∧ .sched ∈ ps) :
    keptBut s₀ (draftAll s) ps ↔ keptBut s₀ s ps := by
  simp [draftAll, hp]
@[simp] theorem kept_pruneDrafts (hp : .sched ∈ ps) :
    keptBut s₀ (pruneDrafts s) ps ↔ keptBut s₀ s ps := by
  simp [pruneDrafts, hp]
@[simp] theorem kept_dropUnstarted (hp : .sched ∈ ps ∧ .med ∈ ps) :
    keptBut s₀ (dropUnstarted s) ps ↔ keptBut s₀ s ps := by
  simp [dropUnstarted, hp]

end

end Sys2Proof.Machine
end

section
/-! SUPPORT. Footprints of the operations: media, tandem, host, converters and rails. -/
namespace Sys2Proof.Machine
set_option Elab.async false
section
variable {s₀ s : State} {ps : List Part}

/-! ### Media -/

@[simp] theorem kept_programLine (d : Desc) (hp : .med ∈ ps) :
    keptBut s₀ (programLine d s) ps ↔ keptBut s₀ s ps := by
  simp [programLine, hp]
@[simp] theorem kept_clearRow (ma : Nat) (hp : .med ∈ ps) :
    keptBut s₀ (clearRow ma s) ps ↔ keptBut s₀ s ps := by
  simp [clearRow, hp]
@[simp] theorem kept_clearDie (w d : Nat) (hp : .med ∈ ps) :
    keptBut s₀ (clearDie w d s) ps ↔ keptBut s₀ s ps := by
  simp [clearDie, hp]
@[simp] theorem kept_learn (w d band bucket bd : Nat) (advance : Bool) (hp : .regs ∈ ps ∧ .med ∈ ps) :
    keptBut s₀ (learn w d band bucket bd advance s) ps ↔ keptBut s₀ s ps := by
  simp [learn, hp]
@[simp] theorem kept_countSoft (w d band bucket bd : Nat) (n : SoftCount) (hp : .regs ∈ ps ∧ .med ∈ ps) :
    keptBut s₀ (countSoft w d band bucket bd n s) ps ↔ keptBut s₀ s ps := by
  simp [countSoft, hp]
@[simp] theorem kept_pushSoft (ma : Nat) (m : SoftMap) (hp : .sched ∈ ps) :
    keptBut s₀ (pushSoft ma m s) ps ↔ keptBut s₀ s ps := by
  simp [pushSoft, hp]
@[simp] theorem kept_learnAll (hp : .regs ∈ ps ∧ .med ∈ ps) :
    keptBut s₀ (learnAll s) ps ↔ keptBut s₀ s ps := by
  simp [learnAll, hp]
@[simp] theorem kept_storePtr (r : Nat) (hp : .sbg ∈ ps) :
    keptBut s₀ (storePtr r s) ps ↔ keptBut s₀ s ps := by
  simp [storePtr, hp]
@[simp] theorem kept_dropOps (hit : Desc → Bool) (hp : .sched ∈ ps) :
    keptBut s₀ (dropOps hit s) ps ↔ keptBut s₀ s ps := by
  simp [dropOps, hp]
@[simp] theorem kept_dropSlotWrites (r slot : Nat) (hp : .sched ∈ ps ∧ .med ∈ ps) :
    keptBut s₀ (dropSlotWrites r slot s) ps ↔ keptBut s₀ s ps := by
  simp [dropSlotWrites, hp]
@[simp] theorem kept_advancePtr (r : Nat) (hp : .med ∈ ps) :
    keptBut s₀ (advancePtr r s) ps ↔ keptBut s₀ s ps := by
  simp [advancePtr, hp]
@[simp] theorem kept_countLife (w : Nat) (hp : .med ∈ ps ∧ .sbg ∈ ps) :
    keptBut s₀ (countLife w s) ps ↔ keptBut s₀ s ps := by
  simp [countLife, hp]
@[simp] theorem kept_queueGap (r : Nat) (hp : .sched ∈ ps ∧ .med ∈ ps) :
    keptBut s₀ (queueGap r s) ps ↔ keptBut s₀ s ps := by
  simp [queueGap, hp]
@[simp] theorem kept_owedGaps (hp : .sched ∈ ps ∧ .med ∈ ps) :
    keptBut s₀ (owedGaps s) ps ↔ keptBut s₀ s ps := by
  simp [owedGaps, hp]
@[simp] theorem kept_countWrite (r : Nat) (hp : .sched ∈ ps ∧ .med ∈ ps) :
    keptBut s₀ (countWrite r s) ps ↔ keptBut s₀ s ps := by
  simp [countWrite, hp]
@[simp] theorem kept_jobEffect (j : Job) (hp : .regs ∈ ps ∧ .sched ∈ ps ∧ .med ∈ ps) :
    keptBut s₀ (jobEffect j s) ps ↔ keptBut s₀ s ps := by
  unfold jobEffect
  split <;> simp [hp]
@[simp] theorem kept_hubWorks (hp : .regs ∈ ps ∧ .sched ∈ ps ∧ .med ∈ ps) :
    keptBut s₀ (hubWorks s) ps ↔ keptBut s₀ s ps := by
  simp [hubWorks, hp]
@[simp] theorem kept_feedGap (r : Nat) (g : GapMove) (hp : .regs ∈ ps ∧ .sched ∈ ps) :
    keptBut s₀ (feedGap r g s) ps ↔ keptBut s₀ s ps := by
  simp [feedGap, hp]
@[simp] theorem kept_clearCopy (e ma : Nat) (hp : .med ∈ ps) :
    keptBut s₀ (clearCopy e ma s) ps ↔ keptBut s₀ s ps := by
  simp [clearCopy, hp]
@[simp] theorem kept_clearMoved (r : Nat) (g : GapMove) (hp : .med ∈ ps) :
    keptBut s₀ (clearMoved r g s) ps ↔ keptBut s₀ s ps := by
  simp [clearMoved, hp]
@[simp] theorem kept_setGap (r : Nat) (g : GapMove) (hp : .med ∈ ps) :
    keptBut s₀ (setGap r g s) ps ↔ keptBut s₀ s ps := by
  simp [setGap, hp]
@[simp] theorem kept_gapFinish (r : Nat) (hp : .med ∈ ps ∧ .sbg ∈ ps) :
    keptBut s₀ (gapFinish r s) ps ↔ keptBut s₀ s ps := by
  unfold gapFinish
  split <;> simp [hp]
@[simp] theorem kept_gapPrograms (r : Nat) (hp : .regs ∈ ps ∧ .sched ∈ ps ∧ .med ∈ ps ∧ .sbg ∈ ps) :
    keptBut s₀ (gapPrograms r s) ps ↔ keptBut s₀ s ps := by
  unfold gapPrograms
  split <;> simp [hp]
@[simp] theorem kept_gapSensed (r k : Nat) (copy : Option Desc) (hp : .regs ∈ ps ∧ .sched ∈ ps ∧ .med ∈ ps ∧ .sbg ∈ ps) :
    keptBut s₀ (gapSensed r k copy s) ps ↔ keptBut s₀ s ps := by
  simp only [gapSensed]
  repeat' split
  all_goals simp [hp]
@[simp] theorem kept_gapCleared (r : Nat) (hp : .regs ∈ ps ∧ .sched ∈ ps ∧ .med ∈ ps ∧ .sbg ∈ ps) :
    keptBut s₀ (gapCleared r s) ps ↔ keptBut s₀ s ps := by
  unfold gapCleared
  split <;> simp [hp]
@[simp] theorem kept_gapLineDone (r k : Nat) (hp : .med ∈ ps ∧ .sbg ∈ ps) :
    keptBut s₀ (gapLineDone r k s) ps ↔ keptBut s₀ s ps := by
  unfold gapLineDone
  split <;> simp [hp]
@[simp] theorem kept_gapRestart (stage : GapStage) (r : Nat) (hp : .med ∈ ps) :
    keptBut s₀ (gapRestart stage r s) ps ↔ keptBut s₀ s ps := by
  unfold gapRestart
  split <;> simp [hp]
@[simp] theorem kept_freeMove (r : Nat) (hp : .sched ∈ ps ∧ .med ∈ ps ∧ .outbox ∈ ps) :
    keptBut s₀ (freeMove r s) ps ↔ keptBut s₀ s ps := by
  simp [freeMove, hp]
theorem kept_freeMoves (r n : Nat) (s : State) (hp : .sched ∈ ps ∧ .med ∈ ps ∧ .outbox ∈ ps) :
    keptBut s₀ (freeMoves r n s) ps ↔ keptBut s₀ s ps := by
  induction n generalizing s with
  | zero => rfl
  | succ n ih =>
    simp only [freeMoves]
    split <;> simp [hp, ih]

@[simp] theorem kept_freePass (r : Nat) (hp : .sched ∈ ps ∧ .med ∈ ps ∧ .sbg ∈ ps ∧ .outbox ∈ ps) :
    keptBut s₀ (freePass r s) ps ↔ keptBut s₀ s ps := by
  simp only [freePass]
  split
  · rfl
  · split
    · split
      · rfl
      · split <;> simp [hp, kept_freeMoves]
    · split <;> simp [hp, kept_freeMoves]

@[simp] theorem kept_freePassAll (hp : .sched ∈ ps ∧ .med ∈ ps ∧ .sbg ∈ ps ∧ .outbox ∈ ps) :
    keptBut s₀ (freePassAll s) ps ↔ keptBut s₀ s ps := by
  refine kept_forEach (fun w u => ?_) _
  split
  · refine (kept_forEach (fun r v => ?_) _).mpr (keptBut_refl u ps)
    split <;> simp [hp]
  · exact keptBut_refl u ps

@[simp] theorem kept_gapStored (r : Nat) (hp : .med ∈ ps ∧ .sbg ∈ ps) :
    keptBut s₀ (gapStored r s) ps ↔ keptBut s₀ s ps := by
  simp [gapStored, hp]
@[simp] theorem kept_journalAppend (e : XEntry) (hp : .med ∈ ps ∧ .sbg ∈ ps) :
    keptBut s₀ (journalAppend e s) ps ↔ keptBut s₀ s ps := by
  simp [journalAppend, hp]
@[simp] theorem kept_journalRewrite (js : List XEntry) (hp : .med ∈ ps ∧ .sbg ∈ ps) :
    keptBut s₀ (journalRewrite js s) ps ↔ keptBut s₀ s ps := by
  simp [journalRewrite, hp]
@[simp] theorem kept_pinDead (r slot : Nat) (hp : .cache ∈ ps ∧ .sched ∈ ps) :
    keptBut s₀ (pinDead r slot s) ps ↔ keptBut s₀ s ps := by
  simp [pinDead, hp]
@[simp] theorem kept_makeDead (r slot : Nat)
    (hp : .host ∈ ps ∧ .cache ∈ ps ∧ .sched ∈ ps ∧ .med ∈ ps ∧ .rcd ∈ ps ∧ .sbg ∈ ps ∧ .outbox ∈ ps) :
    keptBut s₀ (makeDead r slot s) ps ↔ keptBut s₀ s ps := by
  simp [makeDead, hp]
@[simp] theorem kept_retireJournal (hp : .med ∈ ps ∧ .sbg ∈ ps) :
    keptBut s₀ (retireJournal s) ps ↔ keptBut s₀ s ps := by
  unfold retireJournal
  split <;> simp [hp]
@[simp] theorem kept_retireLineDone (k : Nat) (hp : .med ∈ ps ∧ .sbg ∈ ps) :
    keptBut s₀ (retireLineDone k s) ps ↔ keptBut s₀ s ps := by
  unfold retireLineDone
  split <;> simp [hp]
@[simp] theorem kept_beginRetire (r slot : Nat) (gapTarget : Bool)
    (hp : .regs ∈ ps ∧ .host ∈ ps ∧ .cache ∈ ps ∧ .sched ∈ ps ∧ .med ∈ ps ∧ .rcd ∈ ps ∧ .sbg ∈ ps ∧ .outbox ∈ ps) :
    keptBut s₀ (beginRetire r slot gapTarget s) ps ↔ keptBut s₀ s ps := by
  unfold beginRetire
  split <;> simp [hp]
@[simp] theorem kept_startRetire (r slot : Nat) (gapTarget : Bool)
    (hp : .regs ∈ ps ∧ .host ∈ ps ∧ .cache ∈ ps ∧ .sched ∈ ps ∧ .med ∈ ps ∧ .rcd ∈ ps ∧ .sbg ∈ ps ∧ .outbox ∈ ps) :
    keptBut s₀ (startRetire r slot gapTarget s) ps ↔ keptBut s₀ s ps := by
  unfold startRetire
  repeat' split
  all_goals simp [hp]
@[simp] theorem kept_nextRetire
    (hp : .regs ∈ ps ∧ .host ∈ ps ∧ .cache ∈ ps ∧ .sched ∈ ps ∧ .med ∈ ps ∧ .rcd ∈ ps ∧ .sbg ∈ ps ∧ .outbox ∈ ps) :
    keptBut s₀ (nextRetire s) ps ↔ keptBut s₀ s ps := by
  unfold nextRetire
  split <;> simp [hp]
@[simp] theorem kept_retireAgain
    (hp : .regs ∈ ps ∧ .host ∈ ps ∧ .cache ∈ ps ∧ .sched ∈ ps ∧ .med ∈ ps ∧ .rcd ∈ ps ∧ .sbg ∈ ps ∧ .outbox ∈ ps) :
    keptBut s₀ (retireAgain s) ps ↔ keptBut s₀ s ps := by
  unfold retireAgain
  split <;> simp [hp]
@[simp] theorem kept_feedRetire
    (hp : .regs ∈ ps ∧ .host ∈ ps ∧ .cache ∈ ps ∧ .sched ∈ ps ∧ .med ∈ ps ∧ .rcd ∈ ps ∧ .sbg ∈ ps ∧ .outbox ∈ ps) :
    keptBut s₀ (feedRetire s) ps ↔ keptBut s₀ s ps := by
  unfold feedRetire
  split <;> simp [hp]
@[simp] theorem kept_retireSwitch
    (hp : .regs ∈ ps ∧ .host ∈ ps ∧ .cache ∈ ps ∧ .sched ∈ ps ∧ .med ∈ ps ∧ .rcd ∈ ps ∧ .sbg ∈ ps ∧ .outbox ∈ ps) :
    keptBut s₀ (retireSwitch s) ps ↔ keptBut s₀ s ps := by
  unfold retireSwitch
  split <;> simp [hp]
theorem kept_feedClr (e n : Nat) (s : State) (hp : .regs ∈ ps ∧ .sched ∈ ps ∧ .med ∈ ps) :
    keptBut s₀ (feedClr e n s) ps ↔ keptBut s₀ s ps := by
  induction n generalizing s with
  | zero => rfl
  | succ n ih =>
    simp only [feedClr]
    split <;> simp [hp, ih]

@[simp] theorem kept_feedClrs (hp : .regs ∈ ps ∧ .sched ∈ ps ∧ .med ∈ ps) : keptBut s₀ (feedClrs s) ps ↔ keptBut s₀ s ps := by
  simp [feedClrs, hp, kept_feedClr]

@[simp] theorem kept_queueClrs (e : Nat) (hp : .sched ∈ ps ∧ .med ∈ ps) :
    keptBut s₀ (queueClrs e s) ps ↔ keptBut s₀ s ps := by
  simp [queueClrs, hp]
@[simp] theorem kept_clrDone (e : Nat) (hp : .med ∈ ps) :
    keptBut s₀ (clrDone e s) ps ↔ keptBut s₀ s ps := by
  simp [clrDone, hp]
@[simp] theorem kept_clearDies (hp : .sched ∈ ps ∧ .med ∈ ps ∧ .outbox ∈ ps) :
    keptBut s₀ (clearDies s) ps ↔ keptBut s₀ s ps := by
  simp [clearDies, hp]
@[simp] theorem kept_requeueClrs (hp : .sched ∈ ps ∧ .med ∈ ps ∧ .outbox ∈ ps) :
    keptBut s₀ (requeueClrs s) ps ↔ keptBut s₀ s ps := by
  simp [requeueClrs, hp]
@[simp] theorem kept_dieCleared (w d : Nat) (hp : .med ∈ ps) :
    keptBut s₀ (dieCleared w d s) ps ↔ keptBut s₀ s ps := by
  simp [dieCleared, hp]
@[simp] theorem kept_zeroLocked (line : Nat) (hp : .cache ∈ ps) :
    keptBut s₀ (zeroLocked line s) ps ↔ keptBut s₀ s ps := by
  unfold zeroLocked
  split <;> simp [hp]
@[simp] theorem kept_releaseLoc (e loc : Nat) (hp : .cache ∈ ps) :
    keptBut s₀ (releaseLoc e loc s) ps ↔ keptBut s₀ s ps := by
  simp [releaseLoc, hp]
@[simp] theorem kept_releaseLines (e : Nat) (hp : .cache ∈ ps ∧ .sched ∈ ps) :
    keptBut s₀ (releaseLines e s) ps ↔ keptBut s₀ s ps := by
  simp [releaseLines, hp]
@[simp] theorem kept_releaseExtent (e : Nat) (hp : .cache ∈ ps ∧ .sched ∈ ps ∧ .med ∈ ps) :
    keptBut s₀ (releaseExtent e s) ps ↔ keptBut s₀ s ps := by
  simp [releaseExtent, hp]
@[simp] theorem kept_takeCkptSeq (hp : .med ∈ ps ∧ .sbg ∈ ps) :
    keptBut s₀ (takeCkptSeq s) ps ↔ keptBut s₀ s ps := by
  simp [takeCkptSeq, hp]
@[simp] theorem kept_writeCkpt (kind area : Nat) (hp : .med ∈ ps) :
    keptBut s₀ (writeCkpt kind area s) ps ↔ keptBut s₀ s ps := by
  simp [writeCkpt, hp]
theorem kept_feedBody (x : CkptWrite) (c : Ckpt) (n : Nat) (s : State) (hp : .regs ∈ ps ∧ .sched ∈ ps ∧ .med ∈ ps) :
    keptBut s₀ (feedBody x c n s) ps ↔ keptBut s₀ s ps := by
  induction n generalizing s with
  | zero => rfl
  | succ n ih =>
    simp only [feedBody]
    split
    · rfl
    · split <;> simp [hp, ih]

@[simp] theorem kept_feedCkpt (hp : .regs ∈ ps ∧ .sched ∈ ps ∧ .med ∈ ps) : keptBut s₀ (feedCkpt s) ps ↔ keptBut s₀ s ps := by
  simp only [feedCkpt]
  split
  · rfl
  · split <;> simp [hp, kept_feedBody]

@[simp] theorem kept_bodyLineDone (slot : Nat) (hp : .med ∈ ps) :
    keptBut s₀ (bodyLineDone slot s) ps ↔ keptBut s₀ s ps := by
  unfold bodyLineDone
  split <;> simp [hp]
@[simp] theorem kept_dueCkpt (hp : .med ∈ ps) :
    keptBut s₀ (dueCkpt s) ps ↔ keptBut s₀ s ps := by
  simp [dueCkpt, hp]
@[simp] theorem kept_serviceCkpt (hp : .med ∈ ps ∧ .sbg ∈ ps) :
    keptBut s₀ (serviceCkpt s) ps ↔ keptBut s₀ s ps := by
  simp [serviceCkpt, hp]
@[simp] theorem kept_retireArea (hp : .med ∈ ps ∧ .sbg ∈ ps) :
    keptBut s₀ (retireArea s) ps ↔ keptBut s₀ s ps := by
  unfold retireArea
  split <;> simp [hp]
@[simp] theorem kept_feedPatrol (hp : .regs ∈ ps ∧ .sched ∈ ps) :
    keptBut s₀ (feedPatrol s) ps ↔ keptBut s₀ s ps := by
  unfold feedPatrol
  split <;> simp [hp]
@[simp] theorem kept_queueWriteBack (loc : Nat) (hp : .regs ∈ ps ∧ .sched ∈ ps) :
    keptBut s₀ (queueWriteBack loc s) ps ↔ keptBut s₀ s ps := by
  simp [queueWriteBack, hp]
@[simp] theorem kept_feedWriteBacks (hp : .regs ∈ ps ∧ .sched ∈ ps) :
    keptBut s₀ (feedWriteBacks s) ps ↔ keptBut s₀ s ps := by
  simp [feedWriteBacks, hp]
@[simp] theorem kept_gates (hp : .regs ∈ ps ∧ .sched ∈ ps ∧ .med ∈ ps ∧ .outbox ∈ ps) :
    keptBut s₀ (gates s) ps ↔ keptBut s₀ s ps := by
  simp [gates, hp]
@[simp] theorem kept_ackProgram (id : Nat) (hp : .sched ∈ ps) :
    keptBut s₀ (ackProgram id s) ps ↔ keptBut s₀ s ps := by
  simp [ackProgram, hp]
@[simp] theorem kept_dropStale (hp : .sched ∈ ps) :
    keptBut s₀ (dropStale s) ps ↔ keptBut s₀ s ps := by
  simp [dropStale, hp]
@[simp] theorem kept_lifeCheck (hp : .host ∈ ps ∧ .rcd ∈ ps ∧ .outbox ∈ ps) :
    keptBut s₀ (lifeCheck s) ps ↔ keptBut s₀ s ps := by
  simp [lifeCheck, hp]
@[simp] theorem kept_feedMedia
    (hp : .regs ∈ ps ∧ .host ∈ ps ∧ .cache ∈ ps ∧ .sched ∈ ps ∧ .med ∈ ps ∧ .rcd ∈ ps ∧ .sbg ∈ ps ∧ .outbox ∈ ps) :
    keptBut s₀ (feedMedia s) ps ↔ keptBut s₀ s ps := by
  simp [feedMedia, hp]

/-! ### Tandem -/

@[simp] theorem kept_storeTndState (hp : .sbg ∈ ps) :
    keptBut s₀ (storeTndState s) ps ↔ keptBut s₀ s ps := by
  simp [storeTndState, hp]
@[simp] theorem kept_setTnd (f : Fld) (v : Nat) (hp : .regs ∈ ps ∧ .sbg ∈ ps) :
    keptBut s₀ (setTnd f v s) ps ↔ keptBut s₀ s ps := by
  simp [setTnd, hp]
@[simp] theorem kept_holdOwn (hp : .regs ∈ ps ∧ .sbg ∈ ps) :
    keptBut s₀ (holdOwn s) ps ↔ keptBut s₀ s ps := by
  simp [holdOwn, hp]
@[simp] theorem kept_markDivergent (line : Nat) (hp : .regs ∈ ps ∧ .sbg ∈ ps ∧ .tnd ∈ ps) :
    keptBut s₀ (markDivergent line s) ps ↔ keptBut s₀ s ps := by
  simp [markDivergent, hp]
@[simp] theorem kept_sendMwr (c : Ctx) (data : Sector) (hp : .regs ∈ ps ∧ .tnd ∈ ps ∧ .outbox ∈ ps) :
    keptBut s₀ (sendMwr c data s) ps ↔ keptBut s₀ s ps := by
  simp [sendMwr, hp]
@[simp] theorem kept_unmirrored (line : Nat) (hp : .regs ∈ ps ∧ .sbg ∈ ps ∧ .tnd ∈ ps) :
    keptBut s₀ (unmirrored line s) ps ↔ keptBut s₀ s ps := by
  simp [unmirrored, hp]
@[simp] theorem kept_handBack (hp : .tnd ∈ ps) :
    keptBut s₀ (handBack s) ps ↔ keptBut s₀ s ps := by
  simp [handBack, hp]
@[simp] theorem kept_ackMirror (tag : BitVec 16) (hp : .sched ∈ ps ∧ .tnd ∈ ps) :
    keptBut s₀ (ackMirror tag s) ps ↔ keptBut s₀ s ps := by
  simp [ackMirror, hp]
@[simp] theorem kept_loseLink (hp : .regs ∈ ps ∧ .host ∈ ps ∧ .sched ∈ ps ∧ .rcd ∈ ps ∧ .sbg ∈ ps ∧ .tnd ∈ ps ∧ .outbox ∈ ps) :
    keptBut s₀ (loseLink s) ps ↔ keptBut s₀ s ps := by
  simp [loseLink, hp]

/-! ### Host -/

@[simp] theorem kept_rasReport (bit cls : Nat) (hp : .host ∈ ps ∧ .outbox ∈ ps) :
    keptBut s₀ (rasReport bit cls s) ps ↔ keptBut s₀ s ps := by
  simp [rasReport, hp]
@[simp] theorem kept_useFreeLine (hp : .freeIx ∈ ps) : keptBut s₀ (useFreeLine s) ps ↔ keptBut s₀ s ps :=
  kept_of_part hp fun q hq => by cases q <;> simp_all [agree, useFreeLine]

@[simp] theorem kept_respond (tag : BitVec 16) (data : Sector) (poison : Bool) (hp : .sched ∈ ps) :
    keptBut s₀ (respond tag data poison s) ps ↔ keptBut s₀ s ps := by
  simp [respond, hp]
@[simp] theorem kept_answerLoad (op : CtxOp) (tag : BitVec 16) (hpa t : Nat) (hp : .regs ∈ ps ∧ .sched ∈ ps) :
    keptBut s₀ (answerLoad op tag hpa t s) ps ↔ keptBut s₀ s ps := by
  simp [answerLoad, hp]
@[simp] theorem kept_answerStore (op : CtxOp) (tag : BitVec 16) (hpa t : Nat) (back : Bool) (hp : .regs ∈ ps ∧ .sched ∈ ps) :
    keptBut s₀ (answerStore op tag hpa t back s) ps ↔ keptBut s₀ s ps := by
  simp [answerStore, hp]
@[simp] theorem kept_takeReq (hp : .host ∈ ps) :
    keptBut s₀ (takeReq s) ps ↔ keptBut s₀ s ps := by
  simp [takeReq, hp]
@[simp] theorem kept_giveReq (hp : .host ∈ ps ∧ .outbox ∈ ps) :
    keptBut s₀ (giveReq s) ps ↔ keptBut s₀ s ps := by
  simp [giveReq, hp]
@[simp] theorem kept_countRefused (hp : .regs ∈ ps) :
    keptBut s₀ (countRefused s) ps ↔ keptBut s₀ s ps := by
  simp [countRefused, hp]
@[simp] theorem kept_countMiss (hp : .regs ∈ ps) :
    keptBut s₀ (countMiss s) ps ↔ keptBut s₀ s ps := by
  simp [countMiss, hp]
@[simp] theorem kept_rebuildTag (loc : Nat) (hp : .cache ∈ ps) :
    keptBut s₀ (rebuildTag loc s) ps ↔ keptBut s₀ s ps := by
  simp [rebuildTag, hp]
@[simp] theorem kept_dirErr (loc : Nat) (hp : .regs ∈ ps) :
    keptBut s₀ (dirErr loc s) ps ↔ keptBut s₀ s ps := by
  simp [dirErr, hp]
@[simp] theorem kept_dirWordErr (loc : Nat) (hp : .regs ∈ ps ∧ .cache ∈ ps) :
    keptBut s₀ (dirWordErr loc s) ps ↔ keptBut s₀ s ps := by
  simp [dirWordErr, hp]
@[simp] theorem kept_secErr (loc : Nat) (hp : .regs ∈ ps ∧ .host ∈ ps) :
    keptBut s₀ (secErr loc s) ps ↔ keptBut s₀ s ps := by
  simp [secErr, hp]
@[simp] theorem kept_dedErr (loc sector sub : Nat) (hp : .regs ∈ ps ∧ .host ∈ ps ∧ .cache ∈ ps ∧ .rcd ∈ ps ∧ .outbox ∈ ps ∧ .freeIx ∈ ps) :
    keptBut s₀ (dedErr loc sector sub s) ps ↔ keptBut s₀ s ps := by
  simp [dedErr, hp]
@[simp] theorem kept_portSec (hp : .host ∈ ps ∧ .outbox ∈ ps) :
    keptBut s₀ (portSec s) ps ↔ keptBut s₀ s ps := by
  simp [portSec, hp]
@[simp] theorem kept_dataCheck (loc sector : Nat) (chk : ArrayCheck)
    (hp : .regs ∈ ps ∧ .host ∈ ps ∧ .cache ∈ ps ∧ .rcd ∈ ps ∧ .outbox ∈ ps ∧ .freeIx ∈ ps) :
    keptBut s₀ (dataCheck loc sector chk s) ps ↔ keptBut s₀ s ps := by
  unfold dataCheck
  split <;> simp [hp]
@[simp] theorem kept_unlistPoison (line : Nat) (sv sp : BitVec 4) (hp : .host ∈ ps) :
    keptBut s₀ (unlistPoison line sv sp s) ps ↔ keptBut s₀ s ps := by
  simp [unlistPoison, hp]
@[simp] theorem kept_writeSector (loc sector : Nat) (data : Sector) (poison : Bool) (hp : .cache ∈ ps) :
    keptBut s₀ (writeSector loc sector data poison s) ps ↔ keptBut s₀ s ps := by
  simp [writeSector, hp]
@[simp] theorem kept_placeAt (loc line : Nat) (sv sp : BitVec 4) (pin : Bool) (data : Line) (hp : .cache ∈ ps) :
    keptBut s₀ (placeAt loc line sv sp pin data s) ps ↔ keptBut s₀ s ps := by
  simp [placeAt, hp]
@[simp] theorem kept_poisonDead (line : Nat) (hp : .host ∈ ps ∧ .cache ∈ ps ∧ .med ∈ ps ∧ .rcd ∈ ps ∧ .sbg ∈ ps ∧ .outbox ∈ ps) :
    keptBut s₀ (poisonDead line s) ps ↔ keptBut s₀ s ps := by
  simp only [poisonDead]
  repeat' split
  all_goals simp [hp]
@[simp] theorem kept_holdRestored (line : Nat) (hp : .sched ∈ ps ∧ .med ∈ ps) :
    keptBut s₀ (holdRestored line s) ps ↔ keptBut s₀ s ps := by
  simp [holdRestored, hp]
@[simp] theorem kept_storeLine (line sector : Nat) (data : Sector) (poison : Bool)
    (hp : .host ∈ ps ∧ .cache ∈ ps ∧ .sched ∈ ps ∧ .med ∈ ps ∧ .rcd ∈ ps ∧ .sbg ∈ ps ∧ .outbox ∈ ps) :
    keptBut s₀ (storeLine line sector data poison s).1 ps ↔ keptBut s₀ s ps := by
  simp only [storeLine]
  split
  · split <;> simp [hp]
  · split
    · simp [hp]
    · split <;> simp [hp]

@[simp] theorem kept_placeScratch (l : Nat) (sp : BitVec 4) (data : Line) (hp : .cache ∈ ps) :
    keptBut s₀ (placeScratch l sp data s) ps ↔ keptBut s₀ s ps := by
  simp [placeScratch, hp]
@[simp] theorem kept_storeScratch (l sector : Nat) (data : Sector) (poison : Bool) (hp : .host ∈ ps ∧ .cache ∈ ps) :
    keptBut s₀ (storeScratch l sector data poison s) ps ↔ keptBut s₀ s ps := by
  simp [storeScratch, hp]
@[simp] theorem kept_storeWritten (tag : BitVec 16) (data : Sector) (toProgram : Bool)
    (hp : .regs ∈ ps ∧ .sched ∈ ps ∧ .sbg ∈ ps ∧ .tnd ∈ ps ∧ .outbox ∈ ps) :
    keptBut s₀ (storeWritten tag data toProgram s) ps ↔ keptBut s₀ s ps := by
  simp only [storeWritten]
  repeat' split
  all_goals simp [hp]
@[simp] theorem kept_placeFill (line : Nat) (data : Line) (sp : BitVec 4) (hp : .cache ∈ ps) :
    keptBut s₀ (placeFill line data sp s) ps ↔ keptBut s₀ s ps := by
  unfold placeFill
  split
  · simp [hp]
  · split <;> simp [hp]
@[simp] theorem kept_fillLine (line : Nat) (data : Line) (sp : BitVec 4) (hp : .cache ∈ ps) :
    keptBut s₀ (fillLine line data sp s) ps ↔ keptBut s₀ s ps := by
  simp [fillLine, hp]
@[simp] theorem kept_abortContexts (hp : .sched ∈ ps) :
    keptBut s₀ (abortContexts s) ps ↔ keptBut s₀ s ps := by
  simp [abortContexts, hp]

/-! ### Conv -/

@[simp] theorem kept_onConv (n : Nat) (f : ConvSt → ConvSt) (hp : .mcv ∈ ps) :
    keptBut s₀ (onConv n f s) ps ↔ keptBut s₀ s ps := by
  simp [onConv, hp]
@[simp] theorem kept_takeField (f : Fld) (i : Nat) (hp : .mcv ∈ ps) :
    keptBut s₀ (takeField f i s) ps ↔ keptBut s₀ s ps := by
  simp [takeField, hp]
@[simp] theorem kept_takeSettings (n : Nat) (hp : .mcv ∈ ps) : keptBut s₀ (takeSettings n s) ps ↔ keptBut s₀ s ps := by
  have hin (k : Nat) (u : State) : keptBut u (forEach inputSettings (fun f s => takeField f k s) u) ps :=
    (kept_forEach (fun f v => by simp [hp]) _).mpr (keptBut_refl u ps)
  simp [takeSettings, hp, hin]

@[simp] theorem kept_startConv (n ch : Nat) (work : ConvWork) (hp : .stamp ∈ ps ∧ .regs ∈ ps ∧ .mcv ∈ ps) :
    keptBut s₀ (startConv n ch work s) ps ↔ keptBut s₀ s ps := by
  simp [startConv, hp]
@[simp] theorem kept_onDiag (n : Nat) (f : Diag → Diag) (hp : .mcv ∈ ps) :
    keptBut s₀ (onDiag n f s) ps ↔ keptBut s₀ s ps := by
  simp [onDiag, hp]
@[simp] theorem kept_countSkip (n : Nat) (hp : .regs ∈ ps) :
    keptBut s₀ (countSkip n s) ps ↔ keptBut s₀ s ps := by
  simp [countSkip, hp]
@[simp] theorem kept_startNext (n : Nat) (hp : .stamp ∈ ps ∧ .regs ∈ ps ∧ .mcv ∈ ps) :
    keptBut s₀ (startNext n s) ps ↔ keptBut s₀ s ps := by
  unfold startNext
  split <;> simp [hp]
@[simp] theorem kept_inject (n ch : Nat) (hp : .regs ∈ ps ∧ .mcv ∈ ps) :
    keptBut s₀ (inject n ch s) ps ↔ keptBut s₀ s ps := by
  simp [inject, hp]
@[simp] theorem kept_restartFilter (k : Nat) (hp : .regs ∈ ps ∧ .mcv ∈ ps) :
    keptBut s₀ (restartFilter k s) ps ↔ keptBut s₀ s ps := by
  simp [restartFilter, hp]
@[simp] theorem kept_newFilter (k : Nat) (hp : .regs ∈ ps ∧ .mcv ∈ ps) :
    keptBut s₀ (newFilter k s) ps ↔ keptBut s₀ s ps := by
  simp [newFilter, hp]
@[simp] theorem kept_restartFilters (n : Nat) (hp : .regs ∈ ps ∧ .mcv ∈ ps) :
    keptBut s₀ (restartFilters n s) ps ↔ keptBut s₀ s ps := by
  simp [restartFilters, hp]
@[simp] theorem kept_takeSchedule (n : Nat) (hp : .mcv ∈ ps ∧ .regs ∈ ps) : keptBut s₀ (takeSchedule n s) ps ↔ keptBut s₀ s ps := by
  simp only [takeSchedule, kept_onConv, kept_forEach, kept_newFilter, hp, and_self, implies_true, keptBut_self]
  exact (kept_forEach (fun ch u => by split <;> simp [hp]) _).trans (by simp [hp])

@[simp] theorem kept_trigger (n : Nat) (hp : .regs ∈ ps ∧ .mcv ∈ ps) :
    keptBut s₀ (trigger n s) ps ↔ keptBut s₀ s ps := by
  simp [trigger, hp]
@[simp] theorem kept_hwTrigger (src chan : Nat) (rising : Bool) (hp : .regs ∈ ps ∧ .mcv ∈ ps) :
    keptBut s₀ (hwTrigger src chan rising s) ps ↔ keptBut s₀ s ps := by
  simp [hwTrigger, hp]
@[simp] theorem kept_startCal (n : Nat) (via : Option Transport) (auto_ : Bool) (hp : .mcv ∈ ps) :
    keptBut s₀ (startCal n via auto_ s) ps ↔ keptBut s₀ s ps := by
  simp [startCal, hp]
@[simp] theorem kept_abortCals (hp : .mcv ∈ ps) :
    keptBut s₀ (abortCals s) ps ↔ keptBut s₀ s ps := by
  simp [abortCals, hp]
@[simp] theorem kept_applyPower (n : Nat) (hp : .regs ∈ ps ∧ .mcv ∈ ps) :
    keptBut s₀ (applyPower n s) ps ↔ keptBut s₀ s ps := by
  simp [applyPower, hp]
@[simp] theorem kept_applyPowers (hp : .regs ∈ ps ∧ .mcv ∈ ps) :
    keptBut s₀ (applyPowers s) ps ↔ keptBut s₀ s ps := by
  simp [applyPowers, hp]

/-! ### Rails -/

@[simp] theorem kept_firstFault (kind source cause : Nat) (hp : .regs ∈ ps ∧ .rcd ∈ ps ∧ .outbox ∈ ps) :
    keptBut s₀ (firstFault kind source cause s) ps ↔ keptBut s₀ s ps := by
  simp [firstFault, hp]
@[simp] theorem kept_decideEdge (t : Target) (up : Bool) (hp : .seq ∈ ps) :
    keptBut s₀ (decideEdge t up s) ps ↔ keptBut s₀ s ps := by
  simp [decideEdge, hp]
@[simp] theorem kept_placeRequest (t : Target) (hp : .seq ∈ ps) :
    keptBut s₀ (placeRequest t s) ps ↔ keptBut s₀ s ps := by
  simp [placeRequest, hp]
@[simp] theorem kept_cancelRequest (t : Target) (hp : .seq ∈ ps) :
    keptBut s₀ (cancelRequest t s) ps ↔ keptBut s₀ s ps := by
  simp [cancelRequest, hp]
@[simp] theorem kept_setRetry (t : Target) (r : Retry) (hp : .seq ∈ ps) :
    keptBut s₀ (setRetry t r s) ps ↔ keptBut s₀ s ps := by
  simp [setRetry, hp]
@[simp] theorem kept_resumeSeq (hp : .regs ∈ ps ∧ .seq ∈ ps) :
    keptBut s₀ (resumeSeq s) ps ↔ keptBut s₀ s ps := by
  simp [resumeSeq, hp]
@[simp] theorem kept_endRetry (t : Target) (hp : .regs ∈ ps ∧ .seq ∈ ps) :
    keptBut s₀ (endRetry t s) ps ↔ keptBut s₀ s ps := by
  simp [endRetry, hp]
@[simp] theorem kept_startRetry (t : Target) (hp : .regs ∈ ps ∧ .seq ∈ ps) :
    keptBut s₀ (startRetry t s) ps ↔ keptBut s₀ s ps := by
  simp [startRetry, hp]
@[simp] theorem kept_cancelEnables (hp : .regs ∈ ps ∧ .seq ∈ ps) :
    keptBut s₀ (cancelEnables s) ps ↔ keptBut s₀ s ps := by
  simp [cancelEnables, hp]
theorem kept_stepDown (d : PowerDown) (hp : .regs ∈ ps ∧ .seq ∈ ps) : keptBut s₀ (stepDown d s).2 ps ↔ keptBut s₀ s ps := by
  unfold stepDown
  split <;> simp [hp]

/-- The footprint of a power-down's step, for a state that its match names. -/
theorem kept_of_stepDown {d : PowerDown} {d' : Option PowerDown} {u : State} (h : stepDown d s = (d', u)) (hp : .regs ∈ ps ∧ .seq ∈ ps) :
    keptBut s₀ u ps ↔ keptBut s₀ s ps := by
  have k := kept_stepDown (s₀ := s₀) (s := s) d hp
  rwa [h] at k

@[simp] theorem kept_startDownAll (hp : .regs ∈ ps ∧ .seq ∈ ps) : keptBut s₀ (startDownAll s) ps ↔ keptBut s₀ s ps := by
  simp only [startDownAll]
  split <;> (rename_i h; simp [hp, kept_of_stepDown h])

@[simp] theorem kept_groupOff (t : Target) (hp : .regs ∈ ps ∧ .seq ∈ ps ∧ .rcd ∈ ps) :
    keptBut s₀ (groupOff t s) ps ↔ keptBut s₀ s ps := by
  have hoff (u : Target) (v : State) : keptBut v (endRetry u
      (forEach (tgtChans v u) (fun c s => fset F.SEQ_CHn_STATUS_OFF_FAULT c s) (cancelRequest u v))) ps := by simp [hp]
  simp only [groupOff]
  split <;> (rename_i h; simp [hp, hoff, kept_of_stepDown h])

@[simp] theorem kept_admitEnables (hp : .seq ∈ ps ∧ .rcd ∈ ps) :
    keptBut s₀ (admitEnables s) ps ↔ keptBut s₀ s ps := by
  simp [admitEnables, hp]

end

end Sys2Proof.Machine
end

section
/-! SUPPORT. Footprints of the operations: power, background operations, patrol, the host port, RECOVER, the ledger and operands. -/
namespace Sys2Proof.Machine
set_option Elab.async false
section
variable {s₀ s : State} {ps : List Part}

/-! ### Power -/

@[simp] theorem kept_journalWrite (hp : .sbg ∈ ps) :
    keptBut s₀ (journalWrite s) ps ↔ keptBut s₀ s ps := by
  simp [journalWrite, hp]
@[simp] theorem kept_endCapTest (hp : .regs ∈ ps ∧ .pins ∈ ps ∧ .led ∈ ps) :
    keptBut s₀ (endCapTest s) ps ↔ keptBut s₀ s ps := by
  simp [endCapTest, hp]
@[simp] theorem kept_capReject (hp : .stamp ∈ ps ∧ .regs ∈ ps ∧ .pins ∈ ps ∧ .led ∈ ps ∧ .rcd ∈ ps) :
    keptBut s₀ (capReject s) ps ↔ keptBut s₀ s ps := by
  simp [capReject, hp]
@[simp] theorem kept_capInterrupt (hp : .stamp ∈ ps ∧ .regs ∈ ps ∧ .pins ∈ ps ∧ .led ∈ ps ∧ .rcd ∈ ps) :
    keptBut s₀ (capInterrupt s) ps ↔ keptBut s₀ s ps := by
  unfold capInterrupt
  split <;> simp [hp]
@[simp] theorem kept_endBg (r : RetCode) (out : List Byte) (hp : .regs ∈ ps ∧ .mbx ∈ ps ∧ .outbox ∈ ps) :
    keptBut s₀ (endBg r out s) ps ↔ keptBut s₀ s ps := by
  unfold endBg
  split <;> simp [hp]
@[simp] theorem kept_hubStops (hp : .host ∈ ps ∧ .life ∈ ps ∧ .seq ∈ ps ∧ .mcv ∈ ps ∧ .mbx ∈ ps) :
    keptBut s₀ (hubStops s) ps ↔ keptBut s₀ s ps := by
  simp [hubStops, hp]
@[simp] theorem kept_startAutostore (hp : .regs ∈ ps ∧ .fw ∈ ps ∧ .sbg ∈ ps) :
    keptBut s₀ (startAutostore s) ps ↔ keptBut s₀ s ps := by
  simp [startAutostore, hp]
@[simp] theorem kept_writeShutdown (state seq area : Nat) (hp : .sbg ∈ ps) :
    keptBut s₀ (writeShutdown state seq area s) ps ↔ keptBut s₀ s ps := by
  simp [writeShutdown, hp]
@[simp] theorem kept_putDrain (area w n : Nat) (d : DrainSlot) (hp : .med ∈ ps) :
    keptBut s₀ (putDrain area w n d s) ps ↔ keptBut s₀ s ps := by
  simp [putDrain, hp]
@[simp] theorem kept_queueDrain (loc : Nat) (hp : .regs ∈ ps ∧ .sched ∈ ps ∧ .fw ∈ ps) :
    keptBut s₀ (queueDrain loc s) ps ↔ keptBut s₀ s ps := by
  simp [queueDrain, hp]
@[simp] theorem kept_feedDrain (hp : .regs ∈ ps ∧ .sched ∈ ps ∧ .fw ∈ ps) :
    keptBut s₀ (feedDrain s) ps ↔ keptBut s₀ s ps := by
  simp [feedDrain, hp]
theorem kept_feedWheelIndex (w n : Nat) (s : State) (hp : .regs ∈ ps ∧ .sched ∈ ps ∧ .fw ∈ ps) :
    keptBut s₀ (feedWheelIndex w n s) ps ↔ keptBut s₀ s ps := by
  induction n generalizing s with
  | zero => rfl
  | succ n ih =>
    simp only [feedWheelIndex]
    split <;> simp [hp, ih]

@[simp] theorem kept_feedIndex (hp : .regs ∈ ps ∧ .sched ∈ ps ∧ .fw ∈ ps) : keptBut s₀ (feedIndex s) ps ↔ keptBut s₀ s ps := by
  simp [feedIndex, hp, kept_feedWheelIndex]

@[simp] theorem kept_powerDownRecord (hp : .rcd ∈ ps) :
    keptBut s₀ (powerDownRecord s) ps ↔ keptBut s₀ s ps := by
  unfold powerDownRecord
  repeat' split
  all_goals simp [hp]
@[simp] theorem kept_toRecording (hp : .host ∈ ps ∧ .fw ∈ ps ∧ .rcd ∈ ps) :
    keptBut s₀ (toRecording s) ps ↔ keptBut s₀ s ps := by
  simp [toRecording, hp]
@[simp] theorem kept_fwProgress (hp : .regs ∈ ps ∧ .host ∈ ps ∧ .sched ∈ ps ∧ .fw ∈ ps ∧ .med ∈ ps ∧ .rcd ∈ ps) :
    keptBut s₀ (fwProgress s) ps ↔ keptBut s₀ s ps := by
  unfold fwProgress
  split <;> simp [hp]
@[simp] theorem kept_cutFreewheel (hp : .regs ∈ ps ∧ .host ∈ ps ∧ .sched ∈ ps ∧ .fw ∈ ps ∧ .med ∈ ps ∧ .rcd ∈ ps) :
    keptBut s₀ (cutFreewheel s) ps ↔ keptBut s₀ s ps := by
  simp [cutFreewheel, hp]
@[simp] theorem kept_tryQuiesce (hp : .host ∈ ps ∧ .tnd ∈ ps ∧ .outbox ∈ ps) :
    keptBut s₀ (tryQuiesce s) ps ↔ keptBut s₀ s ps := by
  simp [tryQuiesce, hp]
@[simp] theorem kept_ackAtTrip (hp : .sched ∈ ps) :
    keptBut s₀ (ackAtTrip s) ps ↔ keptBut s₀ s ps := by
  simp [ackAtTrip, hp]
@[simp] theorem kept_emptyArea (area : Nat) (hp : .med ∈ ps) :
    keptBut s₀ (emptyArea area s) ps ↔ keptBut s₀ s ps := by
  simp [emptyArea, hp]
@[simp] theorem kept_drainT1 (hp : .regs ∈ ps ∧ .sched ∈ ps ∧ .fw ∈ ps ∧ .med ∈ ps ∧ .sbg ∈ ps) :
    keptBut s₀ (drainT1 s) ps ↔ keptBut s₀ s ps := by
  simp [drainT1, hp]
@[simp] theorem kept_logFreewheel (hp : .regs ∈ ps ∧ .sbg ∈ ps) :
    keptBut s₀ (logFreewheel s) ps ↔ keptBut s₀ s ps := by
  simp [logFreewheel, hp]
@[simp] theorem kept_tryHold (hp : .regs ∈ ps ∧ .host ∈ ps ∧ .fw ∈ ps ∧ .life ∈ ps ∧ .seq ∈ ps ∧ .mcv ∈ ps ∧ .mbx ∈ ps) :
    keptBut s₀ (tryHold s) ps ↔ keptBut s₀ s ps := by
  simp [tryHold, hp]
@[simp] theorem kept_railsGone (hp : .pins ∈ ps ∧ .host ∈ ps ∧ .fw ∈ ps ∧ .outbox ∈ ps) :
    keptBut s₀ (railsGone s) ps ↔ keptBut s₀ s ps := by
  simp [railsGone, hp]
@[simp] theorem kept_tryEndFw (hp : .regs ∈ ps ∧ .host ∈ ps ∧ .fw ∈ ps ∧ .life ∈ ps ∧ .seq ∈ ps ∧ .mcv ∈ ps ∧ .sbg ∈ ps ∧ .mbx ∈ ps) :
    keptBut s₀ (tryEndFw s) ps ↔ keptBut s₀ s ps := by
  simp [tryEndFw, hp]
@[simp] theorem kept_lowerRails (hp : .regs ∈ ps ∧ .pins ∈ ps ∧ .host ∈ ps ∧ .fw ∈ ps ∧ .seq ∈ ps ∧ .outbox ∈ ps) :
    keptBut s₀ (lowerRails s) ps ↔ keptBut s₀ s ps := by
  simp [lowerRails, hp]
@[simp] theorem kept_recordWritten
    (hp : .regs ∈ ps ∧ .pins ∈ ps ∧ .host ∈ ps ∧ .fw ∈ ps ∧ .life ∈ ps ∧ .seq ∈ ps ∧ .mcv ∈ ps ∧ .sbg ∈ ps ∧ .mbx ∈ ps ∧ .outbox ∈ ps) :
    keptBut s₀ (recordWritten s) ps ↔ keptBut s₀ s ps := by
  simp [recordWritten, hp]
@[simp] theorem kept_brakeNote (cause source : Nat) (hp : .regs ∈ ps ∧ .pins ∈ ps ∧ .host ∈ ps ∧ .rcd ∈ ps ∧ .outbox ∈ ps) :
    keptBut s₀ (brakeNote cause source s) ps ↔ keptBut s₀ s ps := by
  simp [brakeNote, hp]
@[simp] theorem kept_poisonLoads (hp : .sched ∈ ps) :
    keptBut s₀ (poisonLoads s) ps ↔ keptBut s₀ s ps := by
  simp [poisonLoads, hp]
@[simp] theorem kept_showDrain (drained : Bool) (hp : .regs ∈ ps) :
    keptBut s₀ (showDrain drained s) ps ↔ keptBut s₀ s ps := by
  simp [showDrain, hp]
@[simp] theorem kept_brakeInDrain (cause : Nat)
    (hp : .regs ∈ ps ∧ .pins ∈ ps ∧ .host ∈ ps ∧ .sched ∈ ps ∧ .fw ∈ ps ∧ .med ∈ ps ∧ .seq ∈ ps ∧ .rcd ∈ ps ∧ .sbg ∈ ps ∧ .outbox ∈ ps) :
    keptBut s₀ (brakeInDrain cause s) ps ↔ keptBut s₀ s ps := by
  simp [brakeInDrain, hp]

/-! ### Background -/

@[simp] theorem kept_endBgStored (pages : List Nat) (hp : .regs ∈ ps ∧ .mbx ∈ ps ∧ .outbox ∈ ps) :
    keptBut s₀ (endBgStored pages s) ps ↔ keptBut s₀ s ps := by
  simp [endBgStored, hp]
@[simp] theorem kept_bgAdvance (b : Bg) (hp : .regs ∈ ps ∧ .mbx ∈ ps ∧ .outbox ∈ ps) :
    keptBut s₀ (bgAdvance b s) ps ↔ keptBut s₀ s ps := by
  simp [bgAdvance, hp]
@[simp] theorem kept_refuseLine (line : Nat) (b : Bg) (hp : .regs ∈ ps ∧ .mbx ∈ ps ∧ .outbox ∈ ps) :
    keptBut s₀ (refuseLine line b s) ps ↔ keptBut s₀ s ps := by
  simp [refuseLine, hp]
@[simp] theorem kept_lockLine (line : Nat) (b : Bg) (hp : .regs ∈ ps ∧ .cache ∈ ps ∧ .mbx ∈ ps ∧ .outbox ∈ ps) :
    keptBut s₀ (lockLine line b s) ps ↔ keptBut s₀ s ps := by
  unfold lockLine
  repeat' split
  all_goals simp [hp]
@[simp] theorem kept_fillNext (kind : OpKind) (line : Nat) (b : Bg) (hp : .regs ∈ ps ∧ .sched ∈ ps ∧ .mbx ∈ ps) :
    keptBut s₀ (fillNext kind line b s) ps ↔ keptBut s₀ s ps := by
  simp [fillNext, hp]
@[simp] theorem kept_lockStep (hp : .regs ∈ ps ∧ .cache ∈ ps ∧ .sched ∈ ps ∧ .mbx ∈ ps ∧ .outbox ∈ ps) :
    keptBut s₀ (lockStep s) ps ↔ keptBut s₀ s ps := by
  unfold lockStep
  repeat' split
  all_goals simp [hp]
@[simp] theorem kept_scanStep (hp : .regs ∈ ps ∧ .sched ∈ ps ∧ .mbx ∈ ps ∧ .outbox ∈ ps) :
    keptBut s₀ (scanStep s) ps ↔ keptBut s₀ s ps := by
  unfold scanStep
  split
  · simp
  · split <;> simp [hp]
@[simp] theorem kept_scanDone (line : Nat) (failed : Bool) (hp : .regs ∈ ps ∧ .host ∈ ps ∧ .rcd ∈ ps ∧ .mbx ∈ ps ∧ .outbox ∈ ps) :
    keptBut s₀ (scanDone line failed s) ps ↔ keptBut s₀ s ps := by
  unfold scanDone
  split
  · simp
  · split <;> simp [hp]
@[simp] theorem kept_storeCacheState (hp : .sbg ∈ ps) :
    keptBut s₀ (storeCacheState s) ps ↔ keptBut s₀ s ps := by
  simp [storeCacheState, hp]
@[simp] theorem kept_dropClean (hp : .cache ∈ ps) :
    keptBut s₀ (dropClean s) ps ↔ keptBut s₀ s ps := by
  simp [dropClean, hp]
@[simp] theorem kept_flushDone (hp : .regs ∈ ps ∧ .cache ∈ ps ∧ .sbg ∈ ps ∧ .mbx ∈ ps ∧ .outbox ∈ ps) :
    keptBut s₀ (flushDone s) ps ↔ keptBut s₀ s ps := by
  simp [flushDone, hp]
@[simp] theorem kept_keepFlush (keep : Nat → Bool) (hp : .regs ∈ ps ∧ .cache ∈ ps ∧ .sbg ∈ ps ∧ .mbx ∈ ps ∧ .outbox ∈ ps) :
    keptBut s₀ (keepFlush keep s) ps ↔ keptBut s₀ s ps := by
  simp [keepFlush, hp]
@[simp] theorem kept_flushed (line : Nat) (hp : .regs ∈ ps ∧ .cache ∈ ps ∧ .sbg ∈ ps ∧ .mbx ∈ ps ∧ .outbox ∈ ps) :
    keptBut s₀ (flushed line s) ps ↔ keptBut s₀ s ps := by
  simp [flushed, hp]
@[simp] theorem kept_flushTick (hp : .regs ∈ ps ∧ .cache ∈ ps ∧ .sbg ∈ ps ∧ .mbx ∈ ps ∧ .outbox ∈ ps) :
    keptBut s₀ (flushTick s) ps ↔ keptBut s₀ s ps := by
  simp [flushTick, hp]
@[simp] theorem kept_eraseEnd (hp : .regs ∈ ps ∧ .host ∈ ps ∧ .med ∈ ps ∧ .mbx ∈ ps ∧ .outbox ∈ ps) :
    keptBut s₀ (eraseEnd s) ps ↔ keptBut s₀ s ps := by
  unfold eraseEnd
  split <;> simp [hp]
@[simp] theorem kept_eraseCache (hp : .cache ∈ ps) :
    keptBut s₀ (eraseCache s) ps ↔ keptBut s₀ s ps := by
  simp [eraseCache, hp]
@[simp] theorem kept_storeKeys (k : Nat) (hp : .sbg ∈ ps) :
    keptBut s₀ (storeKeys k s) ps ↔ keptBut s₀ s ps := by
  simp [storeKeys, hp]
@[simp] theorem kept_startErase (hp : .host ∈ ps ∧ .cache ∈ ps ∧ .sched ∈ ps ∧ .med ∈ ps ∧ .sbg ∈ ps ∧ .outbox ∈ ps) :
    keptBut s₀ (startErase s) ps ↔ keptBut s₀ s ps := by
  simp [startErase, hp]
@[simp] theorem kept_bgTick (hp : .regs ∈ ps ∧ .cache ∈ ps ∧ .sched ∈ ps ∧ .sbg ∈ ps ∧ .mbx ∈ ps ∧ .outbox ∈ ps) :
    keptBut s₀ (bgTick s) ps ↔ keptBut s₀ s ps := by
  simp [bgTick, hp]

/-! ### Patrol -/

@[simp] theorem kept_failedLine (line sub : Nat) (hp : .host ∈ ps ∧ .rcd ∈ ps ∧ .outbox ∈ ps) :
    keptBut s₀ (failedLine line sub s) ps ↔ keptBut s₀ s ps := by
  simp [failedLine, hp]
@[simp] theorem kept_placePatrol (p : Patrol) (hp : .regs ∈ ps ∧ .med ∈ ps) :
    keptBut s₀ (placePatrol p s) ps ↔ keptBut s₀ s ps := by
  simp [placePatrol, hp]
@[simp] theorem kept_patrolAdvance (hp : .regs ∈ ps ∧ .med ∈ ps) :
    keptBut s₀ (patrolAdvance s) ps ↔ keptBut s₀ s ps := by
  simp [patrolAdvance, hp]
@[simp] theorem kept_patrolPoison (line ma : Nat) (x : PatrolSeen) (hp : .regs ∈ ps ∧ .host ∈ ps ∧ .sched ∈ ps ∧ .rcd ∈ ps ∧ .outbox ∈ ps) :
    keptBut s₀ (patrolPoison line ma x s) ps ↔ keptBut s₀ s ps := by
  simp [patrolPoison, hp]
@[simp] theorem kept_patrolRewrite (line ma : Nat) (sense : Bool) (x : PatrolSeen) (hp : .regs ∈ ps ∧ .sched ∈ ps) :
    keptBut s₀ (patrolRewrite line ma sense x s) ps ↔ keptBut s₀ s ps := by
  simp [patrolRewrite, hp]
@[simp] theorem kept_patrolDecide (r slot : Nat) (seen : List PatrolSeen)
    (hp : .regs ∈ ps ∧ .host ∈ ps ∧ .cache ∈ ps ∧ .sched ∈ ps ∧ .med ∈ ps ∧ .rcd ∈ ps ∧ .sbg ∈ ps ∧ .outbox ∈ ps) :
    keptBut s₀ (patrolDecide r slot seen s) ps ↔ keptBut s₀ s ps := by
  simp [patrolDecide, hp]
@[simp] theorem kept_patrolRead (r slot k : Nat) (x : Option PatrolSeen)
    (hp : .regs ∈ ps ∧ .host ∈ ps ∧ .cache ∈ ps ∧ .sched ∈ ps ∧ .med ∈ ps ∧ .rcd ∈ ps ∧ .sbg ∈ ps ∧ .outbox ∈ ps) :
    keptBut s₀ (patrolRead r slot k x s) ps ↔ keptBut s₀ s ps := by
  unfold patrolRead
  split <;> simp [hp]
@[simp] theorem kept_patrolStep (w : Wheel) (t : Nat) (hp : .gtc ∈ ps ∧ .stamp ∈ ps ∧ .regs ∈ ps ∧ .sched ∈ ps ∧ .med ∈ ps) :
    keptBut s₀ (patrolStep w t s) ps ↔ keptBut s₀ s ps := by
  simp [patrolStep, hp]

/-! ### HostPort -/

@[simp] theorem kept_poisonLoad (c : Ctx) (hp : .regs ∈ ps ∧ .sched ∈ ps ∧ .freeIx ∈ ps) :
    keptBut s₀ (poisonLoad c s) ps ↔ keptBut s₀ s ps := by
  simp [poisonLoad, hp]
@[simp] theorem kept_portCheck (chk : ArrayCheck) (hp : .host ∈ ps ∧ .outbox ∈ ps) :
    keptBut s₀ (portCheck chk s) ps ↔ keptBut s₀ s ps := by
  simp [portCheck, hp]
@[simp] theorem kept_scratchLoad (c : Ctx) (chk : ArrayCheck)
    (hp : .regs ∈ ps ∧ .host ∈ ps ∧ .cache ∈ ps ∧ .sched ∈ ps ∧ .rcd ∈ ps ∧ .outbox ∈ ps ∧ .freeIx ∈ ps) :
    keptBut s₀ (scratchLoad c chk s) ps ↔ keptBut s₀ s ps := by
  simp [scratchLoad, hp]
@[simp] theorem kept_persistentLoad (c : Ctx) (chk : ArrayCheck)
    (hp : .regs ∈ ps ∧ .host ∈ ps ∧ .cache ∈ ps ∧ .sched ∈ ps ∧ .med ∈ ps ∧ .rcd ∈ ps ∧ .outbox ∈ ps ∧ .freeIx ∈ ps) :
    keptBut s₀ (persistentLoad c chk s) ps ↔ keptBut s₀ s ps := by
  simp only [persistentLoad]
  repeat' split
  all_goals simp [hp]
@[simp] theorem kept_receiverOverflow (hp : .host ∈ ps ∧ .outbox ∈ ps) :
    keptBut s₀ (receiverOverflow s) ps ↔ keptBut s₀ s ps := by
  simp [receiverOverflow, hp]
@[simp] theorem kept_poisonReceived (hp : .host ∈ ps ∧ .outbox ∈ ps) :
    keptBut s₀ (poisonReceived s) ps ↔ keptBut s₀ s ps := by
  simp [poisonReceived, hp]
@[simp] theorem kept_discardStore (op : CtxOp) (tag : BitVec 16) (hpa dpa t : Nat) (barred : Bool)
    (hp : .regs ∈ ps ∧ .host ∈ ps ∧ .sched ∈ ps ∧ .rcd ∈ ps ∧ .tnd ∈ ps ∧ .outbox ∈ ps) :
    keptBut s₀ (discardStore op tag hpa dpa t barred s) ps ↔ keptBut s₀ s ps := by
  simp [discardStore, hp]
/-- The footprint of a line's store, for a state that its match names. -/
theorem kept_of_storeLine {line sector : Nat} {data : Sector} {poison : Bool} {u : State} {loc : Option Nat}
    (h : storeLine line sector data poison s = (u, loc))
    (hp : .host ∈ ps ∧ .cache ∈ ps ∧ .sched ∈ ps ∧ .med ∈ ps ∧ .rcd ∈ ps ∧ .sbg ∈ ps ∧ .outbox ∈ ps) :
    keptBut s₀ u ps ↔ keptBut s₀ s ps := by
  have k := kept_storeLine (s₀ := s₀) (s := s) line sector data poison hp
  rwa [h] at k

@[simp] theorem kept_writeStore (c : Ctx) (data : Sector) (poison hostPoison : Bool)
    (hp : .regs ∈ ps ∧ .host ∈ ps ∧ .cache ∈ ps ∧ .sched ∈ ps ∧ .med ∈ ps ∧ .rcd ∈ ps ∧ .sbg ∈ ps ∧ .tnd ∈ ps ∧ .outbox ∈ ps) :
    keptBut s₀ (writeStore c data poison hostPoison s) ps ↔ keptBut s₀ s ps := by
  simp only [writeStore]
  split
  · rename_i h
    simp [hp, kept_of_storeLine h]
  · rename_i h
    split <;> simp [hp, kept_of_storeLine h]

@[simp] theorem kept_persistentStore (c : Ctx) (chk : ArrayCheck)
    (hp : .regs ∈ ps ∧ .host ∈ ps ∧ .cache ∈ ps ∧ .sched ∈ ps ∧ .med ∈ ps ∧ .rcd ∈ ps ∧ .sbg ∈ ps ∧ .tnd ∈ ps ∧ .outbox ∈ ps
      ∧ .freeIx ∈ ps) :
    keptBut s₀ (persistentStore c chk s) ps ↔ keptBut s₀ s ps := by
  simp only [persistentStore]
  repeat' split
  all_goals simp [hp]
@[simp] theorem kept_scratchStore (c : Ctx) (chk : ArrayCheck)
    (hp : .regs ∈ ps ∧ .host ∈ ps ∧ .cache ∈ ps ∧ .sched ∈ ps ∧ .rcd ∈ ps ∧ .sbg ∈ ps ∧ .tnd ∈ ps ∧ .outbox ∈ ps ∧ .freeIx ∈ ps) :
    keptBut s₀ (scratchStore c chk s) ps ↔ keptBut s₀ s ps := by
  simp [scratchStore, hp]
@[simp] theorem kept_invalidate (tag : BitVec 16) (hp : .host ∈ ps ∧ .outbox ∈ ps) :
    keptBut s₀ (invalidate tag s) ps ↔ keptBut s₀ s ps := by
  simp [invalidate, hp]
@[simp] theorem kept_dropSpecRd (hp : .host ∈ ps ∧ .outbox ∈ ps) :
    keptBut s₀ (dropSpecRd s) ps ↔ keptBut s₀ s ps := by
  simp [dropSpecRd, hp]
@[simp] theorem kept_dispatchStep (tag : BitVec 16) (t : Nat)
    (hp : .gtc ∈ ps ∧ .stamp ∈ ps ∧ .regs ∈ ps ∧ .sched ∈ ps ∧ .med ∈ ps ∧ .outbox ∈ ps) :
    keptBut s₀ (dispatchStep tag t s) ps ↔ keptBut s₀ s ps := by
  unfold dispatchStep
  split <;> simp [hp]
@[simp] theorem kept_demandLatched (c : Ctx) (hp : .regs ∈ ps ∧ .sched ∈ ps ∧ .med ∈ ps ∧ .outbox ∈ ps) :
    keptBut s₀ (demandLatched c s) ps ↔ keptBut s₀ s ps := by
  simp only [demandLatched]
  repeat' split
  all_goals simp [hp]
@[simp] theorem kept_senseLatched (b : BankId) (t : Nat)
    (hp : .gtc ∈ ps ∧ .stamp ∈ ps ∧ .regs ∈ ps ∧ .sched ∈ ps ∧ .med ∈ ps ∧ .outbox ∈ ps) :
    keptBut s₀ (senseLatched b t s) ps ↔ keptBut s₀ s ps := by
  simp only [senseLatched]
  repeat' split
  all_goals simp [hp]
@[simp] theorem kept_windowStart (tag : BitVec 16) (t : Nat)
    (hp : .gtc ∈ ps ∧ .stamp ∈ ps ∧ .regs ∈ ps ∧ .sched ∈ ps ∧ .med ∈ ps ∧ .outbox ∈ ps) :
    keptBut s₀ (windowStart tag t s) ps ↔ keptBut s₀ s ps := by
  unfold windowStart
  split <;> simp [hp]
@[simp] theorem kept_nonDemandTransfer (b : BankId) (t : Nat)
    (hp : .gtc ∈ ps ∧ .stamp ∈ ps ∧ .regs ∈ ps ∧ .sched ∈ ps ∧ .med ∈ ps ∧ .outbox ∈ ps) :
    keptBut s₀ (nonDemandTransfer b t s) ps ↔ keptBut s₀ s ps := by
  simp only [nonDemandTransfer]
  repeat' split
  all_goals simp [hp]
@[simp] theorem kept_decodeNote (ma : Nat) (out : DecodeOutcome) (soft : SoftMap) (hp : .regs ∈ ps ∧ .host ∈ ps ∧ .sched ∈ ps) :
    keptBut s₀ (decodeNote ma out soft s) ps ↔ keptBut s₀ s ps := by
  simp [decodeNote, hp]
@[simp] theorem kept_decodeDemand (c : Ctx) (out : DecodeOutcome) (soft : SoftMap)
    (hp : .regs ∈ ps ∧ .host ∈ ps ∧ .cache ∈ ps ∧ .sched ∈ ps ∧ .med ∈ ps ∧ .rcd ∈ ps ∧ .sbg ∈ ps ∧ .tnd ∈ ps ∧ .outbox ∈ ps
      ∧ .freeIx ∈ ps) :
    keptBut s₀ (decodeDemand c out soft s) ps ↔ keptBut s₀ s ps := by
  simp [decodeDemand, hp]
@[simp] theorem kept_decodeBank (n : Nat) (d : Desc) (out : DecodeOutcome) (soft : SoftMap)
    (hp : .regs ∈ ps ∧ .host ∈ ps ∧ .cache ∈ ps ∧ .sched ∈ ps ∧ .med ∈ ps ∧ .rcd ∈ ps ∧ .sbg ∈ ps ∧ .mbx ∈ ps ∧ .outbox ∈ ps) :
    keptBut s₀ (decodeBank n d out soft s) ps ↔ keptBut s₀ s ps := by
  simp only [decodeBank]
  repeat' split
  all_goals simp [hp]
@[simp] theorem kept_decodeStep (src : DecodeSource) (errs : BitErrors) (soft : SoftMap) (t : Nat)
    (hp : .gtc ∈ ps ∧ .stamp ∈ ps ∧ .regs ∈ ps ∧ .host ∈ ps ∧ .cache ∈ ps ∧ .sched ∈ ps ∧ .med ∈ ps ∧ .rcd ∈ ps ∧ .sbg ∈ ps
      ∧ .tnd ∈ ps ∧ .mbx ∈ ps ∧ .outbox ∈ ps ∧ .freeIx ∈ ps) :
    keptBut s₀ (decodeStep src errs soft t s) ps ↔ keptBut s₀ s ps := by
  unfold decodeStep
  repeat' split
  all_goals simp [hp]
@[simp] theorem kept_countLatency (c : Ctx) (hp : .regs ∈ ps) :
    keptBut s₀ (countLatency c s) ps ↔ keptBut s₀ s ps := by
  simp [countLatency, hp]
@[simp] theorem kept_transmit (c : Ctx) (hp : .regs ∈ ps ∧ .host ∈ ps ∧ .sched ∈ ps ∧ .outbox ∈ ps) :
    keptBut s₀ (transmit c s) ps ↔ keptBut s₀ s ps := by
  simp [transmit, hp]
@[simp] theorem kept_transmitStep (tag : BitVec 16) (t : Nat)
    (hp : .gtc ∈ ps ∧ .stamp ∈ ps ∧ .regs ∈ ps ∧ .host ∈ ps ∧ .sched ∈ ps ∧ .outbox ∈ ps) :
    keptBut s₀ (transmitStep tag t s) ps ↔ keptBut s₀ s ps := by
  unfold transmitStep
  split <;> simp [hp]
@[simp] theorem kept_agePromotion (b : BankId) (hp : .gtc ∈ ps ∧ .stamp ∈ ps ∧ .sched ∈ ps) :
    keptBut s₀ (agePromotion b s) ps ↔ keptBut s₀ s ps := by
  unfold agePromotion
  split <;> simp [hp]
@[simp] theorem kept_suspendLong (b : BankId) (hp : .gtc ∈ ps ∧ .stamp ∈ ps ∧ .regs ∈ ps ∧ .sched ∈ ps) :
    keptBut s₀ (suspendLong b s) ps ↔ keptBut s₀ s ps := by
  unfold suspendLong
  split <;> simp [hp]
@[simp] theorem kept_jobDone (g : Nat) (hp : .regs ∈ ps ∧ .sched ∈ ps ∧ .med ∈ ps) :
    keptBut s₀ (jobDone g s) ps ↔ keptBut s₀ s ps := by
  unfold jobDone
  split <;> simp [hp]

/-! ### Recover -/

@[simp] theorem kept_selectCkpts (r : RecoverReads) (hp : .regs ∈ ps ∧ .med ∈ ps ∧ .sbg ∈ ps) :
    keptBut s₀ (selectCkpts r s) ps ↔ keptBut s₀ s ps := by
  simp [selectCkpts, hp]
@[simp] theorem kept_loadTables (us : List Ckpt) (hp : .regs ∈ ps ∧ .med ∈ ps) :
    keptBut s₀ (loadTables us s) ps ↔ keptBut s₀ s ps := by
  simp [loadTables, hp]
@[simp] theorem kept_loadPtr (r : Nat) (hp : .regs ∈ ps ∧ .med ∈ ps) :
    keptBut s₀ (loadPtr r s) ps ↔ keptBut s₀ s ps := by
  simp only [loadPtr]
  repeat' split
  all_goals simp [hp]
@[simp] theorem kept_loadPtrs (hp : .regs ∈ ps ∧ .host ∈ ps ∧ .med ∈ ps ∧ .rcd ∈ ps ∧ .outbox ∈ ps) :
    keptBut s₀ (loadPtrs s) ps ↔ keptBut s₀ s ps := by
  simp [loadPtrs, hp]
@[simp] theorem kept_notePoison (k line : Nat) (hp : .regs ∈ ps ∧ .host ∈ ps) :
    keptBut s₀ (notePoison k line s) ps ↔ keptBut s₀ s ps := by
  simp [notePoison, hp]
@[simp] theorem kept_restoreScratch (k : Nat) (hp : .regs ∈ ps ∧ .host ∈ ps ∧ .cache ∈ ps) :
    keptBut s₀ (restoreScratch k s) ps ↔ keptBut s₀ s ps := by
  simp [restoreScratch, hp]
@[simp] theorem kept_restoreLine (live : Bool) (k : Nat)
    (hp : .regs ∈ ps ∧ .host ∈ ps ∧ .cache ∈ ps ∧ .med ∈ ps ∧ .life ∈ ps ∧ .rcd ∈ ps ∧ .sbg ∈ ps ∧ .outbox ∈ ps) :
    keptBut s₀ (restoreLine live k s) ps ↔ keptBut s₀ s ps := by
  simp only [restoreLine]
  repeat' split
  all_goals simp [hp]
@[simp] theorem kept_restoreKeys (live : Bool) (ks : List Nat)
    (hp : .regs ∈ ps ∧ .host ∈ ps ∧ .cache ∈ ps ∧ .med ∈ ps ∧ .life ∈ ps ∧ .rcd ∈ ps ∧ .sbg ∈ ps ∧ .outbox ∈ ps) :
    keptBut s₀ (restoreKeys live ks s) ps ↔ keptBut s₀ s ps := by
  simp [restoreKeys, hp]
@[simp] theorem kept_feedHome (hp : .regs ∈ ps ∧ .sched ∈ ps ∧ .med ∈ ps) :
    keptBut s₀ (feedHome s) ps ↔ keptBut s₀ s ps := by
  simp [feedHome, hp]
@[simp] theorem kept_startSweep (hp : .regs ∈ ps ∧ .med ∈ ps ∧ .life ∈ ps ∧ .outbox ∈ ps) :
    keptBut s₀ (startSweep s) ps ↔ keptBut s₀ s ps := by
  simp only [startSweep]
  refine (kept_forEach (fun n u => ?_) _).trans (by simp [hp])
  exact (kept_forEach (fun v w => by simp [hp]) _).mpr (keptBut_refl u ps)

@[simp] theorem kept_closeRecord (hp : .regs ∈ ps ∧ .life ∈ ps ∧ .sbg ∈ ps) :
    keptBut s₀ (closeRecord s) ps ↔ keptBut s₀ s ps := by
  simp [closeRecord, hp]
@[simp] theorem kept_recProgress
    (hp : .regs ∈ ps ∧ .host ∈ ps ∧ .cache ∈ ps ∧ .sched ∈ ps ∧ .med ∈ ps ∧ .life ∈ ps ∧ .rcd ∈ ps ∧ .sbg ∈ ps ∧ .outbox ∈ ps) :
    keptBut s₀ (recProgress s) ps ↔ keptBut s₀ s ps := by
  unfold recProgress
  repeat' split
  all_goals simp [hp]
@[simp] theorem kept_areaRetired (hp : .regs ∈ ps ∧ .med ∈ ps) :
    keptBut s₀ (areaRetired s) ps ↔ keptBut s₀ s ps := by
  simp [areaRetired, hp]
@[simp] theorem kept_fallbackSealed
    (hp : .regs ∈ ps ∧ .host ∈ ps ∧ .cache ∈ ps ∧ .sched ∈ ps ∧ .med ∈ ps ∧ .life ∈ ps ∧ .rcd ∈ ps ∧ .sbg ∈ ps ∧ .outbox ∈ ps) :
    keptBut s₀ (fallbackSealed s) ps ↔ keptBut s₀ s ps := by
  simp [fallbackSealed, hp]
@[simp] theorem kept_backScratch (l : Nat) (hp : .cache ∈ ps) :
    keptBut s₀ (backScratch l s) ps ↔ keptBut s₀ s ps := by
  simp [backScratch, hp]
@[simp] theorem kept_replacePinned (w : Way) (hp : .host ∈ ps ∧ .cache ∈ ps ∧ .med ∈ ps ∧ .rcd ∈ ps ∧ .sbg ∈ ps ∧ .outbox ∈ ps) :
    keptBut s₀ (replacePinned w s) ps ↔ keptBut s₀ s ps := by
  unfold replacePinned
  split <;> simp [hp]
@[simp] theorem kept_applyCarve (hp : .regs ∈ ps ∧ .host ∈ ps ∧ .cache ∈ ps ∧ .med ∈ ps ∧ .rcd ∈ ps ∧ .sbg ∈ ps ∧ .outbox ∈ ps) :
    keptBut s₀ (applyCarve s) ps ↔ keptBut s₀ s ps := by
  simp [applyCarve, hp]
@[simp] theorem kept_setActive (hp : .host ∈ ps) :
    keptBut s₀ (setActive s) ps ↔ keptBut s₀ s ps := by
  simp [setActive, hp]
@[simp] theorem kept_restoreLive (r : RecoverReads) (c : Ckpt)
    (hp : .regs ∈ ps ∧ .host ∈ ps ∧ .cache ∈ ps ∧ .sched ∈ ps ∧ .med ∈ ps ∧ .life ∈ ps ∧ .rcd ∈ ps ∧ .sbg ∈ ps ∧ .outbox ∈ ps) :
    keptBut s₀ (restoreLive r c s) ps ↔ keptBut s₀ s ps := by
  simp [restoreLive, hp]
@[simp] theorem kept_fallback (r : RecoverReads) (live : Option Ckpt) (q a : Nat)
    (hp : .regs ∈ ps ∧ .host ∈ ps ∧ .cache ∈ ps ∧ .sched ∈ ps ∧ .med ∈ ps ∧ .life ∈ ps ∧ .rcd ∈ ps ∧ .sbg ∈ ps ∧ .outbox ∈ ps) :
    keptBut s₀ (fallback r live q a s) ps ↔ keptBut s₀ s ps := by
  simp [fallback, hp]
@[simp] theorem kept_countDirty (hp : .regs ∈ ps ∧ .life ∈ ps) :
    keptBut s₀ (countDirty s) ps ↔ keptBut s₀ s ps := by
  simp [countDirty, hp]
@[simp] theorem kept_openCase (r : RecoverReads) (us : List Ckpt)
    (hp : .regs ∈ ps ∧ .host ∈ ps ∧ .cache ∈ ps ∧ .sched ∈ ps ∧ .med ∈ ps ∧ .life ∈ ps ∧ .rcd ∈ ps ∧ .sbg ∈ ps ∧ .outbox ∈ ps) :
    keptBut s₀ (openCase r us s) ps ↔ keptBut s₀ s ps := by
  unfold openCase
  split <;> simp [hp]
@[simp] theorem kept_decideCase (r : RecoverReads) (us : List Ckpt)
    (hp : .regs ∈ ps ∧ .host ∈ ps ∧ .cache ∈ ps ∧ .sched ∈ ps ∧ .med ∈ ps ∧ .life ∈ ps ∧ .rcd ∈ ps ∧ .sbg ∈ ps ∧ .outbox ∈ ps) :
    keptBut s₀ (decideCase r us s) ps ↔ keptBut s₀ s ps := by
  unfold decideCase
  repeat' split
  all_goals simp [hp]

/-! ### Ledger -/

@[simp] theorem kept_ledgerCondition (cover base : Nat) (hp : .regs ∈ ps ∧ .host ∈ ps ∧ .led ∈ ps ∧ .rcd ∈ ps ∧ .outbox ∈ ps) :
    keptBut s₀ (ledgerCondition cover base s) ps ↔ keptBut s₀ s ps := by
  simp [ledgerCondition, hp]
@[simp] theorem kept_backPressure (allow : Nat) (hp : .regs ∈ ps) :
    keptBut s₀ (backPressure allow s) ps ↔ keptBut s₀ s ps := by
  simp [backPressure, hp]
@[simp] theorem kept_ledgerAon (hp : .regs ∈ ps ∧ .led ∈ ps) :
    keptBut s₀ (ledgerAon s) ps ↔ keptBut s₀ s ps := by
  simp [ledgerAon, hp]
@[simp] theorem kept_ledgerTick (hp : .regs ∈ ps ∧ .host ∈ ps ∧ .led ∈ ps ∧ .rcd ∈ ps ∧ .outbox ∈ ps) :
    keptBut s₀ (ledgerTick s) ps ↔ keptBut s₀ s ps := by
  simp [ledgerTick, hp]
@[simp] theorem kept_returnCredits (hp : .regs ∈ ps ∧ .tnd ∈ ps ∧ .outbox ∈ ps) :
    keptBut s₀ (returnCredits s) ps ↔ keptBut s₀ s ps := by
  simp [returnCredits, hp]
@[simp] theorem kept_startCapTest (byCommand : Bool) (hp : .led ∈ ps) :
    keptBut s₀ (startCapTest byCommand s) ps ↔ keptBut s₀ s ps := by
  simp [startCapTest, hp]
@[simp] theorem kept_assertHold (hp : .regs ∈ ps ∧ .pins ∈ ps ∧ .led ∈ ps) :
    keptBut s₀ (assertHold s) ps ↔ keptBut s₀ s ps := by
  simp [assertHold, hp]
@[simp] theorem kept_capAccept (c : Nat) (hp : .stamp ∈ ps ∧ .regs ∈ ps ∧ .led ∈ ps ∧ .sbg ∈ ps) :
    keptBut s₀ (capAccept c s) ps ↔ keptBut s₀ s ps := by
  simp [capAccept, hp]
@[simp] theorem kept_capCommandEnd (result c : Nat) (hp : .regs ∈ ps ∧ .mbx ∈ ps ∧ .outbox ∈ ps) :
    keptBut s₀ (capCommandEnd result c s) ps ↔ keptBut s₀ s ps := by
  simp [capCommandEnd, hp]
@[simp] theorem kept_capFit (hp : .stamp ∈ ps ∧ .regs ∈ ps ∧ .pins ∈ ps ∧ .led ∈ ps ∧ .rcd ∈ ps ∧ .sbg ∈ ps ∧ .mbx ∈ ps ∧ .outbox ∈ ps) :
    keptBut s₀ (capFit s) ps ↔ keptBut s₀ s ps := by
  simp [capFit, hp]
@[simp] theorem kept_capModeChange (hp : .stamp ∈ ps ∧ .regs ∈ ps ∧ .pins ∈ ps ∧ .led ∈ ps ∧ .rcd ∈ ps ∧ .mbx ∈ ps ∧ .outbox ∈ ps) :
    keptBut s₀ (capModeChange s) ps ↔ keptBut s₀ s ps := by
  simp [capModeChange, hp]
@[simp] theorem kept_capResult (code : Nat)
    (hp : .stamp ∈ ps ∧ .regs ∈ ps ∧ .pins ∈ ps ∧ .led ∈ ps ∧ .rcd ∈ ps ∧ .sbg ∈ ps ∧ .mbx ∈ ps ∧ .outbox ∈ ps) :
    keptBut s₀ (capResult code s) ps ↔ keptBut s₀ s ps := by
  simp only [capResult]
  repeat' split
  all_goals simp [hp]
@[simp] theorem kept_capTestDue (hp : .led ∈ ps) :
    keptBut s₀ (capTestDue s) ps ↔ keptBut s₀ s ps := by
  simp [capTestDue, hp]
@[simp] theorem kept_capDeferEnd (hp : .gtc ∈ ps ∧ .stamp ∈ ps ∧ .led ∈ ps) :
    keptBut s₀ (capDeferEnd s) ps ↔ keptBut s₀ s ps := by
  simp [capDeferEnd, hp]
@[simp] theorem kept_capDiscardEnd (hp : .gtc ∈ ps ∧ .stamp ∈ ps ∧ .led ∈ ps) :
    keptBut s₀ (capDiscardEnd s) ps ↔ keptBut s₀ s ps := by
  simp [capDiscardEnd, hp]
@[simp] theorem kept_capTimeout
    (hp : .gtc ∈ ps ∧ .stamp ∈ ps ∧ .regs ∈ ps ∧ .pins ∈ ps ∧ .led ∈ ps ∧ .rcd ∈ ps ∧ .mbx ∈ ps ∧ .outbox ∈ ps) :
    keptBut s₀ (capTimeout s) ps ↔ keptBut s₀ s ps := by
  simp [capTimeout, hp]

/-! ### Operands -/

@[simp] theorem kept_answer (via : Transport) (op : Nat) (r : RetCode) (out : List Byte) (hp : .mbx ∈ ps ∧ .outbox ∈ ps) :
    keptBut s₀ (answer via op r out s) ps ↔ keptBut s₀ s ps := by
  simp [answer, hp]
@[simp] theorem kept_succeed (via : Transport) (op : Nat) (out : List Byte) (hp : .mbx ∈ ps ∧ .outbox ∈ ps) :
    keptBut s₀ (succeed via op out s) ps ↔ keptBut s₀ s ps := by
  simp [succeed, hp]
@[simp] theorem kept_refuse (via : Transport) (op vs : Nat) (hp : .mbx ∈ ps ∧ .outbox ∈ ps) :
    keptBut s₀ (refuse via op vs s) ps ↔ keptBut s₀ s ps := by
  simp [refuse, hp]
@[simp] theorem kept_refuseStd (via : Transport) (op rc : Nat) (hp : .mbx ∈ ps ∧ .outbox ∈ ps) :
    keptBut s₀ (refuseStd via op rc s) ps ↔ keptBut s₀ s ps := by
  simp [refuseStd, hp]
@[simp] theorem kept_succeedIf (via : Option Transport) (op : Nat) (out : List Byte) (hp : .mbx ∈ ps ∧ .outbox ∈ ps) :
    keptBut s₀ (succeedIf via op out s) ps ↔ keptBut s₀ s ps := by
  unfold succeedIf
  split <;> simp [hp]
@[simp] theorem kept_refuseIf (via : Option Transport) (op vs : Nat) (hp : .mbx ∈ ps ∧ .outbox ∈ ps) :
    keptBut s₀ (refuseIf via op vs s) ps ↔ keptBut s₀ s ps := by
  unfold refuseIf
  split <;> simp [hp]
@[simp] theorem kept_command (via : Transport) (op : Nat) (acc : Accept) (lenOk : Nat → Bool) (input : List Byte) (body : State → State)
    (hp : .mbx ∈ ps ∧ .outbox ∈ ps) (hb : keptBut s (body s) ps) :
    keptBut s₀ (command via op acc lenOk input body s) ps ↔ keptBut s₀ s ps := by
  obtain h | ⟨vs, h⟩ | h | ⟨h, -⟩ := command_cases via op acc lenOk input body s <;> rw [h]
  · simp [hp]
  · simp [hp]
  · exact keptBut_iff hb

@[simp] theorem kept_reloadLater (ranges : List (Nat × Nat)) (hp : .mbx ∈ ps) :
    keptBut s₀ (reloadLater ranges s) ps ↔ keptBut s₀ s ps := by
  simp [reloadLater, hp]
@[simp] theorem kept_finishStored (via : Transport) (op : Nat) (pages : List Nat) (reload : List (Nat × Nat)) (out : List Byte)
    (hp : .mbx ∈ ps ∧ .outbox ∈ ps) :
    keptBut s₀ (finishStored via op pages reload out s) ps ↔ keptBut s₀ s ps := by
  simp [finishStored, hp]
@[simp] theorem kept_certAnswer (ok : Bool) (c : CertWait) (hp : .outbox ∈ ps ∧ .freeIx ∈ ps) :
    keptBut s₀ (certAnswer ok c s) ps ↔ keptBut s₀ s ps := by
  simp [certAnswer, hp]
@[simp] theorem kept_certStored (p : Nat) (ok : Bool) (hp : .host ∈ ps ∧ .outbox ∈ ps ∧ .freeIx ∈ ps) :
    keptBut s₀ (certStored p ok s) ps ↔ keptBut s₀ s ps := by
  simp [certStored, hp]
@[simp] theorem kept_bgStored (p : Nat) (ok : Bool) (hp : .regs ∈ ps ∧ .mbx ∈ ps ∧ .outbox ∈ ps) :
    keptBut s₀ (bgStored p ok s) ps ↔ keptBut s₀ s ps := by
  unfold bgStored
  split <;> simp [hp]
@[simp] theorem kept_pageStored (p : Nat) (ok : Bool) (hp : .regs ∈ ps ∧ .host ∈ ps ∧ .mbx ∈ ps ∧ .outbox ∈ ps ∧ .freeIx ∈ ps) :
    keptBut s₀ (pageStored p ok s) ps ↔ keptBut s₀ s ps := by
  simp [pageStored, hp]
@[simp] theorem kept_startBg (via : Transport) (op : Nat) (b : Bg) (work : State → State)
    (hp : .mbx ∈ ps ∧ .outbox ∈ ps) (hw : ∀ u, keptBut u (work u) ps) :
    keptBut s₀ (startBg via op b work s) ps ↔ keptBut s₀ s ps := by
  unfold startBg
  split
  · simp [hp]
  · split
    · simp [hp]
    · exact (keptBut_iff (hw _)).trans (by simp [hp])

end

end Sys2Proof.Machine
end

section
/-! SUPPORT. Footprints of the operations: the sequencer, register views, recorder, saddlebag and converters. -/
namespace Sys2Proof.Machine
set_option Elab.async false
section
variable {s₀ s : State} {ps : List Part}

/-! ### Seq -/

@[simp] theorem kept_countFault (t : Target) (c kind : Nat) (hp : .regs ∈ ps ∧ .seq ∈ ps ∧ .rcd ∈ ps ∧ .outbox ∈ ps) :
    keptBut s₀ (countFault t c kind s) ps ↔ keptBut s₀ s ps := by
  simp [countFault, hp]
@[simp] theorem kept_endSequence (hp : .regs ∈ ps ∧ .life ∈ ps ∧ .seq ∈ ps) :
    keptBut s₀ (endSequence s) ps ↔ keptBut s₀ s ps := by
  simp [endSequence, hp]
@[simp] theorem kept_gotoStep (k : Nat) (hp : .regs ∈ ps ∧ .life ∈ ps ∧ .seq ∈ ps) :
    keptBut s₀ (gotoStep k s) ps ↔ keptBut s₀ s ps := by
  simp [gotoStep, hp]
@[simp] theorem kept_nextStep (hp : .regs ∈ ps ∧ .life ∈ ps ∧ .seq ∈ ps) :
    keptBut s₀ (nextStep s) ps ↔ keptBut s₀ s ps := by
  simp [nextStep, hp]
@[simp] theorem kept_waitHere (hp : .seq ∈ ps) :
    keptBut s₀ (waitHere s) ps ↔ keptBut s₀ s ps := by
  simp [waitHere, hp]
@[simp] theorem kept_completeWait (hp : .regs ∈ ps ∧ .life ∈ ps ∧ .seq ∈ ps) :
    keptBut s₀ (completeWait s) ps ↔ keptBut s₀ s ps := by
  simp [completeWait, hp]
@[simp] theorem kept_afterStepFault (hp : .regs ∈ ps ∧ .life ∈ ps ∧ .seq ∈ ps) :
    keptBut s₀ (afterStepFault s) ps ↔ keptBut s₀ s ps := by
  simp [afterStepFault, hp]
@[simp] theorem kept_seqEnd (hp : .regs ∈ ps ∧ .life ∈ ps ∧ .seq ∈ ps) :
    keptBut s₀ (seqEnd s) ps ↔ keptBut s₀ s ps := by
  simp [seqEnd, hp]
@[simp] theorem kept_seqEnable (hp : .regs ∈ ps ∧ .life ∈ ps ∧ .seq ∈ ps) :
    keptBut s₀ (seqEnable s) ps ↔ keptBut s₀ s ps := by
  simp [seqEnable, hp]
@[simp] theorem kept_disableTarget (t : Target) (hp : .seq ∈ ps) :
    keptBut s₀ (disableTarget t s) ps ↔ keptBut s₀ s ps := by
  simp [disableTarget, hp]
@[simp] theorem kept_seqDisable (hp : .regs ∈ ps ∧ .life ∈ ps ∧ .seq ∈ ps) :
    keptBut s₀ (seqDisable s) ps ↔ keptBut s₀ s ps := by
  simp [seqDisable, hp]
@[simp] theorem kept_seqWaitPg (hp : .regs ∈ ps ∧ .life ∈ ps ∧ .seq ∈ ps) :
    keptBut s₀ (seqWaitPg s) ps ↔ keptBut s₀ s ps := by
  simp [seqWaitPg, hp]
@[simp] theorem kept_seqWaitTicks (hp : .seq ∈ ps) :
    keptBut s₀ (seqWaitTicks s) ps ↔ keptBut s₀ s ps := by
  simp [seqWaitTicks, hp]
@[simp] theorem kept_seqGangSync (hp : .regs ∈ ps ∧ .life ∈ ps ∧ .seq ∈ ps) :
    keptBut s₀ (seqGangSync s) ps ↔ keptBut s₀ s ps := by
  simp [seqGangSync, hp]
@[simp] theorem kept_seqBranch (hp : .regs ∈ ps ∧ .life ∈ ps ∧ .seq ∈ ps) :
    keptBut s₀ (seqBranch s) ps ↔ keptBut s₀ s ps := by
  simp [seqBranch, hp]
@[simp] theorem kept_waitTicksExpiry (hp : .gtc ∈ ps ∧ .stamp ∈ ps ∧ .regs ∈ ps ∧ .life ∈ ps ∧ .seq ∈ ps) :
    keptBut s₀ (waitTicksExpiry s) ps ↔ keptBut s₀ s ps := by
  simp [waitTicksExpiry, hp]
@[simp] theorem kept_railGood (hp : .seq ∈ ps ∧ .mbx ∈ ps ∧ .outbox ∈ ps) :
    keptBut s₀ (railGood s) ps ↔ keptBut s₀ s ps := by
  simp [railGood, hp]
@[simp] theorem kept_goodEnds (c : Nat) (hp : .regs ∈ ps ∧ .life ∈ ps ∧ .seq ∈ ps ∧ .mbx ∈ ps ∧ .outbox ∈ ps) :
    keptBut s₀ (goodEnds c s) ps ↔ keptBut s₀ s ps := by
  simp [goodEnds, hp]
@[simp] theorem kept_pgSeen (c : Nat) (hp : .regs ∈ ps ∧ .life ∈ ps ∧ .seq ∈ ps ∧ .mbx ∈ ps ∧ .outbox ∈ ps) :
    keptBut s₀ (pgSeen c s) ps ↔ keptBut s₀ s ps := by
  simp [pgSeen, hp]
@[simp] theorem kept_unarmUv (k : Nat) (hp : .regs ∈ ps ∧ .seq ∈ ps) :
    keptBut s₀ (unarmUv k s) ps ↔ keptBut s₀ s ps := by
  simp [unarmUv, hp]
@[simp] theorem kept_backoffEnd (tgt : Target) (hp : .gtc ∈ ps ∧ .stamp ∈ ps ∧ .seq ∈ ps) :
    keptBut s₀ (backoffEnd tgt s) ps ↔ keptBut s₀ s ps := by
  simp [backoffEnd, hp]
@[simp] theorem kept_comparatorRelease (c : Chan) (ov : Bool) (hp : .regs ∈ ps ∧ .life ∈ ps ∧ .seq ∈ ps ∧ .mbx ∈ ps ∧ .outbox ∈ ps) :
    keptBut s₀ (comparatorRelease c ov s) ps ↔ keptBut s₀ s ps := by
  simp [comparatorRelease, hp]
@[simp] theorem kept_driveChan (up : Bool) (c : Nat) (hp : .regs ∈ ps ∧ .seq ∈ ps ∧ .mcv ∈ ps) :
    keptBut s₀ (driveChan up c s) ps ↔ keptBut s₀ s ps := by
  simp [driveChan, hp]
@[simp] theorem kept_countTimeouts (t : Target) (hp : .seq ∈ ps) :
    keptBut s₀ (countTimeouts t s) ps ↔ keptBut s₀ s ps := by
  simp [countTimeouts, hp]
@[simp] theorem kept_driveEdge (e : Target × Bool) (hp : .regs ∈ ps ∧ .life ∈ ps ∧ .seq ∈ ps ∧ .mcv ∈ ps ∧ .mbx ∈ ps ∧ .outbox ∈ ps) :
    keptBut s₀ (driveEdge e s) ps ↔ keptBut s₀ s ps := by
  simp [driveEdge, hp]
@[simp] theorem kept_driveEdges (hp : .regs ∈ ps ∧ .life ∈ ps ∧ .seq ∈ ps ∧ .mcv ∈ ps ∧ .mbx ∈ ps ∧ .outbox ∈ ps) :
    keptBut s₀ (driveEdges s) ps ↔ keptBut s₀ s ps := by
  simp [driveEdges, hp]
@[simp] theorem kept_downDone
    (hp : .regs ∈ ps ∧ .pins ∈ ps ∧ .host ∈ ps ∧ .fw ∈ ps ∧ .life ∈ ps ∧ .seq ∈ ps ∧ .mcv ∈ ps ∧ .sbg ∈ ps ∧ .mbx ∈ ps ∧ .outbox ∈ ps) :
    keptBut s₀ (downDone s) ps ↔ keptBut s₀ s ps := by
  simp [downDone, hp]
@[simp] theorem kept_offDelayExpiry (hp : .gtc ∈ ps ∧ .stamp ∈ ps ∧ .regs ∈ ps ∧ .pins ∈ ps ∧ .host ∈ ps ∧ .fw ∈ ps ∧ .life ∈ ps
    ∧ .seq ∈ ps ∧ .mcv ∈ ps ∧ .sbg ∈ ps ∧ .mbx ∈ ps ∧ .outbox ∈ ps) :
    keptBut s₀ (offDelayExpiry s) ps ↔ keptBut s₀ s ps := by
  simp only [offDelayExpiry]
  split
  · rfl
  · split <;> (rename_i h; simp [hp, kept_of_stepDown h])

@[simp] theorem kept_slotUnsync (hp : .gtc ∈ ps ∧ .stamp ∈ ps ∧ .regs ∈ ps ∧ .seq ∈ ps) :
    keptBut s₀ (slotUnsync s) ps ↔ keptBut s₀ s ps := by
  simp [slotUnsync, hp]
@[simp] theorem kept_setMargin (c : Nat) (m : Margin) (hp : .seq ∈ ps) :
    keptBut s₀ (setMargin c m s) ps ↔ keptBut s₀ s ps := by
  simp [setMargin, hp]
@[simp] theorem kept_widen (c uv ov : Nat) (hp : .regs ∈ ps) :
    keptBut s₀ (widen c uv ov s) ps ↔ keptBut s₀ s ps := by
  simp [widen, hp]
@[simp] theorem kept_applyWin (c uv ov : Nat) (hp : .regs ∈ ps) :
    keptBut s₀ (applyWin c uv ov s) ps ↔ keptBut s₀ s ps := by
  simp [applyWin, hp]
@[simp] theorem kept_restoreWin (c : Nat) (hp : .regs ∈ ps) :
    keptBut s₀ (restoreWin c s) ps ↔ keptBut s₀ s ps := by
  simp [restoreWin, hp]
@[simp] theorem kept_sendPmbus (c : Nat) (m : Margin) (hp : .outbox ∈ ps) :
    keptBut s₀ (sendPmbus c m s) ps ↔ keptBut s₀ s ps := by
  unfold sendPmbus
  split <;> simp [hp]
@[simp] theorem kept_startPort (p : Nat) (hp : .seq ∈ ps ∧ .outbox ∈ ps) :
    keptBut s₀ (startPort p s) ps ↔ keptBut s₀ s ps := by
  unfold startPort
  split <;> simp [hp]
@[simp] theorem kept_startMargin (c action settle uv ov target : Nat) (via : Transport) (hp : .regs ∈ ps ∧ .seq ∈ ps ∧ .outbox ∈ ps) :
    keptBut s₀ (startMargin c action settle uv ov target via s) ps ↔ keptBut s₀ s ps := by
  simp [startMargin, hp]
@[simp] theorem kept_startNominal (c : Nat) (via : Option Transport) (hp : .regs ∈ ps ∧ .seq ∈ ps ∧ .outbox ∈ ps) :
    keptBut s₀ (startNominal c via s) ps ↔ keptBut s₀ s ps := by
  simp [startNominal, hp]
@[simp] theorem kept_marginResult (c r : Nat) (hp : .seq ∈ ps ∧ .mbx ∈ ps ∧ .outbox ∈ ps) :
    keptBut s₀ (marginResult c r s) ps ↔ keptBut s₀ s ps := by
  unfold marginResult
  split
  · simp
  · split <;> simp [hp]
@[simp] theorem kept_marginTick (x : Nat × Margin) (hp : .regs ∈ ps ∧ .seq ∈ ps ∧ .rcd ∈ ps ∧ .mbx ∈ ps ∧ .outbox ∈ ps) :
    keptBut s₀ (marginTick x s) ps ↔ keptBut s₀ s ps := by
  simp only [marginTick]
  repeat' split
  all_goals simp [hp]
@[simp] theorem kept_marginTicks (hp : .regs ∈ ps ∧ .seq ∈ ps ∧ .rcd ∈ ps ∧ .mbx ∈ ps ∧ .outbox ∈ ps) :
    keptBut s₀ (marginTicks s) ps ↔ keptBut s₀ s ps := by
  simp [marginTicks, hp]
@[simp] theorem kept_settleEnd (c : Chan) (hp : .gtc ∈ ps ∧ .stamp ∈ ps ∧ .regs ∈ ps ∧ .seq ∈ ps) :
    keptBut s₀ (settleEnd c s) ps ↔ keptBut s₀ s ps := by
  unfold settleEnd
  split <;> simp [hp]
@[simp] theorem kept_neutralEnd (c : Chan) (hp : .gtc ∈ ps ∧ .stamp ∈ ps ∧ .regs ∈ ps ∧ .seq ∈ ps) :
    keptBut s₀ (neutralEnd c s) ps ↔ keptBut s₀ s ps := by
  unfold neutralEnd
  split <;> simp [hp]
@[simp] theorem kept_nominalEnd (c : Chan) (hp : .gtc ∈ ps ∧ .stamp ∈ ps ∧ .regs ∈ ps ∧ .seq ∈ ps ∧ .mbx ∈ ps ∧ .outbox ∈ ps) :
    keptBut s₀ (nominalEnd c s) ps ↔ keptBut s₀ s ps := by
  unfold nominalEnd
  split <;> simp [hp]
@[simp] theorem kept_refuseVoutMode (c : Nat) (m : Margin) (hp : .regs ∈ ps ∧ .seq ∈ ps ∧ .mbx ∈ ps ∧ .outbox ∈ ps) :
    keptBut s₀ (refuseVoutMode c m s) ps ↔ keptBut s₀ s ps := by
  cases hv : m.via <;> simp [refuseVoutMode, hv, hp]

@[simp] theorem kept_pmbusOk (c : Nat) (m : Margin) (data : Nat) (hp : .regs ∈ ps ∧ .seq ∈ ps ∧ .mbx ∈ ps ∧ .outbox ∈ ps) :
    keptBut s₀ (pmbusOk c m data s) ps ↔ keptBut s₀ s ps := by
  unfold pmbusOk
  split <;> simp [hp]

/-! ### Rec -/

@[simp] theorem kept_refreshOldest (hp : .regs ∈ ps) :
    keptBut s₀ (refreshOldest s) ps ↔ keptBut s₀ s ps := by
  simp [refreshOldest, hp]
@[simp] theorem kept_putSlot (slot : Nat) (bs : List Byte) (hp : .sbg ∈ ps) :
    keptBut s₀ (putSlot slot bs s) ps ↔ keptBut s₀ s ps := by
  simp [putSlot, hp]
@[simp] theorem kept_blankSlot (slot : Nat) (hp : .sbg ∈ ps) :
    keptBut s₀ (blankSlot slot s) ps ↔ keptBut s₀ s ps := by
  simp [blankSlot, hp]
@[simp] theorem kept_repairCopy (slot b : Nat) (bs : List Byte) (hp : .regs ∈ ps ∧ .sbg ∈ ps) :
    keptBut s₀ (repairCopy slot b bs s) ps ↔ keptBut s₀ s ps := by
  simp [repairCopy, hp]
@[simp] theorem kept_scrubSlot (slot : Nat) (hp : .regs ∈ ps ∧ .sbg ∈ ps) :
    keptBut s₀ (scrubSlot slot s) ps ↔ keptBut s₀ s ps := by
  simp only [scrubSlot]
  repeat' split
  all_goals simp [hp]
@[simp] theorem kept_recScrub (hp : .regs ∈ ps ∧ .sbg ∈ ps) :
    keptBut s₀ (recScrub s) ps ↔ keptBut s₀ s ps := by
  simp [recScrub, hp]
@[simp] theorem kept_takeNumber (hp : .regs ∈ ps) :
    keptBut s₀ (takeNumber s) ps ↔ keptBut s₀ s ps := by
  simp [takeNumber, hp]
@[simp] theorem kept_afterRecord (type : Nat)
    (hp : .regs ∈ ps ∧ .pins ∈ ps ∧ .host ∈ ps ∧ .fw ∈ ps ∧ .life ∈ ps ∧ .seq ∈ ps ∧ .mcv ∈ ps ∧ .sbg ∈ ps ∧ .mbx ∈ ps ∧ .outbox ∈ ps) :
    keptBut s₀ (afterRecord type s) ps ↔ keptBut s₀ s ps := by
  simp [afterRecord, hp]
@[simp] theorem kept_refuseClear (hp : .rcd ∈ ps ∧ .mbx ∈ ps ∧ .outbox ∈ ps) :
    keptBut s₀ (match s.rcd.clearing with
      | some via => s |> onRcd (fun r => { r with clearing := none }) |> refuseIf via 0xC023 vsConflict
      | none => s) ps ↔ keptBut s₀ s ps := by
  split <;> simp [hp]

@[simp] theorem kept_loseEvent (l : Landed)
    (hp : .regs ∈ ps ∧ .pins ∈ ps ∧ .host ∈ ps ∧ .fw ∈ ps ∧ .life ∈ ps ∧ .seq ∈ ps ∧ .mcv ∈ ps ∧ .rcd ∈ ps ∧ .sbg ∈ ps ∧ .mbx ∈ ps
      ∧ .outbox ∈ ps) :
    keptBut s₀ (loseEvent l s) ps ↔ keptBut s₀ s ps := by
  simp only [loseEvent, when]
  split
  · split <;> simp [hp]
  · simp [hp]

@[simp] theorem kept_captureOne (l : Landed)
    (hp : .regs ∈ ps ∧ .pins ∈ ps ∧ .host ∈ ps ∧ .fw ∈ ps ∧ .life ∈ ps ∧ .seq ∈ ps ∧ .mcv ∈ ps ∧ .rcd ∈ ps ∧ .sbg ∈ ps ∧ .mbx ∈ ps
      ∧ .outbox ∈ ps) :
    keptBut s₀ (captureOne l s) ps ↔ keptBut s₀ s ps := by
  simp [captureOne, hp]
@[simp] theorem kept_captureStep
    (hp : .gtc ∈ ps ∧ .stamp ∈ ps ∧ .regs ∈ ps ∧ .pins ∈ ps ∧ .host ∈ ps ∧ .fw ∈ ps ∧ .life ∈ ps ∧ .seq ∈ ps ∧ .mcv ∈ ps ∧ .rcd ∈ ps
      ∧ .sbg ∈ ps ∧ .mbx ∈ ps ∧ .outbox ∈ ps) :
    keptBut s₀ (captureStep s) ps ↔ keptBut s₀ s ps := by
  unfold captureStep
  split <;> simp [hp]
@[simp] theorem kept_sendFragments (r : Rcd) (hp : .outbox ∈ ps) :
    keptBut s₀ (sendFragments r s) ps ↔ keptBut s₀ s ps := by
  simp [sendFragments, hp]
@[simp] theorem kept_forwardNext (hp : .rcd ∈ ps ∧ .outbox ∈ ps) :
    keptBut s₀ (forwardNext s) ps ↔ keptBut s₀ s ps := by
  unfold forwardNext
  split <;> simp [hp]
@[simp] theorem kept_forward (r : Rcd) (hp : .regs ∈ ps ∧ .rcd ∈ ps ∧ .outbox ∈ ps) :
    keptBut s₀ (forward r s) ps ↔ keptBut s₀ s ps := by
  simp [forward, hp]
@[simp] theorem kept_toRing (r : Rcd)
    (hp : .regs ∈ ps ∧ .pins ∈ ps ∧ .host ∈ ps ∧ .fw ∈ ps ∧ .life ∈ ps ∧ .seq ∈ ps ∧ .mcv ∈ ps ∧ .rcd ∈ ps ∧ .sbg ∈ ps ∧ .mbx ∈ ps
      ∧ .outbox ∈ ps) :
    keptBut s₀ (toRing r s) ps ↔ keptBut s₀ s ps := by
  simp [toRing, hp]
@[simp] theorem kept_recackTimeout (hp : .gtc ∈ ps ∧ .stamp ∈ ps ∧ .regs ∈ ps ∧ .rcd ∈ ps ∧ .outbox ∈ ps) :
    keptBut s₀ (recackTimeout s) ps ↔ keptBut s₀ s ps := by
  unfold recackTimeout
  split <;> simp [hp]
@[simp] theorem kept_takeRecord (fromFfl : Bool) (hp : .rcd ∈ ps) :
    keptBut s₀ (takeRecord fromFfl s) ps ↔ keptBut s₀ s ps := by
  simp [takeRecord, hp]
@[simp] theorem kept_writeStart
    (hp : .regs ∈ ps ∧ .pins ∈ ps ∧ .host ∈ ps ∧ .fw ∈ ps ∧ .life ∈ ps ∧ .seq ∈ ps ∧ .mcv ∈ ps ∧ .rcd ∈ ps ∧ .sbg ∈ ps ∧ .mbx ∈ ps
      ∧ .outbox ∈ ps) :
    keptBut s₀ (writeStart s) ps ↔ keptBut s₀ s ps := by
  unfold writeStart
  split <;> simp [hp]
@[simp] theorem kept_clearBlank (hp : .regs ∈ ps ∧ .sbg ∈ ps) :
    keptBut s₀ (clearBlank s) ps ↔ keptBut s₀ s ps := by
  simp [clearBlank, hp]
@[simp] theorem kept_clearProgress (hp : .rcd ∈ ps ∧ .mbx ∈ ps ∧ .outbox ∈ ps) :
    keptBut s₀ (clearProgress s) ps ↔ keptBut s₀ s ps := by
  unfold clearProgress
  split <;> simp [hp]
@[simp] theorem kept_recordStands (r : Rcd) (slot perm : Nat)
    (hp : .regs ∈ ps ∧ .pins ∈ ps ∧ .host ∈ ps ∧ .fw ∈ ps ∧ .life ∈ ps ∧ .seq ∈ ps ∧ .mcv ∈ ps ∧ .rcd ∈ ps ∧ .sbg ∈ ps ∧ .mbx ∈ ps
      ∧ .outbox ∈ ps) :
    keptBut s₀ (recordStands r slot perm s) ps ↔ keptBut s₀ s ps := by
  simp [recordStands, hp]
@[simp] theorem kept_bankFault (b slot : Nat) (hp : .regs ∈ ps ∧ .rcd ∈ ps) :
    keptBut s₀ (bankFault b slot s) ps ↔ keptBut s₀ s ps := by
  simp [bankFault, hp]
@[simp] theorem kept_goVolatile (r : Rcd) (fa fb : Bool)
    (hp : .regs ∈ ps ∧ .pins ∈ ps ∧ .host ∈ ps ∧ .fw ∈ ps ∧ .life ∈ ps ∧ .seq ∈ ps ∧ .mcv ∈ ps ∧ .rcd ∈ ps ∧ .sbg ∈ ps ∧ .mbx ∈ ps
      ∧ .outbox ∈ ps) :
    keptBut s₀ (goVolatile r fa fb s) ps ↔ keptBut s₀ s ps := by
  simp only [goVolatile]
  repeat' split
  all_goals simp [hp]
@[simp] theorem kept_verifyStep (aOk bOk : Bool)
    (hp : .regs ∈ ps ∧ .pins ∈ ps ∧ .host ∈ ps ∧ .fw ∈ ps ∧ .life ∈ ps ∧ .seq ∈ ps ∧ .mcv ∈ ps ∧ .rcd ∈ ps ∧ .sbg ∈ ps ∧ .mbx ∈ ps
      ∧ .outbox ∈ ps) :
    keptBut s₀ (verifyStep aOk bOk s) ps ↔ keptBut s₀ s ps := by
  unfold verifyStep
  split <;> simp [hp]
@[simp] theorem kept_scanClear (hp : .sbg ∈ ps) :
    keptBut s₀ (scanClear s) ps ↔ keptBut s₀ s ps := by
  unfold scanClear
  split <;> simp [hp]
@[simp] theorem kept_numberHeld (n : Nat) (hp : .regs ∈ ps ∧ .rcd ∈ ps) :
    keptBut s₀ (numberHeld n s) ps ↔ keptBut s₀ s ps := by
  simp [numberHeld, hp]
@[simp] theorem kept_scanEnd (hp : .regs ∈ ps ∧ .rcd ∈ ps ∧ .sbg ∈ ps) : keptBut s₀ (scanEnd s) ps ↔ keptBut s₀ s ps := by
  unfold scanEnd
  split
  · rfl
  · simp only [kept_recScrub, kept_fhigh, kept_onRcd, kept_numberHeld, kept_fclr, kept_refreshOldest, kept_fput, kept_when, kept_fset,
      ite_self, kept_scanClear, kept_ctrCheck, hp, and_self]

@[simp] theorem kept_readRecords (via : Transport) (input : List Byte) (hp : .mbx ∈ ps ∧ .outbox ∈ ps) :
    keptBut s₀ (readRecords via input s) ps ↔ keptBut s₀ s ps := by
  simp [readRecords, hp]
@[simp] theorem kept_readCursor (via : Transport) (input : List Byte) (hp : .mbx ∈ ps ∧ .outbox ∈ ps) :
    keptBut s₀ (readCursor via input s) ps ↔ keptBut s₀ s ps := by
  simp [readCursor, hp]
@[simp] theorem kept_getSnapshotList (via : Transport) (input : List Byte) (hp : .mbx ∈ ps ∧ .outbox ∈ ps) :
    keptBut s₀ (getSnapshotList via input s) ps ↔ keptBut s₀ s ps := by
  simp [getSnapshotList, hp]
@[simp] theorem kept_setSnapshotList (via : Transport) (input : List Byte) (hp : .regs ∈ ps ∧ .sbg ∈ ps ∧ .mbx ∈ ps ∧ .outbox ∈ ps) :
    keptBut s₀ (setSnapshotList via input s) ps ↔ keptBut s₀ s ps := by
  simp [setSnapshotList, hp]

/-! ### Sbg -/

@[simp] theorem kept_storeStart (b : Nat) (hp : .regs ∈ ps ∧ .sbg ∈ ps) :
    keptBut s₀ (storeStart b s) ps ↔ keptBut s₀ s ps := by
  unfold storeStart
  split
  · simp
  · split <;> simp [hp]
@[simp] theorem kept_clearJournal (hp : .med ∈ ps ∧ .sbg ∈ ps) :
    keptBut s₀ (clearJournal s) ps ↔ keptBut s₀ s ps := by
  unfold clearJournal
  split
  · simp
  · split <;> simp [hp]
@[simp] theorem kept_gapsStored (p : Nat) (hp : .med ∈ ps ∧ .sbg ∈ ps) :
    keptBut s₀ (gapsStored p s) ps ↔ keptBut s₀ s ps := by
  simp [gapsStored, hp]
@[simp] theorem kept_afterStore (p : Nat)
    (hp : .regs ∈ ps ∧ .host ∈ ps ∧ .cache ∈ ps ∧ .sched ∈ ps ∧ .med ∈ ps ∧ .rcd ∈ ps ∧ .sbg ∈ ps ∧ .mbx ∈ ps ∧ .outbox ∈ ps
      ∧ .freeIx ∈ ps) :
    keptBut s₀ (afterStore p s) ps ↔ keptBut s₀ s ps := by
  simp [afterStore, hp]
@[simp] theorem kept_drawCap (b : Nat) (hp : .regs ∈ ps) :
    keptBut s₀ (drawCap b s) ps ↔ keptBut s₀ s ps := by
  simp [drawCap, hp]
@[simp] theorem kept_storeGood (b : Nat) (r : StoreRun)
    (hp : .regs ∈ ps ∧ .host ∈ ps ∧ .cache ∈ ps ∧ .sched ∈ ps ∧ .med ∈ ps ∧ .rcd ∈ ps ∧ .sbg ∈ ps ∧ .mbx ∈ ps ∧ .outbox ∈ ps
      ∧ .freeIx ∈ ps) :
    keptBut s₀ (storeGood b r s) ps ↔ keptBut s₀ s ps := by
  simp [storeGood, hp]
@[simp] theorem kept_storeFails (b : Nat) (r : StoreRun)
    (hp : .regs ∈ ps ∧ .host ∈ ps ∧ .rcd ∈ ps ∧ .sbg ∈ ps ∧ .mbx ∈ ps ∧ .outbox ∈ ps ∧ .freeIx ∈ ps) :
    keptBut s₀ (storeFails b r s) ps ↔ keptBut s₀ s ps := by
  simp [storeFails, hp]
@[simp] theorem kept_storeComplete (b : Nat) (ok : Bool)
    (hp : .regs ∈ ps ∧ .host ∈ ps ∧ .cache ∈ ps ∧ .sched ∈ ps ∧ .med ∈ ps ∧ .rcd ∈ ps ∧ .sbg ∈ ps ∧ .mbx ∈ ps ∧ .outbox ∈ ps
      ∧ .freeIx ∈ ps) :
    keptBut s₀ (storeComplete b ok s) ps ↔ keptBut s₀ s ps := by
  unfold storeComplete
  split <;> simp [hp]
@[simp] theorem kept_lazyExpiry (p : Nat) (hp : .gtc ∈ ps ∧ .stamp ∈ ps ∧ .sbg ∈ ps) :
    keptBut s₀ (lazyExpiry p s) ps ↔ keptBut s₀ s ps := by
  simp [lazyExpiry, hp]
@[simp] theorem kept_recharge (b : Nat) (hp : .regs ∈ ps) :
    keptBut s₀ (recharge b s) ps ↔ keptBut s₀ s ps := by
  simp [recharge, hp]
@[simp] theorem kept_supplyThreshold (ok : Bool) (hp : .regs ∈ ps) :
    keptBut s₀ (supplyThreshold ok s) ps ↔ keptBut s₀ s ps := by
  simp [supplyThreshold, hp]
@[simp] theorem kept_refreshStart (hp : .gtc ∈ ps ∧ .stamp ∈ ps ∧ .regs ∈ ps ∧ .sbg ∈ ps) :
    keptBut s₀ (refreshStart s) ps ↔ keptBut s₀ s ps := by
  simp [refreshStart, hp]
@[simp] theorem kept_shadowRead (p : Nat) (differs : Bool) (hp : .regs ∈ ps ∧ .sbg ∈ ps) :
    keptBut s₀ (shadowRead p differs s) ps ↔ keptBut s₀ s ps := by
  simp [shadowRead, hp]
@[simp] theorem kept_refuseProt (via : Transport) (op : Nat) (hp : .regs ∈ ps ∧ .mbx ∈ ps ∧ .outbox ∈ ps) :
    keptBut s₀ (refuseProt via op s) ps ↔ keptBut s₀ s ps := by
  simp [refuseProt, hp]
@[simp] theorem kept_readPages (via : Transport) (input : List Byte) (hp : .mbx ∈ ps ∧ .outbox ∈ ps) :
    keptBut s₀ (readPages via input s) ps ↔ keptBut s₀ s ps := by
  simp [readPages, hp]

/-! ### Mcv -/

@[simp] theorem kept_feedFilter (k raw : Nat) (hp : .regs ∈ ps ∧ .mcv ∈ ps) :
    keptBut s₀ (feedFilter k raw s) ps ↔ keptBut s₀ s ps := by
  simp [feedFilter, hp]
@[simp] theorem kept_skipSlot (n ch : Nat) (hp : .regs ∈ ps ∧ .mcv ∈ ps) : keptBut s₀ (skipSlot n ch s) ps ↔ keptBut s₀ s ps := by
  cases ha : ainOf n ch <;> simp [skipSlot, ha, hp]

@[simp] theorem kept_resolveLate (n : Nat) (hp : .stamp ∈ ps ∧ .regs ∈ ps ∧ .mcv ∈ ps) :
    keptBut s₀ (resolveLate n s) ps ↔ keptBut s₀ s ps := by
  simp only [resolveLate]
  repeat' split
  all_goals simp [hp]
@[simp] theorem kept_goOn (n : Nat) (hp : .stamp ∈ ps ∧ .regs ∈ ps ∧ .mcv ∈ ps) :
    keptBut s₀ (goOn n s) ps ↔ keptBut s₀ s ps := by
  simp [goOn, hp]
@[simp] theorem kept_slotDue (n : Nat) (hp : .gtc ∈ ps ∧ .stamp ∈ ps ∧ .regs ∈ ps ∧ .mcv ∈ ps) :
    keptBut s₀ (slotDue n s) ps ↔ keptBut s₀ s ps := by
  simp only [slotDue]
  repeat' split
  all_goals simp [hp]
@[simp] theorem kept_triggerPeriod (n : Nat) (hp : .gtc ∈ ps ∧ .stamp ∈ ps ∧ .regs ∈ ps ∧ .mcv ∈ ps) :
    keptBut s₀ (triggerPeriod n s) ps ↔ keptBut s₀ s ps := by
  simp [triggerPeriod, hp]
@[simp] theorem kept_loadCal (n lo hi : Nat) (hp : .regs ∈ ps ∧ .freeIx ∈ ps) :
    keptBut s₀ (loadCal n lo hi s) ps ↔ keptBut s₀ s ps := by
  simp [loadCal, hp]
@[simp] theorem kept_calEnd (n : Nat) (accepted_ : Bool) (hp : .mcv ∈ ps ∧ .mbx ∈ ps ∧ .outbox ∈ ps) :
    keptBut s₀ (calEnd n accepted_ s) ps ↔ keptBut s₀ s ps := by
  cases hv : (conv s n).calVia <;> simp [calEnd, hv, hp]

@[simp] theorem kept_calJudge (n : Nat) (hp : .regs ∈ ps ∧ .mcv ∈ ps ∧ .rcd ∈ ps ∧ .mbx ∈ ps ∧ .outbox ∈ ps ∧ .freeIx ∈ ps) :
    keptBut s₀ (calJudge n s) ps ↔ keptBut s₀ s ps := by
  simp [calJudge, hp]
@[simp] theorem kept_calStopped (n : Nat) (hp : .regs ∈ ps ∧ .mcv ∈ ps ∧ .mbx ∈ ps ∧ .outbox ∈ ps) :
    keptBut s₀ (calStopped n s) ps ↔ keptBut s₀ s ps := by
  simp [calStopped, hp]
@[simp] theorem kept_calSample (n u : Nat) (hp : .regs ∈ ps ∧ .mcv ∈ ps ∧ .rcd ∈ ps ∧ .mbx ∈ ps ∧ .outbox ∈ ps ∧ .freeIx ∈ ps) :
    keptBut s₀ (calSample n u s) ps ↔ keptBut s₀ s ps := by
  simp [calSample, hp]
@[simp] theorem kept_calibrate (n : Nat) (hp : .mcv ∈ ps) :
    keptBut s₀ (calibrate n s) ps ↔ keptBut s₀ s ps := by
  simp [calibrate, hp]
@[simp] theorem kept_setDiag (p : Nat) (d : Option Diag) (hp : .mcv ∈ ps) :
    keptBut s₀ (setDiag p d s) ps ↔ keptBut s₀ s ps := by
  simp [setDiag, hp]
@[simp] theorem kept_diagEnd (p : Nat) (d : Diag) (span result : Nat)
    (hp : .regs ∈ ps ∧ .seq ∈ ps ∧ .mcv ∈ ps ∧ .rcd ∈ ps ∧ .mbx ∈ ps ∧ .outbox ∈ ps) :
    keptBut s₀ (diagEnd p d span result s) ps ↔ keptBut s₀ s ps := by
  cases hv : d.via <;> simp [diagEnd, hv, hp]

@[simp] theorem kept_diagSample (n raw : Nat) (hp : .regs ∈ ps ∧ .seq ∈ ps ∧ .mcv ∈ ps ∧ .rcd ∈ ps ∧ .mbx ∈ ps ∧ .outbox ∈ ps) :
    keptBut s₀ (diagSample n raw s) ps ↔ keptBut s₀ s ps := by
  simp only [diagSample]
  repeat' split
  all_goals simp [hp]
@[simp] theorem kept_diagStopped (n : Nat) (hp : .regs ∈ ps ∧ .seq ∈ ps ∧ .mcv ∈ ps ∧ .rcd ∈ ps ∧ .mbx ∈ ps ∧ .outbox ∈ ps) :
    keptBut s₀ (diagStopped n s) ps ↔ keptBut s₀ s ps := by
  unfold diagStopped
  split <;> simp [hp]
@[simp] theorem kept_diagStart (k : Nat) (via : Option Transport) (hp : .regs ∈ ps ∧ .mcv ∈ ps) :
    keptBut s₀ (diagStart k via s) ps ↔ keptBut s₀ s ps := by
  simp [diagStart, hp]
@[simp] theorem kept_diagnose (k : Nat) (hp : .regs ∈ ps ∧ .mcv ∈ ps) :
    keptBut s₀ (diagnose k s) ps ↔ keptBut s₀ s ps := by
  simp [diagnose, hp]
@[simp] theorem kept_limitCross (n k : Nat) (hi : Bool) (hp : .regs ∈ ps ∧ .host ∈ ps ∧ .mcv ∈ ps ∧ .rcd ∈ ps ∧ .outbox ∈ ps) :
    keptBut s₀ (limitCross n k hi s) ps ↔ keptBut s₀ s ps := by
  simp [limitCross, hp]
@[simp] theorem kept_limitHi (n k v : Nat) (hp : .regs ∈ ps ∧ .host ∈ ps ∧ .mcv ∈ ps ∧ .rcd ∈ ps ∧ .outbox ∈ ps) :
    keptBut s₀ (limitHi n k v s) ps ↔ keptBut s₀ s ps := by
  simp [limitHi, hp]
@[simp] theorem kept_limitLo (n k v : Nat) (hp : .regs ∈ ps ∧ .host ∈ ps ∧ .mcv ∈ ps ∧ .rcd ∈ ps ∧ .outbox ∈ ps) :
    keptBut s₀ (limitLo n k v s) ps ↔ keptBut s₀ s ps := by
  simp [limitLo, hp]
@[simp] theorem kept_checkLimits (n k : Nat) (hp : .regs ∈ ps ∧ .host ∈ ps ∧ .mcv ∈ ps ∧ .rcd ∈ ps ∧ .outbox ∈ ps) :
    keptBut s₀ (checkLimits n k s) ps ↔ keptBut s₀ s ps := by
  simp [checkLimits, hp]
@[simp] theorem kept_tjWarn (code : Nat) (hp : .regs ∈ ps ∧ .host ∈ ps ∧ .life ∈ ps ∧ .mcv ∈ ps ∧ .rcd ∈ ps ∧ .outbox ∈ ps) :
    keptBut s₀ (tjWarn code s) ps ↔ keptBut s₀ s ps := by
  simp [tjWarn, hp]
@[simp] theorem kept_pushFifo (n : Nat) (e : Result) (hp : .regs ∈ ps ∧ .mcv ∈ ps) :
    keptBut s₀ (pushFifo n e s) ps ↔ keptBut s₀ s ps := by
  simp [pushFifo, hp]
@[simp] theorem kept_pushRing (e : Result) (hp : .regs ∈ ps ∧ .mcv ∈ ps) :
    keptBut s₀ (pushRing e s) ps ↔ keptBut s₀ s ps := by
  simp [pushRing, hp]
@[simp] theorem kept_fifoPop (n : Nat) (hp : .mcv ∈ ps) :
    keptBut s₀ (fifoPop n s) ps ↔ keptBut s₀ s ps := by
  simp [fifoPop, hp]
@[simp] theorem kept_convTick (n : Nat) (hp : .stamp ∈ ps ∧ .regs ∈ ps ∧ .seq ∈ ps ∧ .mcv ∈ ps ∧ .rcd ∈ ps ∧ .mbx ∈ ps ∧ .outbox ∈ ps) :
    keptBut s₀ (convTick n s) ps ↔ keptBut s₀ s ps := by
  simp [convTick, hp]

end

end Sys2Proof.Machine
end

section
/-! SUPPORT. Footprints of the operations: the ring, the tandem, the life cycle, the port and authorisation. -/
namespace Sys2Proof.Machine
set_option Elab.async false
section
variable {s₀ s : State} {ps : List Part}

/-! ### Pel -/

@[simp] theorem kept_forwardFrame (type : Nat) (f : RingFrame) (hp : .outbox ∈ ps ∧ .freeIx ∈ ps) :
    keptBut s₀ (forwardFrame type f s) ps ↔ keptBut s₀ s ps := by
  simp [forwardFrame, hp]
@[simp] theorem kept_onFrame (type : Nat) (f : RingFrame) (k : State → State) (hp : .regs ∈ ps ∧ .outbox ∈ ps ∧ .freeIx ∈ ps)
    (hk : ∀ u, keptBut u (k u) ps) : keptBut s₀ (onFrame type f k s) ps ↔ keptBut s₀ s ps := by
  unfold onFrame
  split
  · rfl
  · split
    · simp [hp]
    · exact (keptBut_iff (hk _)).trans (by simp [hp])

@[simp] theorem kept_ringRecord (hp : .rcd ∈ ps) :
    keptBut s₀ (ringRecord s) ps ↔ keptBut s₀ s ps := by
  simp [ringRecord, hp]
@[simp] theorem kept_takeMaster (m epoch hops : Nat) (hp : .regs ∈ ps ∧ .rcd ∈ ps) :
    keptBut s₀ (takeMaster m epoch hops s) ps ↔ keptBut s₀ s ps := by
  simp [takeMaster, hp]
@[simp] theorem kept_beMaster (epoch : Nat) (hp : .regs ∈ ps ∧ .rcd ∈ ps ∧ .pel ∈ ps) :
    keptBut s₀ (beMaster epoch s) ps ↔ keptBut s₀ s ps := by
  simp [beMaster, hp]
@[simp] theorem kept_newBase (count : Nat) (hp : .regs ∈ ps ∧ .rcd ∈ ps ∧ .sbg ∈ ps ∧ .pel ∈ ps) :
    keptBut s₀ (newBase count s) ps ↔ keptBut s₀ s ps := by
  simp [newBase, hp]
@[simp] theorem kept_takeOver (hp : .regs ∈ ps ∧ .rcd ∈ ps ∧ .pel ∈ ps) :
    keptBut s₀ (takeOver s) ps ↔ keptBut s₀ s ps := by
  simp [takeOver, hp]
@[simp] theorem kept_setSplit (hp : .regs ∈ ps ∧ .rcd ∈ ps) :
    keptBut s₀ (setSplit s) ps ↔ keptBut s₀ s ps := by
  simp [setSplit, hp]
@[simp] theorem kept_joinBase (hp : .regs ∈ ps ∧ .rcd ∈ ps ∧ .pel ∈ ps) :
    keptBut s₀ (joinBase s) ps ↔ keptBut s₀ s ps := by
  simp [joinBase, hp]
@[simp] theorem kept_stepGtc (g : Nat) (hp : .gtc ∈ ps) : keptBut s₀ { s with gtc := g } ps ↔ keptBut s₀ s ps :=
  kept_of_part hp fun q hq => by cases q <;> simp_all [agree]

@[simp] theorem kept_correct (off16 : Int) (hp : .gtc ∈ ps ∧ .regs ∈ ps ∧ .rcd ∈ ps ∧ .pel ∈ ps) :
    keptBut s₀ (correct off16 s) ps ↔ keptBut s₀ s ps := by
  simp [correct, hp]

@[simp] theorem kept_slewStep (hp : .regs ∈ ps ∧ .rcd ∈ ps ∧ .pel ∈ ps) :
    keptBut s₀ (slewStep s) ps ↔ keptBut s₀ s ps := by
  simp [slewStep, hp]
@[simp] theorem kept_slotCheck (hp : .regs ∈ ps ∧ .pel ∈ ps) :
    keptBut s₀ (slotCheck s) ps ↔ keptBut s₀ s ps := by
  simp only [slotCheck]
  repeat' split
  all_goals simp [hp]
@[simp] theorem kept_ownReturned (f : RingFrame) (hp : .regs ∈ ps ∧ .pel ∈ ps) :
    keptBut s₀ (ownReturned f s) ps ↔ keptBut s₀ s ps := by
  simp [ownReturned, hp]
@[simp] theorem kept_timeHeard (f : RingFrame) (hp : .gtc ∈ ps ∧ .regs ∈ ps ∧ .rcd ∈ ps ∧ .pel ∈ ps) :
    keptBut s₀ (timeHeard f s) ps ↔ keptBut s₀ s ps := by
  simp [timeHeard, hp]
@[simp] theorem kept_timeFrame (f : RingFrame) (t : Nat)
    (hp : .gtc ∈ ps ∧ .stamp ∈ ps ∧ .regs ∈ ps ∧ .rcd ∈ ps ∧ .pel ∈ ps ∧ .outbox ∈ ps ∧ .freeIx ∈ ps) :
    keptBut s₀ (timeFrame f t s) ps ↔ keptBut s₀ s ps := by
  simp [timeFrame, hp]
@[simp] theorem kept_timeSend (hp : .gtc ∈ ps ∧ .stamp ∈ ps ∧ .pel ∈ ps ∧ .outbox ∈ ps) :
    keptBut s₀ (timeSend s) ps ↔ keptBut s₀ s ps := by
  simp [timeSend, hp]
@[simp] theorem kept_masterLoss (hp : .gtc ∈ ps ∧ .stamp ∈ ps ∧ .regs ∈ ps ∧ .rcd ∈ ps ∧ .sbg ∈ ps ∧ .pel ∈ ps) :
    keptBut s₀ (masterLoss s) ps ↔ keptBut s₀ s ps := by
  simp only [masterLoss]
  repeat' split
  all_goals simp [hp]
@[simp] theorem kept_claimEnd (hp : .gtc ∈ ps ∧ .stamp ∈ ps ∧ .regs ∈ ps ∧ .rcd ∈ ps ∧ .sbg ∈ ps ∧ .pel ∈ ps) :
    keptBut s₀ (claimEnd s) ps ↔ keptBut s₀ s ps := by
  simp only [claimEnd]
  repeat' split
  all_goals simp [hp]
@[simp] theorem kept_returnTimeout (hp : .gtc ∈ ps ∧ .stamp ∈ ps ∧ .regs ∈ ps ∧ .rcd ∈ ps) :
    keptBut s₀ (returnTimeout s) ps ↔ keptBut s₀ s ps := by
  simp [returnTimeout, hp]
@[simp] theorem kept_splitClear (hp : .gtc ∈ ps ∧ .stamp ∈ ps ∧ .regs ∈ ps) :
    keptBut s₀ (splitClear s) ps ↔ keptBut s₀ s ps := by
  simp [splitClear, hp]
@[simp] theorem kept_presentSend (hp : .outbox ∈ ps) :
    keptBut s₀ (presentSend s) ps ↔ keptBut s₀ s ps := by
  simp [presentSend, hp]
@[simp] theorem kept_dupFound (hp : .regs ∈ ps ∧ .pel ∈ ps) :
    keptBut s₀ (dupFound s) ps ↔ keptBut s₀ s ps := by
  simp [dupFound, hp]
@[simp] theorem kept_presentHeard (o : Nat) (w : BitVec 64) (hp : .regs ∈ ps ∧ .pel ∈ ps) :
    keptBut s₀ (presentHeard o w s) ps ↔ keptBut s₀ s ps := by
  simp [presentHeard, hp]
@[simp] theorem kept_presentExpiry (d : Devid) (hp : .gtc ∈ ps ∧ .stamp ∈ ps ∧ .regs ∈ ps) :
    keptBut s₀ (presentExpiry d s) ps ↔ keptBut s₀ s ps := by
  unfold presentExpiry
  split <;> simp [hp]
@[simp] theorem kept_noteSender (f : RingFrame) (hp : .regs ∈ ps ∧ .rcd ∈ ps) :
    keptBut s₀ (noteSender f s) ps ↔ keptBut s₀ s ps := by
  simp [noteSender, hp]
@[simp] theorem kept_brakeFrame (f : RingFrame) (hp : .regs ∈ ps ∧ .rcd ∈ ps ∧ .outbox ∈ ps ∧ .freeIx ∈ ps) :
    keptBut s₀ (brakeFrame f s) ps ↔ keptBut s₀ s ps := by
  simp [brakeFrame, hp]
@[simp] theorem kept_recordWhole (o : Nat) (bs : List Byte) (hp : .rcd ∈ ps ∧ .outbox ∈ ps) :
    keptBut s₀ (recordWhole o bs s) ps ↔ keptBut s₀ s ps := by
  simp [recordWhole, hp]
@[simp] theorem kept_recordFrame (f : RingFrame) (hp : .regs ∈ ps ∧ .rcd ∈ ps ∧ .outbox ∈ ps ∧ .freeIx ∈ ps) :
    keptBut s₀ (recordFrame f s) ps ↔ keptBut s₀ s ps := by
  simp [recordFrame, hp]
@[simp] theorem kept_recackFrame (f : RingFrame) (hp : .regs ∈ ps ∧ .rcd ∈ ps ∧ .outbox ∈ ps ∧ .freeIx ∈ ps) :
    keptBut s₀ (recackFrame f s) ps ↔ keptBut s₀ s ps := by
  refine kept_onFrame 6 f _ (by simp [hp]) fun u => ?_
  simp only
  split
  · split <;> simp [hp]
  · exact keptBut_refl u ps

/-! ### Tnd -/

@[simp] theorem kept_loadTandem (hp : .regs ∈ ps ∧ .tnd ∈ ps) :
    keptBut s₀ (loadTandem s) ps ↔ keptBut s₀ s ps := by
  simp [loadTandem, hp]
@[simp] theorem kept_tandemRecord (hp : .rcd ∈ ps) :
    keptBut s₀ (tandemRecord s) ps ↔ keptBut s₀ s ps := by
  simp [tandemRecord, hp]
@[simp] theorem kept_divergeOwn (hp : .regs ∈ ps ∧ .sbg ∈ ps ∧ .tnd ∈ ps) :
    keptBut s₀ (divergeOwn s) ps ↔ keptBut s₀ s ps := by
  simp [divergeOwn, hp]
@[simp] theorem kept_promoteHolder (hp : .regs ∈ ps ∧ .rcd ∈ ps ∧ .sbg ∈ ps ∧ .tnd ∈ ps) :
    keptBut s₀ (promoteHolder s) ps ↔ keptBut s₀ s ps := by
  simp [promoteHolder, hp]
@[simp] theorem kept_demote (hp : .regs ∈ ps ∧ .sbg ∈ ps ∧ .tnd ∈ ps) :
    keptBut s₀ (demote s) ps ↔ keptBut s₀ s ps := by
  simp [demote, hp]
@[simp] theorem kept_startResync (hp : .regs ∈ ps ∧ .tnd ∈ ps) :
    keptBut s₀ (startResync s) ps ↔ keptBut s₀ s ps := by
  simp [startResync, hp]
@[simp] theorem kept_configUp (m : ConfigMsg) (hp : .regs ∈ ps ∧ .host ∈ ps ∧ .rcd ∈ ps ∧ .sbg ∈ ps ∧ .tnd ∈ ps ∧ .outbox ∈ ps) :
    keptBut s₀ (configUp m s) ps ↔ keptBut s₀ s ps := by
  simp only [configUp]
  repeat' split
  all_goals simp [hp]
@[simp] theorem kept_configMsg (m : ConfigMsg) (hp : .regs ∈ ps ∧ .host ∈ ps ∧ .rcd ∈ ps ∧ .sbg ∈ ps ∧ .tnd ∈ ps ∧ .outbox ∈ ps) :
    keptBut s₀ (configMsg m s) ps ↔ keptBut s₀ s ps := by
  simp [configMsg, hp]
@[simp] theorem kept_tandemUp (x4at64 : Bool) (hp : .regs ∈ ps ∧ .tnd ∈ ps ∧ .outbox ∈ ps) :
    keptBut s₀ (tandemUp x4at64 s) ps ↔ keptBut s₀ s ps := by
  simp [tandemUp, hp]
@[simp] theorem kept_tandemLost (hp : .regs ∈ ps ∧ .host ∈ ps ∧ .sched ∈ ps ∧ .rcd ∈ ps ∧ .sbg ∈ ps ∧ .tnd ∈ ps ∧ .outbox ∈ ps) :
    keptBut s₀ (tandemLost s) ps ↔ keptBut s₀ s ps := by
  simp [tandemLost, hp]
@[simp] theorem kept_messageTimeout
    (hp : .gtc ∈ ps ∧ .stamp ∈ ps ∧ .regs ∈ ps ∧ .host ∈ ps ∧ .sched ∈ ps ∧ .rcd ∈ ps ∧ .sbg ∈ ps ∧ .tnd ∈ ps ∧ .outbox ∈ ps) :
    keptBut s₀ (messageTimeout s) ps ↔ keptBut s₀ s ps := by
  simp [messageTimeout, hp]
@[simp] theorem kept_mackDeadline (tag : BitVec 16)
    (hp : .gtc ∈ ps ∧ .stamp ∈ ps ∧ .regs ∈ ps ∧ .host ∈ ps ∧ .sched ∈ ps ∧ .rcd ∈ ps ∧ .sbg ∈ ps ∧ .tnd ∈ ps ∧ .outbox ∈ ps) :
    keptBut s₀ (mackDeadline tag s) ps ↔ keptBut s₀ s ps := by
  unfold mackDeadline
  split <;> simp [hp]
@[simp] theorem kept_idleEnd (hp : .gtc ∈ ps ∧ .stamp ∈ ps ∧ .regs ∈ ps ∧ .tnd ∈ ps) :
    keptBut s₀ (idleEnd s) ps ↔ keptBut s₀ s ps := by
  simp [idleEnd, hp]
@[simp] theorem kept_hbSend (hp : .outbox ∈ ps) :
    keptBut s₀ (hbSend s) ps ↔ keptBut s₀ s ps := by
  simp [hbSend, hp]
@[simp] theorem kept_onMessage (quiesce : Bool) (k : State → State) (hp : .tnd ∈ ps) (hk : ∀ u, keptBut u (k u) ps) :
    keptBut s₀ (onMessage quiesce k s) ps ↔ keptBut s₀ s ps := by
  unfold onMessage
  split
  · exact (keptBut_iff (hk _)).trans (by simp [hp])
  · rfl

@[simp] theorem kept_mwrMsg (m : MwrMsg)
    (hp : .regs ∈ ps ∧ .host ∈ ps ∧ .cache ∈ ps ∧ .sched ∈ ps ∧ .med ∈ ps ∧ .rcd ∈ ps ∧ .sbg ∈ ps ∧ .tnd ∈ ps ∧ .outbox ∈ ps) :
    keptBut s₀ (mwrMsg m s) ps ↔ keptBut s₀ s ps := by
  refine kept_onMessage false _ (by simp [hp]) fun u => ?_
  simp only
  split
  · simp [hp]
  · split <;> (rename_i h; simp [hp, kept_of_storeLine h])

@[simp] theorem kept_mackMsg (tag : BitVec 16) (hp : .regs ∈ ps ∧ .host ∈ ps ∧ .sched ∈ ps ∧ .tnd ∈ ps ∧ .outbox ∈ ps) :
    keptBut s₀ (mackMsg tag s) ps ↔ keptBut s₀ s ps := by
  simp [mackMsg, hp]
@[simp] theorem kept_mcredMsg (n : Nat) (hp : .regs ∈ ps ∧ .tnd ∈ ps) :
    keptBut s₀ (mcredMsg n s) ps ↔ keptBut s₀ s ps := by
  simp [mcredMsg, hp]
@[simp] theorem kept_storeWhole (line : Nat) (data : Line) (sp : BitVec 4)
    (hp : .host ∈ ps ∧ .cache ∈ ps ∧ .sched ∈ ps ∧ .med ∈ ps ∧ .rcd ∈ ps ∧ .sbg ∈ ps ∧ .outbox ∈ ps) :
    keptBut s₀ (storeWhole line data sp s) ps ↔ keptBut s₀ s ps :=
  kept_forEach (fun _ u => (kept_storeLine _ _ _ _ hp).2 (keptBut_refl u ps)) _

@[simp] theorem kept_mrelMsg (slot extent : Nat) (hp : .cache ∈ ps ∧ .sched ∈ ps ∧ .med ∈ ps ∧ .tnd ∈ ps) :
    keptBut s₀ (mrelMsg slot extent s) ps ↔ keptBut s₀ s ps := by
  simp [mrelMsg, hp]
@[simp] theorem kept_rsyncMsg (m : RsyncMsg)
    (hp : .host ∈ ps ∧ .cache ∈ ps ∧ .sched ∈ ps ∧ .med ∈ ps ∧ .rcd ∈ ps ∧ .sbg ∈ ps ∧ .tnd ∈ ps ∧ .outbox ∈ ps) :
    keptBut s₀ (rsyncMsg m s) ps ↔ keptBut s₀ s ps := by
  simp [rsyncMsg, hp]
@[simp] theorem kept_resyncOver (hp : .regs ∈ ps ∧ .rcd ∈ ps) :
    keptBut s₀ (resyncOver s) ps ↔ keptBut s₀ s ps := by
  simp [resyncOver, hp]
@[simp] theorem kept_clearDivergence (e : Nat) (hp : .regs ∈ ps ∧ .rcd ∈ ps ∧ .sbg ∈ ps ∧ .tnd ∈ ps) :
    keptBut s₀ (clearDivergence e s) ps ↔ keptBut s₀ s ps := by
  simp [clearDivergence, hp]
@[simp] theorem kept_rdoneMsg (slot extent : Nat) (hp : .regs ∈ ps ∧ .rcd ∈ ps ∧ .sbg ∈ ps ∧ .tnd ∈ ps) :
    keptBut s₀ (rdoneMsg slot extent s) ps ↔ keptBut s₀ s ps := by
  simp [rdoneMsg, hp]
@[simp] theorem kept_sendResyncLine (e : Nat) (hp : .regs ∈ ps ∧ .rcd ∈ ps ∧ .sbg ∈ ps ∧ .tnd ∈ ps ∧ .outbox ∈ ps) :
    keptBut s₀ (sendResyncLine e s) ps ↔ keptBut s₀ s ps := by
  unfold sendResyncLine
  split <;> simp [hp]
@[simp] theorem kept_beginExtent (hp : .regs ∈ ps ∧ .rcd ∈ ps ∧ .sbg ∈ ps ∧ .tnd ∈ ps ∧ .outbox ∈ ps) :
    keptBut s₀ (beginExtent s) ps ↔ keptBut s₀ s ps := by
  unfold beginExtent
  split <;> simp [hp]
@[simp] theorem kept_resyncTick (hp : .regs ∈ ps ∧ .rcd ∈ ps ∧ .sbg ∈ ps ∧ .tnd ∈ ps ∧ .outbox ∈ ps) :
    keptBut s₀ (resyncTick s) ps ↔ keptBut s₀ s ps := by
  simp [resyncTick, hp]
@[simp] theorem kept_grantMirror (rwd0 : Nat) (hp : .regs ∈ ps ∧ .outbox ∈ ps) :
    keptBut s₀ (grantMirror rwd0 s) ps ↔ keptBut s₀ s ps := by
  simp [grantMirror, hp]
@[simp] theorem kept_partnerPresent (o w : Nat) (hp : .regs ∈ ps ∧ .rcd ∈ ps ∧ .sbg ∈ ps ∧ .tnd ∈ ps) :
    keptBut s₀ (partnerPresent o w s) ps ↔ keptBut s₀ s ps := by
  simp [partnerPresent, hp]
@[simp] theorem kept_presentFrame (f : RingFrame) (t : Nat)
    (hp : .gtc ∈ ps ∧ .stamp ∈ ps ∧ .regs ∈ ps ∧ .rcd ∈ ps ∧ .sbg ∈ ps ∧ .pel ∈ ps ∧ .tnd ∈ ps ∧ .outbox ∈ ps ∧ .freeIx ∈ ps) :
    keptBut s₀ (presentFrame f t s) ps ↔ keptBut s₀ s ps := by
  simp [presentFrame, hp]
@[simp] theorem kept_roleMsg (reqAck : Nat) (hp : .regs ∈ ps ∧ .sbg ∈ ps ∧ .tnd ∈ ps ∧ .outbox ∈ ps) :
    keptBut s₀ (roleMsg reqAck s) ps ↔ keptBut s₀ s ps := by
  simp [roleMsg, hp]

/-! ### LifeCycle -/

@[simp] theorem kept_vaonWarn (hp : .regs ∈ ps ∧ .fw ∈ ps ∧ .sbg ∈ ps) :
    keptBut s₀ (vaonWarn s) ps ↔ keptBut s₀ s ps := by
  simp [vaonWarn, hp]
@[simp] theorem kept_freeIx (n : Nat) (hp : .freeIx ∈ ps) : keptBut s₀ { s with freeIx := n } ps ↔ keptBut s₀ s ps :=
  kept_of_part hp fun q hq => by cases q <;> simp_all [agree]

@[simp] theorem kept_loadUe (p : Nat) (hp : .sbg ∈ ps ∧ .freeIx ∈ ps) : keptBut s₀ (loadUe p s) ps ↔ keptBut s₀ s ps := by
  simp [loadUe, hp]

@[simp] theorem kept_loadCorrected (p : Nat) (hp : .sbg ∈ ps) :
    keptBut s₀ (loadCorrected p s) ps ↔ keptBut s₀ s ps := by
  simp [loadCorrected, hp]
@[simp] theorem kept_loadAll (hp : .regs ∈ ps) :
    keptBut s₀ (loadAll s) ps ↔ keptBut s₀ s ps := by
  simp [loadAll, hp]
@[simp] theorem kept_loadHoldUv (hp : .regs ∈ ps) :
    keptBut s₀ (loadHoldUv s) ps ↔ keptBut s₀ s ps := by
  simp [loadHoldUv, hp]
@[simp] theorem kept_loadTable (hp : .regs ∈ ps) :
    keptBut s₀ (loadTable s) ps ↔ keptBut s₀ s ps := by
  simp [loadTable, hp]
@[simp] theorem kept_takeKey (a b n : Nat) (hp : .regs ∈ ps ∧ .sbg ∈ ps) :
    keptBut s₀ (takeKey a b n s) ps ↔ keptBut s₀ s ps := by
  unfold takeKey
  split <;> simp [hp]
@[simp] theorem kept_loadKeys (hp : .regs ∈ ps ∧ .med ∈ ps ∧ .sbg ∈ ps) :
    keptBut s₀ (loadKeys s) ps ↔ keptBut s₀ s ps := by
  simp only [loadKeys]
  repeat' split
  all_goals simp [hp]
@[simp] theorem kept_loadJournal (hp : .regs ∈ ps) :
    keptBut s₀ (loadJournal s) ps ↔ keptBut s₀ s ps := by
  simp only [loadJournal]
  repeat' split
  all_goals simp [hp]
@[simp] theorem kept_noteUe (ue : List Nat) (hp : .regs ∈ ps ∧ .host ∈ ps ∧ .rcd ∈ ps ∧ .outbox ∈ ps) :
    keptBut s₀ (noteUe ue s) ps ↔ keptBut s₀ s ps := by
  unfold noteUe
  split <;> simp [hp]
@[simp] theorem kept_recallEnd (straps : Devid) (corrected ue0 : List Nat)
    (hp : .regs ∈ ps ∧ .host ∈ ps ∧ .med ∈ ps ∧ .mcv ∈ ps ∧ .rcd ∈ ps ∧ .sbg ∈ ps ∧ .pel ∈ ps ∧ .outbox ∈ ps ∧ .freeIx ∈ ps) :
    keptBut s₀ (recallEnd straps corrected ue0 s) ps ↔ keptBut s₀ s ps := by
  simp [recallEnd, hp]
@[simp] theorem kept_inputBack (hp : .fw ∈ ps ∧ .life ∈ ps) :
    keptBut s₀ (inputBack s) ps ↔ keptBut s₀ s ps := by
  simp [inputBack, hp]
@[simp] theorem kept_vinRise (hp : .regs ∈ ps ∧ .fw ∈ ps ∧ .life ∈ ps) :
    keptBut s₀ (vinRise s) ps ↔ keptBut s₀ s ps := by
  simp [vinRise, hp]
@[simp] theorem kept_pwrfailBack (hp : .regs ∈ ps ∧ .fw ∈ ps ∧ .life ∈ ps) :
    keptBut s₀ (pwrfailBack s) ps ↔ keptBut s₀ s ps := by
  simp [pwrfailBack, hp]
@[simp] theorem kept_abandonPrograms (hp : .sched ∈ ps ∧ .med ∈ ps) :
    keptBut s₀ (abandonPrograms s) ps ↔ keptBut s₀ s ps := by
  simp [abandonPrograms, hp]
@[simp] theorem kept_holdUv
    (hp : .regs ∈ ps ∧ .pins ∈ ps ∧ .host ∈ ps ∧ .sched ∈ ps ∧ .fw ∈ ps ∧ .med ∈ ps ∧ .life ∈ ps ∧ .seq ∈ ps ∧ .mcv ∈ ps ∧ .rcd ∈ ps
      ∧ .sbg ∈ ps ∧ .mbx ∈ ps ∧ .outbox ∈ ps) :
    keptBut s₀ (holdUv s) ps ↔ keptBut s₀ s ps := by
  simp [holdUv, hp]
@[simp] theorem kept_shortRecord (hp : .rcd ∈ ps) :
    keptBut s₀ (shortRecord s) ps ↔ keptBut s₀ s ps := by
  simp [shortRecord, hp]
@[simp] theorem kept_freewheelT1
    (hp : .gtc ∈ ps ∧ .stamp ∈ ps ∧ .regs ∈ ps ∧ .pins ∈ ps ∧ .host ∈ ps ∧ .sched ∈ ps ∧ .fw ∈ ps ∧ .med ∈ ps ∧ .life ∈ ps
      ∧ .seq ∈ ps ∧ .mcv ∈ ps ∧ .rcd ∈ ps ∧ .sbg ∈ ps ∧ .tnd ∈ ps ∧ .mbx ∈ ps ∧ .outbox ∈ ps) :
    keptBut s₀ (freewheelT1 s) ps ↔ keptBut s₀ s ps := by
  simp only [freewheelT1]
  repeat' split
  all_goals simp [hp]
@[simp] theorem kept_brakeT1
    (hp : .gtc ∈ ps ∧ .stamp ∈ ps ∧ .regs ∈ ps ∧ .pins ∈ ps ∧ .host ∈ ps ∧ .sched ∈ ps ∧ .fw ∈ ps ∧ .med ∈ ps ∧ .seq ∈ ps ∧ .rcd ∈ ps
      ∧ .sbg ∈ ps ∧ .tnd ∈ ps ∧ .outbox ∈ ps) :
    keptBut s₀ (brakeT1 s) ps ↔ keptBut s₀ s ps := by
  simp only [brakeT1]
  repeat' split
  all_goals simp [hp]
@[simp] theorem kept_autostoreEnd (hp : .regs ∈ ps ∧ .host ∈ ps ∧ .sched ∈ ps ∧ .fw ∈ ps ∧ .med ∈ ps ∧ .rcd ∈ ps) :
    keptBut s₀ (autostoreEnd s) ps ↔ keptBut s₀ s ps := by
  simp [autostoreEnd, hp]
@[simp] theorem kept_clearCore
    (hp : .host ∈ ps ∧ .cache ∈ ps ∧ .sched ∈ ps ∧ .led ∈ ps ∧ .fw ∈ ps ∧ .med ∈ ps ∧ .mbx ∈ ps) :
    keptBut s₀ (clearCore s) ps ↔ keptBut s₀ s ps :=
  kept_of_parts (by simp [hp]) (qs := [.host, .cache, .sched, .led, .fw, .med, .mbx]) fun q hq => by cases q <;> simp_all [agree, clearCore]

@[simp] theorem kept_rampSeq (hp : .regs ∈ ps ∧ .seq ∈ ps) :
    keptBut s₀ (rampSeq s) ps ↔ keptBut s₀ s ps := by
  simp [rampSeq, hp]
@[simp] theorem kept_loadHubCkpt (hp : .regs ∈ ps) :
    keptBut s₀ (loadHubCkpt s) ps ↔ keptBut s₀ s ps := by
  unfold loadHubCkpt
  split <;> simp [hp]
@[simp] theorem kept_coreRail (hp : .pins ∈ ps ∧ .outbox ∈ ps) :
    keptBut s₀ (coreRail s) ps ↔ keptBut s₀ s ps := by
  simp [coreRail, hp]
@[simp] theorem kept_microcode (version : Nat) (hp : .regs ∈ ps ∧ .life ∈ ps) :
    keptBut s₀ (microcode version s) ps ↔ keptBut s₀ s ps := by
  simp [microcode, hp]
@[simp] theorem kept_mmbRail (hp : .pins ∈ ps) :
    keptBut s₀ (mmbRail s) ps ↔ keptBut s₀ s ps := by
  simp [mmbRail, hp]
@[simp] theorem kept_releaseDies (hp : .pins ∈ ps ∧ .life ∈ ps) :
    keptBut s₀ (releaseDies s) ps ↔ keptBut s₀ s ps := by
  simp [releaseDies, hp]
@[simp] theorem kept_rstEnd (w : Nat) (hp : .gtc ∈ ps ∧ .stamp ∈ ps ∧ .regs ∈ ps ∧ .med ∈ ps ∧ .outbox ∈ ps) :
    keptBut s₀ (rstEnd w s) ps ↔ keptBut s₀ s ps := by
  simp [rstEnd, hp]
@[simp] theorem kept_sramRail (hp : .pins ∈ ps ∧ .life ∈ ps) :
    keptBut s₀ (sramRail s) ps ↔ keptBut s₀ s ps := by
  simp [sramRail, hp]
@[simp] theorem kept_modeReached (mode : Nat) (hp : .mbx ∈ ps ∧ .outbox ∈ ps) :
    keptBut s₀ (modeReached mode s) ps ↔ keptBut s₀ s ps := by
  simp [modeReached, hp]

/-! ### Port -/

@[simp] theorem kept_abortForeground (hp : .seq ∈ ps ∧ .mcv ∈ ps ∧ .rcd ∈ ps ∧ .mbx ∈ ps) :
    keptBut s₀ (abortForeground s) ps ↔ keptBut s₀ s ps := by
  simp [abortForeground, hp]
@[simp] theorem kept_resetDecode (hp : .host ∈ ps ∧ .sched ∈ ps) :
    keptBut s₀ (resetDecode s) ps ↔ keptBut s₀ s ps := by
  simp [resetDecode, hp]
@[simp] theorem kept_linkGone (hp : .regs ∈ ps ∧ .host ∈ ps) :
    keptBut s₀ (linkGone s) ps ↔ keptBut s₀ s ps := by
  simp [linkGone, hp]
@[simp] theorem kept_conventionalReset (cause : Nat)
    (hp : .regs ∈ ps ∧ .host ∈ ps ∧ .sched ∈ ps ∧ .seq ∈ ps ∧ .mcv ∈ ps ∧ .rcd ∈ ps ∧ .mbx ∈ ps ∧ .outbox ∈ ps) :
    keptBut s₀ (conventionalReset cause s) ps ↔ keptBut s₀ s ps := by
  simp [conventionalReset, hp]
@[simp] theorem kept_startTraining (hp : .outbox ∈ ps) :
    keptBut s₀ (startTraining s) ps ↔ keptBut s₀ s ps := by
  simp [startTraining, hp]
@[simp] theorem kept_restartLink (hp : .regs ∈ ps ∧ .host ∈ ps ∧ .outbox ∈ ps) :
    keptBut s₀ (restartLink s) ps ↔ keptBut s₀ s ps := by
  simp [restartLink, hp]
@[simp] theorem kept_perstAssert
    (hp : .regs ∈ ps ∧ .pins ∈ ps ∧ .host ∈ ps ∧ .sched ∈ ps ∧ .seq ∈ ps ∧ .mcv ∈ ps ∧ .rcd ∈ ps ∧ .mbx ∈ ps ∧ .outbox ∈ ps) :
    keptBut s₀ (perstAssert s) ps ↔ keptBut s₀ s ps := by
  simp [perstAssert, hp]
@[simp] theorem kept_perstRelease (hp : .pins ∈ ps ∧ .outbox ∈ ps) :
    keptBut s₀ (perstRelease s) ps ↔ keptBut s₀ s ps := by
  simp [perstRelease, hp]
@[simp] theorem kept_linkReset (cause : Nat)
    (hp : .regs ∈ ps ∧ .host ∈ ps ∧ .sched ∈ ps ∧ .seq ∈ ps ∧ .mcv ∈ ps ∧ .rcd ∈ ps ∧ .mbx ∈ ps ∧ .outbox ∈ ps) :
    keptBut s₀ (linkReset cause s) ps ↔ keptBut s₀ s ps := by
  simp [linkReset, hp]
@[simp] theorem kept_functionReset (hp : .regs ∈ ps ∧ .seq ∈ ps ∧ .mcv ∈ ps ∧ .rcd ∈ ps ∧ .mbx ∈ ps) :
    keptBut s₀ (functionReset s) ps ↔ keptBut s₀ s ps := by
  simp [functionReset, hp]
@[simp] theorem kept_cxlReset (hp : .regs ∈ ps ∧ .host ∈ ps ∧ .sched ∈ ps) :
    keptBut s₀ (cxlReset s) ps ↔ keptBut s₀ s ps := by
  simp [cxlReset, hp]
@[simp] theorem kept_cxlResetEnd (hp : .host ∈ ps) :
    keptBut s₀ (cxlResetEnd s) ps ↔ keptBut s₀ s ps := by
  simp [cxlResetEnd, hp]
@[simp] theorem kept_linkDegraded (hp : .regs ∈ ps ∧ .rcd ∈ ps) :
    keptBut s₀ (linkDegraded s) ps ↔ keptBut s₀ s ps := by
  simp [linkDegraded, hp]
@[simp] theorem kept_linkTrained (width rate : Nat) (hp : .regs ∈ ps ∧ .host ∈ ps ∧ .rcd ∈ ps ∧ .outbox ∈ ps) :
    keptBut s₀ (linkTrained width rate s) ps ↔ keptBut s₀ s ps := by
  simp [linkTrained, hp]
@[simp] theorem kept_linkRetrain (width rate : Nat) (hp : .regs ∈ ps ∧ .sched ∈ ps ∧ .rcd ∈ ps ∧ .outbox ∈ ps) :
    keptBut s₀ (linkRetrain width rate s) ps ↔ keptBut s₀ s ps := by
  simp [linkRetrain, hp]
@[simp] theorem kept_flitThreshold (retry : Bool) (hp : .host ∈ ps ∧ .outbox ∈ ps) :
    keptBut s₀ (flitThreshold retry s) ps ↔ keptBut s₀ s ps := by
  simp [flitThreshold, hp]
@[simp] theorem kept_ideRxError (hp : .regs ∈ ps ∧ .host ∈ ps ∧ .outbox ∈ ps) :
    keptBut s₀ (ideRxError s) ps ↔ keptBut s₀ s ps := by
  simp [ideRxError, hp]
@[simp] theorem kept_viralReceived (hp : .regs ∈ ps ∧ .host ∈ ps ∧ .rcd ∈ ps ∧ .outbox ∈ ps) :
    keptBut s₀ (viralReceived s) ps ↔ keptBut s₀ s ps := by
  simp [viralReceived, hp]
@[simp] theorem kept_gpfPhase (phase : Nat) (hp : .outbox ∈ ps) :
    keptBut s₀ (gpfPhase phase s) ps ↔ keptBut s₀ s ps := by
  simp [gpfPhase, hp]
@[simp] theorem kept_applyCommit (x : Nat × Decoder) (hp : .host ∈ ps) :
    keptBut s₀ (applyCommit x s) ps ↔ keptBut s₀ s ps := by
  simp [applyCommit, hp]
@[simp] theorem kept_applyCommits (hp : .host ∈ ps) :
    keptBut s₀ (applyCommits s) ps ↔ keptBut s₀ s ps := by
  simp [applyCommits, hp]
@[simp] theorem kept_commitDecoder (n : Nat) (v : DecoderWords) (hp : .host ∈ ps) :
    keptBut s₀ (commitDecoder n v s) ps ↔ keptBut s₀ s ps := by
  simp [commitDecoder, hp]
@[simp] theorem kept_tableAccess (e : Nat) (hp : .outbox ∈ ps) :
    keptBut s₀ (tableAccess e s) ps ↔ keptBut s₀ s ps := by
  simp only [tableAccess]
  repeat' split
  all_goals simp [hp]
@[simp] theorem kept_spdmError (via : SpdmTransport) (m : SpdmMessage) (code : Nat) (hp : .outbox ∈ ps) :
    keptBut s₀ (spdmError via m code s) ps ↔ keptBut s₀ s ps := by
  simp [spdmError, hp]
@[simp] theorem kept_spdmAnswer (via : SpdmTransport) (req : Nat) (m : SpdmMessage) (hp : .outbox ∈ ps ∧ .freeIx ∈ ps) :
    keptBut s₀ (spdmAnswer via req m s) ps ↔ keptBut s₀ s ps := by
  simp [spdmAnswer, hp]
@[simp] theorem kept_setStage (via : SpdmTransport) (n : Nat) (hp : .host ∈ ps) :
    keptBut s₀ (setStage via n s) ps ↔ keptBut s₀ s ps := by
  simp [setStage, hp]
@[simp] theorem kept_spdmNegotiate (req need next : Nat) (out : List Byte) (via : SpdmTransport) (m : SpdmMessage)
    (hp : .host ∈ ps ∧ .outbox ∈ ps) :
    keptBut s₀ (spdmNegotiate req need next out via m s) ps ↔ keptBut s₀ s ps := by
  simp [spdmNegotiate, hp]
@[simp] theorem kept_spdmRequest (req : Nat) (ok : Bool) (via : SpdmTransport) (m : SpdmMessage) (work : State → State)
    (hp : .outbox ∈ ps ∧ .freeIx ∈ ps) (hw : keptBut s (work s) ps) :
    keptBut s₀ (spdmRequest req ok via m work s) ps ↔ keptBut s₀ s ps := by
  have hi := keptBut_iff (s₀ := s₀) hw
  unfold spdmRequest
  repeat' split
  all_goals simp [hp, hi]

@[simp] theorem kept_getCertificate (via : SpdmTransport) (m : SpdmMessage) (hp : .outbox ∈ ps ∧ .freeIx ∈ ps) :
    keptBut s₀ (getCertificate via m s) ps ↔ keptBut s₀ s ps := by
  unfold getCertificate
  split <;> simp [hp]
@[simp] theorem kept_getMeasurements (via : SpdmTransport) (m : SpdmMessage) (hp : .outbox ∈ ps ∧ .freeIx ∈ ps) :
    keptBut s₀ (getMeasurements via m s) ps ↔ keptBut s₀ s ps := by
  simp [getMeasurements, hp]
@[simp] theorem kept_onSessions (f : List (BitVec 32 × Bool) → List (BitVec 32 × Bool)) (hp : .host ∈ ps) :
    keptBut s₀ (onSessions f s) ps ↔ keptBut s₀ s ps := by
  simp [onSessions, hp]
@[simp] theorem kept_keyExchange (via : SpdmTransport) (m : SpdmMessage) (hp : .host ∈ ps ∧ .outbox ∈ ps ∧ .freeIx ∈ ps) :
    keptBut s₀ (keyExchange via m s) ps ↔ keptBut s₀ s ps := by
  simp [keyExchange, hp]
@[simp] theorem kept_setCertificate (via : SpdmTransport) (m : SpdmMessage) (hp : .host ∈ ps ∧ .sbg ∈ ps ∧ .outbox ∈ ps ∧ .freeIx ∈ ps) :
    keptBut s₀ (setCertificate via m s) ps ↔ keptBut s₀ s ps := by
  simp [setCertificate, hp]
@[simp] theorem kept_cxlIdeKm (m : IdeKmMessage) (hp : .regs ∈ ps ∧ .host ∈ ps ∧ .outbox ∈ ps) :
    keptBut s₀ (cxlIdeKm m s) ps ↔ keptBut s₀ s ps := by
  simp [cxlIdeKm, hp]
@[simp] theorem kept_ideKm (m : IdeKmMessage) (hp : .host ∈ ps ∧ .outbox ∈ ps) :
    keptBut s₀ (ideKm m s) ps ↔ keptBut s₀ s ps := by
  simp [ideKm, hp]
@[simp] theorem kept_setEid (eid : Byte) (hp : .mbx ∈ ps ∧ .outbox ∈ ps) :
    keptBut s₀ (setEid eid s) ps ↔ keptBut s₀ s ps := by
  simp [setEid, hp]

/-! ### Auth -/

@[simp] theorem kept_dropNonce (via : Transport) (hp : .mbx ∈ ps) :
    keptBut s₀ (dropNonce via s) ps ↔ keptBut s₀ s ps := by
  simp [dropNonce, hp]
@[simp] theorem kept_nonceExpiry (via : Transport) (hp : .gtc ∈ ps ∧ .stamp ∈ ps ∧ .mbx ∈ ps) :
    keptBut s₀ (nonceExpiry via s) ps ↔ keptBut s₀ s ps := by
  unfold nonceExpiry
  split <;> simp [hp]
@[simp] theorem kept_issueNonce (via : Transport) (hp : .mbx ∈ ps ∧ .freeIx ∈ ps) :
    keptBut s₀ (issueNonce via s) ps ↔ keptBut s₀ s ps := by
  simp [issueNonce, hp]
@[simp] theorem kept_lockoutEnd (hp : .gtc ∈ ps ∧ .stamp ∈ ps ∧ .mbx ∈ ps) :
    keptBut s₀ (lockoutEnd s) ps ↔ keptBut s₀ s ps := by
  simp [lockoutEnd, hp]
@[simp] theorem kept_countAuthFail (hp : .regs ∈ ps) :
    keptBut s₀ (countAuthFail s) ps ↔ keptBut s₀ s ps := by
  simp [countAuthFail, hp]
@[simp] theorem kept_tokenFails (hp : .regs ∈ ps ∧ .mbx ∈ ps) :
    keptBut s₀ (tokenFails s) ps ↔ keptBut s₀ s ps := by
  simp [tokenFails, hp]
@[simp] theorem kept_authRecord (op vs : Nat) (input : List Byte) (hp : .rcd ∈ ps) :
    keptBut s₀ (authRecord op vs input s) ps ↔ keptBut s₀ s ps := by
  simp [authRecord, hp]
@[simp] theorem kept_checkToken (via : Transport) (op : Nat) (input : List Byte) (hp : .mbx ∈ ps ∧ .regs ∈ ps) :
    keptBut s₀ (checkToken via op input s).2 ps ↔ keptBut s₀ s ps := by
  unfold checkToken
  split
  · rfl
  split
  · simp [hp]
  split
  · simp [hp]
  · simp only
    split <;> simp [hp]

@[simp] theorem kept_authorised (via : Transport) (op : Nat) (input : List Byte) (own : State → Nat) (act : State → State)
    (hp : .regs ∈ ps ∧ .mbx ∈ ps ∧ .outbox ∈ ps ∧ .rcd ∈ ps) (ha : ∀ u, keptBut u (act u) ps) :
    keptBut s₀ (authorised via op input own act s) ps ↔ keptBut s₀ s ps := by
  have hi (u : State) := keptBut_iff (s₀ := s₀) (ha u)
  simp only [authorised]
  generalize (if (checkToken via op input s).1 ≠ 0 then _ else _) = vs
  split <;> simp [hp, hi]

@[simp] theorem kept_getDeviceStatus (via : Transport) (input : List Byte) (hp : .mbx ∈ ps ∧ .outbox ∈ ps ∧ .freeIx ∈ ps) :
    keptBut s₀ (getDeviceStatus via input s) ps ↔ keptBut s₀ s ps := by
  simp [getDeviceStatus, hp]
@[simp] theorem kept_awaitMode (via : Transport) (hp : .mbx ∈ ps) :
    keptBut s₀ (awaitMode via s) ps ↔ keptBut s₀ s ps := by
  simp [awaitMode, hp]
@[simp] theorem kept_marginsHome (hp : .regs ∈ ps ∧ .seq ∈ ps ∧ .outbox ∈ ps) :
    keptBut s₀ (marginsHome s) ps ↔ keptBut s₀ s ps := by
  simp [marginsHome, hp]
@[simp] theorem kept_changeMode (via : Transport) (input : List Byte)
    (hp : .regs ∈ ps ∧ .life ∈ ps ∧ .seq ∈ ps ∧ .rcd ∈ ps ∧ .mbx ∈ ps ∧ .outbox ∈ ps) :
    keptBut s₀ (changeMode via input s) ps ↔ keptBut s₀ s ps := by
  simp [changeMode, hp]
@[simp] theorem kept_brakeRelease (via : Transport) (input : List Byte)
    (hp : .regs ∈ ps ∧ .life ∈ ps ∧ .rcd ∈ ps ∧ .mbx ∈ ps ∧ .outbox ∈ ps) :
    keptBut s₀ (brakeRelease via input s) ps ↔ keptBut s₀ s ps := by
  simp [brakeRelease, hp]
@[simp] theorem kept_storeOwnerKey (via : Transport) (key : List Byte) (hp : .sbg ∈ ps ∧ .mbx ∈ ps ∧ .outbox ∈ ps) :
    keptBut s₀ (storeOwnerKey via key s) ps ↔ keptBut s₀ s ps := by
  simp [storeOwnerKey, hp]
@[simp] theorem kept_setOwnerKey (via : Transport) (input : List Byte)
    (hp : .regs ∈ ps ∧ .rcd ∈ ps ∧ .sbg ∈ ps ∧ .mbx ∈ ps ∧ .outbox ∈ ps) :
    keptBut s₀ (setOwnerKey via input s) ps ↔ keptBut s₀ s ps := by
  simp [setOwnerKey, hp]
@[simp] theorem kept_clearRecorder (via : Transport) (input : List Byte) (hp : .regs ∈ ps ∧ .rcd ∈ ps ∧ .mbx ∈ ps ∧ .outbox ∈ ps) :
    keptBut s₀ (clearRecorder via input s) ps ↔ keptBut s₀ s ps := by
  simp [clearRecorder, hp]
@[simp] theorem kept_setProtection (via : Transport) (input : List Byte)
    (hp : .regs ∈ ps ∧ .rcd ∈ ps ∧ .sbg ∈ ps ∧ .mbx ∈ ps ∧ .outbox ∈ ps) :
    keptBut s₀ (setProtection via input s) ps ↔ keptBut s₀ s ps := by
  simp [setProtection, hp]
@[simp] theorem kept_endConflict (hp : .regs ∈ ps) :
    keptBut s₀ (endConflict s) ps ↔ keptBut s₀ s ps := by
  simp [endConflict, hp]
@[simp] theorem kept_doPromoteHolder (via : Transport) (hp : .regs ∈ ps ∧ .rcd ∈ ps ∧ .sbg ∈ ps ∧ .tnd ∈ ps ∧ .mbx ∈ ps ∧ .outbox ∈ ps) :
    keptBut s₀ (doPromoteHolder via s) ps ↔ keptBut s₀ s ps := by
  simp [doPromoteHolder, hp]
@[simp] theorem kept_doPromoteOwner (via : Transport) (hp : .regs ∈ ps ∧ .sbg ∈ ps ∧ .tnd ∈ ps ∧ .mbx ∈ ps ∧ .outbox ∈ ps) :
    keptBut s₀ (doPromoteOwner via s) ps ↔ keptBut s₀ s ps := by
  simp [doPromoteOwner, hp]
@[simp] theorem kept_promoteMirror (via : Transport) (input : List Byte)
    (hp : .regs ∈ ps ∧ .rcd ∈ ps ∧ .sbg ∈ ps ∧ .tnd ∈ ps ∧ .mbx ∈ ps ∧ .outbox ∈ ps) :
    keptBut s₀ (promoteMirror via input s) ps ↔ keptBut s₀ s ps := by
  refine kept_authorised _ _ _ _ _ (by simp [hp]) fun u => ?_
  split <;> simp [hp]

end

end Sys2Proof.Machine
end

section
/-! SUPPORT. Footprints of the operations: the mailbox commands, media events, register writes and the tick. -/
namespace Sys2Proof.Machine
set_option Elab.async false
section
variable {s₀ s : State} {ps : List Part}

/-! ### MbxStd -/

@[simp] theorem kept_requestAbort (via : Transport) (hp : .regs ∈ ps ∧ .cache ∈ ps ∧ .mbx ∈ ps ∧ .outbox ∈ ps) :
    keptBut s₀ (requestAbort via s) ps ↔ keptBut s₀ s ps := by
  unfold requestAbort
  split <;> simp [hp]
@[simp] theorem kept_abortStop (hp : .regs ∈ ps ∧ .pins ∈ ps ∧ .led ∈ ps ∧ .mbx ∈ ps ∧ .outbox ∈ ps) :
    keptBut s₀ (abortStop s) ps ↔ keptBut s₀ s ps := by
  unfold abortStop
  split <;> simp [hp]
@[simp] theorem kept_getEvents (via : Transport) (input : List Byte) (hp : .mbx ∈ ps ∧ .outbox ∈ ps) :
    keptBut s₀ (getEvents via input s) ps ↔ keptBut s₀ s ps := by
  simp [getEvents, hp]
@[simp] theorem kept_clearEvents (via : Transport) (input : List Byte) (hp : .host ∈ ps ∧ .mbx ∈ ps ∧ .outbox ∈ ps) :
    keptBut s₀ (clearEvents via input s) ps ↔ keptBut s₀ s ps := by
  simp [clearEvents, hp]
@[simp] theorem kept_setPolicy (via : Transport) (input : List Byte) (hp : .host ∈ ps ∧ .mbx ∈ ps ∧ .outbox ∈ ps) :
    keptBut s₀ (setPolicy via input s) ps ↔ keptBut s₀ s ps := by
  simp [setPolicy, hp]
@[simp] theorem kept_fwReceived (hp : .life ∈ ps ∧ .freeIx ∈ ps) :
    keptBut s₀ (fwReceived s) ps ↔ keptBut s₀ s ps := by
  simp [fwReceived, hp]
@[simp] theorem kept_transferFw (via : Transport) (input : List Byte)
    (hp : .regs ∈ ps ∧ .life ∈ ps ∧ .mbx ∈ ps ∧ .outbox ∈ ps ∧ .freeIx ∈ ps) :
    keptBut s₀ (transferFw via input s) ps ↔ keptBut s₀ s ps := by
  simp [transferFw, hp]
@[simp] theorem kept_storeSlot (slot : Nat) (hp : .sbg ∈ ps) :
    keptBut s₀ (storeSlot slot s) ps ↔ keptBut s₀ s ps := by
  simp [storeSlot, hp]
@[simp] theorem kept_activateFw (via : Transport) (input : List Byte) (hp : .life ∈ ps ∧ .sbg ∈ ps ∧ .mbx ∈ ps ∧ .outbox ∈ ps) :
    keptBut s₀ (activateFw via input s) ps ↔ keptBut s₀ s ps := by
  simp [activateFw, hp]
@[simp] theorem kept_activationEnd (authentic : Bool) (hp : .regs ∈ ps ∧ .life ∈ ps ∧ .sbg ∈ ps ∧ .mbx ∈ ps ∧ .outbox ∈ ps) :
    keptBut s₀ (activationEnd authentic s) ps ↔ keptBut s₀ s ps := by
  simp [activationEnd, hp]
@[simp] theorem kept_setTimestamp (via : Transport) (input : List Byte) (hp : .host ∈ ps ∧ .rcd ∈ ps ∧ .mbx ∈ ps ∧ .outbox ∈ ps) :
    keptBut s₀ (setTimestamp via input s) ps ↔ keptBut s₀ s ps := by
  simp [setTimestamp, hp]
@[simp] theorem kept_getLog (via : Transport) (input : List Byte) (hp : .mbx ∈ ps ∧ .outbox ∈ ps) :
    keptBut s₀ (getLog via input s) ps ↔ keptBut s₀ s ps := by
  simp [getLog, hp]
@[simp] theorem kept_getLsa (via : Transport) (input : List Byte) (hp : .mbx ∈ ps ∧ .outbox ∈ ps) :
    keptBut s₀ (getLsa via input s) ps ↔ keptBut s₀ s ps := by
  simp [getLsa, hp]
@[simp] theorem kept_setLsa (via : Transport) (input : List Byte) (hp : .regs ∈ ps ∧ .sbg ∈ ps ∧ .mbx ∈ ps ∧ .outbox ∈ ps) :
    keptBut s₀ (setLsa via input s) ps ↔ keptBut s₀ s ps := by
  simp [setLsa, hp]
@[simp] theorem kept_setAlerts (via : Transport) (input : List Byte) (hp : .host ∈ ps ∧ .mbx ∈ ps ∧ .outbox ∈ ps) :
    keptBut s₀ (setAlerts via input s) ps ↔ keptBut s₀ s ps := by
  simp [setAlerts, hp]
@[simp] theorem kept_setShutdown (via : Transport) (input : List Byte) (hp : .sbg ∈ ps ∧ .mbx ∈ ps ∧ .outbox ∈ ps) :
    keptBut s₀ (setShutdown via input s) ps ↔ keptBut s₀ s ps := by
  simp [setShutdown, hp]
@[simp] theorem kept_getPoison (via : Transport) (input : List Byte) (hp : .mbx ∈ ps ∧ .outbox ∈ ps) :
    keptBut s₀ (getPoison via input s) ps ↔ keptBut s₀ s ps := by
  simp [getPoison, hp]
@[simp] theorem kept_mirrorOwn (dpa : Nat) (data : Sector) (hp : .regs ∈ ps ∧ .sbg ∈ ps ∧ .tnd ∈ ps ∧ .outbox ∈ ps) :
    keptBut s₀ (mirrorOwn dpa data s) ps ↔ keptBut s₀ s ps := by
  simp [mirrorOwn, hp]
theorem kept_storeSector {dpa : Nat} {data : Sector} {poison : Bool} {s' : State} (hs : storeSector dpa data poison s = some s')
    (hp : .regs ∈ ps ∧ .host ∈ ps ∧ .cache ∈ ps ∧ .sched ∈ ps ∧ .med ∈ ps ∧ .rcd ∈ ps ∧ .sbg ∈ ps ∧ .tnd ∈ ps ∧ .outbox ∈ ps) :
    keptBut s₀ s' ps ↔ keptBut s₀ s ps := by
  unfold storeSector at hs
  split at hs
  · cases hs
    simp [hp]
  · split at hs
    · rename_i h
      cases hs
      simp [hp, kept_of_storeLine h]
    · rename_i h
      split at hs
      · cases hs
        simp [hp, kept_of_storeLine h]
      · cases hs

@[simp] theorem kept_injectPoison (via : Transport) (input : List Byte)
    (hp : .regs ∈ ps ∧ .host ∈ ps ∧ .cache ∈ ps ∧ .sched ∈ ps ∧ .med ∈ ps ∧ .rcd ∈ ps ∧ .sbg ∈ ps ∧ .tnd ∈ ps ∧ .mbx ∈ ps
      ∧ .outbox ∈ ps ∧ .freeIx ∈ ps) :
    keptBut s₀ (injectPoison via input s) ps ↔ keptBut s₀ s ps := by
  cases hs : storeSector (leAt 0 8 input) (freeSector s 0) true s with
  | none => simp [injectPoison, hs, hp]
  | some s1 => simp [injectPoison, hs, hp, kept_storeSector hs]

@[simp] theorem kept_clearPoison (via : Transport) (input : List Byte)
    (hp : .regs ∈ ps ∧ .host ∈ ps ∧ .cache ∈ ps ∧ .sched ∈ ps ∧ .med ∈ ps ∧ .rcd ∈ ps ∧ .sbg ∈ ps ∧ .tnd ∈ ps ∧ .mbx ∈ ps
      ∧ .outbox ∈ ps) :
    keptBut s₀ (clearPoison via input s) ps ↔ keptBut s₀ s ps := by
  simp only [clearPoison]
  split
  · simp [hp]
  · split
    · simp [hp]
    · split
      · simp [hp]
      · rename_i hs
        simp [hp, kept_storeSector hs]

@[simp] theorem kept_scanMedia (via : Transport) (input : List Byte) (hp : .host ∈ ps ∧ .mbx ∈ ps ∧ .outbox ∈ ps) :
    keptBut s₀ (scanMedia via input s) ps ↔ keptBut s₀ s ps := by
  simp [scanMedia, hp]
@[simp] theorem kept_scanCaps (via : Transport) (input : List Byte) (hp : .mbx ∈ ps ∧ .outbox ∈ ps) :
    keptBut s₀ (scanCaps via input s) ps ↔ keptBut s₀ s ps := by
  simp [scanCaps, hp]
@[simp] theorem kept_eraseCommand (via : Transport) (op : Nat)
    (hp : .host ∈ ps ∧ .cache ∈ ps ∧ .sched ∈ ps ∧ .med ∈ ps ∧ .sbg ∈ ps ∧ .mbx ∈ ps ∧ .outbox ∈ ps) :
    keptBut s₀ (eraseCommand via op s) ps ↔ keptBut s₀ s ps := by
  simp [eraseCommand, hp]

/-! ### MbxVendor -/

@[simp] theorem kept_asStored (a : Nat) (bs : List Byte) (hp : .sbg ∈ ps) :
    keptBut s₀ (asStored a bs s) ps ↔ keptBut s₀ s ps := by
  simp [asStored, hp]
@[simp] theorem kept_storeFor (via : Transport) (op a : Nat) (bs : List Byte) (reload : List (Nat × Nat)) (out : List Byte)
    (hp : .sbg ∈ ps ∧ .mbx ∈ ps ∧ .outbox ∈ ps) :
    keptBut s₀ (storeFor via op a bs reload out s) ps ↔ keptBut s₀ s ps := by
  simp [storeFor, hp]
@[simp] theorem kept_setService (via : Transport) (input : List Byte) (hp : .regs ∈ ps ∧ .sbg ∈ ps ∧ .mbx ∈ ps ∧ .outbox ∈ ps) :
    keptBut s₀ (setService via input s) ps ↔ keptBut s₀ s ps := by
  simp [setService, hp]
@[simp] theorem kept_seqLoaded (hp : .regs ∈ ps) :
    keptBut s₀ (seqLoaded s) ps ↔ keptBut s₀ s ps := by
  simp [seqLoaded, hp]
@[simp] theorem kept_storeRails (via : Transport) (op a : Nat) (bs : List Byte) (hp : .regs ∈ ps ∧ .sbg ∈ ps ∧ .mbx ∈ ps ∧ .outbox ∈ ps) :
    keptBut s₀ (storeRails via op a bs s) ps ↔ keptBut s₀ s ps := by
  simp [storeRails, hp]
@[simp] theorem kept_railConfig (via : Transport) (input : List Byte) (hp : .mbx ∈ ps ∧ .outbox ∈ ps) :
    keptBut s₀ (railConfig via input s) ps ↔ keptBut s₀ s ps := by
  simp [railConfig, hp]
@[simp] theorem kept_setRailTable (via : Transport) (input : List Byte) (hp : .regs ∈ ps ∧ .sbg ∈ ps ∧ .mbx ∈ ps ∧ .outbox ∈ ps) :
    keptBut s₀ (setRailTable via input s) ps ↔ keptBut s₀ s ps := by
  simp [setRailTable, hp]
@[simp] theorem kept_setRailChannel (via : Transport) (input : List Byte) (hp : .regs ∈ ps ∧ .sbg ∈ ps ∧ .mbx ∈ ps ∧ .outbox ∈ ps) :
    keptBut s₀ (setRailChannel via input s) ps ↔ keptBut s₀ s ps := by
  simp [setRailChannel, hp]
@[simp] theorem kept_setRailGlobals (via : Transport) (input : List Byte) (hp : .regs ∈ ps ∧ .sbg ∈ ps ∧ .mbx ∈ ps ∧ .outbox ∈ ps) :
    keptBut s₀ (setRailGlobals via input s) ps ↔ keptBut s₀ s ps := by
  simp [setRailGlobals, hp]
@[simp] theorem kept_marginRail (via : Transport) (input : List Byte) (hp : .regs ∈ ps ∧ .seq ∈ ps ∧ .mbx ∈ ps ∧ .outbox ∈ ps) :
    keptBut s₀ (marginRail via input s) ps ↔ keptBut s₀ s ps := by
  unfold marginRail
  split <;> simp [hp]
@[simp] theorem kept_railEnable (via : Transport) (t : Target) (hp : .regs ∈ ps ∧ .seq ∈ ps ∧ .mbx ∈ ps ∧ .outbox ∈ ps) :
    keptBut s₀ (railEnable via t s) ps ↔ keptBut s₀ s ps := by
  simp [railEnable, hp]
@[simp] theorem kept_railDisable (via : Transport) (t : Target) (hp : .regs ∈ ps ∧ .seq ∈ ps ∧ .mbx ∈ ps ∧ .outbox ∈ ps) :
    keptBut s₀ (railDisable via t s) ps ↔ keptBut s₀ s ps := by
  simp [railDisable, hp]
@[simp] theorem kept_railCommand (via : Transport) (input : List Byte) (hp : .regs ∈ ps ∧ .seq ∈ ps ∧ .mbx ∈ ps ∧ .outbox ∈ ps) :
    keptBut s₀ (railCommand via input s) ps ↔ keptBut s₀ s ps := by
  unfold railCommand
  split <;> simp [hp]
@[simp] theorem kept_converterConfig (via : Transport) (input : List Byte) (hp : .mbx ∈ ps ∧ .outbox ∈ ps) :
    keptBut s₀ (converterConfig via input s) ps ↔ keptBut s₀ s ps := by
  simp [converterConfig, hp]
@[simp] theorem kept_setSchedule (via : Transport) (input : List Byte) (hp : .regs ∈ ps ∧ .sbg ∈ ps ∧ .mbx ∈ ps ∧ .outbox ∈ ps) :
    keptBut s₀ (setSchedule via input s) ps ↔ keptBut s₀ s ps := by
  simp [setSchedule, hp]
@[simp] theorem kept_setInput (via : Transport) (input : List Byte) (hp : .regs ∈ ps ∧ .sbg ∈ ps ∧ .mbx ∈ ps ∧ .outbox ∈ ps) :
    keptBut s₀ (setInput via input s) ps ↔ keptBut s₀ s ps := by
  simp [setInput, hp]
@[simp] theorem kept_calibrateCommand (via : Transport) (input : List Byte) (hp : .mcv ∈ ps ∧ .mbx ∈ ps ∧ .outbox ∈ ps) :
    keptBut s₀ (calibrateCommand via input s) ps ↔ keptBut s₀ s ps := by
  simp [calibrateCommand, hp]
@[simp] theorem kept_diagnoseCommand (via : Transport) (input : List Byte) (hp : .regs ∈ ps ∧ .mcv ∈ ps ∧ .mbx ∈ ps ∧ .outbox ∈ ps) :
    keptBut s₀ (diagnoseCommand via input s) ps ↔ keptBut s₀ s ps := by
  simp [diagnoseCommand, hp]
@[simp] theorem kept_afterPages (page off : Nat) (bs : List Byte) (hp : .sbg ∈ ps) :
    keptBut s₀ (afterPages page off bs s) ps ↔ keptBut s₀ s ps := by
  simp [afterPages, hp]
@[simp] theorem kept_writePages (via : Transport) (input : List Byte) (hp : .regs ∈ ps ∧ .sbg ∈ ps ∧ .mbx ∈ ps ∧ .outbox ∈ ps) :
    keptBut s₀ (writePages via input s) ps ↔ keptBut s₀ s ps := by
  simp [writePages, hp]
@[simp] theorem kept_ledgerLoaded (hp : .regs ∈ ps) :
    keptBut s₀ (ledgerLoaded s) ps ↔ keptBut s₀ s ps := by
  simp [ledgerLoaded, hp]
@[simp] theorem kept_setLedger (via : Transport) (input : List Byte) (hp : .regs ∈ ps ∧ .sbg ∈ ps ∧ .mbx ∈ ps ∧ .outbox ∈ ps) :
    keptBut s₀ (setLedger via input s) ps ↔ keptBut s₀ s ps := by
  simp [setLedger, hp]
@[simp] theorem kept_commandTest (hp : .led ∈ ps) :
    keptBut s₀ (commandTest s) ps ↔ keptBut s₀ s ps := by
  simp [commandTest, hp]
@[simp] theorem kept_measureCap (via : Transport) (hp : .led ∈ ps ∧ .mbx ∈ ps ∧ .outbox ∈ ps) :
    keptBut s₀ (measureCap via s) ps ↔ keptBut s₀ s ps := by
  simp [measureCap, hp]
@[simp] theorem kept_startFlush (hp : .regs ∈ ps ∧ .cache ∈ ps ∧ .sbg ∈ ps ∧ .mbx ∈ ps ∧ .outbox ∈ ps) :
    keptBut s₀ (startFlush s) ps ↔ keptBut s₀ s ps := by
  simp [startFlush, hp]
@[simp] theorem kept_cacheToNormal (hp : .regs ∈ ps ∧ .cache ∈ ps ∧ .sbg ∈ ps ∧ .mbx ∈ ps ∧ .outbox ∈ ps) :
    keptBut s₀ (cacheToNormal s) ps ↔ keptBut s₀ s ps := by
  simp [cacheToNormal, hp]
@[simp] theorem kept_setCacheMode (via : Transport) (input : List Byte)
    (hp : .regs ∈ ps ∧ .cache ∈ ps ∧ .sbg ∈ ps ∧ .mbx ∈ ps ∧ .outbox ∈ ps) :
    keptBut s₀ (setCacheMode via input s) ps ↔ keptBut s₀ s ps := by
  simp [setCacheMode, hp]
@[simp] theorem kept_lockLines (via : Transport) (input : List Byte) (hp : .regs ∈ ps ∧ .mbx ∈ ps ∧ .outbox ∈ ps) :
    keptBut s₀ (lockLines via input s) ps ↔ keptBut s₀ s ps := by
  simp [lockLines, hp]
@[simp] theorem kept_unlockLines (via : Transport) (input : List Byte) (hp : .cache ∈ ps ∧ .mbx ∈ ps ∧ .outbox ∈ ps) :
    keptBut s₀ (unlockLines via input s) ps ↔ keptBut s₀ s ps := by
  simp [unlockLines, hp]
@[simp] theorem kept_setCarveOut (via : Transport) (input : List Byte) (hp : .regs ∈ ps ∧ .sbg ∈ ps ∧ .mbx ∈ ps ∧ .outbox ∈ ps) :
    keptBut s₀ (setCarveOut via input s) ps ↔ keptBut s₀ s ps := by
  simp [setCarveOut, hp]
@[simp] theorem kept_mirrorRelease (e : Nat) (hp : .regs ∈ ps ∧ .sbg ∈ ps ∧ .tnd ∈ ps ∧ .outbox ∈ ps) :
    keptBut s₀ (mirrorRelease e s) ps ↔ keptBut s₀ s ps := by
  simp [mirrorRelease, hp]
theorem kept_releaseAll (es : List Nat) (acc : State × Nat × Nat)
    (hp : .regs ∈ ps ∧ .host ∈ ps ∧ .cache ∈ ps ∧ .sched ∈ ps ∧ .med ∈ ps ∧ .rcd ∈ ps ∧ .sbg ∈ ps ∧ .tnd ∈ ps ∧ .outbox ∈ ps) :
    keptBut s₀ (es.foldl (fun (acc : State × Nat × Nat) e =>
      (acc.1 |> releaseExtent e |> mirrorRelease e, acc.2.1 + (!bmGet acc.1.med.released e).toNat,
        acc.2.2 + (bmGet acc.1.med.released e).toNat)) acc).1 ps ↔ keptBut s₀ acc.1 ps := by
  induction es generalizing acc with
  | nil => rfl
  | cons e es ih => simp [List.foldl_cons, ih, hp]

@[simp] theorem kept_releaseRange (via : Transport) (input : List Byte)
    (hp : .regs ∈ ps ∧ .host ∈ ps ∧ .cache ∈ ps ∧ .sched ∈ ps ∧ .med ∈ ps ∧ .rcd ∈ ps ∧ .sbg ∈ ps ∧ .tnd ∈ ps ∧ .mbx ∈ ps
      ∧ .outbox ∈ ps) :
    keptBut s₀ (releaseRange via input s) ps ↔ keptBut s₀ s ps := by
  simp only [releaseRange]
  split <;> simp [hp, kept_releaseAll]

@[simp] theorem kept_releaseBitmap (via : Transport) (input : List Byte) (hp : .mbx ∈ ps ∧ .outbox ∈ ps) :
    keptBut s₀ (releaseBitmap via input s) ps ↔ keptBut s₀ s ps := by
  simp [releaseBitmap, hp]
@[simp] theorem kept_setPatrol (via : Transport) (input : List Byte) (hp : .regs ∈ ps ∧ .sbg ∈ ps ∧ .mbx ∈ ps ∧ .outbox ∈ ps) :
    keptBut s₀ (setPatrol via input s) ps ↔ keptBut s₀ s ps := by
  simp [setPatrol, hp]
@[simp] theorem kept_setPeloton (via : Transport) (input : List Byte) (hp : .regs ∈ ps ∧ .sbg ∈ ps ∧ .mbx ∈ ps ∧ .outbox ∈ ps) :
    keptBut s₀ (setPeloton via input s) ps ↔ keptBut s₀ s ps := by
  simp [setPeloton, hp]
@[simp] theorem kept_setTandem (via : Transport) (input : List Byte) (hp : .regs ∈ ps ∧ .sbg ∈ ps ∧ .mbx ∈ ps ∧ .outbox ∈ ps) :
    keptBut s₀ (setTandem via input s) ps ↔ keptBut s₀ s ps := by
  simp [setTandem, hp]

/-! ### MediaEvents -/

@[simp] theorem kept_programEnds (n : Nat) (d : Desc) (hp : .sched ∈ ps ∧ .med ∈ ps ∧ .sbg ∈ ps) :
    keptBut s₀ (programEnds n d s) ps ↔ keptBut s₀ s ps := by
  simp [programEnds, hp]
@[simp] theorem kept_lineVerified (d : Desc) (hp : .med ∈ ps) :
    keptBut s₀ (lineVerified d s) ps ↔ keptBut s₀ s ps := by
  simp [lineVerified, hp]
@[simp] theorem kept_forgetSeen (d : Desc) (hp : .med ∈ ps) :
    keptBut s₀ (forgetSeen d s) ps ↔ keptBut s₀ s ps := by
  simp [forgetSeen, hp]
@[simp] theorem kept_homeProgram (d : Desc) (hp : .sched ∈ ps ∧ .med ∈ ps) :
    keptBut s₀ (homeProgram d s) ps ↔ keptBut s₀ s ps := by
  simp [homeProgram, hp]
@[simp] theorem kept_endRelease (line : Nat) (hp : .med ∈ ps) :
    keptBut s₀ (endRelease line s) ps ↔ keptBut s₀ s ps := by
  simp [endRelease, hp]
@[simp] theorem kept_dropDrain (loc : Nat) (hp : .sched ∈ ps) :
    keptBut s₀ (dropDrain loc s) ps ↔ keptBut s₀ s ps := by
  simp [dropDrain, hp]
@[simp] theorem kept_cleanAfter (d : Desc) (hp : .cache ∈ ps ∧ .sched ∈ ps) :
    keptBut s₀ (cleanAfter d s) ps ↔ keptBut s₀ s ps := by
  unfold cleanAfter
  repeat' split
  all_goals simp [hp]
@[simp] theorem kept_writeBackDone (d : Desc)
    (hp : .regs ∈ ps ∧ .host ∈ ps ∧ .cache ∈ ps ∧ .sched ∈ ps ∧ .fw ∈ ps ∧ .med ∈ ps ∧ .rcd ∈ ps ∧ .sbg ∈ ps ∧ .mbx ∈ ps ∧ .outbox ∈ ps) :
    keptBut s₀ (writeBackDone d s) ps ↔ keptBut s₀ s ps := by
  simp [writeBackDone, hp]
@[simp] theorem kept_gapCopyDone (r k : Nat) (d : Desc) (hp : .med ∈ ps ∧ .sbg ∈ ps) :
    keptBut s₀ (gapCopyDone r k d s) ps ↔ keptBut s₀ s ps := by
  simp [gapCopyDone, hp]
@[simp] theorem kept_retireCopyDone (r slot k : Nat) (d : Desc) (hp : .med ∈ ps ∧ .sbg ∈ ps) :
    keptBut s₀ (retireCopyDone r slot k d s) ps ↔ keptBut s₀ s ps := by
  unfold retireCopyDone
  split <;> simp [hp]
@[simp] theorem kept_drainDone (loc area slot : Nat) (d : Desc)
    (hp : .regs ∈ ps ∧ .host ∈ ps ∧ .cache ∈ ps ∧ .sched ∈ ps ∧ .fw ∈ ps ∧ .med ∈ ps ∧ .rcd ∈ ps) :
    keptBut s₀ (drainDone loc area slot d s) ps ↔ keptBut s₀ s ps := by
  simp [drainDone, hp]
@[simp] theorem kept_indexDone (w k : Nat) (hp : .regs ∈ ps ∧ .host ∈ ps ∧ .sched ∈ ps ∧ .fw ∈ ps ∧ .med ∈ ps ∧ .rcd ∈ ps) :
    keptBut s₀ (indexDone w k s) ps ↔ keptBut s₀ s ps := by
  simp [indexDone, hp]
@[simp] theorem kept_noteCkpt (slot : Nat) (c : Ckpt) (hp : .regs ∈ ps ∧ .sbg ∈ ps) :
    keptBut s₀ (noteCkpt slot c s) ps ↔ keptBut s₀ s ps := by
  simp [noteCkpt, hp]
@[simp] theorem kept_sealDone (slot : Nat)
    (hp : .regs ∈ ps ∧ .host ∈ ps ∧ .cache ∈ ps ∧ .sched ∈ ps ∧ .fw ∈ ps ∧ .med ∈ ps ∧ .life ∈ ps ∧ .rcd ∈ ps ∧ .sbg ∈ ps ∧ .mbx ∈ ps
      ∧ .outbox ∈ ps) :
    keptBut s₀ (sealDone slot s) ps ↔ keptBut s₀ s ps := by
  simp [sealDone, hp]
@[simp] theorem kept_restoreHomeDone (key : Nat) (d : Desc)
    (hp : .regs ∈ ps ∧ .host ∈ ps ∧ .cache ∈ ps ∧ .sched ∈ ps ∧ .med ∈ ps ∧ .life ∈ ps ∧ .rcd ∈ ps ∧ .sbg ∈ ps ∧ .outbox ∈ ps) :
    keptBut s₀ (restoreHomeDone key d s) ps ↔ keptBut s₀ s ps := by
  simp [restoreHomeDone, hp]
@[simp] theorem kept_verifiedOp (d : Desc)
    (hp : .regs ∈ ps ∧ .host ∈ ps ∧ .cache ∈ ps ∧ .sched ∈ ps ∧ .fw ∈ ps ∧ .med ∈ ps ∧ .life ∈ ps ∧ .rcd ∈ ps ∧ .sbg ∈ ps ∧ .mbx ∈ ps
      ∧ .outbox ∈ ps) :
    keptBut s₀ (verifiedOp d s) ps ↔ keptBut s₀ s ps := by
  unfold verifiedOp
  split <;> simp [hp]
@[simp] theorem kept_programVerified (f : EventFrame)
    (hp : .regs ∈ ps ∧ .host ∈ ps ∧ .cache ∈ ps ∧ .sched ∈ ps ∧ .fw ∈ ps ∧ .med ∈ ps ∧ .life ∈ ps ∧ .rcd ∈ ps ∧ .sbg ∈ ps ∧ .mbx ∈ ps
      ∧ .outbox ∈ ps) :
    keptBut s₀ (programVerified f s) ps ↔ keptBut s₀ s ps := by
  unfold programVerified
  split <;> simp [hp]
@[simp] theorem kept_uncarry (id : Nat) (hp : .sched ∈ ps) :
    keptBut s₀ (uncarry id s) ps ↔ keptBut s₀ s ps := by
  simp [uncarry, hp]
@[simp] theorem kept_countFailure (ma : Nat) (hp : .med ∈ ps) :
    keptBut s₀ (countFailure ma s) ps ↔ keptBut s₀ s ps := by
  simp [countFailure, hp]
@[simp] theorem kept_homeFails (d : Desc)
    (hp : .regs ∈ ps ∧ .host ∈ ps ∧ .cache ∈ ps ∧ .sched ∈ ps ∧ .med ∈ ps ∧ .rcd ∈ ps ∧ .sbg ∈ ps ∧ .outbox ∈ ps) :
    keptBut s₀ (homeFails d s) ps ↔ keptBut s₀ s ps := by
  simp [homeFails, hp]
@[simp] theorem kept_restoreFails (d : Desc)
    (hp : .regs ∈ ps ∧ .host ∈ ps ∧ .cache ∈ ps ∧ .sched ∈ ps ∧ .med ∈ ps ∧ .rcd ∈ ps ∧ .sbg ∈ ps ∧ .outbox ∈ ps) :
    keptBut s₀ (restoreFails d s) ps ↔ keptBut s₀ s ps := by
  simp [restoreFails, hp]
@[simp] theorem kept_spareFails (d : Desc)
    (hp : .regs ∈ ps ∧ .host ∈ ps ∧ .cache ∈ ps ∧ .sched ∈ ps ∧ .med ∈ ps ∧ .rcd ∈ ps ∧ .sbg ∈ ps ∧ .outbox ∈ ps) :
    keptBut s₀ (spareFails d s) ps ↔ keptBut s₀ s ps := by
  unfold spareFails
  split <;> simp [hp]
@[simp] theorem kept_gapAgain (r : Nat)
    (hp : .regs ∈ ps ∧ .host ∈ ps ∧ .cache ∈ ps ∧ .sched ∈ ps ∧ .med ∈ ps ∧ .rcd ∈ ps ∧ .sbg ∈ ps ∧ .outbox ∈ ps) :
    keptBut s₀ (gapAgain r s) ps ↔ keptBut s₀ s ps := by
  unfold gapAgain
  split <;> simp [hp]
@[simp] theorem kept_gapFails (r k : Nat) (d : Desc)
    (hp : .regs ∈ ps ∧ .host ∈ ps ∧ .cache ∈ ps ∧ .sched ∈ ps ∧ .med ∈ ps ∧ .rcd ∈ ps ∧ .sbg ∈ ps ∧ .outbox ∈ ps) :
    keptBut s₀ (gapFails r k d s) ps ↔ keptBut s₀ s ps := by
  simp [gapFails, hp]
@[simp] theorem kept_drainFails (area slot loc : Nat) (hp : .regs ∈ ps ∧ .host ∈ ps ∧ .sched ∈ ps ∧ .fw ∈ ps ∧ .med ∈ ps ∧ .rcd ∈ ps) :
    keptBut s₀ (drainFails area slot loc s) ps ↔ keptBut s₀ s ps := by
  simp [drainFails, hp]
@[simp] theorem kept_failedOp (d : Desc)
    (hp : .regs ∈ ps ∧ .host ∈ ps ∧ .cache ∈ ps ∧ .sched ∈ ps ∧ .fw ∈ ps ∧ .med ∈ ps ∧ .rcd ∈ ps ∧ .sbg ∈ ps ∧ .outbox ∈ ps) :
    keptBut s₀ (failedOp d s) ps ↔ keptBut s₀ s ps := by
  unfold failedOp
  split <;> simp [hp]
@[simp] theorem kept_verifyFailed (f : EventFrame)
    (hp : .regs ∈ ps ∧ .host ∈ ps ∧ .cache ∈ ps ∧ .sched ∈ ps ∧ .fw ∈ ps ∧ .med ∈ ps ∧ .rcd ∈ ps ∧ .sbg ∈ ps ∧ .outbox ∈ ps) :
    keptBut s₀ (verifyFailed f s) ps ↔ keptBut s₀ s ps := by
  unfold verifyFailed
  split <;> simp [hp]
@[simp] theorem kept_suspendedFrame (f : EventFrame) (hp : .sched ∈ ps) :
    keptBut s₀ (suspendedFrame f s) ps ↔ keptBut s₀ s ps := by
  simp only [suspendedFrame]
  repeat' split
  all_goals simp [hp]
@[simp] theorem kept_senseAgain (c : Ctx) (hp : .regs ∈ ps ∧ .sched ∈ ps) :
    keptBut s₀ (senseAgain c s) ps ↔ keptBut s₀ s ps := by
  simp [senseAgain, hp]
@[simp] theorem kept_reissue (n id : Nat) (hp : .regs ∈ ps ∧ .sched ∈ ps ∧ .med ∈ ps ∧ .outbox ∈ ps) :
    keptBut s₀ (reissue n id s) ps ↔ keptBut s₀ s ps := by
  cases hc : frameDemand 1 id n .sense s <;> simp [reissue, hc, hp]

@[simp] theorem kept_caCrc (f : EventFrame) (hp : .regs ∈ ps ∧ .sched ∈ ps ∧ .med ∈ ps ∧ .rcd ∈ ps ∧ .outbox ∈ ps) :
    keptBut s₀ (caCrc f s) ps ↔ keptBut s₀ s ps := by
  simp [caCrc, hp]
@[simp] theorem kept_writeCrc (f : EventFrame) (hp : .regs ∈ ps ∧ .sched ∈ ps ∧ .med ∈ ps ∧ .outbox ∈ ps) :
    keptBut s₀ (writeCrc f s) ps ↔ keptBut s₀ s ps := by
  simp [writeCrc, hp]
@[simp] theorem kept_bandMismatch (f : EventFrame) (hp : .regs ∈ ps ∧ .sched ∈ ps ∧ .med ∈ ps ∧ .outbox ∈ ps) :
    keptBut s₀ (bandMismatch f s) ps ↔ keptBut s₀ s ps := by
  simp [bandMismatch, hp]
@[simp] theorem kept_settleTags (n v : Nat) (hp : .med ∈ ps) :
    keptBut s₀ (settleTags n v s) ps ↔ keptBut s₀ s ps := by
  simp [settleTags, hp]
@[simp] theorem kept_agingDone (hp : .regs ∈ ps ∧ .med ∈ ps ∧ .life ∈ ps ∧ .sbg ∈ ps) :
    keptBut s₀ (agingDone s) ps ↔ keptBut s₀ s ps := by
  unfold agingDone
  split
  · simp [hp]
  · split <;> simp [hp]
@[simp] theorem kept_ageDone (n v : Nat) (hp : .regs ∈ ps ∧ .med ∈ ps ∧ .life ∈ ps ∧ .sbg ∈ ps) :
    keptBut s₀ (ageDone n v s) ps ↔ keptBut s₀ s ps := by
  simp [ageDone, hp]
@[simp] theorem kept_clrOpDone (n : Nat) (hp : .regs ∈ ps ∧ .sched ∈ ps ∧ .med ∈ ps ∧ .sbg ∈ ps) :
    keptBut s₀ (clrOpDone n s) ps ↔ keptBut s₀ s ps := by
  unfold clrOpDone
  split
  · simp
  · split <;> simp [hp]
@[simp] theorem kept_tagDone (f : EventFrame)
    (hp : .regs ∈ ps ∧ .host ∈ ps ∧ .sched ∈ ps ∧ .med ∈ ps ∧ .life ∈ ps ∧ .sbg ∈ ps ∧ .mbx ∈ ps ∧ .outbox ∈ ps) :
    keptBut s₀ (tagDone f s) ps ↔ keptBut s₀ s ps := by
  simp [tagDone, hp]
@[simp] theorem kept_thermalLimit (f : EventFrame) (hp : .regs ∈ ps) :
    keptBut s₀ (thermalLimit f s) ps ↔ keptBut s₀ s ps := by
  simp [thermalLimit, hp]
@[simp] theorem kept_mmbAlert (w : Wheel) (hp : .regs ∈ ps) :
    keptBut s₀ (mmbAlert w s) ps ↔ keptBut s₀ s ps := by
  simp [mmbAlert, hp]
@[simp] theorem kept_retireAt (ma : Nat)
    (hp : .regs ∈ ps ∧ .host ∈ ps ∧ .cache ∈ ps ∧ .sched ∈ ps ∧ .med ∈ ps ∧ .rcd ∈ ps ∧ .sbg ∈ ps ∧ .outbox ∈ ps) :
    keptBut s₀ (retireAt ma s) ps ↔ keptBut s₀ s ps := by
  unfold retireAt
  split <;> simp [hp]
@[simp] theorem kept_faultedOp (id : Nat) (d : Desc)
    (hp : .regs ∈ ps ∧ .host ∈ ps ∧ .cache ∈ ps ∧ .sched ∈ ps ∧ .fw ∈ ps ∧ .med ∈ ps ∧ .rcd ∈ ps ∧ .sbg ∈ ps ∧ .outbox ∈ ps) :
    keptBut s₀ (faultedOp id d s) ps ↔ keptBut s₀ s ps := by
  cases hk : d.kind <;> simp [faultedOp, hk, hp]

@[simp] theorem kept_rowFault (f : EventFrame)
    (hp : .regs ∈ ps ∧ .host ∈ ps ∧ .cache ∈ ps ∧ .sched ∈ ps ∧ .fw ∈ ps ∧ .med ∈ ps ∧ .rcd ∈ ps ∧ .sbg ∈ ps ∧ .outbox ∈ ps) :
    keptBut s₀ (rowFault f s) ps ↔ keptBut s₀ s ps := by
  simp only [rowFault]
  repeat' split
  all_goals simp [hp]
@[simp] theorem kept_rewriteScratchTag (loc : Nat) (hp : .regs ∈ ps) :
    keptBut s₀ (rewriteScratchTag loc s) ps ↔ keptBut s₀ s ps := by
  simp [rewriteScratchTag, hp]
@[simp] theorem kept_scrubWay (w set : Nat) (found : List ScrubFinding) (i : Nat) (hp : .cache ∈ ps) :
    keptBut s₀ (scrubWay w set found i s) ps ↔ keptBut s₀ s ps := by
  simp [scrubWay, hp]
@[simp] theorem kept_relock (w set : Nat) (hp : .regs ∈ ps ∧ .sched ∈ ps) :
    keptBut s₀ (relock w set s) ps ↔ keptBut s₀ s ps := by
  simp [relock, hp]
@[simp] theorem kept_epochAdvance (hp : .regs ∈ ps ∧ .med ∈ ps ∧ .outbox ∈ ps) :
    keptBut s₀ (epochAdvance s) ps ↔ keptBut s₀ s ps := by
  simp [epochAdvance, hp]
@[simp] theorem kept_followBand (w d b b' : Nat) (hp : .regs ∈ ps ∧ .sched ∈ ps ∧ .med ∈ ps ∧ .outbox ∈ ps) :
    keptBut s₀ (followBand w d b b' s) ps ↔ keptBut s₀ s ps := by
  simp [followBand, hp]
@[simp] theorem kept_temperatureRead (w : Wheel) (d : Die) (c : Int) (hp : .regs ∈ ps ∧ .sched ∈ ps ∧ .med ∈ ps ∧ .outbox ∈ ps) :
    keptBut s₀ (temperatureRead w d c s) ps ↔ keptBut s₀ s ps := by
  simp [temperatureRead, hp]
@[simp] theorem kept_dqsTrack (w : Wheel) (hp : .regs ∈ ps ∧ .sched ∈ ps ∧ .med ∈ ps ∧ .outbox ∈ ps) :
    keptBut s₀ (dqsTrack w s) ps ↔ keptBut s₀ s ps := by
  simp [dqsTrack, hp]
@[simp] theorem kept_checkpointDue (hp : .med ∈ ps ∧ .sbg ∈ ps) :
    keptBut s₀ (checkpointDue s) ps ↔ keptBut s₀ s ps := by
  simp [checkpointDue, hp]

/-! ### PortView -/

@[simp] theorem kept_clearRas (bit : Nat → Option Nat) (value : Nat) (hp : .host ∈ ps) :
    keptBut s₀ (clearRas bit value s) ps ↔ keptBut s₀ s ps := by
  simp [clearRas, hp]
@[simp] theorem kept_bar0Write (a value : Nat) (hpt : State → State) (hp : .host ∈ ps) (hk : keptBut s (hpt s) ps) :
    keptBut s₀ (bar0Write a value hpt s) ps ↔ keptBut s₀ s ps := by
  simp [bar0Write, hp, keptBut_iff (s₀ := s₀) hk]

@[simp] theorem kept_rangeBaseWrite (high : Bool) (value : Nat) (hp : .host ∈ ps) :
    keptBut s₀ (rangeBaseWrite high value s) ps ↔ keptBut s₀ s ps := by
  simp [rangeBaseWrite, hp]

/-! ### RegWrite -/

@[simp] theorem kept_writeField (value mask i : Nat) (f : Fld) (hp : .regs ∈ ps) :
    keptBut s₀ (writeField value mask i f s) ps ↔ keptBut s₀ s ps := by
  unfold writeField
  split <;> simp [hp]
@[simp] theorem kept_afterWrite (r : RegDef) (i value mask : Nat) (hp : .regs ∈ ps ∧ .mcv ∈ ps) :
    keptBut s₀ (afterWrite r i value mask s) ps ↔ keptBut s₀ s ps := by
  simp [afterWrite, hp]
@[simp] theorem kept_writeReg (value mask : Nat) (x : RegDef × Nat) (hp : .regs ∈ ps ∧ .mcv ∈ ps) :
    keptBut s₀ (writeReg value mask x s) ps ↔ keptBut s₀ s ps := by
  simp [writeReg, hp]
theorem kept_readOne (ep : Endpoint) (a : Nat) (hp : .mcv ∈ ps) : keptBut s₀ (readOne ep a s).2.2 ps ↔ keptBut s₀ s ps := by
  simp only [readOne]
  repeat' split
  all_goals simp [hp]

theorem kept_readAll (ep : Endpoint) (as : List Nat) (acc : State × Nat × List Byte) (hp : .mcv ∈ ps) :
    keptBut s₀ (as.foldl (fun (acc : State × Nat × List Byte) a =>
      ((readOne ep a acc.1).2.2, acc.2.1 + (readOne ep a acc.1).2.1.toNat, acc.2.2 ++ leBytes 4 (readOne ep a acc.1).1)) acc).1 ps
      ↔ keptBut s₀ acc.1 ps := by
  induction as generalizing acc with
  | nil => rfl
  | cons a as ih => rw [List.foldl_cons, ih, kept_readOne ep a hp]

@[simp] theorem kept_readRegisters (via : Transport) (input : List Byte) (hp : .mcv ∈ ps ∧ .mbx ∈ ps ∧ .outbox ∈ ps) :
    keptBut s₀ (readRegisters via input s) ps ↔ keptBut s₀ s ps := by
  simp only [readRegisters]
  repeat' split
  all_goals simp [hp, kept_readAll]

theorem kept_writeEntry (t : WriteTally) (x : Nat × Nat × Nat × Nat) (hp : .regs ∈ ps ∧ .mcv ∈ ps) :
    keptBut s₀ (writeEntry t x).s ps ↔ keptBut s₀ t.s ps := by
  simp only [writeEntry]
  repeat' split
  all_goals simp [hp]

theorem kept_writeEntries (es : List (Nat × Nat × Nat × Nat)) (t : WriteTally) (hp : .regs ∈ ps ∧ .mcv ∈ ps) :
    keptBut s₀ (es.foldl writeEntry t).s ps ↔ keptBut s₀ t.s ps := by
  induction es generalizing t with
  | nil => rfl
  | cons e es ih => rw [List.foldl_cons, ih, kept_writeEntry t e hp]

@[simp] theorem kept_writeRegisters (via : Transport) (input : List Byte) (hp : .regs ∈ ps ∧ .mcv ∈ ps ∧ .mbx ∈ ps ∧ .outbox ∈ ps) :
    keptBut s₀ (writeRegisters via input s) ps ↔ keptBut s₀ s ps := by
  simp only [writeRegisters]
  repeat' split
  all_goals simp [hp, kept_writeEntries]

@[simp] theorem kept_writeRegistersAt (via : Transport) (input : List Byte) (hp : .regs ∈ ps ∧ .mcv ∈ ps ∧ .mbx ∈ ps ∧ .outbox ∈ ps) :
    keptBut s₀ (writeRegistersAt via input s) ps ↔ keptBut s₀ s ps := by
  simp [writeRegistersAt, hp]
@[simp] theorem kept_writeAt (a value : Nat) (hp : .regs ∈ ps ∧ .mcv ∈ ps) :
    keptBut s₀ (writeAt a value s) ps ↔ keptBut s₀ s ps := by
  unfold writeAt
  split <;> simp [hp]
@[simp] theorem kept_registerWrite (path : WritePath) (a value : Nat) (hp : .regs ∈ ps ∧ .host ∈ ps ∧ .mcv ∈ ps) :
    keptBut s₀ (registerWrite path a value s) ps ↔ keptBut s₀ s ps := by
  unfold registerWrite
  split <;> simp [hp]

/-! ### Tick -/

@[simp] theorem kept_loadRange (x : Nat × Nat) (hp : .regs ∈ ps) : keptBut s₀ (loadRange x s) ps ↔ keptBut s₀ s ps := by
  refine kept_forEach (fun r u => ?_) _
  exact (kept_forEach (fun i v => by simp [hp]) _).mpr (keptBut_refl u ps)

@[simp] theorem kept_reloadTandem (hp : .regs ∈ ps ∧ .sbg ∈ ps ∧ .tnd ∈ ps) :
    keptBut s₀ (reloadTandem s) ps ↔ keptBut s₀ s ps := by
  simp [reloadTandem, hp]
@[simp] theorem kept_restartPatrol (hp : .regs ∈ ps ∧ .med ∈ ps) :
    keptBut s₀ (restartPatrol s) ps ↔ keptBut s₀ s ps := by
  simp [restartPatrol, hp]
@[simp] theorem kept_reloadOne (x : Nat × Nat) (hp : .regs ∈ ps ∧ .med ∈ ps ∧ .sbg ∈ ps ∧ .tnd ∈ ps) :
    keptBut s₀ (reloadOne x s) ps ↔ keptBut s₀ s ps := by
  simp [reloadOne, hp]
@[simp] theorem kept_reloadStored (hp : .regs ∈ ps ∧ .med ∈ ps ∧ .sbg ∈ ps ∧ .tnd ∈ ps ∧ .mbx ∈ ps) :
    keptBut s₀ (reloadStored s) ps ↔ keptBut s₀ s ps := by
  simp [reloadStored, hp]
@[simp] theorem kept_tickEnd (hp : .host ∈ ps ∧ .cache ∈ ps ∧ .sched ∈ ps ∧ .seq ∈ ps ∧ .rcd ∈ ps) :
    keptBut s₀ (tickEnd s) ps ↔ keptBut s₀ s ps := by
  simp [tickEnd, hp]
@[simp] theorem kept_dropMuted (hp : .sched ∈ ps) :
    keptBut s₀ (dropMuted s) ps ↔ keptBut s₀ s ps := by
  simp [dropMuted, hp]
@[simp] theorem kept_tickLedger (hp : .regs ∈ ps ∧ .host ∈ ps ∧ .sched ∈ ps ∧ .led ∈ ps ∧ .rcd ∈ ps ∧ .tnd ∈ ps ∧ .outbox ∈ ps) :
    keptBut s₀ (tickLedger s) ps ↔ keptBut s₀ s ps := by
  simp [tickLedger, hp]
@[simp] theorem kept_checkDrain (hp : .regs ∈ ps ∧ .host ∈ ps ∧ .sched ∈ ps ∧ .fw ∈ ps ∧ .med ∈ ps ∧ .rcd ∈ ps) :
    keptBut s₀ (checkDrain s) ps ↔ keptBut s₀ s ps := by
  simp [checkDrain, hp]
@[simp] theorem kept_tickQueues
    (hp : .regs ∈ ps ∧ .host ∈ ps ∧ .cache ∈ ps ∧ .sched ∈ ps ∧ .fw ∈ ps ∧ .med ∈ ps ∧ .life ∈ ps ∧ .rcd ∈ ps ∧ .sbg ∈ ps ∧ .tnd ∈ ps
      ∧ .mbx ∈ ps ∧ .outbox ∈ ps) :
    keptBut s₀ (tickQueues s) ps ↔ keptBut s₀ s ps := by
  simp [tickQueues, hp]

end

end Sys2Proof.Machine
end

section
/-! PROOF. The mode (R185): what latches a brake latches it from a mode that may brake and from nowhere else; a hold's release is
forgotten by it; and every command makes one move of the table of transitions at most. -/
namespace Sys2Proof.Machine
set_option Elab.async false

section
variable {s t u : State}

/-- The parts of the state that are neither the mode nor the life cycle's. -/
def quietParts : List Part :=
  [.gtc, .stamp, .regs, .pins, .host, .cache, .sched, .led, .fw, .med, .seq, .mcv, .rcd, .sbg, .pel, .tnd, .mbx, .outbox, .freeIx]

@[simp] theorem mem_quietParts {p : Part} : p ∈ quietParts ↔ p ≠ .mode ∧ p ≠ .life := by cases p <;> decide

/-- The parts of the state but the mode. -/
def steadyParts : List Part := .life :: quietParts

@[simp] theorem mem_steadyParts {p : Part} : p ∈ steadyParts ↔ p ≠ .mode := by cases p <;> decide

/-- The mode is the same, and so is whether a hold has been released. -/
def sameHold (s t : State) : Prop := t.mode = s.mode ∧ t.life.toStandby = s.life.toStandby

/-- Nothing happened to the mode, or a brake has latched, not released, from a mode that may brake. -/
def mayLatch (s t : State) : Prop :=
  sameHold s t ∨ (modeMay s.mode .brake = true ∧ t.mode = .brake ∧ t.life.toStandby = false)

/-- The mode is the same, or one move of the table of transitions away. -/
def mayMove (s t : State) : Prop := t.mode = s.mode ∨ modeMay s.mode t.mode = true

theorem sameHold_of_kept (h : keptBut s t quietParts) : sameHold s t := by
  obtain ⟨-, -, -, -, h⟩ := h
  exact ⟨h .mode (by simp), congrArg Life.toStandby (h .life (by simp))⟩

theorem mode_of_kept (h : keptBut s t steadyParts) : t.mode = s.mode := h.2.2.2.2 .mode (by simp)

theorem mayLatch_refl (s : State) : mayLatch s s := .inl ⟨rfl, rfl⟩

theorem mayLatch.trans (h : mayLatch s t) (k : mayLatch t u) : mayLatch s u := by
  rcases h with ⟨hm, hl⟩ | ⟨hmay, hm, hl⟩
  · rcases k with ⟨km, kl⟩ | ⟨kmay, km, kl⟩
    · exact .inl ⟨km.trans hm, kl.trans hl⟩
    · exact .inr ⟨hm ▸ kmay, km, kl⟩
  · rcases k with ⟨km, kl⟩ | ⟨kmay, km, kl⟩
    · exact .inr ⟨hmay, km.trans hm, kl.trans hl⟩
    · exact .inr ⟨hmay, km, kl⟩

theorem mayLatch_of_kept (h : keptBut s t quietParts) : mayLatch s t := .inl (sameHold_of_kept h)

/-- What only other parts of the state are changed by, before and after a latch. -/
theorem mayLatch.kept (h : mayLatch s t) (k : keptBut t u quietParts) : mayLatch s u := h.trans (mayLatch_of_kept k)

theorem mayLatch_forEach {α : Type} {f : α → State → State} (h : ∀ x u, mayLatch u (f x u)) (xs : List α) :
    ∀ s, mayLatch s (forEach xs f s) := by
  induction xs with
  | nil => exact mayLatch_refl
  | cons x xs ih => exact fun s => (h x s).trans (ih _)

theorem mayLatch_when {f : State → State} (b : Bool) (h : mayLatch s t) (hf : ∀ v, mayLatch v (f v)) : mayLatch s (when b f t) := by
  cases b
  · exact h
  · exact h.trans (hf t)

theorem mayLatch_ite {c : Prop} [Decidable c] (h : mayLatch s t) (k : mayLatch s u) : mayLatch s (if c then t else u) := by
  split <;> assumption

theorem mayMove_of_mode (h : t.mode = s.mode) : mayMove s t := .inl h

theorem mayMove_of_kept (h : keptBut s t steadyParts) : mayMove s t := .inl (mode_of_kept h)

theorem mayLatch.move (h : mayLatch s t) : mayMove s t := by
  rcases h with ⟨hm, -⟩ | ⟨hmay, hm, -⟩
  · exact .inl hm
  · exact .inr (hm ▸ hmay)

/-- A move with nothing but other parts changed after it. -/
theorem mayMove.kept (h : mayMove s t) (k : keptBut t u steadyParts) : mayMove s u := by
  simpa [mayMove, mode_of_kept k] using h

/-- A move with nothing but other parts changed before it. -/
theorem mayMove_of_kept_left (h : keptBut s t steadyParts) (k : mayMove t u) : mayMove s u := by
  simpa [mayMove, mode_of_kept h] using k

end

/-! ### The moves -/

/-- What setMode leaves of the life cycle and the mode: it notes when, and nothing else of them. -/
theorem setMode_mode_life (m : Mode) (s : State) :
    (setMode m s).mode = m ∧ (setMode m s).life = { s.life with modeSince := s.stamp } := by
  have hkept : keptBut ({ onLife (fun l => { l with modeSince := s.stamp }) s with mode := m }) (setMode m s) quietParts := by
    simp only [setMode, kept_applyPowers, kept_when, kept_land, kept_fput, mem_quietParts, ne_eq, reduceCtorEq, not_false_eq_true, and_self,
      ite_self]
    exact keptBut_refl _ _
  obtain ⟨-, -, -, -, h⟩ := hkept
  exact ⟨h .mode (by simp), h .life (by simp)⟩

@[simp] theorem setMode_mode (m : Mode) (s : State) : (setMode m s).mode = m := (setMode_mode_life m s).1

@[simp] theorem setMode_life (m : Mode) (s : State) : (setMode m s).life = { s.life with modeSince := s.stamp } :=
  (setMode_mode_life m s).2

theorem latchBrake_mayLatch (cause source : Nat) (s : State) : mayLatch s (latchBrake cause source s) := by
  have hfw : keptBut s (brakeInDrain cause (onFw (fun f => { f with toBrake := true }) (when (!s.fw.toBrake) (fun s =>
      fbit F.HUB_BRAKE_SEALED 0 s.fw.sealed (showDrain (s.fw.kind = .full) (brakeNote cause source s))) s))) quietParts := by simp
  cases hm : s.mode
  case off => simpa [latchBrake, hm] using mayLatch_refl s
  case standby => simpa [latchBrake, hm] using mayLatch_refl s
  case freewheel => simpa only [latchBrake, hm] using mayLatch_of_kept hfw
  case brake =>
    refine mayLatch_of_kept ?_
    simp only [latchBrake, hm]
    split <;> simp
  all_goals exact .inr ⟨by rw [hm]; rfl, by simp [latchBrake, hm], by simp [latchBrake, hm, poisonLoads]⟩

theorem enterFreewheel_mode (kind : Nat) (s : State) : (enterFreewheel kind s).mode = .freewheel := by simp [enterFreewheel]

theorem inputFails_mayMove (kind : Nat) (s : State) : mayMove s (inputFails kind s) := by
  cases hm : s.mode <;> simp [mayMove, inputFails, hm, enterFreewheel_mode, modeMay]

theorem enterStandby_mode (s : State) : (enterStandby s).mode = .standby := by simp [enterStandby]

end Sys2Proof.Machine
end

section
/-! PROOF. The mode (R185), continued: what each operation that latches a brake, or enters or leaves a mode, does to it. -/
namespace Sys2Proof.Machine
set_option Elab.async false

/-! ### Operations that may latch a brake -/

section
variable (s : State)

theorem directoryLost_mayLatch (loc : Nat) : mayLatch s (directoryLost loc s) :=
  mayLatch.trans (mayLatch_of_kept (by simp)) (latchBrake_mayLatch _ _ _)

theorem brakeRail_mayLatch (t : Target) (c : Nat) : mayLatch s (brakeRail t c s) :=
  mayLatch.trans (mayLatch_of_kept (by simp)) (latchBrake_mayLatch _ _ _)

theorem retryOrEscalate_mayLatch (t : Target) (c : Nat) : mayLatch s (retryOrEscalate t c s) := by
  simp only [retryOrEscalate]
  split
  · exact mayLatch_of_kept (by simp)
  · split
    · exact mayLatch.trans (mayLatch_of_kept (by simp)) (brakeRail_mayLatch _ t c)
    · exact mayLatch_of_kept (by simp)

theorem railFault_mayLatch (t : Target) (c kind : Nat) : mayLatch s (railFault t c kind s) := by
  have hcount : mayLatch s (countFault t c kind s) := mayLatch_of_kept (by simp)
  have hrail := hcount.trans (brakeRail_mayLatch _ t c)
  have hnote : mayLatch s (fset F.SEQ_ERR_NOTE 0 (countFault t c kind s)) := hcount.kept (by simp)
  have hoff : mayLatch s (groupOff t (countFault t c kind s)) := hcount.kept (by simp)
  simp only [railFault]
  split
  case h_1 | h_2 => assumption
  case h_3 | h_4 => split <;> assumption
  case h_5 =>
    repeat' split
    · exact hnote
    · exact hcount.trans (retryOrEscalate_mayLatch _ t c)
    · exact hoff
    · exact hrail

theorem afterStepFault_sameHold : sameHold s (afterStepFault s) := by
  unfold afterStepFault nextStep gotoStep endSequence
  repeat' split
  all_goals exact ⟨rfl, rfl⟩

theorem nextStep_mayLatch : mayLatch s (nextStep s) := by
  unfold nextStep gotoStep endSequence
  split <;> exact .inl ⟨rfl, rfl⟩

theorem afterStepFault_mayLatch : mayLatch s (afterStepFault s) := by
  unfold afterStepFault
  split
  · exact nextStep_mayLatch s
  · exact mayLatch_refl s

theorem completeWait_mayLatch : mayLatch s (completeWait s) := by
  simp only [completeWait]
  repeat' split
  · exact nextStep_mayLatch s
  · exact nextStep_mayLatch s
  · exact mayLatch_refl s
  · exact mayLatch_refl s

theorem goodEnds_mayLatch (c : Nat) : mayLatch s (goodEnds c s) :=
  mayLatch.trans (mayLatch_of_kept (by simp)) (completeWait_mayLatch _)

theorem pgSeen_mayLatch (c : Nat) : mayLatch s (pgSeen c s) :=
  mayLatch.trans (mayLatch_of_kept (by simp)) (goodEnds_mayLatch _ c)

theorem driveEdge_mayLatch (e : Target × Bool) : mayLatch s (driveEdge e s) := by
  simp only [driveEdge]
  refine mayLatch_ite ?_ ((mayLatch_of_kept (by simp)).trans (completeWait_mayLatch _))
  exact (mayLatch_of_kept (by simp)).trans (mayLatch_forEach (fun k u => pgSeen_mayLatch u k) _ _)

theorem driveEdges_mayLatch : mayLatch s (driveEdges s) :=
  (mayLatch_of_kept (by simp)).trans (mayLatch_forEach (fun e u => driveEdge_mayLatch u e) _ _)

theorem seqCheckWindow_mayLatch : mayLatch s (seqCheckWindow s) := by
  simp only [seqCheckWindow]
  repeat' split
  · exact (railFault_mayLatch s _ _ 5).trans (afterStepFault_mayLatch _)
  · exact nextStep_mayLatch s
  · exact mayLatch_refl s

theorem gangSyncTimeout_mayLatch : mayLatch s (gangSyncTimeout s) := by
  simp only [gangSyncTimeout]
  split
  · exact ((mayLatch_of_kept (by simp)).trans (railFault_mayLatch _ _ _ 6)).trans (afterStepFault_mayLatch _)
  · exact mayLatch_refl s

theorem armUv_mayLatch (k : Nat) : mayLatch s (armUv k s) := by
  have harm : mayLatch s (fset F.SEQ_CHn_STATUS_UV_ARMED k s) := mayLatch_of_kept (by simp)
  simp only [armUv]
  repeat' split
  · exact harm.trans (railFault_mayLatch _ _ _ 1)
  · exact harm
  · exact mayLatch_refl s

theorem armComparators_mayLatch : mayLatch s (armComparators s) :=
  (mayLatch_of_kept (by simp)).trans (mayLatch_forEach (fun k u => armUv_mayLatch u k) _ _)

theorem pgDone_mayLatch (k : Nat) (rise : Bool) : mayLatch s (pgDone k rise s) := by
  simp only [pgDone]
  repeat' split
  · exact (mayLatch_when _ (mayLatch_refl s) fun u => armUv_mayLatch u k).trans (pgSeen_mayLatch _ k)
  · exact railFault_mayLatch s _ k 4
  · exact completeWait_mayLatch s

theorem pgEdges_mayLatch : mayLatch s (pgEdges s) :=
  (mayLatch_of_kept (by simp)).trans (mayLatch_forEach (fun (e : Nat × Bool × Nat) u => pgDone_mayLatch u e.1 e.2.1) _ _)

theorem pgEdge_mayLatch (c : Chan) (high : Bool) (t : Nat) : mayLatch s (pgEdge c high t s) := by
  simp only [pgEdge]
  refine mayLatch_ite (mayLatch_refl s) (mayLatch_ite ?_ (mayLatch_of_kept (by simp)))
  exact (mayLatch_of_kept (by simp)).trans (pgEdges_mayLatch _)

theorem pgTimeout_mayLatch (tgt : Target) : mayLatch s (pgTimeout tgt s) := by
  simp only [pgTimeout]
  repeat' split
  · exact mayLatch_refl s
  · exact (mayLatch_of_kept (by simp)).trans (railFault_mayLatch _ _ _ 3)
  · exact mayLatch_of_kept (by simp)
  · exact ((mayLatch_of_kept (by simp)).trans (railFault_mayLatch _ _ _ 3)).trans (afterStepFault_mayLatch _)
  · exact mayLatch_refl s

theorem uvTrip_mayLatch (c : Chan) (t : Nat) : mayLatch s (uvTrip c t s) := by
  simp only [uvTrip]
  repeat' split
  · exact mayLatch_refl s
  · exact (mayLatch_of_kept (by simp)).trans (railFault_mayLatch _ _ _ 1)
  · exact mayLatch_of_kept (by simp)

theorem ovTrip_mayLatch (c : Chan) (t : Nat) : mayLatch s (ovTrip c t s) := by
  simp only [ovTrip]
  repeat' split
  · exact mayLatch_refl s
  · exact (mayLatch_of_kept (by simp)).trans (railFault_mayLatch _ _ _ 2)
  · exact mayLatch_of_kept (by simp)

theorem pmbusFail_mayLatch (c : Nat) (m : Margin) : mayLatch s (pmbusFail c m s) := by
  have hnote : mayLatch s (fset F.SEQ_ERR_PMB_ERR 0 s) := mayLatch_of_kept (by simp)
  have hfault := hnote.trans (railFault_mayLatch _ (tgtOf s (Fin.ofNat 32 c)) c 7)
  simp only [pmbusFail]
  split
  · exact mayLatch_of_kept (by simp)
  · split <;> exact hfault.kept (by simp)

theorem pmbusComplete_mayLatch (port : Fin 2) (ok : Bool) (data : BitVec 16) : mayLatch s (pmbusComplete port ok data s) := by
  simp only [pmbusComplete]
  split
  · exact mayLatch_refl s
  next c m _ =>
    cases ok
    · exact (pmbusFail_mayLatch s c m).kept (by simp)
    · exact mayLatch_of_kept (by simp)

theorem pmbusStretch_mayLatch (port : Fin 2) : mayLatch s (pmbusStretch port s) := by
  simp only [pmbusStretch]
  split
  · exact mayLatch_refl s
  next c m _ => exact (pmbusFail_mayLatch s c { m with attempt := 2 }).kept (by simp)

/-- Whether the junction counts as hot has no say in the mode. -/
theorem onLife_hot_mayLatch (b : Bool) : mayLatch s (onLife (fun l => { l with hot := b }) s) := .inl ⟨rfl, rfl⟩

theorem tjShut_mayLatch (code : Nat) : mayLatch s (tjShut code s) := by
  simp only [tjShut]
  split
  · split
    · exact mayLatch_of_kept (by simp)
    split
    case h_1 | h_2 | h_3 | h_4 => exact (mayLatch_of_kept (by simp)).trans (latchBrake_mayLatch _ _ _)
    case h_5 => exact mayLatch_of_kept (by simp)
    case h_6 =>
      split
      · exact mayLatch_of_kept (by simp)
      · exact (mayLatch_of_kept (by simp)).trans (onLife_hot_mayLatch _ true)
  · exact mayLatch_of_kept (by simp)

theorem tjWarn_mayLatch (code : Nat) : mayLatch s (tjWarn code s) := by
  simp only [tjWarn]
  repeat' split
  · exact mayLatch_of_kept (by simp)
  · exact mayLatch_refl s
  · exact (mayLatch_of_kept (by simp)).trans (onLife_hot_mayLatch _ false)

theorem tjResult_mayLatch (code : Nat) : mayLatch s (tjResult code s) :=
  ((mayLatch_of_kept (by simp)).trans (tjWarn_mayLatch _ code)).trans (tjShut_mayLatch _ code)

theorem convResult_mayLatch (n : Nat) (r : ConvRun) (raw : Nat) (clamp : Bool) : mayLatch s (convResult n r raw clamp s) := by
  simp only [convResult]
  refine mayLatch_when _ (mayLatch_of_kept ?_) (fun v => tjResult_mayLatch v raw)
  cases ainOf n r.ch <;> simp

/-- What follows a conversion's end touches neither the mode nor the life cycle. -/
theorem conversionEnd_kept (n : Nat) :
    keptBut s (s |> calStopped n |> diagStopped n |> hwTrigger 4 n true |> applyPower n |> goOn n) quietParts := by simp

theorem convComplete_mayLatch (n u : Nat) : mayLatch s (convComplete n u s) := by
  simp only [convComplete]
  split
  · exact mayLatch_refl s
  · refine mayLatch.kept ?_ (conversionEnd_kept _ n)
    split
    · exact mayLatch_of_kept (by simp)
    · exact mayLatch_of_kept (by simp)
    · exact (mayLatch_of_kept (by simp)).trans (convResult_mayLatch _ n _ _ _)

end

end Sys2Proof.Machine
end

section
/-! PROOF. The mode (R185), concluded: the requests of the host, the stages of the life cycle, the tick, and every command. -/
namespace Sys2Proof.Machine
set_option Elab.async false

section
variable {s₀ s : State} {ps : List Part}

@[simp] theorem kept_tagParity (loc : Nat) (dir : DirCheck) (hp : .regs ∈ ps ∧ .cache ∈ ps) :
    keptBut s₀ (tagParity loc dir s).st ps ↔ keptBut s₀ s ps := by
  simp only [tagParity]
  repeat' split
  all_goals simp [hp]

@[simp] theorem kept_lookupCheck (sl set : Nat) (chk : ArrayCheck) (hp : .regs ∈ ps ∧ .host ∈ ps ∧ .cache ∈ ps ∧ .outbox ∈ ps) :
    keptBut s₀ (lookupCheck sl set chk s).st ps ↔ keptBut s₀ s ps := by
  cases chk <;> simp [lookupCheck, hp]

end

section
variable (s : State)

/-! ### The host's requests and the cache's errors -/

theorem serviceLoad_mayLatch (op : CtxOp) (tag : BitVec 16) (hpa t : Nat) (chk : ArrayCheck) :
    mayLatch s (serviceLoad op tag hpa t chk s) := by
  simp only [serviceLoad]
  split
  · exact mayLatch_of_kept (by simp)
  · refine mayLatch_ite (mayLatch_of_kept (by simp)) (mayLatch_ite (mayLatch_of_kept (by simp)) (mayLatch_ite
      (mayLatch_of_kept (by simp)) (mayLatch_ite ?_ (mayLatch_of_kept (by simp)))))
    have hlost (u : State) (loc : Nat) : mayLatch u (answerLoad op tag hpa t (directoryLost loc u)) :=
      (directoryLost_mayLatch u loc).kept (by simp)
    exact (mayLatch_of_kept (by simp)).trans (hlost _ _)

theorem loadFlow_mayLatch (op : CtxOp) (tag : BitVec 16) (hpa t : Nat) (chk : ArrayCheck) :
    mayLatch s (loadFlow op tag hpa t chk s) := by
  simp only [loadFlow]
  refine mayLatch_ite (mayLatch_of_kept (by simp)) (mayLatch_ite (mayLatch_of_kept (by simp)) (mayLatch_ite
    (mayLatch_of_kept (by simp)) ?_))
  exact (mayLatch_of_kept (by simp)).trans (serviceLoad_mayLatch _ op tag hpa t chk)

theorem serviceStore_mayLatch (c : Ctx) (t : Nat) (chk : ArrayCheck) : mayLatch s (serviceStore c t chk s) := by
  simp only [serviceStore]
  split
  · exact mayLatch_of_kept (by simp)
  · refine mayLatch_ite (mayLatch_of_kept (by simp)) (mayLatch_ite (mayLatch_of_kept (by simp)) (mayLatch_ite
      (mayLatch_of_kept (by simp)) (mayLatch_ite ?_ (mayLatch_of_kept (by simp)))))
    have hlost (u : State) (loc : Nat) : mayLatch u (answerStore c.op c.tag c.hpa t false (directoryLost loc u)) :=
      (directoryLost_mayLatch u loc).kept (by simp)
    exact (mayLatch_of_kept (by simp)).trans (hlost _ _)

theorem storeFlow_mayLatch (op : CtxOp) (tag : BitVec 16) (hpa t : Nat) (data : Sector) (be : BitVec 64) (poison : Bool)
    (chk : ArrayCheck) : mayLatch s (storeFlow op tag hpa t data be poison chk s) := by
  simp only [storeFlow]
  refine mayLatch_ite (mayLatch_of_kept (by simp)) (mayLatch_ite (mayLatch_of_kept (by simp)) (mayLatch_ite
    (mayLatch_of_kept (by simp)) (mayLatch_ite (mayLatch_of_kept (by simp)) ?_)))
  exact (mayLatch_of_kept (by simp)).trans (serviceStore_mayLatch _ _ t chk)

theorem scrubTag_mayLatch (loc : Nat) (dir : DirCheck) : mayLatch s (scrubTag loc dir s) := by
  simp only [scrubTag]
  refine mayLatch_ite (mayLatch_of_kept (by simp)) (mayLatch_ite ?_ (mayLatch_of_kept (by simp)))
  exact (mayLatch_of_kept (by simp)).trans (directoryLost_mayLatch _ loc)

theorem scrubOne_mayLatch (w set : Nat) (x : ScrubFinding) : mayLatch s (scrubOne w set x s) := by
  simp only [scrubOne]
  split
  case h_7 => exact scrubTag_mayLatch s _ _
  all_goals exact mayLatch_of_kept (by simp)

theorem walkOne_mayLatch (w set : Nat) (x : ScrubFinding) : mayLatch s (walkOne w set x s) := by
  simp only [walkOne]
  split
  · refine mayLatch_ite ?_ (mayLatch_refl s)
    exact (mayLatch_of_kept (by simp)).trans (directoryLost_mayLatch _ _)
  · exact mayLatch_refl s

theorem scrubVisit_mayLatch (w : Wheel) (found : List ScrubFinding) : mayLatch s (scrubVisit w found s) := by
  have hrest (set : Nat) (u : State) : mayLatch u (u |> forEach (List.range 16) (scrubWay w.val set found) |> relock w.val set
      |> onCache (fun c => { c with scrubSet := tabSet 0 w.val ((set + 1) % 4096) c.scrubSet })) := mayLatch_of_kept (by simp)
  simp only [scrubVisit]
  refine mayLatch_ite (mayLatch_forEach (fun x u => walkOne_mayLatch u w.val _ x) found s) (mayLatch_ite ?_ (mayLatch_refl s))
  exact (mayLatch_forEach (fun x u => scrubOne_mayLatch u w.val _ x) found s).trans (hrest _ _)

/-! ### The firmware and the dies -/

theorem recoverRead_mayMove (r : RecoverReads) : mayMove s (recoverRead r s) := by
  simp only [recoverRead]
  split
  · split
    · exact ((mayLatch_of_kept (by simp)).trans (latchBrake_mayLatch 10 srcHub _)).move
    · exact mayMove_of_kept (by simp)
  · exact mayMove_of_mode rfl

theorem firmwareChecked_mayMove (newerOk otherOk : Bool) : mayMove s (firmwareChecked newerOk otherOk s) := by
  simp only [firmwareChecked]
  split
  · exact mayMove_of_mode rfl
  · split
    · exact (latchBrake_mayLatch 8 srcHub s).move
    · exact mayMove_of_kept (by simp)

theorem trained_mayMove (w : Nat) (passed : BitVec 8) : mayMove s (trained w passed s) := by
  simp only [trained]
  split
  · exact mayMove_of_mode rfl
  · split
    · exact mayMove_of_kept (by simp)
    · exact ((mayLatch_of_kept (by simp)).trans (latchBrake_mayLatch 7 _ _)).move

theorem cacheTested_mayMove (badWays : List WayId) (otherBad : Bool) : mayMove s (cacheTested badWays otherBad s) := by
  simp only [cacheTested]
  split
  · exact mayMove_of_mode rfl
  · split
    · exact mayMove_of_kept_left (by simp) (latchBrake_mayLatch 9 srcHub _).move
    · exact mayMove_of_kept (by simp)

theorem hubFault_mayMove : mayMove s (hubFault s) := by
  unfold hubFault
  split
  · exact (latchBrake_mayLatch 5 srcHub s).move.kept (by simp)
  · exact mayMove_of_mode rfl

theorem portBuffer_mayMove : mayMove s (portBuffer s) := by
  unfold portBuffer
  split
  · exact ((mayLatch_of_kept (by simp)).trans (latchBrake_mayLatch 3 srcHost _)).move
  · exact mayMove_of_mode rfl

theorem selfCheck_mayMove (f : EventFrame) : mayMove s (selfCheck f s) := by
  simp only [selfCheck]
  split
  · split
    · exact mayMove_of_kept (by simp)
    · exact ((mayLatch_of_kept (by simp)).trans (latchBrake_mayLatch 7 _ _)).move
  · exact mayMove_of_mode rfl

/-! ### The life cycle -/

theorem vaonOn_mayMove : mayMove s (vaonOn s) := by
  unfold vaonOn
  split
  next hm => exact .inr (by rw [hm]; rfl)
  · exact mayMove_of_mode rfl

theorem vaonOff_mayMove : mayMove s (vaonOff s) := by
  simp only [vaonOff]
  split
  · exact mayMove_of_mode rfl
  next hm =>
    refine .inr ?_
    cases hs : s.mode
    case off => exact absurd hs hm
    all_goals rfl

theorem vinFall_mayMove (t : Nat) : mayMove s (vinFall t s) := by
  unfold vinFall
  split
  · exact mayMove_of_mode rfl
  · exact mayMove_of_kept_left (by simp) (inputFails_mayMove 8 _)

theorem pwrfail_mayMove (t : Nat) : mayMove s (pwrfail t s) := by
  unfold pwrfail
  split
  · exact mayMove_of_mode rfl
  · refine mayMove_of_kept_left (t := s |> advanceTo t |> fset F.SEQ_IN_STATUS_PWRFAIL 0) (by simp) ?_
    rw [when]
    split
    · exact inputFails_mayMove 9 _
    · exact mayMove_of_mode rfl

theorem enterRamp_mode : (enterRamp s).mode = .ramp := by
  have hm (u : State) : (forEach (List.range 8) (fun n s => startCal n none true s)
      (onMcv (fun m => { m with tjArmed := true, tjRun := 0 }) (setMode .ramp u))).mode = .ramp :=
    (mode_of_kept (s := setMode .ramp u) (by simp)).trans (setMode_mode _ u)
  simp only [enterRamp]
  exact hm _

theorem debounceEnd_mayMove : mayMove s (debounceEnd s) := by
  simp only [debounceEnd]
  split
  · exact mayMove_of_mode rfl
  next h =>
    have hs : s.mode = .standby := by by_contra hne; simp [hne] at h
    exact .inr (by rw [enterRamp_mode, hs]; rfl)

theorem enterMaintenance_mayMove : mayMove s (enterMaintenance s) := by
  unfold enterMaintenance
  split
  next h =>
    have hs : s.mode = .service := by simp_all
    have hm (u : State) : (u |> setMode .maintenance |> onHost (fun h => { h with mediaStatus := 3 }) |> postModule 0 1 7 srcHub
        |> modeReached 5).mode = .maintenance := (mode_of_kept (s := setMode .maintenance u) (by simp)).trans (setMode_mode _ u)
    exact .inr (by rw [hm, hs]; rfl)
  · exact mayMove_of_mode rfl

theorem returnService_mayMove : mayMove s (returnService s) := by
  unfold returnService
  split
  next h =>
    have hs : s.mode = .maintenance := by simp_all
    have hm (u : State) : (u |> setMode .service |> applyCarve |> holdOwn |> onHost (fun h => { h with mediaStatus := 1 })
        |> when s.host.activeOwed setActive |> postModule 0 1 7 srcHub |> dueCkpt |> requeueClrs |> modeReached 4).mode = .service :=
      (mode_of_kept (s := setMode .service u) (by simp)).trans (setMode_mode _ u)
    exact .inr (by rw [hm, hs]; rfl)
  · exact mayMove_of_mode rfl

theorem enterService_mode : (enterService s).mode = .service :=
  (mode_of_kept (s := setMode .service s) (by simp [enterService])).trans (setMode_mode _ s)

theorem enterRecover_mode : (enterRecover s).mode = .recover :=
  (mode_of_kept (s := setMode .recover s) (by simp [enterRecover])).trans (setMode_mode _ s)

/-- Entering RECOVER begins with the dies' checks, so that SERVICE is not entered from there at once. -/
theorem enterRecover_step : (enterRecover s).life.step = .check := by
  have hk (u : State) : keptBut u (startCapTest false (forEach (allDies s) (fun k s => sendDie 12 (k / 8) (k % 8) 0 0 0 s) u))
      quietParts := by simp
  exact congrArg Life.step ((hk _).2.2.2.2 .life (by simp))

/-! ### The tick -/

/-- The tick's boundary may latch a brake by a rail's fault, and does no more to the mode. -/
theorem tickBoundary_mayLatch : mayLatch s (tickBoundary s) := by
  have hrest (u : State) : mayLatch u (u |> marginTicks |> forEach (List.range 8) convTick |> reloadStored |> slewStep
      |> onCache (fun c => { c with fresh := [] }) |> onSched (fun q => { q with bgUsed := [] }) |> turnEngines) :=
    mayLatch_of_kept (by simp)
  exact (((((mayLatch_of_kept (by simp)).trans (pgEdges_mayLatch _)).trans (armComparators_mayLatch _)).trans
    (driveEdges_mayLatch _)).trans (completeWait_mayLatch _)).trans (hrest _)

/-- The dies' release concerns neither the mode nor a hold. -/
theorem releaseDies_mayLatch : mayLatch s (releaseDies s) := by
  unfold releaseDies
  split
  · exact .inl ⟨rfl, rfl⟩
  · exact mayLatch_refl s

theorem tryRecover_eq : tryRecover s = s ∨ s.mode = .ramp ∧ (tryRecover s).mode = .recover ∧ (tryRecover s).life.step = .check := by
  unfold tryRecover
  split
  next h => exact .inr ⟨by simp_all, enterRecover_mode s, enterRecover_step s⟩
  · exact .inl rfl

theorem tryService_eq : tryService s = s ∨ s.mode = .recover ∧ s.life.step = .store ∧ (tryService s).mode = .service := by
  unfold tryService
  split
  next h => exact .inr ⟨by simp_all, by simp_all, enterService_mode _⟩
  · exact .inl rfl

theorem endFreewheel_eq : endFreewheel s = s ∨ s.mode = .freewheel ∧
    ((endFreewheel s).mode = .standby ∨ (endFreewheel s).mode = .brake) := by
  have hland (u : State) (src : Nat) : (land 0x04 7 src 0 none (setMode .brake u)).mode = .brake :=
    (mode_of_kept (s := setMode .brake u) (by simp)).trans (setMode_mode _ u)
  unfold endFreewheel
  split
  next h =>
    have hm : s.mode = .freewheel := by simp_all
    split
    · exact .inr ⟨hm, .inr (hland _ _)⟩
    · exact .inr ⟨hm, .inl (enterStandby_mode _)⟩
  · exact .inl rfl

theorem leaveHold_eq : leaveHold s = s ∨ (s.mode = .brake ∧ s.life.toStandby = true) ∧ (leaveHold s).mode = .standby := by
  unfold leaveHold
  split
  next h => exact .inr ⟨by simp_all, enterStandby_mode _⟩
  · exact .inl rfl

/-- In RECOVER before its store, the later mode changes of a tick do nothing. -/
theorem laterChanges_of_recover (hm : s.mode = .recover) (hs : s.life.step ≠ .store) :
    leaveHold (endFreewheel (tryService s)) = s := by
  simp [tryService, endFreewheel, leaveHold, hm, hs]

/-- In SERVICE, the last mode changes of a tick do nothing. -/
theorem lastChanges_of_service (hm : s.mode = .service) : leaveHold (endFreewheel s) = s := by
  simp [endFreewheel, leaveHold, hm]

variable {s} {s₀ : State}

/-- A hold is left only from a brake that has been released. -/
theorem leaveHold_mayMove (h : mayLatch s₀ s) : mayMove s₀ (leaveHold s) := by
  rcases leaveHold_eq s with he | ⟨⟨hm, hl⟩, ht⟩
  · rw [he]
    exact h.move
  · rcases h with ⟨hsame, -⟩ | ⟨-, -, hl'⟩
    · exact .inr (by rw [ht, ← hsame, hm]; rfl)
    · exact absurd (hl.symm.trans hl') (by simp)

/-- A freewheel ends in a brake or in STANDBY; and a hold left in the same tick is left for STANDBY as well. -/
theorem endFreewheel_mayMove (h : mayLatch s₀ s) : mayMove s₀ (leaveHold (endFreewheel s)) := by
  rcases endFreewheel_eq s with he | ⟨hm, ht⟩
  · rw [he]
    exact leaveHold_mayMove h
  · have hfrom : s₀.mode = .freewheel := by
      rcases h with ⟨hsame, -⟩ | ⟨-, hbrake, -⟩
      · exact hsame.symm.trans hm
      · exact absurd (hm.symm.trans hbrake) (by simp)
    have hend : (leaveHold (endFreewheel s)).mode = .standby ∨ (leaveHold (endFreewheel s)).mode = .brake := by
      rcases leaveHold_eq (endFreewheel s) with he | ⟨-, hl⟩
      · rwa [he]
      · exact .inl hl
    rcases hend with he | he <;> exact .inr (by rw [hfrom, he]; rfl)

/-- SERVICE is entered from RECOVER's store, and nothing follows in the same tick. -/
theorem tryService_mayMove (h : mayLatch s₀ s) : mayMove s₀ (leaveHold (endFreewheel (tryService s))) := by
  rcases tryService_eq s with he | ⟨hm, -, ht⟩
  · rw [he]
    exact endFreewheel_mayMove h
  · rw [lastChanges_of_service _ ht]
    rcases h with ⟨hsame, -⟩ | ⟨-, hbrake, -⟩
    · exact .inr (by rw [ht, ← hsame, hm]; rfl)
    · exact absurd (hm.symm.trans hbrake) (by simp)

theorem modeChanges_mayMove (h : mayLatch s₀ s) : mayMove s₀ (modeChanges s) := by
  have hr : mayLatch s₀ (releaseDies s) := h.trans (releaseDies_mayLatch s)
  simp only [modeChanges]
  rcases tryRecover_eq (releaseDies s) with he | ⟨hm, ht, hs⟩
  · rw [he]
    exact tryService_mayMove hr
  · rw [laterChanges_of_recover _ ht (by simp [hs])]
    rcases hr with ⟨hsame, -⟩ | ⟨-, hbrake, -⟩
    · exact .inr (by rw [ht, ← hsame, hm]; rfl)
    · exact absurd (hm.symm.trans hbrake) (by simp)

theorem cadenceTick_mayMove (s : State) : mayMove s (cadenceTick s) := by
  have hrest (u : State) : keptBut u (u |> tickLedger |> tickQueues |> clearProgress) steadyParts := by simp
  unfold cadenceTick
  split
  · exact (modeChanges_mayMove ((mayLatch_of_kept (by simp)).trans (tickBoundary_mayLatch _))).kept (hrest _)
  · exact mayMove_of_mode rfl

end

/-! ### Every command -/

/-- Every command's effect makes one move of the table at most. -/
theorem effect_mayMove (c : Instr) (s : State) : ∃ k : State → State,
    (exec c s = match namedWheel c with
      | none => run k s
      | some w => onWheel w k s) ∧ mayMove (stampNow s) (k (stampNow s)) := by
  generalize hu : stampNow s = u
  cases c <;> refine ⟨_, rfl, ?_⟩
  case memrd | memrddata => exact (loadFlow_mayLatch u _ _ _ _ _).move
  case memwr | memwrptl => exact (storeFlow_mayLatch u _ _ _ _ _ _ _ _).move
  case scrubSetVisit => exact (scrubVisit_mayLatch u _ _).move
  case checkWindow => exact (seqCheckWindow_mayLatch u).move
  case gangSyncTimeout => exact (gangSyncTimeout_mayLatch u).move
  case pgEdge => exact (pgEdge_mayLatch u _ _ _).move
  case pgTimeoutExpiry => exact (pgTimeout_mayLatch u _).move
  case uvTrip => exact (uvTrip_mayLatch u _ _).move
  case ovTrip => exact (ovTrip_mayLatch u _ _).move
  case pmbusTransactionComplete => exact (pmbusComplete_mayLatch u _ _ _).move
  case pmbusStretchTimeout => exact (pmbusStretch_mayLatch u _).move
  case conversionComplete => exact (convComplete_mayLatch u _ _).move
  case vaonPowerOn => exact vaonOn_mayMove u
  case vaonPowerOff => exact vaonOff_mayMove u
  case vinFallTrip => exact vinFall_mayMove u _
  case pwrfailNAssert => exact pwrfail_mayMove u _
  case debounceExpiry => exact debounceEnd_mayMove u
  case firmwareAuthenticated => exact firmwareChecked_mayMove u _ _
  case trainingComplete => exact trained_mayMove u _ _
  case cacheTestComplete => exact cacheTested_mayMove u _ _
  case recoverReadComplete => exact recoverRead_mayMove u _
  case selfCheckResult => exact selfCheck_mayMove u _
  case hubWatchdogExpiry | hubMemoryError => exact hubFault_mayMove u
  case portBufferError => exact portBuffer_mayMove u
  case maintenanceEntry => exact enterMaintenance_mayMove u
  case serviceReturn => exact returnService_mayMove u
  case cadenceTick => exact cadenceTick_mayMove u
  case unsupportedOpcode =>
    refine mayMove_of_kept ?_
    split <;> simp
  all_goals exact mayMove_of_kept (by simp [hu])

/-- Settles O49: a step is a command's effect, settled, and that makes one move of the table at most. -/
theorem modesChangeOnlyByTheTable : Obligations.ModesChangeOnlyByTheTable := by
  unfold Obligations.ModesChangeOnlyByTheTable
  intro s t h hne
  unfold step at h
  split at h
  · obtain rfl := Host.Outcome.next.inj h
    exact absurd rfl hne
  next c rest hp =>
    obtain ⟨k, hk, hm⟩ := effect_mayMove c { s with pending := rest }
    obtain rfl := eq_settle_of_effect hk h
    exact hm.resolve_left hne

end Sys2Proof.Machine
end

section
/-! SUPPORT. The footprints of the operations that change the mode. -/
namespace Sys2Proof.Machine
set_option Elab.async false

section
variable {s₀ s : State} {ps : List Part}

@[simp] theorem kept_mode (m : Mode) (hp : .mode ∈ ps) : keptBut s₀ { s with mode := m } ps ↔ keptBut s₀ s ps :=
  kept_of_part hp fun q hq => by cases q <;> simp_all [agree]

@[simp] theorem kept_setMode (m : Mode) (hp : .mode ∈ ps ∧ .regs ∈ ps ∧ .life ∈ ps ∧ .mcv ∈ ps ∧ .rcd ∈ ps) :
    keptBut s₀ (setMode m s) ps ↔ keptBut s₀ s ps := by
  simp [setMode, hp]
@[simp] theorem kept_enterStandby (hp : .mode ∈ ps ∧ .regs ∈ ps ∧ .pins ∈ ps ∧ .host ∈ ps ∧ .sched ∈ ps ∧ .fw ∈ ps ∧ .life ∈ ps ∧ .seq ∈ ps ∧ .mcv ∈ ps ∧ .rcd ∈ ps ∧ .mbx ∈ ps) :
    keptBut s₀ (enterStandby s) ps ↔ keptBut s₀ s ps := by
  simp [enterStandby, hp]
@[simp] theorem kept_enterFreewheel (kind : Nat) (hp : .stamp ∈ ps ∧ .mode ∈ ps ∧ .regs ∈ ps ∧ .pins ∈ ps ∧ .cache ∈ ps ∧ .led ∈ ps ∧ .fw ∈ ps ∧ .life ∈ ps ∧ .seq ∈ ps ∧ .mcv ∈ ps ∧ .rcd ∈ ps ∧ .mbx ∈ ps ∧ .outbox ∈ ps) :
    keptBut s₀ (enterFreewheel kind s) ps ↔ keptBut s₀ s ps := by
  simp [enterFreewheel, hp]
@[simp] theorem kept_inputFails (kind : Nat) (hp : .stamp ∈ ps ∧ .mode ∈ ps ∧ .regs ∈ ps ∧ .pins ∈ ps ∧ .cache ∈ ps ∧ .led ∈ ps ∧ .fw ∈ ps ∧ .life ∈ ps ∧ .seq ∈ ps ∧ .mcv ∈ ps ∧ .rcd ∈ ps ∧ .mbx ∈ ps ∧ .outbox ∈ ps) :
    keptBut s₀ (inputFails kind s) ps ↔ keptBut s₀ s ps := by
  cases hm : s.mode <;> simp [inputFails, hm, hp]
@[simp] theorem kept_enterRecover (hp : .mode ∈ ps ∧ .regs ∈ ps ∧ .led ∈ ps ∧ .med ∈ ps ∧ .life ∈ ps ∧ .mcv ∈ ps ∧ .rcd ∈ ps ∧ .outbox ∈ ps) :
    keptBut s₀ (enterRecover s) ps ↔ keptBut s₀ s ps := by
  simp [enterRecover, hp]
@[simp] theorem kept_tryRecover (hp : .mode ∈ ps ∧ .regs ∈ ps ∧ .led ∈ ps ∧ .med ∈ ps ∧ .life ∈ ps ∧ .mcv ∈ ps ∧ .rcd ∈ ps ∧ .outbox ∈ ps) :
    keptBut s₀ (tryRecover s) ps ↔ keptBut s₀ s ps := by
  simp [tryRecover, hp]
@[simp] theorem kept_vinFall (t : Nat) (hp : .gtc ∈ ps ∧ .stamp ∈ ps ∧ .mode ∈ ps ∧ .regs ∈ ps ∧ .pins ∈ ps ∧ .cache ∈ ps ∧ .led ∈ ps ∧ .fw ∈ ps ∧ .life ∈ ps ∧ .seq ∈ ps ∧ .mcv ∈ ps ∧ .rcd ∈ ps ∧ .mbx ∈ ps ∧ .outbox ∈ ps) :
    keptBut s₀ (vinFall t s) ps ↔ keptBut s₀ s ps := by
  simp [vinFall, hp]
@[simp] theorem kept_pwrfail (t : Nat) (hp : .gtc ∈ ps ∧ .stamp ∈ ps ∧ .mode ∈ ps ∧ .regs ∈ ps ∧ .pins ∈ ps ∧ .cache ∈ ps ∧ .led ∈ ps ∧ .fw ∈ ps ∧ .life ∈ ps ∧ .seq ∈ ps ∧ .mcv ∈ ps ∧ .rcd ∈ ps ∧ .mbx ∈ ps ∧ .outbox ∈ ps) :
    keptBut s₀ (pwrfail t s) ps ↔ keptBut s₀ s ps := by
  simp [pwrfail, hp]
@[simp] theorem kept_enterRamp (hp : .stamp ∈ ps ∧ .mode ∈ ps ∧ .regs ∈ ps ∧ .pins ∈ ps ∧ .host ∈ ps ∧ .med ∈ ps ∧ .mbx ∈ ps ∧ .cache ∈ ps ∧ .sched ∈ ps ∧ .led ∈ ps ∧ .fw ∈ ps ∧ .life ∈ ps ∧ .seq ∈ ps ∧ .mcv ∈ ps ∧ .rcd ∈ ps ∧ .tnd ∈ ps) :
    keptBut s₀ (enterRamp s) ps ↔ keptBut s₀ s ps := by
  simp [enterRamp, hp]
@[simp] theorem kept_debounceEnd (hp : .gtc ∈ ps ∧ .stamp ∈ ps ∧ .mode ∈ ps ∧ .regs ∈ ps ∧ .pins ∈ ps ∧ .host ∈ ps ∧ .med ∈ ps ∧ .mbx ∈ ps ∧ .cache ∈ ps ∧ .sched ∈ ps ∧ .led ∈ ps ∧ .fw ∈ ps ∧ .life ∈ ps ∧ .seq ∈ ps ∧ .mcv ∈ ps ∧ .rcd ∈ ps ∧ .tnd ∈ ps) :
    keptBut s₀ (debounceEnd s) ps ↔ keptBut s₀ s ps := by
  simp [debounceEnd, hp]
@[simp] theorem kept_enterMaintenance (hp : .gtc ∈ ps ∧ .stamp ∈ ps ∧ .mode ∈ ps ∧ .regs ∈ ps ∧ .pins ∈ ps ∧ .host ∈ ps ∧ .led ∈ ps ∧ .life ∈ ps ∧ .mcv ∈ ps ∧ .rcd ∈ ps ∧ .mbx ∈ ps ∧ .outbox ∈ ps) :
    keptBut s₀ (enterMaintenance s) ps ↔ keptBut s₀ s ps := by
  simp [enterMaintenance, hp]
@[simp] theorem kept_leaveHold (hp : .mode ∈ ps ∧ .regs ∈ ps ∧ .pins ∈ ps ∧ .host ∈ ps ∧ .sched ∈ ps ∧ .fw ∈ ps ∧ .life ∈ ps ∧ .seq ∈ ps ∧ .mcv ∈ ps ∧ .rcd ∈ ps ∧ .mbx ∈ ps) :
    keptBut s₀ (leaveHold s) ps ↔ keptBut s₀ s ps := by
  simp [leaveHold, hp]
end

end Sys2Proof.Machine
end

section
/-! PROOF. Why the saddlebag's form is not kept by every step: it looks at the running stores by bank, while VAON_POWER_OFF ends every store
that the table of running stores lists. -/
namespace Sys2Proof.Machine

set_option Elab.async false

/-- A store of page 0 with an image that lists an erased byte. -/
def erasedImage : StoreRun := ⟨0, 0, [(0, blankByte)], false⟩

/-- In STANDBY, bank 0 listed twice: first with no store, and after it with a store of that image. -/
def twiceListed : State :=
  { State.reset with sbg := { sbgReset with running := [(0, none), (0, some erasedImage)] }, pending := [.vaonPowerOff] }

/-- Read by bank, no store runs: the second entry is never reached. -/
theorem runningStore_twiceListed (b : Nat) : runningStore twiceListed b = none := by
  by_cases hb : b = 0
  · subst hb; rfl
  · simp [runningStore, twiceListed, tabGet, Ne.symm hb]

theorem sbForm_twiceListed : sbForm twiceListed :=
  ⟨rfl, rfl, fun b r h => by simp [runningStore_twiceListed] at h⟩

/-- VAON_POWER_OFF ends the second store, and its image is then in the shadow. -/
theorem shadowLeft_twiceListed : (shadowLeft twiceListed).1 = [(0, blankByte)] := by decide +kernel

/-- Refutes O48: the canonical form is lost when a bank is listed twice and its second store is ended by VAON_POWER_OFF. -/
theorem not_saddlebagKeepsItsForm : ¬ Obligations.SaddlebagKeepsItsForm := by
  unfold Obligations.SaddlebagKeepsItsForm
  intro h
  obtain ⟨-, hshadow, -⟩ := h twiceListed _ sbForm_twiceListed rfl
  have hlist : Memory.wf [(0, blankByte)] := shadowLeft_twiceListed ▸ hshadow
  exact absurd hlist (by decide)

end Sys2Proof.Machine
end

section
/-! PROOF. Requests that are answered at once and leave no trace: DOE, the MCTP control commands, and the host's requests without a
context. -/
namespace Sys2Proof.Machine

set_option Elab.async false

/-! ### DOE (R43, R58) -/

/-- Discovery's answers, index by index. -/
theorem doeDiscover_eq (ix : Nat) : doeDiscover ix =
    match ix with
    | 0 => [0x01, 0x00, 0, 1]
    | 1 => [0x01, 0x00, 1, 2]
    | 2 => [0x01, 0x00, 2, 3]
    | 3 => [0x98, 0x1E, 2, 0]
    | _ => [0xFF, 0xFF, 0, 0] := by
  match ix with
  | 0 | 1 | 2 | 3 => decide
  | n + 4 => rfl

/-- A table read sends one answer: the entry with the next entry's handle, or none. -/
theorem tableAccess_eq (e : Nat) (s : State) : tableAccess e s = emit (.doe 3
    (if h : e < (cdatHeader s :: cdatEntries s).length then
      [0, 0] ++ leBytes 2 (if e + 1 < (cdatHeader s :: cdatEntries s).length then e + 1 else 0xFFFF)
        ++ (cdatHeader s :: cdatEntries s)[e]
     else [0, 0] ++ leBytes 2 0xFFFF)) s := by
  simp only [tableAccess]
  by_cases h : e < (cdatHeader s :: cdatEntries s).length
  · rw [dif_pos h, List.getElem?_eq_getElem h]
  · rw [dif_neg h, List.getElem?_eq_none (Nat.le_of_not_lt h)]

/-- Settles O12: each request sends its one answer. -/
theorem doeAnswersAndChangesNothing : Obligations.DoeAnswersAndChangesNothing := by
  unfold Obligations.DoeAnswersAndChangesNothing
  intro s hg hup
  refine ⟨fun ix => run_of_effect_eq hg ?_, fun e => run_of_effect_eq hg ?_⟩
  · rw [doeDiscover_eq, hup]
    rfl
  · rw [hup]
    exact tableAccess_eq e.toNat (stampNow s)

/-! ### MCTP control and the SMBus (R345, R380) -/

/-- Settles O15: each command sends its one answer. -/
theorem sidebandControlCommandsAnswer : Obligations.SidebandControlCommandsAnswer := by
  unfold Obligations.SidebandControlCommandsAnswer
  intro s hg haon
  refine ⟨fun hready => ?_, run_of_effect_eq hg ?_⟩
  · have hup : mctpUp s = true := by simp [mctpUp, haon, hready]
    refine ⟨fun eid => run_of_effect_eq hg ?_, run_of_effect_eq hg ?_, run_of_effect_eq hg ?_, run_of_effect_eq hg ?_,
      run_of_effect_eq hg ?_⟩
    · simp only [setEid, mctpUp_stampNow, hup, if_true]
      rfl
    all_goals
      rw [hup]
      rfl
  · rw [haon]
    rfl

/-! ### Requests without a context (R89) -/

/-- Settles O16: an invalidation takes and gives its credit around its Cmp, a speculative read without one. -/
theorem requestsWithoutContextComplete : Obligations.RequestsWithoutContextComplete := by
  unfold Obligations.RequestsWithoutContextComplete
  intro s tag hpa hg
  refine ⟨fun hl => ⟨run_of_effect_eq hg ?_, run_of_effect_eq hg ?_, run_of_effect_eq hg ?_⟩, fun hl => run_of_effect_eq hg ?_⟩
  · simp only [invalidate, memLink_stampNow, hl, if_true]
    rfl
  · simp only [invalidate, memLink_stampNow, hl, if_true]
    rfl
  · simp only [dropSpecRd, memLink_stampNow, hl, if_true]
    simp [stampNow, takeReq, giveReq, onHost, emit, Config.reqCredits]
  · simp [dropSpecRd, hl]

end Sys2Proof.Machine
end

section
/-! SUPPORT. Bytes: little-endian numbers, and the working copy read back after a write. -/
namespace Sys2Proof.Machine

set_option Elab.async false

@[simp] theorem leBytes_length (n v : Nat) : (leBytes n v).length = n := by
  induction n generalizing v with
  | zero => rfl
  | succ n ih => simp [leBytes, ih]

theorem ofLe_leBytes (n v : Nat) : ofLe (leBytes n v) = v % 256 ^ n := by
  induction n generalizing v with
  | zero => simp [leBytes, ofLe, Nat.mod_one]
  | succ n ih =>
    have hsplit : v % (256 * 256 ^ n) = v % 256 + 256 * (v / 256 % 256 ^ n) := Nat.mod_mul
    simp [leBytes, ofLe, ih, pow_succ, Nat.mul_comm (256 ^ n) 256, hsplit]

@[simp] theorem sbBytes_length (s : State) (a n : Nat) : (sbBytes s a n).length = n := by simp [sbBytes]

/-- The bytes of a state are those of its working copy. -/
theorem sbByte_of_work {s t : State} (h : t.sbg.work = s.sbg.work) (a : Nat) : sbByte t a = sbByte s a := by rw [sbByte, sbByte, h]

theorem sbBytes_of_work {s t : State} (h : t.sbg.work = s.sbg.work) (a n : Nat) : sbBytes t a n = sbBytes s a n := by
  simp [sbBytes, sbByte_of_work h]

theorem sbNat_of_work {s t : State} (h : t.sbg.work = s.sbg.work) (a n : Nat) : sbNat t a n = sbNat s a n := by
  rw [sbNat, sbNat, sbBytes_of_work h]

/-- A slice of bytes is a list, when it is that list byte by byte. -/
theorem map_range_eq {f : Nat → Byte} {bs : List Byte} (h : ∀ i, i < bs.length → f i = bs.getD i 0) :
    (List.range bs.length).map f = bs := by
  refine List.ext_getElem (by simp) fun i h1 h2 => ?_
  simp [h i h2, h2]

/-- What is stored is read back, part by part: the bytes `bs` that a write puts after `pre`. -/
theorem sbBytes_sbStore (a : Nat) (pre bs post : List Byte) (s : State) :
    sbBytes (sbStore a (pre ++ bs ++ post) s) (a + pre.length) bs.length = bs := by
  refine map_range_eq fun i hi => ?_
  rw [sbByte_sbStore]
  have h : a ≤ a + pre.length + i ∧ a + pre.length + i < a + (pre ++ bs ++ post).length := by simp; omega
  have e : a + pre.length + i - a = pre.length + i := by omega
  rw [if_pos h, e]
  simp [List.getElem?_append_right, List.getElem?_append_left, hi]

/-- A byte outside of what is stored stays. -/
theorem sbByte_sbStore_outside {a : Nat} {bs : List Byte} {k : Nat} (h : k < a ∨ a + bs.length ≤ k) (s : State) :
    sbByte (sbStore a bs s) k = sbByte s k := by
  rw [sbByte_sbStore, if_neg (by omega)]

end Sys2Proof.Machine
end

section
/-! PROOF. SPDM over DOE and MCTP (R56): the negotiation, the requests after it, certificates, sessions, and the keys of the IDE streams. -/
namespace Sys2Proof.Machine

set_option Elab.async false

section
variable {s : State} {via : SpdmTransport}


/-! ### Requests -/

theorem spdmNegotiate_of_stage (hup : spdmUp s via = true) {need : Nat} (h : need ≤ spdmStage s via) (req next : Nat) (out : List Byte)
    (m : SpdmMessage) : spdmNegotiate req need next out via m s = emit (.spdm via (req - 0x80) m.session out) (setStage via next s) := by
  simp [spdmNegotiate, hup, Nat.not_lt.mpr h]

theorem spdmNegotiate_of_ahead (hup : spdmUp s via = true) {need : Nat} (h : spdmStage s via < need) (req next : Nat) (out : List Byte)
    (m : SpdmMessage) : spdmNegotiate req need next out via m s = spdmError via m 4 s := by
  simp [spdmNegotiate, hup, h]

theorem spdmRequest_of_ok (hup : spdmUp s via = true) (h : 3 ≤ spdmStage s via) (req : Nat) {ok : Bool} (hok : ok = true)
    (m : SpdmMessage) (work : State → State) : spdmRequest req ok via m work s = spdmAnswer via req m (work s) := by
  simp [spdmRequest, hup, Nat.not_lt.mpr h, hok]

theorem spdmRequest_of_ahead (hup : spdmUp s via = true) (h : spdmStage s via < 3) (req : Nat) (ok : Bool)
    (m : SpdmMessage) (work : State → State) : spdmRequest req ok via m work s = spdmError via m 4 s := by
  simp [spdmRequest, hup, h]

/-- A measurement index is a request of its own; index 0 asks for their number, five. -/
theorem getMeasurements_of_index {m : SpdmMessage} (h : m.index ≠ 0) :
    getMeasurements via m = spdmRequest 0xE0 (measureIndex m.index) via m id := funext fun s => by
  rw [getMeasurements, if_neg h]

theorem getMeasurements_of_zero (hup : spdmUp s via = true) (h : 3 ≤ spdmStage s via) {m : SpdmMessage} (hix : m.index = 0) :
    getMeasurements via m s = emit (.spdm via 0x60 m.session [5]) s := by
  simp [getMeasurements, hix, hup, Nat.not_lt.mpr h]

/-! ### Certificates (log 57) -/

theorem getCertificate_of_slotZero {m : SpdmMessage} (h : m.slot = 0) : getCertificate via m = spdmRequest 0x82 true via m id :=
  funext fun s => by simp [getCertificate, ownerCert, h]

theorem getCertificate_of_owner (hup : spdmUp s via = true) (h : 3 ≤ spdmStage s via) {m : SpdmMessage} {c : List Byte}
    (hc : ownerCert s m.slot.val = some c) : getCertificate via m s = emit (.spdm via 0x02 m.session c) s := by
  simp [getCertificate, hc, hup, Nat.not_lt.mpr h]

theorem ownerCert_of_work {t : State} (h : t.sbg.work = s.sbg.work) (k : Nat) : ownerCert t k = ownerCert s k := by
  simp only [ownerCert, sbNat_of_work h, sbBytes_of_work h]

/-- A chain written to an owner slot is the chain read from it. -/
theorem ownerCert_sbStore {k : Nat} (hk : k ≠ 0) {data : List Byte} (hd : data.length ≤ certRoom) (s : State) :
    ownerCert (sbStore (certHome k) (leBytes 2 data.length ++ data) s) k = some data := by
  have hn : sbNat (sbStore (certHome k) (leBytes 2 data.length ++ data) s) (certHome k) 2 = data.length := by
    have h := sbBytes_sbStore (certHome k) [] (leBytes 2 data.length) data s
    simp only [List.nil_append, List.length_nil, Nat.add_zero, leBytes_length] at h
    rw [sbNat, h, ofLe_leBytes]
    refine Nat.mod_eq_of_lt (Nat.lt_of_le_of_lt hd (by decide))
  have hb := sbBytes_sbStore (certHome k) (leBytes 2 data.length) data [] s
  simp only [List.append_nil, leBytes_length] at hb
  simp [ownerCert, hn, hb, hk, Nat.not_lt.mpr hd]

/-- Writing a slot's chain changes no byte outside the slot's 36 pages. -/
theorem sbByte_setCert {k a : Nat} (hk : k ≠ 0) {data : List Byte} (hd : data.length ≤ certRoom)
    (ha : a / 256 < 3328 + 36 * (k - 1) ∨ 3328 + 36 * k ≤ a / 256) (s : State) :
    sbByte (sbStore (certHome k) (leBytes 2 data.length ++ data) s) a = sbByte s a := by
  refine sbByte_sbStore_outside ?_ s
  simp only [certRoom] at hd
  simp only [certHome, List.length_append, leBytes_length]
  omega

/-- What follows the store of a certificate: its answer, now or once the pages are stored. -/
def certFollow (c : CertWait) (s : State) : State :=
  if c.pages.isEmpty then certAnswer true c s
  else onHost (fun h => { h with spdm := { h.spdm with certWait := h.spdm.certWait ++ [c] } }) s

theorem certFollow_kept (c : CertWait) (s : State) : keptBut s (certFollow c s) [.host, .outbox, .freeIx] := by
  simp [certFollow]

theorem setCertificate_of_maintenance (hup : spdmUp s via = true) (h : 3 ≤ spdmStage s via) {m : SpdmMessage} (hslot : m.slot ≠ 0)
    (hm : s.mode = .maintenance) (hd : m.data.length ≤ certRoom) :
    ∃ c, setCertificate via m s = certFollow c (sbStore (certHome m.slot.val) (leBytes 2 m.data.length ++ m.data) s) := by
  have hbar : ¬ (s.mode != .maintenance || m.slot == 0 || decide (certRoom < m.data.length)) = true := by
    simp [hm, hslot, hd]
  unfold setCertificate
  rw [if_neg (by simp [hup]), if_neg (Nat.not_lt.mpr h), if_neg hbar]
  exact ⟨_, rfl⟩

theorem setCertificate_stores (hg : gtcOk s) (hup : spdmUp s via = true) (h : 3 ≤ spdmStage s via) {m : SpdmMessage} (hslot : m.slot ≠ 0)
    (hm : s.mode = .maintenance) (hd : m.data.length ≤ certRoom) :
    ∃ t, exec (.setCertificate via m) s = .next t ∧ ownerCert t m.slot.val = some m.data
      ∧ (∀ a, a / 256 < 3328 + 36 * (m.slot.val - 1) ∨ 3328 + 36 * m.slot.val ≤ a / 256 → sbByte t a = sbByte s a)
      ∧ keptBut s t [.host, .sbg, .outbox, .freeIx] := by
  have hk : m.slot.val ≠ 0 := fun e => hslot (Fin.ext e)
  obtain ⟨c, hc⟩ := setCertificate_of_maintenance (s := stampNow s) (by simpa using hup) (by simpa using h) hslot (by simpa using hm) hd
  obtain ⟨-, -, -, -, hwork⟩ := certFollow_kept c (sbStore (certHome m.slot.val) (leBytes 2 m.data.length ++ m.data) (stampNow s))
  have hwork : _ := congrArg Saddlebag.work (hwork .sbg (by simp))
  refine ⟨_, run_of_effect hc, ?_, fun a ha => ?_, keptBut_settle hg ?_⟩
  · exact (ownerCert_of_work hwork _).trans (ownerCert_sbStore hk hd _)
  · exact (sbByte_of_work hwork a).trans (sbByte_setCert hk hd ha _)
  · exact keptBut_trans (keptBut_mono (keptBut_stampNow s []) (by simp)) (by simp [certFollow])

/-! ### Answers -/

/-- A request answered with free contents, as a whole. -/
theorem run_spdmRequest (hg : gtcOk s) (hup : spdmUp s via = true) (h : 3 ≤ spdmStage s via) (req : Nat) {ok : Bool} (hok : ok = true)
    (m : SpdmMessage) : run (spdmRequest req ok via m id) s = .next
      { s with outbox := s.outbox ++ [.spdm via (req - 0x80) m.session (Config.spdmData s.freeIx)], freeIx := s.freeIx + 1 } := by
  refine run_of_effect_eq hg ?_
  rw [spdmRequest_of_ok (by simpa using hup) (by simpa using h) req hok]
  rfl

/-- A request that changes the sessions, answered with free contents. -/
theorem run_spdmSessions (hg : gtcOk s) (hup : spdmUp s via = true) (h : 3 ≤ spdmStage s via) (req : Nat) {ok : Bool} (hok : ok = true)
    (m : SpdmMessage) (f : List (BitVec 32 × Bool) → List (BitVec 32 × Bool)) :
    run (spdmRequest req ok via m (onSessions f)) s = .next
      { s with host := { s.host with spdm := { s.host.spdm with sessions := f s.host.spdm.sessions } }
               outbox := s.outbox ++ [.spdm via (req - 0x80) m.session (Config.spdmData s.freeIx)], freeIx := s.freeIx + 1 } := by
  refine run_of_effect_eq hg ?_
  rw [spdmRequest_of_ok (by simpa using hup) (by simpa using h) req hok]
  rfl

/-- A negotiation step, as a whole. -/
theorem run_spdmNegotiate (hg : gtcOk s) (hup : spdmUp s via = true) {need : Nat} (h : need ≤ spdmStage s via) (req next : Nat)
    (out : List Byte) (m : SpdmMessage) : run (spdmNegotiate req need next out via m) s = .next
      { s with host := { s.host with spdm := { s.host.spdm with stage := tabSet 0 (spdmNo via) next s.host.spdm.stage } }
               outbox := s.outbox ++ [.spdm via (req - 0x80) m.session out] } := by
  refine run_of_effect_eq hg ?_
  rw [spdmNegotiate_of_stage (by simpa using hup) (by simpa using h)]
  rfl

/-- An SPDM error, as a whole. -/
theorem run_spdmError {k : State → State} (hg : gtcOk s) (m : SpdmMessage) (code : Nat) (hk : k (stampNow s) = spdmError via m code (stampNow s)) :
    run k s = .next { s with outbox := s.outbox ++ [.spdm via 0x7F m.session [BitVec.ofNat 8 code]] } :=
  run_of_effect_eq hg hk

end

/-- Settles O13: a request at its stage is answered, and one ahead of it is refused. -/
theorem spdmNegotiatesInOrder : Obligations.SpdmNegotiatesInOrder := by
  unfold Obligations.SpdmNegotiatesInOrder
  intro s via m hg hup
  refine ⟨run_spdmNegotiate hg hup (Nat.zero_le _) 0x84 1 _ m, fun h => run_spdmNegotiate hg hup h 0xE1 2 _ m,
    fun h => run_spdmNegotiate hg hup h 0xE3 3 _ m, fun h => ⟨run_spdmRequest hg hup h 0x81 rfl m, run_spdmRequest hg hup h 0xED rfl m,
      fun hc => run_spdmRequest hg hup h 0x83 ?_ m, fun hix hle => ?_, fun hix => ?_, fun hslot => ?_, fun c hc => ?_,
      fun hslot hm hd _ => setCertificate_stores hg hup h hslot hm hd⟩, fun h => ?_, fun h => ?_, fun h => ?_⟩
  · rcases hc with hc | hc <;> simp [slotHasCert, hc]
  · show run (getMeasurements via m) s = _
    rw [getMeasurements_of_index hix]
    exact run_spdmRequest hg hup h 0xE0 (by rcases hle with hle | hle <;> simp [measureIndex, hle]) m
  · exact run_of_effect_eq hg (getMeasurements_of_zero (by simpa using hup) (by simpa using h) hix)
  · show run (getCertificate via m) s = _
    rw [getCertificate_of_slotZero hslot]
    exact run_spdmRequest hg hup h 0x82 rfl m
  · exact run_of_effect_eq hg (getCertificate_of_owner (by simpa using hup) (by simpa using h) (by simpa using hc))
  · exact run_spdmError hg m 4 (spdmRequest_of_ahead (by simpa using hup) (by simpa using h) _ _ m _)
  · exact run_spdmError hg m 4 (spdmNegotiate_of_ahead (by simpa using hup) (by simpa using h) _ _ _ m)
  · exact run_spdmError hg m 4 (spdmNegotiate_of_ahead (by simpa using hup) (by simpa using h) _ _ _ m)

/-! ### Sessions -/

section
variable {s : State} {via : SpdmTransport}

theorem sessionOpen_eq_false {n : BitVec 32} (h : ∀ x ∈ s.host.spdm.sessions, x.1 ≠ n) : sessionOpen s n = false := by
  simpa [sessionOpen] using h

theorem sessionLive_of_mem {n : BitVec 32} (h : ∃ x ∈ s.host.spdm.sessions, x.1 = n ∧ x.2 = true) : sessionLive s n = true := by
  simpa [sessionLive] using h

/-- A session opens where its number is free, its slot has a certificate and the table has room. -/
theorem keyExchange_of_room {m : SpdmMessage} (h : s.host.spdm.sessions.length < 4) :
    keyExchange via m s
      = spdmRequest 0xE4 (slotHasCert s m.slot.val && !sessionOpen s m.session) via m (onSessions (fun l => l ++ [(m.session, false)])) s := by
  simp [keyExchange, Nat.not_le.mpr h]

theorem keyExchange_of_full (hup : spdmUp s via = true) (h : 3 ≤ spdmStage s via) {m : SpdmMessage}
    (hfree : sessionOpen s m.session = false) (hfull : 4 ≤ s.host.spdm.sessions.length) :
    keyExchange via m s = spdmError via m 0x0A s := by
  simp [keyExchange, hup, h, hfree, hfull]

theorem linkUp_of_doeUp (h : doeUp s = true) : s.host.linkUp = true := by
  simp only [doeUp, ioLink, Bool.and_eq_true] at h
  exact h.1.2

/-- The CXL.mem stream's keys as the message says, shown, answered, and reported by vector 7: DOE answers over a link that is up. -/
theorem cxlIdeKm_of_live (h : doeUp s = true) {m : IdeKmMessage} (hl : sessionLive s m.session = true) :
    cxlIdeKm m s = (s |> onHost (fun h => { h with ide := { h.ide with memKeys := m.go, memSkid := m.go && m.skid
                                                                       insecure := h.ide.insecure && !m.go } })
      |> fbit F.HPT_LINK_STATUS_IDE_ACTIVE 0 m.go |> emit (.spdm .doe 0x7E m.session []) |> emit (.msix 7)) := by
  simp [cxlIdeKm, h, hl, msix, linkUp_of_doeUp h]

end

/-- Settles O14: each request of a session is a request at its stage with a change of the session table. -/
theorem spdmSessionsOpenAndClose : Obligations.SpdmSessionsOpenAndClose := by
  unfold Obligations.SpdmSessionsOpenAndClose
  intro s via m hg hup h
  refine ⟨fun hfree hcert => ⟨fun hroom => ?_, fun hfull => ?_⟩, fun hopen hnot => ?_, fun hlive => ?_, fun k hdoe hlive => ⟨?_, ?_⟩⟩
  · have hok : (slotHasCert s m.slot.val && !sessionOpen s m.session) = true := by
      rw [sessionOpen_eq_false hfree]
      rcases hcert with hc | hc <;> simp [slotHasCert, hc]
    refine run_of_effect_eq hg ?_
    rw [keyExchange_of_room (by simpa using hroom), spdmRequest_of_ok (by simpa using hup) (by simpa using h) _ (by simpa using hok)]
    rfl
  · exact run_spdmError hg m 0x0A
      (keyExchange_of_full (by simpa using hup) (by simpa using h) (by simpa using sessionOpen_eq_false hfree) hfull)
  · have hok : (sessionOpen s m.session && !sessionLive s m.session) = true := by
      have hl : sessionLive s m.session = false := by
        simp only [sessionLive, List.any_eq_false, Bool.and_eq_true, beq_iff_eq, not_and, Bool.not_eq_true]
        exact hnot
      simpa [sessionOpen, hl] using hopen
    exact run_spdmSessions hg hup h 0xE5 hok m _
  · have hl := sessionLive_of_mem hlive
    exact ⟨run_spdmRequest hg hup h 0xE9 hl m, run_spdmRequest hg hup h 0xE8 hl m, run_spdmSessions hg hup h 0xEC hl m _⟩
  · have hl := sessionLive_of_mem hlive
    have he := cxlIdeKm_of_live (s := stampNow s) (m := k) (by simpa using hdoe) (by simpa using hl)
    refine ⟨_, run_of_effect he, rfl, rfl, ?_, by simp [stampNow], ?_, keptBut_settle hg ?_, rfl⟩
    · exact (fget_fput_same F.HPT_LINK_STATUS_IDE_ACTIVE 0 _ _).trans (by cases k.go <;> rfl)
    · exact regsKept_fput F.HPT_LINK_STATUS_IDE_ACTIVE 0 _ s
    · exact keptBut_trans (keptBut_mono (keptBut_stampNow s []) (by simp)) (by simp)
  · refine run_of_effect_eq hg ?_
    simp only [ideKm, doeUp_stampNow, hdoe, sessionLive_stampNow, sessionLive_of_mem hlive, Bool.and_self, if_true]
    rfl

end Sys2Proof.Machine
end

section
/-! SUPPORT. Register fields through a chain of operations: what is read after it, and which fields it keeps. -/
namespace Sys2Proof.Machine

set_option Elab.async false

section
variable {s₀ s : State} {fs : List (Fld × Nat)}

/-! ### Reading a field -/

theorem fget_fset_same (f : Fld) (i : Nat) (s : State) (h : f.width ≠ 0) : fget (fset f i s) f i = 1 := by
  have : 1 < 2 ^ f.width := Nat.one_lt_two_pow h
  simp [fset, Nat.mod_eq_of_lt this]

theorem fget_fset_other (f g : Fld) (i j : Nat) (s : State) (h : g.key j ≠ f.key i) : fget (fset f i s) g j = fget s g j :=
  fget_fput_other f g i j 1 s h

theorem fget_fclr_other (f g : Fld) (i j : Nat) (s : State) (h : g.key j ≠ f.key i) : fget (fclr f i s) g j = fget s g j :=
  fget_fput_other f g i j 0 s h

theorem fget_fbit_other (f g : Fld) (i j : Nat) (b : Bool) (s : State) (h : g.key j ≠ f.key i) : fget (fbit f i b s) g j = fget s g j :=
  fget_fput_other f g i j b.toNat s h

theorem fget_finc_other (f g : Fld) (i j : Nat) (s : State) (h : g.key j ≠ f.key i) : fget (finc f i s) g j = fget s g j :=
  fget_fput_other f g i j _ s h

/-- A counter counts one, to its maximum. -/
theorem fget_finc_same (f : Fld) (i : Nat) (s : State) : fget (finc f i s) f i = min (fget s f i + 1) (fmax f) := by
  have hlt : min (fmax f) (fget s f i + 1) < 2 ^ f.width :=
    Nat.lt_of_le_of_lt (Nat.min_le_left _ _) (Nat.sub_lt (Nat.two_pow_pos _) Nat.one_pos)
  simp [finc, fadd, Nat.mod_eq_of_lt (Nat.min_comm _ _ ▸ hlt)]

@[simp] theorem fget_msix (v : Nat) (s : State) (g : Fld) (i : Nat) : fget (msix v s) g i = fget s g i := by simp [fget]
@[simp] theorem fget_land (type cls source flags : Nat) (fixed : Option (List Nat)) (s : State) (g : Fld) (i : Nat) :
    fget (land type cls source flags fixed s) g i = fget s g i := by simp [fget]
@[simp] theorem fget_postModule (log sub cls source : Nat) (s : State) (g : Fld) (i : Nat) :
    fget (postModule log sub cls source s) g i = fget s g i := by simp [fget]

/-! ### Which fields are kept -/

/-- What leaves the register table alone keeps what is kept. -/
theorem regsKept_iff_of_regs {t : State} (h : t.regs = s.regs) : regsKept s₀ t fs ↔ regsKept s₀ s fs := by
  simp [regsKept, fget, h]

@[simp] theorem regsKept_self : regsKept s s fs ↔ True := iff_true_intro (regsKept_refl s fs)

@[simp] theorem regsKept_fput_iff (f : Fld) (i v : Nat) (h : (f, i) ∈ fs) : regsKept s₀ (fput f i v s) fs ↔ regsKept s₀ s fs := by
  refine forall_congr' fun g => forall_congr' fun j => forall_congr' fun hg => ?_
  rw [fget_fput_other f g i j v s (hg (f, i) h)]

@[simp] theorem regsKept_fset_iff (f : Fld) (i : Nat) (h : (f, i) ∈ fs) : regsKept s₀ (fset f i s) fs ↔ regsKept s₀ s fs :=
  regsKept_fput_iff f i 1 h
@[simp] theorem regsKept_fclr_iff (f : Fld) (i : Nat) (h : (f, i) ∈ fs) : regsKept s₀ (fclr f i s) fs ↔ regsKept s₀ s fs :=
  regsKept_fput_iff f i 0 h
@[simp] theorem regsKept_fbit_iff (f : Fld) (i : Nat) (b : Bool) (h : (f, i) ∈ fs) : regsKept s₀ (fbit f i b s) fs ↔ regsKept s₀ s fs :=
  regsKept_fput_iff f i b.toNat h
@[simp] theorem regsKept_finc_iff (f : Fld) (i : Nat) (h : (f, i) ∈ fs) : regsKept s₀ (finc f i s) fs ↔ regsKept s₀ s fs :=
  regsKept_fput_iff f i _ h
@[simp] theorem regsKept_fadd_iff (f : Fld) (i n : Nat) (h : (f, i) ∈ fs) : regsKept s₀ (fadd f i n s) fs ↔ regsKept s₀ s fs :=
  regsKept_fput_iff f i _ h
@[simp] theorem regsKept_fhigh_iff (f : Fld) (i v : Nat) (h : (f, i) ∈ fs) : regsKept s₀ (fhigh f i v s) fs ↔ regsKept s₀ s fs :=
  regsKept_fput_iff f i _ h

@[simp] theorem regsKept_ite {c : Prop} [Decidable c] (a b : State) :
    regsKept s₀ (if c then a else b) fs ↔ if c then regsKept s₀ a fs else regsKept s₀ b fs := by
  split <;> rfl

@[simp] theorem regsKept_when_iff (b : Bool) (f : State → State) :
    regsKept s₀ (when b f s) fs ↔ if b then regsKept s₀ (f s) fs else regsKept s₀ s fs := by
  cases b <;> rfl

@[simp] theorem regsKept_onHost (f : HostPort → HostPort) : regsKept s₀ (onHost f s) fs ↔ regsKept s₀ s fs := regsKept_iff_of_regs rfl
@[simp] theorem regsKept_onCache (f : Cache → Cache) : regsKept s₀ (onCache f s) fs ↔ regsKept s₀ s fs := regsKept_iff_of_regs rfl
@[simp] theorem regsKept_onSched (f : Sched → Sched) : regsKept s₀ (onSched f s) fs ↔ regsKept s₀ s fs := regsKept_iff_of_regs rfl
@[simp] theorem regsKept_onLed (f : Ledger → Ledger) : regsKept s₀ (onLed f s) fs ↔ regsKept s₀ s fs := regsKept_iff_of_regs rfl
@[simp] theorem regsKept_onFw (f : Freewheel → Freewheel) : regsKept s₀ (onFw f s) fs ↔ regsKept s₀ s fs := regsKept_iff_of_regs rfl
@[simp] theorem regsKept_onMed (f : Media → Media) : regsKept s₀ (onMed f s) fs ↔ regsKept s₀ s fs := regsKept_iff_of_regs rfl
@[simp] theorem regsKept_onLife (f : Life → Life) : regsKept s₀ (onLife f s) fs ↔ regsKept s₀ s fs := regsKept_iff_of_regs rfl
@[simp] theorem regsKept_onSeq (f : Sequencer → Sequencer) : regsKept s₀ (onSeq f s) fs ↔ regsKept s₀ s fs := regsKept_iff_of_regs rfl
@[simp] theorem regsKept_onMcv (f : Converters → Converters) : regsKept s₀ (onMcv f s) fs ↔ regsKept s₀ s fs := regsKept_iff_of_regs rfl
@[simp] theorem regsKept_onRcd (f : Recorder → Recorder) : regsKept s₀ (onRcd f s) fs ↔ regsKept s₀ s fs := regsKept_iff_of_regs rfl
@[simp] theorem regsKept_onSbg (f : Saddlebag → Saddlebag) : regsKept s₀ (onSbg f s) fs ↔ regsKept s₀ s fs := regsKept_iff_of_regs rfl
@[simp] theorem regsKept_onPel (f : Peloton → Peloton) : regsKept s₀ (onPel f s) fs ↔ regsKept s₀ s fs := regsKept_iff_of_regs rfl
@[simp] theorem regsKept_onTnd (f : Tandem → Tandem) : regsKept s₀ (onTnd f s) fs ↔ regsKept s₀ s fs := regsKept_iff_of_regs rfl
@[simp] theorem regsKept_onMbx (f : Mailbox → Mailbox) : regsKept s₀ (onMbx f s) fs ↔ regsKept s₀ s fs := regsKept_iff_of_regs rfl
@[simp] theorem regsKept_onPins (f : Pins → Pins) : regsKept s₀ (onPins f s) fs ↔ regsKept s₀ s fs := regsKept_iff_of_regs rfl
@[simp] theorem regsKept_emit (e : Emission) : regsKept s₀ (emit e s) fs ↔ regsKept s₀ s fs := regsKept_iff_of_regs rfl
@[simp] theorem regsKept_useFree : regsKept s₀ (useFree s) fs ↔ regsKept s₀ s fs := regsKept_iff_of_regs rfl
@[simp] theorem regsKept_advanceTo (t : Nat) : regsKept s₀ (advanceTo t s) fs ↔ regsKept s₀ s fs := regsKept_iff_of_regs rfl
@[simp] theorem regsKept_stampNow : regsKept s₀ (stampNow s) fs ↔ regsKept s₀ s fs := regsKept_iff_of_regs rfl
@[simp] theorem regsKept_land (type cls source flags : Nat) (fixed : Option (List Nat)) :
    regsKept s₀ (land type cls source flags fixed s) fs ↔ regsKept s₀ s fs := regsKept_iff_of_regs (land_regs ..)
@[simp] theorem regsKept_msix (v : Nat) : regsKept s₀ (msix v s) fs ↔ regsKept s₀ s fs := regsKept_iff_of_regs (msix_regs ..)
@[simp] theorem regsKept_postModule (log sub cls source : Nat) : regsKept s₀ (postModule log sub cls source s) fs ↔ regsKept s₀ s fs :=
  regsKept_iff_of_regs (postModule_regs ..)

/-- What is kept from a command's start is kept from the state before it, and to the state it settles to. -/
@[simp] theorem regsKept_from_stampNow : regsKept (stampNow s₀) s fs ↔ regsKept s₀ s fs := by simp [regsKept]
@[simp] theorem regsKept_settle : regsKept s₀ (settle s₀ s) fs ↔ regsKept s₀ s fs := by simp [regsKept]

end

end Sys2Proof.Machine
end

section
/-! SUPPORT. What the operations that report an event leave of each part. -/
namespace Sys2Proof.Machine

set_option Elab.async false

/-- A part that may not change is as it was. -/
theorem agree_of_kept {s t : State} {ps : List Part} (h : keptBut s t ps) (p : Part) (hp : p ∉ ps := by decide) : agree s t p :=
  h.2.2.2.2 p hp

/-! ### An interrupt -/

@[simp] theorem msix_outbox (v : Nat) (s : State) : (msix v s).outbox = s.outbox ++ if s.host.linkUp then [.msix v] else [] := by
  rw [msix]
  split <;> simp

@[simp] theorem msix_parts (v : Nat) (s : State) :
    (msix v s).gtc = s.gtc ∧ (msix v s).stamp = s.stamp ∧ (msix v s).mode = s.mode ∧ (msix v s).setAt = s.setAt ∧
    (msix v s).pins = s.pins ∧ (msix v s).host = s.host ∧ (msix v s).cache = s.cache ∧ (msix v s).sched = s.sched ∧
    (msix v s).led = s.led ∧ (msix v s).fw = s.fw ∧ (msix v s).med = s.med ∧ (msix v s).life = s.life ∧ (msix v s).seq = s.seq ∧
    (msix v s).mcv = s.mcv ∧ (msix v s).rcd = s.rcd ∧ (msix v s).sbg = s.sbg ∧ (msix v s).pel = s.pel ∧ (msix v s).tnd = s.tnd ∧
    (msix v s).mbx = s.mbx ∧ (msix v s).freeIx = s.freeIx ∧ (msix v s).config = s.config ∧ (msix v s).serial = s.serial ∧
    (msix v s).stepping = s.stepping ∧ (msix v s).pending = s.pending := by
  rw [msix]
  split <;> simp

/-! ### An event for the recorder -/

@[simp] theorem land_rcd (type cls source flags : Nat) (fixed : Option (List Nat)) (s : State) : (land type cls source flags fixed s).rcd =
    { s.rcd with landed := s.rcd.landed ++ [⟨s.stamp, source, type, cls, flags, fixed, none⟩] } := rfl

@[simp] theorem land_parts (t c i f : Nat) (x : Option (List Nat)) (s : State) :
    (land t c i f x s).gtc = s.gtc ∧ (land t c i f x s).stamp = s.stamp ∧ (land t c i f x s).mode = s.mode ∧
    (land t c i f x s).setAt = s.setAt ∧ (land t c i f x s).pins = s.pins ∧ (land t c i f x s).host = s.host ∧
    (land t c i f x s).cache = s.cache ∧ (land t c i f x s).sched = s.sched ∧ (land t c i f x s).led = s.led ∧
    (land t c i f x s).fw = s.fw ∧ (land t c i f x s).med = s.med ∧ (land t c i f x s).life = s.life ∧ (land t c i f x s).seq = s.seq ∧
    (land t c i f x s).mcv = s.mcv ∧ (land t c i f x s).sbg = s.sbg ∧ (land t c i f x s).pel = s.pel ∧ (land t c i f x s).tnd = s.tnd ∧
    (land t c i f x s).mbx = s.mbx ∧ (land t c i f x s).outbox = s.outbox ∧ (land t c i f x s).freeIx = s.freeIx ∧
    (land t c i f x s).config = s.config ∧ (land t c i f x s).serial = s.serial ∧ (land t c i f x s).stepping = s.stepping ∧
    (land t c i f x s).pending = s.pending := by
  simp [land]

/-! ### An event for the host -/

theorem postEvent_host (log kind sub dpa cls source : Nat) (s : State) :
    (postEvent log kind sub dpa cls source s).host = { s.host with logs := (postEvent log kind sub dpa cls source s).host.logs } := by
  simp only [postEvent]
  simp

/-- The recorder is told of the event, with its image as it is posted. -/
theorem postEvent_rcd (log kind sub dpa cls source : Nat) (s : State) : ∃ snap, (postEvent log kind sub dpa cls source s).rcd =
    { s.rcd with landed := s.rcd.landed ++ [⟨s.stamp, source, 0x0C, cls, 0, some snap, none⟩] } := by
  refine ⟨eventSnap log ⟨kind, sub, dpa, (tabGet logReset s.host.logs log).nextHandle, s.stamp⟩, ?_⟩
  simp only [postEvent]
  simp

@[simp] theorem postEvent_parts (l k u d c i : Nat) (s : State) :
    (postEvent l k u d c i s).gtc = s.gtc ∧ (postEvent l k u d c i s).stamp = s.stamp ∧ (postEvent l k u d c i s).mode = s.mode ∧
    (postEvent l k u d c i s).regs = s.regs ∧ (postEvent l k u d c i s).pins = s.pins ∧ (postEvent l k u d c i s).cache = s.cache ∧
    (postEvent l k u d c i s).sched = s.sched ∧ (postEvent l k u d c i s).led = s.led ∧ (postEvent l k u d c i s).fw = s.fw ∧
    (postEvent l k u d c i s).med = s.med ∧ (postEvent l k u d c i s).life = s.life ∧ (postEvent l k u d c i s).seq = s.seq ∧
    (postEvent l k u d c i s).mcv = s.mcv ∧ (postEvent l k u d c i s).sbg = s.sbg ∧ (postEvent l k u d c i s).pel = s.pel ∧
    (postEvent l k u d c i s).tnd = s.tnd ∧ (postEvent l k u d c i s).mbx = s.mbx ∧ (postEvent l k u d c i s).freeIx = s.freeIx ∧
    (postEvent l k u d c i s).config = s.config ∧ (postEvent l k u d c i s).serial = s.serial ∧
    (postEvent l k u d c i s).stepping = s.stepping ∧ (postEvent l k u d c i s).pending = s.pending := by
  simp only [postEvent]
  simp

end Sys2Proof.Machine
end

section
/-! PROOF. The port's link events: training and retraining (R52, R55), flit and IDE errors, viral, GPF (R56, R60). -/
namespace Sys2Proof.Machine

set_option Elab.async false

section
variable {s : State} {width rate : Nat}

/-! ### Training -/

@[simp] theorem fget_setActive (g : Fld) (i : Nat) : fget (setActive s) g i = fget s g i := by
  rw [setActive]
  split <;> rfl

theorem setActive_of_degraded (h : fon s F.HPT_LINK_STATUS_DEGRADED 0 = true) : setActive s = s := by simp [setActive, h]

theorem setActive_of_whole (h : fon s F.HPT_LINK_STATUS_DEGRADED 0 = false) :
    setActive s = { s with host := { s.host with memActive := true, activeOwed := false } } := by simp [setActive, h, onHost]

@[simp] theorem setActive_rcd : (setActive s).rcd = s.rcd := by
  rw [setActive]
  split <;> rfl

@[simp] theorem setActive_outbox : (setActive s).outbox = s.outbox := by
  rw [setActive]
  split <;> rfl

@[simp] theorem setActive_linkUp : (setActive s).host.linkUp = s.host.linkUp := by
  rw [setActive]
  split <;> rfl

/-- Nothing but Memory_Active, and whether it is owed, may change. -/
theorem setActive_host : (setActive s).host =
    { s.host with memActive := (setActive s).host.memActive, activeOwed := (setActive s).host.activeOwed } := by
  rw [setActive]
  split <;> rfl

/-- Width and rate of a link that trained or retrained. -/
def setLink (width rate : Nat) (s : State) : State := s |> fput F.HPT_LINK_STATUS_WIDTH 0 width |> fput F.HPT_LINK_STATUS_RATE 0 rate

/-- The link is up, with the port's Req credits at the host, at this width and rate. -/
def linkUpAt (width rate : Nat) (s : State) : State :=
  s |> onHost (fun h => { h with linkUp := true, reqOut := 1024 }) |> emit (.reqCredits 1024) |> setLink width rate

theorem linkTrained_of_supported (hc : coreOn s = true) (hp : s.pins.perst = false) (hl : s.host.linkUp = false)
    (hm : s.mode ≠ .freewheel) (h : linkSupported width rate = true) : linkTrained width rate s =
      (s |> linkUpAt width rate |> fset F.HPT_LINK_STATUS_MEM_ENABLED 0 |> when (s.mode == .service && s.host.activeOwed) setActive
        |> msix 7) := by
  simp [linkTrained, linkUpAt, setLink, hc, hp, hl, hm, h, Config.reqCredits]

theorem linkTrained_of_unsupported (hc : coreOn s = true) (hp : s.pins.perst = false) (hl : s.host.linkUp = false)
    (hm : s.mode ≠ .freewheel) (h : linkSupported width rate = false) : linkTrained width rate s =
      (s |> linkUpAt width rate |> linkDegraded |> msix 7) := by
  simp [linkTrained, linkUpAt, setLink, hc, hp, hl, hm, h, Config.reqCredits]

/-- A retrained link: one more retrain counted. -/
def relinkAt (width rate : Nat) (s : State) : State :=
  s |> setLink width rate |> finc F.HPT_LINK_STATUS_RETRAIN_COUNT 0 |> fset F.HPT_ERR_STATUS_RETRAIN 0

theorem linkRetrain_of_supported (hl : ioLink s = true) (hm : fon s F.HPT_LINK_STATUS_MEM_ENABLED 0 = true)
    (h : linkSupported width rate = true) : linkRetrain width rate s = (s |> relinkAt width rate |> msix 7) := by
  simp [linkRetrain, relinkAt, setLink, hl, hm, h]

theorem linkRetrain_of_unsupported (hl : ioLink s = true) (hm : fon s F.HPT_LINK_STATUS_MEM_ENABLED 0 = true)
    (h : linkSupported width rate = false) : linkRetrain width rate s =
      (s |> relinkAt width rate |> linkDegraded |> abortContexts |> msix 7) := by
  simp [linkRetrain, relinkAt, setLink, hl, hm, h]

@[simp] theorem fget_abortContexts (g : Fld) (i : Nat) : fget (abortContexts s) g i = fget s g i := rfl

@[simp] theorem abortContexts_parts : (abortContexts s).host = s.host ∧ (abortContexts s).rcd = s.rcd
    ∧ (abortContexts s).outbox = s.outbox := ⟨rfl, rfl, rfl⟩

@[simp] theorem regsKept_abortContexts {s₀ : State} {fs : List (Fld × Nat)} : regsKept s₀ (abortContexts s) fs ↔ regsKept s₀ s fs :=
  regsKept_iff_of_regs rfl

@[simp] theorem regsKept_setActive {s₀ : State} {fs : List (Fld × Nat)} : regsKept s₀ (setActive s) fs ↔ regsKept s₀ s fs := by
  simp [regsKept]

end

/-- Settles O9: the link's fields are written in turn, and a link below the minimum is degraded after it. -/
theorem linkTrainingSetsWidthRateAndMem : Obligations.LinkTrainingSetsWidthRateAndMem := by
  unfold Obligations.LinkTrainingSetsWidthRateAndMem
  intro s width rate hg hc hm hw good moved wide
  have hgood : linkSupported width rate = good := by
    have : ((rate : Nat) == 4 || (rate : Nat) == 5) = decide (4 ≤ (rate : Nat)) := by revert rate; decide
    simp [linkSupported, good, this]
  have hrate : (rate : Nat) % 2 ^ F.HPT_LINK_STATUS_RATE.width = rate := Nat.mod_eq_of_lt (show (rate : Nat) < 8 by omega)
  have hwidth : width % 2 ^ F.HPT_LINK_STATUS_WIDTH.width = width := Nat.mod_eq_of_lt hw
  have hlink : ioLink s = s.host.linkUp := by simp [ioLink, hc]
  have hmax : fmax F.HPT_LINK_STATUS_RETRAIN_COUNT = 0xFFFF := rfl
  cases hb : good with
  | true =>
    refine ⟨fun hp hl => ?_, fun hl hme => ?_⟩
    · have he : linkTrained width rate (stampNow s) = _ := linkTrained_of_supported hc hp hl hm (hgood.trans hb)
      refine ⟨_, run_of_effect he, ⟨?_, ?_, ?_, ?_, ?_⟩, ?_, ?_, ?_, ?_, ?_, ?_, ?_⟩
      · simp (disch := decide) [linkUpAt, setLink, fget_fset_other, fget_fput_other, hwidth]
      · simp (disch := decide) [linkUpAt, setLink, fget_fset_other, hrate]
      · simp [linkUpAt, setLink]
      · simp [hb]
      · simp [linkUpAt, setLink, moved]
      · cases ha : s.mode == .service && s.host.activeOwed with
        | true =>
          simp only [settle_host, msix_parts, when_host, stampNow_mode, stampNow_host, ha, if_true]
          rw [setActive_host]
          simp [linkUpAt, setLink]
        | false => simp [linkUpAt, setLink, ha]
      · simp (disch := decide) [fget_fset_same]
      · intro _ hsv ho hd
        have hw' : fon (linkUpAt width rate (stampNow s) |> fset F.HPT_LINK_STATUS_MEM_ENABLED 0) F.HPT_LINK_STATUS_DEGRADED 0 = false := by
          simp (disch := decide) [fon, linkUpAt, setLink, fget_fset_other, fget_fput_other] at hd ⊢
          exact hd
        simp [hsv, ho, setActive_of_whole hw']
      · intro h
        have ha : (s.mode == .service && s.host.activeOwed) = false := by
          rcases h with h | h | h
          · simp at h
          · simp [h]
          · simp [h]
        simp [linkUpAt, setLink, ha]
      · simp (disch := decide) [linkUpAt, setLink, fget_fset_other, fget_fput_other]
      · cases ha : s.mode == .service && s.host.activeOwed <;> simp [linkUpAt, setLink, ha]
      · exact keptBut_settle hg (keptBut_trans (keptBut_mono (keptBut_stampNow s []) (by simp)) (by simp [linkUpAt, setLink]))
    · have he : linkRetrain width rate (stampNow s) = _ := linkRetrain_of_supported (hlink.trans hl) hme (hgood.trans hb)
      refine ⟨_, run_of_effect he, ⟨?_, ?_, ?_, ?_, ?_⟩, ?_, ?_, ?_, ?_, ?_⟩
      · simp (disch := decide) [relinkAt, setLink, fget_fset_other, fget_finc_other, fget_fput_other, hwidth]
      · simp (disch := decide) [relinkAt, setLink, fget_fset_other, fget_finc_other, hrate]
      · simp [relinkAt, setLink]
      · simp [hb]
      · simp [relinkAt, setLink, moved]
      · simp (disch := decide) [relinkAt, setLink, fget_fset_other, fget_finc_same, fget_fput_other, hmax]
      · simp (disch := decide) [relinkAt, fget_fset_same]
      · simp (disch := decide) [relinkAt, setLink, fget_fset_other, fget_finc_other, fget_fput_other]
      · simp [relinkAt, setLink, hl]
      · exact keptBut_settle hg (keptBut_trans (keptBut_mono (keptBut_stampNow s []) (by simp)) (by simp [relinkAt, setLink]))
  | false =>
    refine ⟨fun hp hl => ?_, fun hl hme => ?_⟩
    · have he : linkTrained width rate (stampNow s) = _ := linkTrained_of_unsupported hc hp hl hm (hgood.trans hb)
      refine ⟨_, run_of_effect he, ⟨?_, ?_, ?_, ?_, ?_⟩, ?_, ?_, ?_, ?_, ?_, ?_, ?_⟩
      · simp (disch := decide) [linkUpAt, setLink, linkDegraded, fget_fset_other, fget_fclr_other, fget_fput_other, hwidth]
      · simp (disch := decide) [linkUpAt, setLink, linkDegraded, fget_fset_other, fget_fclr_other, hrate]
      · simp [hb]
      · simp (disch := decide) [linkUpAt, setLink, linkDegraded, fget_fset_other, fget_fset_same, fclr]
      · simp [linkUpAt, setLink, linkDegraded, moved]
      · simp [linkUpAt, setLink, linkDegraded]
      · simp
      · simp
      · simp [linkUpAt, setLink, linkDegraded]
      · simp (disch := decide) [linkUpAt, setLink, linkDegraded, fget_fset_other, fget_fclr_other, fget_fput_other]
      · simp [linkUpAt, setLink, linkDegraded]
      · exact keptBut_settle hg
          (keptBut_trans (keptBut_mono (keptBut_stampNow s []) (by simp)) (by simp [linkUpAt, setLink]))
    · have he : linkRetrain width rate (stampNow s) = _ := linkRetrain_of_unsupported (hlink.trans hl) hme (hgood.trans hb)
      refine ⟨_, run_of_effect he, ⟨?_, ?_, ?_, ?_, ?_⟩, ?_, ?_, ?_, ?_, ?_⟩
      · simp (disch := decide) [relinkAt, setLink, linkDegraded, fget_fset_other, fget_fclr_other, fget_finc_other,
          fget_fput_other, hwidth]
      · simp (disch := decide) [relinkAt, setLink, linkDegraded, fget_fset_other, fget_fclr_other, fget_finc_other, hrate]
      · simp [hb]
      · simp (disch := decide) [relinkAt, setLink, linkDegraded, fget_fset_other, fget_fset_same, fclr]
      · simp [relinkAt, setLink, linkDegraded, moved]
      · simp (disch := decide) [relinkAt, setLink, linkDegraded, fget_fset_other, fget_fclr_other, fget_finc_same,
          fget_fput_other, hmax]
      · simp (disch := decide) [relinkAt, linkDegraded, fget_fset_other, fget_fclr_other, fget_fset_same]
      · simp
      · simp [relinkAt, setLink, linkDegraded, hl]
      · exact keptBut_settle hg (keptBut_trans (keptBut_mono (keptBut_stampNow s []) (by simp)) (by simp [relinkAt, setLink]))
/-! ### Errors, viral and GPF -/

/-- Settles O10: each reports what it found, and that alone. -/
theorem linkErrorsViralAndGpf : Obligations.LinkErrorsViralAndGpf := by
  unfold Obligations.LinkErrorsViralAndGpf
  intro s hg hc hl
  have hlink : ioLink s = true := by simp [ioLink, hc, hl]
  refine ⟨fun retry => run_of_effect_eq hg ?_, fun hk => ?_, ?_, fun hq => ⟨run_of_effect_eq hg ?_, run_of_effect_eq hg ?_⟩⟩
  · simp only [flitThreshold, ioLink_stampNow, hlink, if_true]
    simp [rasReport, hl, msix, onHost, emit, stampNow]
  · have he : ideRxError (stampNow s) = (stampNow s
        |> onHost (fun h => { h with ide := { h.ide with memKeys := false, insecure := true } })
        |> fclr F.HPT_LINK_STATUS_IDE_ACTIVE 0 |> rasReport 4 2) := by simp [ideRxError, hlink, hk]
    refine ⟨_, run_of_effect he, ?_, ?_, ?_, ?_, ?_⟩
    · simp [rasReport, hl]
    · simp [rasReport, fclr]
    · simp [rasReport, hl]
    · simp [rasReport, hl]
    · exact keptBut_settle hg (keptBut_trans (keptBut_mono (keptBut_stampNow s []) (by simp)) (by simp))
  · have he : viralReceived (stampNow s) = (stampNow s |> fset F.HPT_LINK_STATUS_VIRAL_RX 0 |> fset F.HPT_ERR_STATUS_VIRAL_RX 0
        |> land 0x0B 5 srcHost 0 none |> postModule 1 0 5 srcHost |> msix 7) := by simp [viralReceived, hlink]
    obtain ⟨snap, hsnap⟩ := postEvent_rcd 1 1 0 0 5 srcHost (stampNow s |> fset F.HPT_LINK_STATUS_VIRAL_RX 0
      |> fset F.HPT_ERR_STATUS_VIRAL_RX 0 |> land 0x0B 5 srcHost 0 none)
    refine ⟨_, run_of_effect he, ?_, ?_, ?_, ?_, ?_, ?_⟩
    · simp (disch := decide) [fget_fset_other, fget_fset_same]
    · simp (disch := decide) [fget_fset_same]
    · simp [postModule]
      rw [postEvent_host]
      simp
    · simp [postModule, hsnap]
    · simp
    · exact keptBut_settle hg (keptBut_trans (keptBut_mono (keptBut_stampNow s []) (by simp)) (by simp))
  all_goals
    simp only [gpfPhase, ioLink_stampNow, hlink, stampNow_host, hq]
    rfl

end Sys2Proof.Machine
end

section
/-! PROOF. A response leaves by its deadline (R89 to R92, R112). -/
namespace Sys2Proof.Machine

set_option Elab.async false

/-- The fields in which a response of the context may be counted. -/
def responseFields (s : State) (c : Ctx) : List (Fld × Nat) :=
  [(F.HPT_POISON_TX_COUNT, 0), (F.HPT_CREDIT_RWD_OUT, 0), (F.WHLn_LAT_MAX_NS, ctxWheel s c), (F.WHLn_EXC_COUNT_COUNT, ctxWheel s c),
    (F.WHLn_ERR_EXCURSION, ctxWheel s c), (F.WHLn_EXC_LAST_LAT, ctxWheel s c), (F.WHLn_EXC_LAST_D, ctxWheel s c),
    (F.WHLn_EXC_LAST_C, ctxWheel s c), (F.WHLn_EXC_LAST_QWAIT, ctxWheel s c), (F.WHLn_EXC_LAST_REISSUE, ctxWheel s c)]

section
variable {s : State} {c : Ctx}

theorem regsKept_countLatency : regsKept s (countLatency c s) (responseFields s c) := by
  simp [countLatency, responseFields]

theorem transmit_sched : (transmit c s).sched = { s.sched with ctxs := s.sched.ctxs.filter (fun x => x.tag != c.tag) } := by
  unfold transmit
  split <;> simp [freeCtx, giveReq, countLatency]

@[simp] theorem transmit_gtc : (transmit c s).gtc = s.gtc := by
  unfold transmit
  split <;> simp [freeCtx, giveReq, countLatency]

theorem transmit_host : (transmit c s).host = { s.host with
    erased := (transmit c s).host.erased
    reqOut := if c.op == .load || c.op == .loadData then min 1024 (s.host.reqOut + 1) else s.host.reqOut } := by
  have hload : (c.op == .load || c.op == .loadData) = (decide (c.op = .load) || decide (c.op = .loadData)) := by cases c.op <;> rfl
  rw [hload]
  unfold transmit
  by_cases h : (decide (c.op = .load) || decide (c.op = .loadData)) = true
  · rw [if_pos h, if_pos h]
    simp [freeCtx, giveReq, countLatency, Config.reqCredits]
  · rw [if_neg h, if_neg h]
    cases hs : c.served <;> simp [freeCtx]

theorem regsKept_transmit : regsKept s (transmit c s) (responseFields s c) := by
  unfold transmit
  split
  · cases c.served <;> simp [freeCtx, giveReq, responseFields]
    exact regsKept_countLatency
  · simp [freeCtx, responseFields]

end

/-- Settles O20: the next response is transmitted, and any other request to transmit does nothing. -/
theorem responsesLeaveByDeadline : Obligations.ResponsesLeaveByDeadline := by
  unfold Obligations.ResponsesLeaveByDeadline
  intro s c t hg hm hl hn load
  refine ⟨?_, fun tag ht => run_of_effect_eq hg ?_⟩
  · have he : transmitStep c.tag t (stampNow s) = transmit c (advanceTo t (stampNow s)) := by simp [transmitStep, hn, hl]
    refine ⟨_, run_of_effect he, ?_, ?_, ?_, ?_, ?_, ?_⟩
    · simp [transmit_outbox, responseOut, load]
    · simp [transmit_sched]
    · exact keptBut_settle hg (keptBut_trans (keptBut_mono (keptBut_stampNow s []) (by simp)) (by simp))
    · have hlt : max s.gtc (t % 2 ^ 64) < 2 ^ 64 := max_lt hg (Nat.mod_lt _ (by decide))
      simp only [settle_gtc, transmit_gtc, advanceTo_gtc, stampNow_gtc]
      rw [if_neg (show (stampNow s).mode ≠ .off from hm), Nat.mod_eq_of_lt hlt]
    · simp only [settle_host]
      rw [transmit_host]
      simp [load]
    · simp only [regsKept_settle]
      exact regsKept_from_stampNow.1 (regsKept_trans (by simp) regsKept_transmit)
  · simp [transmitStep, hn, Ne.symm ht]

end Sys2Proof.Machine
end

section
/-! SUPPORT. The cache's locations: what a write of a way, an overflow slot or a directory entry leaves at it and elsewhere, and what
a sector's write does to its line (R63 to R68). -/
namespace Sys2Proof.Machine

set_option Elab.async false

section
variable {s t u : State} {loc : Nat}

/-- Only ways, overflow slots, directory entries and replacement states may differ. -/
def locsMoved (s t : State) : Prop :=
  t = onCache (fun c => { c with ways := t.cache.ways, ovf := t.cache.ovf, dir := t.cache.dir, plru := t.cache.plru }) s

theorem locsMoved_trans (h : locsMoved s t) (k : locsMoved t u) : locsMoved s u := by
  unfold locsMoved at h k ⊢
  rw [h] at k
  exact k

theorem locsMoved_setWay (w : Way) : locsMoved s (setWay loc w s) := rfl
theorem locsMoved_setOvf (o : OvfSlot) : locsMoved s (setOvf loc o s) := rfl
theorem locsMoved_setDir (d : DirEntry) : locsMoved s (setDir loc d s) := rfl

theorem locsMoved_setLoc (sv sp : BitVec 4) (data : Line) : locsMoved s (setLoc loc sv sp data s) := by
  unfold setLoc
  cases ho : locOvf loc <;> cases hd : locDirty s loc <;> rfl

theorem locsMoved_makeDirty : locsMoved s (makeDirty loc s) := by
  unfold makeDirty
  cases ho : locOvf loc <;> rfl

theorem locsMoved_useWay : locsMoved s (useWay loc s) := by
  unfold useWay
  cases ho : locOvf loc
  · rfl
  · rfl

/-! ### The other locations -/

/-- Every way, overflow slot and directory entry but those of the location is as it was. -/
def otherLocsKept (loc : Nat) (s t : State) : Prop :=
  (∀ n, n ≠ wayKey loc → tabGet wayReset t.cache.ways n = tabGet wayReset s.cache.ways n)
    ∧ (∀ n, n ≠ ovfKey loc → tabGet ovfReset t.cache.ovf n = tabGet ovfReset s.cache.ovf n)
    ∧ ∀ n, n ≠ loc → dirAt t n = dirAt s n

theorem otherLocsKept_trans (h : otherLocsKept loc s t) (k : otherLocsKept loc t u) : otherLocsKept loc s u := by
  obtain ⟨h1, h2, h3⟩ := h
  obtain ⟨k1, k2, k3⟩ := k
  exact ⟨fun n hn => (k1 n hn).trans (h1 n hn), fun n hn => (k2 n hn).trans (h2 n hn), fun n hn => (k3 n hn).trans (h3 n hn)⟩

theorem otherLocsKept_of_cache (h : t.cache.ways = s.cache.ways) (ho : t.cache.ovf = s.cache.ovf) (hd : t.cache.dir = s.cache.dir) :
    otherLocsKept loc s t := by
  simp [otherLocsKept, dirAt, h, ho, hd]

theorem otherLocsKept_setWay (w : Way) : otherLocsKept loc s (setWay loc w s) :=
  ⟨fun _ hn => tabGet_tabSet_ne wayReset w hn _, fun _ _ => rfl, fun _ _ => rfl⟩

theorem otherLocsKept_setOvf (o : OvfSlot) : otherLocsKept loc s (setOvf loc o s) :=
  ⟨fun _ _ => rfl, fun _ hn => tabGet_tabSet_ne ovfReset o hn _, fun _ _ => rfl⟩

theorem otherLocsKept_setDir (d : DirEntry) : otherLocsKept loc s (setDir loc d s) :=
  ⟨fun _ _ => rfl, fun _ _ => rfl, fun _ hn => tabGet_tabSet_ne dirReset d hn _⟩

/-! ### The location itself -/

@[simp] theorem wayAt_setWay (w : Way) : wayAt (setWay loc w s) loc = w := tabGet_tabSet_same ..
@[simp] theorem ovfAt_setOvf (o : OvfSlot) : ovfAt (setOvf loc o s) loc = o := tabGet_tabSet_same ..
@[simp] theorem dirAt_setDir (d : DirEntry) : dirAt (setDir loc d s) loc = d := tabGet_tabSet_same ..

@[simp] theorem wayAt_setOvf (o : OvfSlot) (n : Nat) : wayAt (setOvf loc o s) n = wayAt s n := rfl
@[simp] theorem wayAt_setDir (d : DirEntry) (n : Nat) : wayAt (setDir loc d s) n = wayAt s n := rfl
@[simp] theorem ovfAt_setWay (w : Way) (n : Nat) : ovfAt (setWay loc w s) n = ovfAt s n := rfl
@[simp] theorem ovfAt_setDir (d : DirEntry) (n : Nat) : ovfAt (setDir loc d s) n = ovfAt s n := rfl
@[simp] theorem dirAt_setWay (w : Way) (n : Nat) : dirAt (setWay loc w s) n = dirAt s n := rfl
@[simp] theorem dirAt_setOvf (o : OvfSlot) (n : Nat) : dirAt (setOvf loc o s) n = dirAt s n := rfl

/-- What a location holds depends on the ways and the overflow slots alone. -/
def locHolds (s : State) (loc : Nat) : BitVec 4 × BitVec 4 × Line := (locSv s loc, locSp s loc, locData s loc)

theorem locHolds_of_cache (h : wayAt t loc = wayAt s loc) (ho : ovfAt t loc = ovfAt s loc) : locHolds t loc = locHolds s loc := by
  simp [locHolds, locSv, locSp, locData, h, ho]

theorem locHolds_setLoc (sv sp : BitVec 4) (data : Line) : locHolds (setLoc loc sv sp data s) loc = (sv, sp, data) := by
  cases ho : locOvf loc <;> cases hd : locDirty s loc <;> simp [setLoc, locHolds, locSv, locSp, locData, ho, hd]

theorem otherLocsKept_setLoc (sv sp : BitVec 4) (data : Line) : otherLocsKept loc s (setLoc loc sv sp data s) := by
  unfold setLoc
  cases ho : locOvf loc <;> cases hd : locDirty s loc
  · exact otherLocsKept_setWay _
  · exact otherLocsKept_trans (otherLocsKept_setWay _) (otherLocsKept_setDir _)
  · exact otherLocsKept_setOvf _
  · exact otherLocsKept_trans (otherLocsKept_setOvf _) (otherLocsKept_setDir _)

/-- A line made dirty holds what it held. -/
theorem locHolds_makeDirty : locHolds (makeDirty loc s) loc = locHolds s loc := by
  unfold makeDirty
  cases ho : locOvf loc <;> simp [locHolds, locSv, locSp, locData, ho]

theorem locDirty_makeDirty : locDirty (makeDirty loc s) loc = true := by simp [makeDirty, locDirty]

theorem otherLocsKept_makeDirty : otherLocsKept loc s (makeDirty loc s) := by
  unfold makeDirty
  cases ho : locOvf loc
  · exact otherLocsKept_trans (otherLocsKept_setWay _) (otherLocsKept_setDir _)
  · exact otherLocsKept_setDir _

/-- Ways and overflow slots, their lines and directory entries are as they were: only the replacement state moves. -/
theorem useWay_eq (loc : Nat) (s : State) : useWay loc s = onCache (fun c => { c with plru := (useWay loc s).cache.plru }) s := by
  rw [useWay]
  split <;> simp [onCache]

theorem otherLocsKept_useWay (n : Nat) : otherLocsKept loc s (useWay n s) := by
  rw [useWay_eq]
  exact otherLocsKept_of_cache rfl rfl rfl

theorem locHolds_useWay (n : Nat) : locHolds (useWay n s) loc = locHolds s loc := by
  rw [useWay_eq]
  rfl

theorem locDirty_useWay (n : Nat) : locDirty (useWay n s) loc = locDirty s loc := by
  rw [useWay_eq]
  rfl

/-! ### A sector's write -/

theorem locsMoved_writeSector (sector : Nat) (data : Sector) (poison : Bool) : locsMoved s (writeSector loc sector data poison s) :=
  locsMoved_trans (locsMoved_setLoc _ _ _) (locsMoved_trans locsMoved_makeDirty locsMoved_useWay)

theorem locHolds_writeSector (sector : Nat) (data : Sector) (poison : Bool) : locHolds (writeSector loc sector data poison s) loc =
    (locSv s loc ||| bit4 sector, (if poison then locSp s loc ||| bit4 sector else locSp s loc &&& ~~~(bit4 sector)),
      lineSet (locData s loc) sector data) := by
  simp only [writeSector]
  rw [locHolds_useWay, locHolds_makeDirty, locHolds_setLoc]

theorem locDirty_writeSector (sector : Nat) (data : Sector) (poison : Bool) : locDirty (writeSector loc sector data poison s) loc = true := by
  simp only [writeSector]
  rw [locDirty_useWay, locDirty_makeDirty]

theorem otherLocsKept_writeSector (sector : Nat) (data : Sector) (poison : Bool) :
    otherLocsKept loc s (writeSector loc sector data poison s) :=
  otherLocsKept_trans (otherLocsKept_setLoc _ _ _) (otherLocsKept_trans otherLocsKept_makeDirty (otherLocsKept_useWay loc))

/-! ### Where a line is held -/

/-- The places of the media lines and the carve-out decide where the cache holds a line. -/
theorem placeOf_of_med (hc : t.config = s.config) (hm : t.med = s.med) : placeOf t = placeOf s := by
  cases s
  cases t
  subst hc hm
  rfl

theorem locate_of_cache (hc : t.config = s.config) (hm : t.med = s.med) (hk : t.cache = s.cache) (hs : scratchSteps t = scratchSteps s)
    (line : Nat) : locate t line = locate s line := by
  have hway : wayAt t = wayAt s := funext fun n => by simp [wayAt, hk]
  have hovf : ovfAt t = ovfAt s := funext fun n => by simp [ovfAt, hk]
  have hscr : locScratch t = locScratch s := funext fun n => by simp [locScratch, scratchWay, hc, hs]
  have hlive : wayLive t = wayLive s := funext fun n => by simp only [wayLive, hway, hscr]
  have hused : ∀ sl, ovfUsed t sl = ovfUsed s sl := fun sl => by simp [ovfUsed, hk]
  simp only [locate, findLine, setOf, wheelOf, wheelOfBank, placeOf_of_med hc hm, hm, hc, hlive, hway, hovf, hused]

theorem scratchBacked_of_steps (hc : t.config = s.config) (hs : scratchSteps t = scratchSteps s) (dpa : Nat) :
    scratchBacked t dpa = scratchBacked s dpa := by
  simp only [scratchBacked, inScratch, scratchLines, hs]
  cases s
  cases t
  subst hc
  rfl

theorem lineDead_of_med (hc : t.config = s.config) (hm : t.med = s.med) (line : Nat) : lineDead t line = lineDead s line := by
  cases s
  cases t
  subst hc hm
  rfl

/-! ### Sectors of a line -/

theorem lineGet_lineSet_same (l : Line) {i : Nat} (hi : i < 4) (v : Sector) : lineGet (lineSet l i v) i = v := by
  match i with
  | 0 | 1 | 2 | 3 => rfl

theorem lineGet_lineSet_other (l : Line) {i j : Nat} (hi : i < 4) (hj : j < 4) (h : j ≠ i) (v : Sector) :
    lineGet (lineSet l i v) j = lineGet l j := by
  match i, j with
  | 0, 0 | 1, 1 | 2, 2 | 3, 3 => exact absurd rfl h
  | 0, 1 | 0, 2 | 0, 3 | 1, 0 | 1, 2 | 1, 3 | 2, 0 | 2, 1 | 2, 3 | 3, 0 | 3, 1 | 3, 2 => rfl

theorem or_bit4 {x : BitVec 4} {i : Nat} (hi : i < 4) (h : x.getLsbD i = true) : x ||| bit4 i = x := by
  revert x
  match i with
  | 0 | 1 | 2 | 3 => decide

theorem and_not_bit4 {x : BitVec 4} {i : Nat} (hi : i < 4) (h : x.getLsbD i = false) : x &&& ~~~(bit4 i) = x := by
  revert x
  match i with
  | 0 | 1 | 2 | 3 => decide

theorem sectorOf_lt (dpa : Nat) : sectorOf dpa < 4 := Nat.mod_lt _ (by decide)

end

end Sys2Proof.Machine
end

section
/-! PROOF. A load that hits (R89, R90): the sector it finds is its answer. -/
namespace Sys2Proof.Machine

set_option Elab.async false

section
variable {s : State} {tag : BitVec 16} {hpa t dpa loc : Nat}

/-- How an HPA decodes depends on the decoders alone. -/
theorem hdmDecode_of_decoders {u : State} (h : u.host.decoders = s.host.decoders) (hpa : Nat) : hdmDecode u hpa = hdmDecode s hpa := by
  have hdec : decoder u = decoder s := funext fun n => by rw [decoder, decoder, h]
  have hin : inDecoder u hpa = inDecoder s hpa := funext fun n => by rw [inDecoder, inDecoder, hdec]
  have hbelow : ∀ n, dpaBelow u n = dpaBelow s n := fun n => by
    induction n with
    | zero => rfl
    | succ n ih => simp [dpaBelow, ih, hdec]
  have hde : decodeIn u hpa = decodeIn s hpa := funext fun n => by simp only [decodeIn, dpaBase, hbelow, hdec]
  rw [hdmDecode, hdmDecode, hin, hde]

theorem loadFlow_of_cached (op : CtxOp) (hs : hostServes s tag t) (hd : hdmDecode s hpa = some dpa) (hcap : dpa < Config.capacity s.config)
    (hscr : scratchBacked s dpa = false) (hkey : s.med.keyBad = false) (hloc : locate s (lineOf dpa) = some loc)
    (hsv : (locSv s loc).getLsbD (sectorOf dpa) = true) : loadFlow op tag hpa t .clean (stampNow s) =
      (loadReceived t s |> useWay loc |> addCtx { loadCtx op tag hpa dpa t with st := .hit }
        |> respond tag (lineGet (locData s loc) (sectorOf dpa)) ((locSp s loc).getLsbD (sectorOf dpa))) := by
  obtain ⟨-, hlink, hmode, hbrake, hviral, htag, hfull⟩ := hs
  have hdec : hdmDecode (loadReceived t s) hpa = hdmDecode s hpa := hdmDecode_of_decoders (by rfl) hpa
  have hd' : hdmDecode (loadReceived t s) hpa = some dpa := hdec.trans hd
  have hloc' : locate (loadReceived t s) (lineOf dpa) = some loc := hloc
  have hsv' : (locSv (loadReceived t s) loc).getLsbD (sectorOf dpa) = true := hsv
  have hscr' : scratchBacked (loadReceived t s) dpa = false := hscr
  have hun : unbacked (loadReceived t s) dpa = false := by simp [unbacked, hscr']; exact hcap
  have hkey' : (loadReceived t s).med.keyBad = false := hkey
  have hp : persistentLoad { loadCtx op tag hpa dpa t with st := .lookup } .clean (loadReceived t s) = 
      (loadReceived t s |> useWay loc |> addCtx { loadCtx op tag hpa dpa t with st := .hit }
        |> respond tag (lineGet (locData s loc) (sectorOf dpa)) ((locSp s loc).getLsbD (sectorOf dpa))) := by
    simp only [persistentLoad, loadCtx, newCtx, hloc', hsv', if_true, dataCheck]
    rfl
  have hserve : serviceLoad op tag hpa t .clean (loadReceived t s) = persistentLoad { loadCtx op tag hpa dpa t with st := .lookup } .clean (loadReceived t s) := by
    simp [serviceLoad, hd', hun, hscr', hkey', lookupCheck]
  rw [← hp, ← hserve]
  simp [loadFlow, refusesLoad, refusesIn, hlink, hmode, hbrake, hviral, htag, hfull, loadReceived]

/-- A context that is answered as it joins: no other has its tag. -/
theorem respond_addCtx_sched (c : Ctx) (data : Sector) (poison : Bool) (h : ctxOf s c.tag = none) :
    (respond c.tag data poison (addCtx c s)).sched =
      { s.sched with ctxs := s.sched.ctxs ++ [{ c with st := .respond, rdata := data, rpoison := poison }] } := by
  have hne : ∀ x ∈ s.sched.ctxs, x.tag ≠ c.tag := by simpa [ctxOf] using h
  have hmap : (s.sched.ctxs.map fun x => if x.tag = c.tag then { x with st := .respond, rdata := data, rpoison := poison } else x)
      = s.sched.ctxs := by
    conv => rhs; rw [← List.map_id s.sched.ctxs]
    exact List.map_congr_left fun x hx => if_neg (hne x hx)
  simp [respond, onCtx, hmap]

theorem aonOn_of_hostServes (h : hostServes s tag t) : s.mode ≠ .off := by
  obtain ⟨-, hlink, -⟩ := h
  simp only [memLink, coreOn, aonOn, Bool.and_eq_true] at hlink
  simpa using hlink.1.1.1.1.1

theorem gtc_of_received (hs : hostServes s tag t) (ht : t < 2 ^ 64) : (advanceTo t (stampNow s)).gtc % 2 ^ 64 = max s.gtc t := by
  have hlt : max s.gtc t < 2 ^ 64 := max_lt hs.1 ht
  rw [advanceTo_gtc, if_neg (show (stampNow s).mode ≠ .off from aonOn_of_hostServes hs), Nat.mod_eq_of_lt ht]
  exact Nat.mod_eq_of_lt hlt

end

/-- Settles O17: a load that hits is received, notes its use of the way, and is answered. -/
theorem cachedLoadReturnsTheSector : Obligations.CachedLoadReturnsTheSector := by
  unfold Obligations.CachedLoadReturnsTheSector
  intro s tag hpa t dpa loc hs ht hd hcap hscr hkey hloc hsv done
  suffices h : ∀ op, ∃ u, run (loadFlow op tag hpa t .clean) s = .next u ∧ done op u from ⟨h .load, h .loadData⟩
  intro op
  have he := loadFlow_of_cached op hs hd hcap hscr hkey hloc hsv
  rw [useWay_eq] at he
  refine ⟨_, run_of_effect he, ?_, ?_, ?_, ?_, ?_, ?_⟩
  · exact keptBut_settle hs.1 (keptBut_trans (keptBut_mono (keptBut_stampNow s []) (by simp)) (by simp [loadReceived]))
  · exact gtc_of_received hs ht
  · rfl
  · rfl
  · rw [settle_sched]
    exact respond_addCtx_sched (s := onCache _ (loadReceived t s)) _ _ _ hs.2.2.2.2.2.1
  · simp [loadReceived, takeReq, respond, onCtx, addCtx]

end Sys2Proof.Machine
end

section
/-! PROOF. A store that hits (R74, R89, R91): the sector it writes is held dirty, and no other location of the cache changes. -/
namespace Sys2Proof.Machine

set_option Elab.async false

section
variable {s : State} {tag : BitVec 16} {hpa t dpa loc : Nat}

/-! ### A line that the cache holds, on no dead slot -/

theorem holdRestored_of_not {line : Nat} (h : nsHas line s.med.restored = false) : holdRestored line s = s := by simp [holdRestored, h]

/-- A sector of a held line is written; when the line is then whole it leaves the poison list. -/
theorem storeLine_of_located {line sector : Nat} {data : Sector} (poison : Bool) (hloc : locate s line = some loc)
    (hdead : lineDead s line = false) (hres : nsHas line s.med.restored = false) : storeLine line sector data poison s =
      (let s1 := writeSector loc sector data poison s
       (unlistPoison line (locSv s1 loc) (locSp s1 loc) s1, some loc)) := by
  have hres' : nsHas line (writeSector loc sector data poison s).med.restored = false := by
    rw [locsMoved_writeSector]
    exact hres
  simp [storeLine, hloc, hdead, holdRestored_of_not hres']

/-- What the store's way to its answer leaves: a line written, whole lines off the poison list, its context answered. -/
def heldStore (tag : BitVec 16) (line sector loc : Nat) (data : Sector) (s : State) : State :=
  let s1 := writeSector loc sector data false s
  s1 |> unlistPoison line (locSv s1 loc) (locSp s1 loc) |> onCtx tag (fun c => { c with st := .respond })

/-- Without a tandem, and with the condition full and the cache normal, a written store only waits to be answered. -/
theorem storeWritten_of_free {c : Ctx} (data : Sector) (hc : ctxOf s tag = some c) (htnd : tndEn s = false) (hup : tndUp s = false) :
    storeWritten tag data false s = onCtx tag (fun c => { c with st := .respond }) s := by
  have hm : ∀ line, lineMirrored s line = false := fun line => by simp [lineMirrored, htnd]
  simp [storeWritten, hc, mustMirror, hm, unmirrored, handBack, hup]

theorem unlistPoison_eq (line : Nat) (sv sp : BitVec 4) (s : State) : unlistPoison line sv sp s =
    onHost (fun h => { h with poisonList := (unlistPoison line sv sp s).host.poisonList }) s := by
  rw [unlistPoison]
  split <;> rfl

theorem writeStore_of_located {c : Ctx} {data : Sector} (hloc : locate s (lineOf c.dpa) = some loc) (hdead : lineDead s (lineOf c.dpa) = false)
    (hres : nsHas (lineOf c.dpa) s.med.restored = false) (hack : programAck s = false) (htnd : tndEn s = false) (hup : tndUp s = false)
    (hctx : (ctxOf s c.tag).isSome = true) :
    writeStore c data false false s = heldStore c.tag (lineOf c.dpa) (sectorOf c.dpa) loc data s := by
  obtain ⟨x, hx⟩ := Option.isSome_iff_exists.1 hctx
  simp only [writeStore, storeLine_of_located false hloc hdead hres, when_false, heldStore]
  generalize hs1 : unlistPoison _ _ _ _ = s1
  rw [unlistPoison_eq, locsMoved_writeSector] at hs1
  have hack1 : programAck s1 = false := by rw [← hs1]; exact hack
  rw [hack1, Bool.false_and, Bool.false_and]
  exact storeWritten_of_free data (by rw [← hs1]; exact hx) (by rw [← hs1]; exact htnd) (by rw [← hs1]; exact hup)

/-! ### The way of a store -/

/-- The context of a store that is served. -/
def storeCtx (op : CtxOp) (tag : BitVec 16) (hpa dpa t : Nat) (data : Sector) (be : BitVec 64) : Ctx :=
  { newCtx op tag hpa 0 t 90 with data := data, be := be, poisonIn := false, served := true, dpa := dpa, st := .write }

/-- What the sector holds after the store. -/
def storedSector (op : CtxOp) (be : BitVec 64) (old data : Sector) : Sector := if op = .store then data else mergeBytes be old data

/-- What a cached store needs of its line: held, whole, writable, with the condition full, the cache normal and no tandem. -/
def storeHits (s : State) (dpa loc : Nat) : Prop :=
  programAck s = false ∧ tndEn s = false ∧ tndUp s = false ∧ dpa < Config.capacity s.config ∧ scratchBacked s dpa = false
    ∧ locate s (lineOf dpa) = some loc ∧ (locSv s loc).getLsbD (sectorOf dpa) = true ∧ (locSp s loc).getLsbD (sectorOf dpa) = false
    ∧ lineDead s (lineOf dpa) = false ∧ nsHas (lineOf dpa) s.med.restored = false

/-- The store's own bookkeeping, its receipt and its context, does not concern the line. -/
theorem storeHits_of {v : State} (h : storeHits s dpa loc) (hc : v.config = s.config) (hm : v.med = s.med) (hk : v.cache = s.cache)
    (hl : v.led = s.led) (hg : s.gtc ≤ v.gtc) (hr : regsKept s v [(F.HPT_CREDIT_RWD_OUT, 0), (F.WHL_CTX_HWM, 0)]) :
    storeHits v dpa loc := by
  obtain ⟨hack, htnd, hup, hcap, hscr, hloc, hsv, hsp, hdead, hres⟩ := h
  have hsteps : scratchSteps v = scratchSteps s := hr F.CCH_MODE_SCRATCH_STEPS 0 (by decide)
  have hstate : fget v F.CCH_MODE_STATE 0 = fget s F.CCH_MODE_STATE 0 := hr _ 0 (by decide)
  have hdeficit : fget v F.LDG_STATUS_DEFICIT 0 = fget s F.LDG_STATUS_DEFICIT 0 := hr _ 0 (by decide)
  have hen : fget v F.TND_CFG_EN 0 = fget s F.TND_CFG_EN 0 := hr _ 0 (by decide)
  have hlink : fget v F.TND_STATUS_LINK 0 = fget s F.TND_STATUS_LINK 0 := hr _ 0 (by decide)
  have htick : tickOf s ≤ tickOf v := Nat.div_le_div_right hg
  refine ⟨?_, ?_, ?_, ?_, ?_, ?_, ?_, ?_, ?_, ?_⟩
  · simp only [programAck, cacheFlushing, cacheBypass, fon, Bool.or_eq_false_iff, decide_eq_false_iff_not] at hack ⊢
    obtain ⟨⟨⟨h1, h2⟩, h3, h4⟩, h5, h6⟩ := hack
    rw [hdeficit, hl, hstate, hk]
    exact ⟨⟨⟨h1, h2⟩, h3, by omega⟩, h5, by omega⟩
  · simpa only [tndEn, fon, hen] using htnd
  · simpa only [tndUp, hlink] using hup
  · rw [hc]
    exact hcap
  · rw [scratchBacked_of_steps hc hsteps]
    exact hscr
  · rw [locate_of_cache hc hm hk hsteps]
    exact hloc
  · simpa only [locSv, wayAt, ovfAt, hk] using hsv
  · simpa only [locSp, wayAt, ovfAt, hk] using hsp
  · rw [lineDead_of_med hc hm]
    exact hdead
  · rw [hm]
    exact hres

theorem storeHits_addCtx (h : storeHits s dpa loc) (c : Ctx) : storeHits (addCtx c s) dpa loc :=
  storeHits_of h rfl rfl rfl rfl (le_refl _) (by simp [addCtx])

theorem partialBase_of_hit (h : storeHits s dpa loc) :
    partialBase s (lineOf dpa) (sectorOf dpa) = some (lineGet (locData s loc) (sectorOf dpa), false) := by
  obtain ⟨-, -, -, -, -, hloc, hsv, hsp, -⟩ := h
  simp only [partialBase, hloc, hsv, hsp, if_true]

theorem writeStore_of_hit {c : Ctx} {data : Sector} (h : storeHits s c.dpa loc) :
    writeStore c data false false (addCtx c s) = heldStore c.tag (lineOf c.dpa) (sectorOf c.dpa) loc data (addCtx c s) := by
  obtain ⟨hack, htnd, hup, -, -, hloc, -, -, hdead, hres⟩ := storeHits_addCtx h c
  exact writeStore_of_located hloc hdead hres hack htnd hup (by simp [ctxOf])

theorem persistentStore_of_hit {op : CtxOp} {data : Sector} {be : BitVec 64} (h : storeHits s dpa loc) :
    persistentStore (storeCtx op tag hpa dpa t data be) .clean s =
      heldStore tag (lineOf dpa) (sectorOf dpa) loc (storedSector op be (lineGet (locData s loc) (sectorOf dpa)) data)
        (addCtx (storeCtx op tag hpa dpa t data be) s) := by
  have hw : ∀ d, writeStore (storeCtx op tag hpa dpa t data be) d false false (addCtx (storeCtx op tag hpa dpa t data be) s) =
      heldStore tag (lineOf dpa) (sectorOf dpa) loc d (addCtx (storeCtx op tag hpa dpa t data be) s) := fun d =>
    writeStore_of_hit (c := storeCtx op tag hpa dpa t data be) h
  have hb := partialBase_of_hit h
  obtain ⟨-, -, -, -, -, hloc, hsv, -⟩ := h
  by_cases hop : op = .store
  · rw [storedSector, if_pos hop, ← hw]
    simp [persistentStore, storeCtx, newCtx, hop]
  · rw [storedSector, if_neg hop, ← hw]
    simp [persistentStore, storeCtx, newCtx, hop, hloc, hsv, hb, dataCheck]

theorem storeFlow_of_hit {op : CtxOp} {data : Sector} {be : BitVec 64} (hs : hostServes s tag t) (hd : hdmDecode s hpa = some dpa)
    (hv : fon s F.HPT_LINK_STATUS_VIRAL_RX 0 = false) (hcr : 0 < fget s F.HPT_CREDIT_RWD_OUT 0) (h : storeHits (storeReceived t false s) dpa loc) :
    storeFlow op tag hpa t data be false .clean (stampNow s) =
      persistentStore (storeCtx op tag hpa dpa t data be) .clean (storeReceived t false s) := by
  obtain ⟨-, hlink, hmode, -, hviral, htag, hfull⟩ := hs
  obtain ⟨-, htnd, -, hcap, hscr, -⟩ := h
  have hdec : hdmDecode (storeReceived t false s) hpa = hdmDecode s hpa := hdmDecode_of_decoders (by rfl) hpa
  have hd' : hdmDecode (storeReceived t false s) hpa = some dpa := hdec.trans hd
  have hun : unbacked (storeReceived t false s) dpa = false := by simp [unbacked, hscr, hcap]
  have hbar : storeBarred (storeReceived t false s) (lineOf dpa) = false := by simp [storeBarred, lineInStore, lineMirrored, htnd]
  have hserve : serviceStore { newCtx op tag hpa 0 t 90 with data := data, be := be, poisonIn := false, served := true } t .clean
      (storeReceived t false s) = persistentStore (storeCtx op tag hpa dpa t data be) .clean (storeReceived t false s) := by
    simp [serviceStore, newCtx, hd', hun, hscr, hbar, lookupCheck, storeCtx]
  rw [← hserve]
  simp [storeFlow, refusesStore, refusesIn, hlink, hmode, hviral, htag, hfull, hv, hcr.ne', storeReceived]

/-! ### What a held store leaves -/

theorem heldStore_eq (line sector : Nat) (data : Sector) : ∃ f : List PoisonRec → List PoisonRec,
    heldStore tag line sector loc data s = (writeSector loc sector data false s
      |> onHost (fun h => { h with poisonList := f h.poisonList }) |> onCtx tag (fun c => { c with st := .respond })) := by
  simp only [heldStore]
  rw [unlistPoison_eq]
  exact ⟨fun _ => _, rfl⟩

/-- The store's context answers. -/
theorem ctxOf_answered {c : Ctx} (h : ctxOf s c.tag = none) : ctxOf (onCtx c.tag (fun c => { c with st := .respond }) (addCtx c s)) c.tag
    = some { c with st := .respond } := by
  have hne : ∀ x ∈ s.sched.ctxs, x.tag ≠ c.tag := by simpa [ctxOf] using h
  have hmap : s.sched.ctxs.map (fun x => if x.tag = c.tag then { x with st := .respond } else x) = s.sched.ctxs := by
    conv => rhs; rw [← List.map_id s.sched.ctxs]
    exact List.map_congr_left fun x hx => if_neg (hne x hx)
  have hfind : s.sched.ctxs.find? (fun x => x.tag == c.tag) = none := h
  simp [ctxOf, onCtx, List.find?_append, -List.find?_map, hmap, hfind]

end

/-- Settles O19: a store that hits is received, its sector written, and its context answered. -/
theorem storeToCachedSectorIsHeldDirty : Obligations.StoreToCachedSectorIsHeldDirty := by
  unfold Obligations.StoreToCachedSectorIsHeldDirty
  intro s tag hpa t dpa loc data be hs ht hv hcr hcr10 hack htnd hup hd hcap hscr hloc hsv hsp hdead hres done
  have hhit : storeHits (storeReceived t false s) dpa loc := by
    refine storeHits_of ⟨hack, htnd, hup, hcap, hscr, hloc, hsv, hsp, hdead, hres⟩ rfl rfl rfl rfl ?_ (by simp [storeReceived])
    show s.gtc ≤ (advanceTo t (stampNow s)).gtc
    rw [advanceTo_gtc]
    split
    · exact le_refl _
    · exact le_max_left _ _
  suffices h : ∀ op be, ∃ u, run (storeFlow op tag hpa t data be false .clean) s = .next u ∧
      done op (storedSector op be (lineGet (locData s loc) (sectorOf dpa)) data) u from ⟨h .store _, h .storePtl be⟩
  intro op be
  have he := (storeFlow_of_hit (op := op) (data := data) (be := be) hs hd hv hcr hhit).trans (persistentStore_of_hit hhit)
  have hdata : locData (storeReceived t false s) loc = locData s loc := rfl
  rw [hdata] at he
  generalize storedSector op be (lineGet (locData s loc) (sectorOf dpa)) data = d at he ⊢
  obtain ⟨f, hf⟩ := heldStore_eq (s := addCtx (storeCtx op tag hpa dpa t data be) (storeReceived t false s)) (tag := tag) (loc := loc)
    (lineOf dpa) (sectorOf dpa) d
  rw [hf] at he
  have hsec := sectorOf_lt dpa
  generalize hu : writeSector _ _ _ _ _ = w at he
  have hholds : locHolds w loc = (locSv s loc, locSp s loc, lineSet (locData s loc) (sectorOf dpa) d) := by
    rw [← hu, locHolds_writeSector]
    exact Prod.ext (or_bit4 hsec hsv) (Prod.ext (and_not_bit4 hsec hsp) rfl)
  have hdirty : locDirty w loc = true := by rw [← hu]; exact locDirty_writeSector ..
  obtain ⟨hways, hovf, hdir⟩ : otherLocsKept loc (addCtx (storeCtx op tag hpa dpa t data be) (storeReceived t false s)) w := by
    rw [← hu]; exact otherLocsKept_writeSector ..
  have hmoved : locsMoved (addCtx (storeCtx op tag hpa dpa t data be) (storeReceived t false s)) w := by
    rw [← hu]
    exact locsMoved_writeSector ..
  simp only [locHolds, Prod.mk.injEq] at hholds
  obtain ⟨hsv', hsp', hdata'⟩ := hholds
  refine ⟨_, run_of_effect he, ?_, ?_, hsv', hsp', hdirty, ?_, ?_, hways, hovf, hdir, ?_, ?_, ?_, ?_⟩
  · show lineGet (locData w loc) _ = d
    rw [hdata', lineGet_lineSet_same _ hsec]
  · intro i hi hne
    show lineGet (locData w loc) _ = _
    rw [hdata', lineGet_lineSet_other _ hsec hi hne]
  · refine ⟨{ storeCtx op tag hpa dpa t data be with st := .respond }, ?_, rfl, rfl, rfl⟩
    rw [hmoved]
    exact ctxOf_answered (c := storeCtx op tag hpa dpa t data be) (s := storeReceived t false s) hs.2.2.2.2.2.1
  · rw [hmoved]
    simp (disch := decide) [onCtx, storeReceived, addCtx, fhigh, fget_fput_other]
    exact Nat.mod_eq_of_lt (lt_of_le_of_lt (Nat.sub_le _ 1) hcr10)
  · rw [hmoved]
    simp [onCtx, storeReceived, addCtx]
  · rw [hmoved]
    refine keptBut_settle hs.1 (keptBut_trans (keptBut_mono (keptBut_stampNow s []) (by simp)) ?_)
    simp [storeReceived]
  · rw [hmoved]
    rfl
  · rw [hmoved]
    rfl

end Sys2Proof.Machine
end

section
/-! PROOF. The steps of the capacitance measurement (R120, R121). -/
namespace Sys2Proof.Machine

set_option Elab.async false

section
variable {s : State}

/-! ### Commands that carry their own instant -/

/-- An effect at an instant of its own leads to the state it names, but for the stamp. -/
theorem run_of_effect_at {k : State → State} {u : State} (hu : u.gtc < 2 ^ 64) (h : k (stampNow s) = { u with stamp := (k (stampNow s)).stamp })
    (hf : (u.config, u.serial, u.stepping, u.pending, u.stamp) = (s.config, s.serial, s.stepping, s.pending, s.stamp) := by rfl) :
    run k s = .next u := by
  obtain ⟨h1, h2, h3, h4, h5⟩ : _ ∧ _ ∧ _ ∧ _ ∧ _ := by simpa using hf
  rw [run_of_effect h]
  simp only [settle, Nat.mod_eq_of_lt hu, ← h1, ← h2, ← h3, ← h4, ← h5]

theorem laterOf_lt (hg : gtcOk s) (t : Nat) : max s.gtc (t % 2 ^ 64) < 2 ^ 64 := max_lt hg (Nat.mod_lt _ (by decide))

theorem advanceTo_of_on (hm : s.mode ≠ .off) (t : Nat) : advanceTo t s = { s with gtc := max s.gtc (t % 2 ^ 64), stamp := t % 2 ^ 64 } := by
  simp [advanceTo, hm]

/-! ### The measurement -/

theorem capReject_eq (s : State) : capReject s = (s |> endCapTest |> finc F.LDG_CAP_REJECTS_COUNT 0 |> fset F.LDG_ERR_CAP_REJECT 0
    |> onLed (fun l => { l with test := { l.test with run := s.led.test.run + 1 } })
    |> when (decide (3 ≤ s.led.test.run + 1)) (fun s => s |> fset F.LDG_ERR_CAP_FAIL3 0 |> land 0x08 3 srcLedger 0 none)) := rfl

end

/-- Settles O42: each step moves the measurement on in its phase. -/
theorem capacitanceMeasurementSteps : Obligations.CapacitanceMeasurementSteps := by
  unfold Obligations.CapacitanceMeasurementSteps
  intro s hg hm
  have hadv : ∀ t, advanceTo t (stampNow s) = { s with gtc := max s.gtc (t % 2 ^ 64), stamp := t % 2 ^ 64 } :=
    advanceTo_of_on (s := stampNow s) hm
  refine ⟨fun hmode hready hen hidle => ?due, fun hphase => run_of_effect_at (laterOf_lt hg _) ?defer,
    fun hphase => run_of_effect_at (laterOf_lt hg _) ?discard, fun hphase hcmd => ?timeout⟩
  case due =>
    have he : capTestDue (stampNow s) = startCapTest false (stampNow s) := by
      rcases hmode with h | h <;> simp [capTestDue, hready, hen, h]
    rw [startCapTest, if_neg (by simp [capRunning, hidle])] at he
    refine ⟨_, run_of_effect he, rfl, rfl, rfl, ?_, rfl⟩
    exact keptBut_settle hg (keptBut_trans (keptBut_mono (keptBut_stampNow s []) (by simp)) (by simp))
  case defer =>
    simp only [capDeferEnd, stampNow_led, hphase, if_true, hadv]
    rfl
  case discard =>
    simp only [capDiscardEnd, stampNow_led, hphase, if_true, hadv]
    rfl
  case timeout =>
    have he : capTimeout (stampNow s) = capReject (advanceTo (s.led.test.startAt + 20000000) (stampNow s)) := by
      simp [capTimeout, hphase, capCommandEnd, hcmd]
    rw [capReject_eq, endCapTest] at he
    refine ⟨_, run_of_effect he, ?_, ?_, ?_, ?_, ?_, ?_, ?_, ?_, ?_, ?_⟩
    · have hgtc := Nat.mod_eq_of_lt (laterOf_lt hg (s.led.test.startAt + 20000000))
      simpa [hadv] using hgtc
    · simp
    · simp
    · simp
    · simp (disch := decide) [fget_fset_other, fget_finc_other, fclr]
    · simp (disch := decide) [fget_fset_other, fget_fset_same]
    · simp (disch := decide) [fget_fset_other, fget_finc_same, fget_fclr_other]
    · intro h
      simp (disch := decide) [h, fget_fset_same]
    · simp
    · exact keptBut_settle hg (keptBut_trans (keptBut_mono (keptBut_stampNow s []) (by simp)) (by simp))

end Sys2Proof.Machine
end

section
/-! PROOF. The cadence tick in OFF and in a quiet STANDBY (R18, R30, R118): what the tick's parts leave, and what the ledger reads. -/
namespace Sys2Proof.Machine

set_option Elab.async false

section
variable {s : State}

/-! ### What the tick's parts before the ledger's leave of what it and the reload read -/

/-- The divider's constant (R118), and the stored settings that a command asked to load (R346). -/
def tickView (s : State) : Nat × List (Nat × Nat) := (fget s F.LDG_CONST3_KDIV_X256 0, s.mbx.reload)

/-- The converters' and the sequencer's registers lie above the ledger's. -/
theorem tickView_fput (f : Fld) (i v : Nat) (h : 0xA0054 ≤ f.base) : tickView (fput f i v s) = tickView s := by
  have hk : F.LDG_CONST3_KDIV_X256.key 0 ≠ f.key i := by
    have : F.LDG_CONST3_KDIV_X256.key 0 = 0xA0050 * 8 := rfl
    have hf : f.key i = (f.base + f.stride * i) * 8 + f.lo := rfl
    omega
  simp only [tickView, fget_fput_other _ _ _ _ _ _ hk, fput_mbx]

theorem tickView_fset (f : Fld) (i : Nat) (h : 0xA0054 ≤ f.base) : tickView (fset f i s) = tickView s := tickView_fput f i 1 h
theorem tickView_fclr (f : Fld) (i : Nat) (h : 0xA0054 ≤ f.base) : tickView (fclr f i s) = tickView s := tickView_fput f i 0 h
theorem tickView_fbit (f : Fld) (i : Nat) (b : Bool) (h : 0xA0054 ≤ f.base) : tickView (fbit f i b s) = tickView s :=
  tickView_fput f i b.toNat h
theorem tickView_finc (f : Fld) (i : Nat) (h : 0xA0054 ≤ f.base) : tickView (finc f i s) = tickView s := tickView_fput f i _ h

@[simp] theorem tickView_onMcv (f : Converters → Converters) : tickView (onMcv f s) = tickView s := rfl
@[simp] theorem tickView_onSeq (f : Sequencer → Sequencer) : tickView (onSeq f s) = tickView s := rfl
@[simp] theorem tickView_onLife (f : Life → Life) : tickView (onLife f s) = tickView s := rfl
@[simp] theorem tickView_land (type cls source flags : Nat) (fixed : Option (List Nat)) :
    tickView (land type cls source flags fixed s) = tickView s := rfl

@[simp] theorem tickView_when (b : Bool) (f : State → State) :
    tickView (when b f s) = if b then tickView (f s) else tickView s := by
  cases b <;> rfl

@[simp] theorem tickView_forEach {α : Type} {f : α → State → State} (h : ∀ x u, tickView (f x u) = tickView u) (xs : List α) :
    tickView (forEach xs f s) = tickView s := forEach_keeps tickView f h xs s

@[simp] theorem tickView_succeed (via : Transport) (op : Nat) (out : List Byte) : tickView (succeed via op out s) = tickView s := by
  cases via <;> simp [succeed, answer, tickView]

@[simp] theorem tickView_onConv (n : Nat) (f : ConvSt → ConvSt) : tickView (onConv n f s) = tickView s := rfl
@[simp] theorem tickView_onDiag (n : Nat) (f : Diag → Diag) : tickView (onDiag n f s) = tickView s := rfl
@[simp] theorem tickView_setDiag (n : Nat) (d : Option Diag) : tickView (setDiag n d s) = tickView s := rfl

@[simp] theorem tickView_restartFilters (n : Nat) : tickView (restartFilters n s) = tickView s := by
  refine tickView_forEach (fun k u => ?_) _
  rw [restartFilter, tickView_fclr _ _ (by decide), tickView_onMcv]

@[simp] theorem tickView_applyPower (n : Nat) : tickView (applyPower n s) = tickView s := by
  simp only [applyPower]
  split_ifs <;> simp

@[simp] theorem tickView_calEnd (n : Nat) (b : Bool) : tickView (calEnd n b s) = tickView s := by
  simp only [calEnd]
  cases (conv s n).calVia <;> simp

@[simp] theorem tickView_calStopped (n : Nat) : tickView (calStopped n s) = tickView s := by
  simp only [calStopped]
  split
  · rw [tickView_calEnd, tickView_fset _ _ (by decide)]
  · rfl

@[simp] theorem tickView_diagEnd (p : Nat) (d : Diag) (span result : Nat) : tickView (diagEnd p d span result s) = tickView s := by
  simp only [diagEnd]
  cases d.via <;> simp (disch := decide) [tickView_fput, tickView_fset]

@[simp] theorem tickView_diagStopped (n : Nat) : tickView (diagStopped n s) = tickView s := by
  unfold diagStopped
  split
  · split <;> simp
  · rfl

@[simp] theorem tickView_startConv (n ch : Nat) (w : ConvWork) : tickView (startConv n ch w s) = tickView s := by
  simp (disch := decide) [startConv, tickView_fput]

@[simp] theorem tickView_startNext (n : Nat) : tickView (startNext n s) = tickView s := by
  cases hd : diagOn s n <;> simp only [startNext, hd] <;> split_ifs <;> simp

@[simp] theorem tickView_skipSlot (n ch : Nat) : tickView (skipSlot n ch s) = tickView s := by
  simp only [skipSlot]
  cases ainOf n ch <;> simp (disch := decide) [countSkip, feedFilter, tickView_fput, tickView_fbit, tickView_fset, tickView_finc]

@[simp] theorem tickView_resolveLate (n : Nat) : tickView (resolveLate n s) = tickView s := by
  simp only [resolveLate]
  split
  · rfl
  · split_ifs <;> simp

@[simp] theorem tickView_convTick (n : Nat) : tickView (convTick n s) = tickView s := by
  simp only [convTick]
  split
  · rfl
  · simp [goOn]

theorem tickView_nextStep : tickView (nextStep s) = tickView s := by
  unfold nextStep gotoStep endSequence
  split <;> simp (disch := decide) [tickView_fput]

@[simp] theorem tickView_completeWait : tickView (completeWait s) = tickView s := by
  unfold completeWait
  split_ifs
  · dsimp only
    split_ifs
    · exact tickView_nextStep
    · exact tickView_nextStep
    · rfl
  · rfl

/-! ### The tick in a quiet STANDBY -/

/-- What waits for the tick's comparators and enables: nothing. -/
def tickQuiet (s : State) : Prop :=
  s.mode = .standby ∧ s.seq.pend = [] ∧ s.seq.edges = [] ∧ s.seq.armNext = [] ∧ s.seq.pgDue = [] ∧ s.seq.margins = [] ∧ s.pel.slew = 0
    ∧ s.mbx.reload = []

theorem coreOn_of_standby (h : s.mode = .standby) : coreOn s = false := by simp [coreOn, h]

theorem admitEnables_of_none (h : s.seq.pend = []) : admitEnables s = s := by
  simp [admitEnables, h, sortReqs, admitGo]

theorem tickEnd_of_quiet (h : tickQuiet s) : tickEnd s = s := by
  obtain ⟨hm, hp, -⟩ := h
  cases hr : sbReady s <;> simp [tickEnd, hr, coreOn_of_standby hm, admitEnables_of_none hp]

/-- What every step of a loop preserves holds after it. -/
theorem forEach_induct {α : Type} {P : State → Prop} {f : α → State → State} (h : ∀ x u, P u → P (f x u)) (xs : List α) :
    P s → P (forEach xs f s) := by
  induction xs generalizing s with
  | nil => exact id
  | cons x xs ih => exact fun hs => ih (h x s hs)

theorem mem_nsAdd {n m : Nat} {l : NSet} : m ∈ nsAdd n l ↔ m = n ∨ m ∈ l := by
  induction l with
  | nil => simp [nsAdd]
  | cons k l ih =>
    simp only [nsAdd]
    split_ifs with h1 h2
    · simp
    · simp [h2]
    · simp only [List.mem_cons, ih]
      exact or_left_comm

/-- A comparator in use was not just taken out of use: none is due to arm. -/
def noneDue (s u : State) : Prop :=
  keptBut s u [.regs, .seq] ∧ tickView u = tickView s
    ∧ ∃ l, u.seq = { s.seq with armNext := l } ∧ ∀ k ∈ l, fon u F.SEQ_CHn_WIN_UV_EN k = false

theorem noneDue_unarmUv {u : State} (k : Nat) (h : noneDue s u) : noneDue s (unarmUv k u) := by
  obtain ⟨hkept, hview, l, hseq, hdue⟩ := h
  unfold unarmUv
  split
  · next hk =>
    simp only [Bool.and_eq_true, Bool.not_eq_true'] at hk
    have hen : ∀ j, fon (fclr F.SEQ_CHn_STATUS_UV_ARMED k u) F.SEQ_CHn_WIN_UV_EN j = fon u F.SEQ_CHn_WIN_UV_EN j := fun j => by
      have hne : F.SEQ_CHn_WIN_UV_EN.key j ≠ F.SEQ_CHn_STATUS_UV_ARMED.key k := by
        show (0xC0204 + 0x20 * j) * 8 + 27 ≠ (0xC0218 + 0x20 * k) * 8 + 4
        omega
      rw [fon, fon, fget_fclr_other _ _ _ _ _ hne]
    refine ⟨by simpa using hkept, ?_, nsAdd k l, by simp [hseq], fun j hj => ?_⟩
    · rw [tickView_onSeq, tickView_fclr _ _ (by decide), hview]
    · rw [fon_onSeq, hen]
      rcases mem_nsAdd.1 hj with rfl | hj
      · exact hk.2
      · exact hdue j hj
  · exact ⟨hkept, hview, l, hseq, hdue⟩

theorem armComparators_of_none (h : s.seq.armNext = []) : keptBut s (armComparators s) [.regs, .seq]
    ∧ tickView (armComparators s) = tickView s ∧ (armComparators s).seq.edges = s.seq.edges
    ∧ (armComparators s).seq.margins = s.seq.margins := by
  obtain ⟨hkept, hview, l, hseq, hdue⟩ : noneDue s (forEach allChans unarmUv s) :=
    forEach_induct (fun k u => noneDue_unarmUv k) allChans ⟨keptBut_refl .., rfl, [], by simp [← h], by simp⟩
  have hnone : (forEach allChans unarmUv s).seq.armNext.filter (fon (forEach allChans unarmUv s) F.SEQ_CHn_WIN_UV_EN) = [] := by
    rw [hseq]
    simpa [List.filter_eq_nil_iff] using hdue
  simp only [armComparators]
  generalize forEach allChans unarmUv s = u at *
  simp only [hnone, forEach_nil]
  refine ⟨by simpa using hkept, hview, ?_, ?_⟩
  · rw [onSeq_seq, hseq]
  · rw [onSeq_seq, hseq]

theorem completeWait_margins : (completeWait s).seq.margins = s.seq.margins := by
  have hn : (nextStep s).seq.margins = s.seq.margins := by
    unfold nextStep gotoStep endSequence
    split <;> simp
  unfold completeWait
  split_ifs
  · dsimp only
    split_ifs
    · exact hn
    · exact hn
    · rfl
  · rfl

/-- The tick's part before the settings are loaded, from the boundary on: in quiet, only a completed wait and the converters. -/
def tickEarly (s : State) : State :=
  forEach (List.range 8) convTick (s |> pgEdges |> armComparators |> driveEdges |> completeWait |> marginTicks)

theorem tickEarly_of_quiet (h : tickQuiet s) :
    keptBut s (tickEarly s) [.stamp, .regs, .life, .seq, .mcv, .rcd, .mbx, .outbox] ∧ tickView (tickEarly s) = tickView s := by
  obtain ⟨-, -, hedges, harm, hpg, hmargins, -, -⟩ := h
  have hpgEdges : pgEdges s = onSeq (fun q => { q with pgDue := [] }) s := by
    simp only [pgEdges, hpg, List.filter_nil, forEach_nil]
    simp [onSeq, hpg]
  obtain ⟨hk1, hv1, he1, hm1⟩ := armComparators_of_none (s := pgEdges s) (by rw [hpgEdges]; exact harm)
  unfold tickEarly
  generalize armComparators (pgEdges s) = u at hk1 hv1 he1 hm1 ⊢
  rw [hpgEdges] at hk1 hv1 he1 hm1
  have hdrive : driveEdges u = onSeq (fun q => { q with edges := [] }) u := by
    simp only [driveEdges, show u.seq.edges = [] from he1.trans hedges, forEach_nil]
  have hmarg : marginTicks (completeWait (driveEdges u)) = completeWait (driveEdges u) := by
    have hno : (completeWait (driveEdges u)).seq.margins = [] := by
      rw [completeWait_margins, hdrive]
      exact hm1.trans hmargins
    simp only [marginTicks, hno, forEach_nil]
  rw [hmarg, hdrive]
  refine ⟨?_, ?_⟩
  · refine keptBut_trans (t := u) (keptBut_trans (t := onSeq (fun q => { q with pgDue := [] }) s) (by simp) (keptBut_mono hk1 (by simp)))
      (by simp)
  · simpa using hv1

/-- The tick's part from the load of the settings on: in quiet, only what counts by the tick. -/
theorem tickBoundary_of_quiet (h : tickQuiet s) : ∃ v,
    (keptBut (toNextTick s) v [.stamp, .regs, .life, .seq, .mcv, .rcd, .mbx, .outbox] ∧ tickView v = tickView s) ∧ tickBoundary s =
    (v |> onMbx (fun m => { m with reload := [] }) |> onCache (fun c => { c with fresh := [] })
      |> onSched (fun q => { q with bgUsed := [] }) |> turnEngines) := by
  have hq : tickQuiet (toNextTick s) := h
  obtain ⟨hk, hv⟩ := tickEarly_of_quiet hq
  obtain ⟨-, -, -, -, -, -, hslew, hreload⟩ := h
  refine ⟨_, ⟨hk, hv⟩, ?_⟩
  show turnEngines (onSched _ (onCache _ (slewStep (reloadStored (tickEarly (toNextTick s)))))) = _
  generalize tickEarly (toNextTick s) = v at hk hv ⊢
  have hr : v.mbx.reload = [] := (Prod.ext_iff.1 hv).2.trans hreload
  have hs : v.pel.slew = 0 := by
    have : v.pel = s.pel := agree_of_kept hk .pel
    rw [this, hslew]
  simp only [reloadStored, hr, forEach_nil]
  rw [slewStep, if_pos (by simp [hs])]

theorem modeChanges_of_standby (h : s.mode = .standby) : modeChanges s = s := by
  simp [modeChanges, releaseDies, tryRecover, tryService, endFreewheel, leaveHold, h]

@[simp] theorem coreOn_ledgerAon : coreOn (ledgerAon s) = coreOn s := by
  simp [coreOn, aonOn, ledgerAon]

/-- Without the core the tick only shows the reservoir's voltage and goes on with a clear. -/
theorem cadenceTick_of_quiet (h : tickQuiet s) (hb : (tickBoundary s).mode = .standby) :
    cadenceTick s = clearProgress (ledgerAon (tickBoundary s)) := by
  have hon : aonOn s = true := by simp [aonOn, h.1]
  simp only [cadenceTick, hon, if_true, tickEnd_of_quiet h]
  generalize tickBoundary s = b at hb
  have hcore : coreOn b = false := coreOn_of_standby hb
  simp [modeChanges_of_standby hb, tickLedger, tickQueues, ledgerTick_of_coreOff hcore, hcore]

/-- The voltage shown is that of the code in use. -/
theorem fget_ledgerAon_vcap : fget (ledgerAon s) F.LDG_VCAP_MV 0 = min 65535 (vcapOf s (ledgerAon s).led.code) := by
  have hlt : ∀ c, min 65535 (vcapOf s c) < 2 ^ F.LDG_VCAP_MV.width := fun c => lt_of_le_of_lt (min_le_left _ _) (by decide)
  simp only [ledgerAon]
  rw [fget_fput_other _ _ _ _ _ _ (by decide), fget_fput_other _ _ _ _ _ _ (by decide), fget_fput_same, Nat.mod_eq_of_lt (hlt _)]
  rfl

end

/-- Settles O44: a quiet STANDBY's tick comes to the next boundary, lets the converters go on, and shows the voltage. -/
theorem cadenceTickInOffAndStandby : Obligations.CadenceTickInOffAndStandby := by
  unfold Obligations.CadenceTickInOffAndStandby
  intro s hg
  refine ⟨fun hoff => run_of_effect_eq hg ?_, fun hm hpend hedges harm hpg hmargins hslew hreload => ?_⟩
  · simp [cadenceTick, aonOn, hoff]
  · have hq : tickQuiet (stampNow s) := ⟨hm, hpend, hedges, harm, hpg, hmargins, hslew, hreload⟩
    obtain ⟨v, ⟨hk, hv⟩, hb⟩ := tickBoundary_of_quiet hq
    have hvm : v.mode = .standby := Eq.trans (agree_of_kept hk .mode) hm
    have he := cadenceTick_of_quiet hq (by rw [hb]; exact hvm)
    rw [hb] at he
    generalize hw : (v |> onMbx (fun m => { m with reload := [] }) |> onCache (fun c => { c with fresh := [] })
      |> onSched (fun q => { q with bgUsed := [] }) |> turnEngines) = w at he
    have hkw : keptBut v w [.mbx, .cache, .sched] := by rw [← hw]; simp
    have hkt : keptBut w (clearProgress (ledgerAon w)) [.regs, .led, .rcd, .mbx, .outbox] := by simp
    have hall : keptBut (toNextTick (stampNow s)) (clearProgress (ledgerAon w))
        [.stamp, .regs, .life, .seq, .mcv, .rcd, .mbx, .outbox, .cache, .sched, .led] :=
      keptBut_trans (keptBut_mono hk (by simp)) (keptBut_trans (keptBut_mono hkw (by simp)) (keptBut_mono hkt (by simp)))
    have hcache : (clearProgress (ledgerAon w)).cache = w.cache := agree_of_kept hkt .cache
    have hsched : (clearProgress (ledgerAon w)).sched = w.sched := agree_of_kept hkt .sched
    have hvsched : v.sched = s.sched := agree_of_kept hk .sched
    have hvcache : v.cache = s.cache := agree_of_kept hk .cache
    have hclear : keptBut (ledgerAon w) (clearProgress (ledgerAon w)) [.rcd, .mbx, .outbox] := by simp
    have hregs : (clearProgress (ledgerAon w)).regs = (ledgerAon w).regs := (agree_of_kept hclear .regs).1
    have hled : (clearProgress (ledgerAon w)).led = (ledgerAon w).led := agree_of_kept hclear .led
    have hconst : fget w F.LDG_CONST3_KDIV_X256 0 = fget s F.LDG_CONST3_KDIV_X256 0 := by
      rw [← hw]
      exact (Prod.ext_iff.1 hv).1
    refine ⟨_, run_of_effect he, ?_, ?_, ?_, ?_, ?_, ?_, ?_, ?_, ?_, ?_, ?_⟩
    · rw [settle_gtc, show (clearProgress (ledgerAon w)).gtc = _ from agree_of_kept hall .gtc]
      exact Nat.mod_mod ..
    · exact Eq.trans (agree_of_kept hall .mode) hm
    · rw [fget_settle, settle_led, hled, show fget (clearProgress (ledgerAon w)) F.LDG_VCAP_MV 0 = fget (ledgerAon w) F.LDG_VCAP_MV 0 by
        rw [fget, hregs, fget], fget_ledgerAon_vcap, vcapOf, vcapOf, hconst]
    · exact agree_of_kept hall .med
    · exact agree_of_kept hall .host
    · exact agree_of_kept hall .sbg
    · rw [settle_cache, hcache, ← hw, ← hvcache]
      rfl
    all_goals
      rw [settle_sched, hsched, ← hw, ← hvsched]
      rfl

end Sys2Proof.Machine
end

section
/-! SUPPORT. A change of mode (R185): what it writes. PROOF. The entry to RAMP (R185, R187, R189). -/
namespace Sys2Proof.Machine

set_option Elab.async false

section
variable {s : State} {g : Fld} {i : Nat}

/-! ### A change of mode -/

/-- A loop whose steps keep a field keeps it. -/
theorem fget_forEach {α : Type} {f : α → State → State} (h : ∀ x u, fget (f x u) g i = fget u g i) (xs : List α) :
    fget (forEach xs f s) g i = fget s g i := forEach_keeps (fun u => fget u g i) f h xs s

/-- Every register that lies below the inputs' values is kept when the converters take up their settings. -/
theorem fget_applyPower_of_below (h : g.key i < 0xC5400 * 8) (n : Nat) : fget (applyPower n s) g i = fget s g i := by
  have hk : ∀ k u, fget (restartFilter k u) g i = fget u g i := fun k u => by
    have hne : g.key i ≠ F.MCV_INk_VAL_SETTLED.key k := by
      have : F.MCV_INk_VAL_SETTLED.key k = (0xC5400 + 4 * k) * 8 + 28 := rfl
      omega
    rw [restartFilter, fget_fclr_other _ _ _ _ _ hne, fget_onMcv]
  have hr : ∀ u, fget (restartFilters n u) g i = fget u g i := fun u => fget_forEach hk _
  simp only [applyPower]
  split_ifs
  · rfl
  · rw [hr]
    rfl
  · rw [fget_onMcv, hr]
    rfl
  · rfl

theorem fget_applyPowers_of_below (h : g.key i < 0xC5400 * 8) : fget (applyPowers s) g i = fget s g i :=
  fget_forEach (fun n _ => fget_applyPower_of_below h n) _

theorem fget_setMode_prev (m : Mode) : fget (setMode m s) F.HUB_MODE_PREV 0 = modeCode s.mode := by
  have hlt : modeCode s.mode < 2 ^ F.HUB_MODE_PREV.width := by cases s.mode <;> decide
  simp only [setMode]
  rw [fget_applyPowers_of_below (by decide)]
  simp [Nat.mod_eq_of_lt hlt]

theorem fget_setMode_of_below (m : Mode) (h : g.key i < 0xC5400 * 8) (hp : g.key i ≠ F.HUB_MODE_PREV.key 0) :
    fget (setMode m s) g i = fget s g i := by
  simp only [setMode]
  rw [fget_applyPowers_of_below h]
  simp [fget_fput_other _ _ _ _ _ _ hp]
  rfl

/-! ### The entry to RAMP -/

/-- What RAMP clears. -/
def rampCleared (s0 : State) : State :=
  let asked := if fon s0 F.HUB_MODE_CFG_AUTO_RAMP 0 then 0 else s0.life.acceptedAt
  capInterrupt s0 |> onLife (fun l => { lifeReset with
      restartAt := max (max l.restartAt l.goodSince) asked, goodSince := l.goodSince, modeSince := l.modeSince
      fwVersion := l.fwVersion, fwBad := l.fwBad })
    |> clearCore

/-- What it then loads and checks. -/
def rampLoad (s0 : State) : State :=
  let s := s0 |> resetCoreRegs |> loadAll |> loadHoldUv |> loadTable |> loadTandem |> loadHubCkpt
  s |> ctrCheck ctrEpoch |> forEach (List.range (Config.wheels s.config)) (fun w => ctrCheck (ctrLife w))
    |> fput F.HUB_EPOCH_PE 0 s.med.pe |> fput F.WHL_POOL_MIN_SHARED_FREE 0 (Config.sharedPool s.config)

theorem enterRamp_eq : enterRamp s = (rampCleared s |> rampLoad |> fclr F.HUB_MODE_REC_CLOSED 0 |> rampSeq |> setMode .ramp
    |> onMcv (fun m => { m with tjArmed := true, tjRun := 0 })
    |> forEach (List.range 8) (fun n s => startCal n none true s)) := rfl

theorem kept_rampLoad : keptBut s (rampLoad s) [.regs, .tnd] := by simp [rampLoad]

/-- The cells of media keep their lines, tags, drained lines, checkpoints and key. -/
def cellsKept (m n : Media) : Prop :=
  n.lines = m.lines ∧ n.tags = m.tags ∧ n.drain = m.drain ∧ n.index = m.index ∧ n.ckpts = m.ckpts ∧ n.key = m.key

theorem rampCleared_cleared : (rampCleared s).mode = s.mode ∧ (rampCleared s).gtc = s.gtc
    ∧ (rampCleared s).cache = cacheReset ∧ (rampCleared s).sched = schedReset
    ∧ (rampCleared s).fw = fwReset ∧ (rampCleared s).life.hubUp = false ∧ (rampCleared s).life.seqDone = false
    ∧ cellsKept s.med (rampCleared s).med ∧ (rampCleared s).config = s.config := by
  have hcap : keptBut s (capInterrupt s) [.stamp, .regs, .pins, .led, .rcd] := by simp
  have hmed : (capInterrupt s).med = s.med := agree_of_kept hcap .med
  refine ⟨agree_of_kept hcap .mode, agree_of_kept hcap .gtc, rfl, rfl, rfl, rfl, rfl, ?_, hcap.1⟩
  rw [← hmed]
  exact ⟨rfl, rfl, rfl, rfl, rfl, rfl⟩

/-- The sequence starts at its first step. -/
theorem rampSeq_starts : fget (rampSeq s) F.SEQ_CTRL_STATE 0 = 1 ∧ fget (rampSeq s) F.SEQ_CTRL_STEP 0 = 0 ∧ (rampSeq s).seq.pend = []
    ∧ (rampSeq s).seq.edges = [] ∧ (rampSeq s).seq.fflArmed = true := by
  simp only [rampSeq]
  refine ⟨?_, ?_, ?_, ?_, ?_⟩
  · simp (disch := decide) [fget_fput_other, F.SEQ_CTRL_STATE]
  · simp (disch := decide) [fget_fput_other]
  · simp [seqReset]
  · simp [seqReset]
  · simp

/-- Registers below the sequencer's are kept by a write of one of its fields. -/
theorem fget_fput_above {f : Fld} {n v : Nat} (h : g.key i < 0xC0000 * 8) (hf : 0xC0000 ≤ f.base) : fget (fput f n v s) g i = fget s g i := by
  have hk : f.key n = (f.base + f.stride * n) * 8 + f.lo := rfl
  exact fget_fput_other _ _ _ _ _ _ (by omega)

theorem fget_rampSeq_of_below (h : g.key i < 0xC0000 * 8) : fget (rampSeq s) g i = fget s g i := by
  have hstep : ∀ (c : Nat) (u : State), fget (u |> fclr F.SEQ_CHn_STATUS_FAULT_SEEN c |> fclr F.SEQ_CHn_STATUS_OFF_FAULT c
      |> fclr F.SEQ_CHn_STATUS_RETRIES c |> fclr F.SEQ_CHn_STATUS_RETRYING c |> fclr F.SEQ_CHn_STATUS_MARGINED c
      |> fclr F.SEQ_CHn_TRIM_DRIVING c |> fclr F.SEQ_CHn_TRIM_CODE c) g i = fget u g i := fun c u => by
    simp (disch := decide) only [fclr, fget_fput_above h]
  unfold rampSeq
  rw [fget_fput_above h (by decide), fget_fput_above h (by decide), fget_fput_above h (by decide), fget_onSeq, fclr,
    fget_fput_above h (by decide), fget_forEach hstep]

/-- What follows the sequence's start leaves. -/
theorem enterRamp_after {u : State} (hu : rampSeq (fclr F.HUB_MODE_REC_CLOSED 0 (rampLoad (rampCleared s))) = u) :
    (enterRamp s).mode = .ramp ∧ (enterRamp s).life = { u.life with modeSince := u.stamp }
      ∧ keptBut u (enterRamp s) [.mode, .regs, .life, .mcv, .rcd] ∧ fget (enterRamp s) F.HUB_MODE_PREV 0 = modeCode u.mode
      ∧ ∀ g i, g.key i < 0xC5400 * 8 → g.key i ≠ F.HUB_MODE_PREV.key 0 → fget (enterRamp s) g i = fget u g i := by
  rw [enterRamp_eq, hu]
  generalize hw : setMode .ramp u = w
  generalize ht : forEach _ _ _ = t
  have hk : keptBut w t [.mcv] := by rw [← ht]; simp
  have hr : ∀ g i, fget t g i = fget w g i := fun g i => by rw [fget, fget, (agree_of_kept hk .regs).1]
  have hmode : t.mode = w.mode := agree_of_kept hk .mode
  have hlife : t.life = w.life := agree_of_kept hk .life
  have huw : keptBut u w [.mode, .regs, .life, .mcv, .rcd] := by rw [← hw]; simp
  refine ⟨?_, ?_, keptBut_trans huw (keptBut_mono hk (by simp)), ?_, fun g i hb hp => ?_⟩
  · rw [hmode, ← hw, setMode_mode]
  · rw [hlife, ← hw, setMode_life]
  · rw [hr, ← hw, fget_setMode_prev]
  · rw [hr, ← hw, fget_setMode_of_below _ hb hp]

end

/-- Settles O31: at the tick after the debounce RAMP clears the core, loads its settings and starts the sequence. -/
theorem rampIsEnteredAfterDebounce : Obligations.RampIsEnteredAfterDebounce := by
  unfold Obligations.RampIsEnteredAfterDebounce
  intro s hg hm hready hgood hhot hgo ends met
  have hauto : (fon s F.HUB_MODE_CFG_AUTO_RAMP 0 = true) = (fget s F.HUB_MODE_CFG_AUTO_RAMP 0 ≠ 0) := by
    simp [fon]
  have hgo' : (fon s F.HUB_MODE_CFG_AUTO_RAMP 0 || s.life.rampRequest) = true := by
    rw [Bool.or_eq_true, hauto]
    exact hgo
  have he : debounceEnd (stampNow s) = enterRamp (nextTickAfter met (stampNow s)) := by
    have hmet : (if fon s F.HUB_MODE_CFG_AUTO_RAMP 0 then ends else max ends s.life.acceptedAt) = met := by
      simp only [met, hauto]
    simp only [debounceEnd, stampNow_mode, hm, sbReady_stampNow, hready, stampNow_life, hhot, fon_stampNow, hgo', fget_stampNow, ← hmet]
    rw [show inputGood (stampNow s) = true from hgood]
    rfl
  generalize hv : nextTickAfter met (stampNow s) = v at he
  generalize hu : rampSeq (fclr F.HUB_MODE_REC_CLOSED 0 (rampLoad (rampCleared v))) = u
  obtain ⟨hmode, hlife, hkept, hprev, hregs⟩ := enterRamp_after hu
  obtain ⟨hcm, hcg, hcc, hcs, hcf, hch, hcq, hcmed, -⟩ := rampCleared_cleared (s := v)
  obtain ⟨hstate, hstep, hpend, hedges, hffl⟩ := rampSeq_starts (s := fclr F.HUB_MODE_REC_CLOSED 0 (rampLoad (rampCleared v)))
  have hku : keptBut (rampCleared v) u [.regs, .tnd, .seq] := by
    rw [← hu]
    exact keptBut_trans (keptBut_mono kept_rampLoad (by simp)) (by simp)
  have hall : keptBut (rampCleared v) (enterRamp v) [.regs, .tnd, .seq, .mode, .life, .mcv, .rcd] :=
    keptBut_trans (keptBut_mono hku (by simp)) (keptBut_mono hkept (by simp))
  have hvs : keptBut s v [.gtc, .stamp] := by
    rw [← hv]
    exact keptBut_trans (keptBut_mono (keptBut_stampNow s []) (by simp)) (by simp)
  have hvg : v.gtc = max ((met / 250 + 1) * 250) ((s.gtc + 249) / 250 * 250) % 2 ^ 64 := by rw [← hv]; rfl
  have hum : u.mode = .standby := (agree_of_kept hku .mode).trans (hcm.trans ((agree_of_kept hvs .mode).trans hm))
  have hul : u.life = (rampCleared v).life := agree_of_kept hku .life
  have hseq : (enterRamp v).seq = u.seq := agree_of_kept hkept .seq
  have hmed : (enterRamp v).med = (rampCleared v).med := agree_of_kept hall .med
  rw [agree_of_kept hvs .med, ← hmed] at hcmed
  obtain ⟨hlines, htags, hdrain, hindex, hckpts, hkey⟩ := hcmed
  rw [hu] at hstate hstep hpend hedges hffl
  refine ⟨_, run_of_effect he, ?_, ?_, ?_, ?_, ?_, ?_, ?_, ?_, ?_, ?_, ?_, ?_, ?_, ?_, ?_, ?_, ?_, ?_, ?_, ?_, settle_config ..⟩
  · rw [settle_mode, hmode]
  · rw [fget_settle, hprev, hum, modeCode]
  · rw [settle_gtc, show (enterRamp v).gtc = (rampCleared v).gtc from agree_of_kept hall .gtc, hcg, hvg, Nat.mod_mod]
  · rw [fget_settle, hregs _ _ (by decide) (by decide), hstate]
  · rw [fget_settle, hregs _ _ (by decide) (by decide), hstep]
  · rw [fget_settle, hregs _ _ (by decide) (by decide), ← hu]
    rw [fget_rampSeq_of_below (by decide), fclr, fget_fput_same, Nat.zero_mod]
  · rw [settle_seq, hseq, hpend]
  · rw [settle_seq, hseq, hedges]
  · rw [settle_seq, hseq, hffl]
  · rw [settle_cache, show (enterRamp v).cache = (rampCleared v).cache from agree_of_kept hall .cache, hcc]
  · rw [settle_sched, show (enterRamp v).sched = (rampCleared v).sched from agree_of_kept hall .sched, hcs]
  · rw [settle_fw, show (enterRamp v).fw = (rampCleared v).fw from agree_of_kept hall .fw, hcf]
  · rw [settle_life, hlife, hul]
    exact hch
  · rw [settle_life, hlife, hul]
    exact hcq
  · rw [settle_med, hlines]
  · rw [settle_med, htags]
  · rw [settle_med, hdrain]
  · rw [settle_med, hindex]
  · rw [settle_med, hckpts]
  · rw [settle_med, hkey]

end Sys2Proof.Machine
end

section
/-! PROOF. The recall of the saddlebag (R292, R293, R310, R314). -/
namespace Sys2Proof.Machine

set_option Elab.async false

section
variable {s : State}

/-! ### What recall writes besides SBG_STATUS.READY -/

/-- The registers that recall loads from the saddlebag. -/
def recalledRegs : List RegDef := allRegs.filter (fun r => r.home.isSome || r.base == 0xC4800)

/-- SBG_STATUS is not one of them. -/
theorem ready_not_recalled : recalledRegs.all (fun r => r.fields.all fun f => (List.range r.count).all fun i =>
    f.key i != F.SBG_STATUS_READY.key 0) = true := by
  decide +kernel

/-- A loop whose steps on its items keep a field keeps it. -/
theorem fget_forEach_mem {α : Type} {g : Fld} {i : Nat} {f : α → State → State} (xs : List α) :
    (∀ x ∈ xs, ∀ u, fget (f x u) g i = fget u g i) → ∀ s, fget (forEach xs f s) g i = fget s g i := by
  induction xs with
  | nil => exact fun _ _ => rfl
  | cons x xs ih =>
    intro h s
    rw [forEach_cons, ih fun y hy => h y (List.mem_cons_of_mem x hy), h x List.mem_cons_self]

theorem ready_loadAll : fget (loadAll s) F.SBG_STATUS_READY 0 = fget s F.SBG_STATUS_READY 0 := by
  refine fget_forEach_mem _ (fun r hr u => fget_forEach_mem _ (fun i hi u => ?_) u) s
  unfold loadReg
  split
  · rfl
  · refine fget_forEach_mem _ (fun f hf u => fget_fput_other _ _ _ _ _ _ ?_) u
    have hall := ready_not_recalled
    simp only [List.all_eq_true, bne_iff_ne] at hall
    exact (hall r hr f (List.mem_of_mem_filter hf) i hi).symm

theorem ready_loadHoldUv : fget (loadHoldUv s) F.SBG_STATUS_READY 0 = fget s F.SBG_STATUS_READY 0 := by
  unfold loadHoldUv
  split
  · exact fget_fput_other _ _ _ _ _ _ (by decide)
  · rfl

theorem ready_loadTable : fget (loadTable s) F.SBG_STATUS_READY 0 = fget s F.SBG_STATUS_READY 0 := by
  refine fget_forEach_mem _ (fun k hk u => fget_fput_other _ _ _ _ _ _ ?_) s
  have hlt : k < 64 := List.mem_range.1 hk
  have hkey : F.SEQ_STEPk_STEP.key k ≤ F.SEQ_STEPk_STEP.key 63 := by
    simp only [Fld.key]
    have : F.SEQ_STEPk_STEP.stride * k ≤ F.SEQ_STEPk_STEP.stride * 63 := Nat.mul_le_mul_left _ (by omega)
    omega
  exact (lt_of_le_of_lt hkey (by decide)).ne'

theorem fget_sbStore (a : Nat) (bs : List Byte) (g : Fld) (i : Nat) : fget (sbStore a bs s) g i = fget s g i := by
  have hk : keptBut s (sbStore a bs s) [.sbg] := by simp
  rw [fget, fget, (agree_of_kept hk .regs).1]

theorem ready_takeKey (a b n : Nat) : fget (takeKey a b n s) F.SBG_STATUS_READY 0 = fget s F.SBG_STATUS_READY 0 := by
  unfold takeKey
  split
  · rw [fget_fset_other _ _ _ _ _ (by decide), fget_sbStore, fget_sbStore]
  · rfl

theorem ready_loadKeys : fget (loadKeys s) F.SBG_STATUS_READY 0 = fget s F.SBG_STATUS_READY 0 := by
  simp only [loadKeys]
  split <;> simp [ready_takeKey]

theorem ready_noteOdd (a b : Option Nat) : fget (noteOdd a b s) F.SBG_STATUS_READY 0 = fget s F.SBG_STATUS_READY 0 := by
  unfold noteOdd
  split
  · simp (disch := decide) [fget_fset_other]
  · rfl

theorem ready_loadJournal : fget (loadJournal s) F.SBG_STATUS_READY 0 = fget s F.SBG_STATUS_READY 0 := by
  have hput : ∀ fs : List Fld, ∀ i w, (∀ f ∈ fs, f.key i < F.SBG_STATUS_READY.key 0) → ∀ u,
      fget (forEach fs (fun f s => fput f i (fieldOf f w) s) u) F.SBG_STATUS_READY 0 = fget u F.SBG_STATUS_READY 0 :=
    fun fs i w h => fget_forEach_mem fs fun f hf u => fget_fput_other _ _ _ _ _ _ (h f hf).ne'
  simp only [loadJournal]
  split
  · exact ready_noteOdd ..
  · rw [hput _ _ _ (by decide), hput _ _ _ (by decide), fget_forEach_mem, ready_noteOdd]
    exact fun n hn u => hput _ _ _ (by revert n; decide) u

/-! ### What recall leaves of the saddlebag -/

theorem takeKey_shadow (a b n : Nat) : (takeKey a b n s).sbg.shadow = s.sbg.shadow := by
  unfold takeKey
  split
  · simp only [fset_sbg]
    rw [(sbStore_bytes ..).2.1, (sbStore_bytes ..).2.1]
  · rfl

theorem loadKeys_shadow : (loadKeys s).sbg.shadow = s.sbg.shadow := by
  have h : ∀ b c : Bool, (when b (takeKey 4035 4036 4) (when c (takeKey 4033 4034 32) s)).sbg.shadow = s.sbg.shadow := fun b c => by
    cases b <;> cases c <;> simp [takeKey_shadow]
  simp only [loadKeys]
  split <;> exact h _ _

/-- Where no key was ever stored, none is copied. -/
theorem loadKeys_sbg (h : ∀ p ∈ [4033, 4034, 4035, 4036], nsHas p s.sbg.written = false) : (loadKeys s).sbg = s.sbg := by
  have h1 : keyStored s 4033 4034 = false := by simp [keyStored, h]
  have h2 : keyStored s 4035 4036 = false := by simp [keyStored, h]
  simp only [loadKeys, h1, h2, when_false]
  split <;> rfl

theorem loadKeys_cells : (loadKeys s).med.lines = s.med.lines ∧ (loadKeys s).med.tags = s.med.tags := by
  have hk : ∀ a b n, ∀ u : State, (takeKey a b n u).med = u.med := fun a b n u => agree_of_kept (ps := [.regs, .sbg]) (by simp) .med
  simp only [loadKeys]
  split <;> simp [hk]

/-! ### Recall -/

/-- Recall without a bad word, up to the straps: the working copy is the shadow, and the settings are loaded. -/
def recalled (s : State) : State :=
  s |> onSbg (fun g => { g with work := g.shadow, refreshDue := s.gtc + 1000000000 }) |> fset F.SBG_STATUS_READY 0
    |> fput F.SBG_RECALL_CORRECTED 0 0 |> fput F.SBG_RECALL_UE 0 0 |> loadAll |> loadHoldUv |> loadTable |> loadKeys |> loadJournal

theorem recallEnd_of_clean (straps : Devid) (hon : aonOn s = true) (hr : sbReady s = false) : recallEnd straps [] [] s =
    (recalled s |> fput F.SBG_STATUS_BP 0 ((ctrValue (recalled s) ctrProtect).getD 0 % 4)
      |> forEach [ctrProtect, ctrTimeBase, ctrHubCkpt] ctrCheck |> fput F.SEQ_CTRL_TABLE 0 (fget (recalled s) F.SEQ_CFG_PU_TABLE 0)
      |> fput F.PEL_STATUS_DEVID 0 straps.val |> fput F.PEL_STATUS_EPOCH 0 (0xF0 + straps.val)
      |> onPel (fun p => { p with startAt := s.gtc }) |> startCal 0 none true |> startCal 1 none true) := by
  simp [recallEnd, hon, hr, recalled, noteUe]

theorem ready_recalled : fget (recalled s) F.SBG_STATUS_READY 0 = 1 := by
  unfold recalled
  rw [ready_loadJournal, ready_loadKeys, ready_loadTable, ready_loadHoldUv, ready_loadAll]
  simp (disch := decide) [fget_fput_other, fget_fset_same]

theorem kept_recalled : keptBut s (recalled s) [.regs, .med, .sbg] := by simp [recalled]

theorem recalled_sbg : (recalled s).sbg.shadow = s.sbg.shadow
    ∧ ((∀ p ∈ [4033, 4034, 4035, 4036], nsHas p s.sbg.written = false) → (recalled s).sbg.work = s.sbg.shadow) := by
  have hj : ∀ u : State, (loadJournal u).sbg = u.sbg := fun u => agree_of_kept (ps := [.regs]) (by simp) .sbg
  have ht : ∀ u : State, (u |> loadAll |> loadHoldUv |> loadTable).sbg = u.sbg := fun u => agree_of_kept (ps := [.regs]) (by simp) .sbg
  refine ⟨?_, fun h => ?_⟩
  · unfold recalled
    rw [hj, loadKeys_shadow, ht]
    rfl
  · unfold recalled
    rw [hj, loadKeys_sbg (by rw [ht]; exact h), ht]
    rfl

theorem recalled_cells : (recalled s).med.lines = s.med.lines ∧ (recalled s).med.tags = s.med.tags := by
  have hj : ∀ u : State, (loadJournal u).med = u.med := fun u => agree_of_kept (ps := [.regs]) (by simp) .med
  have ht : ∀ u : State, (u |> loadAll |> loadHoldUv |> loadTable).med = u.med := fun u => agree_of_kept (ps := [.regs]) (by simp) .med
  unfold recalled
  rw [hj, loadKeys_cells.1, loadKeys_cells.2, ht]
  exact ⟨rfl, rfl⟩

@[simp] theorem conv_onConv (n m : Nat) (f : ConvSt → ConvSt) : conv (onConv n f s) m = if m = n then f (conv s n) else conv s m :=
  tabGet_tabSet ..

@[simp] theorem conv_settle (t : State) (n : Nat) : conv (settle s t) n = conv t n := rfl

end

/-- Settles O32: recall makes the working copy the shadow, loads the settings, and takes the straps. -/
theorem recallLoadsTheSaddlebag : Obligations.RecallLoadsTheSaddlebag := by
  unfold Obligations.RecallLoadsTheSaddlebag
  intro s straps hg hm
  have hon : aonOn s = true := by simp [aonOn, hm]
  refine ⟨fun hr => ?_, fun hr ce ue => run_of_effect_eq hg ?_⟩
  · have he := recallEnd_of_clean (s := stampNow s) straps hon hr
    have hready := ready_recalled (s := stampNow s)
    obtain ⟨hshadow, hwork⟩ := recalled_sbg (s := stampNow s)
    obtain ⟨hlines, htags⟩ := recalled_cells (s := stampNow s)
    have hmode : (recalled (stampNow s)).mode = s.mode := agree_of_kept kept_recalled .mode
    generalize recalled (stampNow s) = r at he hready hshadow hwork hlines htags hmode
    generalize hx : (r |> fput F.SBG_STATUS_BP 0 ((ctrValue r ctrProtect).getD 0 % 4)
      |> forEach [ctrProtect, ctrTimeBase, ctrHubCkpt] ctrCheck |> fput F.SEQ_CTRL_TABLE 0 (fget r F.SEQ_CFG_PU_TABLE 0)) = x at he
    have hk : keptBut r x [.regs] := by rw [← hx]; simp
    have hxr : fget x F.SBG_STATUS_READY 0 = 1 := by
      rw [← hx]
      simp (disch := decide) [fget_fput_other, ctrCheck, ready_noteOdd, hready]
    have hstraps : 0xF0 + straps.val < 2 ^ F.PEL_STATUS_EPOCH.width := show 0xF0 + straps.val < 256 by have := straps.isLt; omega
    have hdev : straps.val < 2 ^ F.PEL_STATUS_DEVID.width := straps.isLt
    refine ⟨_, run_of_effect he, ?_, ?_, ?_, ?_, ?_, ?_, ?_, ?_, ?_, ?_⟩
    · simp (disch := decide) [sbReady, fon, startCal, onConv, fget_fput_other, hxr]
    · simp (disch := decide) [startCal, onConv, fget_fput_other, Nat.mod_eq_of_lt hdev]
    · simp [startCal, onConv, Nat.mod_eq_of_lt hstraps]
    · simp [startCal]
    · simp [startCal]
    · exact (agree_of_kept hk .mode).trans hmode
    · exact (congrArg (·.shadow) (agree_of_kept hk .sbg)).trans hshadow
    · exact (congrArg (·.lines) (agree_of_kept hk .med)).trans hlines
    · exact (congrArg (·.tags) (agree_of_kept hk .med)).trans htags
    · exact fun h => (congrArg (·.work) (agree_of_kept hk .sbg)).trans (hwork h)
  · rw [recallEnd, sbReady_stampNow, hr]
    simp

end Sys2Proof.Machine
end

section
/-! PROOF. The inputs (R185, R133, R214 to R216, R300): VAON's warning, the 12 V input, PWRFAIL_N and the reservoir's comparator. -/
namespace Sys2Proof.Machine

set_option Elab.async false

section
variable {s : State}

/-! ### The entry to FREEWHEEL -/

/-- What is stopped and cancelled before FREEWHEEL is shown. -/
def freewheelStops (kind : Nat) (s : State) : State :=
  s |> firstFault kind srcFreewheel 0 |> cancelEnables |> abortCals |> capInterrupt |> endFlush |> endBg ⟨0x12, 0⟩ []

theorem kept_freewheelStops (kind : Nat) :
    keptBut s (freewheelStops kind s) [.stamp, .regs, .pins, .led, .rcd, .outbox, .seq, .mcv, .cache, .mbx] := by
  simp [freewheelStops]

theorem freewheelStops_pend (kind : Nat) : (freewheelStops kind s).seq.pend = [] := by
  have hk : keptBut (cancelEnables (firstFault kind srcFreewheel 0 s)) (freewheelStops kind s)
      [.stamp, .regs, .pins, .led, .rcd, .mcv, .cache, .mbx, .outbox] := by simp [freewheelStops]
  rw [show (freewheelStops kind s).seq = _ from agree_of_kept hk .seq]
  simp [cancelEnables]

/-- A flush that is called off moves no line. -/
theorem endFlush_lines : (endFlush s).cache.ways = s.cache.ways ∧ (endFlush s).cache.dir = s.cache.dir
    ∧ (endFlush s).cache.ovf = s.cache.ovf := by
  unfold endFlush
  cases fget s F.CCH_MODE_STATE 0 == 1 <;> simp [stopFlush]

theorem freewheelStops_lines (kind : Nat) : (freewheelStops kind s).cache.ways = s.cache.ways
    ∧ (freewheelStops kind s).cache.dir = s.cache.dir ∧ (freewheelStops kind s).cache.ovf = s.cache.ovf := by
  have hk : ∀ u : State, (endBg ⟨0x12, 0⟩ [] u).cache = u.cache := fun u => agree_of_kept (ps := [.regs, .mbx, .outbox]) (by simp) .cache
  have hb : (s |> firstFault kind srcFreewheel 0 |> cancelEnables |> abortCals |> capInterrupt).cache = s.cache :=
    agree_of_kept (ps := [.stamp, .regs, .pins, .led, .rcd, .outbox, .seq, .mcv]) (by simp) .cache
  obtain ⟨h1, h2, h3⟩ := endFlush_lines (s := s |> firstFault kind srcFreewheel 0 |> cancelEnables |> abortCals |> capInterrupt)
  unfold freewheelStops
  rw [hk, h1, h2, h3, hb]
  exact ⟨rfl, rfl, rfl⟩

theorem enterFreewheel_eq (kind : Nat) : enterFreewheel kind s = (freewheelStops kind s
    |> fbit F.HUB_MODE_SHORT_FW 0 (!fon s F.HUB_MODE_REC_CLOSED 0) |> fset F.LDG_STATUS_FW_ACTIVE 0
    |> onFw (fun _ => { fwReset with kind := if fon s F.HUB_MODE_REC_CLOSED 0 then .full else .short, stage := .t0, t0 := s.stamp
                                     eNeed := fget s F.LDG_ENEED_UJ 0 })
    |> setMode .freewheel) := rfl

/-- FREEWHEEL entered from the state `s`: what it shows and starts, and what stays. -/
def freewheelEntered (s t : State) : Prop :=
  t.mode = .freewheel ∧ t.fw.stage = .t0 ∧ t.fw.t0 = s.stamp
    ∧ t.fw.kind = (if fget s F.HUB_MODE_REC_CLOSED 0 = 0 then .short else .full)
    ∧ fget t F.LDG_STATUS_FW_ACTIVE 0 = 1 ∧ fget t F.HUB_MODE_PREV 0 = modeCode s.mode ∧ t.seq.pend = []
    ∧ t.gtc = s.gtc ∧ t.med = s.med ∧ t.sched = s.sched
    ∧ t.cache.ways = s.cache.ways ∧ t.cache.dir = s.cache.dir ∧ t.cache.ovf = s.cache.ovf

theorem enterFreewheel_entered (kind : Nat) : freewheelEntered s (enterFreewheel kind s) := by
  have hk := kept_freewheelStops (s := s) kind
  have hpend := freewheelStops_pend (s := s) kind
  obtain ⟨hways, hdir, hovf⟩ := freewheelStops_lines (s := s) kind
  rw [enterFreewheel_eq]
  generalize freewheelStops kind s = u at hk hpend hways hdir hovf
  generalize hv : (u |> fbit F.HUB_MODE_SHORT_FW 0 (!fon s F.HUB_MODE_REC_CLOSED 0) |> fset F.LDG_STATUS_FW_ACTIVE 0
    |> onFw (fun _ => { fwReset with kind := if fon s F.HUB_MODE_REC_CLOSED 0 then .full else .short, stage := .t0, t0 := s.stamp
                                     eNeed := fget s F.LDG_ENEED_UJ 0 })) = v
  have hm : keptBut v (setMode .freewheel v) [.mode, .regs, .life, .mcv, .rcd] := by simp
  have huv : keptBut u v [.regs, .fw] := by rw [← hv]; simp
  have hfw : (setMode .freewheel v).fw = v.fw := agree_of_kept hm .fw
  have hcache : (setMode .freewheel v).cache = u.cache := (agree_of_kept hm .cache).trans (agree_of_kept huv .cache)
  have hmode : v.mode = s.mode := (agree_of_kept huv .mode).trans (agree_of_kept hk .mode)
  refine ⟨setMode_mode .., ?_, ?_, ?_, ?_, ?_, ?_, ?_, ?_, ?_, ?_, ?_, ?_⟩
  · rw [hfw, ← hv]
    rfl
  · rw [hfw, ← hv]
    rfl
  · rw [hfw, ← hv]
    simp [fon]
  · rw [fget_setMode_of_below _ (by decide) (by decide), ← hv]
    simp (disch := decide) [fget_fset_same]
  · rw [fget_setMode_prev, hmode]
  · rw [show (setMode .freewheel v).seq = u.seq from (agree_of_kept hm .seq).trans (agree_of_kept huv .seq), hpend]
  · exact (agree_of_kept hm .gtc).trans ((agree_of_kept huv .gtc).trans (agree_of_kept hk .gtc))
  · exact (agree_of_kept hm .med).trans ((agree_of_kept huv .med).trans (agree_of_kept hk .med))
  · exact (agree_of_kept hm .sched).trans ((agree_of_kept huv .sched).trans (agree_of_kept hk .sched))
  · rw [hcache, hways]
  · rw [hcache, hdir]
  · rw [hcache, hovf]

/-! ### A drain cut short -/

/-- The rails are lowered through the sequencer's state alone, and their end takes the core's supplies with it. -/
theorem lowerRails_fw : ∃ b, (lowerRails s).fw = { s.fw with railsDown := b } := by
  have hd : (startDownAll s).fw = s.fw := agree_of_kept (ps := [.regs, .seq]) (by simp) .fw
  have hg : ∀ u, (railsGone u).fw = { u.fw with railsDown := true } := fun u => by simp [railsGone]
  unfold lowerRails
  split_ifs
  · exact ⟨_, rfl⟩
  · exact ⟨true, hg s⟩
  · exact ⟨_, rfl⟩
  · dsimp only
    split_ifs
    · exact ⟨true, by rw [hg, hd]⟩
    · exact ⟨_, hd⟩

/-- A field that no lowering of rails writes. -/
def offRails (g : Fld) (i : Nat) : Prop :=
  g.key i < 0xC0218 * 8 ∧ g.key i ≠ F.SEQ_ERR_NOTE.key 0 ∧ g.key i ≠ F.SEQ_CTRL_STATE.key 0

theorem fget_cancelEnables {g : Fld} {i : Nat} (h : offRails g i) : fget (cancelEnables s) g i = fget s g i := by
  have hstep : ∀ (c : Nat) (u : State), fget (fclr F.SEQ_CHn_STATUS_RETRYING c u) g i = fget u g i := fun c u => by
    have hk : F.SEQ_CHn_STATUS_RETRYING.key c = (0xC0218 + 0x20 * c) * 8 + 6 := rfl
    obtain ⟨hlt, -⟩ := h
    exact fget_fclr_other _ _ _ _ _ (by omega)
  unfold cancelEnables
  rw [fget_onSeq, fget_forEach hstep, fget_when]
  simp [fget_fset_other _ _ _ _ _ h.2.1]

theorem fget_startDownAll {g : Fld} {i : Nat} (h : offRails g i) : fget (startDownAll s) g i = fget s g i := by
  have hd : ∀ (d : PowerDown) (u : State), fget (stepDown d u).2 g i = fget u g i := fun d u => by
    unfold stepDown
    split <;> rfl
  have hs : ∀ (v : Nat) (u : State), fget (fput F.SEQ_CTRL_STATE 0 v u) g i = fget u g i := fun v u => fget_fput_other _ _ _ _ _ _ h.2.2
  have hdown := hd ⟨.all, logTargets (cancelEnables s), none, 0⟩ (cancelEnables s)
  unfold startDownAll
  dsimp only
  generalize stepDown _ _ = r at hdown
  obtain ⟨_ | d, s2⟩ := r
  · rw [hs, fget_onSeq, hdown, fget_cancelEnables h]
  · rw [hs, fget_onSeq, hdown, fget_cancelEnables h]

theorem fget_lowerRails {g : Fld} {i : Nat} (h : offRails g i) : fget (lowerRails s) g i = fget s g i := by
  have hg : ∀ u, fget (railsGone u) g i = fget u g i := fun u => by simp [railsGone]
  unfold lowerRails
  split_ifs
  · rfl
  · exact hg s
  · rfl
  · dsimp only
    split_ifs
    · rw [hg, fget_startDownAll h]
    · exact fget_startDownAll h

/-- What holds of a table's default and of every image holds of the mapped table. -/
theorem tabGet_tabMap_of {α : Type} [DecidableEq α] {d : α} {f : Nat → α → α} {P : α → Prop} (hd : P d) (hf : ∀ k v, P (f k v)) (n : Nat) :
    ∀ t : Tab α, P (tabGet d (tabMap d f t) n) := by
  intro t
  induction t with
  | nil => exact hd
  | cons x t ih =>
    obtain ⟨k, v⟩ := x
    simp only [tabMap]
    split
    · exact ih
    · simp only [tabGet]
      split
      · exact hf k v
      · exact ih

/-- No bank runs a program. -/
theorem abandonPrograms_prog (n : Nat) : (bankSt (abandonPrograms s) n).prog = none :=
  tabGet_tabMap_of (d := bankReset) (P := fun b : BankSt => b.prog = none) rfl (fun _ _ => rfl) n s.sched.banks

/-- What a drain that loses its hold-up leaves, before its record and its rails. -/
def drainCut (s : State) : State :=
  s |> fset F.SEQ_IN_STATUS_HOLD_LOW 0 |> abandonPrograms |> onFw (fun f => { f with cutShort := true, stage := .lowering })
    |> fset F.LDG_ERR_SHORT_FW 0 |> fset F.SEQ_ERR_HOLD_LOW_FW 0 |> onHost (fun h => { h with quiesced := true })

/-- A drain that loses its hold-up ends there: what it has not sealed is not sealed. -/
theorem holdUv_of_draining (hm : s.mode = .freewheel) (hst : s.fw.stage = .draining) :
    holdUv s = tryEndFw (lowerRails (powerDownRecord (drainCut s))) := by
  have h0 : (FwStage.draining == FwStage.t0) = false := rfl
  have hr : (FwStage.draining != FwStage.recording) = true := rfl
  simp [holdUv, aonOn, hm, onHoldUp, hst, h0, hr, drainCut]

theorem drainCut_parts : (drainCut s).mode = s.mode ∧ (drainCut s).fw = { s.fw with cutShort := true, stage := .lowering }
    ∧ (drainCut s).sched = (abandonPrograms s).sched ∧ (drainCut s).med = { s.med with ckptNow := none } := by
  simp [drainCut, abandonPrograms]

theorem drainCut_shows : fget (drainCut s) F.SEQ_IN_STATUS_HOLD_LOW 0 = 1 ∧ fget (drainCut s) F.LDG_ERR_SHORT_FW 0 = 1
    ∧ fget (drainCut s) F.SEQ_ERR_HOLD_LOW_FW 0 = 1 := by
  simp (disch := decide) [drainCut, abandonPrograms, fget_fset_other, fget_fset_same]

theorem tryEndFw_of_freewheel (hm : s.mode = .freewheel) : tryEndFw s = s := by
  simp [tryEndFw, tryHold, hm]

/-- What a command's effect keeps, its step keeps. -/
theorem keptBut_of_effect (hg : gtcOk s) {t : State} {ps : List Part} (h : keptBut (stampNow s) t (.stamp :: ps)) :
    keptBut s (settle s t) ps := keptBut_settle hg (keptBut_trans (keptBut_stampNow s ps) h)

/-! ### The inputs -/

theorem vinRise_of_bad (hm : s.mode ≠ .off) (h : fget s F.SEQ_IN_STATUS_VIN_GOOD 0 = 0) :
    vinRise s = (s |> fclr F.SEQ_IN_STATUS_VIN_LOW 0 |> fset F.SEQ_IN_STATUS_VIN_GOOD 0 |> inputBack) := by
  simp [vinRise, aonOn, hm, fon, h]

theorem inputBack_regs : (inputBack s).regs = s.regs := by
  unfold inputBack
  split <;> rfl

theorem fget_inputBack (g : Fld) (i : Nat) : fget (inputBack s) g i = fget s g i := by simp [fget, inputBack_regs]

theorem inputBack_of_good (h : fget s F.SEQ_IN_STATUS_VIN_GOOD 0 = 1) (hp : fget s F.SEQ_IN_STATUS_PWRFAIL 0 = 0) :
    (inputBack s).life = { s.life with goodSince := s.gtc } := by
  simp [inputBack, inputGood, fon, h, hp]

/-- A loss of the input in a mode that has the core's work to save is a freewheel. -/
theorem inputFails_entered (kind : Nat) (h : s.mode = .ramp ∨ s.mode = .recover ∨ s.mode = .service ∨ s.mode = .maintenance) :
    freewheelEntered s (inputFails kind s) := by
  have he : inputFails kind s = enterFreewheel kind s := by
    rcases h with h | h | h | h <;> simp [inputFails, h]
  rw [he]
  exact enterFreewheel_entered kind

end

/-- Settles O28: each input shows at its pin, and a trip enters the freewheel as the mode and REC_CLOSED say. -/
theorem inputEventsShowAndTrip : Obligations.InputEventsShowAndTrip := by
  unfold Obligations.InputEventsShowAndTrip
  intro s x hg hm tripped
  have hon : aonOn s = true := by simp [aonOn, hm]
  have hlt := laterOf_lt hg x
  have trips : ∀ {k : State → State} {u : State} {kind : Nat}, k (stampNow s) = inputFails kind u →
      (s.mode = .ramp ∨ s.mode = .recover ∨ s.mode = .service ∨ s.mode = .maintenance) →
      keptBut (advanceTo x s) u [.regs] → u.stamp = x % 2 ^ 64 →
      (∀ f ∈ [F.HUB_MODE_REC_CLOSED], fget u f 0 = fget s f 0) → ∃ t, run k s = .next t ∧ tripped t := by
    intro k u kind hk hmode hu hst hrec
    have hrec : fget u F.HUB_MODE_REC_CLOSED 0 = fget s F.HUB_MODE_REC_CLOSED 0 := hrec _ (by simp)
    rw [advanceTo_of_on hm] at hu
    have hum : u.mode = s.mode := agree_of_kept hu .mode
    have hug : u.gtc = max s.gtc (x % 2 ^ 64) := agree_of_kept hu .gtc
    have hums : u.med = s.med := agree_of_kept hu .med
    have huc : u.cache = s.cache := agree_of_kept hu .cache
    have hus : u.sched = s.sched := agree_of_kept hu .sched
    obtain ⟨h1, h2, h3, h4, h5, h6, h7, h8, h9, h10, h11, h12, h13⟩ := inputFails_entered (s := u) kind (by rw [hum]; exact hmode)
    refine ⟨_, run_of_effect hk, h1, ?_, h2, h3.trans hst, ?_, h5, ?_, h7, h9.trans hums, ?_, ?_, ?_, h10.trans hus⟩
    · rw [settle_gtc, h8, hug, Nat.mod_eq_of_lt hlt]
    · rw [settle_fw, h4, hrec]
    · rw [fget_settle, h6, hum]
    · rw [settle_cache, h11, huc]
    · rw [settle_cache, h12, huc]
    · rw [settle_cache, h13, huc]
  refine ⟨fun hready hauto hsince => ?warn, ?warnClear, fun hbad => ?rise, fun hgood => ?fall, ?back,
    fun hmode => ⟨?vinFall, fun hen => ?pwrfail⟩, fun hen => ?ignored, fun hnf hnb => ?holdUv, fun hmode hst => ?cut⟩
  case warn =>
    have he : vaonWarn (stampNow s) = startAutostore (fset F.SBG_STATUS_VAON_WARN 0 (stampNow s)) := by
      simp [vaonWarn, hon, hready, fon, hauto]
    have hne : (s.sbg.since.map (fun y => y.1)).isEmpty = false := by simpa using hsince
    simp only [startAutostore, fset_sbg, stampNow_sbg, hne, when_false] at he
    refine ⟨_, run_of_effect he, ?_, ?_, ?_, ?_, ?_⟩
    · simp (disch := decide) [fbit, fget_fput_other, fget_fset_same]
    · simp only [fget_settle, fbit, fget_fput_same]
      rfl
    · simp
    · simp
    · exact keptBut_of_effect hg (by simp)
  case warnClear =>
    have he : (fun s => if aonOn s then fclr F.SBG_STATUS_VAON_WARN 0 s else s) (stampNow s) = fclr F.SBG_STATUS_VAON_WARN 0 (stampNow s) := by
      simp [hon]
    exact ⟨_, run_of_effect he, by simp [fclr], by simp, keptBut_of_effect hg (by simp)⟩
  case rise =>
    refine ⟨_, run_of_effect (vinRise_of_bad hm hbad), ?_, ?_, fun hp => ?_, ?_, ?_⟩
    · simp (disch := decide) [fget_inputBack, fget_fset_other]
    · simp (disch := decide) [fget_inputBack, fget_fset_same]
    · rw [settle_life, inputBack_of_good]
      · rfl
      · simp (disch := decide) [fget_fset_same]
      · simpa (disch := decide) [fget_fset_other, fclr, fget_fput_other] using hp
    · simp [regsKept_iff_of_regs inputBack_regs]
    · exact keptBut_of_effect hg (by simp)
  case fall =>
    have he : vinRise (stampNow s) = fclr F.SEQ_IN_STATUS_VIN_GOOD 0 (stampNow s) := by simp [vinRise, hon, fon, hgood]
    exact ⟨_, run_of_effect he, by simp [fclr], by simp, keptBut_of_effect hg (by simp)⟩
  case back =>
    have he : pwrfailBack (stampNow s) = (fclr F.SEQ_IN_STATUS_PWRFAIL 0 (stampNow s)
        |> when (fon s F.SEQ_IN_STATUS_PWRFAIL 0 && fon s F.SEQ_IN_CFG_PWRFAIL_EN 0) inputBack) := by simp [pwrfailBack, hon]
    refine ⟨_, run_of_effect he, ?_, ?_, keptBut_of_effect hg (by simp)⟩
    · simp [fget_when, fget_inputBack]
    · simp [regsKept_iff_of_regs inputBack_regs]
  case vinFall =>
    have he : vinFall x (stampNow s) = inputFails 8 (advanceTo x s |> fset F.SEQ_IN_STATUS_VIN_LOW 0 |> fclr F.SEQ_IN_STATUS_VIN_GOOD 0) := by
      simp [vinFall, hon]
      rfl
    exact trips he hmode (by simp) rfl (by simp (disch := decide) [fclr, fget_fput_other, fget_fset_other])
  case pwrfail =>
    have he : pwrfail x (stampNow s) = inputFails 9 (advanceTo x s |> fset F.SEQ_IN_STATUS_PWRFAIL 0) := by
      simp [pwrfail, hon, fon, hen]
      rfl
    exact trips he hmode (by simp) rfl (by simp (disch := decide) [fget_fset_other])
  case ignored =>
    have he : pwrfail x (stampNow s) = fset F.SEQ_IN_STATUS_PWRFAIL 0 (advanceTo x s) := by
      simp [pwrfail, hon, fon, hen]
      rfl
    refine ⟨_, run_of_effect he, by simp (disch := decide) [fget_fset_same], ?_, ?_, ?_⟩
    · rw [advanceTo_of_on hm]
      exact Nat.mod_eq_of_lt hlt
    · simp [regsKept_iff_of_regs (show (advanceTo x s).regs = s.regs from rfl)]
    · exact ⟨rfl, rfl, rfl, rfl, fun p hp => by cases p <;> simp_all [agree, advanceTo]⟩
  case holdUv =>
    have hup : onHoldUp s = false := by simp [onHoldUp, hnf, hnb]
    have he : holdUv (stampNow s) = fbit F.SEQ_IN_STATUS_HOLD_LOW 0 (!fon s F.SEQ_IN_STATUS_HOLD_LOW 0) (stampNow s) := by
      simp [holdUv, hon, show onHoldUp (stampNow s) = false from hup]
    refine ⟨_, run_of_effect he, ?_, by simp, keptBut_of_effect hg (by simp)⟩
    rw [fget_settle, fbit, fget_fput_same]
    by_cases h0 : fget s F.SEQ_IN_STATUS_HOLD_LOW 0 = 0
    · rw [if_pos h0, fon, h0]
      rfl
    · rw [if_neg h0, fon, bne_iff_ne.mpr h0]
      rfl
  case cut =>
    have he := holdUv_of_draining (s := stampNow s) hmode hst
    obtain ⟨hmv, hfv, hsv, hmedv⟩ := drainCut_parts (s := stampNow s)
    obtain ⟨hlow, hshort, hlowfw⟩ := drainCut_shows (s := stampNow s)
    generalize drainCut (stampNow s) = v at he hmv hfv hsv hmedv hlow hshort hlowfw
    have hk : keptBut v (lowerRails (powerDownRecord v)) [.regs, .pins, .host, .fw, .seq, .outbox, .rcd] := by simp
    have hr : keptBut v (powerDownRecord v) [.rcd] := by simp
    have hregs : (powerDownRecord v).regs = v.regs ∧ (powerDownRecord v).setAt = v.setAt := agree_of_kept hr .regs
    obtain ⟨b, hfw⟩ := lowerRails_fw (s := powerDownRecord v)
    have hml : (lowerRails (powerDownRecord v)).mode = .freewheel := (agree_of_kept hk .mode).trans (hmv.trans hmode)
    have hreg : ∀ {g : Fld}, offRails g 0 → fget (lowerRails (powerDownRecord v)) g 0 = fget v g 0 := fun h => by
      rw [fget_lowerRails h, fget, fget, hregs.1]
    rw [show (powerDownRecord v).fw = v.fw from agree_of_kept hr .fw, hfv] at hfw
    rw [tryEndFw_of_freewheel hml] at he
    have hsl : (lowerRails (powerDownRecord v)).sched = (abandonPrograms (stampNow s)).sched := (agree_of_kept hk .sched).trans hsv
    refine ⟨_, run_of_effect he, hml, ?_, ?_, ?_, ?_, ?_, fun n => ?_, (agree_of_kept hk .med).trans hmedv, ?_, ?_, ?_⟩
    · rw [settle_fw, hfw]
    · rw [settle_fw, hfw]
    · rw [settle_fw, hfw]
      rfl
    · rw [settle_sched, hsl]
      rfl
    · rw [settle_sched, hsl]
      rfl
    · rw [bankSt, settle_sched, hsl]
      exact abandonPrograms_prog n
    · rw [fget_settle, hreg (by unfold offRails; decide), hlow]
    · rw [fget_settle, hreg (by unfold offRails; decide), hshort]
    · rw [fget_settle, hreg (by unfold offRails; decide), hlowfw]

end Sys2Proof.Machine
end

section
/-! SUPPORT. Register fields that lie below what an operation writes; the entry to BRAKE. -/
namespace Sys2Proof.Machine

set_option Elab.async false

section
variable {s₀ s t u : State} {a : Nat}

/-! ### Fields below an address -/

/-- Every register field below the byte address `a` keeps its value. -/
def keptBelow (a : Nat) (s t : State) : Prop := ∀ (g : Fld) (i : Nat), g.key i < a * 8 → fget t g i = fget s g i

theorem keptBelow.fget (h : keptBelow a s t) {g : Fld} {i : Nat} (hi : g.key i < a * 8 := by decide) : fget t g i = fget s g i := h g i hi

theorem keptBelow.trans (h : keptBelow a s t) (k : keptBelow a t u) : keptBelow a s u := fun g i hi => (k g i hi).trans (h g i hi)

theorem keptBelow_iff_of_regs {t : State} (h : t.regs = s.regs) : keptBelow a s₀ t ↔ keptBelow a s₀ s := by
  simp [keptBelow, Machine.fget, h]

theorem keptBelow_of_kept {ps : List Part} (h : keptBut s t ps) (hp : Part.regs ∉ ps := by decide) : keptBelow a s t := fun g i _ => by
  obtain ⟨hregs, -⟩ := agree_of_kept h .regs hp
  rw [Machine.fget, hregs, Machine.fget]

@[simp] theorem keptBelow_self : keptBelow a s s ↔ True := iff_true_intro fun _ _ _ => rfl

@[simp] theorem keptBelow_fput (f : Fld) (i v : Nat) (h : a ≤ f.base) : keptBelow a s₀ (fput f i v s) ↔ keptBelow a s₀ s := by
  refine forall_congr' fun g => forall_congr' fun j => forall_congr' fun hg => ?_
  have hk : f.key i = (f.base + f.stride * i) * 8 + f.lo := rfl
  rw [fget_fput_other f g i j v s (by have := Nat.zero_le (f.stride * i); omega)]

@[simp] theorem keptBelow_fset (f : Fld) (i : Nat) (h : a ≤ f.base) : keptBelow a s₀ (fset f i s) ↔ keptBelow a s₀ s := keptBelow_fput f i 1 h
@[simp] theorem keptBelow_fclr (f : Fld) (i : Nat) (h : a ≤ f.base) : keptBelow a s₀ (fclr f i s) ↔ keptBelow a s₀ s := keptBelow_fput f i 0 h
@[simp] theorem keptBelow_fbit (f : Fld) (i : Nat) (b : Bool) (h : a ≤ f.base) : keptBelow a s₀ (fbit f i b s) ↔ keptBelow a s₀ s :=
  keptBelow_fput f i b.toNat h
@[simp] theorem keptBelow_finc (f : Fld) (i : Nat) (h : a ≤ f.base) : keptBelow a s₀ (finc f i s) ↔ keptBelow a s₀ s := keptBelow_fput f i _ h

@[simp] theorem keptBelow_when (b : Bool) (f : State → State) :
    keptBelow a s₀ (when b f s) ↔ if b then keptBelow a s₀ (f s) else keptBelow a s₀ s := by
  cases b <;> rfl

@[simp] theorem keptBelow_ite {c : Prop} [Decidable c] (t u : State) :
    keptBelow a s₀ (if c then t else u) ↔ if c then keptBelow a s₀ t else keptBelow a s₀ u := by
  split <;> rfl

@[simp] theorem keptBelow_onHost (f : HostPort → HostPort) : keptBelow a s₀ (onHost f s) ↔ keptBelow a s₀ s := keptBelow_iff_of_regs rfl
@[simp] theorem keptBelow_onCache (f : Cache → Cache) : keptBelow a s₀ (onCache f s) ↔ keptBelow a s₀ s := keptBelow_iff_of_regs rfl
@[simp] theorem keptBelow_onLed (f : Ledger → Ledger) : keptBelow a s₀ (onLed f s) ↔ keptBelow a s₀ s := keptBelow_iff_of_regs rfl
@[simp] theorem keptBelow_onFw (f : Freewheel → Freewheel) : keptBelow a s₀ (onFw f s) ↔ keptBelow a s₀ s := keptBelow_iff_of_regs rfl
@[simp] theorem keptBelow_onLife (f : Life → Life) : keptBelow a s₀ (onLife f s) ↔ keptBelow a s₀ s := keptBelow_iff_of_regs rfl
@[simp] theorem keptBelow_onSeq (f : Sequencer → Sequencer) : keptBelow a s₀ (onSeq f s) ↔ keptBelow a s₀ s := keptBelow_iff_of_regs rfl
@[simp] theorem keptBelow_onMbx (f : Mailbox → Mailbox) : keptBelow a s₀ (onMbx f s) ↔ keptBelow a s₀ s := keptBelow_iff_of_regs rfl
@[simp] theorem keptBelow_onPins (f : Pins → Pins) : keptBelow a s₀ (onPins f s) ↔ keptBelow a s₀ s := keptBelow_iff_of_regs rfl
@[simp] theorem keptBelow_emit (e : Emission) : keptBelow a s₀ (emit e s) ↔ keptBelow a s₀ s := keptBelow_iff_of_regs rfl
@[simp] theorem keptBelow_msix (v : Nat) : keptBelow a s₀ (msix v s) ↔ keptBelow a s₀ s := keptBelow_iff_of_regs (msix_regs ..)
@[simp] theorem keptBelow_land (type cls source flags : Nat) (fixed : Option (List Nat)) :
    keptBelow a s₀ (land type cls source flags fixed s) ↔ keptBelow a s₀ s := keptBelow_iff_of_regs (land_regs ..)

/-- A loop keeps the fields that each of its steps keeps. -/
theorem keptBelow_forEach {α : Type} {f : α → State → State} (h : ∀ x u, keptBelow a u (f x u)) (xs : List α) :
    keptBelow a s (forEach xs f s) := fun g i hi => fget_forEach (fun x u => h x u g i hi) xs

/-! ### What stops with a mode writes nothing of the hub's registers -/

@[simp] theorem keptBelow_cancelEnables : keptBelow 0xC0000 s (cancelEnables s) := by
  have hstep : ∀ (c : Nat) (u : State), keptBelow 0xC0000 u (fclr F.SEQ_CHn_STATUS_RETRYING c u) := fun c u => by
    simp (disch := decide)
  unfold cancelEnables
  simp only [keptBelow_onSeq]
  refine keptBelow.trans ?_ (keptBelow_forEach hstep _)
  simp (disch := decide)

theorem keptBelow_abortCals : keptBelow a s (abortCals s) := keptBelow_of_kept (ps := [.mcv]) (by simp)

theorem keptBelow_capInterrupt : keptBelow 0xA0000 s (capInterrupt s) := by
  have he : ∀ u, keptBelow 0xA0000 u (endCapTest u) := fun u => by simp (disch := decide) [endCapTest]
  have hr : keptBelow 0xA0000 s (capReject s) := by
    simp only [capReject]
    refine (he s).trans ?_
    simp (disch := decide)
  unfold capInterrupt
  split
  · simp
  · exact he s
  · exact he s
  · exact hr

theorem keptBelow_endFlush : keptBelow 0x80000 s (endFlush s) := by
  simp (disch := decide) [endFlush, stopFlush]

theorem keptBelow_endBg (r : RetCode) (out : List Byte) : keptBelow 0xA0000 s (endBg r out s) := by
  unfold endBg
  split
  · simp
  · simp (disch := decide)

theorem keptBelow.mono {b : Nat} (h : keptBelow a s t) (hb : b ≤ a) : keptBelow b s t := fun g i hi => h g i (by omega)

/-! ### The entry to BRAKE -/

/-- What is stopped and cancelled before BRAKE is shown. -/
def brakeStops (s : State) : State := s |> cancelEnables |> abortCals |> capInterrupt |> endFlush |> endBg ⟨0x12, 0⟩ []

theorem keptBelow_brakeStops : keptBelow 0x80000 s (brakeStops s) :=
  (keptBelow_cancelEnables.mono (by decide)).trans (keptBelow_abortCals.trans ((keptBelow_capInterrupt.mono (by decide)).trans
    (keptBelow_endFlush.trans ((keptBelow_endBg _ _).mono (by decide)))))

theorem brakeStops_lines : (brakeStops s).cache.ways = s.cache.ways ∧ (brakeStops s).cache.dir = s.cache.dir
    ∧ (brakeStops s).cache.ovf = s.cache.ovf := by
  have hk : ∀ u : State, (endBg ⟨0x12, 0⟩ [] u).cache = u.cache := fun u => agree_of_kept (ps := [.regs, .mbx, .outbox]) (by simp) .cache
  have hb : (s |> cancelEnables |> abortCals |> capInterrupt).cache = s.cache :=
    agree_of_kept (ps := [.stamp, .regs, .pins, .led, .rcd, .seq, .mcv]) (by simp) .cache
  obtain ⟨h1, h2, h3⟩ := endFlush_lines (s := s |> cancelEnables |> abortCals |> capInterrupt)
  unfold brakeStops
  rw [hk, h1, h2, h3, hb]
  exact ⟨rfl, rfl, rfl⟩

theorem brakeStops_fault : (brakeStops s).pins.fault = s.pins.fault := by
  have hc : ∀ u, (capInterrupt u).pins.fault = u.pins.fault := fun u => by
    have he : ∀ v, (endCapTest v).pins.fault = v.pins.fault := fun v => rfl
    have hr : (capReject u).pins.fault = u.pins.fault := by
      simp only [capReject]
      have hw : ∀ v : State, keptBut (endCapTest u) v [.regs, .led, .rcd] → v.pins.fault = u.pins.fault := fun v h => by
        rw [show v.pins = (endCapTest u).pins from agree_of_kept h .pins, he]
      exact hw _ (by simp)
    unfold capInterrupt
    split
    · rfl
    · exact he u
    · exact he u
    · exact hr
  have ha : (s |> cancelEnables |> abortCals).pins = s.pins := agree_of_kept (ps := [.regs, .seq, .mcv]) (by simp) .pins
  have hb : ∀ u : State, (u |> endFlush |> endBg ⟨0x12, 0⟩ []).pins = u.pins := fun u =>
    agree_of_kept (ps := [.regs, .cache, .mbx, .outbox]) (by simp) .pins
  unfold brakeStops
  rw [hb, hc, ha]

/-- A mode of which BRAKE stops the work. -/
def brakes (m : Mode) : Bool := m = .ramp || m = .recover || m = .service || m = .maintenance

/-- Does a brake of this cause, latched in this mode, drain? -/
def brakeDrains (cause : Nat) (m : Mode) : Bool := causeDrains cause && (m = .service || m = .maintenance)

/-- What BRAKE shows, starts and answers once the work has stopped. -/
def brakeShown (s : State) (drain : Bool) (u : State) : State :=
  u |> showDrain drain |> fclr F.HUB_BRAKE_SEALED 0 |> fbit F.LDG_STATUS_FW_ACTIVE 0 drain
    |> onFw (fun _ => { fwReset with kind := if drain then .brakeDrain else .none, stage := .t0, t0 := s.stamp
                                     eNeed := fget s F.LDG_ENEED_UJ 0 })
    |> onLife (fun l => { l with brakeRecord := false, step := .idle, toStandby := false })
    |> onHost (fun h => { h with mediaStatus := 2 }) |> poisonLoads

theorem latchBrake_eq (cause source : Nat) (h : brakes s.mode = true) :
    latchBrake cause source s = setMode .brake (brakeShown s (brakeDrains cause s.mode) (brakeStops (brakeNote cause source s))) := by
  unfold latchBrake
  cases hm : s.mode <;> simp [brakes, hm] at h <;> simp [brakeDrains, brakeShown, brakeStops]

/-- BRAKE latched from the state `s`: what it shows and starts, and what stays. -/
def brakeLatched (cause source : Nat) (s t : State) : Prop :=
  t.mode = .brake ∧ fget t F.HUB_BRAKE_CAUSE 0 = cause ∧ fget t F.HUB_BRAKE_SOURCE 0 = source
    ∧ fget t F.HUB_BRAKE_DRAIN 0 = (brakeDrains cause s.mode).toNat ∧ fget t F.HUB_MODE_PREV 0 = modeCode s.mode
    ∧ t.pins.fault = true ∧ t.fw.kind = (if brakeDrains cause s.mode then .brakeDrain else .none) ∧ t.fw.stage = .t0 ∧ t.fw.t0 = s.stamp
    ∧ t.gtc = s.gtc ∧ t.med = s.med ∧ t.cache.ways = s.cache.ways ∧ t.cache.dir = s.cache.dir ∧ t.cache.ovf = s.cache.ovf
    ∧ t.host.ras = s.host.ras

/-- The fault's own marks, before it is told to the ring, the host and the log. -/
def brakeMarks (cause source : Nat) (s : State) : State :=
  s |> firstFault 10 source cause |> fput F.HUB_BRAKE_CAUSE 0 cause |> fput F.HUB_BRAKE_SOURCE 0 source
    |> onPins (fun p => { p with fault := true })

theorem brakeNote_of_marks (cause source : Nat) : keptBut (brakeMarks cause source s) (brakeNote cause source s) [.regs, .host, .rcd,
      .outbox]
    ∧ keptBelow 0x60000 (brakeMarks cause source s) (brakeNote cause source s)
    ∧ (brakeNote cause source s).host.ras = (brakeMarks cause source s).host.ras := by
  unfold brakeNote brakeMarks
  generalize (s |> firstFault 10 source cause |> fput F.HUB_BRAKE_CAUSE 0 cause |> fput F.HUB_BRAKE_SOURCE 0 source
    |> onPins (fun p => { p with fault := true })) = u
  have hr : ∀ v : State, (ringOut 3 (cause + source * 256) v).regs = v.regs := fun v => by unfold ringOut; split <;> rfl
  have hh : ∀ v : State, (ringOut 3 (cause + source * 256) v).host = v.host := fun v => by unfold ringOut; split <;> rfl
  have hp : ∀ v : State, (postModule 3 0 7 source v).regs = v.regs := fun v => postModule_regs ..
  have hph : ∀ v : State, (postModule 3 0 7 source v).host.ras = v.host.ras := fun v => by rw [postModule, postEvent_host]
  refine ⟨by simp, ?_, ?_⟩
  · simp (disch := decide) [keptBelow_iff_of_regs (hr _), keptBelow_iff_of_regs (hp _)]
  · cases s.host.viralEnable && s.host.linkUp <;> cases s.host.linkUp <;> simp [hph, hh]

theorem brakeNote_shows (cause source : Nat) (hc : cause < 256) (hs : source < 4096) :
    fget (brakeNote cause source s) F.HUB_BRAKE_CAUSE 0 = cause ∧ fget (brakeNote cause source s) F.HUB_BRAKE_SOURCE 0 = source
      ∧ (brakeNote cause source s).pins.fault = true := by
  obtain ⟨hk, hb, -⟩ := brakeNote_of_marks (s := s) cause source
  refine ⟨?_, ?_, ?_⟩
  · rw [hb.fget, brakeMarks, fget_onPins, fget_fput_other _ _ _ _ _ _ (by decide), fget_fput_same]
    exact Nat.mod_eq_of_lt hc
  · rw [hb.fget, brakeMarks, fget_onPins, fget_fput_same]
    exact Nat.mod_eq_of_lt hs
  · rw [show (brakeNote cause source s).pins = _ from agree_of_kept hk .pins]
    rfl

theorem kept_brakeShown (drain : Bool) : keptBut u (brakeShown s drain u) [.regs, .fw, .life, .host, .sched] := by
  simp [brakeShown]

theorem brakeShown_shows (drain : Bool) : fget (brakeShown s drain u) F.HUB_BRAKE_CAUSE 0 = fget u F.HUB_BRAKE_CAUSE 0
    ∧ fget (brakeShown s drain u) F.HUB_BRAKE_SOURCE 0 = fget u F.HUB_BRAKE_SOURCE 0
    ∧ fget (brakeShown s drain u) F.HUB_BRAKE_DRAIN 0 = drain.toNat := by
  have hp : ∀ (v : State) (g : Fld), fget (poisonLoads v) g 0 = fget v g 0 := fun v g => rfl
  have hw : drain.toNat % 2 ^ F.HUB_BRAKE_DRAIN.width = drain.toNat := by cases drain <;> rfl
  simp (disch := decide) [brakeShown, showDrain, hp, fbit, fget_fclr_other, fget_fput_other, hw]

theorem latchBrake_latched (cause source : Nat) (hc : cause < 256) (hs : source < 4096) (h : brakes s.mode = true) :
    brakeLatched cause source s (latchBrake cause source s) := by
  rw [latchBrake_eq cause source h]
  obtain ⟨hcause, hsource, hfault⟩ := brakeNote_shows (s := s) cause source hc hs
  obtain ⟨hnk, -, hnras⟩ := brakeNote_of_marks (s := s) cause source
  have hmk : keptBut s (brakeMarks cause source s) [.regs, .pins, .rcd, .outbox] := by simp [brakeMarks]
  have hn : keptBut s (brakeNote cause source s) [.regs, .pins, .host, .rcd, .outbox] := by simp
  have hnras : (brakeNote cause source s).host.ras = s.host.ras := hnras.trans (congrArg HostPort.ras (agree_of_kept hmk .host))
  generalize brakeNote cause source s = n at *
  obtain ⟨hways, hdir, hovf⟩ := brakeStops_lines (s := n)
  have hpf := brakeStops_fault (s := n)
  have hsb := keptBelow_brakeStops (s := n)
  have hsk : keptBut n (brakeStops n) [.stamp, .regs, .pins, .led, .rcd, .outbox, .seq, .mcv, .cache, .mbx] := by simp [brakeStops]
  generalize brakeStops n = u at *
  generalize hd : brakeDrains cause s.mode = drain
  have hvk := kept_brakeShown (s := s) (u := u) drain
  have hfw : (brakeShown s drain u).fw = { fwReset with kind := if drain then .brakeDrain else .none, stage := .t0, t0 := s.stamp
                                                        eNeed := fget s F.LDG_ENEED_UJ 0 } := rfl
  have hvras : (brakeShown s drain u).host.ras = u.host.ras := rfl
  obtain ⟨hvc, hvs, hvd⟩ := brakeShown_shows (s := s) (u := u) drain
  generalize brakeShown s drain u = v at *
  have hm : keptBut v (setMode .brake v) [.mode, .regs, .life, .mcv, .rcd] := by simp
  have hcache : (setMode .brake v).cache = u.cache := (agree_of_kept hm .cache).trans (agree_of_kept hvk .cache)
  have hmode : v.mode = s.mode := (agree_of_kept hvk .mode).trans ((agree_of_kept hsk .mode).trans (agree_of_kept hn .mode))
  have hfwm : (setMode .brake v).fw = v.fw := agree_of_kept hm .fw
  have hnc : n.cache = s.cache := agree_of_kept hn .cache
  refine ⟨setMode_mode .., ?_, ?_, ?_, ?_, ?_, ?_, ?_, ?_, ?_, ?_, ?_, ?_, ?_, ?_⟩
  · rw [fget_setMode_of_below _ (by decide) (by decide), hvc, hsb.fget, hcause]
  · rw [fget_setMode_of_below _ (by decide) (by decide), hvs, hsb.fget, hsource]
  · rw [fget_setMode_of_below _ (by decide) (by decide), hvd, hd]
  · rw [fget_setMode_prev, hmode]
  · rw [show (setMode .brake v).pins = u.pins from (agree_of_kept hm .pins).trans (agree_of_kept hvk .pins), hpf, hfault]
  · rw [hfwm, hfw, hd]
  · rw [hfwm, hfw]
  · rw [hfwm, hfw]
  · exact (agree_of_kept hm .gtc).trans ((agree_of_kept hvk .gtc).trans ((agree_of_kept hsk .gtc).trans (agree_of_kept hn .gtc)))
  · exact (agree_of_kept hm .med).trans ((agree_of_kept hvk .med).trans ((agree_of_kept hsk .med).trans (agree_of_kept hn .med)))
  · rw [hcache, hways, hnc]
  · rw [hcache, hdir, hnc]
  · rw [hcache, hovf, hnc]
  · rw [show (setMode .brake v).host = v.host from agree_of_kept hm .host, hvras,
      show u.host = n.host from agree_of_kept hsk .host, hnras]

end

end Sys2Proof.Machine
end

section
/-! PROOF. MAINTENANCE and back, and the hub's and the port's fatal faults (R52, R200, R202, R203). -/
namespace Sys2Proof.Machine

set_option Elab.async false

section
variable {s t u : State}

/-! ### Scratch takes effect without moving a media line -/

/-- The media's lines, and what the host is told of the media. -/
def mediaView (s : State) : Tab MLine × Nat := (s.med.lines, s.host.mediaStatus)

theorem mediaView_of_kept {ps : List Part} (h : keptBut s t ps) (hm : Part.med ∉ ps := by decide) (hh : Part.host ∉ ps := by decide) :
    mediaView t = mediaView s := by
  rw [mediaView, show t.med = s.med from agree_of_kept h .med hm, show t.host = s.host from agree_of_kept h .host hh, mediaView]

theorem mediaView_postEvent (log kind sub dpa cls source : Nat) : mediaView (postEvent log kind sub dpa cls source s) = mediaView s := by
  have hk : keptBut s (postEvent log kind sub dpa cls source s) [.host, .rcd, .outbox] := by simp
  rw [mediaView, postEvent_host, show (postEvent log kind sub dpa cls source s).med = s.med from agree_of_kept hk .med, mediaView]

theorem mediaView_postOrQueue (log kind sub dpa cls source : Nat) :
    mediaView (postOrQueue log kind sub dpa cls source s) = mediaView s := by
  unfold postOrQueue
  split
  · exact mediaView_postEvent ..
  · rfl

theorem mediaView_addPoisonLine (line source : Nat) : mediaView (addPoisonLine line source s) = mediaView s := by
  simp only [addPoisonLine, addPoison, mediaView, onHost]
  split_ifs <;> rfl

theorem mediaView_sbStore (a : Nat) (bs : List Byte) : mediaView (sbStore a bs s) = mediaView s :=
  mediaView_of_kept (ps := [.sbg]) (by simp)

theorem mediaView_dropLoc (loc : Nat) : mediaView (dropLoc loc s) = mediaView s := mediaView_of_kept (ps := [.cache]) (by simp)

theorem mediaView_journalAppend (e : XEntry) : mediaView (journalAppend e s) = mediaView s := by
  have hw : ∀ (b : Bool) (v : State), mediaView (when b (onMed (fun m => { m with ckptDue := true })) v) = mediaView v := fun b v => by
    cases b <;> rfl
  simp only [journalAppend]
  rw [hw, mediaView_sbStore]
  rfl

theorem mediaView_poisonDead (line : Nat) : mediaView (poisonDead line s) = mediaView s := by
  have hh : ∀ v : State, mediaView (onHost (fun h => { h with takingPoison := true }) v) = mediaView v := fun v => rfl
  have hx : ∀ (e : XEntry) (v : State), mediaView (onMed (fun m => { m with xtab := xPut e m.xtab }) v) = mediaView v := fun e v => rfl
  simp only [poisonDead]
  rw [mediaView_postOrQueue, mediaView_addPoisonLine, hh]
  cases xentry s (placeOf s line).region (slotOfBlock s (placeOf s line).region (placeOf s line).lblock)
  all_goals
    dsimp only
    split
    · simp [mediaView_dropLoc, hx, mediaView_journalAppend]
    · simp [hx, mediaView_journalAppend]

theorem mediaView_replacePinned (w : Way) : mediaView (replacePinned w s) = mediaView s := by
  unfold replacePinned
  split
  · exact mediaView_of_kept (ps := [.cache]) (by simp)
  · exact mediaView_poisonDead w.line

theorem mediaView_forEach {α : Type} {f : α → State → State} (h : ∀ x v, mediaView (f x v) = mediaView v) (xs : List α) (v : State) :
    mediaView (forEach xs f v) = mediaView v := forEach_keeps mediaView f h xs v

theorem mediaView_applyCarve : mediaView (applyCarve s) = mediaView s := by
  simp only [applyCarve]
  refine (mediaView_forEach (f := replacePinned) (fun w v => mediaView_replacePinned w) _ _).trans ?_
  refine (mediaView_forEach (f := backScratch) (fun l v => mediaView_of_kept (ps := [.cache]) (by simp)) _ _).trans ?_
  refine (mediaView_of_kept (ps := [.regs, .sbg]) (by simp; exact keptBut_refl _ _)).trans ?_
  exact mediaView_forEach (f := dropLoc) (fun loc v => mediaView_dropLoc loc) _ _

theorem regs_of_kept {ps : List Part} (h : keptBut s t ps)
    (hp : Part.regs ∉ ps := by decide) : t.regs = s.regs := (agree_of_kept h .regs hp).1

theorem storeCacheState_regs : (storeCacheState s).regs = s.regs := regs_of_kept (ps := [.sbg]) (by simp)
theorem storeTndState_regs : (storeTndState s).regs = s.regs := regs_of_kept (ps := [.sbg]) (by simp)

theorem keptBelow_applyCarve : keptBelow 0x80000 s (applyCarve s) := by
  have hrest : ∀ {α : Type} {f : α → State → State}, (∀ x v, keptBut v (f x v) [.host, .cache, .med, .rcd, .sbg, .outbox]) →
      ∀ (xs : List α) v, keptBelow 0x80000 v (forEach xs f v) := fun h xs v => keptBelow_forEach (fun x w => keptBelow_of_kept (h x w)) xs
  simp only [applyCarve]
  refine keptBelow.trans ?_ (hrest (f := replacePinned) (fun _ _ => by simp) _ _)
  refine keptBelow.trans ?_ (hrest (f := backScratch) (fun _ _ => by simp) _ _)
  rw [keptBelow_when]
  split
  · rw [keptBelow_iff_of_regs storeCacheState_regs, keptBelow_fput _ _ _ (by decide)]
    exact hrest (fun _ _ => by simp) _ _
  · exact hrest (fun _ _ => by simp) _ _

theorem keptBelow_holdOwn : keptBelow 0x80000 s (holdOwn s) := by
  unfold holdOwn setTnd
  split_ifs
  · simp
  · rw [keptBelow_iff_of_regs storeTndState_regs, keptBelow_fput _ _ _ (by decide), keptBelow_self]
    trivial
  · simp

/-- A command whose frame names the counter settles without more. -/
theorem keptBut_settle_gtc {ps : List Part} (h : keptBut s t (.gtc :: .stamp :: ps)) : keptBut s (settle s t) (.gtc :: ps) := by
  refine ⟨rfl, rfl, rfl, rfl, fun p hp => ?_⟩
  by_cases hs : p = .stamp
  · subst hs
    rfl
  · have k := agree_of_kept h p (by simpa [hs] using hp)
    cases p <;> simp_all [agree]

/-! ### The change of mode -/

theorem capModeChange_of_idle (h : s.led.test.phase = .idle) : capModeChange s = s := by
  simp [capModeChange, capRunning, capInterrupt, h]

/-- The tick in which a mode that was asked for is entered. -/
def acceptedTick (s : State) : Nat := max ((s.life.acceptedAt / 250 + 1) * 250) ((s.gtc + 249) / 250 * 250) % 2 ^ 64

theorem enterMaintenance_of_asked (hm : s.mode = .service) (h : s.life.toMaintenance = true) (hi : s.led.test.phase = .idle) :
    enterMaintenance s = (nextTickAfter s.life.acceptedAt s |> onLife (fun l => { l with toMaintenance := false }) |> setMode .maintenance
      |> onHost (fun h => { h with mediaStatus := 3 }) |> postModule 0 1 7 srcHub |> modeReached 5) := by
  have hc : capModeChange (nextTickAfter s.life.acceptedAt s |> onLife (fun l => { l with toMaintenance := false }))
      = (nextTickAfter s.life.acceptedAt s |> onLife (fun l => { l with toMaintenance := false })) := capModeChange_of_idle hi
  simp only [enterMaintenance, hm, h, decide_true, Bool.and_self, if_true, hc]

theorem returnService_of_asked (hm : s.mode = .maintenance) (h : s.life.toService = true) (hr : serviceReady s = true)
    (hi : s.led.test.phase = .idle) :
    returnService s = (nextTickAfter s.life.acceptedAt s |> onLife (fun l => { l with toService := false }) |> setMode .service
      |> applyCarve |> holdOwn |> onHost (fun h => { h with mediaStatus := 1 }) |> when s.host.activeOwed setActive
      |> postModule 0 1 7 srcHub |> dueCkpt |> requeueClrs |> modeReached 4) := by
  have hc : capModeChange (nextTickAfter s.life.acceptedAt s |> onLife (fun l => { l with toService := false }))
      = (nextTickAfter s.life.acceptedAt s |> onLife (fun l => { l with toService := false })) := capModeChange_of_idle hi
  simp only [returnService, hm, h, hr, decide_true, Bool.and_self, if_true, hc]

/-- A die's packet is remembered as sent; nothing else of the media changes. -/
theorem sendDie_med (op w d bank row arg : Nat) : (sendDie op w d bank row arg s).med = { s.med with sent := (sendDie op w d bank row arg s).med.sent } := by
  have hk : ∀ (b : Bool) (e : Emission) (v : State), (when b (emit e) v).med = v.med := fun b e v => by cases b <;> rfl
  simp only [sendDie, sendPacket, hk, emit_med, onMed]

/-- What a release asked of the dies is asked again, and no line moves. -/
theorem requeueClrs_media : (requeueClrs s).med.lines = s.med.lines ∧ (requeueClrs s).med.ckptDue = s.med.ckptDue := by
  have hdrop : ∀ (p : Desc → Bool) (v : State), (dropOps p v).med = v.med := fun p v => agree_of_kept (ps := [.sched]) (by simp) .med
  have hdies : ∀ (xs : List Nat) (v : State), (forEach xs (fun k s => sendDie 7 (k / 8) (k % 8) 0 0 255 s) v).med.lines = v.med.lines
      ∧ (forEach xs (fun k s => sendDie 7 (k / 8) (k % 8) 0 0 255 s) v).med.ckptDue = v.med.ckptDue := fun xs v =>
    ⟨forEach_keeps (fun v => v.med.lines) _ (fun k u => by rw [sendDie_med]) xs v,
      forEach_keeps (fun v => v.med.ckptDue) _ (fun k u => by rw [sendDie_med]) xs v⟩
  have hq : ∀ (e : Nat) (v : State), (queueClrs e v).med.lines = v.med.lines ∧ (queueClrs e v).med.ckptDue = v.med.ckptDue := fun e v => by
    simp [queueClrs, hdrop]
  unfold requeueClrs
  split
  · simp only [clearDies]
    rw [(hdies _ _).1, (hdies _ _).2]
    simp [hdrop]
  · exact ⟨forEach_keeps (fun v => v.med.lines) _ (fun e u => (hq e u).1) _ s,
      forEach_keeps (fun v => v.med.ckptDue) _ (fun e u => (hq e u).2) _ s⟩

/-- What follows the change to SERVICE. -/
def serviceEntered (owed : Bool) (s : State) : State :=
  applyCarve s |> holdOwn |> onHost (fun h => { h with mediaStatus := 1 }) |> when owed setActive
    |> postModule 0 1 7 srcHub |> dueCkpt |> requeueClrs |> modeReached 4

theorem serviceEntered_host (owed : Bool) : (serviceEntered owed s).host.mediaStatus = 1 := by
  have hmode : ∀ w : State, (modeReached 4 w).host = w.host := fun w => agree_of_kept (ps := [.mbx, .outbox]) (by simp) .host
  have hclr : ∀ w : State, (w |> dueCkpt |> requeueClrs).host = w.host := fun w => agree_of_kept (ps := [.sched, .med,
      .outbox]) (by simp) .host
  have hact : ∀ w : State, (setActive w).host.mediaStatus = w.host.mediaStatus := fun w => by unfold setActive; split <;> rfl
  unfold serviceEntered
  rw [hmode, hclr, postModule, postEvent_host]
  cases owed
  · rfl
  · exact hact _

theorem serviceEntered_media (owed : Bool) : (serviceEntered owed s).med.lines = s.med.lines
      ∧ (serviceEntered owed s).med.ckptDue = true := by
  have hmode : ∀ w : State, (modeReached 4 w).med = w.med := fun w => agree_of_kept (ps := [.mbx, .outbox]) (by simp) .med
  have hpre : ∀ w : State,
      (w |> holdOwn |> onHost (fun h => { h with mediaStatus := 1 }) |> when owed setActive |> postModule 0 1 7 srcHub).med
      = w.med := fun w => agree_of_kept (ps := [.regs, .sbg, .host, .rcd, .outbox]) (by simp) .med
  unfold serviceEntered
  rw [hmode, requeueClrs_media.1, requeueClrs_media.2]
  refine ⟨?_, rfl⟩
  refine Eq.trans ?_ (congrArg Prod.fst mediaView_applyCarve)
  rw [dueCkpt, onMed_med, hpre]
  rfl

theorem keptBelow_serviceEntered (owed : Bool) : keptBelow 0x80000 s (serviceEntered owed s) := by
  refine (keptBelow_applyCarve.trans keptBelow_holdOwn).trans ?_
  exact keptBelow_of_kept (ps := [.host, .rcd, .outbox, .sched, .med, .mbx]) (by simp [serviceEntered])

theorem fget_setMode_prev_of_mode (m : Mode) {m' : Mode} (h : s.mode = m') : fget (setMode m s) F.HUB_MODE_PREV 0 = modeCode m' := by
  rw [fget_setMode_prev, h]

/-! ### Faults that stop the hub -/

theorem hubFault_of_up (hc : coreOn s = true) (hu : s.life.hubUp = true) : hubFault s = hubStops (latchBrake 5 srcHub s) := by
  simp [hubFault, hc, hu]

theorem hubStops_latched {cause source : Nat} (h : brakeLatched cause source s t) : brakeLatched cause source s (hubStops t) := by
  have hk : keptBut t (hubStops t) [.host, .life, .seq, .mcv, .mbx] := by simp
  have hb : keptBelow 0x20000 t (hubStops t) := keptBelow_of_kept hk
  have hras : (hubStops t).host.ras = t.host.ras := by simp [hubStops]
  have hmode : (hubStops t).mode = t.mode := agree_of_kept hk .mode
  have hpins : (hubStops t).pins = t.pins := agree_of_kept hk .pins
  have hfw : (hubStops t).fw = t.fw := agree_of_kept hk .fw
  have hgtc : (hubStops t).gtc = t.gtc := agree_of_kept hk .gtc
  have hmed : (hubStops t).med = t.med := agree_of_kept hk .med
  have hcache : (hubStops t).cache = t.cache := agree_of_kept hk .cache
  obtain ⟨h1, h2, h3, h4, h5, h⟩ := h
  unfold brakeLatched
  rw [hb.fget, hb.fget, hb.fget, hb.fget, hras, hmode, hpins, hfw, hgtc, hmed, hcache]
  exact ⟨h1, h2, h3, h4, h5, h⟩

theorem portBuffer_of_core (hc : coreOn s = true) : portBuffer s = latchBrake 3 srcHost (rasReport 6 2 s) := by
  simp [portBuffer, hc]

end

/-- Settles O35: each transition at its tick, each fatal fault by the latch of BRAKE. -/
theorem maintenanceAndFatalFaults : Obligations.MaintenanceAndFatalFaults := by
  unfold Obligations.MaintenanceAndFatalFaults
  intro s hg hidle braked tick
  refine ⟨fun hm hask => ?maintenance, fun hm hask hready => ?service, fun hm hcore => ?faults⟩
  case maintenance =>
    have he := enterMaintenance_of_asked (s := stampNow s) hm hask hidle
    generalize hv : (nextTickAfter (stampNow s).life.acceptedAt (stampNow s) |> onLife (fun l => { l with toMaintenance := false })) = v at he
    have hvg : v.gtc = tick ∧ v.stamp = tick ∧ v.mode = .service ∧ v.life = { s.life with toMaintenance := false } := by
      subst hv
      exact ⟨rfl, rfl, hm, rfl⟩
    obtain ⟨hvgtc, hvst, hvm, hvl⟩ := hvg
    have hvk : keptBut s v [.gtc, .stamp, .life] := by subst hv; simp
    generalize hu : (setMode .maintenance v |> onHost (fun h => { h with mediaStatus := 3 }) |> postModule 0 1 7 srcHub |> modeReached 5) = u at he
    have hk : keptBut (setMode .maintenance v) u [.host, .rcd, .mbx, .outbox] := by subst hu; simp
    have huh : u.host.mediaStatus = 3 := by
      have hb : ∀ w : State, (modeReached 5 w).host = w.host := fun w => agree_of_kept (ps := [.mbx, .outbox]) (by simp) .host
      rw [← hu, hb, postModule, postEvent_host]
      rfl
    have hmk : keptBut v (setMode .maintenance v) [.mode, .regs, .life, .mcv, .rcd] := by simp
    have hgtc : u.gtc % 2 ^ 64 = tick := by
      have h : u.gtc = v.gtc := (agree_of_kept hk .gtc).trans (agree_of_kept hmk .gtc)
      rw [h, hvgtc]
      exact Nat.mod_mod _ _
    have hul : u.life = (setMode .maintenance v).life := agree_of_kept hk .life
    refine ⟨_, run_of_effect he, (agree_of_kept hk .mode).trans (setMode_mode ..), ?_, huh, hgtc, ?_, ?_⟩
    · rw [fget_settle, (keptBelow_of_kept (a := 1) hk).fget, fget_setMode_prev_of_mode _ hvm]
      rfl
    · rw [settle_life, settle_gtc, hgtc, hul, setMode_life, hvl, hvst]
    · have hall : keptBut s u [.gtc, .stamp, .mode, .regs, .host, .life, .rcd, .mcv, .mbx, .outbox] :=
        keptBut_trans (keptBut_mono hvk (by simp)) (keptBut_trans (keptBut_mono hmk (by simp)) (keptBut_mono hk (by simp)))
      exact keptBut_settle_gtc hall
  case service =>
    have he := returnService_of_asked (s := stampNow s) hm hask hready hidle
    generalize hv : (nextTickAfter (stampNow s).life.acceptedAt (stampNow s) |> onLife (fun l => { l with toService := false })) = v at he
    have hvg : v.gtc = tick ∧ v.stamp = tick ∧ v.mode = .maintenance ∧ v.life = { s.life with toService := false } := by
      subst hv
      exact ⟨rfl, rfl, hm, rfl⟩
    obtain ⟨hvgtc, hvst, hvm, hvl⟩ := hvg
    have hvk : keptBut s v [.gtc, .stamp, .life] := by subst hv; simp
    change returnService (stampNow s) = serviceEntered s.host.activeOwed (setMode .service v) at he
    have huh := serviceEntered_host (s := setMode .service v) s.host.activeOwed
    obtain ⟨hlines, hdue⟩ := serviceEntered_media (s := setMode .service v) s.host.activeOwed
    have hbelow := keptBelow_serviceEntered (s := setMode .service v) s.host.activeOwed
    have hk : keptBut (setMode .service v) (serviceEntered s.host.activeOwed (setMode .service v))
        [.regs, .host, .cache, .med, .rcd, .sbg, .outbox, .sched, .mbx] := by simp [serviceEntered]
    generalize serviceEntered s.host.activeOwed (setMode .service v) = u at he huh hlines hdue hbelow hk
    have hmk : keptBut v (setMode .service v) [.mode, .regs, .life, .mcv, .rcd] := by simp
    have hgtc : u.gtc % 2 ^ 64 = tick := by
      have h : u.gtc = v.gtc := (agree_of_kept hk .gtc).trans (agree_of_kept hmk .gtc)
      rw [h, hvgtc]
      exact Nat.mod_mod _ _
    have hul : u.life = (setMode .service v).life := agree_of_kept hk .life
    have hmed : (setMode .service v).med = s.med := (agree_of_kept hmk .med).trans (agree_of_kept hvk .med)
    refine ⟨_, run_of_effect he, (agree_of_kept hk .mode).trans (setMode_mode ..), ?_, huh, hgtc, ?_, hdue, hlines.trans (by rw [hmed])⟩
    · rw [fget_settle, hbelow.fget, fget_setMode_prev_of_mode _ hvm]
      rfl
    · rw [settle_life, settle_gtc, hgtc, hul, setMode_life, hvl, hvst]
  case faults =>
    have hlt : s.gtc % 2 ^ 64 = s.gtc := Nat.mod_eq_of_lt hg
    have hbr : brakes s.mode = true := by rw [hm]; rfl
    have hd : ∀ c, causeDrains c = true → brakeDrains c s.mode = true := fun c h => by rw [brakeDrains, h, hm]; rfl
    have settled : ∀ {k : State → State} {u t : State} {cause source : Nat}, causeDrains cause = true → brakeLatched cause source u t →
        keptBut s u [.stamp, .host, .outbox] → u.stamp = s.gtc → k (stampNow s) = t → braked (settle s t) cause source := by
      intro k u t cause source hc hl hu hst he
      obtain ⟨h1, h2, h3, h4, -, h6, h7, h8, h9, h10, h11, h12, h13, h14, -⟩ := hl
      have hum : u.mode = s.mode := agree_of_kept hu .mode
      have humed : u.med = s.med := agree_of_kept hu .med
      have huc : u.cache = s.cache := agree_of_kept hu .cache
      rw [hum, hd cause hc] at h4 h7
      exact ⟨h1, h2, h3, h4, h6, h7, h8, h9.trans hst, by rw [settle_med, h11, humed], by rw [settle_cache, h12, huc],
        by rw [settle_cache, h13, huc], by rw [settle_cache, h14, huc]⟩
    intro hubFailed
    have hub : s.life.hubUp = true → ∃ t, run hubFault s = .next t ∧ hubFailed t := fun hup => by
      have he := hubFault_of_up (s := stampNow s) hcore hup
      have hl := latchBrake_latched (s := stampNow s) 5 srcHub (by decide) (by decide) hbr
      have hl' := hubStops_latched hl
      exact ⟨_, run_of_effect he, settled (by decide) hl' (by simp) rfl he, rfl, rfl⟩
    refine ⟨fun hup => ⟨hub hup, hub hup⟩, ?_⟩
    have he := portBuffer_of_core (s := stampNow s) hcore
    have hrk : keptBut (stampNow s) (rasReport 6 2 (stampNow s)) [.host, .outbox] := by simp
    have hrm : (rasReport 6 2 (stampNow s)).mode = s.mode := agree_of_kept hrk .mode
    have hl := latchBrake_latched (s := rasReport 6 2 (stampNow s)) 3 srcHost (by decide) (by decide) (by rw [hrm]; exact hbr)
    refine ⟨_, run_of_effect he, settled (by decide) hl (by simp) (agree_of_kept hrk .stamp) he, ?_⟩
    obtain ⟨-, -, -, -, -, -, -, -, -, -, -, -, -, -, hras⟩ := hl
    obtain ⟨out, heq⟩ := rasReport_eq 6 2 (stampNow s)
    rw [settle_host, hras, heq]
    exact nsHas_nsAdd_same _ _

end Sys2Proof.Machine
end

section
/-! PROOF. Retries that go on, power-downs, and admission on the device's own time (R224, R228, R230). -/
namespace Sys2Proof.Machine

set_option Elab.async false

section
variable {s : State}

/-! ### Retries -/

@[simp] theorem retryOf_setRetry (t : Target) (r : Retry) : retryOf (setRetry t r s) t = r := tabGet_tabSet_same _ _ _ _

theorem mem_placeRequest (t : Target) : t ∈ (placeRequest t s).seq.pend := by
  unfold placeRequest
  split
  case isTrue h => simpa using h
  case isFalse => simp

theorem retryOf_placeRequest (t t' : Target) : retryOf (placeRequest t s) t' = retryOf s t' := by
  unfold placeRequest
  split <;> rfl

/-! ### Power-downs -/

/-- Of one power-down that is due, the end is its own. -/
theorem nextDown_of_single {d : PowerDown} (h : s.seq.down = [d]) (hd : downDue s d = true) : nextDown s = some d := by
  simp [nextDown, h, hd]

theorem offDelayExpiry_of_single {d : PowerDown} (h : s.seq.down = [d]) (hd : downDue s d = true) :
    offDelayExpiry s = match stepDown d (advanceTo (downEnds s d) s) with
      | (some d', s1) => onSeq (fun q => { q with down := [d'] }) s1
      | (none,
      s1) => if d.why = .all then downDone (onSeq (fun q => { q with down := [] }) s1) else onSeq (fun q => { q with down := [] }) s1 := by
  have ho : (advanceTo (downEnds s d) s).seq.down.filter (fun x => x != d) = [] := by
    show s.seq.down.filter (fun x => x != d) = []
    rw [h]
    simp
  unfold offDelayExpiry
  rw [nextDown_of_single h hd]
  dsimp only
  rw [ho]
  rfl

theorem stepDown_of_up {d : PowerDown} {t : Target} {rest : List Target} (h : d.left = t :: rest) (hup : tgtDown s t = false) :
    stepDown d s = (some { d with left := rest, waiting := some t, since := tickOf s + 1 }, decideEdge t false s) := by
  simp [stepDown, h, lowerNext, hup]

theorem stepDown_of_empty {d : PowerDown} (h : d.left = []) : stepDown d s = (none, s) := by simp [stepDown, h, lowerNext]

/-- The last rail of a freewheel takes the core's supplies with it. -/
theorem downDone_of_freewheel (h : s.mode = .freewheel) : downDone s = railsGone (fput F.SEQ_CTRL_STATE 0 5 s) := by
  have hm : (railsGone (fput F.SEQ_CTRL_STATE 0 5 s)).mode = .freewheel :=
    (agree_of_kept (s := s) (ps := [.regs, .pins, .host, .fw, .outbox]) (by simp) .mode).trans h
  simp [downDone, h, tryEndFw_of_freewheel hm]

end

/-- Settles O38: each timer by its command: the request again, the next entry lowered, admission on the own time. -/
theorem retriesAndPowerDownsGoOn : Obligations.RetriesAndPowerDownsGoOn := by
  unfold Obligations.RetriesAndPowerDownsGoOn
  intro s hg hm
  have hon : aonOn s = true := by simp [aonOn, hm]
  refine ⟨fun tgt hph => ?retry, fun d hd hdue tgt0 hw => ?down, fun hst hpel hal hun => ?unsync⟩
  case retry =>
    have he : backoffEnd tgt (stampNow s) = (advanceTo (((retryOf s tgt).since + backoffTicks (retryOf s tgt).count) * 250) s
        |> setRetry tgt { retryOf s tgt with phase := 2, since := 0 } |> placeRequest tgt) := by
      have hr : retryOf (stampNow s) tgt = retryOf s tgt := rfl
      simp only [backoffEnd, hr, hph, if_true]
      rfl
    have hgt : ∀ u : State, (placeRequest tgt (setRetry tgt { retryOf s tgt with phase := 2, since := 0 } u)).gtc = u.gtc := fun u =>
      agree_of_kept (ps := [.seq]) (by simp) .gtc
    refine ⟨_, run_of_effect he, ?_, ?_, ?_, mem_placeRequest tgt, ?_⟩
    · rw [settle_gtc, hgt, advanceTo_gtc, if_neg hm]
      exact Nat.mod_eq_of_lt (laterOf_lt hg _)
    · show (retryOf (placeRequest tgt _) tgt).phase = 2
      rw [retryOf_placeRequest, retryOf_setRetry]
    · show (retryOf (placeRequest tgt _) tgt).count = _
      rw [retryOf_placeRequest, retryOf_setRetry]
    · exact keptBut_settle_gtc (by simp)
  case down =>
    have hends : downEnds s d = (d.since + offDelay s tgt0) * 250 := by simp [downEnds, hw]
    have he := offDelayExpiry_of_single (s := stampNow s) hd hdue
    have hadv : advanceTo (downEnds (stampNow s) d) (stampNow s) = { s with gtc := max s.gtc ((d.since + offDelay s tgt0) * 250 % 2 ^ 64)
                                                                            stamp := (d.since + offDelay s tgt0) * 250 % 2 ^ 64 } := by
      rw [show downEnds (stampNow s) d = downEnds s d from rfl, hends, advanceTo_of_on (s := stampNow s) hm]
      rfl
    have hlt := laterOf_lt hg ((d.since + offDelay s tgt0) * 250)
    rw [hadv] at he
    intro ends
    generalize hv : ({ s with gtc := max s.gtc ((d.since + offDelay s tgt0) * 250 % 2 ^ 64)
                              stamp := (d.since + offDelay s tgt0) * 250 % 2 ^ 64 } : State) = v at he
    have hvg : v.gtc = ends := by rw [← hv]
    have hvk : keptBut s v [.gtc, .stamp] := by rw [← hv]; exact ⟨rfl, rfl, rfl, rfl, fun p hp => by cases p <;> simp_all [agree]⟩
    have hvm : v.mode = s.mode := agree_of_kept hvk .mode
    have hvs : v.seq = s.seq := agree_of_kept hvk .seq
    refine ⟨fun tgt rest hleft hup => ?next, fun hleft hwhy => ?group, fun hleft hwhy hfw => ?all⟩
    case next =>
      have hup' : tgtDown v tgt = false := by rw [← hv]; exact hup
      rw [stepDown_of_up hleft hup'] at he
      have hu : (v.gtc % 2 ^ 64) = ends := by rw [hvg]; exact Nat.mod_eq_of_lt hlt
      refine ⟨_, run_of_effect he, hu, ?_, by simp [decideEdge], keptBut_settle_gtc (keptBut_trans (keptBut_mono hvk (by simp)) (by simp))⟩
      have ht : tickOf v = v.gtc % 2 ^ 64 / 250 := by rw [hu, ← hvg, tickOf]
      show [_] = [_]
      rw [ht]
      rfl
    case group =>
      rw [stepDown_of_empty hleft] at he
      simp only [hwhy, reduceCtorEq, if_false, ← hv] at he
      exact run_of_effect_at (u := { s with gtc := ends, seq := { s.seq with down := [] } }) hlt (by rw [he]; rfl)
    case all =>
      rw [stepDown_of_empty hleft] at he
      simp only [hwhy, if_true] at he
      rw [downDone_of_freewheel (s := onSeq (fun q => { q with down := [] }) v) (hvm.trans hfw)] at he
      have hu : (v.gtc % 2 ^ 64) = ends := by rw [hvg]; exact Nat.mod_eq_of_lt hlt
      have hvf : v.fw = s.fw := agree_of_kept hvk .fw
      have hvp : v.pins = s.pins := agree_of_kept hvk .pins
      refine ⟨_, run_of_effect he, ?_, ?_, ?_, ?_, ?_, ?_, ?_⟩
      · refine Eq.trans (congrArg (· % 2 ^ 64) ?_) hu
        simp [railsGone]
      · simp only [fget_settle, railsGone, fget_onFw, fget_onHost, fget_when, fget_emit, fget_onPins, ite_self, fget_fput_same]
        rfl
      · simp [railsGone, hvm.trans hfw]
      · simp [railsGone, hvf]
      · simp [railsGone, hvp]
      · simp [railsGone]
      · simp [railsGone, hvs]
  case unsync =>
    have hun0 : (s.seq.unsync = 0) = True := eq_true hun
    have hs : (s.mode != .standby) = true := by simpa using hst
    have he : slotUnsync (stampNow s)
        = (advanceTo (s.seq.rampAt + 10000000) (stampNow s) |> onSeq (fun q => { q with unsync := 1 }) |> fset F.SEQ_ERR_SLOT_UNSYNC 0) := by
      have ha : slotAligned (stampNow s) = false := hal
      simp only [slotUnsync, aonOn_stampNow, hon, stampNow_mode, hs, fon_stampNow, hpel, ha, stampNow_seq, hun0, decide_true,
      Bool.not_false,
        Bool.and_self, if_true]
    refine ⟨_, run_of_effect he, ?_, rfl, ?_, ?_, keptBut_settle_gtc ?_⟩
    · have hlt := laterOf_lt hg (s.seq.rampAt + 10000000)
      rw [settle_gtc, fset_gtc, onSeq_gtc, advanceTo_gtc, if_neg (show (stampNow s).mode ≠ .off from hm)]
      exact Nat.mod_eq_of_lt hlt
    · simp (disch := decide) [fget_fset_same]
    · simp
    · exact keptBut_trans (keptBut_mono (keptBut_stampNow s []) (by simp)) (by simp)

end Sys2Proof.Machine
end

section
/-! PROOF. Calibration and path diagnosis (R251 to R254, R261, R262). -/
namespace Sys2Proof.Machine

set_option Elab.async false

section
variable {s t u : State} {P : Nat → Prop}

/-! ### Fields at chosen keys -/

/-- Every register field whose key is one of `P` keeps its value. -/
def keptAt (P : Nat → Prop) (s t : State) : Prop := ∀ (g : Fld) (i : Nat), P (g.key i) → fget t g i = fget s g i

theorem keptAt.fget (h : keptAt P s t) {g : Fld} {i : Nat} (hi : P (g.key i)) : fget t g i = fget s g i := h g i hi

theorem keptAt.trans (h : keptAt P s t) (k : keptAt P t u) : keptAt P s u := fun g i hi => (k g i hi).trans (h g i hi)

theorem keptAt_refl : keptAt P s s := fun _ _ _ => rfl

theorem keptAt_of_kept {ps : List Part} (h : keptBut s t ps) (hp : Part.regs ∉ ps := by decide) : keptAt P s t := fun g i _ => by
  rw [Machine.fget, regs_of_kept h hp, Machine.fget]

theorem keptAt_of_regs (h : t.regs = s.regs) : keptAt P s t := fun g i _ => by rw [Machine.fget, h, Machine.fget]

theorem keptAt_iff_of_regs {t : State} (h : t.regs = u.regs) : keptAt P s t ↔ keptAt P s u := by simp [keptAt, Machine.fget, h]

@[simp] theorem keptAt_self : keptAt P s s ↔ True := iff_true_intro fun _ _ _ => rfl

@[simp] theorem keptAt_fput (f : Fld) (i v : Nat) (h : ¬ P (f.key i)) : keptAt P s (fput f i v u) ↔ keptAt P s u := by
  refine forall_congr' fun g => forall_congr' fun j => forall_congr' fun hg => ?_
  rw [fget_fput_other f g i j v u fun he => h (he ▸ hg)]

@[simp] theorem keptAt_fset (f : Fld) (i : Nat) (h : ¬ P (f.key i)) : keptAt P s (fset f i u) ↔ keptAt P s u := keptAt_fput f i 1 h
@[simp] theorem keptAt_fclr (f : Fld) (i : Nat) (h : ¬ P (f.key i)) : keptAt P s (fclr f i u) ↔ keptAt P s u := keptAt_fput f i 0 h
@[simp] theorem keptAt_fbit (f : Fld) (i : Nat) (b : Bool) (h : ¬ P (f.key i)) : keptAt P s (fbit f i b u) ↔ keptAt P s u :=
  keptAt_fput f i b.toNat h
@[simp] theorem keptAt_finc (f : Fld) (i : Nat) (h : ¬ P (f.key i)) : keptAt P s (finc f i u) ↔ keptAt P s u := keptAt_fput f i _ h

@[simp] theorem keptAt_when (b : Bool) (f : State → State) :
    keptAt P s (when b f u) ↔ if b then keptAt P s (f u) else keptAt P s u := by
  cases b <;> rfl

@[simp] theorem keptAt_ite {c : Prop} [Decidable c] (t u : State) :
    keptAt P s (if c then t else u) ↔ if c then keptAt P s t else keptAt P s u := by
  split <;> rfl

@[simp] theorem keptAt_onHost (f : HostPort → HostPort) : keptAt P s (onHost f u) ↔ keptAt P s u := keptAt_iff_of_regs rfl
@[simp] theorem keptAt_onSeq (f : Sequencer → Sequencer) : keptAt P s (onSeq f u) ↔ keptAt P s u := keptAt_iff_of_regs rfl
@[simp] theorem keptAt_onMcv (f : Converters → Converters) : keptAt P s (onMcv f u) ↔ keptAt P s u := keptAt_iff_of_regs rfl
@[simp] theorem keptAt_onLed (f : Ledger → Ledger) : keptAt P s (onLed f u) ↔ keptAt P s u := keptAt_iff_of_regs rfl
@[simp] theorem keptAt_onLife (f : Life → Life) : keptAt P s (onLife f u) ↔ keptAt P s u := keptAt_iff_of_regs rfl
@[simp] theorem keptAt_onMbx (f : Mailbox → Mailbox) : keptAt P s (onMbx f u) ↔ keptAt P s u := keptAt_iff_of_regs rfl
@[simp] theorem keptAt_onPins (f : Pins → Pins) : keptAt P s (onPins f u) ↔ keptAt P s u := keptAt_iff_of_regs rfl
@[simp] theorem keptAt_onRcd (f : Recorder → Recorder) : keptAt P s (onRcd f u) ↔ keptAt P s u := keptAt_iff_of_regs rfl
@[simp] theorem keptAt_onFw (f : Freewheel → Freewheel) : keptAt P s (onFw f u) ↔ keptAt P s u := keptAt_iff_of_regs rfl
@[simp] theorem keptAt_onMed (f : Media → Media) : keptAt P s (onMed f u) ↔ keptAt P s u := keptAt_iff_of_regs rfl
@[simp] theorem keptAt_onConv (n : Nat) (f : ConvSt → ConvSt) : keptAt P s (onConv n f u) ↔ keptAt P s u := keptAt_iff_of_regs rfl
@[simp] theorem keptAt_emit (e : Emission) : keptAt P s (emit e u) ↔ keptAt P s u := keptAt_iff_of_regs rfl
@[simp] theorem keptAt_advanceTo (t : Nat) : keptAt P s (advanceTo t u) ↔ keptAt P s u := keptAt_iff_of_regs rfl
@[simp] theorem keptAt_land (type cls source flags : Nat) (fixed : Option (List Nat)) :
    keptAt P s (land type cls source flags fixed u) ↔ keptAt P s u := keptAt_iff_of_regs (land_regs ..)

/-- A loop keeps what each of its steps keeps. -/
theorem keptAt_forEach {α : Type} {f : α → State → State} (h : ∀ x u, keptAt P u (f x u)) (xs : List α) :
    keptAt P s (forEach xs f s) := fun _ _ hi => fget_forEach (fun x u => h x u _ _ hi) xs

/-! ### What follows a conversion leaves the coefficients alone -/

/-- The keys of MCV_ERR.CAL_FAIL and of the converters' coefficients. -/
def calKey (k : Nat) : Prop := k < 0xC4300 * 8 ∧ (k = F.MCV_ERR_CAL_FAIL.key 0 ∨ k % 512 = 0x60 ∨ k % 512 = 0x6C)

theorem not_calKey_of_le (f : Fld) (i : Nat) (h : 0xC4300 ≤ f.base) : ¬ calKey (f.key i) := by
  have hk : f.key i = (f.base + f.stride * i) * 8 + f.lo := rfl
  have := Nat.zero_le (f.stride * i)
  rintro ⟨hlt, -⟩
  omega

/-- A register of a converter other than its coefficients' word. -/
theorem not_calKey_of_conv (f : Fld) (i : Nat) (hs : f.stride = 0x40) (hw : (f.base * 8 + f.lo) % 512 ≠ 0x60)
    (hg : (f.base * 8 + f.lo) % 512 ≠ 0x6C) (hb : 0xC4100 ≤ f.base) : ¬ calKey (f.key i) := by
  have hk : f.key i = (f.base + f.stride * i) * 8 + f.lo := rfl
  have hc : F.MCV_ERR_CAL_FAIL.key 0 = 0xC4004 * 8 + 4 := rfl
  rw [hs] at hk
  rintro ⟨-, h | h | h⟩ <;> omega

theorem not_calKey_err (f : Fld) (i : Nat) (hs : f.base = 0xC4004 ∨ f.base = 0xC4018) (hz : f.stride = 0) (hl : f.lo < 32) (h4 : f.lo ≠ 4) :
    ¬ calKey (f.key i) := by
  have hk : f.key i = (f.base + f.stride * i) * 8 + f.lo := rfl
  have hc : F.MCV_ERR_CAL_FAIL.key 0 = 0xC4004 * 8 + 4 := rfl
  rw [hz, Nat.zero_mul] at hk
  rintro ⟨-, h | h | h⟩ <;> rcases hs with hs | hs <;> omega

theorem not_calKey_sel (n : Nat) : ¬ calKey (F.MCVn_SEL_CH.key n) := not_calKey_of_conv _ _ rfl (by decide) (by decide) (by decide)
theorem not_calKey_overrun (n : Nat) : ¬ calKey (F.MCVn_OVERRUN_COUNT.key n) :=
  not_calKey_of_conv _ _ rfl (by decide) (by decide) (by decide)
theorem not_calKey_skips (n : Nat) : ¬ calKey (F.MCVn_OVERRUN_SKIPS.key n) := not_calKey_of_conv _ _ rfl (by decide) (by decide) (by decide)
theorem not_calKey_filt (k : Nat) : ¬ calKey (F.MCV_INk_VAL_FILT.key k) := not_calKey_of_le _ _ (by decide)
theorem not_calKey_settled (k : Nat) : ¬ calKey (F.MCV_INk_VAL_SETTLED.key k) := not_calKey_of_le _ _ (by decide)

theorem calEnd_regs (n : Nat) (b : Bool) : (calEnd n b s).regs = s.regs := regs_of_kept (ps := [.mcv, .mbx, .outbox]) (by simp)

theorem calKept_calStopped (n : Nat) : keptAt calKey s (calStopped n s) := by
  have he : ¬ calKey (F.MCV_ERR_CAL_ABORTED.key 0) := not_calKey_err _ _ (.inl rfl) rfl (by decide) (by decide)
  simp [calStopped, keptAt_iff_of_regs (calEnd_regs ..), he]

theorem calKept_diagEnd (p : Nat) (d : Diag) (span result : Nat) : keptAt calKey s (diagEnd p d span result s) := by
  have h (f : Fld) (hs : f.base = 0xC4004 ∨ f.base = 0xC4018 := by decide) (hz : f.stride = 0 := by decide) (hl : f.lo < 32 := by decide)
      (h4 : f.lo ≠ 4 := by decide) : ¬ calKey (f.key 0) := not_calKey_err f 0 hs hz hl h4
  have hsucc : ∀ (v : Transport) (out : List Byte) (w : State), (succeed v 0xC034 out w).regs = w.regs := fun v out w =>
    regs_of_kept (ps := [.mbx, .outbox]) (by simp)
  unfold diagEnd
  cases d.via
  all_goals simp [setDiag, keptAt_iff_of_regs (hsucc _ _ _), h F.MCV_DIAG_RES_SPAN, h F.MCV_DIAG_RES_RESULT, h F.MCV_DIAG_RES_INPUT,
    h F.MCV_DIAG_RES_DONE, h F.MCV_ERR_DIAG_FAULT]

theorem calKept_diagStopped (n : Nat) : keptAt calKey s (diagStopped n s) := by
  unfold diagStopped
  split
  · split_ifs
    · exact calKept_diagEnd _ _ _ _
    · exact keptAt_refl
  · exact keptAt_refl

theorem calKept_trigger (n : Nat) : keptAt calKey s (trigger n s) := by
  have he : ¬ calKey (F.MCV_ERR_OVERRUN.key 0) := not_calKey_err _ _ (.inl rfl) rfl (by decide) (by decide)
  simp [trigger, he, not_calKey_overrun]

theorem calKept_hwTrigger (src chan : Nat) (rising : Bool) : keptAt calKey s (hwTrigger src chan rising s) := by
  have hstep : ∀ (c : Prop) [Decidable c] (n : Nat) (u : State), keptAt calKey u (if c then trigger n u else u) := fun c _ n u => by
    split_ifs
    · exact calKept_trigger n
    · exact keptAt_refl
  exact keptAt_forEach (fun n u => hstep _ n u) _

theorem calKept_applyPower (n : Nat) : keptAt calKey s (applyPower n s) := fun _ _ ⟨hlt, _⟩ => fget_applyPower_of_below (by omega) n

theorem keptAt_startConv (n ch : Nat) (work : ConvWork) (h : ¬ P (F.MCVn_SEL_CH.key n)) :
    keptAt P s (startConv n ch work u) ↔ keptAt P s u := by simp [startConv, h]

theorem keptAt_onDiag (n : Nat) (f : Diag → Diag) : keptAt P s (onDiag n f u) ↔ keptAt P s u := keptAt_iff_of_regs rfl

theorem keptAt_startNext (n : Nat) (h : ¬ P (F.MCVn_SEL_CH.key n)) : keptAt P s (startNext n s) := by
  simp only [startNext]
  cases diagOn s n <;> simp [keptAt_startConv _ _ _ h, keptAt_onDiag]

theorem keptAt_skipSlot (n ch : Nat) (h1 : ¬ P (F.MCVn_OVERRUN_SKIPS.key n)) (h2 : ¬ P (F.MCV_ERR_SKIP.key 0))
    (h3 : ∀ k, ¬ P (F.MCV_INk_VAL_FILT.key k)) (h4 : ∀ k, ¬ P (F.MCV_INk_VAL_SETTLED.key k)) :
    keptAt P s (skipSlot n ch u) ↔ keptAt P s u := by
  unfold skipSlot
  cases ainOf n ch <;> simp [countSkip, feedFilter, h1, h2, h3, h4]

theorem keptAt_resolveLate (n : Nat) (h : ¬ P (F.MCVn_SEL_CH.key n)) (h1 : ¬ P (F.MCVn_OVERRUN_SKIPS.key n))
    (h2 : ¬ P (F.MCV_ERR_SKIP.key 0)) (h3 : ∀ k, ¬ P (F.MCV_INk_VAL_FILT.key k)) (h4 : ∀ k, ¬ P (F.MCV_INk_VAL_SETTLED.key k)) :
    keptAt P s (resolveLate n s) := by
  simp only [resolveLate]
  split
  · exact keptAt_refl
  · simp [keptAt_skipSlot _ _ h1 h2 h3 h4, keptAt_startConv _ _ _ h]

theorem calKept_goOn (n : Nat) : keptAt calKey s (goOn n s) :=
  keptAt.trans (keptAt_startNext n (not_calKey_sel n)) (keptAt_resolveLate n (not_calKey_sel n) (not_calKey_skips n)
    (not_calKey_err _ _ (.inl rfl) rfl (by decide) (by decide)) not_calKey_filt not_calKey_settled)

/-- The last of the 64 conversions, not accepted: CAL_FAIL, and the coefficients stay. -/
theorem calSample_rejected (n u : Nat) (habort : (conv s n).calAbort = false) (hcount : (conv s n).calCount = 63)
    (hacc : calAccepts (conv s n).calLo ((conv s n).calHi + u) = false) :
    ∃ v, v.regs = (fset F.MCV_ERR_CAL_FAIL 0 s).regs ∧ calSample n u s = v := by
  refine ⟨_, ?_, rfl⟩
  have h : calSample n u s = calEnd n false (land 0x07 2 (srcConv n) 0 none (fset F.MCV_ERR_CAL_FAIL 0
      (onConv n (fun c => { c with calCount := c.calCount + 1, calHi := c.calHi + u }) s))) := by
    have hodd : ∀ c : ConvSt, c.calCount = 63 → (if c.calCount % 2 = 0 then { c with calCount := c.calCount + 1, calLo := c.calLo + u }
        else { c with calCount := c.calCount + 1, calHi := c.calHi + u }) = { c with calCount := c.calCount + 1, calHi := c.calHi + u } :=
      fun c hc => if_neg (by omega)
    have ho : onConv n (fun c => if c.calCount % 2 = 0 then { c with calCount := c.calCount + 1, calLo := c.calLo + u }
        else { c with calCount := c.calCount + 1, calHi := c.calHi + u }) s
        = onConv n (fun c => { c with calCount := c.calCount + 1, calHi := c.calHi + u }) s := by
      simp only [onConv, hodd _ hcount]
    simp only [calSample, ho]
    simp [calJudge, habort, hcount, hacc]
  rw [h, calEnd_regs, land_regs]
  rfl

/-- The converter's part of a conversion's end, once its code has gone where it was meant for. -/
def convFollows (n : Nat) (s : State) : State :=
  s |> calStopped n |> diagStopped n |> hwTrigger 4 n true |> applyPower n |> goOn n

theorem calKept_convFollows (n : Nat) : keptAt calKey s (convFollows n s) :=
  keptAt.trans (calKept_calStopped n) (keptAt.trans (calKept_diagStopped n) (keptAt.trans (calKept_hwTrigger 4 n true)
    (keptAt.trans (calKept_applyPower n) (calKept_goOn n))))

end

/-- Settles O41: each start by its command; the refused ones change only what shows the refusal. -/
theorem calibrationAndDiagnosisAct : Obligations.CalibrationAndDiagnosisAct := by
  unfold Obligations.CalibrationAndDiagnosisAct
  intro s hg hm
  have hon : aonOn s = true := by simp [aonOn, hm]
  refine ⟨fun n hmm hcal hcap => ?start, fun n hmm => ?refused, fun n r u hrun hwork hcal habort hcount hacc => ?rejected, fun k => ?diag⟩
  case start =>
    have hr : calRefused (stampNow s) n.val = false := by
      have hc : conv (stampNow s) n.val = conv s n.val := rfl
      by_cases h0 : n.val = 0
      · simp [calRefused, hmm, hc, hcal, fon, hcap h0]
      · simp [calRefused, hmm, hc, hcal, h0]
    have he : calibrate n.val (stampNow s) = startCal n.val none false (stampNow s) := by simp [calibrate, hr]
    refine ⟨_, run_of_effect he, ?_, ?_, ?_, keptBut_of_effect hg (by simp)⟩
    all_goals simp [startCal]
  case refused =>
    have hr : calRefused (stampNow s) n.val = true := by simp [calRefused, hmm]
    exact run_of_effect_eq hg (by simp [calibrate, hr])
  case rejected =>
    have hcode : (conv (stampNow s) n.val).run = some r := hrun
    generalize hv : (stampNow s |> advanceTo ((r.start + convTicks r.lp) * 250)
      |> onConv n.val (fun c => { c with
          run := none, lastInj := if r.work = .injected then some (r.start + convTicks r.lp) else c.lastInj })) = v
    have he : convComplete n.val u.toNat (stampNow s) = convFollows n.val (calSample n.val u.toNat v) := by
      simp only [convComplete, hcode, hwork, ← hv]
      rfl
    have hvc : conv v n.val = { conv s n.val with run := none } := by
      rw [← hv, conv_onConv, if_pos rfl, hwork]
      rfl
    have hvr : v.regs = s.regs := by rw [← hv]; rfl
    obtain ⟨w, hw, hsample⟩ := calSample_rejected (s := v) n.val u.toNat (by rw [hvc]; exact habort) (by rw [hvc]; exact hcount)
      (by rw [hvc]; exact hacc)
    rw [hsample] at he
    have hk := calKept_convFollows (s := w) n.val
    have hn := n.isLt
    have hoff : calKey (F.MCVn_CAL_OFFSET.key n.val) := by
      have : F.MCVn_CAL_OFFSET.key n.val = (0xC410C + 0x40 * n.val) * 8 := rfl
      unfold calKey
      omega
    have hgain : calKey (F.MCVn_CAL_GAIN.key n.val) := by
      have : F.MCVn_CAL_GAIN.key n.val = (0xC410C + 0x40 * n.val) * 8 + 12 := rfl
      unfold calKey
      omega
    have hfail : F.MCV_ERR_CAL_FAIL.key 0 = 0xC4004 * 8 + 4 := rfl
    have hw' : ∀ g i, fget w g i = fget (fset F.MCV_ERR_CAL_FAIL 0 v) g i := fun g i => by rw [fget, hw, fget]
    have hv' : ∀ g i, fget v g i = fget s g i := fun g i => by rw [fget, hvr, fget]
    have hne : ∀ {g : Fld}, g.key n.val ≠ F.MCV_ERR_CAL_FAIL.key 0 → fget w g n.val = fget s g n.val := fun h => by
      rw [hw', fget_fset_other _ _ _ _ _ h, hv']
    refine ⟨_, run_of_effect he, ?_, ?_, ?_⟩
    · rw [fget_settle, hk.fget (by unfold calKey; decide), hw', fget_fset_same _ _ _ (by decide)]
    · rw [fget_settle, hk.fget hoff, hne]
      have : F.MCVn_CAL_OFFSET.key n.val = (0xC410C + 0x40 * n.val) * 8 := rfl
      omega
    · rw [fget_settle, hk.fget hgain, hne]
      have : F.MCVn_CAL_GAIN.key n.val = (0xC410C + 0x40 * n.val) * 8 + 12 := rfl
      omega
  case diag =>
    have hk128 : k.toNat < 128 := k.isLt
    have hkw : k.toNat % 2 ^ 7 = k.toNat := Nat.mod_eq_of_lt hk128
    refine ⟨fun hk hf hb hd hc hcap => ?_, fun hr => ?_⟩
    · have hr : diagRefused (stampNow s) k.toNat = false := by
        have hd' : diagOf (stampNow s) ((convOf k.toNat).1 / 2) = none := hd
        have hc' : (decide (k.toNat < 32) && chanOn (stampNow s) k.toNat) = false := by
          by_cases h : k.toNat < 32
          · rw [show chanOn (stampNow s) k.toNat = false from hc h, Bool.and_false]
          · rw [decide_eq_false h, Bool.false_and]
        have hp : (decide ((convOf k.toNat).1 < 2) && fon (stampNow s) F.LDG_STATUS_CAP_TEST 0) = false := by
          by_cases h : (convOf k.toNat).1 < 2
          · rw [fon_stampNow, fon, hcap (Nat.div_eq_of_lt h)]
            simp
          · rw [decide_eq_false h, Bool.false_and]
        rw [diagRefused, hd', hc', hp]
        simp [hm, hf, hb, Nat.not_le.2 hk]
      have he : diagnose k.toNat (stampNow s) = diagStart k.toNat none (stampNow s) := by simp [diagnose, hon, hr]
      refine ⟨_, run_of_effect he, ?_, ?_, ?_, ?_, ?_, keptBut_of_effect hg (by simp)⟩
      · simp [diagStart, diagOf, setDiag, tabGet_tabSet_same]
      · simp (disch := decide) only [diagStart, fget_settle, fget_fclr_other, fget_fput_other, fget_fput_same]
        exact hkw
      · simp (disch := decide) only [diagStart, fget_settle, fget_fclr_other, fget_fput_same]
        exact hkw
      · simp [diagStart]
      · simp [diagStart, setDiag]
    · have he : diagnose k.toNat (stampNow s) = (stampNow s |> fput F.MCV_DIAG_INPUT 0 k.toNat |> fput F.MCV_DIAG_RES_INPUT 0 k.toNat
          |> fput F.MCV_DIAG_RES_SPAN 0 0 |> fput F.MCV_DIAG_RES_RESULT 0 5 |> fset F.MCV_DIAG_RES_DONE 0) := by
        simp [diagnose, hon, show diagRefused (stampNow s) k.toNat = true from hr]
      refine ⟨_, run_of_effect he, ?_, ?_, ?_, keptBut_of_effect hg (by simp)⟩
      · simp (disch := decide) only [fget_settle, fget_fset_other, fget_fput_same]
        rfl
      · simp (disch := decide) [fget_fset_same]
      · simp (disch := decide) only [fget_settle, fget_fset_other, fget_fput_other, fget_fput_same]
        exact hkw

end Sys2Proof.Machine
end

section
/-! PROOF. A trigger that comes while a slot is due at the next boundary (R249). -/
namespace Sys2Proof.Machine

set_option Elab.async false

/-- SERVICE at tick 1, converter 2 with a slot in use due at tick 11, a trigger every 10 ticks, and DROP_NEW set. -/
def triggerBeforeSlot : State :=
  { Sys2Proof.Tests.svc with gtc := 250 }
    |> onConv 2 (fun c => { c with on := true, slot := 1, effSlots := [16, 3], effSp := 8, effLp := 64, nextDue := 11 })
    |> onMcv (fun m => { m with eff := m.eff |> tabPut (F.MCVn_TRIG_SRC.key 2) 3 |> tabPut (F.MCVn_TRIG_PERIOD.key 2) 10
                                       |> tabPut (F.MCVn_CFG_DROP_NEW.key 2) 1 })

/-- The converter is idle, and the trigger is set to source 3. -/
theorem triggerBeforeSlot_idle : triggerBeforeSlot.gtc = 250 ∧ triggerBeforeSlot.mode ≠ .off ∧ (conv triggerBeforeSlot 2).on = true
    ∧ (conv triggerBeforeSlot 2).calibrating = false ∧ diagOn triggerBeforeSlot 2 = none
    ∧ eget triggerBeforeSlot 2 F.MCVn_TRIG_SRC 2 = 3 ∧ convBusy triggerBeforeSlot 2 = false := by
  decide +kernel

/-- At tick 10, where the trigger falls, the slot is due at the next boundary: the trigger is dropped. -/
theorem triggerBeforeSlot_dropped : (conv (triggerPeriod 2 (stampNow triggerBeforeSlot)) 2).run = none := by
  decide +kernel

/-- Refutes O40: TRIGGER_PERIOD_EXPIRY of a converter that is idle now starts nothing when, at the boundary the trigger falls on, a
slot in use is due at the next one and DROP_NEW is set: the slot commits the converter (log 106), and the trigger is dropped. -/
theorem not_conversionsRunAndReport : ¬ Obligations.ConversionsRunAndReport := by
  unfold Obligations.ConversionsRunAndReport
  intro h
  obtain ⟨hgtc, hm, hon, hcal, hdiag, hsrc, hbusy⟩ := triggerBeforeSlot_idle
  have hg : gtcOk triggerBeforeSlot := by unfold gtcOk; rw [hgtc]; decide
  obtain ⟨hrun, -⟩ := h triggerBeforeSlot 2 hg hm
  obtain ⟨-, htrigger, -⟩ := hrun hon hcal hdiag
  obtain ⟨t, he, -, hstarts, -⟩ := htrigger (by decide) hsrc hbusy
  have ht : settle triggerBeforeSlot (triggerPeriod 2 (stampNow triggerBeforeSlot)) = t := by
    injection he
  have hnone : (conv t 2).run = none := by
    rw [← ht]
    exact triggerBeforeSlot_dropped
  have hsome : (conv t 2).run = some _ := hstarts
  rw [hnone] at hsome
  cases hsome

end Sys2Proof.Machine
end

section
/-! SUPPORT. A command's way to its own meaning and its answer (R331, R332, R334, R345). PROOF. The standard queries (R335, R338). -/
namespace Sys2Proof.Machine

set_option Elab.async false

section
variable {s : State} {via : Transport} {op : Nat} {acc : Accept} {lenOk : Nat → Bool} {input : List Byte} {body : State → State}

/-! ### Reaching a command's meaning, and answering -/

/-- A command that reaches its meaning and only answers. -/
theorem query_ends {r : RetCode} {out : List Byte} (h : reaches s via op acc) (hlen : lenOk input.length = true)
    (hmax : via = .mctp → input.length ≤ payloadMax via) (hb : body (stampNow s) = answer via op r out (stampNow s)) :
    run (command via op acc lenOk input body) s = .next (ended s via op r out) := by
  refine run_of_effect_eq h.1 ?_
  rw [command_of_reaches body (s := stampNow s) h hlen hmax, hb, answer_eq]
  rfl

/-- An input of a small fixed length has room on every transport. -/
theorem payload_fits {n : Nat} (h : input.length = n) (hn : n ≤ 4096 := by decide) : via = .mctp → input.length ≤ payloadMax via := fun hv => by
  simpa [payloadMax, hv, h] using hn

@[simp] theorem leBytes_zero (n : Nat) : leBytes n 0 = List.replicate n 0 := by
  induction n with
  | zero => rfl
  | succ n ih => rw [leBytes, Nat.zero_div, ih]; rfl

/-- A command without an input that reaches its meaning and succeeds. -/
theorem query_succeeds {out : List Byte} (h : reaches s via op acc) (hlen : lenOk 0 = true)
    (hb : body (stampNow s) = succeed via op out (stampNow s)) :
    run (command via op acc lenOk [] body) s = .next (ended s via op ⟨0, 0⟩ out) :=
  query_ends h hlen (fun _ => Nat.zero_le _) hb

end

/-- Settles O54: each query passes the gates (`query_ends`) and answers its payload. -/
theorem standardQueriesAnswer : Obligations.StandardQueriesAnswer := by
  unfold Obligations.StandardQueriesAnswer
  intro s via input ok
  refine ⟨fun h => ?_, fun hb hl h => ?_, fun b hb h => ?_, fun op r out hb hl h => ?_, fun log l hlog hov hlost h => ?_, fun h => ?_,
      fun h => ?_,
    fun ht h => ?_, fun ht hle h => ?_, fun h => ?_, fun hlen huuid hle h => ?_, fun h => ?_, fun h => ?_, fun hlen hle hn h => ?_,
      fun h => ?_,
    fun h => ?_, fun h => ?_, fun hlen hp ho hbg h => ?_, fun r hlen hp ho hbg ha hz h => ?_, fun hlen hr h => ?_, fun h => ?_, fun h => ?_,
    fun o h => ?_⟩
  · exact query_succeeds h rfl (by cases via <;> rfl)
  · exact query_succeeds h rfl (by simp [bgStatus, hb, hl])
  · have hbit : (notAbortable b.opcode).toNat = if b.opcode ∈ [0x0201, 0x0202, 0x4400, 0x4401, 0xC004] then 1 else 0 := by
      simp only [notAbortable, eraseOp, List.mem_cons, List.not_mem_nil, or_false]
      split_ifs with hc
      · rcases hc with hc | hc | hc | hc | hc <;> simp [hc]
      · simp_all
    refine query_succeeds h rfl ?_
    have hb' : (stampNow s).mbx.bg = some b := hb
    simp only [bgStatus, hb', hbit]
    rfl
  · exact query_succeeds h rfl (by simp [bgStatus, hb, hl])
  · have hlog' : leAt 0 1 [BitVec.ofNat 8 log.val] = log.val := by
      fin_cases log <;> rfl
    refine query_ends h rfl (payload_fits (n := 1) rfl) ?_
    have hl' : tabGet logReset (stampNow s).host.logs log.val = l := hlog
    simp only [getEvents, hlog', hl', hov, hlost, if_neg (Nat.not_lt.2 (Nat.le_of_lt_succ log.isLt)), Bool.false_eq_true, if_false,
      leBytes_zero]
    rfl
  · exact query_succeeds h rfl rfl
  · exact query_succeeds h rfl rfl
  · exact query_succeeds h rfl (by simp [hostTime, ht])
  · refine query_succeeds h rfl ?_
    have ht' : hostTime (stampNow s) (stampNow s).gtc = (s.host.timestamp + (s.gtc - s.host.timestampGtc)) % 2 ^ 64 := by
      simp only [hostTime, stampNow_host, stampNow_gtc, if_neg ht, Nat.add_sub_assoc hle]
    rw [ht']
  · exact query_succeeds h rfl rfl
  · refine query_ends h (by rw [len, hlen]; rfl) (payload_fits hlen) ?_
    simp only [getLog, huuid]
    rw [if_neg (by simpa using hle)]
    rfl
  · exact query_succeeds h rfl rfl
  · exact query_succeeds h rfl rfl
  · refine query_ends h (by rw [len, hlen]; rfl) (payload_fits hlen) ?_
    simp only [getLsa]
    rw [if_neg (by simp [hle, hn])]
    rfl
  · exact query_succeeds h rfl rfl
  · exact query_succeeds h rfl rfl
  · exact query_succeeds h rfl rfl
  · refine query_ends h (by rw [len, hlen]; rfl) (payload_fits hlen) ?_
    have hbg' : bgOf (stampNow s) 0x4304 = none := hbg
    simp only [getPoison, stampNow_host, hp, ho, hbg', List.filter_nil, List.flatMap_nil, List.append_nil]
    rfl
  · refine query_ends h (by rw [len, hlen]; rfl) (payload_fits hlen) ?_
    have hbg' : bgOf (stampNow s) 0x4304 = none := hbg
    have hin : (decide (leAt 0 8 input / 64 * 64 < r.dpa + 64 * r.len) && decide (r.dpa < leAt 0 8 input / 64 * 64 + leAt 8 8 input * 64)) = true := by
      simp only [Bool.and_eq_true, decide_eq_true_eq]
      omega
    simp only [getPoison, stampNow_host, hp, ho, hbg', List.filter_cons, hin, if_true, List.filter_nil, List.flatMap_cons,
      List.flatMap_nil, List.append_nil, poisonEntry, ← List.append_assoc, leBytes_zero]
    have hhead : (List.replicate 1 0 ++ List.replicate 1 0 ++ List.replicate 8 0 ++ leBytes 2 1 ++ List.replicate 20 0 : List Byte)
        = List.replicate 10 0 ++ [1, 0] ++ List.replicate 20 0 := by decide
    rw [← hhead]
    rfl
  · refine query_ends h (by rw [len, hlen]; rfl) (payload_fits hlen) ?_
    have hr' : scanRange (stampNow s) input = true := hr
    simp only [scanCaps, hr']
    rfl
  · exact query_succeeds h rfl rfl
  · have hv : via = .mctp → input.length ≤ payloadMax via := fun hv => by
      obtain ⟨-, -, ⟨-, ha⟩ | ⟨-, -, -, hm⟩⟩ := h
      · simp [aonServes] at ha
      · exact absurd (hm hv) (by decide)
    exact query_ends h rfl hv rfl
  · by_cases ho : o.toNat < 0xC000
    · rw [if_pos ho]
      refine query_ends h rfl (payload_fits (n := 0) rfl) ?_
      rw [if_neg (Nat.not_le.2 ho)]
      rfl
    · rw [if_neg ho]
      refine query_ends h rfl (payload_fits (n := 0) rfl) ?_
      rw [if_pos (Nat.not_lt.1 ho), refuse, if_pos (Nat.not_lt.1 ho)]
      rfl

end Sys2Proof.Machine
end

section
/-! SUPPORT. Fields of a byte payload. PROOF. The vendor queries (R346 to R360). -/
namespace Sys2Proof.Machine

set_option Elab.async false

/-! ### Fields of a payload -/

theorem drop_past {xs : List Byte} {off : Nat} (h : xs.length ≤ off) (ys : List Byte) : (xs ++ ys).drop off = ys.drop (off - xs.length) := by
  rw [List.drop_append, List.drop_eq_nil_of_le h, List.nil_append]

/-- A field beyond a part lies in the rest. -/
theorem leAt_append {xs : List Byte} {off : Nat} (h : xs.length ≤ off) (n : Nat) (ys : List Byte) :
    leAt off n (xs ++ ys) = leAt (off - xs.length) n ys := by
  rw [leAt, drop_past h, leAt]

theorem leAt_head (n v : Nat) (ys : List Byte) : leAt 0 n (leBytes n v ++ ys) = v % 256 ^ n := by
  rw [leAt, List.drop_zero, List.take_left' (leBytes_length n v), ofLe_leBytes]

theorem leAt_whole (n v : Nat) : leAt 0 n (leBytes n v) = v % 256 ^ n := by
  simpa using leAt_head n v []

theorem leAt_cons (off n : Nat) (b : Byte) (t : List Byte) : leAt (off + 1) n (b :: t) = leAt off n t := rfl

theorem leAt_zeros (n : Nat) (ys : List Byte) : leAt 0 n (List.replicate n 0 ++ ys) = 0 := by
  rw [← leBytes_zero, leAt_head, Nat.zero_mod]

theorem rsvOk_append {xs : List Byte} {off : Nat} (h : xs.length ≤ off) (n : Nat) (ys : List Byte) :
    rsvOk off n (xs ++ ys) = rsvOk (off - xs.length) n ys := by
  rw [rsvOk, drop_past h, rsvOk]

theorem rsvOk_head {n : Nat} (ys : List Byte) : rsvOk 0 n (List.replicate n 0 ++ ys) = true := by
  simp [rsvOk]

/-- Words written one after another are read back. -/
theorem wordsOf_flatMap {as : List Nat} (h : ∀ a ∈ as, a < 2 ^ 32) (post : List Byte) :
    wordsOf as.length (as.flatMap (leBytes 4) ++ post) = as := by
  induction as with
  | nil => rfl
  | cons a as ih =>
    have ha : a % 256 ^ 4 = a := Nat.mod_eq_of_lt (h a (by simp))
    rw [List.flatMap_cons, List.append_assoc, List.length_cons, wordsOf, leAt_head, ha, List.drop_left' (leBytes_length 4 a),
      ih fun b hb => h b (List.mem_cons_of_mem _ hb)]

/-! ### A register's word by its address -/

section
variable {s : State}

/-- A register with a place in the address map reads there as it reads by its name, where its domain is powered. -/
theorem viewWord_of_reg {a i : Nat} {f : Fld} (hp : addrPowered s a = true) (hr : regAt a = some (regOf f, i)) :
    (viewWord s a).getD 0 = regWord s f i := by
  simp [viewWord, hp, hr, regWord]

theorem words_of_regs {as : List Nat} {fs : List Fld} (hp : ∀ a ∈ as, addrPowered s a = true)
    (h : as.map regAt = fs.map fun f => some (regOf f, 0)) :
    (as.flatMap fun a => leBytes 4 ((viewWord s a).getD 0)) = fs.flatMap fun f => leBytes 4 (regWord s f 0) := by
  induction as generalizing fs with
  | nil =>
    obtain rfl : fs = [] := by simpa using h.symm
    rfl
  | cons a as ih =>
    cases fs with
    | nil => simp at h
    | cons f fs =>
      obtain ⟨hf, ht⟩ := List.cons.inj h
      rw [List.flatMap_cons, List.flatMap_cons, viewWord_of_reg (hp a (by simp)) hf, ih (fun b hb => hp b (List.mem_cons_of_mem _ hb)) ht]

theorem aonOn_of_core (h : coreOn s = true) : aonOn s = true := by
  simp only [coreOn, Bool.and_eq_true] at h
  exact h.1.1

/-- Where the core is powered, every address is. -/
theorem addrPowered_of_core (h : coreOn s = true) (a : Nat) : addrPowered s a = true := by
  rw [addrPowered]
  split
  · exact aonOn_of_core h
  · exact h

theorem coreOn_of_hub {via : Transport} (h : endpoint s via = .hub) : coreOn s = true := by
  have hr : hubRuns s = true := by
    by_contra hn
    have hn : hubRuns s = false := by simpa using hn
    revert h
    unfold endpoint
    rw [hn]
    split_ifs <;> simp_all
  simp only [hubRuns, Bool.and_eq_true] at hr
  exact hr.1.2

theorem hub_of_reaches {via : Transport} {op : Nat} {acc : Accept} (h : reaches s via op acc) (ha : aonServes s op = false) :
    coreOn s = true := by
  obtain ⟨-, -, ⟨-, hs⟩ | ⟨hhub, -⟩⟩ := h
  · rw [ha] at hs
    cases hs
  · exact coreOn_of_hub hhub

theorem sortBy_single {α : Type} (le : α → α → Bool) (a : α) : sortBy le [a] = [a] := rfl

theorem writeOrder_nodup : (writeOrder s).Nodup := by
  refine (List.nodup_map_iff_inj_on List.nodup_range).2 fun i hi j hj h => ?_
  simp only [List.mem_range] at hi hj
  omega

theorem cursorSlots_nil : cursorSlots s [] = [] := by
  have hd : ∀ l : List Nat, l.dropWhile (fun _ => true) = [] := fun l => by induction l <;> simp_all
  simp [cursorSlots, hd]

/-- One slot asked for is the whole of its span in write order. -/
theorem cursorSlots_single {slot : Nat} (h : slot ∈ writeOrder s) : cursorSlots s [slot] = [slot] := by
  obtain ⟨pre, post, ho⟩ := List.append_of_mem h
  have hn := writeOrder_nodup (s := s)
  rw [ho] at hn
  obtain ⟨-, hpost, hdis⟩ := List.nodup_append.1 hn
  have hpre : ∀ k ∈ pre, (!([slot] : List Nat).contains k) = true := fun k hk => by simpa using hdis k hk slot (by simp)
  have hpo : ∀ k ∈ post.reverse, (!([slot] : List Nat).contains k) = true := fun k hk => by
    have : k ≠ slot := fun e => (List.nodup_cons.1 hpost).1 (e ▸ List.mem_reverse.1 hk)
    simpa using this
  rw [cursorSlots]
  simp only [ho]
  rw [List.dropWhile_append_of_pos hpre, List.dropWhile_cons_of_neg (by simp), List.reverse_cons, List.dropWhile_append_of_pos hpo]
  simp

/-- READ_REGISTERS without a read that acts: each word, and how many addresses gave none. -/
theorem readAll {as : List Nat} (h : ∀ a ∈ as, ∀ r n, regAt a = some (r, n) → r.base ≠ F.MCVn_FIFO2_WORD.base) (k : Nat) (out : List Byte) :
    as.foldl (fun (acc : State × Nat × List Byte) a =>
        let r := readOne .hub a acc.1
        (r.2.2, acc.2.1 + r.2.1.toNat, acc.2.2 ++ leBytes 4 r.1)) (s, k, out)
      = (s, k + (as.filter (fun a => (viewWord s a).isNone)).length, out ++ as.flatMap (fun a => leBytes 4 ((viewWord s a).getD 0))) := by
  have hone : ∀ a, (∀ r n, regAt a = some (r, n) → r.base ≠ F.MCVn_FIFO2_WORD.base) →
      readOne .hub a s = ((viewWord s a).getD 0, (viewWord s a).isNone, s) := fun a ha => by
    unfold readOne
    rw [if_neg (by simp)]
    cases viewWord s a with
    | none => rfl
    | some w =>
      cases hr : regAt a with
      | none => rfl
      | some x =>
        obtain ⟨r, n⟩ := x
        simp [ha r n hr]
  induction as generalizing k out with
  | nil => simp
  | cons a as ih =>
    rw [List.foldl_cons, hone a (h a (by simp))]
    dsimp only
    rw [ih fun b hb => h b (List.mem_cons_of_mem _ hb)]
    cases hv : (viewWord s a).isNone <;> simp [hv]
    omega

end

/-- Settles O55: each query passes the gates (`query_ends`), and its payload is read off field by field. -/
theorem vendorQueriesAnswer : Obligations.VendorQueriesAnswer := by
  unfold Obligations.VendorQueriesAnswer
  intro s via ok words regs
  refine ⟨fun h => ?status, fun h => ?ledger, fun first count hle hlt hc h => ?records, fun cur n hcur hn hall hring h => ?cursorNone,
    fun cur slot seq hcur hcirc hord hle hring h => ?cursorOne, fun as hne hfit haddr hhub hfifo h => ?registers, fun h => ?service,
    fun hl h => ?noResult, fun op r out hl h => ?result, fun t ht h => ?railTable, fun h => ?railChannels, fun h => ?railGlobals,
    fun c hc h => ?snapshot, fun page off n hp ho hn0 hn h => ?pages, fun n hn h => ?converter, fun h => ?cache,
    fun a n ha hn hle hfit h => ?bitmap, fun h => ?media, fun h => ?peloton, fun h => ?tandem⟩
  case status =>
    have hfits : Config.configByte s.config < 256 ∧ modeCode s.mode < 256 := ⟨by cases s.config <;> decide, by cases s.mode <;> decide⟩
    refine ⟨deviceStatus (stampNow s) ++ leBytes 16 0 ++ leBytes 8 s.gtc, query_ends h rfl (payload_fits (n := 4) rfl) rfl, ?_, ?_, ?_, ?_,
      ?_, ?_, fun hc => ?_⟩
    · simp [deviceStatus]
    · simp only [deviceStatus, List.append_assoc, leAt_head]
      exact Nat.mod_eq_of_lt hfits.1
    · simp [deviceStatus, List.append_assoc, leAt_head, leAt_append]
      exact hfits.2
    · simp [deviceStatus, List.append_assoc, leAt_head, leAt_append]
      exact s.serial.isLt
    · rw [List.append_assoc, leAt_append (by simp [deviceStatus])]
      simpa [deviceStatus] using leAt_zeros 16 (leBytes 8 s.gtc)
    · simp [deviceStatus, List.append_assoc, leAt_append, leAt_cons, leAt_whole]
      exact h.1
    · have hi : ifCore (stampNow s) (condition (stampNow s)) = 0 := if_neg (by simpa [coreOn] using hc)
      have hr : hubRuns (stampNow s) = false := by simp [hubRuns, hc]
      rw [deviceStatus, hi, hr]
      simp only [List.append_assoc, leAt_append, leBytes_length, Nat.one_le_ofNat, Nat.reduceSub, Nat.le_refl, leAt_head, if_neg,
      Bool.false_eq_true,
        not_false_eq_true, Nat.zero_mod, and_self]
  case ledger =>
    refine query_succeeds h rfl ?_
    have hif : (leBytes 4 (ifCore (stampNow s) s.led.eBase) ++ leBytes 4 (ifCore (stampNow s) s.led.eCover) : List Byte)
        = if coreOn s then leBytes 4 s.led.eBase ++ leBytes 4 s.led.eCover else List.replicate 8 0 := by
      have hc : coreOn (stampNow s) = coreOn s := rfl
      cases hco : coreOn s <;> simp [ifCore, hc, hco]
    show succeed via 0xC040 (ledgerStatus (stampNow s)) (stampNow s) = _
    rw [ledgerStatus, List.append_assoc, stampNow_led, hif]
    rfl
  case records =>
    refine query_ends h (by simp [len]) (payload_fits (n := 4) (by simp)) ?_
    have h0 : leAt 0 2 (leBytes 2 first ++ leBytes 2 count) = first := by rw [leAt_head]; omega
    have h2 : leAt 2 2 (leBytes 2 first ++ leBytes 2 count) = count := by
      rw [leAt_append (by simp), leBytes_length, Nat.sub_self, leAt_whole]; omega
    rw [readRecords]
    simp only [h0, h2]
    rw [if_neg (Nat.not_lt.2 hc), if_neg (by simp; omega)]
    rfl
  case cursorNone =>
    have h0 : leAt 0 4 (leBytes 4 cur ++ leBytes 2 n) = cur := by rw [leAt_head]; omega
    have h4 : leAt 4 2 (leBytes 4 cur ++ leBytes 2 n) = n := by
      have hlim : entryLimit via < 65536 := by unfold entryLimit; split <;> decide
      rw [leAt_append (by simp), leBytes_length, Nat.sub_self, leAt_whole]; omega
    have hcirc : (circRecords (stampNow s)).filter (fun x => decide (cur ≤ x.2)) = [] :=
      List.filter_eq_nil_iff.2 fun x hx => by simpa using hall x hx
    refine query_ends h (by simp [len]) (payload_fits (n := 6) (by simp)) ?_
    rw [readCursor]
    simp only [h0, h4, hcirc]
    rw [if_neg (Nat.not_lt.2 hn)]
    simp [sortBy, cursorSlots_nil, hring]
    rfl
  case cursorOne =>
    have h0 : leAt 0 4 (leBytes 4 cur ++ [1, 0]) = cur := by rw [leAt_head]; omega
    have h4 : leAt 4 2 (leBytes 4 cur ++ [1, 0]) = 1 := by
      rw [leAt_append (by simp), leBytes_length]; rfl
    have hlim : 1 ≤ entryLimit via := by unfold entryLimit; split <;> decide
    refine query_ends h (by simp [len]) (payload_fits (n := 6) (by simp)) ?_
    rw [readCursor]
    simp only [h0, h4, show circRecords (stampNow s) = [(slot, seq)] from hcirc]
    rw [if_neg (Nat.not_lt.2 hlim)]
    simp only [List.filter_cons, hle, sortBy_single, stampNow_rcd, hring, List.filter_nil, decide_true, if_true]
    simp [cursorSlots_single (s := stampNow s) hord]
    rw [List.take_of_length_le (by simpa using hlim), Nat.min_eq_right hlim]
    simp
    rfl
  case registers =>
    have hcount : as.length < 65536 := by unfold payloadMax at hfit; split at hfit <;> omega
    have hlen : (as.flatMap (leBytes 4)).length = 4 * as.length := by
      clear hne hfit haddr hfifo hcount
      induction as with
      | nil => rfl
      | cons a as ih => simp only [List.flatMap_cons, List.length_append, leBytes_length, ih, List.length_cons]; omega
    have hwords : wordsOf as.length ((leBytes 2 as.length ++ [0, 0] ++ as.flatMap (leBytes 4)).drop 4) = as := by
      rw [drop_past (by simp)]
      simpa using wordsOf_flatMap (as := as) (fun a ha => (haddr a ha).1.trans (by decide)) []
    have h0 : leAt 0 2 (leBytes 2 as.length ++ [0, 0] ++ as.flatMap (leBytes 4)) = as.length := by
      rw [List.append_assoc, leAt_head]; omega
    have hr : rsvOk 2 2 (leBytes 2 as.length ++ [0, 0] ++ as.flatMap (leBytes 4)) = true := by
      rw [List.append_assoc, rsvOk_append (by simp)]
      simp [rsvOk]
    have hlen' : (leBytes 2 as.length ++ [0, 0] ++ as.flatMap (leBytes 4)).length = 4 + 4 * as.length := by
      simp [hlen]; omega
    have hok : as.all addrOk = true := by
      simpa [addrOk] using haddr
    have hall := readAll (s := stampNow s) hfifo 0 []
    refine query_ends h (by simp; omega) (fun _ => by rw [hlen']; exact hfit) ?_
    rw [readRegisters]
    simp only [h0, hr, hwords, hlen', hok]
    rw [if_neg (by simpa using hne), if_neg (by simpa using hfit), if_neg (by simp)]
    rw [show endpoint (stampNow s) via = .hub from hhub, hall]
    simp only [Nat.zero_add, List.nil_append]
    rfl
  case service => exact query_succeeds h rfl rfl
  case noResult => exact query_succeeds h rfl (by simp [bgResult, hl])
  case result => exact query_succeeds h rfl (by simp [bgResult, hl])
  case railTable =>
    have hin : leAt 0 1 [BitVec.ofNat 8 t, 0, 0, 0] = t ∧ rsvOk 1 3 [BitVec.ofNat 8 t, 0, 0, 0] = true := by
      interval_cases t <;> decide
    refine query_ends h rfl (payload_fits (n := 4) rfl) ?_
    rw [railConfig]
    simp only [hin.1, hin.2]
    rw [if_neg (by simp; omega), if_pos ht, tableWords, List.flatMap_map]
    rfl
  case railChannels => exact query_ends h rfl (payload_fits (n := 4) rfl) rfl
  case railGlobals => exact query_ends h rfl (payload_fits (n := 4) rfl) rfl
  case snapshot =>
    have hin : leAt 0 1 [BitVec.ofNat 8 c, 0, 0, 0] = c ∧ rsvOk 1 3 [BitVec.ofNat 8 c, 0, 0, 0] = true := by
      interval_cases c <;> decide
    refine query_ends h rfl (payload_fits (n := 4) rfl) ?_
    rw [getSnapshotList]
    simp only [hin.1, hin.2]
    rw [if_neg (by simp; omega)]
    rfl
  case pages =>
    have h0 : leAt 0 2 (leBytes 2 page ++ leBytes 1 off ++ [0] ++ leBytes 4 n) = page := by
      simp only [List.append_assoc, leAt_head]; omega
    have h2 : leAt 2 1 (leBytes 2 page ++ leBytes 1 off ++ [0] ++ leBytes 4 n) = off := by
      simp only [List.append_assoc]
      rw [leAt_append (by simp), leBytes_length, Nat.sub_self, leAt_head]; omega
    have h4 : leAt 4 4 (leBytes 2 page ++ leBytes 1 off ++ [0] ++ leBytes 4 n) = n := by
      rw [leAt_append (by simp)]
      simp only [List.length_append, leBytes_length, List.length_cons, List.length_nil, Nat.reduceAdd, Nat.sub_self, leAt_whole]; omega
    have hr : rsvOk 3 1 (leBytes 2 page ++ leBytes 1 off ++ [0] ++ leBytes 4 n) = true := by
      rw [List.append_assoc, rsvOk_append (by simp)]
      simp [rsvOk]
    refine query_ends h (by simp [len]) (payload_fits (n := 8) (by simp)) ?_
    rw [readPages]
    simp only [h0, h2, h4, hr]
    have hpages : accessPages page n = [page] := by
      have hone : max 1 ((n + 255) / 256) = 1 := by omega
      simp [accessPages, hone]
    have hok : accessOk page off n = true := by simp [accessOk, hn]; omega
    have hkey : keyPage page = false := by simp [keyPage]; omega
    have hmax : ¬ payloadMax via < n := by unfold payloadMax; split <;> omega
    rw [if_neg (by simp [hok, hpages, hkey]), if_neg hmax, if_pos hn]
    rfl
  case converter =>
    have hin : leAt 0 1 [BitVec.ofNat 8 n, 0, 0, 0] = n ∧ rsvOk 1 3 [BitVec.ofNat 8 n, 0, 0, 0] = true := by
      interval_cases n <;> decide
    refine query_ends h rfl (payload_fits (n := 4) rfl) ?_
    rw [converterConfig]
    simp only [hin.1, hin.2]
    rw [if_neg (by simp; omega)]
    rfl
  case cache =>
    refine query_succeeds h rfl ?_
    have hw : words [0x80000, 0x80004] = [F.CCH_MODE_STATE, F.CCH_FLUSH_REMAIN_LINES].flatMap fun f => leBytes 4 (regWord s f 0) :=
      words_of_regs (fun a _ => addrPowered_of_core (hub_of_reaches h rfl) a) (by decide +kernel)
    show succeed via 0xC050 (cacheStatus (stampNow s)) (stampNow s) = _
    rw [cacheStatus, hw]
    simp
    rfl
  case bitmap =>
    have hext : Config.extents s.config < 2 ^ 32 := by cases s.config <;> decide
    have h0 : leAt 0 4 (leBytes 4 a ++ leBytes 4 n) = a := by rw [leAt_head]; omega
    have h4 : leAt 4 4 (leBytes 4 a ++ leBytes 4 n) = n := by
      rw [leAt_append (by simp), leBytes_length, Nat.sub_self, leAt_whole]; omega
    refine query_ends h (by simp [len]) (payload_fits (n := 8) (by simp)) ?_
    rw [releaseBitmap]
    simp only [h0, h4]
    rw [if_neg (by
      rw [ha, hn, show (stampNow s).config = s.config from rfl, decide_eq_false (Nat.not_lt.2 hle)]
      decide), if_neg (Nat.not_lt.2 hfit)]
    rfl
  case media =>
    refine query_succeeds h rfl ?_
    have hw : words [0x100, 0x104, 0x108, 0x10C, 0x110, 0x114, 0x118] = mediaRegs.flatMap fun f => leBytes 4 (regWord s f 0) :=
      words_of_regs (fun a _ => addrPowered_of_core (hub_of_reaches h rfl) a) (by decide +kernel)
    rw [hw]
    rfl
  case peloton =>
    refine query_succeeds h rfl ?_
    have hw : words [0xCA000, 0xCA004, 0xCA008, 0xCA00C, 0xCA010, 0xCA014] = pelRegs.flatMap fun f => leBytes 4 (regWord s f 0) :=
      words_of_regs (fun a _ => addrPowered_of_core (hub_of_reaches h rfl) a) (by decide +kernel)
    rw [hw]
    rfl
  case tandem =>
    refine query_succeeds h rfl ?_
    have hw : words [0xA2000, 0xA2004, 0xA2008, 0xA200C, 0xA2010, 0xA2014, 0xA2018,
      0xA201C] = tndRegs.flatMap fun f => leBytes 4 (regWord s f 0) :=
      words_of_regs (fun a _ => addrPowered_of_core (hub_of_reaches h rfl) a) (by decide +kernel)
    rw [hw]
    rfl

end Sys2Proof.Machine
end

section
/-! PROOF. The ring's timers (R310 to R315, R329). -/
namespace Sys2Proof.Machine

set_option Elab.async false

section
variable {s : State}

/-- The state at a command's own instant. -/
theorem advanced_spec (hg : gtcOk s) (hm : s.mode ≠ .off) (t : Nat) :
    (advanceTo t (stampNow s)).gtc = max s.gtc (t % 2 ^ 64) ∧ (advanceTo t (stampNow s)).gtc % 2 ^ 64 = max s.gtc (t % 2 ^ 64)
      ∧ keptBut s (advanceTo t (stampNow s)) [.gtc, .stamp] := by
  have h : (advanceTo t (stampNow s)).gtc = max s.gtc (t % 2 ^ 64) := by
    rw [advanceTo_of_on (s := stampNow s) hm]
    rfl
  exact ⟨h, by rw [h]; exact Nat.mod_eq_of_lt (laterOf_lt hg t), by simp⟩

theorem ringOut_of_used (h : fon s F.PEL_CFG_EN 0 = true) (type payload : Nat) :
    ringOut type payload s = emit (.ring type (withCrc type
      ⟨Fin.ofNat 16 (devid s), 0, BitVec.ofNat 8 (fget s F.PEL_STATUS_EPOCH 0), BitVec.ofNat 64 payload, 0, 0⟩)) s := if_pos h

@[simp] theorem fget_ringRecord (g : Fld) (i : Nat) : fget (ringRecord s) g i = fget s g i := rfl
@[simp] theorem ringRecord_pel : (ringRecord s).pel = s.pel := rfl
@[simp] theorem ringRecord_gtc : (ringRecord s).gtc = s.gtc := rfl

/-- A new time base: the device is its own reference. -/
theorem newBase_master {count : Nat} (hd : devid s < 16) (hc : count < 15) :
    fget (newBase count s) F.PEL_STATUS_IS_MASTER 0 = 1 ∧ fget (newBase count s) F.PEL_STATUS_MASTER 0 = devid s
      ∧ fget (newBase count s) F.PEL_STATUS_ALIGNED 0 = 1 ∧ fget (newBase count s) F.PEL_STATUS_EPOCH 0 = count * 16 + devid s
      ∧ fget (newBase count s) F.PEL_ERR_MASTER_LOST 0 = fget s F.PEL_ERR_MASTER_LOST 0
      ∧ keptBut s (newBase count s) [.sbg, .regs, .rcd, .pel] ∧ (newBase count s).pel.claimOpen = s.pel.claimOpen := by
  have hr : (ctrUpdate ctrTimeBase count s).regs = s.regs := regs_of_kept (ps := [.sbg]) (by simp)
  have hf : ∀ (g : Fld) (i : Nat), fget (ctrUpdate ctrTimeBase count s) g i = fget s g i := fun g i => by simp [fget, hr]
  have hdev : devid (ctrUpdate ctrTimeBase count s) = devid s := hf _ _
  have hpel : (ctrUpdate ctrTimeBase count s).pel = s.pel := agree_of_kept (ps := [.sbg]) (by simp) .pel
  have hm : devid s % 2 ^ F.PEL_STATUS_MASTER.width = devid s := Nat.mod_eq_of_lt hd
  have he : (count * 16 + devid s) % 2 ^ F.PEL_STATUS_EPOCH.width = count * 16 + devid s :=
    Nat.mod_eq_of_lt (show _ < 256 by omega)
  refine ⟨?_, ?_, ?_, ?_, ?_, by simp [newBase], ?_⟩
  · simp (disch := decide) [newBase, beMaster, takeMaster, fclr, fbit, hdev, fget_fset_other, fget_fput_other]
  · simp (disch := decide) [newBase, beMaster, takeMaster, fclr, fbit, hdev, fget_fset_other, fget_fput_other, hm]
  · simp (disch := decide) [newBase, beMaster, takeMaster, fclr, fbit, fget_fset_same, fget_fput_other]
  · simp (disch := decide) [newBase, beMaster, takeMaster, fclr, fbit, hdev, fget_fset_other, fget_fput_other, he]
  · simp (disch := decide) [newBase, beMaster, takeMaster, fclr, fbit, hdev, fget_fset_other, fget_fput_other, hf]
  · simp [newBase, beMaster, takeMaster, hpel]

/-- A cleared bit of a mask reads 0. -/
theorem maskBit_clear (w : Nat) (d : Fin 16) : maskBit w d.val false % 2 ^ 16 / 2 ^ d.val % 2 = 0 := by
  fin_cases d <;> simp [maskBit] <;> omega

theorem setSplit_split (h : fget s F.PEL_STATUS_SPLIT 0 ≤ 1) : fget (setSplit s) F.PEL_STATUS_SPLIT 0 = 1 := by
  unfold setSplit
  split
  · next hon =>
    have : fget s F.PEL_STATUS_SPLIT 0 ≠ 0 := by simpa [fon] using hon
    omega
  · simp (disch := decide) [fget_fset_same]

theorem regsKept_of_kept {ps : List Part} {t : State} {fs : List (Fld × Nat)} (h : keptBut s t ps)
    (hr : Part.regs ∉ ps := by decide) : regsKept s t fs := (regsKept_iff_of_regs (regs_of_kept h hr)).2 (regsKept_refl s fs)

end

/-- Settles O51: each timer moves the time to its instant and does what its rule says. -/
theorem ringTimersKeepTimeAndPresence : Obligations.RingTimersKeepTimeAndPresence := by
  unfold Obligations.RingTimersKeepTimeAndPresence
  intro s hg hu hdv frame master
  obtain ⟨hon, hen⟩ : aonOn s = true ∧ fon s F.PEL_CFG_EN 0 = true := by simpa [ringUsed] using hu
  have hm : s.mode ≠ .off := by simpa [aonOn] using hon
  have hus : ringUsed (stampNow s) = true := hu
  refine ⟨fun hma => ?send, ?present, fun m h hma hms hmm hdup hcl => ?loss, fun hma hcl hdup hms hpr => ?claim, fun hma => ?ret,
    fun hma hsp => ?split, fun d p hp => ?expiry⟩
  case send =>
    obtain ⟨hv, hv', hk⟩ := advanced_spec hg hm ((s.pel.lastSend / 250 + 16) * 250)
    have he : timeSend (stampNow s) = ringOut 1 (advanceTo ((s.pel.lastSend / 250 + 16) * 250) (stampNow s)).gtc
        (onPel (fun p => { p with lastSend := (advanceTo ((s.pel.lastSend / 250 + 16) * 250) (stampNow s)).gtc })
          (advanceTo ((s.pel.lastSend / 250 + 16) * 250) (stampNow s))) := by
      rw [timeSend, hus, show isMaster (stampNow s) = true from hma]
      rfl
    rw [ringOut_of_used (by simpa using hen)] at he
    refine ⟨_, run_of_effect he, hv', ?_, ?_, keptBut_settle_gtc (by simp)⟩
    · rw [settle_gtc, emit_gtc, onPel_gtc, hv', ← hv]
      rfl
    · rw [settle_gtc, emit_gtc, onPel_gtc, hv', ← hv]
      rfl
  case present =>
    refine run_of_effect_eq hg ?_
    rw [presentSend, hus, if_pos rfl, ringOut_of_used (s := stampNow s) hen]
    rfl
  case loss =>
    obtain ⟨-, hv', hk⟩ := advanced_spec hg hm (h.stamp + 16000)
    generalize hx : (advanceTo (h.stamp + 16000) (stampNow s)
        |> onPel (fun p => { p with masters := tabDel m p.masters })
        |> fset F.PEL_ERR_MASTER_LOST 0 |> fclr F.PEL_STATUS_ALIGNED 0 |> fclr F.PEL_STATUS_SLEWING 0
        |> onPel (fun p => { p with slew := 0 })) = x
    have he : masterLoss (stampNow s) = newBase (nextCount (h.epoch / 16)) x := by
      have hm1 : fget (stampNow s) F.PEL_STATUS_MASTER 0 = m := hmm
      have hf : ((stampNow s).pel.masters.filter fun y => y.1 == m).head? = some (m, h) := by
        rw [stampNow_pel, hms]
        simp
      have hx0 : x.pel.masters = [] ∧ x.pel.dup = false ∧ x.pel.claimOpen = false := by
        rw [← hx]
        simp [hms, tabDel, hdup, hcl]
      have hxn : (mastersNow x).filter (fun y => y.1 != m) = [] := by simp [mastersNow, hx0.1]
      rw [masterLoss]
      simp only [hm1, hf, hus, show isMaster (stampNow s) = false from hma, Bool.not_true, Bool.or_self, Bool.false_eq_true, if_false]
      rw [hx, hxn]
      simp [hx0.2.1, hx0.2.2]
    have hxk : keptBut (advanceTo (h.stamp + 16000) (stampNow s)) x [.regs, .pel] := by rw [← hx]; simp
    have hxd : devid x = devid s := by rw [← hx]; simp (disch := decide) [devid, fget_fclr_other, fget_fset_other]
    have hxl : fget x F.PEL_ERR_MASTER_LOST 0 = 1 := by rw [← hx]; simp (disch := decide) [fget_fclr_other, fget_fset_same]
    obtain ⟨h1, h2, h3, h4, h5, hb, -⟩ := newBase_master (s := x) (count := nextCount (h.epoch / 16)) (hxd ▸ hdv) (Nat.mod_lt _ (by decide))
    have hall : keptBut s (newBase (nextCount (h.epoch / 16)) x) [.gtc, .stamp, .sbg, .regs, .rcd, .pel] :=
      keptBut_trans (keptBut_mono (keptBut_trans (keptBut_mono hk (by simp)) (keptBut_mono hxk (qs := [.gtc, .stamp, .regs,
      .pel]) (by simp))) (by simp))
        (keptBut_mono hb (by simp))
    refine ⟨_, run_of_effect he, ?_, h5.trans hxl, ⟨h1, h2.trans hxd, h3, agree_of_kept hall .mode, agree_of_kept hall .med⟩,
      h4.trans (by rw [hxd]; rfl)⟩
    rw [settle_gtc, show (newBase (nextCount (h.epoch / 16)) x).gtc = x.gtc from agree_of_kept hb .gtc,
      show x.gtc = _ from agree_of_kept hxk .gtc, hv']
  case claim =>
    obtain ⟨-, hv', hk⟩ := advanced_spec hg hm (s.pel.startAt + 1000000)
    generalize hx : onPel (fun p => { p with claimOpen := false }) (advanceTo (s.pel.startAt + 1000000) (stampNow s)) = x
    have he : claimEnd (stampNow s) = newBase (nextCount ((ctrValue x ctrTimeBase).getD 14)) x := by
      have hany : (s.pel.present.any fun y => decide (y.1 < devid s)) = false := by simpa using hpr
      have hxm : isMaster x = false := by rw [← hx]; exact hma
      have hxc : mayClaim x = true := by rw [← hx]; simp [mayClaim, hdup, mastersNow, hms]
      have hxa : (x.pel.present.any fun y => decide (y.1 < devid x)) = false := by rw [← hx]; exact hany
      have hxn : (mastersNow x).isEmpty = true := by rw [← hx]; simp [mastersNow, hms]
      have hx' : onPel (fun p => { p with claimOpen := false }) (advanceTo ((stampNow s).pel.startAt + 1000000) (stampNow s)) = x := hx
      simp only [claimEnd, hus, show (stampNow s).pel.claimOpen = true from hcl, hx', hxm, hxc, hxa, hxn, Bool.not_true, Bool.or_self,
        Bool.false_eq_true, if_false, if_true]
    have hxd : devid x = devid s := by rw [← hx]; rfl
    have hxk : keptBut s x [.gtc, .stamp, .pel] := by rw [← hx]; exact keptBut_trans (keptBut_mono hk (by simp)) (by simp)
    obtain ⟨h1, h2, h3, -, -, hb, hcl'⟩ := newBase_master (s := x) (count := nextCount ((ctrValue x ctrTimeBase).getD 14)) (hxd ▸ hdv)
      (Nat.mod_lt _ (by decide))
    have hall : keptBut s (newBase (nextCount ((ctrValue x ctrTimeBase).getD 14)) x) [.gtc, .stamp, .sbg, .regs, .rcd, .pel] :=
      keptBut_trans (keptBut_mono hxk (by simp)) (keptBut_mono hb (by simp))
    refine ⟨_, run_of_effect he, ?_, ⟨h1, h2.trans hxd, h3, agree_of_kept hall .mode, agree_of_kept hall .med⟩, ?_⟩
    · rw [settle_gtc, show (newBase _ x).gtc = x.gtc from agree_of_kept hb .gtc, ← hx]
      exact hv'
    · rw [settle_pel, hcl', ← hx]
      rfl
  case ret =>
    obtain ⟨-, hv', hk⟩ := advanced_spec hg hm (s.pel.ownReturn + 16000)
    have he : returnTimeout (stampNow s) = setSplit (advanceTo (s.pel.ownReturn + 16000) (stampNow s)) := by
      rw [returnTimeout, hus, show isMaster (stampNow s) = true from hma]
      rfl
    generalize advanceTo (s.pel.ownReturn + 16000) (stampNow s) = v at he hv' hk
    have hvf : fget v F.PEL_STATUS_SPLIT 0 = fget s F.PEL_STATUS_SPLIT 0 := by rw [fget, fget, regs_of_kept hk]
    have hvr : regsKept s v [(F.PEL_STATUS_SPLIT, 0)] := regsKept_of_kept hk
    refine ⟨_, run_of_effect he, ?_, fun h1 => setSplit_split (hvf ▸ h1), ?_,
      keptBut_settle_gtc (keptBut_trans (keptBut_mono hk (by simp)) (by simp))⟩
    · rw [settle_gtc, show (setSplit v).gtc = v.gtc from agree_of_kept (ps := [.regs, .rcd]) (by simp) .gtc, hv']
    · simp [setSplit, ringRecord, hvr]
  case split =>
    obtain ⟨-, hv', hk⟩ := advanced_spec hg hm (s.pel.otherEpochAt + 256000)
    have he : splitClear (stampNow s) = fclr F.PEL_STATUS_SPLIT 0 (advanceTo (s.pel.otherEpochAt + 256000) (stampNow s)) := by
      have hma' : isMaster (advanceTo (s.pel.otherEpochAt + 256000) (stampNow s)) = false := hma
      rw [splitClear, hus, show fon (stampNow s) F.PEL_STATUS_SPLIT 0 = true by simp [fon, hsp]]
      simp [hma']
    refine ⟨_, run_of_effect he, hv', ?_, by simp, keptBut_settle_gtc (by simp)⟩
    simp [fclr]
  case expiry =>
    obtain ⟨-, hv', hk⟩ := advanced_spec hg hm (p.stamp + 256000)
    have he : presentExpiry d (stampNow s) = fput F.PEL_PRESENT_HEARD 0 (maskBit (fget s F.PEL_PRESENT_HEARD 0) d.val false)
        (advanceTo (p.stamp + 256000) (stampNow s)) := by
      rw [presentExpiry, stampNow_pel, hp]
      simp [hon]
    refine ⟨_, run_of_effect he, hv', ?_, by simp, keptBut_settle_gtc (by simp)⟩
    rw [fget_settle, fget_fput_same]
    exact maskBit_clear _ d

end Sys2Proof.Machine
end

section
/-! PROOF. Frames of the sync ring (R310 to R317, R329). -/
namespace Sys2Proof.Machine

set_option Elab.async false

section
variable {s : State} {f : RingFrame} {n : Nat} {k : State → State}

theorem onFrame_good (hu : ringUsed s = true) (hc : f.crc = frameCrc n f) : onFrame n f k s = k (forwardFrame n f s) := by
  rw [onFrame, hu, hc]
  simp

theorem onFrame_bad (hu : ringUsed s = true) (hc : ¬ f.crc = frameCrc n f) :
    onFrame n f k s = (s |> finc F.PEL_CRC_COUNT_COUNT 0 |> fset F.PEL_ERR_CRC 0) := by
  rw [onFrame, hu]
  simp [hc]

theorem forwardFrame_own (h : f.origin.val = devid s) : forwardFrame n f s = s := by
  rw [forwardFrame]
  simp [h]

/-- The frame as it leaves again, with the forwarding time `d`. -/
def passedOn (n : Nat) (f : RingFrame) (d : Nat) (s : State) : RingFrame :=
  withCrc n { f with hops := Fin.ofNat 16 (f.hops.val + 1), delay := f.delay + BitVec.ofNat 16 (d + fget s F.PEL_CFG_IN_DELAY 0) }

theorem forwardFrame_passes (h : f.origin.val ≠ devid s) (hh : f.hops.val < 15) :
    forwardFrame n f s = useFree (emit (.ring n (passedOn n f (510 + freeValue s % 5) s)) s) := by
  rw [forwardFrame, if_neg (by simp; omega)]
  rfl

/-- A set bit of a mask reads 1. -/
theorem maskBit_read (w : Nat) (d : Fin 16) (b : Bool) : maskBit w d.val b % 2 ^ 16 / 2 ^ d.val % 2 = b.toNat := by
  cases b <;> fin_cases d <;> simp [maskBit] <;> omega

/-- A frame heard in the same instant is within its 16 µs. -/
theorem mastersNow_single {o : Nat} {h : Heard} (hm : s.pel.masters = [(o, h)]) (ht : s.gtc ≤ h.stamp + 16000) : mastersNow s = [(o, h)] := by
  simp [mastersNow, hm, ht]

/-! ### Following a master -/

/-- Registers of the master followed. -/
theorem takeMaster_regs {m epoch hops : Nat} (hm : m < 16) :
    fget (takeMaster m epoch hops s) F.PEL_STATUS_MASTER 0 = m
      ∧ fget (takeMaster m epoch hops s) F.PEL_STATUS_EPOCH 0
        = (if m == devid s || s.pel.alignedOnce then epoch else fget s F.PEL_STATUS_EPOCH 0) % 2 ^ F.PEL_STATUS_EPOCH.width
      ∧ fget (takeMaster m epoch hops s) F.PEL_STATUS_HOPS 0 = hops % 16
      ∧ fget (takeMaster m epoch hops s) F.PEL_STATUS_IS_MASTER 0 = (m == devid s).toNat
      ∧ fget (takeMaster m epoch hops s) F.PEL_STATUS_ALIGNED 0 = fget s F.PEL_STATUS_ALIGNED 0
      ∧ devid (takeMaster m epoch hops s) = devid s
      ∧ keptBut s (takeMaster m epoch hops s) [.regs, .rcd] := by
  have hm' : m % 2 ^ F.PEL_STATUS_MASTER.width = m := Nat.mod_eq_of_lt hm
  refine ⟨?_, ?_, ?_, ?_, ?_, ?_, by simp⟩
  · simp (disch := decide) [takeMaster, fbit, fget_fput_other, hm']
  · simp (disch := decide) [takeMaster, fbit, fget_fput_other]
  · simp (disch := decide) [takeMaster, fbit, fget_fput_other]
    rfl
  · cases h : m == devid s <;> simp (disch := decide) [takeMaster, fbit, h]
  · simp (disch := decide) [takeMaster, fbit, fget_fput_other]
  · simp (disch := decide) [devid, takeMaster, fbit, fget_fput_other]

theorem slotCheck_spec : keptBut s (slotCheck s) [.regs, .pel] ∧ (slotCheck s).pel.masters = s.pel.masters
    ∧ (slotCheck s).pel.dup = s.pel.dup ∧ (slotCheck s).pel.alignedOnce = s.pel.alignedOnce
    ∧ ∀ (g : Fld) (i : Nat), g.key i ≠ F.PEL_ERR_SLOT_MISMATCH.key 0 → fget (slotCheck s) g i = fget s g i := by
  refine ⟨by simp, ?_⟩
  unfold slotCheck
  dsimp only
  split
  · split
    · exact ⟨rfl, rfl, rfl, fun g i h => rfl⟩
    · refine ⟨by simp, by simp, by simp, fun g i h => ?_⟩
      simp [fset, fget_fput_other _ _ _ _ _ _ h]
  · exact ⟨rfl, rfl, rfl, fun g i h => rfl⟩

theorem joinBase_single {m : Nat} {h : Heard} (hms : s.pel.masters = [(m, h)]) (hm : fget s F.PEL_STATUS_MASTER 0 = m) :
    joinBase s = takeMaster m h.epoch (fget s F.PEL_STATUS_HOPS 0) (onPel (fun p => { p with alignedOnce := true }) s) := by
  simp [joinBase, hms, hm, forEach]

/-- The GTC on the master's time. -/
def onTime (off : Int) (s : State) : State :=
  { s with gtc := (s.gtc + off.toNat) % 2 ^ 64 }
    |> onPel (fun p => { p with slew := 0 }) |> fbit F.PEL_STATUS_SLEWING 0 false |> fbit F.PEL_STATUS_ALIGNED 0 true

theorem correct_of_step {off16 : Int} (hst : s.mode = .standby) (hoff : 0 < nearest16 off16) (hdup : s.pel.dup = false) :
    correct off16 s = when (!s.pel.alignedOnce) joinBase (onTime (nearest16 off16) s) := by
  simp [correct, hst, hoff, hdup, onTime]

theorem onTime_spec (off : Int) : (onTime off s).gtc = (s.gtc + off.toNat) % 2 ^ 64 ∧ fget (onTime off s) F.PEL_STATUS_ALIGNED 0 = 1
    ∧ (onTime off s).pel.masters = s.pel.masters ∧ (onTime off s).mode = s.mode
    ∧ ∀ (g : Fld) (i : Nat), g.key i ≠ F.PEL_STATUS_SLEWING.key 0 → g.key i ≠ F.PEL_STATUS_ALIGNED.key 0 →
      fget (onTime off s) g i = fget s g i := by
  refine ⟨by simp [onTime], ?_, by simp [onTime], by simp [onTime], fun g i h1 h2 => ?_⟩
  · simp (disch := decide) [onTime, fbit]
  · simp [onTime, fbit, fget_fput_other, h1, h2]
    rfl

theorem presentHeard_spec (o : Fin 16) (w : BitVec 64) : keptBut s (presentHeard o.val w s) [.regs, .pel]
    ∧ regsKept s (presentHeard o.val w s) [(F.PEL_PRESENT_HEARD, 0), (F.PEL_PRESENT_RAILS_DOWN, 0), (F.PEL_ERR_SLOT_MISMATCH, 0)]
    ∧ fget (presentHeard o.val w s) F.PEL_PRESENT_HEARD 0 / 2 ^ o.val % 2 = 1
    ∧ fget (presentHeard o.val w s) F.PEL_PRESENT_RAILS_DOWN 0 / 2 ^ o.val % 2 = w.toNat / 2 ^ 19 % 2 := by
  generalize hx : (s |> onPel (fun p => { p with present := tabPut o.val ⟨s.gtc, w, if w.toNat / 2 ^ 19 % 2 == 1 && fromPartner s o.val w.toNat
        then (match (s.pel.present.filter (fun x => x.1 == o.val)).head? with | some (_, p) => p.downRun | none => 0) + 1 else 0⟩ p.present })
    |> fput F.PEL_PRESENT_HEARD 0 (maskBit (fget s F.PEL_PRESENT_HEARD 0) o.val true)
    |> fput F.PEL_PRESENT_RAILS_DOWN 0 (maskBit (fget s F.PEL_PRESENT_RAILS_DOWN 0) o.val (w.toNat / 2 ^ 19 % 2 == 1))) = x
  have he : ∃ b, presentHeard o.val w s = when b slotCheck x := ⟨_, by rw [← hx]; rfl⟩
  obtain ⟨b, he⟩ := he
  have hf : ∀ (g : Fld) (i : Nat), g.key i ≠ F.PEL_ERR_SLOT_MISMATCH.key 0 → fget (presentHeard o.val w s) g i = fget x g i := fun g i hg => by
    rw [he]
    cases b
    · rfl
    · exact slotCheck_spec.2.2.2.2 g i hg
  have hbit : (w.toNat / 2 ^ 19 % 2 == 1).toNat = w.toNat / 2 ^ 19 % 2 := by
    rcases Nat.mod_two_eq_zero_or_one (w.toNat / 2 ^ 19) with h | h <;> rw [h] <;> rfl
  refine ⟨by simp, fun g i hg => ?_, ?_, ?_⟩
  · simp only [List.mem_cons, List.not_mem_nil, or_false, forall_eq_or_imp, forall_eq] at hg
    obtain ⟨h1, h2, h3⟩ := hg
    rw [hf g i h3, ← hx, fget_fput_other _ _ _ _ _ _ h2, fget_fput_other _ _ _ _ _ _ h1, fget_onPel]
  · rw [hf _ _ (by decide), ← hx, fget_fput_other _ _ _ _ _ _ (by decide), fget_fput_same]
    exact maskBit_read _ o true
  · rw [hf _ _ (by decide), ← hx, fget_fput_same]
    exact (maskBit_read _ o _).trans hbit

/-- The device is moved onto its master's time. -/
theorem correct_steps {off16 : Int} {m : Nat} {h : Heard} (hst : s.mode = .standby) (hoff : 0 < nearest16 off16)
    (hdup : s.pel.dup = false) (hms : s.pel.masters = [(m, h)]) (hm : fget s F.PEL_STATUS_MASTER 0 = m) (hlt : m < 16)
    (hd : m ≠ devid s) (hh : fget s F.PEL_STATUS_HOPS 0 < 16) (he : h.epoch < 256) (hi : fget s F.PEL_STATUS_IS_MASTER 0 = 0)
    (hep : s.pel.alignedOnce = true → fget s F.PEL_STATUS_EPOCH 0 = h.epoch) :
    (correct off16 s).gtc = (s.gtc + (nearest16 off16).toNat) % 2 ^ 64 ∧ fget (correct off16 s) F.PEL_STATUS_ALIGNED 0 = 1
      ∧ fget (correct off16 s) F.PEL_STATUS_MASTER 0 = m ∧ fget (correct off16 s) F.PEL_STATUS_EPOCH 0 = h.epoch
      ∧ fget (correct off16 s) F.PEL_STATUS_HOPS 0 = fget s F.PEL_STATUS_HOPS 0 ∧ fget (correct off16 s) F.PEL_STATUS_IS_MASTER 0 = 0
      ∧ devid (correct off16 s) = devid s ∧ (correct off16 s).pel.masters = s.pel.masters ∧ (correct off16 s).mode = .standby := by
  obtain ⟨h1, h2, h3, h4, hf⟩ := onTime_spec (s := s) (nearest16 off16)
  have hfm := hf F.PEL_STATUS_MASTER 0 (by decide) (by decide)
  have hfe := hf F.PEL_STATUS_EPOCH 0 (by decide) (by decide)
  have hfh := hf F.PEL_STATUS_HOPS 0 (by decide) (by decide)
  have hfi := hf F.PEL_STATUS_IS_MASTER 0 (by decide) (by decide)
  have hfd : devid (onTime (nearest16 off16) s) = devid s := hf F.PEL_STATUS_DEVID 0 (by decide) (by decide)
  rw [correct_of_step hst hoff hdup]
  generalize onTime (nearest16 off16) s = u at *
  cases hal : s.pel.alignedOnce with
  | true => exact ⟨h1, h2, hfm.trans hm, hfe.trans (hep hal), hfh, hfi.trans hi, hfd, h3, h4.trans hst⟩
  | false =>
    have hj := joinBase_single (h3.trans hms) (hfm.trans hm)
    obtain ⟨t1, t2, t3, t4, t5, t6, tk⟩ := takeMaster_regs (s := onPel (fun p => { p with alignedOnce := true }) u) (epoch := h.epoch)
      (hops := fget u F.PEL_STATUS_HOPS 0) hlt
    have hne : (m == devid u) = false := by rw [hfd]; simpa using hd
    rw [Bool.not_false, when_true, hj]
    refine ⟨(agree_of_kept tk .gtc).trans h1, t5.trans h2, t1, t2.trans ?_, t3.trans ?_, t4.trans ?_, t6.trans hfd, ?_,
      (agree_of_kept tk .mode).trans (h4.trans hst)⟩
    · simpa using Nat.mod_eq_of_lt (show h.epoch < 2 ^ F.PEL_STATUS_EPOCH.width from he)
    · rw [hfh]; exact Nat.mod_eq_of_lt hh
    · exact congrArg Bool.toNat hne
    · exact (congrArg (·.masters) (agree_of_kept tk .pel)).trans h3

/-- While only a lower-numbered master is heard the device takes nothing over. -/
theorem takeOver_of_lower {m : Nat} {h : Heard} (hms : s.pel.masters = [(m, h)]) (hlt : m < devid s) : takeOver s = s := by
  have hc : mayClaim s = false ∨ mastersNow s = [] := by
    by_cases ht : s.gtc ≤ h.stamp + 16000
    · left
      simp [mayClaim, mastersNow_single hms ht, hlt]
    · right
      simp [mastersNow, hms, ht]
  rw [takeOver]
  rcases hc with hc | hc <;> simp [hc]

/-- A device that is no master follows the only master heard, a lower-numbered one ahead of it. -/
theorem timeHeard_follows {f : RingFrame} (hst : s.mode = .standby) (hlt : f.origin.val < devid s) (hma : isMaster s = false)
    (hms : s.pel.masters = []) (hdup : s.pel.dup = false)
    (hoff : 0 < nearest16 ((f.payload.toNat * 16 + f.delay.toNat + fget s F.PEL_CFG_IN_DELAY 0 : Nat) - (s.gtc * 16 : Nat))) :
    fget (timeHeard f s) F.PEL_STATUS_MASTER 0 = f.origin.val ∧ fget (timeHeard f s) F.PEL_STATUS_EPOCH 0 = f.epoch.toNat
      ∧ fget (timeHeard f s) F.PEL_STATUS_HOPS 0 = (f.hops.val + 1) % 16 ∧ fget (timeHeard f s) F.PEL_STATUS_IS_MASTER 0 = 0
      ∧ fget (timeHeard f s) F.PEL_STATUS_ALIGNED 0 = 1
      ∧ (timeHeard f s).gtc = (s.gtc + (nearest16 ((f.payload.toNat * 16 + f.delay.toNat + fget s F.PEL_CFG_IN_DELAY 0 : Nat)
          - (s.gtc * 16 : Nat))).toNat) % 2 ^ 64 ∧ (timeHeard f s).mode = .standby := by
  generalize hx : onPel (fun p => { p with masters := [(f.origin.val, ⟨s.gtc, f.epoch.toNat⟩)], otherEpochAt := s.pel.otherEpochAt }) s = x
  have hm1 : mastersNow s = [] := by simp [mastersNow, hms]
  have hsplit : epochsDiffer s f.epoch.toNat = false := by simp [epochsDiffer, hm1, hma]
  have hm2 : mastersNow x = [(f.origin.val, ⟨s.gtc, f.epoch.toNat⟩)] := mastersNow_single (by rw [← hx]; rfl) (by rw [← hx]; simp)
  have hxm : isMaster x = false := by rw [← hx]; exact hma
  have hxd : devid x = devid s := by rw [← hx]; rfl
  have he : timeHeard f s = takeOver (correct ((f.payload.toNat * 16 + f.delay.toNat + fget x F.PEL_CFG_IN_DELAY 0 : Nat) - (s.gtc * 16 : Nat))
      (slotCheck (takeMaster f.origin.val f.epoch.toNat (f.hops.val + 1) x))) := by
    have hx' : onPel (fun p => { p with masters := tabPut f.origin.val ⟨s.gtc, f.epoch.toNat⟩ p.masters, otherEpochAt := p.otherEpochAt }) s = x := by
      rw [← hx]
      simp only [onPel, hms, tabPut]
    simp only [timeHeard, hsplit, Bool.false_eq_true, if_false, when_false]
    rw [hx', hm2]
    simp [hxm]
  rw [he]
  obtain ⟨t1, t2, t3, t4, -, t6, tk⟩ := takeMaster_regs (s := x) (epoch := f.epoch.toNat) (hops := f.hops.val + 1) f.origin.isLt
  have htp : (takeMaster f.origin.val f.epoch.toNat (f.hops.val + 1) x).pel = x.pel := agree_of_kept tk .pel
  have htg : (takeMaster f.origin.val f.epoch.toNat (f.hops.val + 1) x).gtc = x.gtc := agree_of_kept tk .gtc
  have htm : (takeMaster f.origin.val f.epoch.toNat (f.hops.val + 1) x).mode = x.mode := agree_of_kept tk .mode
  generalize takeMaster f.origin.val f.epoch.toNat (f.hops.val + 1) x = y at *
  obtain ⟨ck, c1, c2, c3, cf⟩ := slotCheck_spec (s := y)
  have cm := cf F.PEL_STATUS_MASTER 0 (by decide)
  have ce := cf F.PEL_STATUS_EPOCH 0 (by decide)
  have ch := cf F.PEL_STATUS_HOPS 0 (by decide)
  have ci := cf F.PEL_STATUS_IS_MASTER 0 (by decide)
  have cd : devid (slotCheck y) = devid y := cf F.PEL_STATUS_DEVID 0 (by decide)
  have cg : (slotCheck y).gtc = y.gtc := agree_of_kept ck .gtc
  have cmd : (slotCheck y).mode = y.mode := agree_of_kept ck .mode
  generalize slotCheck y = z at *
  have hxg : x.gtc = s.gtc := by rw [← hx]; rfl
  have hep : f.epoch.toNat < 256 := f.epoch.isLt
  have hne : (f.origin.val == devid x) = false := by rw [hxd]; simp; omega
  have hms' : z.pel.masters = [(f.origin.val, ⟨s.gtc, f.epoch.toNat⟩)] := by rw [c1, htp, ← hx]; rfl
  have hin : fget x F.PEL_CFG_IN_DELAY 0 = fget s F.PEL_CFG_IN_DELAY 0 := by rw [← hx]; rfl
  have hzd : devid z = devid s := by rw [cd, t6, hxd]
  obtain ⟨r1, r2, r3, r4, r5, r6, r7, r8, r9⟩ := correct_steps (s := z) (by rw [cmd, htm, ← hx]; exact hst) hoff
    (by rw [c2, htp, ← hx]; exact hdup) hms' (cm.trans t1) f.origin.isLt (by rw [hzd]; omega) (by rw [ch, t3]; omega) hep
    (by rw [ci, t4, hne]; rfl)
    (fun ha => by
      rw [c3, htp] at ha
      rw [ce, t2, ha, Bool.or_true, if_pos rfl]
      exact Nat.mod_eq_of_lt hep)
  rw [hin]
  rw [takeOver_of_lower (r8.trans hms') (by rw [r7, hzd]; exact hlt)]
  exact ⟨r3, r4, r5.trans (ch.trans t3), r6, r2, by rw [r1, cg, htg, hxg], r9⟩

end

/-- Settles O50: a frame is checked, forwarded, and then taken by its type. -/
theorem ringFramesAreForwardedAndTaken : Obligations.RingFramesAreForwardedAndTaken := by
  unfold Obligations.RingFramesAreForwardedAndTaken
  intro s f x hg hu o good
  obtain ⟨hon, hen⟩ : aonOn s = true ∧ fon s F.PEL_CFG_EN 0 = true := by simpa [ringUsed] using hu
  have hm : s.mode ≠ .off := by simpa [aonOn] using hon
  have hus : ringUsed (stampNow s) = true := hu
  refine ⟨fun c n hc hn => ?bad, fun ho => ?others, fun hc ho hma => ?own⟩
  case bad =>
    have he : ∃ k, exec c s = run (onFrame n f k) s := by
      rcases hc with ⟨rfl, rfl⟩ | ⟨rfl, rfl⟩ | ⟨rfl, rfl⟩ | ⟨rfl, rfl⟩ | ⟨rfl, rfl⟩ | ⟨rfl, rfl⟩ <;> exact ⟨_, rfl⟩
    obtain ⟨k, he⟩ := he
    rw [he]
    refine ⟨_, run_of_effect (onFrame_bad hus hn), ?_, ?_, by simp, keptBut_of_effect hg (by simp)⟩
    · simp (disch := decide) [fget_fset_same]
    · simp (disch := decide) [fget_fset_other, fget_finc_same]
  case others =>
    intro passed
    have hfw : ∀ m, keptBut (stampNow s) (forwardFrame m f (stampNow s)) [.outbox, .freeIx] := fun m => by simp
    have hdv : ∀ m, devid (forwardFrame m f (stampNow s)) = devid s := fun m => by rw [devid, fget, regs_of_kept (hfw m)]; rfl
    have harr : ∀ m, (advanceTo x (forwardFrame m f (stampNow s))).gtc = max s.gtc (x % 2 ^ 64)
        ∧ keptBut s (advanceTo x (forwardFrame m f (stampNow s))) [.outbox, .freeIx, .gtc, .stamp] := fun m => by
      refine ⟨?_, by simp⟩
      rw [advanceTo_of_on (by rw [show (forwardFrame m f (stampNow s)).mode = s.mode from agree_of_kept (hfw m) .mode]; exact hm)]
      exact congrArg (max · _) (agree_of_kept (hfw m) .gtc)
    have hrcd : ∀ m, (forwardFrame m f (stampNow s)).rcd = s.rcd := fun m => agree_of_kept (hfw m) .rcd
    have hpassed : ∀ (n : Nat) (v : State), v.outbox = s.outbox ++ [.ring n (passedOn n f (510 + freeValue s % 5) s)] →
        v.rcd = s.rcd → v.stamp = s.gtc → devid v = devid s → (n = 3 → fget v F.PEL_ERR_BRAKE_SEEN 0 = 1) →
        regsKept s v [(F.PEL_PRESENT_HEARD, 0), (F.PEL_ERR_BRAKE_SEEN, 0)] → keptBut s v [.outbox, .freeIx, .regs, .rcd, .stamp] →
        passed (settle s (noteSender f v)) n (510 + freeValue s % 5) := fun n v hout hrc hst hd hb hr hk => by
      have hn : noteSender f v = (v |> fput F.PEL_PRESENT_HEARD 0 (maskBit (fget v F.PEL_PRESENT_HEARD 0) o true)
          |> onRcd (fun r => { r with landed := r.landed ++ [⟨s.gtc, srcRing, 0x0D, 6, 0, none, some o⟩] })) := by
        rw [noteSender, if_neg (by rw [hd]; exact ho)]
        simp [hst]
        rfl
      rw [hn]
      refine ⟨by omega, by omega, ?_, ?_, fun h3 => ?_, ?_, by simpa using hr,
        keptBut_settle hg (keptBut_trans (keptBut_mono hk (by simp)) (by simp))⟩
      · rw [settle_outbox, onRcd_outbox, fput_outbox, hout]
        rfl
      · rw [fget_settle, fget_onRcd, fget_fput_same]
        exact maskBit_read _ f.origin true
      · rw [fget_settle, fget_onRcd, fget_fput_other _ _ _ _ _ _ (by decide)]
        exact hb h3
      · simp [hrc]
        rfl
    refine ⟨fun hh hc => ?brake, fun hh hc => ?fault, fun hc hst hlt hma hms hdup => ?time,
      fun hc ht => ?present, fun hc hd hz => ?record, fun r k y hf hw hc hd hq => ?recack⟩
    case brake =>
      have he : brakeFrame f (stampNow s) = noteSender f (fset F.PEL_ERR_BRAKE_SEEN 0
          (useFree (emit (.ring 3 (passedOn 3 f (510 + freeValue s % 5) s)) (stampNow s)))) := by
        rw [brakeFrame, onFrame_good hus hc, forwardFrame_passes (s := stampNow s) ho hh]
        have hne : (f.origin.val != devid s) = true := by simpa using ho
        exact congrArg (noteSender f) (congrArg (fun b => when b _ _) hne)
      exact ⟨_, _, run_of_effect he, hpassed 3 _ rfl rfl rfl (by simp (disch := decide) [devid, fget_fset_other])
        (fun _ => fget_fset_same _ _ _ (by decide)) (by simp) (by simp)⟩
    case fault =>
      have he : onFrame 4 f (noteSender f) (stampNow s) = noteSender f
          (useFree (emit (.ring 4 (passedOn 4 f (510 + freeValue s % 5) s)) (stampNow s))) := by
        rw [onFrame_good hus hc, forwardFrame_passes (s := stampNow s) ho hh]
        rfl
      exact ⟨_, _, run_of_effect he, hpassed 4 _ rfl rfl rfl rfl (by simp) (by simp) (by simp)⟩
    case time =>
      intro g off hoff
      have he : timeFrame f x (stampNow s) = timeHeard f (advanceTo x (forwardFrame 1 f (stampNow s))) := by
        rw [timeFrame, onFrame_good hus hc]
        simp only [hdv]
        exact if_neg ho
      obtain ⟨hvg, hk⟩ := harr 1
      generalize advanceTo x (forwardFrame 1 f (stampNow s)) = v at he hk hvg
      have hvr : ∀ (g : Fld) (i : Nat), fget v g i = fget s g i := fun g i => by rw [fget, fget, regs_of_kept hk]
      have hvp : v.pel = s.pel := agree_of_kept hk .pel
      have hvd : devid v = devid s := hvr _ _
      obtain ⟨r1, r2, r3, r4, r5, r6, r7⟩ := timeHeard_follows (s := v) (f := f) ((agree_of_kept hk .mode).trans hst) (by rw [hvd]; exact hlt)
        (by rw [isMaster, fon, hvr]; exact hma) (by rw [hvp]; exact hms) (by rw [hvp]; exact hdup) (by rw [hvg, hvr]; exact hoff)
      refine ⟨_, run_of_effect he, r1, r2, r3, r4, r5, ?_, r7⟩
      rw [settle_gtc, r6, hvg, hvr, Nat.mod_mod]
    case present =>
      obtain ⟨hvg, hk⟩ := harr 2
      have he0 : presentFrame f x (stampNow s) = (advanceTo x (forwardFrame 2 f (stampNow s)) |> presentHeard o f.payload
          |> partnerPresent o f.payload.toNat) := by
        rw [presentFrame, onFrame_good hus hc]
        simp only [hdv]
        exact if_neg ho
      generalize advanceTo x (forwardFrame 2 f (stampNow s)) = v at he0 hvg hk
      have hvr : ∀ (g : Fld) (i : Nat), fget v g i = fget s g i := fun g i => by rw [fget, fget, regs_of_kept hk]
      obtain ⟨p1, p2, p3, p4⟩ := presentHeard_spec (s := v) f.origin f.payload
      have he : presentFrame f x (stampNow s) = presentHeard o f.payload v := by
        have hte : tndEn (presentHeard o f.payload v) = false := by
          rw [tndEn, fon, p2 F.TND_CFG_EN 0 (by decide), hvr]
          exact ht
        rw [he0, partnerPresent]
        simp [fromPartner, hte]
      refine ⟨_, run_of_effect he, ?_, p3, p4, ?_, keptBut_settle_gtc (keptBut_trans (keptBut_mono hk (by simp)) (keptBut_mono p1 (by simp)))⟩
      · rw [settle_gtc, show (presentHeard o f.payload v).gtc = v.gtc from agree_of_kept p1 .gtc, hvg]
        exact Nat.mod_eq_of_lt (laterOf_lt hg x)
      · rw [regsKept_settle]
        exact fun g i h => (p2 g i h).trans (hvr g i)
    case record =>
      have he : recordFrame f (stampNow s) = onRcd (fun r => { r with gather := tabSet [] o (leBytes 6 (f.payload.toNat / 2 ^ 16)) r.gather })
          (forwardFrame 5 f (stampNow s)) := by
        rw [recordFrame, onFrame_good hus hc]
        simp only [hdv, hd, hz]
        rw [if_neg (by simpa using ho)]
        rfl
      exact ⟨_, run_of_effect he, tabGet_tabSet_same ([] : List Byte) (leBytes 6 (f.payload.toNat / 2 ^ 16)) o _,
        keptBut_of_effect hg (by simp)⟩
    case recack =>
      have he : recackFrame f (stampNow s) = onRcd (fun x => { x with fwd := none }) (forwardFrame 6 f (stampNow s)) := by
        have hnext : ∀ v : State, v.rcd = s.rcd → forwardNext (onRcd (fun x => { x with fwd := none }) v) = onRcd (fun x => { x with fwd := none }) v :=
          fun v hv => by simp [forwardNext, hv, hw]
        rw [recackFrame, onFrame_good hus hc]
        simp only [hdv, hd, hq, hrcd, hf, show f.origin.val ≠ devid s from ho, bne_iff_ne, ne_eq, not_false_eq_true, beq_self_eq_true, Bool.and_true,
          if_true, hnext _ (hrcd 6)]
      refine ⟨_, run_of_effect he, ?_, keptBut_of_effect hg (by simp)⟩
      rw [settle_rcd, ← hrcd 6]
      rfl
  case own =>
    obtain ⟨hv, hv', hk⟩ := advanced_spec hg hm x
    have he : timeFrame f x (stampNow s) = ownReturned f (advanceTo x (stampNow s)) := by
      rw [timeFrame, onFrame_good hus hc, forwardFrame_own (s := stampNow s) ho]
      exact if_pos ho
    have hpel : (advanceTo x (stampNow s)).pel = s.pel := agree_of_kept hk .pel
    have hreg : (advanceTo x (stampNow s)).regs = s.regs := regs_of_kept hk
    generalize advanceTo x (stampNow s) = v at he hv hv' hk hpel hreg
    have hma' : isMaster v = true := by rw [isMaster, fon, fget, hreg]; exact hma
    simp only [ownReturned, hma', Bool.not_true, Bool.false_eq_true, if_false] at he
    have hkv : regsKept s v [(F.PEL_RTT_MEASURED, 0), (F.PEL_RTT_DECLARED, 0), (F.PEL_ERR_DELAY_CHECK, 0)] := regsKept_of_kept hk
    refine ⟨_, run_of_effect he, by simpa using hv', ?_, ?_, by simpa using hkv,
      keptBut_settle_gtc (keptBut_trans (keptBut_mono hk (by simp)) (by simp))⟩
    · have : v.gtc % 2 ^ 64 = v.gtc := hv'.trans hv.symm
      simp only [settle_pel, settle_gtc, when_pel, when_gtc, fset_pel, fset_gtc, fput_pel, fput_gtc, onPel_pel, onPel_gtc, ite_self, this, hpel]
    · have hw : min ((v.gtc - f.payload.toNat) * 16) 65535 % 2 ^ F.PEL_RTT_MEASURED.width = min ((v.gtc - f.payload.toNat) * 16) 65535 :=
        Nat.mod_eq_of_lt (lt_of_le_of_lt (min_le_right _ _) (by decide))
      have hgt : ∀ u : State, u.gtc = v.gtc → (settle s u).gtc = v.gtc := fun u hu => by rw [settle_gtc, hu, hv', hv]
      rw [hgt _ (by simp)]
      simp (disch := decide) [fget_fput_other, fget_fset_other, hw]

end Sys2Proof.Machine
end

section
/-! PROOF. The tandem's link (R318 to R328): the CONFIG exchange, its loss, heartbeats and roles. -/
namespace Sys2Proof.Machine

set_option Elab.async false

section
variable {s : State} {g : Fld} {i : Nat}

theorem fget_of_kept {t : State} {ps : List Part} (h : keptBut s t ps) (g : Fld) (i : Nat) (hr : Part.regs ∉ ps := by decide) :
    fget t g i = fget s g i := by rw [fget, fget, regs_of_kept h hr]

@[simp] theorem fget_storeTndState : fget (storeTndState s) g i = fget s g i := fget_of_kept (ps := [.sbg]) (by simp) g i
@[simp] theorem fget_postOrQueue (log kind sub dpa cls source : Nat) : fget (postOrQueue log kind sub dpa cls source s) g i = fget s g i :=
  fget_of_kept (ps := [.host, .rcd, .outbox]) (by simp) g i
@[simp] theorem fget_onCtx (tag : BitVec 16) (f : Ctx → Ctx) : fget (onCtx tag f s) g i = fget s g i := rfl
@[simp] theorem fget_ackMirror (tag : BitVec 16) : fget (ackMirror tag s) g i = fget s g i := rfl
@[simp] theorem fget_tandemRecord : fget (tandemRecord s) g i = fget s g i := rfl

theorem fget_setTnd_other (f : Fld) (v : Nat) (h : g.key i ≠ f.key 0) : fget (setTnd f v s) g i = fget s g i := by
  rw [setTnd]
  split
  · rfl
  · simp [fget_fput_other _ _ _ _ _ _ h]

theorem fget_setTnd_same (f : Fld) {v : Nat} (h : v < 2 ^ f.width) : fget (setTnd f v s) f 0 = v := by
  rw [setTnd]
  split
  · assumption
  · rw [fget_storeTndState, fget_fput_same]
    exact Nat.mod_eq_of_lt h

@[simp] theorem setTnd_tnd (f : Fld) (v : Nat) : (setTnd f v s).tnd = s.tnd := agree_of_kept (ps := [.regs, .sbg]) (by simp) .tnd
@[simp] theorem setTnd_sched (f : Fld) (v : Nat) : (setTnd f v s).sched = s.sched := agree_of_kept (ps := [.regs, .sbg]) (by simp) .sched
@[simp] theorem postOrQueue_tnd (log kind sub dpa cls source : Nat) : (postOrQueue log kind sub dpa cls source s).tnd = s.tnd :=
  agree_of_kept (ps := [.host, .rcd, .outbox]) (by simp) .tnd
@[simp] theorem postOrQueue_sched (log kind sub dpa cls source : Nat) : (postOrQueue log kind sub dpa cls source s).sched = s.sched :=
  agree_of_kept (ps := [.host, .rcd, .outbox]) (by simp) .sched

/-! ### Loss of the link -/

/-- A waiting store's extent diverges and the store may be answered. -/
def giveBack (w : BitVec 16 × Nat × Nat) (s : State) : State := s |> markDivergent w.2.1 |> ackMirror w.1

/-- What a store given back leaves. -/
def givenBack (w : BitVec 16 × Nat × Nat) (t : State) : Prop :=
  extentDivergent t (extentOf w.2.1) = true ∧ ∀ c ∈ t.sched.ctxs, c.tag = w.1 → c.st ≠ .mirror

/-- The context of a store given back. -/
def answered (w : BitVec 16 × Nat × Nat) (c : Ctx) : Ctx :=
  if c.tag = w.1 then (if c.st = .mirror then { c with st := .respond } else c) else c

theorem answered_tag (w : BitVec 16 × Nat × Nat) (c : Ctx) : (answered w c).tag = c.tag := by
  unfold answered
  split
  · split <;> rfl
  · rfl

theorem answered_st {w : BitVec 16 × Nat × Nat} {c : Ctx} (h : c.tag = w.1 ∨ c.st ≠ .mirror) : (answered w c).st ≠ .mirror := by
  unfold answered
  by_cases hm : c.st = .mirror
  · rw [if_pos (h.resolve_right (not_not.2 hm)), if_pos hm]
    exact CtxState.noConfusion
  · rw [if_neg hm, ite_self]
    exact hm

theorem giveBack_eqs (w : BitVec 16 × Nat × Nat) : (giveBack w s).tnd.divergeAll = s.tnd.divergeAll
    ∧ (giveBack w s).tnd.divergent = nsAdd (extentOf w.2.1) s.tnd.divergent ∧ (giveBack w s).sched.ctxs = s.sched.ctxs.map (answered w) := by
  simp [giveBack, markDivergent, ackMirror, onCtx, answered]

theorem givenBack_giveBack (w : BitVec 16 × Nat × Nat) : givenBack w (giveBack w s) := by
  obtain ⟨-, h2, h3⟩ := giveBack_eqs (s := s) w
  refine ⟨by rw [extentDivergent, h2, nsHas_nsAdd_same, Bool.or_true], fun c hc ht => ?_⟩
  rw [h3, List.mem_map] at hc
  obtain ⟨x, -, rfl⟩ := hc
  exact answered_st (.inl (answered_tag w x ▸ ht))

/-- Giving another store back keeps it so. -/
theorem givenBack_of_giveBack {w : BitVec 16 × Nat × Nat} (v : BitVec 16 × Nat × Nat) (h : givenBack w s) : givenBack w (giveBack v s) := by
  obtain ⟨hd, hc⟩ := h
  obtain ⟨h1, h2, h3⟩ := giveBack_eqs (s := s) v
  refine ⟨?_, fun c hm ht => ?_⟩
  · rw [extentDivergent, Bool.or_eq_true] at hd ⊢
    rw [h1, h2]
    refine hd.imp id fun h => ?_
    by_cases he : extentOf w.2.1 = extentOf v.2.1
    · rw [he]
      exact nsHas_nsAdd_same _ _
    · rw [nsHas_nsAdd_ne he]
      exact h
  · rw [h3, List.mem_map] at hm
    obtain ⟨x, hx, rfl⟩ := hm
    exact answered_st (.inr (hc x hx (answered_tag v x ▸ ht)))

theorem forEach_givesBack (ws : List (BitVec 16 × Nat × Nat)) {w : BitVec 16 × Nat × Nat} (h : w ∈ ws ∨ givenBack w s) :
    givenBack w (forEach ws giveBack s) := by
  induction ws generalizing s with
  | nil => simpa using h
  | cons v vs ih =>
    rw [forEach_cons]
    refine ih ?_
    rcases h with h | h
    · rcases List.mem_cons.1 h with rfl | h
      · exact .inr (givenBack_giveBack _)
      · exact .inl h
    · exact .inr (givenBack_of_giveBack v h)

theorem mem_outbox_postOrQueue {e : Emission} (log kind sub dpa cls source : Nat) (h : e ∈ s.outbox) :
    e ∈ (postOrQueue log kind sub dpa cls source s).outbox := by
  unfold postOrQueue postEvent
  split
  · simp only [when]
    split <;> simp [h]
  · exact h

/-- What a lost link leaves, of the state in which it was lost. -/
def linkLost (s t : State) : Prop :=
  fget t F.TND_STATUS_LINK 0 = 4 ∧ fget t F.TND_ERR_LINK_LOST 0 = 1 ∧ t.tnd.waiting = [] ∧ t.tnd.idle = true
    ∧ (∀ w ∈ s.tnd.waiting, givenBack w t)
    ∧ fget t F.TND_CREDIT_HELD 0 = 0 ∧ fget t F.TND_CREDIT_GRANTED 0 = 0 ∧ Emission.tandemIdle ∈ t.outbox
    ∧ fget t F.TND_ERR_MACK_TIMEOUT 0 = fget s F.TND_ERR_MACK_TIMEOUT 0
    ∧ keptBut s t [.regs, .host, .sched, .rcd, .sbg, .tnd, .outbox]

theorem loseLink_lost : linkLost s (loseLink s) := by
  have hw : ∀ w ∈ s.tnd.waiting, givenBack w (forEach s.tnd.waiting giveBack s) := fun w h => forEach_givesBack _ (.inl h)
  have hk : keptBut s (loseLink s) [.regs, .host, .sched, .rcd, .sbg, .tnd, .outbox] := by simp
  have hm : fget (forEach s.tnd.waiting giveBack s) F.TND_ERR_MACK_TIMEOUT 0 = fget s F.TND_ERR_MACK_TIMEOUT 0 :=
    fget_forEach (fun x u => by simp (disch := decide) [giveBack, markDivergent, fget_setTnd_other]) _
  have he : loseLink s = (forEach s.tnd.waiting giveBack s
    |> fput F.TND_STATUS_LINK 0 4 |> fset F.TND_ERR_LINK_LOST 0
    |> fclr F.TND_STATUS_RESYNC 0 |> fclr F.TND_CREDIT_HELD 0 |> fclr F.TND_CREDIT_GRANTED 0
    |> setTnd F.TND_STATUS_PEER_COPY (if fget s F.TND_STATUS_PEER_COPY 0 = 0 || fget s F.TND_STATUS_PEER_COPY 0 = 3
        then fget s F.TND_STATUS_PEER_COPY 0 else if s.tnd.lastQuiesce then 1 else 2)
    |> onTnd (fun t => { t with idle := true, idleAt := s.gtc, reserved := 0, resync := [], mwrSince := [], toSend := [], sending := [], configSent := false
                                configGood := false, waiting := [] })
    |> emit .tandemIdle |> land 0x0D 6 srcTandem 0 none |> postOrQueue 1 1 0 0 6 srcTandem) := rfl
  rw [he] at hk ⊢
  generalize forEach s.tnd.waiting giveBack s = v at *
  refine ⟨?_, ?_, ?_, ?_, fun w hmem => ?_, ?_, ?_, ?_, ?_, hk⟩
  · simp (disch := decide) [fget_setTnd_other, fget_fset_other, fget_fput_other, fclr]
    rfl
  · simp (disch := decide) [fget_setTnd_other, fget_fset_same, fget_fput_other, fclr]
  · simp
  · simp
  · obtain ⟨h1, h2⟩ := hw w hmem
    exact ⟨by simpa [extentDivergent] using h1, by simpa using h2⟩
  · simp (disch := decide) [fget_setTnd_other, fget_fput_other, fclr]
  · simp (disch := decide) [fget_setTnd_other, fclr]
  · exact mem_outbox_postOrQueue _ _ _ _ _ _ (by simp)
  · simp (disch := decide) [fget_setTnd_other, fget_fset_other, fget_fput_other, fclr, hm]

/-- A link that is up is lost. -/
theorem tandemLost_of_up (hup : tndUp s = true) : linkLost s (tandemLost s) := by
  obtain ⟨h1, h2, h3, h4, h5, h6, h7, h8, h9, hk⟩ := loseLink_lost (s := s)
  rw [tandemLost, if_pos hup]
  generalize loseLink s = v at *
  have hq : keptBut v (tryQuiesce v) [.host, .tnd, .outbox] := by simp
  have hf : ∀ (g : Fld) (i : Nat), fget (tryQuiesce v) g i = fget v g i := fun g i => fget_of_kept hq g i
  have hnup : tndUp v = false := by simp [tndUp, h1]
  have hspec : (tryQuiesce v).tnd.waiting = v.tnd.waiting ∧ (tryQuiesce v).tnd.idle = v.tnd.idle
      ∧ (tryQuiesce v).tnd.divergeAll = v.tnd.divergeAll ∧ (tryQuiesce v).tnd.divergent = v.tnd.divergent ∧ (tryQuiesce v).outbox = v.outbox := by
    unfold tryQuiesce
    split
    · simp [hnup]
    · exact ⟨rfl, rfl, rfl, rfl, rfl⟩
  obtain ⟨q1, q2, q3, q4, q5⟩ := hspec
  have hsched : (tryQuiesce v).sched = v.sched := agree_of_kept hq .sched
  refine ⟨(hf _ _).trans h1, (hf _ _).trans h2, q1.trans h3, q2.trans h4, fun w hmem => ?_, (hf _ _).trans h6, (hf _ _).trans h7, q5 ▸ h8,
    (hf _ _).trans h9, keptBut_trans hk (keptBut_mono hq (by simp))⟩
  obtain ⟨g1, g2⟩ := h5 w hmem
  exact ⟨by rw [extentDivergent, q3, q4]; exact g1, by rw [hsched]; exact g2⟩

/-! ### The link comes up -/

/-- What taking on a role leaves alone. -/
def roleKept (s t : State) : Prop :=
  fget t F.TND_STATUS_LINK 0 = fget s F.TND_STATUS_LINK 0 ∧ t.tnd.peerRegions = s.tnd.peerRegions ∧ t.tnd.peerBase = s.tnd.peerBase
    ∧ t.tnd.configGood = s.tnd.configGood ∧ keptBut s t [.regs, .sbg, .tnd]

theorem roleKept_setTnd (f : Fld) (v : Nat) (hf : F.TND_STATUS_LINK.key 0 ≠ f.key 0) : roleKept s (setTnd f v s) :=
  ⟨fget_setTnd_other f v hf, by simp, by simp, by simp, by simp⟩

theorem roleKept_demote : roleKept s (demote s) := by
  refine ⟨?_, by simp [demote], by simp [demote], by simp [demote], by simp [demote]⟩
  simp (disch := decide) [demote, fget_setTnd_other]

theorem roleKept_trans {t u : State} (h : roleKept s t) (k : roleKept t u) : roleKept s u := by
  obtain ⟨h1, h2, h3, h4, h5⟩ := h
  obtain ⟨k1, k2, k3, k4, k5⟩ := k
  exact ⟨k1.trans h1, k2.trans h2, k3.trans h3, k4.trans h4, keptBut_trans h5 k5⟩

theorem roleKept_startResync : roleKept s (startResync s) := by
  refine ⟨?_, rfl, rfl, rfl, by simp⟩
  simp (disch := decide) [startResync, fget_fbit_other]

theorem configUp_up (m : ConfigMsg) : fget (configUp m s) F.TND_STATUS_LINK 0 = 3 ∧ (configUp m s).tnd.peerRegions = m.bitmap
    ∧ (configUp m s).tnd.peerBase = m.mirrorBase.toNat ∧ (configUp m s).tnd.configGood = true
    ∧ keptBut s (configUp m s) [.regs, .sbg, .tnd, .host, .rcd, .outbox] := by
  generalize hu : (s |> fput F.TND_STATUS_LINK 0 3
    |> onTnd (fun t => { t with peerBase := m.mirrorBase.toNat, peerRegions := m.bitmap, configGood := true, lastQuiesce := false
                                peerPromoted := m.peerCopy.val == 3 })) = u
  generalize hk : (if m.peerCopy.val = 3 && !s.tnd.own.isEmpty then demote
        else if fget s F.TND_STATUS_OWN 0 = 1 then setTnd F.TND_STATUS_OWN 0 else id) = k
  have hrole : roleKept u (k u) := by
    rw [← hk]
    split
    · exact roleKept_demote
    · split
      · exact roleKept_setTnd _ _ (by decide)
      · exact ⟨rfl, rfl, rfl, rfl, keptBut_refl _ _⟩
  have he : configUp m s = (k u |> setTnd F.TND_STATUS_PEER_COPY (copyAfter s m) |> startResync |> tandemRecord |> postOrQueue 1 1 0 0 6 srcTandem) := by
    rw [← hk, ← hu]
    rfl
  obtain ⟨h1, h2, h3, h4, h5⟩ := roleKept_trans (roleKept_trans hrole (roleKept_setTnd F.TND_STATUS_PEER_COPY (copyAfter s m) (by decide)))
    roleKept_startResync
  rw [he]
  generalize startResync (setTnd F.TND_STATUS_PEER_COPY (copyAfter s m) (k u)) = v at *
  have hus : keptBut s u [.regs, .tnd] := by rw [← hu]; simp
  have hv : keptBut s v [.regs, .sbg, .tnd, .host, .rcd, .outbox] := keptBut_trans (keptBut_mono hus (by simp)) (keptBut_mono h5 (by simp))
  refine ⟨?_, ?_, ?_, ?_, keptBut_trans hv (by simp)⟩
  · rw [fget_postOrQueue, fget_tandemRecord, h1, ← hu, fget_onTnd, fget_fput_same]
    rfl
  · rw [postOrQueue_tnd]
    exact h2.trans (by rw [← hu]; rfl)
  · rw [postOrQueue_tnd]
    exact h3.trans (by rw [← hu]; rfl)
  · rw [postOrQueue_tnd]
    exact h4.trans (by rw [← hu]; rfl)

end

/-- Settles O52: each event of the tandem's link, by its own lemma. -/
theorem tandemLinkComesUpAndIsLost : Obligations.TandemLinkComesUpAndIsLost := by
  unfold Obligations.TandemLinkComesUpAndIsLost
  intro s hg hc link lost
  have hon : aonOn s = true := aonOn_of_core hc
  have hm : s.mode ≠ .off := by simpa [aonOn] using hon
  have hc' : coreOn (stampNow s) = true := hc
  refine ⟨fun hen hidle hl => ?train, fun hl m => ⟨fun hn => ?mismatch, fun hy hb => ?conflict, fun hy hb => ?up⟩, fun hl => ?live,
    fun hidle hl => ?idle⟩
  case train =>
    have hl' : (fget (stampNow s) F.TND_STATUS_LINK 0 == 1 || fget (stampNow s) F.TND_STATUS_LINK 0 == 4) = true := by
      simpa using hl
    have he : tandemUp true (stampNow s) = (stampNow s |> fput F.TND_STATUS_LINK 0 2 |> emit (.tandem (.config (ownConfig s)))
         |> onTnd (fun t => { t with configSent := true, lastMsg := s.gtc })) := by
      simp only [tandemUp, hc', show tndEn (stampNow s) = true from hen, stampNow_tnd, hidle, hl']
      rfl
    refine ⟨_, run_of_effect he, ?_, ?_, ?_, by simp, keptBut_of_effect hg (by simp)⟩
    · simp
      rfl
    · simp
    · simp
  case mismatch =>
    have hn' : configMatches (onTnd (fun t => { t with lastMsg := s.gtc }) (stampNow s)) m = false := hn
    have he : configMsg m (stampNow s) = (onTnd (fun t => { t with lastMsg := s.gtc }) (stampNow s)
        |> fput F.TND_STATUS_LINK 0 5 |> fset F.TND_ERR_MISMATCH 0) := by
      rw [configMsg, if_neg (by simp [hc, show fget s F.TND_STATUS_LINK 0 = 2 from hl])]
      dsimp only
      exact if_pos (by simpa using hn')
    refine ⟨_, run_of_effect he, ?_, ?_, keptBut_of_effect hg (by simp)⟩
    · simp (disch := decide) [fget_fset_other]
      rfl
    · simp (disch := decide) [fget_fset_same]
  case conflict =>
    have hy' : configMatches (onTnd (fun t => { t with lastMsg := s.gtc }) (stampNow s)) m = true := hy
    have hb' : bothWritable (onTnd (fun t => { t with lastMsg := s.gtc }) (stampNow s)) m = true := hb
    have he : configMsg m (stampNow s) = (onTnd (fun t => { t with lastMsg := s.gtc }) (stampNow s)
        |> onTnd (fun t => { t with peerBase := m.mirrorBase.toNat, peerRegions := m.bitmap, promoted := false })
        |> fput F.TND_STATUS_LINK 0 6 |> fset F.TND_ERR_CONFLICT 0 |> postOrQueue 2 1 0 0 6 srcTandem) := by
      rw [configMsg, if_neg (by simp [hc, show fget s F.TND_STATUS_LINK 0 = 2 from hl])]
      dsimp only
      exact (if_neg (by simpa using hy')).trans (if_pos hb')
    refine ⟨_, run_of_effect he, ?_, ?_, ?_⟩
    · simp (disch := decide) [fget_fset_other]
      rfl
    · simp (disch := decide) [fget_fset_same]
    · exact agree_of_kept (keptBut_of_effect hg (ps := [.regs, .tnd, .host, .rcd, .outbox]) (by simp)) .mode
  case up =>
    have hy' : configMatches (onTnd (fun t => { t with lastMsg := s.gtc }) (stampNow s)) m = true := hy
    have hb' : bothWritable (onTnd (fun t => { t with lastMsg := s.gtc }) (stampNow s)) m = false := hb
    have he : configMsg m (stampNow s) = configUp m (onTnd (fun t => { t with lastMsg := s.gtc }) (stampNow s)) := by
      rw [configMsg, if_neg (by simp [hc, show fget s F.TND_STATUS_LINK 0 = 2 from hl])]
      dsimp only
      exact (if_neg (by simpa using hy')).trans (if_neg (by simpa using hb'))
    obtain ⟨u1, u2, u3, u4, uk⟩ := configUp_up (s := onTnd (fun t => { t with lastMsg := s.gtc }) (stampNow s)) m
    have hk : keptBut s (settle s (configUp m (onTnd (fun t => { t with lastMsg := s.gtc }) (stampNow s)))) [.regs, .sbg, .tnd, .host, .rcd, .outbox] :=
      keptBut_of_effect hg (keptBut_trans (keptBut_mono (ps := [.tnd]) (by simp) (by simp)) (keptBut_mono uk (by simp)))
    exact ⟨_, run_of_effect he, u1, u2, u3, u4, agree_of_kept hk .mode, agree_of_kept hk .med, agree_of_kept hk .cache⟩
  case live =>
    have hup : tndUp s = true := by simpa [tndUp] using hl
    have hlost : ∀ v t : State, v.tnd.waiting = s.tnd.waiting → linkLost v t → keptBut s v [.gtc, .stamp, .regs] → lost (settle s t) := fun v t hw ht hk => by
      obtain ⟨h1, h2, h3, h4, h5, h6, h7, h8, -, h10⟩ := ht
      have hall : keptBut s t [.gtc, .stamp, .regs, .host, .sched, .rcd, .sbg, .tnd, .outbox] :=
        keptBut_trans (keptBut_mono hk (by simp)) (keptBut_mono h10 (by simp))
      exact ⟨h1, h2, h3, h4, fun w hmem => h5 w (hw ▸ hmem), h6, h7, h8, agree_of_kept hall .mode, agree_of_kept hall .med, agree_of_kept hall .cache⟩
    have hadv : ∀ t : Nat, keptBut s (advanceTo t (stampNow s)) [.gtc, .stamp] := fun t => (advanced_spec hg hm t).2.2
    have hgtc : ∀ u v : State, linkLost u v → (settle s v).gtc = u.gtc % 2 ^ 64 := fun u v h => by
      obtain ⟨-, -, -, -, -, -, -, -, -, hk⟩ := h
      rw [settle_gtc, show v.gtc = u.gtc from agree_of_kept hk .gtc]
    have hmsg : ∀ (q : Bool) (k : State → State), onMessage q k (stampNow s)
        = k (onTnd (fun t => { t with lastMsg := s.gtc, lastQuiesce := q }) (stampNow s)) := fun q k => by
      simp [onMessage, hc, show tndUp (stampNow s) = true from hup]
    refine ⟨⟨_, run_of_effect rfl, hlost (stampNow s) _ rfl (tandemLost_of_up hup) (keptBut_mono (keptBut_stampNow s []) (by simp))⟩,
      ?msgTimeout, fun w hw huniq => ?mack, run_of_effect_eq hg ?hb, run_of_effect_eq hg ?hb', run_of_effect_eq hg ?quiesce, fun hcopy => ?ask,
      fun hown hsent => ?granted⟩
    case msgTimeout =>
      have hup' : tndUp (advanceTo (s.tnd.lastMsg + 4000) (stampNow s)) = true := hup
      have he : messageTimeout (stampNow s) = tandemLost (advanceTo (s.tnd.lastMsg + 4000) (stampNow s)) := 
        if_pos (by simp [show tndUp (stampNow s) = true from hup])
      have hl := tandemLost_of_up hup'
      exact ⟨_, run_of_effect he, hlost (advanceTo (s.tnd.lastMsg + 4000) (stampNow s)) _ rfl hl (keptBut_mono (hadv _) (by simp)),
        (hgtc _ _ hl).trans (advanced_spec hg hm _).2.1⟩
    case mack =>
      obtain ⟨v, hv⟩ := Option.isSome_iff_exists.1 (List.find?_isSome (p := fun x => x.1 == w.1).2 ⟨w, hw, beq_self_eq_true w.1⟩)
      have hvw : v = w := huniq v (List.mem_of_find?_eq_some hv) (by simpa using List.find?_some hv)
      have hup' : tndUp (fset F.TND_ERR_MACK_TIMEOUT 0 (advanceTo w.2.2 (stampNow s))) = true := by
        simp (disch := decide) [tndUp, fget_fset_other]
        exact hl
      have he : mackDeadline w.1 (stampNow s) = tandemLost (fset F.TND_ERR_MACK_TIMEOUT 0 (advanceTo w.2.2 (stampNow s))) := by
        rw [mackDeadline, stampNow_tnd, hv, hvw]
        exact if_pos hup
      have hl := tandemLost_of_up hup'
      refine ⟨_, run_of_effect he, hlost (fset F.TND_ERR_MACK_TIMEOUT 0 (advanceTo w.2.2 (stampNow s))) _ (by simp) hl (by simp), ?_,
        (hgtc _ _ hl).trans (by simpa using (advanced_spec hg hm w.2.2).2.1)⟩
      obtain ⟨-, -, -, -, -, -, -, -, hmk, -⟩ := hl
      exact hmk.trans (fget_fset_same _ _ _ (by decide))
    case hb => simp only [hbSend, hc', show tndUp (stampNow s) = true from hup]; rfl
    case hb' => rw [hmsg]; rfl
    case quiesce => rw [hmsg]; rfl
    case ask =>
      have he : roleMsg 0 (stampNow s) = (onTnd (fun t => { t with lastMsg := s.gtc, lastQuiesce := false }) (stampNow s)
          |> setTnd F.TND_STATUS_PEER_COPY 1 |> onTnd (fun t => { t with promoted := false, toSend := [], sending := [] })
          |> fclr F.TND_STATUS_RESYNC 0 |> emit (.tandem (.role 1))) := by
        rw [roleMsg, hmsg]
        exact (if_pos rfl).trans (if_pos hcopy)
      have hk := keptBut_of_effect hg (ps := [.regs, .sbg, .tnd, .outbox]) (s := s) (t := (onTnd (fun t => { t with lastMsg := s.gtc, lastQuiesce := false }) (stampNow s)
          |> setTnd F.TND_STATUS_PEER_COPY 1 |> onTnd (fun t => { t with promoted := false, toSend := [], sending := [] })
          |> fclr F.TND_STATUS_RESYNC 0 |> emit (.tandem (.role 1)))) (by simp)
      refine ⟨_, run_of_effect he, ?_, by simp, ?_, agree_of_kept hk .med, agree_of_kept hk .cache⟩
      · simp (disch := decide) [fget_fclr_other, fget_setTnd_same]
      · have ho : ∀ (f : Fld) (v : Nat) (u : State), (setTnd f v u).outbox = u.outbox := fun f v u => agree_of_kept (ps := [.regs, .sbg]) (by simp) .outbox
        simp [ho]
    case granted =>
      have he : roleMsg 1 (stampNow s) = (onTnd (fun t => { t with lastMsg := s.gtc, lastQuiesce := false }) (stampNow s)
          |> setTnd F.TND_STATUS_OWN 0 |> onTnd (fun t => { t with roleSent := false, peerPromoted := false })) := by
        rw [roleMsg, hmsg]
        refine (if_neg (by decide)).trans (if_pos ?_)
        simp [hsent, hown]
      have hk := keptBut_of_effect hg (ps := [.regs, .sbg, .tnd]) (s := s) (t := (onTnd (fun t => { t with lastMsg := s.gtc, lastQuiesce := false }) (stampNow s)
          |> setTnd F.TND_STATUS_OWN 0 |> onTnd (fun t => { t with roleSent := false, peerPromoted := false }))) (by simp)
      refine ⟨_, run_of_effect he, ?_, by simp, agree_of_kept hk .outbox, agree_of_kept hk .med, agree_of_kept hk .cache⟩
      simp (disch := decide) [fget_setTnd_same]
  case idle =>
    obtain ⟨-, hv, hk⟩ := advanced_spec hg hm (s.tnd.idleAt + 100000)
    have hl' : (fget (stampNow s) F.TND_STATUS_LINK 0 == 4) = true := by simpa using hl
    have he : idleEnd (stampNow s) = (advanceTo (s.tnd.idleAt + 100000) (stampNow s) |> onTnd (fun t => { t with idle := false })
        |> fput F.TND_STATUS_LINK 0 1) := by
      rw [idleEnd, hl']
      exact if_pos hidle
    refine ⟨_, run_of_effect he, ?_, by simpa using hv, by simp, by simp, keptBut_settle_gtc (by simp)⟩
    rw [fget_settle, fget_fput_same]
    rfl

end Sys2Proof.Machine
end

section
/-! SUPPORT. A line stays where it is when one of its sectors is written (R66, R68). PROOF. Mirrored data (R321 to R327). -/
namespace Sys2Proof.Machine

set_option Elab.async false

section
variable {s : State} {loc line sector : Nat} {data : Sector} {poison : Bool}

/-! ### Where a line is after a sector's write -/

/-- The occupied overflow slots of an overflow table, as locations. -/
def usedOf (sl : Nat) (t : Tab OvfSlot) : List Nat :=
  t.filterMap (fun x => if x.1 / 512 = sl && x.2.used then some (ovfLoc sl (x.1 % 512)) else none)

theorem usedOf_cons (sl : Nat) (x : Nat × OvfSlot) (t : Tab OvfSlot) :
    usedOf sl (x :: t) = if x.1 / 512 = sl && x.2.used then ovfLoc sl (x.1 % 512) :: usedOf sl t else usedOf sl t := by
  rw [usedOf, List.filterMap_cons]
  split <;> split <;> simp_all [usedOf]

/-- The first slot that satisfies `P` stays the first when its own entry changes. -/
theorem find_usedOf_tabPut {sl k : Nat} {v : OvfSlot} {P : Nat → Bool} (t : Tab OvfSlot)
    (hP : P (ovfLoc sl (k % 512)) = true) (hv : v.used = (tabGet ovfReset t k).used)
    (hf : (usedOf sl t).find? P = some (ovfLoc sl (k % 512))) : (usedOf sl (tabPut k v t)).find? P = some (ovfLoc sl (k % 512)) := by
  induction t with
  | nil => simp [usedOf] at hf
  | cons x t ih =>
    obtain ⟨n, w⟩ := x
    rw [tabPut]
    split
    · rw [usedOf_cons]
      split
      · simp [hP]
      · exact hf
    · split
      · next hn =>
        subst hn
        have : v.used = w.used := by simpa [tabGet] using hv
        rw [usedOf_cons] at hf ⊢
        simpa [this] using hf
      · next hlt hn =>
        have hv' : v.used = (tabGet ovfReset t k).used := by
          rw [hv, tabGet, if_neg (by omega)]
        rw [usedOf_cons] at hf ⊢
        split at hf
        · next hc =>
          rw [if_pos hc]
          rw [List.find?_cons] at hf ⊢
          split at hf
          · exact hf
          · exact ih hv' hf
        · next hc =>
          rw [if_neg hc]
          exact ih hv' hf

/-- What a sector's write does to a way. -/
theorem wayAt_writeSector (ho : locOvf loc = false) :
    ∃ sv sp d, wayAt (writeSector loc sector data poison s) loc = { wayAt s loc with sv := sv, sp := sp, data := d, d := true } := by
  have hset : ∀ sv sp d, wayAt (setLoc loc sv sp d s) loc = { wayAt s loc with sv := sv, sp := sp, data := d } := fun sv sp d => by
    cases hd : locDirty s loc <;> simp [setLoc, ho, hd]
  have hmake : ∀ u : State, wayAt (makeDirty loc u) loc = { wayAt u loc with d := true } := fun u => by simp [makeDirty, ho]
  have huse : ∀ u : State, wayAt (useWay loc u) loc = wayAt u loc := fun u => by rw [useWay_eq]; rfl
  simp only [writeSector]
  rw [huse, hmake, hset]
  exact ⟨_, _, _, rfl⟩

/-- A sector's write to an overflow slot leaves the ways, and to a way the overflow slots. -/
theorem otherTable_writeSector : if locOvf loc then (writeSector loc sector data poison s).cache.ways = s.cache.ways
    else (writeSector loc sector data poison s).cache.ovf = s.cache.ovf := by
  have huse : ∀ u : State, (useWay loc u).cache.ways = u.cache.ways ∧ (useWay loc u).cache.ovf = u.cache.ovf := fun u => by
    rw [useWay_eq]
    exact ⟨rfl, rfl⟩
  simp only [writeSector, (huse _).1, (huse _).2]
  cases ho : locOvf loc <;> cases hd : locDirty s loc <;> simp [setLoc, makeDirty, ho, hd, setWay, setOvf, setDir, onCache]

theorem ovf_writeSector (ho : locOvf loc = true) (hs : sector < 4) : ∃ v : OvfSlot, v.used = (ovfAt s loc).used ∧ v.line = (ovfAt s loc).line
    ∧ (writeSector loc sector data poison s).cache.ovf = tabPut (ovfKey loc) v s.cache.ovf := by
  have huse : ∀ u : State, (useWay loc u).cache.ovf = u.cache.ovf := fun u => by rw [useWay_eq]; rfl
  have hmake : ∀ u : State, (makeDirty loc u).cache.ovf = u.cache.ovf := fun u => by
    rw [makeDirty, ho, if_pos rfl]
    rfl
  have hloc : ∀ sv sp d, (setLoc loc sv sp d s).cache.ovf = tabSet ovfReset (ovfKey loc) { ovfAt s loc with sv := sv, sp := sp, data := d } s.cache.ovf :=
    fun sv sp d => by
      rw [setLoc, ho, if_pos rfl]
      cases hd : locDirty s loc <;> rfl
  have hne : ∀ sp d, ({ ovfAt s loc with sv := locSv s loc ||| bit4 sector, sp := sp, data := d } : OvfSlot) ≠ ovfReset := fun sp d h => by
    have hsv : locSv s loc ||| bit4 sector = 0 := congrArg OvfSlot.sv h
    revert hsv
    generalize locSv s loc = x
    interval_cases sector <;> revert x <;> decide
  refine ⟨{ ovfAt s loc with
    sv := locSv s loc ||| bit4 sector
    sp := if poison then locSp s loc ||| bit4 sector else locSp s loc &&& ~~~(bit4 sector)
    data := lineSet (locData s loc) sector data }, rfl, rfl, ?_⟩
  have hset : ∀ (v : OvfSlot) T, v ≠ ovfReset → tabSet ovfReset (ovfKey loc) v T = tabPut (ovfKey loc) v T := fun v T h => if_neg h
  rw [writeSector]
  dsimp only
  rw [huse, hmake, hloc, hset _ _ (hne _ _)]

theorem locScratch_of {t : State} (hc : t.config = s.config) (hs : scratchSteps t = scratchSteps s) (n : Nat) : locScratch t n = locScratch s n := by
  simp [locScratch, scratchWay, hc, hs]

/-- The 16 ways of a set are different ways. -/
theorem wayKey_inj {sl set a b : Nat} (ha : a ∈ setLocs sl set) (hb : b ∈ setLocs sl set) (h : wayKey a = wayKey b) : a = b := by
  simp only [setLocs, List.mem_map, List.mem_range] at ha hb
  obtain ⟨i, hi, rfl⟩ := ha
  obtain ⟨j, hj, rfl⟩ := hb
  simp only [wayKey, wayLoc, locSlice, locIx] at h
  have h1 := Nat.div_add_mod (sl * 66048 + set * 16 + i) 66048
  have h2 := Nat.div_add_mod (sl * 66048 + set * 16 + j) 66048
  have h3 : 512 * ((sl * 66048 + set * 16 + i) / 66048) + j = 512 * ((sl * 66048 + set * 16 + j) / 66048) + i := by linarith
  have h4 : i = j := by omega
  rw [h4]

theorem ovfKey_ovfLoc {sl slot : Nat} (h : slot < 512) : ovfKey (ovfLoc sl slot) = sl * 512 + slot := by
  have h1 : (sl * 66048 + (65536 + slot)) / 66048 = sl := by omega
  have h2 : (sl * 66048 + (65536 + slot)) % 66048 = 65536 + slot := by omega
  unfold ovfKey ovfLoc locSlice locIx
  simp only [Nat.add_assoc, h1, h2, Nat.add_sub_cancel_left]

theorem locate_writeSector (hs : sector < 4) (h : locate s line = some loc) :
    locate (writeSector loc sector data poison s) line = some loc := by
  have hmv := locsMoved_writeSector (s := s) (loc := loc) sector data poison
  obtain ⟨hways, hovf, -⟩ := otherLocsKept_writeSector (s := s) (loc := loc) sector data poison
  have htab := otherTable_writeSector (s := s) (loc := loc) (sector := sector) (data := data) (poison := poison)
  have hov := ovf_writeSector (s := s) (loc := loc) (data := data) (poison := poison) (hs := hs)
  have hway := wayAt_writeSector (s := s) (loc := loc) (sector := sector) (data := data) (poison := poison)
  generalize writeSector loc sector data poison s = t at *
  have hcfg : t.config = s.config := by rw [hmv]; rfl
  have hmed : t.med = s.med := by rw [hmv]; rfl
  have hscr : scratchSteps t = scratchSteps s := by rw [hmv]; rfl
  have hsl : wheelOf t line = wheelOf s line := by
    simp only [wheelOf, wheelOfBank, placeOf_of_med hcfg hmed, hcfg]
  have hset : setOf t line = setOf s line := by rw [setOf, setOf, hmed]
  have hbound : setOf s line < 4096 := (Config.setHash s.med.key line).isLt
  rw [locate, hsl, hset]
  rw [locate] at h
  generalize wheelOf s line = sl at *
  generalize setOf s line = set at *
  have hline : ∀ n, (ovfAt t n).line = (ovfAt s n).line := fun n => by
    cases ho : locOvf loc
    · rw [if_neg (by simp [ho])] at htab
      rw [ovfAt, ovfAt, htab]
    · obtain ⟨v, -, hvl, hv⟩ := hov ho
      by_cases hk : ovfKey n = ovfKey loc
      · rw [ovfAt, ovfAt, hk, hv, tabGet_tabPut_same, hvl]
        rfl
      · exact congrArg OvfSlot.line (hovf _ hk)
  unfold findLine at h ⊢
  have hP : (fun n => (ovfAt t n).line == line) = fun n => (ovfAt s n).line == line := funext fun n => by rw [hline]
  split at h
  · next x hx =>
    obtain rfl : x = loc := Option.some.inj h
    obtain ⟨hp, as, bs, hl, has⟩ := List.find?_eq_some_iff_append.1 hx
    have hmem : x ∈ setLocs sl set := by rw [hl]; simp
    have ho : locOvf x = false := by
      simp only [setLocs, List.mem_map, List.mem_range] at hmem
      obtain ⟨i, hi, rfl⟩ := hmem
      refine decide_eq_false ?_
      rw [locIx, wayLoc]
      omega
    obtain ⟨sv, sp, d, hw⟩ := hway ho
    have hx' : (wayLive t x && (wayAt t x).line == line) = true := by
      simp only [wayLive, locScratch_of hcfg hscr, Bool.and_eq_true, Bool.or_eq_true, hw] at hp ⊢
      exact ⟨⟨hp.1.1, .inl trivial⟩, hp.2⟩
    have hrest : ∀ a ∈ as, (!(wayLive t a && (wayAt t a).line == line)) = true := fun a ha => by
      have hne : a ≠ x := fun e => by
        have := has a ha
        rw [e, hp] at this
        simp at this
      have haw : wayAt t a = wayAt s a := hways _ fun e => hne (wayKey_inj (sl := sl) (set := set) (by rw [hl]; simp [ha]) hmem e)
      rw [wayLive, haw, locScratch_of hcfg hscr]
      exact has a ha
    rw [(List.find?_eq_some_iff_append (p := fun a => wayLive t a && (wayAt t a).line == line)).2 ⟨hx', as, bs, hl, hrest⟩]
  · next hx =>
    have hmem : loc ∈ usedOf sl s.cache.ovf := List.mem_of_find?_eq_some h
    obtain ⟨⟨k, w⟩, hkw, hkl⟩ := List.mem_filterMap.1 hmem
    dsimp only at hkl
    split at hkl
    · next hc =>
      simp only [Bool.and_eq_true, decide_eq_true_eq] at hc
      obtain ⟨hk, -⟩ := hc
      obtain rfl : ovfLoc sl (k % 512) = loc := Option.some.inj hkl
      have ho : locOvf (ovfLoc sl (k % 512)) = true := by
        refine decide_eq_true ?_
        rw [locIx, ovfLoc]
        omega
      have hkey : ovfKey (ovfLoc sl (k % 512)) = k := by
        rw [ovfKey_ovfLoc (Nat.mod_lt _ (by decide)), ← hk]
        exact Nat.div_add_mod' k 512
      rw [if_pos ho] at htab
      have hnone : (setLocs sl set).find? (fun a => wayLive t a && (wayAt t a).line == line) = none := by
        have hsame : (fun a => wayLive t a && (wayAt t a).line == line) = fun a => wayLive s a && (wayAt s a).line == line := funext fun a => by
          have hw : wayAt t a = wayAt s a := by simp only [wayAt, htab]
          rw [wayLive, wayLive, hw, locScratch_of hcfg hscr]
        rw [hsame]
        exact hx
      obtain ⟨v, hvu, -, hv⟩ := hov ho
      rw [hnone]
      show (usedOf sl t.cache.ovf).find? _ = _
      rw [hP, hv, hkey]
      have hpl := List.find?_some (p := fun n => (ovfAt s n).line == line) h
      have hu : v.used = (tabGet ovfReset s.cache.ovf k).used := by simp only [hvu, ovfAt, hkey]
      exact find_usedOf_tabPut (sl := sl) (k := k) (P := fun n => (ovfAt s n).line == line) s.cache.ovf hpl hu h
    · cases hkl

/-! ### A store to a line that the cache holds -/

/-- A line on no dead slot, not waiting for restoration, that the cache holds. -/
def heldAt (s : State) (line loc : Nat) : Prop :=
  locate s line = some loc ∧ lineDead s line = false ∧ nsHas line s.med.restored = false

theorem heldAt_of_kept {t : State} {ps : List Part} (h : heldAt s line loc) (hk : keptBut s t ps) (hs : scratchSteps t = scratchSteps s)
    (hm : Part.med ∉ ps := by decide) (hc : Part.cache ∉ ps := by decide) : heldAt t line loc := by
  have hcfg : t.config = s.config := hk.1
  have hmed : t.med = s.med := agree_of_kept hk .med hm
  obtain ⟨h1, h2, h3⟩ := h
  exact ⟨(locate_of_cache hcfg hmed (agree_of_kept hk .cache hc) hs line).trans h1, (lineDead_of_med hcfg hmed line).trans h2, hmed ▸ h3⟩

theorem storeLine_held (hs : sector < 4) (h : heldAt s line loc) : ∃ t, storeLine line sector data poison s = (t, some loc)
    ∧ locHolds t loc = (locSv s loc ||| bit4 sector,
        (if poison then locSp s loc ||| bit4 sector else locSp s loc &&& ~~~(bit4 sector)), lineSet (locData s loc) sector data)
    ∧ locDirty t loc = true ∧ otherLocsKept loc s t ∧ heldAt t line loc ∧ keptBut s t [.cache, .host] ∧ t.regs = s.regs := by
  obtain ⟨h1, h2, h3⟩ := h
  have hmv := locsMoved_writeSector (s := s) (loc := loc) sector data poison
  have hk : keptBut s (storeLine line sector data poison s).1 [.cache, .host] := by
    rw [storeLine_of_located poison h1 h2 h3, locsMoved_writeSector]
    simp
  refine ⟨_, storeLine_of_located poison h1 h2 h3, ?_⟩
  rw [storeLine_of_located poison h1 h2 h3] at hk
  dsimp only at hk ⊢
  rw [unlistPoison_eq] at hk ⊢
  have hhold := locHolds_writeSector (s := s) (loc := loc) sector data poison
  have hdirty := locDirty_writeSector (s := s) (loc := loc) sector data poison
  have hother := otherLocsKept_writeSector (s := s) (loc := loc) sector data poison
  have hloc := locate_writeSector (data := data) (poison := poison) hs h1
  generalize writeSector loc sector data poison s = u at *
  have hcfg : u.config = s.config := by rw [hmv]; rfl
  have hmed : u.med = s.med := by rw [hmv]; rfl
  exact ⟨hhold, hdirty, hother, ⟨(locate_of_cache rfl rfl rfl rfl line).trans hloc, (lineDead_of_med hcfg hmed line).trans h2, hmed ▸ h3⟩, hk,
    by rw [onHost_regs, hmv]; rfl⟩

theorem getLsbD_or_bit4 (x : BitVec 4) {i : Nat} (hi : i < 4) : (x ||| bit4 i).getLsbD i = true := by
  revert x
  match i with
  | 0 | 1 | 2 | 3 => decide

theorem getLsbD_and_not_bit4 (x : BitVec 4) {i : Nat} (hi : i < 4) : (x &&& ~~~(bit4 i)).getLsbD i = false := by
  revert x
  match i with
  | 0 | 1 | 2 | 3 => decide

theorem validAll (x : BitVec 4) : x ||| bit4 0 ||| bit4 1 ||| bit4 2 ||| bit4 3 = 15 := by
  revert x
  decide

theorem poisonAll (x sp : BitVec 4) :
    (let mark (x : BitVec 4) (i : Nat) : BitVec 4 := if sp.getLsbD i then x ||| bit4 i else x &&& ~~~(bit4 i)
     mark (mark (mark (mark x 0) 1) 2) 3) = sp := by
  revert x sp
  decide

/-- A whole line with its poison mask, written sector by sector. -/
theorem storeWhole_held (d : Line) (sp : BitVec 4) (h : heldAt s line loc) :
    locHolds (storeWhole line d sp s) loc = (15, sp, d) ∧ locDirty (storeWhole line d sp s) loc = true
      ∧ otherLocsKept loc s (storeWhole line d sp s) ∧ keptBut s (storeWhole line d sp s) [.cache, .host] := by
  obtain ⟨a, ha, va, -, oa, la, ka, -⟩ := storeLine_held (sector := 0) (data := lineGet d 0) (poison := sp.getLsbD 0) (by decide) h
  obtain ⟨b, hb, vb, -, ob, lb, kb, -⟩ := storeLine_held (sector := 1) (data := lineGet d 1) (poison := sp.getLsbD 1) (by decide) la
  obtain ⟨c, hc, vc, -, oc, lc, kc, -⟩ := storeLine_held (sector := 2) (data := lineGet d 2) (poison := sp.getLsbD 2) (by decide) lb
  obtain ⟨e, he, ve, de, oe, -, ke, -⟩ := storeLine_held (sector := 3) (data := lineGet d 3) (poison := sp.getLsbD 3) (by decide) lc
  have hw : storeWhole line d sp s = e := by
    simp only [storeWhole, forEach_cons, forEach_nil, ha, hb, hc, he]
  simp only [locHolds, Prod.mk.injEq] at va vb vc ve
  obtain ⟨va1, va2, va3⟩ := va
  obtain ⟨vb1, vb2, vb3⟩ := vb
  obtain ⟨vc1, vc2, vc3⟩ := vc
  obtain ⟨ve1, ve2, ve3⟩ := ve
  rw [hw]
  refine ⟨?_, de, otherLocsKept_trans oa (otherLocsKept_trans ob (otherLocsKept_trans oc oe)),
    keptBut_trans ka (keptBut_trans kb (keptBut_trans kc ke))⟩
  rw [locHolds, ve1, ve2, ve3, vc1, vc2, vc3, vb1, vb2, vb3, va1, va2, va3]
  exact Prod.ext (validAll _) (Prod.ext (poisonAll _ sp) rfl)

/-! ### Bitmaps and released extents -/

theorem bmGet_bmSet_same (m : Bitmap) (n : Nat) (v : Bool) : bmGet (bmSet m n v) n = v := by
  unfold bmSet bmGet
  split
  · next h => simp [nsHas_nsDel_same, h]
  · next h => cases v <;> cases hb : m.base <;> simp_all [nsHas_nsAdd_same]

theorem bmGet_bmSet_ne {n x : Nat} (hx : x ≠ n) (m : Bitmap) (v : Bool) : bmGet (bmSet m n v) x = bmGet m x := by
  unfold bmSet bmGet
  split
  · simp [nsHas_nsDel_ne hx]
  · simp [nsHas_nsAdd_ne hx]

theorem releaseExtent_released (e : Nat) : (releaseExtent e s).med.released = bmSet s.med.released e true
    ∧ (releaseExtent e s).med.lines = s.med.lines ∧ keptBut s (releaseExtent e s) [.cache, .sched, .med] := by
  have h1 : ∀ u : State, (releaseLines e u).med = u.med := fun u => agree_of_kept (ps := [.cache, .sched]) (by simp) .med
  have h2 : ∀ (f : Desc → Bool) (u : State), (dropOps f u).med = u.med := fun f u => agree_of_kept (ps := [.sched]) (by simp) .med
  refine ⟨?_, ?_, by simp⟩
  · simp [releaseExtent, queueClrs, h1, h2]
  · simp [releaseExtent, queueClrs, h1, h2]

/-- The last divergent extent takes the divergence and the resynchronisation with it. -/
theorem clearDivergence_of_last {e : Nat} (h : nsHas e s.tnd.divergent = true) (ha : s.tnd.divergeAll = false) :
    (clearDivergence e s).tnd.divergent = nsDel e s.tnd.divergent
      ∧ (nsDel e s.tnd.divergent ≠ [] → keptBut s (clearDivergence e s) [.stamp, .tnd])
      ∧ (nsDel e s.tnd.divergent = [] → fget (clearDivergence e s) F.TND_STATUS_DIVERGED 0 = 0
        ∧ fget (clearDivergence e s) F.TND_STATUS_RESYNC 0 = 0 ∧ fget (clearDivergence e s) F.TND_ERR_RESYNC_DONE 0 = 1) := by
  by_cases hd : nsDel e s.tnd.divergent = []
  · have he : clearDivergence e s = resyncOver (setTnd F.TND_STATUS_DIVERGED 0 (onTnd (fun t => { t with divergent := nsDel e t.divergent }) s)) := by
      simp [clearDivergence, h, ha, hd]
    rw [he]
    refine ⟨by simp [resyncOver, tandemRecord], fun hne => absurd hd hne, fun _ => ⟨?_, ?_, ?_⟩⟩
    · simp (disch := decide) [resyncOver, fget_fset_other, fget_fclr_other, fget_setTnd_same]
    · simp (disch := decide) [resyncOver, fget_fset_other, fclr]
    · simp (disch := decide) [resyncOver, fget_fset_same]
  · have he : clearDivergence e s = onTnd (fun t => { t with divergent := nsDel e t.divergent }) s := by
      simp [clearDivergence, h, hd]
    rw [he]
    exact ⟨rfl, fun _ => by simp, fun hn => absurd hn hd⟩

end

/-- Settles O53: each message by the effect that it has on a link that is up. -/
theorem mirroredDataMoves : Obligations.MirroredDataMoves := by
  unfold Obligations.MirroredDataMoves
  intro s hg hsv hc hup hq
  have hin : inService s = true := by simp [inService, hsv]
  have hmsg : ∀ (k : State → State), onMessage false k (stampNow s)
      = k (onTnd (fun t => { t with lastMsg := s.gtc, lastQuiesce := false }) (stampNow s)) := fun k => by
    simp [onMessage, hc, show tndUp (stampNow s) = true from hup]
  refine ⟨fun m loc => ?mwr, fun tag hw => ?mack, fun n => ?mcred, fun slot extent => ?mrel, fun m loc => ?rsync, fun slot extent => ?rdone⟩
  case mwr =>
    intro line i hslot hcr hloc hdead hres
    have hi : i < 4 := Nat.mod_lt _ (by decide)
    have he0 : mwrMsg m (stampNow s) = _ := hmsg _
    generalize hx : fput F.TND_CREDIT_GRANTED 0 (fget (onTnd (fun t => { t with lastMsg := s.gtc, lastQuiesce := false }) (stampNow s))
        F.TND_CREDIT_GRANTED 0 - 1) (onTnd (fun t => { t with lastMsg := s.gtc, lastQuiesce := false }) (stampNow s)) = x at he0
    have hkx : keptBut s x [.stamp, .tnd, .regs] := by rw [← hx]; simp
    have hrx : regsKept s x [(F.TND_CREDIT_GRANTED, 0)] := by rw [← hx]; simp
    have hgx : fget x F.TND_CREDIT_GRANTED 0 = fget s F.TND_CREDIT_GRANTED 0 - 1 := by
      rw [← hx, fget_fput_same]
      exact Nat.mod_eq_of_lt (lt_of_le_of_lt (Nat.sub_le _ 1) hcr)
    have hcfg : x.config = s.config := hkx.1
    have hmed : x.med = s.med := agree_of_kept hkx .med
    have hcache : x.cache = s.cache := agree_of_kept hkx .cache
    have hsteps : scratchSteps x = scratchSteps s := hrx _ _ (by decide)
    have hline : storeLineNo x m.slot.toNat m.line.toNat = line := by
      rw [storeLineNo, hrx F.TND_CFG_MIRROR_BASE 0 (by decide)]
      rfl
    have hheld : heldAt x line loc := heldAt_of_kept (s := s) (ps := [.stamp, .tnd, .regs]) ⟨hloc, hdead, hres⟩ hkx hsteps
    obtain ⟨t, hst, hhold, hdirty, ⟨-, -, hdir⟩, -, hkt, hregs⟩ := storeLine_held (data := m.data) (poison := false) hi hheld
    have he : mwrMsg m (stampNow s) = (t |> when (nsHas (extentOf line) x.tnd.resync) (onTnd (fun t => { t with mwrSince := nsAdd line t.mwrSince }))
           |> emit (.tandem (.mack m.tag))) := by
      have hslot' : slotHeld x m.slot.toNat = true := by
        rw [slotHeld, hrx F.TND_STATUS_PEER_COPY 0 (by decide), ← hx]
        exact hslot
      have hin' : inService x = true := by simpa [inService, show x.mode = s.mode from agree_of_kept hkx .mode] using hin
      have hstx : storeLine line (m.sect.toNat % 4) m.data false x = (t, some loc) := hst
      rw [he0]
      simp only [hslot', hin', hline, hstx, Bool.not_true, Bool.or_self, Bool.false_eq_true, if_false]
    simp only [locHolds, Prod.mk.injEq, Bool.false_eq_true, if_false] at hhold
    obtain ⟨h1, h2, h3⟩ := hhold
    have hdata : locData x loc = locData s loc := by simp only [locData, ovfAt, wayAt, hcache]
    obtain ⟨f, hf⟩ : ∃ f, (t |> when (nsHas (extentOf line) x.tnd.resync) (onTnd (fun t => { t with mwrSince := nsAdd line t.mwrSince })))
        = onTnd f t := by
      cases nsHas (extentOf line) x.tnd.resync
      · exact ⟨id, rfl⟩
      · exact ⟨fun t => { t with mwrSince := nsAdd line t.mwrSince }, rfl⟩
    rw [hf] at he
    refine ⟨_, run_of_effect he, ?_, ?_, ?_, hdirty, fun j hj hne => ?_, ?_, ?_, fun n hn => (hdir n hn).trans ?_, ?_, ?_⟩
    · show lineGet (locData t loc) i = _
      rw [h3, lineGet_lineSet_same _ hi]
    · show (locSv t loc).getLsbD i = true
      rw [h1]
      exact getLsbD_or_bit4 _ hi
    · show (locSp t loc).getLsbD i = false
      rw [h2]
      exact getLsbD_and_not_bit4 _ hi
    · show lineGet (locData t loc) j = _
      rw [h3, lineGet_lineSet_other _ hi hj hne, hdata]
    · show fget t F.TND_CREDIT_GRANTED 0 = _
      rw [← hgx, fget, fget, hregs]
    · have ho : t.outbox = x.outbox := agree_of_kept hkt .outbox
      have hox : x.outbox = s.outbox := agree_of_kept hkx .outbox
      rw [settle_outbox, emit_outbox, onTnd_outbox, ho, hox]
    · rw [dirAt, dirAt, hcache]
    · have hrt : regsKept x t [(F.TND_CREDIT_GRANTED, 0)] := (regsKept_iff_of_regs hregs).2 (regsKept_refl _ _)
      simpa using regsKept_trans hrx hrt
    · exact keptBut_settle hg (keptBut_trans (keptBut_mono hkx (by simp)) (keptBut_trans (keptBut_mono hkt (by simp)) (by simp)))
  case mack =>
    have hany : s.tnd.waiting.any (fun w => w.1 == tag) = true := by simpa using hw
    have he : mackMsg tag (stampNow s) = (onTnd (fun t => { t with lastMsg := s.gtc, lastQuiesce := false }) (stampNow s)
        |> ackMirror tag |> finc F.TND_MIRRORED_COUNT 0) := by
      refine (hmsg _).trans ((if_pos hany).trans ?_)
      rw [tryQuiesce, if_neg (by simp [ackMirror, onCtx, hq])]
    refine ⟨_, run_of_effect he, by simp [ackMirror, onCtx], fun c hm ht => ?_, ?_, by simp [ackMirror, onCtx], keptBut_of_effect hg (by simp)⟩
    · have hst := giveBack_eqs (s := s) (tag, 0, 0)
      simp only [ackMirror, onCtx, settle_sched, finc_sched, onTnd_sched, onSched_sched, stampNow_sched, List.mem_map] at hm
      obtain ⟨y, -, rfl⟩ := hm
      have hy := answered_st (w := (tag, 0, 0)) (c := y)
      have hty := answered_tag (tag, 0, 0) y
      exact hy (.inl (hty ▸ ht))
    · simp [fget_finc_same]
  case mcred =>
    refine ⟨_, run_of_effect (hmsg _), ?_, by simp, keptBut_of_effect hg (by simp)⟩
    rw [fget_settle, fadd, fget_fput_same]
    exact Nat.mod_eq_of_lt (lt_of_le_of_lt (min_le_right _ _) (by decide))
  case mrel =>
    intro e hslot hown
    have he : mrelMsg slot.toNat extent.toNat (stampNow s) = releaseExtent e (onTnd (fun t => { t with lastMsg := s.gtc, lastQuiesce := false }) (stampNow s)) := by
      have hown' : (fget (onTnd (fun t => { t with lastMsg := s.gtc, lastQuiesce := false }) (stampNow s)) F.TND_STATUS_OWN 0 == 2) = false := by
        simpa using hown
      have hslot' : slotHeld (onTnd (fun t => { t with lastMsg := s.gtc, lastQuiesce := false }) (stampNow s)) slot.toNat = true := hslot
      refine (hmsg _).trans ?_
      dsimp only
      rw [hown', hslot']
      rfl
    obtain ⟨h1, h2, hk⟩ := releaseExtent_released (s := onTnd (fun t => { t with lastMsg := s.gtc, lastQuiesce := false }) (stampNow s)) e
    have hm := agree_of_kept hk .mode
    generalize releaseExtent e (onTnd (fun t => { t with lastMsg := s.gtc, lastQuiesce := false }) (stampNow s)) = u at he h1 h2 hm
    refine ⟨_, run_of_effect he, ?_, fun x hx => ?_, ?_, ?_⟩
    · rw [settle_med, h1]
      exact bmGet_bmSet_same ..
    · rw [settle_med, h1]
      exact bmGet_bmSet_ne hx ..
    · rw [settle_med, h2]
      rfl
    · exact hm.trans hsv
  case rsync =>
    intro line htake hns hloc hdead hres
    have he0 : rsyncMsg m (stampNow s) = _ := hmsg _
    generalize hx : onTnd (fun t => { t with lastMsg := s.gtc, lastQuiesce := false }) (stampNow s) = x at he0
    have htx : takesResync x m.slot.toNat = true := by rw [← hx]; exact htake
    have hlx : slotFirst x m.slot.toNat + m.line.toNat % 4194304 = line := by rw [← hx]; rfl
    have hnx : nsHas line x.tnd.mwrSince = false := by rw [← hx]; exact hns
    simp only [htx, hlx, hnx, Bool.not_true, Bool.false_eq_true, if_false] at he0
    generalize hy : onTnd (fun t => { t with resync := nsAdd (extentOf line) t.resync }) x = y at he0
    have hky : keptBut s y [.stamp, .tnd] := by rw [← hy, ← hx]; simp
    have hheld : heldAt y line loc := heldAt_of_kept ⟨hloc, hdead, hres⟩ hky (by rw [← hy, ← hx]; rfl)
    obtain ⟨hhold, hdirty, ⟨-, -, hdir⟩, hk⟩ := storeWhole_held m.data m.sp hheld
    generalize storeWhole line m.data m.sp y = t at he0 hhold hdirty hdir hk
    simp only [locHolds, Prod.mk.injEq] at hhold
    obtain ⟨h1, h2, h3⟩ := hhold
    exact ⟨_, run_of_effect he0, h3, h1, h2, hdirty,
      fun n hn => (hdir n hn).trans (by rw [dirAt, dirAt, show y.cache = s.cache from agree_of_kept hky .cache]),
      keptBut_settle hg (keptBut_trans (keptBut_mono hky (by simp)) (keptBut_mono hk (by simp)))⟩
  case rdone =>
    intro e hlt hown htake hall hdiv
    generalize hx : onTnd (fun t => { t with lastMsg := s.gtc, lastQuiesce := false }) (stampNow s) = x
    have hxt : takesResync x slot.toNat = false := by rw [← hx]; exact htake
    have he : rdoneMsg slot.toNat extent.toNat (stampNow s) = clearDivergence e x := by
      have hxo : (decide (slot.toNat < x.tnd.own.length) && decide (fget x F.TND_STATUS_OWN 0 = 0)) = true := by
        rw [← hx]
        exact Bool.and_eq_true_iff.2 ⟨decide_eq_true hlt, decide_eq_true hown⟩
      have hxe : x.tnd.own.getD slot.toNat 0 * 512 + extent.toNat % 512 = e := by rw [← hx]; rfl
      refine (hmsg _).trans ?_
      dsimp only
      rw [hx, hxt, hxe]
      exact (if_neg (by simp)).trans (if_pos (by simpa using hxo))
    have hxd : x.tnd.divergent = s.tnd.divergent := by rw [← hx]; rfl
    have hxa : x.tnd.divergeAll = false := by rw [← hx]; exact hall
    have hxk : keptBut s x [.stamp, .tnd] := by rw [← hx]; simp
    have hhas : nsHas e x.tnd.divergent = true := hxd ▸ hdiv
    obtain ⟨h1, h2, h3⟩ := clearDivergence_of_last hhas hxa
    rw [hxd] at h1 h2 h3
    refine ⟨_, run_of_effect he, ?_, fun hne => ?_, fun hnil => ?_⟩
    · rw [settle_tnd, h1]
      exact nsHas_nsDel_same ..
    · exact keptBut_settle hg (keptBut_trans (keptBut_mono hxk (by simp)) (h2 hne))
    · exact h3 hnil

end Sys2Proof.Machine
end

section
/-! SUPPORT. A rail's fault (R226 to R229): what it marks on its channels, and what its response leaves of that. -/
namespace Sys2Proof.Machine

set_option Elab.async false

section
variable {s t u : State} {tgt : Target} {c kind : Nat}

/-! ### Targets -/

theorem tgtChans_of_gangs (h : ∀ g < 8, fget t F.SEQ_GANGg_MEMBERS g = fget s F.SEQ_GANGg_MEMBERS g) (x : Target) : tgtChans t x = tgtChans s x := by
  have hb : ∀ g < 8, gangBits t g = gangBits s g := fun g hg => by rw [gangBits, gangBits, h g hg]
  have hbad : ∀ g < 8, gangBad t g = gangBad s g := fun g hg => by
    have hany : ((List.range 8).any fun k => k != g && (gangBits t k).any fun c => (gangBits t g).contains c)
        = (List.range 8).any fun k => k != g && (gangBits s k).any fun c => (gangBits s g).contains c := by
      rw [Bool.eq_iff_iff, List.any_eq_true, List.any_eq_true]
      refine exists_congr fun k => and_congr_right fun hk => ?_
      rw [hb k (List.mem_range.1 hk), hb g hg]
    rw [gangBad, gangBad, hany, hb g hg]
  cases x with
  | chan c => rfl
  | gang g => rw [tgtChans, tgtChans, gangMembers, gangMembers, hbad _ g.isLt, hb _ g.isLt]

theorem gangOf_of_gangs (h : ∀ g < 8, fget t F.SEQ_GANGg_MEMBERS g = fget s F.SEQ_GANGg_MEMBERS g) (c : Nat) : gangOf t c = gangOf s c := by
  have hm : ∀ g : Fin 8, gangMembers t g.val = gangMembers s g.val := fun g => tgtChans_of_gangs h (.gang g)
  simp only [gangOf, hm]

/-! ### What a fault marks -/

/-- The keys of a channel's FAULT_SEEN, LAST_KIND and COUNT_FAULTS. -/
abbrev markKey (k : Nat) : Prop := 0xC0200 * 8 ≤ k ∧ (k % 256 = 0xC8 ∨ k % 256 = 0xCC ∨ k % 256 = 0xE0)

/-- The keys that a fault does not write: outside the first-fault latch and the channels' marks. -/
abbrev calmKey (k : Nat) : Prop := ¬ (0xC0040 * 8 ≤ k ∧ k < 0xC0060 * 8) ∧ ¬ markKey k

theorem calmKey_of_chan {f : Fld} (i : Nat) (hs : f.stride = 0x20 := by rfl) (hb : 0xC0200 ≤ f.base := by decide)
    (h1 : (f.base * 8 + f.lo) % 256 ≠ 0xC8 := by decide) (h2 : (f.base * 8 + f.lo) % 256 ≠ 0xCC := by decide)
    (h3 : (f.base * 8 + f.lo) % 256 ≠ 0xE0 := by decide) : calmKey (f.key i) := by
  have hk : f.key i = (f.base + 0x20 * i) * 8 + f.lo := by rw [Fld.key, hs]
  unfold calmKey markKey
  omega

theorem calmKey_of_gang {g : Nat} (h : g < 8) : calmKey (F.SEQ_GANGg_MEMBERS.key g) := by
  have hk : F.SEQ_GANGg_MEMBERS.key g = (0xC0020 + 0x4 * g) * 8 := rfl
  unfold calmKey markKey
  omega

theorem gangs_of_calm (h : keptAt calmKey s t) : ∀ g < 8, fget t F.SEQ_GANGg_MEMBERS g = fget s F.SEQ_GANGg_MEMBERS g :=
  fun _ hg => h.fget (calmKey_of_gang hg)

theorem keptAt_firstFault (kind source cause : Nat) : keptAt calmKey s (firstFault kind source cause s) := by
  have hr : ∀ (p : Nat) (v : State), (ringOut 4 p v).regs = v.regs := fun p v => by unfold ringOut; split <;> rfl
  unfold firstFault
  split
  · dsimp only
    rw [keptAt_iff_of_regs (hr _ _)]
    simp (disch := decide)
  · simp

/-- One channel is marked. -/
def markChan (kind m : Nat) (s : State) : State :=
  s |> fset F.SEQ_CHn_STATUS_FAULT_SEEN m |> fput F.SEQ_CHn_STATUS_LAST_KIND m kind |> finc F.SEQ_CHn_COUNT_FAULTS m
    |> onSeq (fun q => { q with faultAt := tabSet 0 m (tickOf s + 1) q.faultAt })

theorem seen_key (i : Nat) : F.SEQ_CHn_STATUS_FAULT_SEEN.key i = (0xC0218 + 0x20 * i) * 8 + 8 := rfl
theorem kind_key (i : Nat) : F.SEQ_CHn_STATUS_LAST_KIND.key i = (0xC0218 + 0x20 * i) * 8 + 12 := rfl
theorem faults_key (i : Nat) : F.SEQ_CHn_COUNT_FAULTS.key i = (0xC021C + 0x20 * i) * 8 := rfl

theorem keptAt_markChan (kind m : Nat) : keptAt calmKey s (markChan kind m s) := by
  have h1 : ¬ calmKey (F.SEQ_CHn_STATUS_FAULT_SEEN.key m) := by rw [seen_key]; unfold calmKey markKey; omega
  have h2 : ¬ calmKey (F.SEQ_CHn_STATUS_LAST_KIND.key m) := by rw [kind_key]; unfold calmKey markKey; omega
  have h3 : ¬ calmKey (F.SEQ_CHn_COUNT_FAULTS.key m) := by rw [faults_key]; unfold calmKey markKey; omega
  simp [markChan, h1, h2, h3]

theorem countFault_eq (tgt : Target) (c kind : Nat) (s : State) : countFault tgt c kind s
    = (s |> firstFault kind (srcRail c) 0 |> forEach (tgtChans s tgt) (markChan kind) |> land 0x05 1 (srcRail c) 0 none) := rfl

theorem keptAt_countFault : keptAt calmKey s (countFault tgt c kind s) := by
  rw [countFault_eq, keptAt_land]
  exact keptAt.trans (keptAt_firstFault _ _ _) (keptAt_forEach (fun m u => keptAt_markChan kind m) _)

/-- A loop sets a field of each of its members. -/
theorem fget_forEach_sets {f : Nat → State → State} {g : Fld} {v c : Nat} (hset : ∀ u, fget (f c u) g c = v)
    (hkeep : ∀ m u, m ≠ c → fget (f m u) g c = fget u g c) {xs : List Nat} (h : c ∈ xs ∨ fget s g c = v) : fget (forEach xs f s) g c = v := by
  induction xs generalizing s with
  | nil => simpa using h
  | cons m xs ih =>
    rw [forEach_cons]
    refine ih ?_
    by_cases hm : m = c
    · exact .inr (hm ▸ hset s)
    · rcases h with h | h
      · exact .inl ((List.mem_cons.1 h).resolve_left (Ne.symm hm))
      · exact .inr ((hkeep m s hm).trans h)

theorem fget_markChan_other {g : Fld} {m : Nat} (h : m ≠ c) (hg : g = F.SEQ_CHn_STATUS_FAULT_SEEN ∨ g = F.SEQ_CHn_STATUS_LAST_KIND
    ∨ g = F.SEQ_CHn_COUNT_FAULTS) : fget (markChan kind m s) g c = fget s g c := by
  rw [markChan, fget_onSeq]
  rcases hg with rfl | rfl | rfl
  · rw [fget_finc_other _ _ _ _ _ (by rw [seen_key, faults_key]; omega), fget_fput_other _ _ _ _ _ _ (by rw [seen_key, kind_key]; omega),
      fget_fset_other _ _ _ _ _ (by rw [seen_key, seen_key]; omega)]
  · rw [fget_finc_other _ _ _ _ _ (by rw [kind_key, faults_key]; omega), fget_fput_other _ _ _ _ _ _ (by rw [kind_key, kind_key]; omega),
      fget_fset_other _ _ _ _ _ (by rw [seen_key, kind_key]; omega)]
  · rw [fget_finc_other _ _ _ _ _ (by rw [faults_key, faults_key]; omega), fget_fput_other _ _ _ _ _ _ (by rw [faults_key, kind_key]; omega),
      fget_fset_other _ _ _ _ _ (by rw [faults_key, seen_key]; omega)]

theorem fget_markChan_same : fget (markChan kind c s) F.SEQ_CHn_STATUS_FAULT_SEEN c = 1
    ∧ fget (markChan kind c s) F.SEQ_CHn_STATUS_LAST_KIND c = kind % 16
    ∧ fget (markChan kind c s) F.SEQ_CHn_COUNT_FAULTS c = min (fget s F.SEQ_CHn_COUNT_FAULTS c + 1) (fmax F.SEQ_CHn_COUNT_FAULTS) := by
  refine ⟨?_, ?_, ?_⟩
  · rw [markChan, fget_onSeq, fget_finc_other _ _ _ _ _ (by rw [seen_key, faults_key]; omega),
      fget_fput_other _ _ _ _ _ _ (by rw [seen_key, kind_key]; omega), fget_fset_same _ _ _ (by decide)]
  · rw [markChan, fget_onSeq, fget_finc_other _ _ _ _ _ (by rw [kind_key, faults_key]; omega), fget_fput_same]
    rfl
  · rw [markChan, fget_onSeq, fget_finc_same, fget_fput_other _ _ _ _ _ _ (by rw [faults_key, kind_key]; omega),
      fget_fset_other _ _ _ _ _ (by rw [faults_key, seen_key]; omega)]

/-- Every channel of the target shows the fault. -/
theorem countFault_marks {m : Nat} (hm : m ∈ tgtChans s tgt) : fget (countFault tgt c kind s) F.SEQ_CHn_STATUS_FAULT_SEEN m = 1
    ∧ fget (countFault tgt c kind s) F.SEQ_CHn_STATUS_LAST_KIND m = kind % 16 := by
  rw [countFault_eq, fget_land, fget_land]
  exact ⟨fget_forEach_sets (fun _ => fget_markChan_same.1) (fun k _ (hk : k ≠ m) => fget_markChan_other hk (.inl rfl)) (.inl hm),
    fget_forEach_sets (fun _ => fget_markChan_same.2.1) (fun k _ (hk : k ≠ m) => fget_markChan_other hk (.inr (.inl rfl))) (.inl hm)⟩

theorem kept_countFault_of : keptBut s (countFault tgt c kind s) [.regs, .seq, .rcd, .outbox] := by simp

theorem respOf_of_calm (h : keptAt calmKey s t) (x : Target) (kind : Nat) : respOf t x kind = respOf s x kind := by
  have hr : ∀ k, (if kind = 2 then fget t F.SEQ_CHn_CFG_RESP_OV k else fget t F.SEQ_CHn_CFG_RESP_UV k)
      = if kind = 2 then fget s F.SEQ_CHn_CFG_RESP_OV k else fget s F.SEQ_CHn_CFG_RESP_UV k := fun k => by
    rw [h.fget (calmKey_of_chan k), h.fget (calmKey_of_chan k)]
  simp only [respOf, tgtChans_of_gangs (gangs_of_calm h), hr]

/-- A noted fault: it is marked, NOTE shows it, and nothing else follows. -/
theorem railFault_noted (hm : s.mode = .ramp ∨ s.mode = .service) (hr : respOf s tgt kind = 0) :
    railFault tgt c kind s = fset F.SEQ_ERR_NOTE 0 (countFault tgt c kind s) := by
  have hmode : (countFault tgt c kind s).mode = s.mode := agree_of_kept kept_countFault_of .mode
  rw [railFault]
  simp only [respOf_of_calm keptAt_countFault, hr, hmode]
  rcases hm with h | h <;> simp [h]

end

end Sys2Proof.Machine
end

section
/-! PROOF. The steps of the power-up sequence (R218, R219, R221). -/
namespace Sys2Proof.Machine

set_option Elab.async false

section
variable {s u : State} {tgt : Target} {c kind k : Nat}

theorem gotoStep_of_le (h : k ≤ 63) (s : State) :
    gotoStep k s = (s |> fput F.SEQ_CTRL_STEP 0 k |> onSeq (fun q => { q with waiting := false, stepSince := tickOf s + 1 })) := if_pos h

/-- Where a step that goes on leads. -/
def steppedTo (s t : State) (k : Nat) : Prop :=
  fget t F.SEQ_CTRL_STEP 0 = k ∧ fget t F.SEQ_CTRL_STATE 0 = fget s F.SEQ_CTRL_STATE 0 ∧ t.seq.waiting = false
    ∧ t.seq.stepSince = tickOf s + 1 ∧ t.mode = s.mode

theorem gotoStep_stepped (h : k ≤ 63) (s : State) : steppedTo s (gotoStep k s) k := by
  rw [gotoStep_of_le h]
  refine ⟨?_, ?_, rfl, rfl, rfl⟩
  · rw [fget_onSeq, fget_fput_same]
    exact Nat.mod_eq_of_lt (show k < 64 by omega)
  · rw [fget_onSeq, fget_fput_other _ _ _ _ _ _ (by decide)]

/-- A step's fault that is only noted: the sequence goes on. -/
theorem stepFault_noted {j : Nat} (hm : s.mode = .ramp) (hs : fget s F.SEQ_CTRL_STATE 0 = 1) (hj : fget s F.SEQ_CTRL_STEP 0 = j) (hj63 : j < 63)
    (hr : respOf s tgt kind = 0) (hk : kind < 16) (x : Nat) : ∃ t, (s |> railFault tgt x kind |> afterStepFault) = t
      ∧ fget t F.SEQ_ERR_NOTE 0 = 1
      ∧ (∀ c ∈ tgtChans s tgt, fget t F.SEQ_CHn_STATUS_FAULT_SEEN c = 1 ∧ fget t F.SEQ_CHn_STATUS_LAST_KIND c = kind)
      ∧ steppedTo s t (j + 1) ∧ t.gtc = s.gtc := by
  have hcalm := keptAt_countFault (s := s) (tgt := tgt) (c := x) (kind := kind)
  have hmarks := fun m (hm : m ∈ tgtChans s tgt) => countFault_marks (c := x) (kind := kind) hm
  have hkept := kept_countFault_of (s := s) (tgt := tgt) (c := x) (kind := kind)
  rw [railFault_noted (.inl hm) hr]
  generalize countFault tgt x kind s = v at *
  have hvm : v.mode = s.mode := agree_of_kept hkept .mode
  have hvg : v.gtc = s.gtc := agree_of_kept hkept .gtc
  have hvs : fget v F.SEQ_CTRL_STATE 0 = 1 := (hcalm.fget (by decide)).trans hs
  have hvj : fget v F.SEQ_CTRL_STEP 0 = j := (hcalm.fget (by decide)).trans hj
  have he : afterStepFault (fset F.SEQ_ERR_NOTE 0 v) = gotoStep (j + 1) (fset F.SEQ_ERR_NOTE 0 v) := by
    have h1 : fget (fset F.SEQ_ERR_NOTE 0 v) F.SEQ_CTRL_STATE 0 = 1 := (fget_fset_other _ _ _ _ _ (by decide)).trans hvs
    have h2 : fget (fset F.SEQ_ERR_NOTE 0 v) F.SEQ_CTRL_STEP 0 = j := (fget_fset_other _ _ _ _ _ (by decide)).trans hvj
    simp [afterStepFault, hvm, hm, h1, nextStep, h2]
  obtain ⟨g1, g2, g3, g4, g5⟩ := gotoStep_stepped (k := j + 1) (by omega) (fset F.SEQ_ERR_NOTE 0 v)
  have hread : ∀ (g : Fld) (i : Nat), g.key i ≠ F.SEQ_CTRL_STEP.key 0 → fget (gotoStep (j + 1)
      (fset F.SEQ_ERR_NOTE 0 v)) g i = fget (fset F.SEQ_ERR_NOTE 0 v) g i :=
    fun g i hg => by rw [gotoStep_of_le (by omega), fget_onSeq, fget_fput_other _ _ _ _ _ _ hg]
  refine ⟨_, rfl, ?_, fun c hc => ?_, ⟨?_, ?_, ?_, ?_, ?_⟩, ?_⟩
  · rw [he, hread _ _ (by decide), fget_fset_same _ _ _ (by decide)]
  · obtain ⟨m1, m2⟩ := hmarks c hc
    have hn : F.SEQ_ERR_NOTE.key 0 = 0xC0014 * 8 := rfl
    have hst : F.SEQ_CTRL_STEP.key 0 = 0xC0000 * 8 + 3 := rfl
    rw [he, hread _ _ (by rw [seen_key, hst]; omega), hread _ _ (by rw [kind_key, hst]; omega),
      fget_fset_other _ _ _ _ _ (by rw [seen_key, hn]; omega), fget_fset_other _ _ _ _ _ (by rw [kind_key, hn]; omega), m1, m2]
    exact ⟨rfl, Nat.mod_eq_of_lt hk⟩
  · rw [he]
    exact g1
  · rw [he, g2, fget_fset_other _ _ _ _ _ (by decide), hvs, hs]
  · rw [he]
    exact g3
  · rw [he, g4, tickOf, tickOf, fset_gtc, hvg]
  · rw [he, g5, fset_mode, hvm]
  · rw [he, gotoStep_of_le (by omega), onSeq_gtc, fput_gtc, fset_gtc, hvg]

end

/-- Settles O36: each operation by its branch, and going on by `gotoStep`. -/
theorem sequenceStepsAct : Obligations.SequenceStepsAct := by
  unfold Obligations.SequenceStepsAct
  intro s hg hmode hstate hk k w tgt at_ faulted here on plain
  have hm : s.mode ≠ .off := by rw [hmode]; decide
  have hon : on.seq = { s.seq with waiting := false, stepSince := tickOf s + 1 } := rfl
  have hgo : ∀ (f : State → State) (j : Nat), j ≤ 63 → f (stampNow s) = gotoStep j (stampNow s) → ∃ t, run f s = .next t
      ∧ plain t j := fun f j hj he => by
    obtain ⟨g1, g2, g3, g4, g5⟩ := gotoStep_stepped hj (stampNow s)
    refine ⟨_, run_of_effect he, ⟨g1, g2.trans hstate, g3, g4, g5.trans hmode⟩, ?_, ?_, ?_⟩
    · rw [gotoStep_of_le hj]
      rfl
    · rw [gotoStep_of_le hj]
      simp
    · rw [gotoStep_of_le hj]
      exact keptBut_of_effect hg (by simp)
  have hnext : nextStep (stampNow s) = gotoStep (k + 1) (stampNow s) := rfl
  refine ⟨fun hw hs => ?begin, fun hw => ?waited⟩
  case begin =>
    have hready : ∀ op, stepOp w = op → stepReady (stampNow s) op = true := fun op h => by
      have hop : stepOp (stepWord (stampNow s)) = op := h
      have hsince : (stampNow s).seq.stepSince ≤ tickOf (stampNow s) := hs
      rw [stepReady, decide_eq_true hsince]
      simp [hmode, hstate, hop, hw]
    refine ⟨fun h => ?seqEnd, fun h hoff htaken hedge hpend => ?enable, fun h hany => ?disable, fun h => ⟨fun ho => ?pgOver, fun ho => ?pgWait⟩,
      fun h => ?ticks, fun h => ⟨fun ho => ?inWin, fun ho hr => ?outWin⟩, fun h => ⟨fun ho => ?agree, fun ho => ?differ⟩, fun h harg => ?branch⟩
    case seqEnd =>
      have he : seqEnd (stampNow s) = endSequence (stampNow s) := by
        rw [seqEnd, hready 0 h]
        rfl
      refine ⟨_, run_of_effect he, ?_, rfl, ?_, ?_, ?_⟩
      · simp only [fget_settle, endSequence, fget_onLife, fget_onSeq]
        exact fget_fput_same ..
      · show { s.seq with waiting := false } = s.seq
        rw [← hw]
      · simp [endSequence]
      · exact keptBut_of_effect hg (by simp [endSequence])
    case enable =>
      have he : seqEnable (stampNow s) = gotoStep (k + 1) (onSeq (fun q => { q with pend := q.pend ++ [tgt] }) (stampNow s)) := by
        have h1 : tgtOn (stampNow s) tgt = false := hoff
        have h2 : takenOff (stampNow s) tgt = false := htaken
        have h3 : (stampNow s).seq.edges.contains (tgt, true) = false := by simpa using hedge
        have h4 : placeRequest tgt (stampNow s) = onSeq (fun q => { q with pend := q.pend ++ [tgt] }) (stampNow s) :=
          if_neg (by simpa using hpend)
        have h5 : stepTarget (stepWord (stampNow s)) = tgt := rfl
        rw [seqEnable, hready 1 h]
        simp only [if_true, h5, h1, h2, h3, h4, when, Bool.not_false, Bool.and_self]
        rfl
      obtain ⟨g1, g2, g3, g4, g5⟩ := gotoStep_stepped (k := k + 1) (by omega) (onSeq (fun q => { q with pend := q.pend ++ [tgt] }) (stampNow s))
      refine ⟨_, run_of_effect he, ⟨g1, g2.trans hstate, g3, g4, g5.trans hmode⟩, ?_, ?_, ?_⟩
      · rw [gotoStep_of_le (by omega)]
        rfl
      · rw [gotoStep_of_le (by omega)]
        simp
      · rw [gotoStep_of_le (by omega)]
        exact keptBut_of_effect hg (by simp)
    case disable =>
      have he : seqDisable (stampNow s) = gotoStep (k + 1) (disableTarget tgt (stampNow s)) := by
        have hst : fget (disableTarget tgt (stampNow s)) F.SEQ_CTRL_STEP 0 = k :=
          fget_of_kept (s := stampNow s) (ps := [.seq]) (by simp) _ _
        rw [seqDisable, hready 2 h, if_pos rfl, ← hst]
        rfl
      have hd : disableTarget tgt (stampNow s) = decideEdge tgt false
          (cancelRequest tgt (stampNow s) |> onSeq (fun q => { q with edges := q.edges.filter (fun e => !(e.1 == tgt && e.2)) })) :=
        by
          rw [disableTarget, show tgtAnyOn (stampNow s) tgt = true from hany]
          rfl
      obtain ⟨g1, g2, g3, g4, g5⟩ := gotoStep_stepped (k := k + 1) (by omega) (disableTarget tgt (stampNow s))
      refine ⟨_, run_of_effect he, ⟨g1, ?_, g3, ?_, ?_⟩, ?_, ?_, ?_, ?_, ?_⟩
      · rw [fget_settle, g2, hd]
        exact hstate
      · rw [settle_seq, g4, hd]
        rfl
      · rw [settle_mode, g5, hd]
        exact hmode
      · rw [gotoStep_of_le (by omega), hd]
        simp [decideEdge, cancelRequest, onSeq]
      · rw [gotoStep_of_le (by omega), hd]
        simp [decideEdge, cancelRequest, onSeq]
      · rw [gotoStep_of_le (by omega), hd]
        simp [decideEdge, cancelRequest, onSeq]
      · rw [gotoStep_of_le (by omega), hd]
        simp [decideEdge, cancelRequest]
      · rw [gotoStep_of_le (by omega)]
        exact keptBut_of_effect hg (by simp)
    case pgOver =>
      refine hgo seqWaitPg _ (by omega) ?_
      rw [seqWaitPg, hready 3 h]
      exact if_pos ho
    case pgWait =>
      refine run_of_effect_eq hg ?_
      rw [seqWaitPg, hready 3 h]
      exact if_neg (show ¬ waitOver (stampNow s) tgt = true by rw [show waitOver (stampNow s) tgt = false from ho]; decide)
    case ticks =>
      refine run_of_effect_eq hg ?_
      rw [seqWaitTicks, hready 4 h]
      rfl
    case inWin =>
      have hnone : (tgtChans (stampNow s) tgt).find? (fun c => !inWindow (stampNow s) c) = none :=
        List.find?_eq_none.2 fun c hc => by
          have := ho c hc
          simp [show inWindow (stampNow s) c = true from this]
      refine hgo seqCheckWindow _ (by omega) ?_
      rw [seqCheckWindow, hready 5 h, if_pos rfl, show stepTarget (stepWord (stampNow s)) = tgt from rfl]
      simp only [hnone]
      rfl
    case outWin =>
      obtain ⟨c, hc, hci⟩ := ho
      have hsome : ((tgtChans (stampNow s) tgt).find? (fun c => !inWindow (stampNow s) c)).isSome :=
        List.find?_isSome.2 ⟨c, hc, by simp [show inWindow (stampNow s) c = false from hci]⟩
      obtain ⟨x, hx⟩ := Option.isSome_iff_exists.1 hsome
      obtain ⟨t, ht, hnote, hseen, ⟨g1, g2, g3, g4, g5⟩, -⟩ :=
        stepFault_noted (s := stampNow s) (tgt := tgt) (kind := 5) hmode hstate (j := k) rfl hk hr (by decide) x
      have he : seqCheckWindow (stampNow s) = t := by
        rw [seqCheckWindow, hready 5 h, if_pos rfl, ← ht, show stepTarget (stepWord (stampNow s)) = tgt from rfl]
        simp only [hx]
      exact ⟨_, run_of_effect he, ⟨g1, g2.trans hstate, g3, g4, g5.trans hmode⟩, hnote, hseen⟩
    case agree =>
      refine hgo seqGangSync _ (by omega) ?_
      rw [seqGangSync, hready 6 h]
      exact if_pos ho
    case differ =>
      refine run_of_effect_eq hg ?_
      rw [seqGangSync, hready 6 h]
      exact if_neg (show ¬ gangAgrees (stampNow s) tgt = true by rw [show gangAgrees (stampNow s) tgt = false from ho]; decide)
    case branch =>
      refine hgo seqBranch _ ?_ ?_
      · split <;> omega
      · have harg2 : (stepArg (stepWord (stampNow s)) / 64 % 2 == 1) = false := by
          rw [show stepArg (stepWord (stampNow s)) / 64 % 2 = 0 from harg]
          rfl
        rw [seqBranch, hready 7 h, if_pos rfl]
        dsimp only
        rw [harg2, if_neg Bool.false_ne_true, apply_ite (fun j => gotoStep j (stampNow s))]
        rfl
  case waited =>
    have hready : ∀ op, stepOp w = op → ((stampNow s).mode = .ramp && fget (stampNow s) F.SEQ_CTRL_STATE 0 = 1
        && (stampNow s).seq.waiting && stepOp (stepWord (stampNow s)) = op) = true := fun op h => by
      have hop : stepOp (stepWord (stampNow s)) = op := h
      simp [hmode, hstate, hw, hop]
    have hfault : ∀ (f : State → State) (x : Nat) (kind : Nat) (c : Nat), kind < 16 → respOf s tgt kind = 0
        → f (stampNow s) = (advanceTo x (stampNow s) |> railFault tgt c kind |> afterStepFault)
        → ∃ t, run f s = .next t ∧ faulted t kind ∧ t.gtc = max s.gtc (x % 2 ^ 64) ∧ at_ t t (k + 1) := fun f x kind c hkind hr he => by
      obtain ⟨hv, hv', hkv⟩ := advanced_spec hg hm x
      generalize advanceTo x (stampNow s) = v at *
      have hfg : ∀ (g : Fld) (i : Nat), fget v g i = fget s g i := fun g i => fget_of_kept hkv g i
      have hmv : v.mode = .ramp := (agree_of_kept hkv .mode).trans hmode
      have htc : tgtChans v tgt = tgtChans s tgt := tgtChans_of_gangs (fun g _ => hfg _ _) tgt
      have hrv : respOf v tgt kind = 0 := (respOf_of_calm (keptAt_of_kept hkv) tgt kind).trans hr
      obtain ⟨t, ht, hnote, hseen, ⟨g1, g2, g3, g4, g5⟩, htg⟩ :=
        stepFault_noted (tgt := tgt) (kind := kind) (j := k) hmv ((hfg _ _).trans hstate) (hfg _ _) hk hrv hkind c
      rw [ht] at he
      have htg' : (settle s t).gtc = t.gtc := by rw [settle_gtc, htg, hv', hv]
      refine ⟨_, run_of_effect he, ⟨hnote, fun m hmem => hseen m (htc ▸ hmem)⟩, ?_, g1, g2.trans ((hfg _ _).trans hstate), g3, ?_, g5.trans hmv⟩
      · rw [htg', htg, hv]
      · rw [settle_seq, g4, tickOf, tickOf, htg', htg]
    refine ⟨fun h => ?ticks, fun h hr => ?skew, fun h hgood hphase hwait hon2 hr => ?pg⟩
    case ticks =>
      obtain ⟨hv, hv', hkv⟩ := advanced_spec hg hm ((s.seq.stepSince + max 1 (stepArg w)) * 250)
      have he : waitTicksExpiry (stampNow s) = gotoStep (k + 1) (advanceTo ((s.seq.stepSince + max 1 (stepArg w)) * 250) (stampNow s)) := by
        rw [waitTicksExpiry]
        exact if_pos (hready 4 h)
      generalize advanceTo ((s.seq.stepSince + max 1 (stepArg w)) * 250) (stampNow s) = v at *
      obtain ⟨g1, g2, g3, g4, g5⟩ := gotoStep_stepped (k := k + 1) (by omega) v
      have htg : (settle s (gotoStep (k + 1) v)).gtc = v.gtc := by
        rw [gotoStep_of_le (by omega), settle_gtc, onSeq_gtc, fput_gtc, hv', hv]
      refine ⟨_, run_of_effect he, htg.trans hv, ⟨g1, ?_, g3, ?_, ?_⟩, ?_, ?_⟩
      · rw [fget_settle, g2, fget_of_kept hkv]
        exact hstate
      · rw [settle_seq, g4, tickOf, tickOf, htg]
      · rw [settle_mode, g5, agree_of_kept hkv .mode]
        exact hmode
      · rw [gotoStep_of_le (by omega)]
        rw [regsKept_iff_of_regs (settle_regs ..), regsKept_onSeq, regsKept_fput_iff _ _ _ (by simp)]
        exact regsKept_of_kept hkv
      · rw [gotoStep_of_le (by omega)]
        exact keptBut_settle_gtc (keptBut_trans (keptBut_mono hkv (by simp)) (by simp))
    case skew =>
      refine hfault gangSyncTimeout _ 6 (tgtLow s tgt) (by decide) hr ?_
      rw [gangSyncTimeout]
      exact if_pos (hready 6 h)
    case pg =>
      obtain ⟨t, h1, h2, h3, h4⟩ := hfault (pgTimeout tgt) ((s.seq.stepSince + waitTicks s w) * 250) 3 (tgtLow s tgt) (by decide) hr (by
        have hc1 : (tgtGood (stampNow s) tgt || !tgtOn (stampNow s) tgt) = false := by
          rw [show tgtGood (stampNow s) tgt = false from hgood, show tgtOn (stampNow s) tgt = true from hon2]
          rfl
        have hc3 : ((stampNow s).seq.railWait.any fun r => r.2 == tgt) = false := by
          simpa using hwait
        have hc4 := hready 3 h
        have hc5 : decide (stepTarget (stepWord (stampNow s)) = tgt) = true := decide_eq_true rfl
        rw [pgTimeout]
        dsimp only
        rw [hc1, if_neg Bool.false_ne_true, if_neg (show ¬ (retryOf (stampNow s) tgt).phase = 2 from hphase), hc3,
          if_neg Bool.false_ne_true, hc4, hc5]
        rfl)
      exact ⟨t, h1, h2, h4, h3⟩

end Sys2Proof.Machine
end

section
/-! SUPPORT. What a rail's fault in SERVICE leaves of a channel's marks, and its response (R227 to R229). -/
namespace Sys2Proof.Machine

set_option Elab.async false

section
variable {s t u : State} {tgt : Target} {c kind n : Nat}

/-- The keys of the channels' trips and fault marks, which no response writes. -/
abbrev shownKey (k : Nat) : Prop := 0xC0200 * 8 ≤ k ∧ k < 0xC0600 * 8
  ∧ (k % 256 = 0xC2 ∨ k % 256 = 0xC3 ∨ k % 256 = 0xC8 ∨ k % 256 = 0xCC ∨ k % 256 = 0xE0)

theorem not_shownKey_of_chan {f : Fld} (i : Nat) (hs : f.stride = 0x20 := by rfl) (h : ∀ r ∈ [0xC2, 0xC3, 0xC8, 0xCC, 0xE0],
      (f.base * 8 + f.lo) % 256 ≠ r := by decide) :
    ¬ shownKey (f.key i) := by
  have hk : f.key i = (f.base + 0x20 * i) * 8 + f.lo := by rw [Fld.key, hs]
  simp only [List.mem_cons, List.not_mem_nil, or_false, forall_eq_or_imp, forall_eq] at h
  unfold shownKey
  omega

theorem shownKey_of_chan {f : Fld} (hn : n < 32) (hs : f.stride = 0x20 := by rfl) (hb : 0xC0200 ≤ f.base ∧ f.base < 0xC0220 := by decide)
      (hl : f.lo < 32 := by decide)
    (h : (f.base * 8 + f.lo) % 256 = 0xC2 ∨ (f.base * 8 + f.lo) % 256 = 0xC3 ∨ (f.base * 8 + f.lo) % 256 = 0xC8
      ∨ (f.base * 8 + f.lo) % 256 = 0xCC ∨ (f.base * 8 + f.lo) % 256 = 0xE0 := by decide) :
    shownKey (f.key n) := by
  have hk : f.key n = (f.base + 0x20 * n) * 8 + f.lo := by rw [Fld.key, hs]
  unfold shownKey
  omega

/-! ### What the responses leave -/

theorem shown_resumeSeq : keptAt shownKey s (resumeSeq s) := by
  unfold resumeSeq
  simp (disch := decide)

theorem shown_endRetry (x : Target) : keptAt shownKey s (endRetry x s) := by
  refine keptAt.trans ?_ shown_resumeSeq
  refine keptAt.trans (t := setRetry x { retryOf s x with phase := 0 } s) (keptAt_of_regs rfl) (keptAt_forEach (fun m u => ?_) _)
  have := not_shownKey_of_chan (f := F.SEQ_CHn_STATUS_RETRYING) m
  simp [this]

theorem shown_startRetry (x : Target) : keptAt shownKey s (startRetry x s) := by
  have hstep : ∀ (m : Nat) (u : State), keptAt shownKey u
      (u |> fset F.SEQ_CHn_STATUS_RETRYING m |> finc F.SEQ_CHn_STATUS_RETRIES m |> finc F.SEQ_CHn_COUNT_RETRIES m) := fun m u => by
    have h1 := not_shownKey_of_chan (f := F.SEQ_CHn_STATUS_RETRYING) m
    have h2 := not_shownKey_of_chan (f := F.SEQ_CHn_STATUS_RETRIES) m
    have h3 := not_shownKey_of_chan (f := F.SEQ_CHn_COUNT_RETRIES) m
    simp [h1, h2, h3]
  have hb : keptAt shownKey s (forEach (tgtChans s x) (fun m u => u |> fset F.SEQ_CHn_STATUS_RETRYING m |> finc F.SEQ_CHn_STATUS_RETRIES m
      |> finc F.SEQ_CHn_COUNT_RETRIES m) (setRetry x ⟨(retryOf s x).count + 1, 1, tickOf s⟩ s)) :=
    keptAt.trans (keptAt_of_regs rfl) (keptAt_forEach hstep _)
  unfold startRetry
  simp (disch := decide) [cancelRequest, decideEdge, hb]

/-- One target of a group is taken off. -/
def takeOff (x : Target) (s : State) : State :=
  s |> cancelRequest x |> forEach (tgtChans s x) (fun m s => fset F.SEQ_CHn_STATUS_OFF_FAULT m s) |> endRetry x

theorem shown_takeOff (x : Target) : keptAt shownKey s (takeOff x s) := by
  refine keptAt.trans ?_ (shown_endRetry x)
  refine keptAt.trans (t := cancelRequest x s) (keptAt_of_regs rfl) (keptAt_forEach (fun m u => ?_) _)
  have := not_shownKey_of_chan (f := F.SEQ_CHn_STATUS_OFF_FAULT) m
  simp [this]

/-- The enabled targets of the log in the group of `x`. -/
def groupHit (x : Target) (s : State) : List Target := (logTargets s).filter (fun u => sameGroup s x u && tgtAnyOn s u)

theorem keptBut_stepDown (d : PowerDown) (s : State) : keptBut s (stepDown d s).2 [.seq] := by
  unfold stepDown
  split
  · simp [decideEdge]
  · exact keptBut_refl _ _

/-- Group-off takes the targets off and shows it; what follows goes to the sequencer's power-downs. -/
theorem groupOff_of_takeOff (x : Target) : keptBut (s |> forEach (x :: groupHit x s) takeOff |> fset F.SEQ_ERR_GROUP_OFF 0)
    (groupOff x s) [.seq, .rcd] := by
  have h : ∀ (v : Option PowerDown × State) (w : State), keptBut w v.2 [.seq, .rcd] →
      keptBut w (match v with
        | (some d, s2) => onSeq (fun q => { q with down := q.down ++ [d] }) s2
        | (none, s2) => s2) [.seq, .rcd] := fun v w hv => by
    obtain ⟨d, s2⟩ := v
    cases d
    · exact hv
    · simpa using hv
  have hs : ∀ (d : PowerDown) (w v : State), keptBut w v [.seq, .rcd] → keptBut w (stepDown d v).2 [.seq, .rcd] := fun d w v hv =>
    keptBut_trans hv (keptBut_mono (keptBut_stepDown d v) (by simp))
  exact h _ _ (hs _ _ _ (by rw [kept_onSeq _ (by simp), kept_land _ _ _ _ _ (by simp)]; exact keptBut_refl _ _))

theorem shown_groupOff (x : Target) : keptAt shownKey s (groupOff x s) := by
  refine keptAt.trans ?_ (keptAt_of_kept (groupOff_of_takeOff x))
  rw [keptAt_fset _ _ (by decide)]
  exact keptAt_forEach (fun y u => shown_takeOff y) _

/-! ### What a brake leaves -/

/-- The keys that the latching of a brake does not write: the channels' trips and marks, and the media buses' registers. -/
abbrev quietKey (k : Nat) : Prop := shownKey k ∨ 0xA1000 * 8 ≤ k ∧ k < 0xA2000 * 8

theorem keptAt.mono {P Q : Nat → Prop} (hPQ : ∀ k, Q k → P k) (h : keptAt P s t) : keptAt Q s t := fun g i hi => h g i (hPQ _ hi)

theorem quiet_firstFault (kind source cause : Nat) : keptAt quietKey s (firstFault kind source cause s) := by
  have hr : ∀ (p : Nat) (v : State), (ringOut 4 p v).regs = v.regs := fun p v => by unfold ringOut; split <;> rfl
  unfold firstFault
  split
  · dsimp only
    rw [keptAt_iff_of_regs (hr _ _)]
    simp (disch := decide)
  · simp

theorem quiet_brakeNote (cause source : Nat) : keptAt quietKey s (brakeNote cause source s) := by
  have hr : ∀ v : State, (ringOut 3 (cause + source * 256) v).regs = v.regs := fun v => by unfold ringOut; split <;> rfl
  have hp : ∀ v : State, (postModule 3 0 7 source v).regs = v.regs := fun v => postModule_regs ..
  refine keptAt.trans (quiet_firstFault 10 source cause) ?_
  simp (disch := decide) [brakeNote, keptAt_iff_of_regs (hr _), keptAt_iff_of_regs (hp _)]

theorem quiet_cancelEnables : keptAt quietKey s (cancelEnables s) := by
  have hstep : ∀ (m : Nat) (u : State), keptAt quietKey u (fclr F.SEQ_CHn_STATUS_RETRYING m u) := fun m u => by
    have hk : F.SEQ_CHn_STATUS_RETRYING.key m = (0xC0218 + 0x20 * m) * 8 + 6 := rfl
    have : ¬ quietKey (F.SEQ_CHn_STATUS_RETRYING.key m) := fun h => by
      unfold quietKey shownKey at h
      omega
    simp [this]
  unfold cancelEnables
  simp only [keptAt_onSeq]
  refine keptAt.trans ?_ (keptAt_forEach hstep _)
  simp (disch := decide)

theorem quiet_capInterrupt : keptAt quietKey s (capInterrupt s) := by
  have he : ∀ u, keptAt quietKey u (endCapTest u) := fun u => by simp (disch := decide) [endCapTest]
  have hr : keptAt quietKey s (capReject s) := by
    simp only [capReject]
    refine (he s).trans ?_
    simp (disch := decide)
  unfold capInterrupt
  split
  · exact keptAt_refl
  · exact he s
  · exact he s
  · exact hr

theorem quiet_endBg (r : RetCode) (out : List Byte) : keptAt quietKey s (endBg r out s) := by
  unfold endBg
  split
  · exact keptAt_refl
  · simp (disch := decide) [keptAt_iff_of_regs (msix_regs _ _)]

theorem quiet_endFlush : keptAt quietKey s (endFlush s) := by
  have hc : ∀ (f : Cache → Cache) (v : State), (onCache f v).regs = v.regs := fun _ _ => rfl
  simp (disch := decide) [endFlush, stopFlush, keptAt_iff_of_regs (hc _ _)]

theorem quiet_abortCals : keptAt quietKey s (abortCals s) := keptAt_of_kept (ps := [.mcv]) (by simp)

theorem quiet_brakeStops : keptAt quietKey s (brakeStops s) :=
  quiet_cancelEnables.trans (quiet_abortCals.trans (quiet_capInterrupt.trans (quiet_endFlush.trans (quiet_endBg _ _))))

theorem quiet_latchBrake (cause source : Nat) (h : brakes s.mode = true) : keptAt quietKey s (latchBrake cause source s) := by
  rw [latchBrake_eq cause source h]
  have hn := quiet_brakeNote (s := s) cause source
  generalize brakeNote cause source s = n at *
  have hs : keptAt quietKey n (brakeStops n) := quiet_brakeStops
  generalize brakeStops n = u at *
  have hb : keptAt quietKey u (brakeShown s (brakeDrains cause s.mode) u) := by
    have hp : ∀ v : State, (poisonLoads v).regs = v.regs := fun _ => rfl
    simp (disch := decide) [brakeShown, showDrain, keptAt_iff_of_regs (hp _)]
  generalize brakeShown s (brakeDrains cause s.mode) u = v at *
  have hm : keptAt quietKey v (setMode .brake v) := fun g i hg =>
    fget_setMode_of_below _ (by unfold quietKey shownKey at hg; omega) (fun he => by rw [he] at hg; revert hg; decide)
  exact hn.trans (hs.trans (hb.trans hm))

theorem shown_latchBrake (cause source : Nat) (h : brakes s.mode = true) : keptAt shownKey s (latchBrake cause source s) :=
  keptAt.mono (fun _ hk => .inl hk) (quiet_latchBrake cause source h)

theorem capInterrupt_pg : (capInterrupt s).pins.pg = s.pins.pg := by
  have he : ∀ v, (endCapTest v).pins.pg = v.pins.pg := fun v => rfl
  have hr : keptBut (endCapTest s) (capReject s) [.regs, .led, .rcd] := by simp [capReject]
  unfold capInterrupt
  split
  · rfl
  · exact he s
  · exact he s
  · rw [agree_of_kept hr .pins, he]

theorem latchBrake_pg (cause source : Nat) (h : brakes s.mode = true) : (latchBrake cause source s).pins.pg = s.pins.pg := by
  obtain ⟨hnk, -, -⟩ := brakeNote_of_marks (s := s) cause source
  have hmk : (brakeMarks cause source s).pins.pg = s.pins.pg := by
    have hf : keptBut s (firstFault 10 source cause s) [.regs, .rcd, .outbox] := by simp
    have hp : (firstFault 10 source cause s).pins = s.pins := agree_of_kept hf .pins
    rw [brakeMarks, onPins_pins, fput_pins, fput_pins, hp]
  have hn : (brakeNote cause source s).pins.pg = s.pins.pg := (congrArg Pins.pg (agree_of_kept hnk .pins)).trans hmk
  rw [latchBrake_eq cause source h]
  generalize brakeNote cause source s = n at *
  have ha : (n |> cancelEnables |> abortCals).pins = n.pins := agree_of_kept (ps := [.regs, .seq, .mcv]) (by simp) .pins
  have hb : ∀ v : State, (v |> endFlush |> endBg ⟨0x12, 0⟩ []).pins = v.pins := fun v =>
    agree_of_kept (ps := [.regs, .cache, .mbx, .outbox]) (by simp) .pins
  have hs : (brakeStops n).pins.pg = n.pins.pg := by rw [brakeStops, hb, capInterrupt_pg, ha]
  generalize brakeStops n = v at *
  have hv : (brakeShown s (brakeDrains cause s.mode) v).pins = v.pins := agree_of_kept (kept_brakeShown _) .pins
  generalize brakeShown s (brakeDrains cause s.mode) v = w at *
  have hw : (setMode .brake w).pins = w.pins := agree_of_kept (ps := [.mode, .regs, .life, .mcv, .rcd]) (by simp) .pins
  rw [hw, hv, hs, hn]

/-! ### The response -/

/-- A fault's response in SERVICE. -/
def faultResponse (x : Target) (c r : Nat) (u : State) : State :=
  if r = 0 then fset F.SEQ_ERR_NOTE 0 u else if r = 1 then retryOrEscalate x c u else if r = 2 then groupOff x u else brakeRail x c u

theorem railFault_of_service (hm : s.mode = .service) :
    railFault tgt c kind s = faultResponse tgt c (respOf s tgt kind) (countFault tgt c kind s) := by
  have hmode : (countFault tgt c kind s).mode = .service := (agree_of_kept kept_countFault_of .mode).trans hm
  rw [railFault]
  simp only [respOf_of_calm keptAt_countFault, hmode]
  rfl

/-- What every response leaves of the fault and of the pins. -/
def faultStands (s t : State) : Prop := keptAt shownKey s t ∧ t.gtc = s.gtc ∧ t.pins.pg = s.pins.pg

theorem faultStands.trans (h : faultStands s t) (k : faultStands t u) : faultStands s u :=
  ⟨h.1.trans k.1, k.2.1.trans h.2.1, k.2.2.trans h.2.2⟩

theorem faultStands_of_kept {ps : List Part} (h : keptAt shownKey s t) (hk : keptBut s t ps) (hg : Part.gtc ∉ ps := by decide)
    (hp : Part.pins ∉ ps := by decide) :
    faultStands s t := ⟨h, agree_of_kept hk .gtc hg, congrArg Pins.pg (agree_of_kept hk .pins hp)⟩

theorem groupOff_stands (x : Target) : faultStands s (groupOff x s) := faultStands_of_kept (ps := [.regs, .seq, .rcd]) (shown_groupOff x) (by simp)

theorem brakeRail_stands (x : Target) (hm : s.mode = .service) (hc : c < 4096) : faultStands s (brakeRail x c s) := by
  have hb : brakes (fset F.SEQ_ERR_BRAKE 0 s).mode = true := by rw [fset_mode, hm]; rfl
  refine ⟨keptAt.trans (by simp (disch := decide)) (shown_latchBrake _ _ hb), ?_, latchBrake_pg _ _ hb⟩
  obtain ⟨-, -, -, -, -, -, -, -, -, hg, -⟩ := latchBrake_latched (if tgtCrit s x then 1 else 2) (srcRail c) (by split <;> decide) hc hb
  exact hg

theorem retryOrEscalate_stands (x : Target) (hm : s.mode = .service) (hc : c < 4096) : faultStands s (retryOrEscalate x c s) := by
  unfold retryOrEscalate
  split
  · exact faultStands_of_kept (ps := [.regs, .seq]) (shown_startRetry x) (by simp)
  · have h : faultStands s (s |> fset F.SEQ_ERR_RETRY_FAIL 0 |> land 0x06 1 (srcRail c) 0 none |> endRetry x) :=
      faultStands_of_kept (ps := [.regs, .seq, .rcd]) (keptAt.trans (by simp (disch := decide)) (shown_endRetry x)) (by simp)
    have hm' : (s |> fset F.SEQ_ERR_RETRY_FAIL 0 |> land 0x06 1 (srcRail c) 0 none |> endRetry x).mode = .service :=
      (agree_of_kept (s := s) (ps := [.regs, .seq, .rcd]) (by simp) .mode).trans hm
    dsimp only
    split
    · exact h.trans (brakeRail_stands x hm' hc)
    · exact h.trans (groupOff_stands x)

theorem faultResponse_stands (x : Target) (r : Nat) (hm : s.mode = .service) (hc : c < 4096) : faultStands s (faultResponse x c r s) := by
  unfold faultResponse
  split_ifs
  · exact faultStands_of_kept (ps := [.regs]) (by simp (disch := decide)) (by simp)
  · exact retryOrEscalate_stands x hm hc
  · exact groupOff_stands x
  · exact brakeRail_stands x hm hc

/-- A retry paused the sequence, if one ran. -/
def pauseSeq (s0 s : State) : State :=
  when (fget s0 F.SEQ_CTRL_STATE 0 == 1) (fun s => s |> fput F.SEQ_CTRL_STATE 0 2 |> onSeq (fun q => { q with pausedAt := tickOf s })) s

theorem fget_pauseSeq {g : Fld} {i : Nat} (h : g.key i ≠ F.SEQ_CTRL_STATE.key 0) (s0 : State) : fget (pauseSeq s0 s) g i = fget s g i := by
  unfold pauseSeq
  cases fget s0 F.SEQ_CTRL_STATE 0 == 1
  · rfl
  · exact fget_fput_other F.SEQ_CTRL_STATE g 0 i 2 s h

theorem pauseSeq_edges (s0 : State) : (pauseSeq s0 s).seq.edges = s.seq.edges := by
  unfold pauseSeq
  cases fget s0 F.SEQ_CTRL_STATE 0 == 1 <;> rfl

theorem startRetry_of_chan (c : Chan) : startRetry (.chan c) s = pauseSeq s (setRetry (.chan c) ⟨(retryOf s (.chan c)).count + 1, 1, tickOf s⟩ s
    |> fset F.SEQ_CHn_STATUS_RETRYING c |> finc F.SEQ_CHn_STATUS_RETRIES c |> finc F.SEQ_CHn_COUNT_RETRIES c
    |> fset F.SEQ_ERR_RETRY 0 |> cancelRequest (.chan c) |> decideEdge (.chan c) false) := rfl

theorem startRetry_shows (c : Chan) : (startRetry (.chan c) s).mode = s.mode ∧ (Target.chan c, false) ∈ (startRetry (.chan c) s).seq.edges
    ∧ fget (startRetry (.chan c) s) F.SEQ_CHn_STATUS_RETRYING c.val = 1 ∧ fget (startRetry (.chan c) s) F.SEQ_ERR_RETRY 0 = 1 := by
  have h1 : F.SEQ_CHn_STATUS_RETRYING.key c.val = (0xC0218 + 0x20 * c.val) * 8 + 6 := rfl
  have h2 : F.SEQ_CHn_STATUS_RETRIES.key c.val = (0xC0218 + 0x20 * c.val) * 8 + 10 := rfl
  have h3 : F.SEQ_CHn_COUNT_RETRIES.key c.val = (0xC021C + 0x20 * c.val) * 8 + 16 := rfl
  have h4 : F.SEQ_ERR_RETRY.key 0 = 0xC0014 * 8 + 1 := rfl
  have h5 : F.SEQ_CTRL_STATE.key 0 = 0xC0000 * 8 := rfl
  refine ⟨agree_of_kept (s := s) (ps := [.regs, .seq]) (by simp) .mode, ?_, ?_, ?_⟩
  · rw [startRetry_of_chan, pauseSeq_edges]
    simp [decideEdge, onSeq]
  · rw [startRetry_of_chan, fget_pauseSeq (by omega), decideEdge, fget_onSeq, cancelRequest, fget_onSeq, fget_fset_other _ _ _ _ _ (by omega),
      fget_finc_other _ _ _ _ _ (by omega), fget_finc_other _ _ _ _ _ (by omega), fget_fset_same _ _ _ (by decide)]
  · rw [startRetry_of_chan, fget_pauseSeq (by omega), decideEdge, fget_onSeq, cancelRequest, fget_onSeq, fget_fset_same _ _ _ (by decide)]

theorem off_key (m : Nat) : F.SEQ_CHn_STATUS_OFF_FAULT.key m = (0xC0218 + 0x20 * m) * 8 + 7 := rfl

theorem fget_endRetry_off (x : Target) (m : Nat) : fget (endRetry x s) F.SEQ_CHn_STATUS_OFF_FAULT m = fget s F.SEQ_CHn_STATUS_OFF_FAULT m := by
  have hr : ∀ u, fget (resumeSeq u) F.SEQ_CHn_STATUS_OFF_FAULT m = fget u F.SEQ_CHn_STATUS_OFF_FAULT m := fun u => by
    have h5 : F.SEQ_CTRL_STATE.key 0 = 0xC0000 * 8 := rfl
    unfold resumeSeq
    split
    · rw [fget_onSeq, fget_fput_other _ _ _ _ _ _ (by rw [off_key]; omega)]
    · rfl
  rw [endRetry, hr]
  refine fget_forEach (fun k u => ?_) _
  have h1 : F.SEQ_CHn_STATUS_RETRYING.key k = (0xC0218 + 0x20 * k) * 8 + 6 := rfl
  exact fget_fclr_other _ _ _ _ _ (by rw [off_key]; omega)

/-- A channel of a target taken off shows it, and goes on showing it. -/
theorem takeOff_off (x : Target) {m : Nat} (h : m ∈ tgtChans s x ∨ fget s F.SEQ_CHn_STATUS_OFF_FAULT m = 1) :
    fget (takeOff x s) F.SEQ_CHn_STATUS_OFF_FAULT m = 1 := by
  rw [takeOff, fget_endRetry_off]
  exact fget_forEach_sets (fun _ => fget_fset_same _ _ _ (by decide)) (fun k u hk => fget_fset_other _ _ _ _ _ (by rw [off_key, off_key]; omega)) h

theorem groupOff_shows (c : Chan) : (groupOff (.chan c) s).mode = s.mode ∧ fget (groupOff (.chan c) s) F.SEQ_CHn_STATUS_OFF_FAULT c.val = 1
    ∧ fget (groupOff (.chan c) s) F.SEQ_ERR_GROUP_OFF 0 = 1 := by
  have hk := groupOff_of_takeOff (s := s) (.chan c)
  refine ⟨agree_of_kept (s := s) (ps := [.regs, .seq, .rcd]) (by simp) .mode, ?_, ?_⟩
  · have h4 : F.SEQ_ERR_GROUP_OFF.key 0 = 0xC0014 * 8 + 3 := rfl
    rw [fget_of_kept hk, fget_fset_other _ _ _ _ _ (by rw [off_key]; omega), forEach_cons]
    refine forEach_induct (P := fun u => fget u F.SEQ_CHn_STATUS_OFF_FAULT c.val = 1)
      (fun x u h => takeOff_off x (.inr h)) _ (takeOff_off _ (.inl ?_))
    exact List.mem_singleton.2 rfl
  · rw [fget_of_kept hk, fget_fset_same _ _ _ (by decide)]

theorem brakeRail_shows (c : Chan) (hm : s.mode = .service) : (brakeRail (.chan c) c.val s).mode = .brake
    ∧ fget (brakeRail (.chan c) c.val s) F.HUB_BRAKE_CAUSE 0 = (if fon s F.SEQ_CHn_CFG_CRIT c.val then 1 else 2)
    ∧ fget (brakeRail (.chan c) c.val s) F.HUB_BRAKE_SOURCE 0 = c.val := by
  have hb : brakes (fset F.SEQ_ERR_BRAKE 0 s).mode = true := by rw [fset_mode, hm]; rfl
  have hcrit : tgtCrit s (.chan c) = fon s F.SEQ_CHn_CFG_CRIT c.val := by simp [tgtCrit, tgtChans]
  obtain ⟨h1, h2, h3, -⟩ := latchBrake_latched (if tgtCrit s (.chan c) then 1 else 2) (srcRail c.val) (by split <;> decide)
    (by have := c.isLt; unfold srcRail; omega) hb
  exact ⟨h1, by rw [brakeRail, h2, hcrit], h3⟩

/-- A fault of a channel has been counted and answered with response `r`. -/
def responded (s t : State) (c : Chan) (kind r : Nat) : Prop :=
  fget t F.SEQ_CHn_STATUS_FAULT_SEEN c.val = 1 ∧ fget t F.SEQ_CHn_STATUS_LAST_KIND c.val = kind
    ∧ fget t F.SEQ_CHn_COUNT_FAULTS c.val = min (fget s F.SEQ_CHn_COUNT_FAULTS c.val + 1) (fmax F.SEQ_CHn_COUNT_FAULTS)
    ∧ (r = 0 → t.mode = .service ∧ fget t F.SEQ_ERR_NOTE 0 = 1)
    ∧ (r = 1 → (retryOf s (.chan c)).count < retryMax s (.chan c) → t.mode = .service ∧ (Target.chan c, false) ∈ t.seq.edges
        ∧ fget t F.SEQ_CHn_STATUS_RETRYING c.val = 1 ∧ fget t F.SEQ_ERR_RETRY 0 = 1)
    ∧ (r = 2 → t.mode = .service ∧ fget t F.SEQ_CHn_STATUS_OFF_FAULT c.val = 1 ∧ fget t F.SEQ_ERR_GROUP_OFF 0 = 1)
    ∧ (r = 3 → t.mode = .brake ∧ fget t F.HUB_BRAKE_CAUSE 0 = (if fon s F.SEQ_CHn_CFG_CRIT c.val then 1 else 2)
        ∧ fget t F.HUB_BRAKE_SOURCE 0 = c.val)

theorem respOf_chan (c : Chan) (h : kind ≠ 7) : respOf s (.chan c) kind
    = if kind = 2 then fget s F.SEQ_CHn_CFG_RESP_OV c.val else fget s F.SEQ_CHn_CFG_RESP_UV c.val := by
  simp [respOf, h, tgtChans]

theorem countFault_faults (c : Chan) : fget (countFault (.chan c) c.val kind s) F.SEQ_CHn_COUNT_FAULTS c.val
    = min (fget s F.SEQ_CHn_COUNT_FAULTS c.val + 1) (fmax F.SEQ_CHn_COUNT_FAULTS) := by
  have he : countFault (.chan c) c.val kind s = land 0x05 1 (srcRail c) 0 none (markChan kind c.val (firstFault kind (srcRail c) 0 s)) := rfl
  have hf := (quiet_firstFault (s := s) kind (srcRail c) 0).fget (.inl (shownKey_of_chan (f := F.SEQ_CHn_COUNT_FAULTS) c.isLt))
  rw [he, fget_land, fget_markChan_same.2.2, hf]

/-- A fault of a channel in SERVICE: it is marked, and the response of its kind follows. -/
theorem railFault_responds (c : Chan) (hm : s.mode = .service) (hk : kind < 7) :
    responded s (railFault (.chan c) c.val kind s) c kind (if kind = 2 then fget s F.SEQ_CHn_CFG_RESP_OV c.val else fget s F.SEQ_CHn_CFG_RESP_UV c.val)
      ∧ (railFault (.chan c) c.val kind s).gtc = s.gtc ∧ (railFault (.chan c) c.val kind s).pins.pg = s.pins.pg
      ∧ fget (railFault (.chan c) c.val kind s) F.SEQ_CHn_STATUS_UV_TRIP c.val = fget s F.SEQ_CHn_STATUS_UV_TRIP c.val
      ∧ fget (railFault (.chan c) c.val kind s) F.SEQ_CHn_STATUS_OV_TRIP c.val = fget s F.SEQ_CHn_STATUS_OV_TRIP c.val := by
  have hcalm := keptAt_countFault (s := s) (tgt := .chan c) (c := c.val) (kind := kind)
  obtain ⟨m1, m2⟩ := countFault_marks (s := s) (tgt := .chan c) (c := c.val) (kind := kind) (m := c.val) (List.mem_singleton.2 rfl)
  have m3 := countFault_faults (s := s) (kind := kind) c
  have hkept := kept_countFault_of (s := s) (tgt := .chan c) (c := c.val) (kind := kind)
  have hretries : (countFault (.chan c) c.val kind s).seq.retries = s.seq.retries := by
    have hf : (firstFault kind (srcRail c) 0 s).seq = s.seq := agree_of_kept (ps := [.regs, .rcd, .outbox]) (by simp) .seq
    have he : countFault (.chan c) c.val kind s = land 0x05 1 (srcRail c) 0 none (markChan kind c.val (firstFault kind (srcRail c) 0 s)) := rfl
    have hl : ∀ v : State, (land 0x05 1 (srcRail c) 0 none v).seq = v.seq := fun v => agree_of_kept (ps := [.rcd]) (by simp) .seq
    have hmk : ∀ v : State, (markChan kind c.val v).seq.retries = v.seq.retries := fun _ => rfl
    rw [he, hl, hmk, hf]
  rw [railFault_of_service hm, respOf_chan c (by omega)]
  generalize hr : (if kind = 2 then fget s F.SEQ_CHn_CFG_RESP_OV c.val else fget s F.SEQ_CHn_CFG_RESP_UV c.val) = r
  generalize countFault (.chan c) c.val kind s = u at *
  have hum : u.mode = .service := (agree_of_kept hkept .mode).trans hm
  obtain ⟨hs, hsg, hsp⟩ := faultResponse_stands (s := u) (c := c.val) (.chan c) r hum (by have := c.isLt; omega)
  refine ⟨⟨?_, ?_, ?_, fun h => ?_, fun h hc => ?_, fun h => ?_, fun h => ?_⟩, hsg.trans (agree_of_kept hkept .gtc),
    hsp.trans (congrArg Pins.pg (agree_of_kept hkept .pins)), ?_, ?_⟩
  · rw [hs.fget (shownKey_of_chan c.isLt), m1]
  · rw [hs.fget (shownKey_of_chan c.isLt), m2]
    exact Nat.mod_eq_of_lt (by omega)
  · rw [hs.fget (shownKey_of_chan c.isLt), m3]
  · rw [faultResponse, if_pos h]
    exact ⟨hum, fget_fset_same _ _ _ (by decide)⟩
  · have hlt : (retryOf u (.chan c)).count < retryMax u (.chan c) := by
      have hmax : retryMax u (.chan c) = retryMax s (.chan c) := by
        simp only [retryMax, tgtChans, List.foldl_cons, List.foldl_nil, hcalm.fget (calmKey_of_chan (f := F.SEQ_CHn_CFG_RETRY_MAX) c.val)]
      rw [hmax, retryOf, hretries]
      exact hc
    obtain ⟨g1, g2, g3, g4⟩ := startRetry_shows (s := u) c
    rw [faultResponse, if_neg (by omega), if_pos h, retryOrEscalate, if_pos hlt]
    exact ⟨g1.trans hum, g2, g3, g4⟩
  · obtain ⟨g1, g2, g3⟩ := groupOff_shows (s := u) c
    rw [faultResponse, if_neg (by omega), if_neg (by omega), if_pos h]
    exact ⟨g1.trans hum, g2, g3⟩
  · obtain ⟨g1, g2, g3⟩ := brakeRail_shows (s := u) c hum
    have hcrit : fon u F.SEQ_CHn_CFG_CRIT c.val = fon s F.SEQ_CHn_CFG_CRIT c.val := by
      rw [fon, fon, hcalm.fget (calmKey_of_chan c.val)]
    rw [faultResponse, if_neg (by omega), if_neg (by omega), if_neg (by omega)]
    exact ⟨g1, by rw [g2, hcrit], g3⟩
  · rw [hs.fget (shownKey_of_chan c.isLt), hcalm.fget (calmKey_of_chan c.val)]
  · rw [hs.fget (shownKey_of_chan c.isLt), hcalm.fget (calmKey_of_chan c.val)]

/-- A trigger of the converters writes nothing of the sequencer's registers. -/
theorem keptBelow_hwTrigger (src chan : Nat) (rising : Bool) : keptBelow 0xC4000 s (hwTrigger src chan rising s) := by
  have ht : ∀ (n : Nat) (u : State), keptBelow 0xC4000 u (trigger n u) := fun n u => by
    have hc : ∀ (f : ConvSt → ConvSt) (v : State), (onConv n f v).regs = v.regs := fun _ _ => rfl
    unfold trigger
    simp (disch := decide) [keptBelow_iff_of_regs (hc _ _)]
  have hstep : ∀ (p : Prop) [Decidable p] (n : Nat) (u : State), keptBelow 0xC4000 u (if p then trigger n u else u) := fun p _ n u => by
    split_ifs
    · exact ht n u
    · exact keptBelow_self.2 trivial
  exact keptBelow_forEach (fun n u => hstep _ n u) _

end

end Sys2Proof.Machine
end

section
/-! PROOF. Comparators, power-good edges and the responses to rail faults (R212, R213, R226 to R229). -/
namespace Sys2Proof.Machine

set_option Elab.async false

section
variable {s u v t : State} {c : Chan} {x k : Nat}

/-- The registers up to the sequencer's read as before, but for the field at `k`. -/
def regsAlike (k : Nat) (s v : State) : Prop := ∀ (g : Fld) (i : Nat), g.key i < 0xC4000 * 8 → g.key i ≠ k → fget v g i = fget s g i

/-- The key of a comparator's trip, or no field's. -/
abbrev tripKey (k : Nat) : Prop := k % 256 = 0xC2 ∨ k % 256 = 0xC3 ∨ k = 0

theorem regsAlike.chan (h : regsAlike k s v) (hk : tripKey k) (c : Chan) {f : Fld} (hs : f.stride = 0x20 := by rfl)
    (hb : 0xC0200 ≤ f.base ∧ f.base < 0xC0220 := by decide) (hl : f.lo < 32 := by decide)
    (h2 : (f.base * 8 + f.lo) % 256 ≠ 0xC2 ∧ (f.base * 8 + f.lo) % 256 ≠ 0xC3 := by decide) : fget v f c.val = fget s f c.val := by
  have hkey : f.key c.val = (f.base + 0x20 * c.val) * 8 + f.lo := by rw [Fld.key, hs]
  have := c.isLt
  exact h f c.val (by omega) (by unfold tripKey at hk; omega)

theorem regsAlike.chanOn (h : regsAlike k s v) (hk : tripKey k) (c : Chan) {f : Fld} (hs : f.stride = 0x20 := by rfl)
    (hb : 0xC0200 ≤ f.base ∧ f.base < 0xC0220 := by decide) (hl : f.lo < 32 := by decide)
    (h2 : (f.base * 8 + f.lo) % 256 ≠ 0xC2 ∧ (f.base * 8 + f.lo) % 256 ≠ 0xC3 := by decide) : fon v f c.val = fon s f c.val := by
  rw [fon, fon, h.chan hk c hs hb hl h2]

theorem regsAlike.gangs (h : regsAlike k s v) (hk : tripKey k) : ∀ g < 8, fget v F.SEQ_GANGg_MEMBERS g = fget s F.SEQ_GANGg_MEMBERS g :=
  fun g hg => by
    have hkey : F.SEQ_GANGg_MEMBERS.key g = (0xC0020 + 0x4 * g) * 8 := rfl
    exact h _ _ (by omega) (by unfold tripKey at hk; omega)

theorem regsAlike.gangOf (h : regsAlike k s v) (hk : tripKey k) (n : Nat) : gangOf v n = gangOf s n := gangOf_of_gangs (h.gangs hk) n

theorem regsAlike.responded (h : regsAlike k s v) (hk : tripKey k) (hr : v.seq = s.seq) {kind r : Nat} :
    responded v t c kind r ↔ responded s t c kind r := by
  have hmax : retryMax v (.chan c) = retryMax s (.chan c) := by
    simp only [retryMax, tgtChans, List.foldl_cons, List.foldl_nil, h.chan hk c (f := F.SEQ_CHn_CFG_RETRY_MAX)]
  rw [Machine.responded, Machine.responded, hmax, retryOf, retryOf, hr, h.chan hk c, h.chanOn hk c]

theorem tgtOf_of_none {n : Nat} (h : gangOf s n = none) (hn : n = c.val) : tgtOf s (Fin.ofNat 32 n) = .chan c := by
  subst hn
  have hc : Fin.ofNat 32 c.val = c := Fin.ext (Nat.mod_eq_of_lt c.isLt)
  rw [hc, tgtOf, h]

/-- A comparator of a channel trips. -/
def tripState (f : Fld) (c : Chan) (x : Nat) (s : State) : State := s |> advanceTo x |> fset f c.val |> hwTrigger 5 c.val true

/-- A PG pin changes. -/
def edgeState (c : Chan) (up : Bool) (x : Nat) (s : State) : State :=
  s |> advanceTo x
    |> onPins (fun p => { p with pg := if up then p.pg ||| BitVec.ofNat 32 (2 ^ c.val) else p.pg &&& ~~~(BitVec.ofNat 32 (2 ^ c.val)) })
    |> hwTrigger 2 c.val up

theorem uvTrip_of_on (h : aonOn s = true) : uvTrip c x s
    = if fon (tripState F.SEQ_CHn_STATUS_UV_TRIP c x s) F.SEQ_CHn_WIN_UV_EN c && fon (tripState F.SEQ_CHn_STATUS_UV_TRIP c x s) F.SEQ_CHn_STATUS_UV_ARMED c
      then railFault (tgtOf (tripState F.SEQ_CHn_STATUS_UV_TRIP c x s) c) c 1 (tripState F.SEQ_CHn_STATUS_UV_TRIP c x s)
      else tripState F.SEQ_CHn_STATUS_UV_TRIP c x s := by
  rw [uvTrip, h, if_neg (by decide)]
  rfl

theorem ovTrip_of_on (h : aonOn s = true) (hm : tabGet 0 s.seq.ovMask c.val ≤ tickOf s) : ovTrip c x s
    = if fon (tripState F.SEQ_CHn_STATUS_OV_TRIP c x s) F.SEQ_CHn_WIN_OV_EN c
      then railFault (tgtOf (tripState F.SEQ_CHn_STATUS_OV_TRIP c x s) c) c 2 (tripState F.SEQ_CHn_STATUS_OV_TRIP c x s)
      else tripState F.SEQ_CHn_STATUS_OV_TRIP c x s := by
  rw [ovTrip, h, decide_eq_false (Nat.not_lt.2 hm), if_neg (by decide)]
  rfl

theorem pgEdge_of_on (h : aonOn s = true) (up : Bool) : pgEdge c up x s
    = if fon (edgeState c up x s) F.SEQ_CHn_CFG_PG_EN c then
        pgEdges (onSeq (fun q => { q with pgDue := q.pgDue ++ [(c.val, up != fon (edgeState c up x s) F.SEQ_CHn_CFG_PG_POL c, x / 250)] })
          (edgeState c up x s))
      else edgeState c up x s := by
  rw [pgEdge, h, if_neg (by decide)]
  rfl

/-- An edge whose tick has passed is processed at once. -/
theorem pgEdges_of_past {k y : Nat} {b : Bool} (h : s.seq.pgDue = []) (hy : y < tickOf s) :
    pgEdges (onSeq (fun q => { q with pgDue := q.pgDue ++ [(k, b, y)] }) s) = pgDone k b s := by
  have ht : tickOf (onSeq (fun q => { q with pgDue := q.pgDue ++ [(k, b, y)] }) s) = tickOf s := rfl
  have hq : { s.seq with pgDue := [] } = s.seq := by rw [← h]
  have hs : onSeq (fun q => { q with pgDue := q.pgDue.filter (fun e => !decide (e.2.2 < tickOf s)) })
      (onSeq (fun q => { q with pgDue := q.pgDue ++ [(k, b, y)] }) s) = s := by
    simp [onSeq, h, hy, hq]
  have he : ∀ u : State, forEach [(k, b, y)] (fun e => pgDone e.1 e.2.1) u = pgDone k b u := fun _ => rfl
  rw [pgEdges, ht, hs]
  simp only [onSeq_seq, h, List.nil_append, List.filter_cons, hy, decide_true, if_true, List.filter_nil, he]

/-- An edge that lands in its own tick waits. -/
theorem pgEdges_of_due {k y : Nat} {b : Bool} (h : s.seq.pgDue = []) (hy : ¬ y < tickOf s) :
    pgEdges (onSeq (fun q => { q with pgDue := q.pgDue ++ [(k, b, y)] }) s) = onSeq (fun q => { q with pgDue := [(k, b, y)] }) s := by
  have ht : tickOf (onSeq (fun q => { q with pgDue := q.pgDue ++ [(k, b, y)] }) s) = tickOf s := rfl
  rw [pgEdges, ht]
  simp [onSeq, h, hy, forEach]

/-- What power good ends leaves the pins, the mode and the comparators. -/
theorem goodEnds_keeps (n : Nat) : (goodEnds n s).pins = s.pins ∧ (goodEnds n s).mode = s.mode
    ∧ fget (goodEnds n s) F.SEQ_CHn_STATUS_UV_ARMED n = fget s F.SEQ_CHn_STATUS_UV_ARMED n := by
  have hk : keptBut s (goodEnds n s) [.regs, .life, .seq, .mbx, .outbox] := by simp
  have ha : F.SEQ_CHn_STATUS_UV_ARMED.key n = (0xC0218 + 0x20 * n) * 8 + 4 := rfl
  have hstate : F.SEQ_CTRL_STATE.key 0 = 0xC0000 * 8 := rfl
  have hstep : F.SEQ_CTRL_STEP.key 0 = 0xC0000 * 8 + 3 := rfl
  have hr : ∀ x u, fget (endRetry x u) F.SEQ_CHn_STATUS_UV_ARMED n = fget u F.SEQ_CHn_STATUS_UV_ARMED n := fun x u => by
    have hres : ∀ v, fget (resumeSeq v) F.SEQ_CHn_STATUS_UV_ARMED n = fget v F.SEQ_CHn_STATUS_UV_ARMED n := fun v => by
      unfold resumeSeq
      split
      · rw [fget_onSeq, fget_fput_other _ _ _ _ _ _ (by omega)]
      · rfl
    rw [endRetry, hres]
    refine fget_forEach (fun k w => ?_) _
    have h1 : F.SEQ_CHn_STATUS_RETRYING.key k = (0xC0218 + 0x20 * k) * 8 + 6 := rfl
    exact fget_fclr_other _ _ _ _ _ (by omega)
  have hn : ∀ u, fget (nextStep u) F.SEQ_CHn_STATUS_UV_ARMED n = fget u F.SEQ_CHn_STATUS_UV_ARMED n := fun u => by
    unfold nextStep gotoStep
    split
    · rw [fget_onSeq, fget_fput_other _ _ _ _ _ _ (by omega)]
    · rw [endSequence, fget_onLife, fget_onSeq, fget_fput_other _ _ _ _ _ _ (by omega)]
  have hc : ∀ u, fget (completeWait u) F.SEQ_CHn_STATUS_UV_ARMED n = fget u F.SEQ_CHn_STATUS_UV_ARMED n := fun u => by
    unfold completeWait
    dsimp only
    split_ifs
    · exact hn u
    · exact hn u
    · rfl
    · rfl
  have hg : ∀ u, fget (railGood u) F.SEQ_CHn_STATUS_UV_ARMED n = fget u F.SEQ_CHn_STATUS_UV_ARMED n := fun u =>
    fget_of_kept (ps := [.seq, .mbx, .outbox]) (by simp) _ _
  refine ⟨agree_of_kept hk .pins, agree_of_kept hk .mode, ?_⟩
  have hw : ∀ (b : Bool) (x : Target) (u : State), fget (when b (endRetry x) u) F.SEQ_CHn_STATUS_UV_ARMED n = fget u F.SEQ_CHn_STATUS_UV_ARMED n :=
    fun b x u => by
      cases b
      · rfl
      · exact hr x u
  unfold goodEnds
  rw [hc, hg]
  exact hw _ _ _

/-- What a comparator's trip leaves before it is a fault. -/
def tripped (s v : State) (x : Nat) (f : Fld) (n : Nat) : Prop :=
  fget v f n = 1 ∧ regsAlike (f.key n) s v
    ∧ v.gtc = max s.gtc (x % 2 ^ 64) ∧ v.gtc % 2 ^ 64 = v.gtc ∧ v.seq = s.seq ∧ v.mode = s.mode ∧ keptBut s v [.gtc, .stamp, .regs, .mcv]

theorem tripped_of_trip (hg : gtcOk s) (hm : s.mode ≠ .off) (x : Nat) (f : Fld) (hf : f.width ≠ 0) (hb : f.key c.val < 0xC4000 * 8) :
    tripped s (tripState f c x (stampNow s)) x f c.val := by
  obtain ⟨hv, hv', hk⟩ := advanced_spec hg hm x
  unfold tripState
  generalize advanceTo x (stampNow s) = v at *
  have hh : ∀ u : State, keptBut u (hwTrigger 5 c.val true u) [.regs, .mcv] := fun u => by simp
  have hgtc : (v |> fset f c.val |> hwTrigger 5 c.val true).gtc = v.gtc := agree_of_kept (hh _) .gtc
  refine ⟨?_, fun g i hgi hne => ?_, hgtc.trans hv, by rw [hgtc, hv', hv], (agree_of_kept (hh _) .seq).trans (agree_of_kept hk .seq),
    (agree_of_kept (hh _) .mode).trans (agree_of_kept hk .mode), keptBut_trans (keptBut_mono hk (by simp)) (by simp)⟩
  · rw [(keptBelow_hwTrigger _ _ _).fget hb, fget_fset_same _ _ _ hf]
  · rw [(keptBelow_hwTrigger _ _ _).fget hgi, fget_fset_other _ _ _ _ _ hne, fget_of_kept hk]

/-- What a PG edge leaves before it is processed. -/
def edged (s v : State) (c : Chan) (up : Bool) (x : Nat) : Prop :=
  regsAlike 0 s v ∧ v.pins.pg.getLsbD c.val = up ∧ v.gtc = max s.gtc (x % 2 ^ 64) ∧ v.gtc % 2 ^ 64 = v.gtc ∧ v.seq = s.seq ∧ v.mode = s.mode
    ∧ keptBut s v [.gtc, .stamp, .pins, .regs, .mcv]

theorem pgBit (w : BitVec 32) (up : Bool) : (if up then w ||| BitVec.ofNat 32 (2 ^ c.val) else w &&& ~~~(BitVec.ofNat 32 (2 ^ c.val))).getLsbD c.val = up := by
  have h := c.isLt
  have hbit : (BitVec.ofNat 32 (2 ^ c.val)).getLsbD c.val = true := by
    rw [BitVec.getLsbD_ofNat]
    simp [h]
  cases up
  · simp only [Bool.false_eq_true, if_false, BitVec.getLsbD_and, BitVec.getLsbD_not, hbit]
    simp
  · simp only [if_true, BitVec.getLsbD_or, hbit, Bool.or_true]

theorem edged_of_edge (hg : gtcOk s) (hm : s.mode ≠ .off) (x : Nat) (up : Bool) :
    edged s (edgeState c up x (stampNow s)) c up x := by
  obtain ⟨hv, hv', hk⟩ := advanced_spec hg hm x
  unfold edgeState
  generalize advanceTo x (stampNow s) = v at *
  have hh : ∀ u : State, keptBut u (hwTrigger 2 c.val up u) [.regs, .mcv] := fun u => by simp
  generalize hw : onPins (fun p => { p with pg := if up then p.pg ||| BitVec.ofNat 32 (2 ^ c.val) else p.pg &&& ~~~(BitVec.ofNat 32 (2 ^ c.val)) }) v = w
  have hwk : keptBut v w [.pins] := by rw [← hw]; simp
  have hwg : w.gtc = v.gtc := agree_of_kept hwk .gtc
  have hgtc : (hwTrigger 2 c.val up w).gtc = v.gtc := (agree_of_kept (hh w) .gtc).trans hwg
  refine ⟨fun g i hgi _ => ?_, ?_, hgtc.trans hv, by rw [hgtc, hv', hv], ?_, ?_, ?_⟩
  · rw [(keptBelow_hwTrigger _ _ _).fget hgi, fget_of_kept hwk, fget_of_kept hk]
  · rw [agree_of_kept (hh w) .pins, ← hw]
    exact pgBit _ up
  · exact (agree_of_kept (hh w) .seq).trans ((agree_of_kept hwk .seq).trans (agree_of_kept hk .seq))
  · exact (agree_of_kept (hh w) .mode).trans ((agree_of_kept hwk .mode).trans (agree_of_kept hk .mode))
  · exact keptBut_trans (keptBut_mono hk (by simp)) (keptBut_trans (keptBut_mono hwk (by simp)) (keptBut_mono (hh w) (by simp)))

end

/-- Settles O37: each trip is a fault where its comparator is in use, and `railFault_responds` answers it. -/
theorem railFaultsTakeTheirResponse : Obligations.RailFaultsTakeTheirResponse := by
  unfold Obligations.RailFaultsTakeTheirResponse
  intro s c x hg hmode hgang hstate n responds
  have hm : s.mode ≠ .off := by rw [hmode]; decide
  have hon : aonOn (stampNow s) = true := by simp [aonOn, hmode]
  have hc := c.isLt
  have huv : F.SEQ_CHn_STATUS_UV_TRIP.key n = (0xC0218 + 0x20 * c.val) * 8 + 2 := rfl
  have hov : F.SEQ_CHn_STATUS_OV_TRIP.key n = (0xC0218 + 0x20 * c.val) * 8 + 3 := rfl
  have hfault : ∀ (f : State → State) (v : State) (k kind r : Nat), tripKey k → regsAlike k s v → v.seq = s.seq → v.mode = s.mode
      → v.gtc = max s.gtc (x % 2 ^ 64) → v.gtc % 2 ^ 64 = v.gtc → kind < 7
      → r = (if kind = 2 then fget s F.SEQ_CHn_CFG_RESP_OV n else fget s F.SEQ_CHn_CFG_RESP_UV n)
      → f (stampNow s) = railFault (.chan c) n kind v
      → ∃ t, run f s = .next t ∧ responds t kind r ∧ t.pins.pg = v.pins.pg ∧ fget t F.SEQ_CHn_STATUS_UV_TRIP n = fget v F.SEQ_CHn_STATUS_UV_TRIP n
        ∧ fget t F.SEQ_CHn_STATUS_OV_TRIP n = fget v F.SEQ_CHn_STATUS_OV_TRIP n := fun f v k kind r hk hv hseq hvm hvg hvg' hkind hr he => by
    obtain ⟨h1, h2, h3, h4, h5⟩ := railFault_responds c (hvm.trans hmode) hkind
    rw [hv.responded hk hseq, hv.chan hk c, hv.chan hk c] at h1
    obtain ⟨g1, g2, g3, g4, g5, g6, g7⟩ := h1
    subst hr
    refine ⟨_, run_of_effect he, ⟨?_, g1, g2, g3, g4, g5, g6, g7⟩, h3, h4, h5⟩
    rw [settle_gtc, h2, hvg', hvg]
  have huvKey : tripKey (F.SEQ_CHn_STATUS_UV_TRIP.key n) := by unfold tripKey; omega
  have hovKey : tripKey (F.SEQ_CHn_STATUS_OV_TRIP.key n) := by unfold tripKey; omega
  have htgt : ∀ {v : State} {k : Nat}, tripKey k → regsAlike k s v → tgtOf v c = .chan c := fun hk hv => by
    rw [tgtOf, (hv.gangOf hk c.val).trans hgang]
  have hnone : tripKey 0 := .inr (.inr rfl)
  refine ⟨fun hen harm => ?uvFault, fun hen => ?uvIgnored, fun hmask hen => ?ovFault, fun hpg ov => ?release,
    fun hpg hpol hdue hx => ⟨fun htick up => ?lands, fun htick hco => ⟨fun harm => ?fall, fun harm hen htrip hedges => ?rise⟩⟩⟩
  case uvFault =>
    obtain ⟨htr, hv, hvg, hvg', hseq, hvm, hvk⟩ := tripped_of_trip hg hm x F.SEQ_CHn_STATUS_UV_TRIP (by decide) (c := c)
      (lt_of_eq_of_lt huv (by omega))
    have he := uvTrip_of_on (c := c) (x := x) hon
    generalize tripState F.SEQ_CHn_STATUS_UV_TRIP c x (stampNow s) = v at *
    obtain ⟨t, h1, h2, -, h4, -⟩ := hfault (uvTrip c x) _ _ 1 _ huvKey hv hseq hvm hvg hvg' (by decide) rfl (by
      rw [he, hv.chanOn huvKey c, hv.chanOn huvKey c, hen, harm, htgt huvKey hv]
      rfl)
    exact ⟨t, h1, h4.trans htr, h2⟩
  case uvIgnored =>
    obtain ⟨htr, hv, hvg, hvg', hseq, hvm, hvk⟩ := tripped_of_trip hg hm x F.SEQ_CHn_STATUS_UV_TRIP (by decide) (c := c)
      (lt_of_eq_of_lt huv (by omega))
    have he := uvTrip_of_on (c := c) (x := x) hon
    generalize tripState F.SEQ_CHn_STATUS_UV_TRIP c x (stampNow s) = v at *
    refine ⟨_, run_of_effect (t := v) ?_, htr, hv.chan huvKey c, keptBut_settle_gtc (keptBut_mono hvk (by simp))⟩
    rw [he, hv.chanOn huvKey c, hen]
    rfl
  case ovFault =>
    obtain ⟨htr, hv, hvg, hvg', hseq, hvm, hvk⟩ := tripped_of_trip hg hm x F.SEQ_CHn_STATUS_OV_TRIP (by decide) (c := c)
      (lt_of_eq_of_lt hov (by omega))
    have he := ovTrip_of_on (c := c) (x := x) hon hmask
    generalize tripState F.SEQ_CHn_STATUS_OV_TRIP c x (stampNow s) = v at *
    obtain ⟨t, h1, h2, -, -, h5⟩ := hfault (ovTrip c x) _ _ 2 _ hovKey hv hseq hvm hvg hvg' (by decide) rfl (by
      rw [he, hv.chanOn hovKey c, hen, htgt hovKey hv]
      rfl)
    exact ⟨t, h1, h5.trans htr, h2⟩
  case release =>
    have he : comparatorRelease c ov (stampNow s) = fclr (if ov then F.SEQ_CHn_STATUS_OV_TRIP else F.SEQ_CHn_STATUS_UV_TRIP) n (stampNow s) := by
      have hk : F.SEQ_CHn_CFG_PG_EN.key n = (0xC0200 + 0x20 * c.val) * 8 + 3 := rfl
      have hpg' : fon (fclr (if ov then F.SEQ_CHn_STATUS_OV_TRIP else F.SEQ_CHn_STATUS_UV_TRIP) n (stampNow s)) F.SEQ_CHn_CFG_PG_EN n = true := by
        rw [fon, fget_fclr_other _ _ _ _ _ (by cases ov <;> dsimp <;> omega)]
        exact hpg
      rw [comparatorRelease, hon]
      dsimp only
      rw [hpg']
      rfl
    refine ⟨_, run_of_effect he, ?_, ?_, keptBut_of_effect hg (by simp)⟩
    · rw [fget_settle, fclr, fget_fput_same]
      exact Nat.zero_mod _
    · rw [regsKept_iff_of_regs (settle_regs ..)]
      simp
  case lands =>
    obtain ⟨hv, hpin, hvg, hvg', hseq, hvm, hvk⟩ := edged_of_edge hg hm (c := c) x up
    have he := pgEdge_of_on (c := c) (x := x) hon up
    generalize edgeState c up x (stampNow s) = v at *
    have hin : ¬ x / 250 < tickOf v := by
      rw [tickOf, hvg]
      unfold tickOf at htick
      omega
    rw [hv.chanOn hnone c, hv.chanOn hnone c, hpg, hpol, if_pos rfl, pgEdges_of_due (hseq ▸ hdue) hin] at he
    refine ⟨_, run_of_effect he, hpin, ?_, ?_, ?_, ?_⟩
    · rw [settle_gtc, onSeq_gtc, hvg', hvg, Nat.mod_eq_of_lt hx]
    · rw [settle_seq, onSeq_seq, hseq]
      cases up <;> rfl
    · exact hv.chan hnone c
    · exact keptBut_settle_gtc (by rw [kept_onSeq _ (by simp)]; exact keptBut_mono hvk (by simp))
  case fall =>
    obtain ⟨hv, hpin, hvg, hvg', hseq, hvm, hvk⟩ := edged_of_edge hg hm (c := c) x false
    have he := pgEdge_of_on (c := c) (x := x) hon false
    generalize edgeState c false x (stampNow s) = v at *
    have hin : x / 250 < tickOf v := by
      rw [tickOf, hvg]
      unfold tickOf at htick
      omega
    rw [hv.chanOn hnone c, hv.chanOn hnone c, hpg, hpol, if_pos rfl, pgEdges_of_past (hseq ▸ hdue) hin] at he
    obtain ⟨t, h1, h2, h3, -⟩ := hfault (pgEdge c false x) _ _ 4 _ hnone hv hseq hvm hvg hvg' (by decide) rfl (by
      have ht := tgtOf_of_none (c := c) (n := n) ((hv.gangOf hnone n).trans hgang) rfl
      have h1 : chanOn v n = true := (hv.chanOn hnone c).trans hco
      have h2 : fon v F.SEQ_CHn_STATUS_UV_ARMED n = true := (hv.chanOn hnone c).trans harm
      rw [he, pgDone, h1, h2, ht]
      rfl)
    exact ⟨t, h1, (congrArg (BitVec.getLsbD · n) h3).trans hpin, h2⟩
  case rise =>
    obtain ⟨hv, hpin, hvg, hvg', hseq, hvm, hvk⟩ := edged_of_edge hg hm (c := c) x true
    have he := pgEdge_of_on (c := c) (x := x) hon true
    generalize edgeState c true x (stampNow s) = v at *
    have hin : x / 250 < tickOf v := by
      rw [tickOf, hvg]
      unfold tickOf at htick
      omega
    rw [hv.chanOn hnone c, hv.chanOn hnone c, hpg, hpol, if_pos rfl, pgEdges_of_past (hseq ▸ hdue) hin] at he
    have h1 : chanOn v n = true := (hv.chanOn hnone c).trans hco
    have h2 : fon v F.SEQ_CHn_STATUS_UV_ARMED n = false := (hv.chanOn hnone c).trans harm
    have h3 : fon v F.SEQ_CHn_WIN_UV_EN n = true := (hv.chanOn hnone c).trans hen
    have h4 : fon v F.SEQ_CHn_STATUS_UV_TRIP n = false := by
      rw [fon, hv _ _ (by omega) (by omega)]
      exact htrip
    have h5 : (v.seq.edges.any fun e => !e.2 && (tgtChans v e.1).contains n) = false := by
      rw [hseq, List.any_eq_false]
      intro e hedge
      have hch : tgtChans v e.1 = tgtChans s e.1 := tgtChans_of_gangs (hv.gangs hnone) e.1
      have := hedges e hedge
      rw [hch]
      cases h : e.2 <;> simp_all
    have ha : armUv n v = fset F.SEQ_CHn_STATUS_UV_ARMED n v := by
      have h6 : fon (fset F.SEQ_CHn_STATUS_UV_ARMED n v) F.SEQ_CHn_STATUS_UV_TRIP n = false := by
        have hkey : F.SEQ_CHn_STATUS_UV_ARMED.key n = (0xC0218 + 0x20 * c.val) * 8 + 4 := rfl
        rw [fon, fget_fset_other _ _ _ _ _ (by omega)]
        exact h4
      rw [armUv, h1, h5]
      dsimp only
      rw [h6]
      rfl
    have he2 : pgEdge c true x (stampNow s) = goodEnds n (fset F.SEQ_CHn_STATUS_UV_ARMED n v) := by
      have h7 : fon (fset F.SEQ_CHn_STATUS_UV_ARMED n v) F.SEQ_CHn_STATUS_UV_ARMED n = true := by
        rw [fon, fget_fset_same _ _ _ (by decide)]
        rfl
      rw [he, pgDone, if_pos (by decide)]
      have hwhen : when (chanOn v c.val && fon v F.SEQ_CHn_WIN_UV_EN c.val && !fon v F.SEQ_CHn_STATUS_UV_ARMED c.val)
        (armUv c.val) v = armUv n v := by
        rw [show chanOn v c.val = true from h1, show fon v F.SEQ_CHn_WIN_UV_EN c.val = true from h3,
          show fon v F.SEQ_CHn_STATUS_UV_ARMED c.val = false from h2]
        rfl
      rw [hwhen]
      rw [ha, pgSeen, h7, Bool.not_true, Bool.and_false]
      rfl
    obtain ⟨g1, g2, g3⟩ := goodEnds_keeps (s := fset F.SEQ_CHn_STATUS_UV_ARMED n v) n
    exact ⟨_, run_of_effect he2, (congrArg (fun p => p.pg.getLsbD n) g1).trans hpin, g3.trans (fget_fset_same _ _ _ (by decide)),
      g2.trans (hvm.trans hmode)⟩

end Sys2Proof.Machine
end

section
/-! PROOF. The steps of RAMP (R187 to R190, R178, R179). -/
namespace Sys2Proof.Machine

set_option Elab.async false

section
variable {s t u : State}

theorem onWheel_of_ok {w : Wheel} (h : wheelOk s w = true) (k : State → State) : onWheel w k s = run k s := if_pos (of_decide_eq_true h)

theorem newerSlot_lt (s : State) : newerSlot s < 2 := by
  unfold newerSlot
  split <;> omega

/-! ### Training packets -/

theorem sendPacket_outbox (w d : Nat) (p : MmbPacket) (data : List Byte) : (sendPacket w d p data s).outbox
    = s.outbox ++ (.packet w d (sealPacket p) :: if data.isEmpty then [] else [.burst w d (scramble (sealPacket p) data)]) := by
  unfold sendPacket
  cases data.isEmpty
  · simp [when, emit]
  · simp [when, emit]

theorem sendPacket_lines (w d : Nat) (p : MmbPacket) (data : List Byte) : (sendPacket w d p data s).med.lines = s.med.lines := by
  unfold sendPacket
  cases data.isEmpty <;> rfl

/-- What one die gets when its channel's training begins. -/
def trainDie (w d : Nat) (s : State) : State :=
  s |> sendDie 13 w d 0 0 1 |> sendDie 13 w d 0 0 2
    |> sendPacket w d (patternPacket 3) (codeword ⟨Config.trainPattern, 0, 0, 0, 0, true⟩
      ++ leBytes 2 (crc16 (codeword ⟨Config.trainPattern, 0, 0, 0, 0, true⟩)))
    |> sendPacket w d (patternPacket 1) [] |> sendPacket w d (patternPacket 2) [] |> (fun s => sendReload w d (dieBand s w d) s)

/-- A packet or a burst of a die of the channel. -/
def toDieOf (w : Nat) (e : Emission) : Prop := (∃ d q, e = .packet w d q ∧ d < 8) ∨ ∃ d bs, e = .burst w d bs ∧ d < 8

theorem sendReload_outbox (w d band : Nat) : ∃ q bs, (sendReload w d band s).outbox = s.outbox ++ [.packet w d q, .burst w d bs] := by
  have hne : (reloadBytes s w d band).isEmpty = false := rfl
  have h := sendPacket_outbox (s := s) w d
    { op := 9, bank := 0, row := 0, line := 0, tag := 0, band := band, sl := false, id := dieId 9 0, arg := 0, crc := 0 } (reloadBytes s w d band)
  rw [hne] at h
  exact ⟨_, _, h⟩

theorem trainDie_outbox {w d : Nat} (hd : d < 8) : ∃ l, (trainDie w d s).outbox = s.outbox ++ l ∧ l.length = 8 ∧ ∀ e ∈ l, toDieOf w e := by
  have hpat : (codeword ⟨Config.trainPattern, 0, 0, 0, 0, true⟩
      ++ leBytes 2 (crc16 (codeword ⟨Config.trainPattern, 0, 0, 0, 0, true⟩))).isEmpty = false := by
    refine List.isEmpty_eq_false_iff.2 fun h => ?_
    exact absurd (List.append_eq_nil_iff.1 h).2 (List.cons_ne_nil _ _)
  have hnil : ([] : List Byte).isEmpty = true := rfl
  have hp : ∀ q, toDieOf w (.packet w d q) := fun q => .inl ⟨d, q, rfl, hd⟩
  have hb : ∀ bs, toDieOf w (.burst w d bs) := fun bs => .inr ⟨d, bs, rfl, hd⟩
  unfold trainDie
  generalize hu : (s |> sendDie 13 w d 0 0 1 |> sendDie 13 w d 0 0 2 |> sendPacket w d (patternPacket 3) _
    |> sendPacket w d (patternPacket 1) [] |> sendPacket w d (patternPacket 2) []) = u
  obtain ⟨q, bs, hr⟩ := sendReload_outbox (s := u) w d (dieBand u w d)
  have huo := congrArg State.outbox hu.symm
  rw [sendPacket_outbox, sendPacket_outbox, sendPacket_outbox, sendDie, sendPacket_outbox, sendDie, sendPacket_outbox, hpat, hnil] at huo
  simp only [if_true, Bool.false_eq_true, if_false, List.append_assoc, List.cons_append, List.nil_append] at huo
  rw [huo, List.append_assoc] at hr
  refine ⟨_, hr, rfl, fun e he => ?_⟩
  simp only [List.cons_append, List.nil_append, List.mem_cons, List.not_mem_nil, or_false] at he
  rcases he with rfl | rfl | rfl | rfl | rfl | rfl | rfl | rfl
  · exact hp _
  · exact hp _
  · exact hp _
  · exact hb _
  · exact hp _
  · exact hp _
  · exact hp _
  · exact hb _

theorem rstEnd_of_ramp (w : Nat) (hm : s.mode = .ramp) (hr : s.pins.mmbRst = true) :
    rstEnd w s = (s |> advanceTo (s.life.rstAt + 1000000) |> forEach (List.range 8) (trainDie w)) := by
  have hc : (s.mode != .ramp || !s.pins.mmbRst) = false := by simp [hm, hr]
  rw [rstEnd, hc]
  rfl

theorem trainDies_outbox {w : Nat} (ds : List Nat) (hd : ∀ d ∈ ds, d < 8) :
    ∃ l, (forEach ds (trainDie w) s).outbox = s.outbox ++ l ∧ l.length = 8 * ds.length ∧ ∀ e ∈ l, toDieOf w e := by
  induction ds generalizing s with
  | nil => exact ⟨[], by simp [forEach], rfl, by simp⟩
  | cons d ds ih =>
    obtain ⟨l1, h1, n1, e1⟩ := trainDie_outbox (s := s) (w := w) (hd d (List.mem_cons_self ..))
    obtain ⟨l2, h2, n2, e2⟩ := ih (s := trainDie w d s) (fun x hx => hd x (List.mem_cons_of_mem _ hx))
    refine ⟨l1 ++ l2, ?_, ?_, fun e he => (List.mem_append.1 he).elim (e1 e) (e2 e)⟩
    · rw [forEach_cons, h2, h1, List.append_assoc]
    · rw [List.length_append, n1, n2, List.length_cons]
      omega

theorem sendReload_lines (w d band : Nat) : (sendReload w d band s).med.lines = s.med.lines := by
  rw [sendReload, onMed_med, fput_med]
  exact sendPacket_lines ..

theorem trainDie_lines (w d : Nat) : (trainDie w d s).med.lines = s.med.lines := by
  rw [trainDie, sendReload_lines, sendPacket_lines, sendPacket_lines, sendPacket_lines, sendDie, sendPacket_lines, sendDie, sendPacket_lines]

/-- The ways that failed the cache test are out of use. -/
def failedOff (ws : List WayId) (s : State) : State :=
  s |> onLife (fun l => { l with cacheTesting := false })
    |> forEach ((ws.filter (fun x => decide (x.slice.val < Config.wheels s.config))).foldl
        (fun t x => nsAdd (wayLoc x.slice.val x.set.val x.way.val) t) ([] : NSet))
      (fun loc s => setWay loc { wayAt s loc with off := true, perm := true } s)

/-! ### A brake from RAMP -/

theorem latchBrake_undrained (hm : s.mode = .ramp) {cause source : Nat} (hc : cause < 256) (hs : source < 4096) (hd : causeDrains cause = false) :
    (latchBrake cause source s).mode = .brake ∧ fget (latchBrake cause source s) F.HUB_BRAKE_CAUSE 0 = cause
      ∧ fget (latchBrake cause source s) F.HUB_BRAKE_SOURCE 0 = source ∧ fget (latchBrake cause source s) F.HUB_BRAKE_DRAIN 0 = 0
      ∧ (latchBrake cause source s).pins.fault = true := by
  obtain ⟨h1, h2, h3, h4, -, h6, -⟩ := latchBrake_latched (s := s) cause source hc hs (by rw [hm]; rfl)
  exact ⟨h1, h2, h3, by rw [h4, brakeDrains, hd]; rfl, h6⟩

end

/-- Settles O30: each step by the branch of its command; the failures by the entry to BRAKE. -/
theorem rampStepsComplete : Obligations.RampStepsComplete := by
  unfold Obligations.RampStepsComplete
  intro s hg hmode braked
  have hm : s.mode ≠ .off := by rw [hmode]; decide
  have hboot : s.pins.coreDet = true → s.life.hubUp = false
      → ((stampNow s).mode != .ramp || !(stampNow s).pins.coreDet || (stampNow s).life.hubUp) = false :=
    fun h1 h2 => by simp [hmode, h1, h2]
  have htrain : s.pins.mmbRst = true → ((stampNow s).mode != .ramp || !(stampNow s).pins.mmbRst) = false := fun h => by simp [hmode, h]
  have htest : s.life.cacheTesting = true → ((stampNow s).mode != .ramp || !(stampNow s).life.cacheTesting) = false := fun h => by simp [hmode, h]
  refine ⟨fun hcd => ?core, ?mmb, fun hsd => ?sram, fun hcd hup => ⟨fun other => ?newer, ?older, ?neither⟩, fun hup hu v => ?ucode,
    fun hrst w hw => ⟨?reset, ?all, fun b d hb hlow => ?failed⟩, fun ht => ⟨?tested, fun ws => ?testFails⟩⟩
  case core =>
    refine run_of_effect_eq hg ?_
    have hc : (decide ((stampNow s).mode = .ramp) && !(stampNow s).pins.coreDet) = true := by simp [hmode, hcd]
    rw [coreRail, hc, if_pos rfl]
    cases h : s.pins.perst <;> simp [when, h, emit, onPins, stampNow]
  case mmb =>
    refine run_of_effect_eq hg ?_
    rw [mmbRail]
    exact if_pos hmode
  case sram =>
    refine run_of_effect_eq hg ?_
    have hc : (decide ((stampNow s).mode = .ramp) && !(stampNow s).pins.sramDet) = true := by simp [hmode, hsd]
    rw [sramRail, hc, if_pos rfl]
    rfl
  case newer =>
    have he : firmwareChecked true other (stampNow s) = (stampNow s |> onLife (fun l => { l with hubUp := true, fwRunning := newerSlot s })
        |> onHost (fun h => { h with mbxReady := true }) |> fput F.HUB_RESTART_FW_SLOT 0 (newerSlot s)
        |> fbit F.HUB_RESTART_FW_OTHER_BAD 0 false) := by
      rw [firmwareChecked, hboot hcd hup]
      rfl
    refine ⟨_, run_of_effect he, rfl, ?_, ?_, rfl, ?_, keptBut_of_effect hg (by simp)⟩
    · rw [fget_settle, fbit, fget_fput_other _ _ _ _ _ _ (by decide), fget_fput_same]
      exact Nat.mod_eq_of_lt (newerSlot_lt s)
    · rw [fget_settle, fbit, fget_fput_same]
      rfl
    · rw [regsKept_iff_of_regs (settle_regs ..)]
      simp
  case older =>
    have he : firmwareChecked false true (stampNow s) = (stampNow s |> onLife (fun l => { l with hubUp := true, fwRunning := 1 - newerSlot s })
        |> onHost (fun h => { h with mbxReady := true }) |> fput F.HUB_RESTART_FW_SLOT 0 (1 - newerSlot s)
        |> fbit F.HUB_RESTART_FW_OTHER_BAD 0 true) := by
      rw [firmwareChecked, hboot hcd hup]
      rfl
    refine ⟨_, run_of_effect he, rfl, ?_, ?_⟩
    · rw [fget_settle, fbit, fget_fput_other _ _ _ _ _ _ (by decide), fget_fput_same]
      exact Nat.mod_eq_of_lt (by show 1 - newerSlot s < 2; omega)
    · rw [fget_settle, fbit, fget_fput_same]
      rfl
  case neither =>
    have he : firmwareChecked false false (stampNow s) = latchBrake 8 srcHub (stampNow s) := by
      rw [firmwareChecked, hboot hcd hup]
      rfl
    exact ⟨_, run_of_effect he, latchBrake_undrained (s := stampNow s) hmode (by decide) (by decide) rfl⟩
  case ucode =>
    have he : microcode v.toNat (stampNow s) = (stampNow s
        |> forEach (List.range (16 * Config.wheels s.config)) (fun g s => fput F.SPKg_UCODE_VERSION g v.toNat s)
        |> onLife (fun l => { l with ucodeDone := true })) := by
      have hc : ((decide ((stampNow s).mode = .ramp) && (stampNow s).life.hubUp && !(stampNow s).life.ucodeDone)
          || (decide ((stampNow s).mode = .maintenance) && (stampNow s).life.activating)) = true := by simp [hmode, hup, hu]
      rw [microcode, hc]
      rfl
    refine ⟨_, run_of_effect he, ?_, fun g hgl => ?_, keptBut_of_effect hg (by simp)⟩
    · have hl : (forEach (List.range (16 * Config.wheels s.config)) (fun g s => fput F.SPKg_UCODE_VERSION g v.toNat s) (stampNow s)).life = s.life :=
        agree_of_kept (s := stampNow s) (ps := [.regs]) (by simp) .life
      rw [settle_life, onLife_life, hl]
    · rw [fget_settle, fget_onLife]
      refine fget_forEach_sets (fun u => ?_) (fun m u hne => fget_fput_other _ _ _ _ _ _ ?_) (.inl (List.mem_range.2 hgl))
      · rw [fget_fput_same]
        exact Nat.mod_eq_of_lt v.isLt
      · have hk : ∀ i, F.SPKg_UCODE_VERSION.key i = (0x40018 + 0x40 * i) * 8 := fun _ => rfl
        rw [hk, hk]
        omega
  case reset =>
    obtain ⟨hv, hv', hkv⟩ := advanced_spec hg hm (s.life.rstAt + 1000000)
    have he := rstEnd_of_ramp (s := stampNow s) w.val hmode hrst
    rw [show (stampNow s).life.rstAt = s.life.rstAt from rfl] at he
    generalize advanceTo (s.life.rstAt + 1000000) (stampNow s) = v at *
    obtain ⟨l, h1, h2, h3⟩ := trainDies_outbox (s := v) (w := w.val) (List.range 8) (fun d hd => List.mem_range.1 hd)
    have hk : keptBut v (forEach (List.range 8) (trainDie w.val) v) [.regs, .med, .outbox] :=
      (kept_forEach (fun d u => by simp [trainDie]) _).2 (keptBut_refl _ _)
    have hlines : (forEach (List.range 8) (trainDie w.val) v).med.lines = v.med.lines :=
      forEach_induct (P := fun u => u.med.lines = v.med.lines) (fun d u h => (trainDie_lines w.val d).trans h) _ rfl
    refine ⟨_, l, (onWheel_of_ok hw _).trans (run_of_effect he), ?_, ?_, h2, h3, ?_, ?_⟩
    · rw [settle_gtc, agree_of_kept hk .gtc, hv']
    · rw [settle_outbox, h1, agree_of_kept hkv .outbox]
    · rw [settle_med, hlines, agree_of_kept hkv .med]
    · exact keptBut_settle_gtc (keptBut_trans (keptBut_mono hkv (by simp)) (keptBut_mono hk (by simp)))
  case all =>
    have he : trained w.val 255 (stampNow s) = fput F.MMBn_STATUS_TRAINED w.val 255 (stampNow s) := by
      rw [trained, htrain hrst]
      rfl
    refine ⟨_, (onWheel_of_ok hw _).trans (run_of_effect he), ?_, ?_, keptBut_of_effect hg (by simp)⟩
    · rw [fget_settle, fget_fput_same]
      rfl
    · rw [regsKept_iff_of_regs (settle_regs ..)]
      simp
  case failed =>
    have hfind : (List.range 8).find? (fun d => !b.getLsbD d) = some d.val := by
      rw [List.find?_range_eq_some]
      exact ⟨by rw [hb]; rfl, List.mem_range.2 d.isLt, fun j hj => by simpa using hlow ⟨j, by omega⟩ hj⟩
    have he : trained w.val b (stampNow s) = (stampNow s |> fput F.MMBn_STATUS_TRAINED w.val b.toNat |> fset F.MMBn_ERR_TRAIN_FAIL w.val
        |> land 0x09 4 (srcWheel w.val) 0 none |> latchBrake 7 (srcDie w.val d.val)) := by
      rw [trained, htrain hrst, if_neg Bool.false_ne_true]
      dsimp only
      rw [hfind]
    have ht : F.MMBn_STATUS_TRAINED.key w.val = (0xA1000 + 0x100 * w.val) * 8 := rfl
    have hf : F.MMBn_ERR_TRAIN_FAIL.key w.val = (0xA1010 + 0x100 * w.val) * 8 + 1 := rfl
    have hkeys : ∀ f : Fld, f.stride = 0x100 → 0xA1000 ≤ f.base → f.base < 0xA1080 → f.lo < 32 → quietKey (f.key w.val) :=
        fun f h1 h2 h3 h4 => by
      have hk : f.key w.val = (f.base + 0x100 * w.val) * 8 + f.lo := by rw [Fld.key, h1]
      have := w.isLt
      exact .inr ⟨by omega, by omega⟩
    generalize hu : (stampNow s |> fput F.MMBn_STATUS_TRAINED w.val b.toNat |> fset F.MMBn_ERR_TRAIN_FAIL w.val
      |> land 0x09 4 (srcWheel w.val) 0 none) = u at he
    have hum : u.mode = .ramp := by rw [← hu]; exact (agree_of_kept (s := stampNow s) (ps := [.regs, .rcd]) (by simp) .mode).trans hmode
    have hq := quiet_latchBrake (s := u) 7 (srcDie w.val d.val) (by rw [hum]; rfl)
    refine ⟨_, (onWheel_of_ok hw _).trans (run_of_effect he), latchBrake_undrained hum (by decide) ?_ rfl, ?_, ?_⟩
    · have := w.isLt
      have := d.isLt
      unfold srcDie srcSpoke
      omega
    · rw [fget_settle, hq.fget (hkeys _ rfl (by decide) (by decide) (by decide)), ← hu, fget_land,
        fget_fset_other _ _ _ _ _ (by rw [ht, hf]; omega), fget_fput_same]
      exact Nat.mod_eq_of_lt b.isLt
    · rw [fget_settle, hq.fget (hkeys _ rfl (by decide) (by decide) (by decide)), ← hu, fget_land, fget_fset_same _ _ _ (by decide)]
  case tested =>
    refine run_of_effect_eq hg ?_
    have hfails : cacheFails (stampNow s) [] false = false := by simp [cacheFails]
    rw [cacheTested, htest ht, if_neg Bool.false_ne_true]
    dsimp only [List.filter_nil, List.foldl_nil]
    rw [hfails]
    rfl
  case testFails =>
    have he : cacheTested ws true (stampNow s) = latchBrake 9 srcHub (failedOff ws (stampNow s)) := by
      rw [cacheTested, htest ht, if_neg Bool.false_ne_true]
      exact if_pos rfl
    generalize hu : failedOff ws (stampNow s) = u at he
    have hum : u.mode = .ramp := by
      rw [← hu]
      exact (agree_of_kept (s := stampNow s) (ps := [.life, .cache]) (by simp [failedOff]) .mode).trans hmode
    exact ⟨_, run_of_effect he, latchBrake_undrained hum (by decide) (by decide) rfl⟩

end Sys2Proof.Machine
end

section
/-! SUPPORT. What RECOVER has read before it decides (R193, R305 to R307): the counters, the tables and the pointers. -/
namespace Sys2Proof.Machine

set_option Elab.async false

section
variable {s t u : State} {r : RecoverReads} {us : List Ckpt}

/-! ### Counters -/

theorem pickSlot_le (a b : Nat) : (pickSlot a b).1 ≤ 1 := by
  have ht := Bool.toNat_le (Config.seqTie a b)
  unfold pickSlot
  dsimp only
  split_ifs <;> simp_all

theorem ctrRead_slot_le {addr k bits : Nat} {odd : Bool} (h : ctrRead s addr = some (k, bits, odd)) : k ≤ 1 := by
  have hp := pickSlot_le
  unfold ctrRead at h
  cases h1 : ctrSlot s addr 0 with
  | none =>
    cases h2 : ctrSlot s addr 1 with
    | none => simp [h1, h2] at h
    | some b =>
      simp only [h1, h2, Option.some.injEq, Prod.mk.injEq] at h
      omega
  | some a =>
    cases h2 : ctrSlot s addr 1 with
    | none =>
      simp only [h1, h2, Option.some.injEq, Prod.mk.injEq] at h
      omega
    | some b =>
      have hk := hp (ctrSeq addr a) (ctrSeq addr b)
      simp only [h1, h2, Option.some.injEq, Prod.mk.injEq] at h
      omega

/-- A counter's update writes within its two slots. -/
theorem sbByte_ctrUpdate {addr body k : Nat} (h : k < addr ∨ addr + 32 ≤ k) : sbByte (ctrUpdate addr body s) k = sbByte s k := by
  unfold ctrUpdate
  split
  · rfl
  · have hlen : ∀ x y, (ctrBytes addr x y).length = 16 := fun x y => by simp [ctrBytes]
    unfold ctrWrite
    split
    next j bits odd hj =>
      have := ctrRead_slot_le hj
      exact sbByte_sbStore_outside (by rw [hlen]; omega) s
    next => exact sbByte_sbStore_outside (by rw [hlen]; omega) s

theorem ctrRead_of_bytes {addr : Nat} (h : ∀ k, addr ≤ k → k < addr + 32 → sbByte t k = sbByte s k) : ctrRead t addr = ctrRead s addr := by
  have hs : ∀ j, j ≤ 1 → ctrSlot t addr j = ctrSlot s addr j := fun j hj => by
    have hb : sbBytes t (addr + 16 * j) 16 = sbBytes s (addr + 16 * j) 16 := by
      refine List.map_congr_left fun i hi => h _ (by omega) ?_
      have := List.mem_range.1 hi
      omega
    simp only [ctrSlot, hb]
  rw [ctrRead, ctrRead, hs 0 (by omega), hs 1 (by omega)]

/-! ### What the reads leave -/

/-- The media as they were before the reads: lines and tags, the drain areas, the checkpoints, the key and the lines held. -/
def onDies (m : Media) := (m.lines, m.tags, m.drain, m.index, m.ckpts, m.key, m.held)

/-- The fields that RECOVER's reads may write. -/
def readFields : List (Fld × Nat) := [(F.SBG_ERR_CTR_ODD, 0), (F.HUB_PATROL_POS_REGION, 0), (F.HUB_PATROL_POS_PCT, 0), (F.HUB_XTAB_LOST, 0)]

/-- What a step of the reads leaves as it was. -/
def readOnly (s t : State) : Prop :=
  keptBut s t [.regs, .med, .sbg, .host, .rcd] ∧ regsKept s t readFields ∧ onDies t.med = onDies s.med ∧ shutdownRec t = shutdownRec s

theorem readOnly.trans (h : readOnly s t) (k : readOnly t u) : readOnly s u := by
  obtain ⟨h1, h2, h3, h4⟩ := h
  obtain ⟨k1, k2, k3, k4⟩ := k
  exact ⟨keptBut_trans h1 k1, regsKept_trans h2 k2, k3.trans h3, k4.trans h4⟩

theorem readOnly_refl (s : State) : readOnly s s := ⟨keptBut_refl .., regsKept_refl s readFields, rfl, rfl⟩

/-- A step that leaves the saddlebag alone. -/
theorem readOnly_of_kept (h : keptBut s t [.regs, .med, .host, .rcd]) (hr : regsKept s t readFields)
      (hm : onDies t.med = onDies s.med) : readOnly s t :=
  ⟨keptBut_mono h (by simp), hr, hm, by
    have hb := ctrRead_of_bytes (s := s) (t := t) (addr := ctrShutdown) fun k _ _ => by rw [sbByte, sbByte, agree_of_kept h .sbg]
    rw [shutdownRec, shutdownRec, hb]⟩

theorem readOnly_noteOdd (a b : Option Nat) : readOnly s (noteOdd a b s) := by
  unfold noteOdd
  split
  · refine readOnly_of_kept (by simp) (by simp [readFields]) ?_
    unfold when
    split <;> rfl
  · exact readOnly_refl s

theorem readOnly_selectCkpts : readOnly s (selectCkpts r s) := by
  have hc : ∀ (a : Nat) (u : State), readOnly u (ctrCheck a u) := fun a u => readOnly_noteOdd ..
  have hu : ∀ (b : Nat) (u : State), readOnly u (ctrUpdate ctrCkpt b u) := fun b u => by
    have hk : keptBut u (ctrUpdate ctrCkpt b u) [.sbg] := by simp
    refine ⟨keptBut_mono hk (by simp), regsKept_of_kept hk, by rw [agree_of_kept hk .med], ?_⟩
    have hb := ctrRead_of_bytes (s := u) (t := ctrUpdate ctrCkpt b u) (addr := ctrShutdown) fun k h1 h2 =>
      sbByte_ctrUpdate (.inl (by unfold ctrShutdown at h2; unfold ctrCkpt; omega))
    rw [shutdownRec, shutdownRec, hb]
  unfold selectCkpts
  dsimp only
  refine readOnly.trans ?_ (hu _ _)
  refine readOnly.trans ?_ (hc _ _)
  refine readOnly.trans ?_ (hc _ _)
  exact readOnly_of_kept (by simp) (by simp) rfl

theorem readOnly_loadTables : readOnly s (loadTables us s) := by
  refine readOnly_of_kept (by simp) ?_ rfl
  simp [loadTables, placePatrol, readFields]

theorem readOnly_loadPtr (k : Nat) : readOnly s (loadPtr k s) := by
  have hm : ∀ (f : Media → Media) (u : State), onDies (f u.med) = onDies u.med → readOnly u (onMed f u) := fun f u h =>
    readOnly_of_kept (by simp) (by simp) h
  unfold loadPtr
  have ho := readOnly_noteOdd (s := s) ((ptrSlot s k 0).map (· / 2 ^ 36)) ((ptrSlot s k 1).map (· / 2 ^ 36))
  generalize noteOdd ((ptrSlot s k 0).map (· / 2 ^ 36)) ((ptrSlot s k 1).map (· / 2 ^ 36)) s = u at *
  refine ho.trans ?_
  dsimp only
  split
  · exact hm _ _ rfl
  · split
    · exact hm _ _ rfl
    · exact hm _ _ rfl

theorem readOnly_forEach {α : Type} {f : α → State → State} (h : ∀ x u, readOnly u (f x u)) (xs : List α) : readOnly s (forEach xs f s) := by
  induction xs generalizing s with
  | nil => exact readOnly_refl s
  | cons x xs ih => exact (h x s).trans ih

theorem postOrQueue_of_recover (hm : s.mode = .recover) (log kind sub dpa cls source : Nat) : postOrQueue log kind sub dpa cls source s
    = onHost (fun h => { h with queued := h.queued ++ [(log, kind, sub, dpa, cls, source)] }) s := by
  unfold postOrQueue
  rw [hm]
  simp

theorem readOnly_loadPtrs (hm : s.mode = .recover) : readOnly s (loadPtrs s) := by
  unfold loadPtrs
  have h1 : readOnly s (s |> onMed (fun m => { m with lost := [] }) |> forEach (List.range (Config.regions s.config)) loadPtr) := by
    refine readOnly.trans ?_ (readOnly_forEach (fun k u => readOnly_loadPtr k) _)
    exact readOnly_of_kept (by simp) (by simp) rfl
  generalize (s |> onMed (fun m => { m with lost := [] }) |> forEach (List.range (Config.regions s.config)) loadPtr) = u at *
  dsimp only
  refine h1.trans ?_
  have h2 : readOnly u (u |> fput F.HUB_XTAB_LOST 0 (min 15 u.med.lost.length) |> forEach u.med.lost (fun _ s => land 0x09 4 srcHub 0 none s)) := by
    refine readOnly.trans ?_ (readOnly_forEach (fun k v => readOnly_of_kept (by simp) (by simp) (by simp)) _)
    exact readOnly_of_kept (by simp) (by simp [readFields]) rfl
  have hum : u.mode = .recover := (agree_of_kept h1.1 .mode).trans hm
  generalize (u |> fput F.HUB_XTAB_LOST 0 (min 15 u.med.lost.length) |> forEach u.med.lost (fun _ s => land 0x09 4 srcHub 0 none s)) = v at *
  refine h2.trans ?_
  cases u.med.lost.isEmpty
  · rw [Bool.not_false, when, if_pos rfl, postOrQueue_of_recover ((agree_of_kept h2.1 .mode).trans hum)]
    exact readOnly_of_kept (by simp) (by simp) rfl
  · exact readOnly_refl v

/-- RECOVER as it is when it decides. -/
def recoverRead1 (r : RecoverReads) (us : List Ckpt) (s : State) : State :=
  s |> selectCkpts r |> onLife (fun l => { l with badKeys := badKeysOf r, homeTodo := [], restoreTodo := [], dirty := false })
    |> loadTables us |> loadPtrs

/-- The state that the decision reads. -/
structure ReadDone (r : RecoverReads) (s v : State) : Prop where
  kept : keptBut s v [.regs, .med, .sbg, .host, .rcd, .life]
  regs : regsKept s v readFields
  dies : onDies v.med = onDies s.med
  record : shutdownRec v = shutdownRec s
  life : v.life = { s.life with badKeys := badKeysOf r, homeTodo := [], restoreTodo := [], dirty := false }

theorem readDone_recoverRead1 (hm : s.mode = .recover) : ReadDone r s (recoverRead1 r us s) := by
  have h1 := readOnly_selectCkpts (s := s) (r := r)
  unfold recoverRead1
  generalize selectCkpts r s = u at *
  obtain ⟨k1, k2, k3, k4⟩ := h1
  generalize hw : onLife (fun l => { l with badKeys := badKeysOf r, homeTodo := [], restoreTodo := [], dirty := false }) u = w
  have hwk : keptBut u w [.life] := by rw [← hw]; simp
  have hwl : w.life = { s.life with badKeys := badKeysOf r, homeTodo := [], restoreTodo := [], dirty := false } := by
    rw [← hw, onLife_life, agree_of_kept k1 .life]
  have hwr : shutdownRec w = shutdownRec u := by rw [← hw]; rfl
  have hwm : w.mode = .recover := (agree_of_kept hwk .mode).trans ((agree_of_kept k1 .mode).trans hm)
  have h2 := readOnly_loadTables (s := w) (us := us)
  obtain ⟨j1, j2, j3, j4⟩ := h2.trans (readOnly_loadPtrs ((agree_of_kept h2.1 .mode).trans hwm))
  exact ⟨keptBut_trans (keptBut_mono k1 (by simp)) (keptBut_trans (keptBut_mono hwk (by simp)) (keptBut_mono j1 (by simp))),
    regsKept_trans k2 (regsKept_trans (regsKept_of_kept hwk) j2), by rw [j3, agree_of_kept hwk .med, k3], by rw [j4, hwr, k4],
    (agree_of_kept j1 .life).trans hwl⟩

end

end Sys2Proof.Machine
end

section
/-! PROOF. RECOVER of a card without checkpoints (R168, R193 to R195). -/
namespace Sys2Proof.Machine

set_option Elab.async false

section
variable {s t u v : State} {r : RecoverReads} {us : List Ckpt}

/-! ### The sweep -/

/-- The TAGAGE of every tag value goes to one bank. -/
def sweepBank (n : Nat) (s : State) : State :=
  forEach (List.range 8) (fun v s => sendDie 8 (bankWheel n) (bankDie n) (bankInDie n) 0 v s) s

/-- What each send of the sweep leaves: one packet more, and the media but for what is open on the bus. -/
def sent (k : Nat) (s t : State) : Prop :=
  t.outbox.length = s.outbox.length + k ∧ keptBut s t [.med, .outbox] ∧ t.med = { s.med with sent := t.med.sent }

theorem sent.trans {j k : Nat} (h : sent j s t) (k' : sent k t u) : sent (j + k) s u := by
  obtain ⟨h1, h2, h3⟩ := h
  obtain ⟨k1, k2, k3⟩ := k'
  exact ⟨by rw [k1, h1, Nat.add_assoc], keptBut_trans h2 k2, by rw [k3, h3]⟩

theorem sent_sendDie (op w d bank row arg : Nat) : sent 1 s (sendDie op w d bank row arg s) :=
  ⟨by simp [sendDie, sendPacket_outbox], by simp, rfl⟩

theorem sent_forEach {α : Type} {f : α → State → State} {k : Nat} (h : ∀ x u, sent k u (f x u))
      (xs : List α) : sent (xs.length * k) s (forEach xs f s) := by
  induction xs generalizing s with
  | nil => exact ⟨by simp [forEach], keptBut_refl _ _, rfl⟩
  | cons x xs ih =>
    have := (h x s).trans ih
    rwa [List.length_cons, Nat.succ_mul, Nat.add_comm]

theorem sent_sweepBank (n : Nat) : sent 8 s (sweepBank n s) := sent_forEach (fun _ _ => sent_sendDie ..) (List.range 8)

/-- The sweep has been asked of every bank. -/
structure SweepBegun (s t : State) : Prop where
  kept : keptBut s t [.regs, .med, .life, .outbox]
  life : t.life = { s.life with step := .sweep }
  med : t.med = { s.med with agingLeft := List.range (8 * Config.banks s.config), sent := t.med.sent }
  aging : fget t F.HUB_EPOCH_AGING 0 = 1
  regs : regsKept s t [(F.HUB_EPOCH_AGING, 0)]
  sends : t.outbox.length = s.outbox.length + 8 * Config.banks s.config

theorem startSweep_begun (s : State) : SweepBegun s (startSweep s) := by
  have he : startSweep s = forEach (List.range (Config.banks s.config)) sweepBank (s |> onLife (fun l => { l with step := .sweep })
      |> onMed (fun m => { m with agingLeft := List.range (8 * Config.banks s.config) }) |> fset F.HUB_EPOCH_AGING 0) := rfl
  have hs := sent_forEach (f := sweepBank) (s := s |> onLife (fun l => { l with step := .sweep })
      |> onMed (fun m => { m with agingLeft := List.range (8 * Config.banks s.config) }) |> fset F.HUB_EPOCH_AGING 0)
    (fun n u => sent_sweepBank n) (List.range (Config.banks s.config))
  rw [← he] at hs
  obtain ⟨h1, h2, h3⟩ := hs
  have hr : ∀ (g : Fld) (i : Nat), fget (startSweep s) g i = fget (fset F.HUB_EPOCH_AGING 0 s) g i := fun g i => fget_of_kept h2 g i
  refine ⟨keptBut_trans (by simp) (keptBut_mono h2 (by simp)), agree_of_kept h2 .life, h3, ?_, ?_, ?_⟩
  · rw [hr, fget_fset_same _ _ _ (by decide)]
  · intro g i hg
    rw [hr, fget_fset_other _ _ _ _ _ (hg _ (List.mem_singleton.2 rfl))]
  · rw [h1, List.length_range, Nat.mul_comm]
    rfl

/-- RECOVER goes on to the sweep once nothing is left to go home. -/
theorem recProgress_of_placed (hm : s.mode = .recover) (hh : s.life.homeTodo = []) (hs : s.life.step = .placing) : recProgress s = startSweep s := by
  have hc : (decide (s.mode = .recover) && s.life.homeTodo.isEmpty) = true := by rw [hm, hh]; rfl
  rw [recProgress, hc, hs]
  rfl

/-! ### The reads -/

theorem recoverRead_missing (hm : s.mode = .recover) (hs : s.life.step = .reading) (h : ckptMissing s (usable s r) = true) :
    recoverRead r s = latchBrake 10 srcHub (selectCkpts r s) := by
  have hc : (decide (s.mode = .recover) && decide (s.life.step = .reading)) = true := by rw [hm, hs]; rfl
  rw [recoverRead, hc, if_pos rfl]
  exact if_pos h

theorem recoverRead_found (hm : s.mode = .recover) (hs : s.life.step = .reading) (h : ckptMissing s (usable s r) = false) :
    recoverRead r s = decideCase r (usable s r) (recoverRead1 r (usable s r) s) := by
  have hc : (decide (s.mode = .recover) && decide (s.life.step = .reading)) = true := by rw [hm, hs]; rfl
  rw [recoverRead, hc, if_pos rfl]
  exact if_neg (by rw [h]; decide)

theorem usable_nil (h : s.med.ckpts = []) : usable s r = [] := by simp [usable, sealedCkpts, h]

/-- No checkpoint and no record: nothing is restored. -/
theorem decideCase_new (h : s.med.ckpts = []) (hr : shutdownRec s = none) :
    decideCase r us s = recProgress (onLife (fun l => { l with dsc := 0, step := .placing }) s) := by
  have hs : (sealedCkpts s r).isEmpty = true := by simp [sealedCkpts, h]
  rw [decideCase, hr]
  exact if_pos hs

end

/-- Settles O33: the reads find nothing, so the sweep begins; a recorded checkpoint that nothing reaches is a brake. -/
theorem newCardRecoversEmpty : Obligations.NewCardRecoversEmpty := by
  unfold Obligations.NewCardRecoversEmpty
  intro s r hg hm hstep hck
  have hus : usable (stampNow s) r = [] := usable_nil hck
  refine ⟨fun hrec hctr => ?empty, fun v hctr => ?lost⟩
  case empty =>
    have hmiss : ckptMissing (stampNow s) (usable (stampNow s) r) = false := by
      rw [ckptMissing, show ctrValue (stampNow s) ctrHubCkpt = none from hctr]
    obtain ⟨k, -, hd, hsr, hl⟩ := readDone_recoverRead1 (s := stampNow s) (r := r) (us := []) hm
    have he := recoverRead_found (s := stampNow s) (r := r) hm hstep hmiss
    rw [hus] at he
    generalize recoverRead1 r [] (stampNow s) = v at *
    simp only [onDies, Prod.mk.injEq] at hd
    obtain ⟨hlines, -, -, -, hckv, -⟩ := hd
    rw [decideCase_new (hckv.trans hck) (hsr.trans hrec)] at he
    generalize hw : onLife (fun l => { l with dsc := 0, step := .placing }) v = w at he
    have hwk : keptBut v w [.life] := by rw [← hw]; simp
    have hwl : w.life = { s.life with badKeys := badKeysOf r, homeTodo := [], restoreTodo := [], dirty := false, dsc := 0, step := .placing } := by
      rw [← hw, onLife_life, hl]
      rfl
    have hwm : w.mode = .recover := (agree_of_kept hwk .mode).trans ((agree_of_kept k .mode).trans hm)
    rw [recProgress_of_placed hwm (by rw [hwl]) (by rw [hwl])] at he
    obtain ⟨g1, g2, g3, g4, -, g6⟩ := startSweep_begun w
    generalize startSweep w = t at *
    have hcfg : w.config = s.config := hwk.1.trans k.1
    have hout : w.outbox = s.outbox := (agree_of_kept hwk .outbox).trans (agree_of_kept k .outbox)
    refine ⟨_, run_of_effect he, (agree_of_kept g1 .mode).trans hwm, ?_, ?_, ?_, g4, ?_, ?_, ?_, ?_⟩
    · rw [settle_life, g2]
    · rw [settle_life, g2, hwl]
    · rw [settle_life, g2, hwl]
    · rw [settle_med, g3, hcfg]
    · rw [settle_med, g3, agree_of_kept hwk .med, hlines]
      rfl
    · exact (agree_of_kept g1 .cache).trans ((agree_of_kept hwk .cache).trans (agree_of_kept k .cache))
    · rw [settle_outbox, g6, hout, hcfg]
  case lost =>
    have hmiss : ckptMissing (stampNow s) (usable (stampNow s) r) = true := by
      rw [hus, ckptMissing, show ctrValue (stampNow s) ctrHubCkpt = some v from hctr]
      rfl
    have he := recoverRead_missing (s := stampNow s) (r := r) hm hstep hmiss
    obtain ⟨k, -, hd, -⟩ := readOnly_selectCkpts (s := stampNow s) (r := r)
    generalize selectCkpts r (stampNow s) = w at *
    have hwm : w.mode = .recover := (agree_of_kept k .mode).trans hm
    simp only [onDies, Prod.mk.injEq] at hd
    obtain ⟨h1, h2, -, h4, -, -, -, -, -, -, h11, -⟩ := latchBrake_latched (s := w) 10 srcHub (by decide) (by decide) (by rw [hwm]; rfl)
    refine ⟨_, run_of_effect he, h1, h2, ?_, ?_⟩
    · rw [fget_settle, h4]
      rfl
    · rw [settle_med, h11, hd.1]
      rfl

end Sys2Proof.Machine
end

section
/-! PROOF. A sealed freewheel's line is dirty in the cache again (R138, R193 to R197). -/
namespace Sys2Proof.Machine

set_option Elab.async false

section
variable {s t u v : State} {loc line k : Nat}

/-! ### A way of an empty set -/

theorem plruPick_of_all {elig : Nat → Bool} (h : ∀ n, elig n = true) (b : BitVec 15) (l node base : Nat) :
    ∃ w, plruPick elig b l node base = some w ∧ base ≤ w ∧ w < base + 2 ^ l := by
  induction l generalizing node base with
  | zero => exact ⟨base, by simp [plruPick, h], le_refl _, by omega⟩
  | succ l ih =>
    obtain ⟨lo, hlo, h1, h2⟩ := ih (2 * node + 1) base
    obtain ⟨hi, hhi, h3, h4⟩ := ih (2 * node + 2) (base + 2 ^ l)
    have hp : 2 ^ (l + 1) = 2 ^ l + 2 ^ l := by rw [pow_succ]; omega
    cases hb : b.getLsbD node
    · exact ⟨lo, by simp [plruPick, hb, hlo], h1, by omega⟩
    · exact ⟨hi, by simp [plruPick, hb, hhi], by omega, by omega⟩

theorem locScratch_of_steps (h : scratchSteps s = 0) (loc : Nat) : locScratch s loc = false := by simp [locScratch, scratchWay, h]

/-- A store that misses in an empty cache takes a way of its set. -/
theorem storePlace_of_reset (hc : s.cache = cacheReset) (hs : scratchSteps s = 0) (sl : Nat) {set : Nat} (hset : set < 4096) :
    ∃ loc, storePlace s sl set = some loc ∧ loc ∈ setLocs sl set ∧ locOvf loc = false := by
  have hel : ∀ n, eligible s (wayLoc sl set n) = true := fun n => by
    have hw : wayAt s (wayLoc sl set n) = wayReset := by rw [wayAt, hc]; rfl
    rw [eligible, hw, locScratch_of_steps hs, hc]
    rfl
  obtain ⟨w, hw, -, hlt⟩ := plruPick_of_all hel (tabGet 0 s.cache.plru (sl * 4096 + set)) 4 0 0
  have hv : victim s sl set = some (wayLoc sl set w) := by rw [victim, hw]; rfl
  refine ⟨wayLoc sl set w, by rw [storePlace, hv], List.mem_map.2 ⟨w, List.mem_range.2 (by omega), rfl⟩, ?_⟩
  have hix : locIx (wayLoc sl set w) = set * 16 + w := by
    unfold locIx wayLoc
    omega
  rw [locOvf, hix]
  exact decide_eq_false (by omega)

/-! ### The line that is restored -/

/-- The line is dirty at the location, as it was drained, and nothing else is in the cache's ways. -/
structure Restored (s t : State) (line loc : Nat) (data : Line) : Prop where
  mem : loc ∈ setLocs (wheelOf s line) (setOf s line)
  way : ∃ p, wayAt t loc = { wayReset with line := line, sv := 15, sp := 0, v := true, d := true, p := p, data := data }
  rest : ∀ n, wayKey n ≠ wayKey loc → wayAt t n = wayReset
  dir : (dirAt t loc).dv = true ∧ (dirAt t loc).line = line
  ovf : locOvf loc = false
  steps : scratchSteps t = 0

theorem Restored.locate {data : Line} (h : Restored s t line loc data) (hc : t.config = s.config) (hk : t.med.key = s.med.key) :
    locate t line = some loc := by
  obtain ⟨p, hw⟩ := h.way
  have hwheel : wheelOf t line = wheelOf s line := by
    unfold wheelOf wheelOfBank placeOf quot
    rw [hc, hk]
  have hset : setOf t line = setOf s line := by rw [setOf, setOf, hk]
  have hlive : (wayLive t loc && (wayAt t loc).line == line) = true := by
    rw [wayLive, hw, locScratch_of_steps h.steps]
    simp
  rw [Machine.locate, hwheel, hset, findLine]
  cases hf : (setLocs (wheelOf s line) (setOf s line)).find? (fun loc => wayLive t loc && (wayAt t loc).line == line) with
  | none => exact absurd hlive (by simpa using List.find?_eq_none.1 hf loc h.mem)
  | some x =>
    have hx := List.find?_some hf
    have hkey : wayKey x = wayKey loc := by
      by_contra hne
      rw [wayLive, h.rest x hne] at hx
      simp [wayReset] at hx
    rw [wayKey_inj (List.mem_of_find?_eq_some hf) h.mem hkey]

theorem Restored.holds {data : Line} (h : Restored s t line loc data) : locSv t loc = 15 ∧ locSp t loc = 0 ∧ locData t loc = data := by
  obtain ⟨p, hw⟩ := h.way
  simp [locSv, locSp, locData, h.ovf, hw]

theorem Restored.of_kept {data : Line} (h : Restored s t line loc data) (hc : u.cache = t.cache) (hs : scratchSteps u = scratchSteps t) :
    Restored s u line loc data := by
  obtain ⟨h1, h2, h3, h4, h5, h6⟩ := h
  have hw : ∀ n, wayAt u n = wayAt t n := fun n => by rw [wayAt, wayAt, hc]
  have hd : dirAt u loc = dirAt t loc := by rw [dirAt, dirAt, hc]
  exact ⟨h1, by rwa [hw], fun n hn => by rw [hw, h3 n hn], by rwa [hd], h5, hs.trans h6⟩

/-- The cache's steps of a restored line. -/
def cacheRestored (loc line : Nat) (data : Line) (pin : Bool) (s : State) : State :=
  s |> placeAt loc line 15 0 pin data |> makeDirty loc |> when pin (pinLoc loc)

theorem cacheRestored_way (ho : locOvf loc = false) (hw : wayAt s loc = wayReset) (data : Line) (pin : Bool) :
    wayAt (cacheRestored loc line data pin s) loc = { wayReset with line := line, sv := 15, sp := 0, v := true, d := true, p := pin, data := data }
      ∧ (dirAt (cacheRestored loc line data pin s) loc).dv = true ∧ (dirAt (cacheRestored loc line data pin s) loc).line = line := by
  have huse : ∀ u : State, wayAt (useWay loc u) loc = wayAt u loc := fun u => by
    rw [useWay_eq]
    rfl
  have hplace : wayAt (placeAt loc line 15 0 pin data s) loc
      = { wayReset with line := line, sv := 15, sp := 0, v := true, d := false, p := pin, data := data } := by
    simp only [placeAt, ho, Bool.false_eq_true, if_false, placeWay, huse, wayAt_setWay, hw]
    rfl
  unfold cacheRestored
  generalize placeAt loc line 15 0 pin data s = u at *
  have hline : locLine u loc = line := by rw [locLine, ho, hplace]; rfl
  cases pin
  · simp [when, makeDirty, ho, hplace, hline]
  · simp [when, makeDirty, pinLoc, ho, hplace, hline]

theorem cacheRestored_others (ho : locOvf loc = false) (data : Line) (pin : Bool) : otherLocsKept loc s (cacheRestored loc line data pin s) := by
  have hp : ∀ u : State, otherLocsKept loc u (when pin (pinLoc loc) u) := fun u => by
    cases pin
    · exact otherLocsKept_of_cache rfl rfl rfl
    · simp only [when, if_true, pinLoc, ho, Bool.false_eq_true, if_false]
      exact otherLocsKept_trans (otherLocsKept_setWay _) (otherLocsKept_setDir _)
  have hpl : otherLocsKept loc s (placeAt loc line 15 0 pin data s) := by
    simp only [placeAt, ho, Bool.false_eq_true, if_false, placeWay]
    exact otherLocsKept_trans (otherLocsKept_setWay _) (otherLocsKept_useWay _)
  exact otherLocsKept_trans hpl (otherLocsKept_trans otherLocsKept_makeDirty (hp _))

/-- A whole line that was drained under the media's key, not scratch and not pinned. -/
structure Drained (d : DrainSlot) (key : Nat) : Prop where
  sv : d.sv = 15
  sp : d.sp = 0
  scr : d.scr = false
  key : d.key = key

/-- What the restore of one line leaves besides. -/
structure RestoredBy (s t : State) : Prop where
  kept : keptBut s t [.cache, .med, .regs]
  regs : regsKept s t [(F.HUB_RESTORE_LINES, 0)]
  lines : t.med.lines = s.med.lines
  key : t.med.key = s.med.key

theorem restoreLine_restored {d : DrainSlot} (hc : s.cache = cacheReset) (hs : scratchSteps s = 0) (hb : s.life.badKeys = [])
    (hd : slotAt s k = d) (h : Drained d s.med.key) :
    ∃ loc, Restored s (restoreLine true k s) d.line loc d.data ∧ RestoredBy s (restoreLine true k s) := by
  obtain ⟨loc, hp, hmem, ho⟩ := storePlace_of_reset hc hs (wheelOf s d.line) (set := setOf s d.line) (Config.setHash s.med.key d.line).isLt
  have hread : slotRead s k = (15, 0, d.data) := by
    have hn : nsHas k s.life.badKeys = false := by rw [hb]; rfl
    rw [slotRead, hd, hn, h.key, h.sv, h.sp]
    simp
  generalize hpin : slotPinned s k = pin
  have hnote : ∀ u : State, u.life = s.life → notePoison k d.line u = u := fun u hu => if_neg (by rw [hu, hb]; exact Bool.false_ne_true)
  have hck : keptBut s (cacheRestored loc d.line d.data pin s) [.cache] := by simp [cacheRestored]
  generalize hu : (cacheRestored loc d.line d.data pin s
    |> when (true && !pin) (onMed (fun m => { m with restored := nsAdd d.line m.restored, restoreLeft := nsAdd d.line m.restoreLeft }))
    |> fadd F.HUB_RESTORE_LINES 0 1) = u
  have hul : u.life = s.life := by
    rw [← hu]
    exact agree_of_kept (s := s) (ps := [.cache, .med, .regs]) (by simp [cacheRestored]) .life
  have he : restoreLine true k s = u := by
    rw [restoreLine, hd, hp, hpin, hread]
    exact (congrArg (notePoison k d.line) hu).trans (hnote u hul)
  rw [he]
  have hw : wayAt s loc = wayReset := by rw [wayAt, hc]; rfl
  obtain ⟨w1, w2, w3⟩ := cacheRestored_way (line := d.line) ho hw d.data pin
  obtain ⟨o1, -, -⟩ := cacheRestored_others (s := s) (line := d.line) ho d.data pin
  generalize cacheRestored loc d.line d.data pin s = x at *
  have hcache : u.cache = x.cache := by
    rw [← hu]
    exact agree_of_kept (s := x) (ps := [.med, .regs]) (by simp) .cache
  have hrg : regsKept s u [(F.HUB_RESTORE_LINES, 0)] := by
    rw [← hu]
    simp only [regsKept_fadd_iff _ _ _ (List.mem_singleton.2 rfl), regsKept_when_iff, regsKept_onMed]
    split <;> exact regsKept_of_kept hck
  have hmed : u.med.lines = s.med.lines ∧ u.med.key = s.med.key := by
    rw [← hu, fadd, fput_med, ← agree_of_kept hck .med]
    cases pin <;> exact ⟨rfl, rfl⟩
  refine ⟨loc, Restored.of_kept (t := x) ⟨hmem, ⟨pin, w1⟩, fun n hn => ?_, ⟨w2, w3⟩, ho, ?_⟩ hcache ?_, ⟨?_, hrg, hmed.1, hmed.2⟩⟩
  · rw [wayAt, o1 _ hn, hc]
    rfl
  · rw [scratchSteps, fget_of_kept hck]
    exact hs
  · rw [scratchSteps, scratchSteps, hrg _ _ (by decide), fget_of_kept hck]
  · rw [← hu]
    exact keptBut_trans (keptBut_mono hck (by simp)) (by simp)

/-! ### The decision -/

theorem restoreKeys_single (h : (slotAt s k).scr = false) : restoreKeys true [k] s = restoreLine true k s := by
  cases hp : slotPinned s k <;> simp [restoreKeys, h, hp, sortBy, insertBy, forEach]

theorem feedHome_of_nil (h : s.life.homeTodo = []) : feedHome s = s := by
  unfold feedHome
  split
  · rw [h]
    rfl
  · rfl

/-- The one drained line of the area is the one to be restored. -/
theorem usableKeys_single {d : DrainSlot} {r : RecoverReads} {es : List Nat} {area q : Nat} (hd : s.med.drain = [(k, d)])
    (hi : s.med.index = [((area * 16 + keyWheel k) * 4096 + keySlot k / 28, ⟨q, es⟩)]) (ha : k / 67584 / 16 = area) (hv : d.v = true)
    (hb : r.badIndex = []) : usableKeys s r area q = [k] := by
  simp [usableKeys, hd, hi, ha, hv, hb, tabGet]

theorem usable_single {r : RecoverReads} {slot : Nat} {c : Ckpt} (h : s.med.ckpts = [(slot, c)]) (hs : c.sealed = true) (h1 : r.badSeal = [])
    (h2 : r.badDigest = []) : usable s r = [c] := by
  simp [usable, sealedCkpts, h, hs, h1, h2]

theorem decideCase_sealed {r : RecoverReads} {c : Ckpt} {dsc : Nat} (h : shutdownRec s = some (dsc, 2, c.seq, c.area)) (hk : c.kind = 2) :
    decideCase r [c] s = restoreLive r c (onLife (fun l => { l with dsc := dsc }) s) := by
  simp [decideCase, h, hk]

/-- The area is live, and its line is about to be restored. -/
def liveBegun (c : Ckpt) (s : State) : State :=
  s |> onMed (fun m => { m with liveArea := some c.area }) |> fset F.LDG_STATUS_RESTORE_LIVE 0 |> fset F.HUB_RESTART_RESTORED 0

theorem restoreLive_single {r : RecoverReads} {c : Ckpt} {d : DrainSlot} (hks : usableKeys s r c.area c.seq = [k]) (hd : slotAt s k = d)
      (hscr : d.scr = false) :
    restoreLive r c s = recProgress (feedHome (onLife (fun l => { l with step := .placing }) (restoreLine true k (liveBegun c s)))) := by
  have hs : (slotAt (liveBegun c s) k).scr = false := by
    rw [show slotAt (liveBegun c s) k = slotAt s k from rfl, hd, hscr]
  rw [restoreLive, hks, ← restoreKeys_single hs]
  rfl

end

/-- Settles O34: the seal's line is the one key to restore; it takes a way of its set, dirty, and the sweep leaves it there. -/
theorem sealedLineIsBackDirty : Obligations.SealedLineIsBackDirty := by
  unfold Obligations.SealedLineIsBackDirty
  intro s r k slot dsc c d es hg hm hstep hcache hheld hscr hb1 hb2 hb3 hb4 hctr hck hsealed hkind hrec hdrain hindex harea hv hsv hsp hdscr hpin hkey
  have hus : usable (stampNow s) r = [c] := usable_single hck hsealed hb1 hb2
  have hmiss : ckptMissing (stampNow s) (usable (stampNow s) r) = false := by
    rw [ckptMissing, show ctrValue (stampNow s) ctrHubCkpt = none from hctr]
  obtain ⟨k1, r1, hd, hsr, hl⟩ := readDone_recoverRead1 (s := stampNow s) (r := r) (us := [c]) hm
  have he := recoverRead_found (s := stampNow s) (r := r) hm hstep hmiss
  rw [hus] at he
  generalize recoverRead1 r [c] (stampNow s) = v at *
  simp only [onDies, Prod.mk.injEq] at hd
  obtain ⟨hlines, -, hdrv, hiv, -, hkv, -⟩ := hd
  rw [decideCase_sealed (hsr.trans hrec) hkind] at he
  generalize hw : onLife (fun l => { l with dsc := dsc }) v = w at he
  have hwk : keptBut v w [.life] := by rw [← hw]; simp
  have hwmed : w.med = v.med := agree_of_kept hwk .med
  have hslot : slotAt w k = d := by
    rw [slotAt, hwmed, hdrv, show (stampNow s).med.drain = _ from hdrain]
    simp [tabGet]
  rw [restoreLive_single (usableKeys_single (by rw [hwmed, hdrv]; exact hdrain) (by rw [hwmed, hiv]; exact hindex) harea hv hb3) hslot hdscr] at he
  generalize hx : liveBegun c w = x at he
  have hxk : keptBut w x [.med, .regs] := by rw [← hx]; simp [liveBegun]
  have hxl : x.life = { s.life with badKeys := [], homeTodo := [], restoreTodo := [], dirty := false, dsc := dsc } := by
    rw [agree_of_kept hxk .life, ← hw, onLife_life, hl]
    simp [badKeysOf, hb4]
  have hxmed : x.med.lines = s.med.lines ∧ x.med.key = s.med.key := by
    rw [← hx, show (liveBegun c w).med = { w.med with liveArea := some c.area } from rfl, hwmed]
    exact ⟨hlines, hkv⟩
  have hxslot : slotAt x k = d := by rw [← hx]; exact hslot
  have hxcache : x.cache = cacheReset := (agree_of_kept hxk .cache).trans ((agree_of_kept hwk .cache).trans ((agree_of_kept k1 .cache).trans hcache))
  have hxs : scratchSteps x = 0 := by
    have h1 : scratchSteps x = scratchSteps w := by
      rw [← hx, scratchSteps, liveBegun, fget_fset_other _ _ _ _ _ (by decide), fget_fset_other _ _ _ _ _ (by decide)]
      rfl
    have h2 : scratchSteps v = scratchSteps (stampNow s) := r1 _ _ (by decide)
    rw [h1, scratchSteps, fget_of_kept hwk, ← scratchSteps, h2]
    exact hscr
  have hxr : fget x F.HUB_RESTART_RESTORED 0 = 1 := by rw [← hx, liveBegun, fget_fset_same _ _ _ (by decide)]
  have hxm : x.mode = .recover := (agree_of_kept hxk .mode).trans ((agree_of_kept hwk .mode).trans ((agree_of_kept k1 .mode).trans hm))
  obtain ⟨loc, hplace, ⟨yk, yr, yl, ykey⟩⟩ := restoreLine_restored hxcache hxs (by rw [hxl]) hxslot ⟨hsv, hsp, hdscr, by rw [hkey, hxmed.2]⟩
  generalize restoreLine true k x = y at *
  generalize hz : onLife (fun l => { l with step := .placing }) y = z at he
  have hzk : keptBut y z [.life] := by rw [← hz]; simp
  have hzl : z.life = { s.life with badKeys := [], homeTodo := [], restoreTodo := [], dirty := false, dsc := dsc, step := .placing } := by
    rw [← hz, onLife_life, agree_of_kept yk .life, hxl]
  have hzm : z.mode = .recover := (agree_of_kept hzk .mode).trans ((agree_of_kept yk .mode).trans hxm)
  rw [feedHome_of_nil (by rw [hzl]), recProgress_of_placed hzm (by rw [hzl]) (by rw [hzl])] at he
  obtain ⟨g1, g2, g3, -, g5, -⟩ := startSweep_begun z
  generalize startSweep z = t at *
  have hzmed : z.med = y.med := agree_of_kept hzk .med
  have hst : scratchSteps (settle s t) = scratchSteps y := by
    rw [scratchSteps, fget_settle, g5 _ _ (by decide), fget_of_kept hzk, scratchSteps]
  have hin : Restored x (settle s t) d.line loc d.data := hplace.of_kept ((agree_of_kept g1 .cache).trans (agree_of_kept hzk .cache)) hst
  have hcfg : (settle s t).config = x.config := (hxk.1.trans (hwk.1.trans k1.1)).symm
  obtain ⟨l1, l2, l3⟩ := hin.holds
  refine ⟨_, loc, run_of_effect he, hin.locate hcfg ?_, l1, l2, l3, hin.dir.1, hin.dir.2, ?_, ?_, (agree_of_kept g1 .mode).trans hzm, ?_, ?_⟩
  · rw [settle_med, g3, hzmed]
    exact ykey
  · rw [settle_life, g2, hzl]
  · rw [settle_life, g2, hzl]
  · rw [settle_med, g3, hzmed]
    exact yl.trans hxmed.1
  · rw [fget_settle, g5 _ _ (by decide), fget_of_kept hzk, yr _ _ (by decide), hxr]

end Sys2Proof.Machine
end

section
/-! PROOF. The first tick of a freewheel and of a brake with drain (R133, R136, R137, R300, R307). -/
namespace Sys2Proof.Machine

set_option Elab.async false

section
variable {s t u v : State}

/-- The drain has begun. -/
structure DrainBegun (s t : State) : Prop where
  kept : keptBut s t [.regs, .sched, .fw, .med, .sbg]
  stage : t.fw.stage = .draining
  t0 : t.fw.t0 = s.fw.t0
  area : t.fw.area = drainArea s
  seq : t.fw.seq = s.med.ckptSeq + 1
  ckptSeq : t.med.ckptSeq = s.med.ckptSeq + 1
  drain : ∀ x ∈ t.med.drain, x ∈ s.med.drain ∧ x.1 / 67584 / 16 ≠ drainArea s
  queue : ∀ d ∈ t.sched.queue, d ∈ s.sched.queue ∧ (d.cls = .demand ∨ d.cls = .drain)
  ctxs : ∀ c ∈ t.sched.ctxs, c.st ≠ .program
  autoset : t.sbg.autoset = t.sbg.since.map (fun y => y.1)
  lines : t.med.lines = s.med.lines
  ckpts : t.med.ckpts = s.med.ckpts

theorem startAutostore_spec (s : State) : (startAutostore s).sbg.autoset = s.sbg.since.map (fun x => x.1)
    ∧ (startAutostore s).sbg.since = s.sbg.since ∧ (startAutostore s).med = s.med ∧ (startAutostore s).sched = s.sched
    ∧ (startAutostore s).fw = { s.fw with autostoreDone := (startAutostore s).fw.autostoreDone } := by
  unfold startAutostore
  cases h : (s.sbg.since.map fun x => x.1).isEmpty <;> simp [when, h, onSbg, onFw]

/-- The queue, the sequence number and the area as the drain takes them. -/
def drainReady (s : State) : State := s |> dropUnstarted |> takeCkptSeq |> emptyArea (drainArea s)

theorem drainReady_spec (s : State) : keptBut s (drainReady s) [.sched, .med, .sbg] ∧ (drainReady s).med.ckptSeq = s.med.ckptSeq + 1
    ∧ (drainReady s).med.lines = s.med.lines ∧ (drainReady s).med.ckpts = s.med.ckpts
    ∧ (drainReady s).med.drain = tabFilter (fun k => k / 67584 / 16 != drainArea s) s.med.drain
    ∧ (drainReady s).sched.queue = s.sched.queue.filter (fun d => d.cls == .demand || d.cls == .drain) := by
  have hu : ∀ (b : Nat) (u : State), keptBut u (ctrUpdate ctrCkpt b u) [.sbg] := fun b u => by simp
  have hm : (s |> dropUnstarted |> takeCkptSeq).med = { s.med with ckptNow := none, ckptSeq := s.med.ckptSeq + 1 } := agree_of_kept (hu _ _) .med
  have hq : (s |> dropUnstarted |> takeCkptSeq).sched = (dropUnstarted s).sched := agree_of_kept (hu _ _) .sched
  refine ⟨by simp [drainReady, emptyArea], ?_, ?_, ?_, ?_, ?_⟩
  all_goals rw [drainReady, emptyArea]
  · rw [onMed_med, hm]
  · rw [onMed_med, hm]
  · rw [onMed_med, hm]
  · rw [onMed_med, hm]
  · rw [onMed_sched, hq]
    rfl

theorem drainT1_begun (s : State) : DrainBegun s (drainT1 s) := by
  obtain ⟨hk, hseq, hlines, hck, hdrain, hqueue⟩ := drainReady_spec s
  have he : drainT1 s = ackAtTrip (startAutostore (writeShutdown 2 (drainReady s).med.ckptSeq (drainArea s)
      (onFw (fun f => { f with stage := .draining, area := drainArea s, seq := (drainReady s).med.ckptSeq, slotNext := [], indexNext := []
                               drained := 0, sealed := false, cutShort := false, autostoreDone := false }) (drainReady s)))) := rfl
  generalize drainReady s = a at *
  have hb : ∀ u : State, keptBut u (writeShutdown 2 a.med.ckptSeq (drainArea s) u) [.sbg] := fun u => by simp
  generalize hbb : writeShutdown 2 a.med.ckptSeq (drainArea s) _ = b at he
  have hbk : keptBut _ b [.sbg] := hbb ▸ hb _
  obtain ⟨h1, h2, h3, h4, h5⟩ := startAutostore_spec b
  have hck' : keptBut b (startAutostore b) [.regs, .fw, .sbg] := by simp
  generalize startAutostore b = c at *
  have hbf : b.fw = _ := agree_of_kept hbk .fw
  have hbm : b.med = a.med := agree_of_kept hbk .med
  have hbs : b.sched = a.sched := agree_of_kept hbk .sched
  have haf : a.fw = s.fw := agree_of_kept hk .fw
  rw [he]
  refine ⟨?_, ?_, ?_, ?_, ?_, ?_, ?_, ?_, ?_, ?_, ?_, ?_⟩
  · have hx : keptBut a b [.fw, .sbg] := keptBut_trans (by simp) (keptBut_mono hbk (by simp))
    have hy : keptBut c (ackAtTrip c) [.sched] := by simp
    exact keptBut_trans (keptBut_mono hk (by simp)) (keptBut_trans (keptBut_mono hx (by simp)) (keptBut_trans (keptBut_mono hck' (by simp))
      (keptBut_mono hy (by simp))))
  · show c.fw.stage = _
    rw [h5, hbf]
    rfl
  · show c.fw.t0 = _
    rw [h5, hbf, ← haf]
    rfl
  · show c.fw.area = _
    rw [h5, hbf]
    rfl
  · show c.fw.seq = _
    rw [h5, hbf, ← hseq]
    rfl
  · show c.med.ckptSeq = _
    rw [h3, hbm, hseq]
  · show ∀ x ∈ c.med.drain, _
    rw [h3, hbm, hdrain]
    intro x hx
    obtain ⟨hx1, hx2⟩ := mem_tabFilter _ _ x hx
    exact ⟨hx2, by simpa using hx1⟩
  · show ∀ d ∈ c.sched.queue, _
    rw [h4, hbs, hqueue]
    intro d hd
    obtain ⟨hd1, hd2⟩ := List.mem_filter.1 hd
    exact ⟨hd1, by simpa using hd2⟩
  · intro x hx
    obtain ⟨y, -, rfl⟩ := List.mem_map.1 (show x ∈ c.sched.ctxs.map _ from hx)
    by_cases hy : y.st = .program
    · simp [hy]
    · simp [hy]
  · show c.sbg.autoset = c.sbg.since.map _
    rw [h1, h2]
  · show c.med.lines = _
    rw [h3, hbm, hlines]
  · show c.med.ckpts = _
    rw [h3, hbm, hck]

/-- Whether the partner has been told, the drain stands. -/
theorem kept_told : keptBut s (s |> onTnd (fun t => { t with quiesceDue := true }) |> tryQuiesce) [.host, .tnd, .outbox] := by simp

/-- In its first tick the drain goes on no further. -/
theorem fwProgress_of_first (hs : s.fw.stage = .draining) (ht : tickOf s < s.fw.t0 / 250 + 16) : fwProgress s = s := by
  have hc : (decide (s.fw.t0 / 250 + 16 ≤ tickOf s) && !drainBusy s && (s.fw.cutShort || !s.cache.dir.any (fun x => x.2.dv))) = false := by
    rw [decide_eq_false (by omega)]
    rfl
  rw [fwProgress, hs]
  exact if_neg (by rw [hc]; decide)

/-- What the first tick leaves, told and kept. -/
theorem firstTick_begun (ht : tickOf s = s.fw.t0 / 250 + 1) :
    ∃ t, (s |> drainT1 |> onTnd (fun t => { t with quiesceDue := true }) |> tryQuiesce |> fwProgress) = t
      ∧ keptBut (drainT1 s) t [.host, .tnd, .outbox] := by
  have hd := drainT1_begun s
  have hk := kept_told (s := drainT1 s)
  generalize (drainT1 s |> onTnd (fun t => { t with quiesceDue := true }) |> tryQuiesce) = u at *
  have hf : u.fw = (drainT1 s).fw := agree_of_kept hk .fw
  have hg : u.gtc = s.gtc := (agree_of_kept hk .gtc).trans (agree_of_kept hd.kept .gtc)
  refine ⟨u, fwProgress_of_first (by rw [hf, hd.stage]) ?_, hk⟩
  rw [tickOf, hg, hf, hd.t0, ← tickOf, ht]
  omega

end

/-- Settles O29: at the tick the drain begins, and nothing of its first tick goes on from there. -/
theorem drainStartsAtTheNextTick : Obligations.DrainStartsAtTheNextTick := by
  unfold Obligations.DrainStartsAtTheNextTick
  intro s hg next starts
  have hbegins : ∀ f : State → State, s.mode ≠ .off → s.gtc ≤ next → next < 2 ^ 64
      → f (stampNow s) = (advanceTo next (stampNow s) |> drainT1 |> onTnd (fun t => { t with quiesceDue := true }) |> tryQuiesce |> fwProgress)
      → ∃ t, run f s = .next t ∧ starts t := fun f hm hle hlt he => by
    obtain ⟨hv, hv', hk⟩ := advanced_spec hg hm next
    rw [Nat.mod_eq_of_lt hlt, Nat.max_eq_right hle] at hv hv'
    generalize advanceTo next (stampNow s) = v at *
    have hfw : v.fw = s.fw := agree_of_kept hk .fw
    have hmed : v.med = s.med := agree_of_kept hk .med
    have harea : drainArea v = drainArea s := by rw [drainArea, drainArea, hmed]
    obtain ⟨t, ht, hkt⟩ := firstTick_begun (s := v) (by rw [tickOf, hv, hfw]; show (s.fw.t0 / 250 + 1) * 250 / 250 = _; omega)
    obtain ⟨d1, d2, d3, d4, d5, d6, d7, d8, d9, d10, d11, d12⟩ := drainT1_begun v
    generalize drainT1 v = w at *
    rw [ht] at he
    have htf : t.fw = w.fw := agree_of_kept hkt .fw
    have htm : t.med = w.med := agree_of_kept hkt .med
    have hts : t.sched = w.sched := agree_of_kept hkt .sched
    have htb : t.sbg = w.sbg := agree_of_kept hkt .sbg
    refine ⟨_, run_of_effect he, ?_, ?_, ?_, ?_, ?_, ?_, ?_, ?_, ?_, ?_, ?_, ?_, ?_, ?_⟩
    · rw [settle_gtc, agree_of_kept hkt .gtc, agree_of_kept d1 .gtc, hv']
    · exact (agree_of_kept hkt .mode).trans ((agree_of_kept d1 .mode).trans (agree_of_kept hk .mode))
    · rw [settle_fw, htf, d2]
    · rw [settle_fw, htf, d3, hfw]
    · rw [settle_fw, htf, d4, harea]
    · rw [settle_fw, htf, d5, hmed]
    · rw [settle_med, htm, d6, hmed]
    · rw [settle_med, htm, ← harea, ← hmed]
      exact d7
    · rw [settle_sched, hts, ← show v.sched = s.sched from agree_of_kept hk .sched]
      exact d8
    · rw [settle_sched, hts]
      exact d9
    · rw [settle_sbg, htb]
      exact d10
    · rw [settle_med, htm, d11, hmed]
    · rw [settle_med, htm, d12, hmed]
    · exact (agree_of_kept hkt .cache).trans ((agree_of_kept d1 .cache).trans (agree_of_kept hk .cache))
  refine ⟨fun hst hle hlt => ⟨fun hm hkind => ?full, fun hm hkind => ?brake⟩, fun hon hnil hidle hm => ?stored⟩
  case full =>
    refine hbegins freewheelT1 (by rw [hm]; decide) hle hlt ?_
    have hc : ((stampNow s).mode != .freewheel || (stampNow s).fw.stage != .t0) = false := by
      rw [show (stampNow s).mode = .freewheel from hm, show (stampNow s).fw.stage = .t0 from hst]
      rfl
    rw [freewheelT1, hc, if_neg Bool.false_ne_true]
    exact if_pos hkind
  case brake =>
    refine hbegins brakeT1 (by rw [hm]; decide) hle hlt ?_
    have hc : ((stampNow s).mode != .brake || (stampNow s).fw.stage != .t0) = false := by
      rw [show (stampNow s).mode = .brake from hm, show (stampNow s).fw.stage = .t0 from hst]
      rfl
    rw [brakeT1, hc, if_neg Bool.false_ne_true]
    exact if_pos hkind
  case stored =>
    have he : autostoreEnd (stampNow s) = (stampNow s |> fclr F.SBG_STATUS_AUTOSTORE 0 |> onFw (fun f => { f with autostoreDone := true })) := by
      have h1 : fon (stampNow s) F.SBG_STATUS_AUTOSTORE 0 = true := by rw [fon, fget_stampNow, hon]; rfl
      have h2 : (stampNow s).sbg.autoset.isEmpty = true := by rw [show (stampNow s).sbg.autoset = [] from hnil]; rfl
      have h3 : shortRecord (stampNow s |> fclr F.SBG_STATUS_AUTOSTORE 0 |> onFw (fun f => { f with autostoreDone := true }))
          = (stampNow s |> fclr F.SBG_STATUS_AUTOSTORE 0 |> onFw (fun f => { f with autostoreDone := true })) := by
        refine if_neg ?_
        simp [hm]
      have h4 : fwProgress (stampNow s |> fclr F.SBG_STATUS_AUTOSTORE 0 |> onFw (fun f => { f with autostoreDone := true }))
          = (stampNow s |> fclr F.SBG_STATUS_AUTOSTORE 0 |> onFw (fun f => { f with autostoreDone := true })) := by
        rw [fwProgress, onFw_fw, fclr, fput_fw, show (stampNow s).fw.stage = .idle from hidle]
      rw [autostoreEnd, h1, h2, if_neg (by decide)]
      exact (congrArg fwProgress h3).trans h4
    refine ⟨_, run_of_effect he, ?_, ?_, keptBut_of_effect hg (by simp), rfl⟩
    · rw [fget_settle, fget_onFw, fclr, fget_fput_same]
      exact Nat.zero_mod _
    · rw [regsKept_iff_of_regs (settle_regs ..)]
      simp

end Sys2Proof.Machine
end

section
/-! PROOF. The scrub, patrol, temperatures, strobes and service checkpoints (R71, R72, R162, R166, R169, R178). -/
namespace Sys2Proof.Machine

set_option Elab.async false

section
variable {s t u v : State} {w set : Nat}

/-! ### The scrub's ways -/

/-- A way but for what the scrub ends: its being out of use, and its run of errors. -/
def wayCore (s : State) (loc : Nat) : Way := { wayAt s loc with off := false, runs := 0 }

/-- What the scrub of one way leaves. -/
structure Scrubbed (s t : State) : Prop where
  kept : keptBut s t [.cache]
  core : ∀ loc, wayCore t loc = wayCore s loc
  good : ∀ loc, (wayAt s loc).off = false ∧ (wayAt s loc).runs = 0 → (wayAt t loc).off = false ∧ (wayAt t loc).runs = 0
  dir : t.cache.dir = s.cache.dir
  ovf : t.cache.ovf = s.cache.ovf
  sets : t.cache.scrubSet = s.cache.scrubSet

theorem Scrubbed.refl (s : State) : Scrubbed s s := ⟨keptBut_refl _ _, fun _ => rfl, fun _ h => h, rfl, rfl, rfl⟩

theorem Scrubbed.trans (h : Scrubbed s t) (k : Scrubbed t u) : Scrubbed s u :=
  ⟨keptBut_trans h.kept k.kept, fun loc => (k.core loc).trans (h.core loc), fun loc hg => k.good loc (h.good loc hg),
    k.dir.trans h.dir, k.ovf.trans h.ovf, k.sets.trans h.sets⟩

theorem wayAt_setWay_eq (loc n : Nat) (x : Way) : wayAt (setWay loc x s) n = if wayKey n = wayKey loc then x else wayAt s n := by
  by_cases h : wayKey n = wayKey loc
  · rw [if_pos h, wayAt, h]
    exact tabGet_tabSet_same ..
  · rw [if_neg h]
    exact tabGet_tabSet_ne _ _ h _

theorem scrubbed_setWay {loc : Nat} {x : Way} (hx : { x with off := false, runs := 0 } = wayCore s loc) (ho : x.off = false) (hr : x.runs = 0) :
    Scrubbed s (setWay loc x s) := by
  refine ⟨by simp, fun n => ?_, fun n h => ?_, rfl, rfl, rfl⟩
  · rw [wayCore, wayAt_setWay_eq]
    split
    next h => rw [hx, wayCore, wayCore, wayAt, wayAt, h]
    next => rfl
  · rw [wayAt_setWay_eq]
    split
    · exact ⟨ho, hr⟩
    · exact h

theorem scrubbed_of_ways (h : t.cache.ways = s.cache.ways) (hk : keptBut s t [.cache]) (hd : t.cache.dir = s.cache.dir)
      (ho : t.cache.ovf = s.cache.ovf)
    (hs : t.cache.scrubSet = s.cache.scrubSet) : Scrubbed s t := by
  have hw : ∀ n, wayAt t n = wayAt s n := fun n => by rw [wayAt, wayAt, h]
  exact ⟨hk, fun n => by rw [wayCore, wayCore, hw], fun n hg => by rwa [hw], hd, ho, hs⟩

/-- What the scrub makes of a way whose tag reads good. -/
theorem scrubWay_good (i : Nat) : scrubWay w set [] i s = (s
    |> when ((wayAt s (wayLoc w set i)).runs != 0) (setWay (wayLoc w set i) { wayAt s (wayLoc w set i) with runs := 0, off := false })
    |> when ((wayAt s (wayLoc w set i)).off && (wayAt s (wayLoc w set i)).runs == 0)
        (setWay (wayLoc w set i) { wayAt s (wayLoc w set i) with off := false })
    |> when (wayAt s (wayLoc w set i)).off (onCache (fun c => { c with fresh := nsAdd (wayLoc w set i) c.fresh }))) := rfl

theorem scrubWay_scrubbed (i : Nat) : Scrubbed s (scrubWay w set [] i s) ∧ (wayAt (scrubWay w set [] i s) (wayLoc w set i)).off = false
    ∧ (wayAt (scrubWay w set [] i s) (wayLoc w set i)).runs = 0 := by
  have hfresh : ∀ (b : Bool) (u : State), Scrubbed u (when b (onCache (fun c => { c with fresh := nsAdd (wayLoc w set i) c.fresh })) u) := fun b u => by
    cases b
    · exact Scrubbed.refl u
    · exact scrubbed_of_ways rfl (by simp) rfl rfl rfl
  rw [scrubWay_good]
  generalize hy : wayAt s (wayLoc w set i) = y
  rcases Nat.eq_zero_or_pos y.runs with hr | hr
  · have h1 : (y.runs != 0) = false := by rw [hr]; rfl
    rw [h1]
    cases ho : y.off
    · exact ⟨Scrubbed.refl s, by rw [hr]; exact ⟨by simpa [when, hy] using ho, by simpa [when, hy] using hr⟩⟩
    · have hs : Scrubbed s (setWay (wayLoc w set i) { y with off := false } s) := scrubbed_setWay (by rw [wayCore, hy]) rfl hr
      have hg := (hfresh true (setWay (wayLoc w set i) { y with off := false } s)).good (wayLoc w set i) (by rw [wayAt_setWay]; exact ⟨rfl, hr⟩)
      rw [hr]
      exact ⟨hs.trans (hfresh true _), hg⟩
  · have h1 : (y.runs != 0) = true := by simp; omega
    have h2 : (y.off && y.runs == 0) = false := by simp; omega
    rw [h1, h2]
    have hs : Scrubbed s (setWay (wayLoc w set i) { y with runs := 0, off := false } s) := scrubbed_setWay (by rw [wayCore, hy]) rfl rfl
    have hg := (hfresh y.off (setWay (wayLoc w set i) { y with runs := 0, off := false } s)).good (wayLoc w set i)
      (by rw [wayAt_setWay]; exact ⟨rfl, rfl⟩)
    exact ⟨hs.trans (hfresh y.off _), hg⟩

theorem scrubWays_scrubbed (is : List Nat) : Scrubbed s (forEach is (scrubWay w set []) s)
    ∧ ∀ i ∈ is, (wayAt (forEach is (scrubWay w set []) s) (wayLoc w set i)).off = false
      ∧ (wayAt (forEach is (scrubWay w set []) s) (wayLoc w set i)).runs = 0 := by
  induction is generalizing s with
  | nil => exact ⟨Scrubbed.refl s, by simp⟩
  | cons i is ih =>
    obtain ⟨h1, h2⟩ := scrubWay_scrubbed (s := s) (w := w) (set := set) i
    obtain ⟨k1, k2⟩ := ih (s := scrubWay w set [] i s)
    rw [forEach_cons]
    refine ⟨h1.trans k1, fun j hj => ?_⟩
    rcases List.mem_cons.1 hj with rfl | hj
    · exact k1.good _ h2
    · exact k2 j hj

/-! ### Patrol and checkpoints -/

theorem patrolAdvance_spec (s : State) : (patrolAdvance s).med = { s.med with patrol := patrolNext s } ∧ keptBut s (patrolAdvance s) [.med, .regs]
    ∧ regsKept s (patrolAdvance s) [(F.HUB_PATROL_POS_PASSES, 0), (F.HUB_PATROL_POS_REGION, 0), (F.HUB_PATROL_POS_PCT, 0)] := by
  refine ⟨?_, by simp, by simp [patrolAdvance, placePatrol]⟩
  unfold patrolAdvance
  dsimp only
  generalize ((patrolNext s).visited == 0) = b
  cases b <;> rfl

/-- A checkpoint begins: its slot, its kind and number, no seal yet; nothing else of the media moves. -/
theorem writeCkpt_spec (kind area : Nat) (s : State) : (ckptAt (writeCkpt kind area s) (ckptSlot s kind)).kind = kind
    ∧ (ckptAt (writeCkpt kind area s) (ckptSlot s kind)).seq = s.med.ckptSeq ∧ (ckptAt (writeCkpt kind area s) (ckptSlot s kind)).sealed = false
    ∧ (writeCkpt kind area s).med.ckptNow.map (·.slot) = some (ckptSlot s kind)
    ∧ (writeCkpt kind area s).med = { s.med with ckpts := (writeCkpt kind area s).med.ckpts, ckptNow := (writeCkpt kind area s).med.ckptNow } := by
  have hat : ∀ c : Ckpt, ∀ x, ckptAt (onMed (fun m => { m with ckpts := tabSet ckptReset (ckptSlot s kind) c m.ckpts, ckptNow := x }) s)
      (ckptSlot s kind) = c :=
    fun c x => tabGet_tabSet_same ..
  unfold writeCkpt
  dsimp only
  refine ⟨by rw [hat], by rw [hat], by rw [hat], rfl, rfl⟩

/-! ### Windows of the bus -/

theorem busFree_useBus (w len : Nat) : busFree (useBus w 6 s) w len = false := by
  have h : tabGet 0 (useBus w 6 s).sched.busUntil w = s.gtc + 6 := by
    rw [useBus, onSched_sched]
    dsimp only
    exact tabGet_tabSet_same ..
  rw [busFree, h]
  exact Bool.and_eq_false_iff.2 (.inl (decide_eq_false (by show ¬ s.gtc + 6 ≤ s.gtc; omega)))

theorem busFree_of_sched (h : t.sched = s.sched) (hg : t.gtc = s.gtc) (w len : Nat) : busFree t w len = busFree s w len := by
  rw [busFree, busFree, windowsOf, windowsOf, h, hg]

/-- While the bus is busy everything waits on, in order. -/
theorem forEach_sendWait_busy (h : busFree s w 6 = false) (xs : List DieWait) (hx : ∀ x ∈ xs, x.w = w) :
    forEach xs sendWait s = onMed (fun m => { m with dieWait := m.dieWait ++ xs }) s := by
  induction xs generalizing s with
  | nil => simp [forEach, onMed]
  | cons x xs ih =>
    have he : sendWait x s = onMed (fun m => { m with dieWait := m.dieWait ++ [x] }) s := by
      rw [sendWait, hx x (List.mem_cons_self ..), h]
      rfl
    rw [forEach_cons, he, ih (by rw [busFree_of_sched (onMed_sched ..) (onMed_gtc ..), h]) (fun y hy => hx y (List.mem_cons_of_mem _ hy))]
    simp [onMed, List.append_assoc]

/-- A REFLOAD that has its window. -/
theorem sendWait_free (h : busFree s w 6 = true) (d b : Nat) : sendWait ⟨w, d, some b⟩ s = sendReload w d b (useBus w 6 s) := by
  rw [sendWait, h]
  rfl

theorem sendWait_free_die (h : busFree s w 6 = true) (d : Nat) : sendWait ⟨w, d, none⟩ s = sendDie 11 w d 0 0 0 (useBus w 6 s) := by
  rw [sendWait, h]
  rfl

end

/-! ### Temperatures -/

/-- What a die's temperature shows, before its band is followed. -/
def temperatureSeen (w : Wheel) (d : Die) (c : Int) (s : State) : State :=
  let s1 := onMed (fun m => { m with temps := tabSet 0 (w.val * 8 + d.val) c m.temps }) s
  s1 |> fput F.MMBn_TEMP_MAX_C w.val ((hottest s1 w.val).1 % 256).toNat |> fput F.MMBn_TEMP_MAX_DIE w.val (hottest s1 w.val).2

section
variable {s t : State} {w : Wheel} {d : Die} {c : Int}

theorem temperatureRead_eq (h : coreOn s = true) :
    temperatureRead w d c s = followBand w.val d.val (dieBand s w.val d.val) (newBand (dieBand s w.val d.val) c) (temperatureSeen w d c s) := by
  rw [temperatureRead, h, if_pos rfl]
  rfl

theorem temperatureSeen_med : (temperatureSeen w d c s).med = { s.med with temps := tabSet 0 (w.val * 8 + d.val) c s.med.temps } := rfl

theorem temperatureSeen_temp (h : t.med.temps = (temperatureSeen w d c s).med.temps) : tabGet 0 t.med.temps (w.val * 8 + d.val) = c := by
  rw [h, temperatureSeen_med]
  exact tabGet_tabSet_same ..

theorem sendWaits_temps (s : State) : (sendWaits s).med.temps = s.med.temps := by
  have hone : ∀ (x : DieWait) (u : State), u.med.temps = s.med.temps → (sendWait x u).med.temps = s.med.temps := fun x u hu => by
    rw [sendWait]
    split
    · rcases x with ⟨xw, xd, _ | b⟩
      · exact hu
      · exact hu
    · exact hu
  exact forEach_induct (P := fun u => u.med.temps = s.med.temps) hone s.med.dieWait rfl

/-- With nothing else waiting, only the new band's sets wait. -/
theorem followBand_alone {b b' : Nat} (hb : b' ≠ b) (hnil : s.med.dieWait = []) (x y : Nat) :
    followBand x y b b' s = sendWait ⟨x, y, some b'⟩ (onMed (fun m => { m with dieWait := [] }) s) := by
  have hw : (wantReload x y b' s).med.dieWait = [⟨x, y, some b'⟩] := by
    rw [wantReload, onMed_med, hnil]
    rfl
  rw [followBand, if_neg hb, sendWaits, hw, forEach_cons, forEach_nil]
  rfl

end

/-- Settles O27: each due by its command; the windows of the bus decide what is sent now. -/
theorem periodicMediaWorkCompletes : Obligations.PeriodicMediaWorkCompletes := by
  unfold Obligations.PeriodicMediaWorkCompletes
  intro s w hg hin hcore hw set p
  have hm : s.mode ≠ .off := by
    intro h
    rw [inService, h] at hin
    exact absurd hin (by decide)
  have hin' : inService (stampNow s) = true := hin
  have hcond : fon s F.HUB_PATROL_CFG_EN 0 = true → w.val = p.wheel → p.visit = none → (inService (stampNow s) && fon (stampNow s) F.HUB_PATROL_CFG_EN 0
      && decide (w.val = (stampNow s).med.patrol.wheel) && (stampNow s).med.patrol.visit.isNone) = true := fun h1 h2 h3 => by
    rw [hin', show fon (stampNow s) F.HUB_PATROL_CFG_EN 0 = true from h1, decide_eq_true (show w.val = (stampNow s).med.patrol.wheel from h2),
      show (stampNow s).med.patrol.visit = none from h3]
    rfl
  refine ⟨fun hdr => ?scrub, fun x hen hwh hv => ⟨fun hskip => ?visit, fun hskip => ?skip⟩, fun d c => ?temp, fun hnil => ?dqs, fun hbusy => ?ckpt⟩
  case scrub =>
    have he : scrubVisit w [] (stampNow s) = (forEach (List.range 16) (scrubWay w.val set []) (stampNow s) |> relock w.val set
        |> onCache (fun c => { c with scrubSet := tabSet 0 w.val ((set + 1) % 4096) c.scrubSet })) := by
      have hd : draining (stampNow s) = false := hdr
      rw [scrubVisit, hd, hin', if_neg Bool.false_ne_true, if_pos rfl]
      rfl
    obtain ⟨h1, h2⟩ := scrubWays_scrubbed (s := stampNow s) (w := w.val) (set := set) (List.range 16)
    generalize forEach (List.range 16) (scrubWay w.val set []) (stampNow s) = u at *
    have hk : keptBut u (relock w.val set u) [.regs, .sched] := by simp
    have hc : (relock w.val set u).cache = u.cache := agree_of_kept hk .cache
    have hmed : (relock w.val set u).med = s.med := (agree_of_kept hk .med).trans (agree_of_kept h1.kept .med)
    generalize relock w.val set u = v at *
    have hways : ∀ n, wayAt (settle s (onCache (fun c => { c with scrubSet := tabSet 0 w.val ((set + 1) % 4096) c.scrubSet }) v)) n = wayAt u n := fun n => by
      rw [wayAt, settle_cache, onCache_cache, wayAt, hc]
    refine ⟨_, (onWheel_of_ok hw _).trans (run_of_effect he), ?_, fun i hi => ?_, fun loc => ?_, ?_, ?_, ?_⟩
    · rw [settle_cache, onCache_cache]
      exact tabGet_tabSet_same ..
    · rw [hways]
      exact h2 i (List.mem_range.2 hi)
    · rw [hways]
      exact h1.core loc
    · rw [settle_cache, onCache_cache, hc]
      exact h1.dir
    · rw [settle_cache, onCache_cache, hc]
      exact h1.ovf
    · rw [settle_med, onCache_med, hmed]
  case visit =>
    obtain ⟨hv1, hv2, -⟩ := advanced_spec hg hm x
    refine (onWheel_of_ok hw _).trans (run_of_effect_at (laterOf_lt hg x) ?_)
    rw [patrolStep, hcond hen hwh hv, if_pos rfl]
    dsimp only
    rw [show patrolSkips (advanceTo x (stampNow s)) (stampNow s).med.patrol.region (stampNow s).med.patrol.slot = false from hskip,
      if_neg Bool.false_ne_true, advanceTo_of_on (s := stampNow s) hm]
    rfl
  case skip =>
    obtain ⟨hv1, hv2, hk⟩ := advanced_spec hg hm x
    have he : patrolStep w x (stampNow s) = patrolAdvance (advanceTo x (stampNow s)) := by
      rw [patrolStep, hcond hen hwh hv, if_pos rfl]
      exact if_pos hskip
    have hnext : patrolNext (advanceTo x (stampNow s)) = patrolNext s := rfl
    obtain ⟨p1, p2, p3⟩ := patrolAdvance_spec (advanceTo x (stampNow s))
    generalize advanceTo x (stampNow s) = v at *
    refine ⟨_, (onWheel_of_ok hw _).trans (run_of_effect he), ?_, ?_, keptBut_settle_gtc (keptBut_trans (keptBut_mono hk (by simp))
      (keptBut_mono p2 (by simp))), ?_⟩
    · rw [settle_med, p1, hnext, agree_of_kept hk .med]
    · rw [settle_gtc, agree_of_kept p2 .gtc, hv2]
    · rw [regsKept_iff_of_regs (settle_regs ..)]
      exact regsKept_trans (regsKept_of_kept hk) p3
  case temp =>
    have he := temperatureRead_eq (s := stampNow s) (w := w) (d := d) (c := c) hcore
    have hu : keptBut (stampNow s) (temperatureSeen w d c (stampNow s)) [.med, .regs] := by simp [temperatureSeen]
    have huw : (temperatureSeen w d c (stampNow s)).med.dieWait = s.med.dieWait := rfl
    have hseen : ∀ t : State, t.med.temps = (temperatureSeen w d c (stampNow s)).med.temps → tabGet 0 t.med.temps (w.val * 8 + d.val) = c :=
      fun t => temperatureSeen_temp
    have hbytes : ∀ b, reloadBytes (useBus w.val 6 (onMed (fun m => { m with dieWait := [] }) (temperatureSeen w d c (stampNow s)))) w.val d.val b
        = reloadBytes s w.val d.val b := fun _ => rfl
    have hbus : busFree (onMed (fun m => { m with dieWait := [] }) (temperatureSeen w d c (stampNow s))) w.val 6 = busFree s w.val 6 := rfl
    have hout : (temperatureSeen w d c (stampNow s)).outbox = s.outbox := agree_of_kept hu .outbox
    have hband : dieBand (stampNow s) w.val d.val = dieBand s w.val d.val := rfl
    rw [hband] at he
    generalize temperatureSeen w d c (stampNow s) = u at *
    intro b free
    have hb : newBand (dieBand s w.val d.val) c = b := rfl
    rw [hb] at he
    refine ⟨_, (onWheel_of_ok hw _).trans (run_of_effect he), ?_, fun h => ?_, fun hne hnil hf => ?_, fun hne hnil hf => ?_, ?_⟩
    · rw [settle_med]
      refine hseen _ ?_
      rw [followBand]
      split
      · rfl
      · exact sendWaits_temps _
    · rw [settle_outbox, followBand, if_pos h]
      exact hout
    · have hfree : busFree (onMed (fun m => { m with dieWait := [] }) u) w.val 6 = true := hbus.trans hf
      rw [followBand_alone hne (huw.trans hnil), sendWait_free hfree]
      refine ⟨sealPacket { op := 9, bank := 0, row := 0, line := 0, tag := 0, band := b, sl := false, id := dieId 9 0, arg := 0, crc := 0 }, rfl, rfl, rfl, ?_⟩
      have hne : (reloadBytes s w.val d.val b).isEmpty = false := rfl
      have h : ∀ v, (sendReload w.val d.val b v).outbox = (sendPacket w.val d.val
          { op := 9, bank := 0, row := 0, line := 0, tag := 0, band := b, sl := false, id := dieId 9 0, arg := 0, crc := 0 }
          (reloadBytes v w.val d.val b) v).outbox := fun v => rfl
      rw [settle_outbox, h, sendPacket_outbox, hbytes, hne, if_neg Bool.false_ne_true]
      exact congrArg (· ++ _) hout
    · have hfree : busFree (onMed (fun m => { m with dieWait := [] }) u) w.val 6 = false := hbus.trans hf
      have h := forEach_sendWait_busy hfree [⟨w.val, d.val, some b⟩] (fun x hx => by rw [List.mem_singleton.1 hx])
      rw [forEach_cons, forEach_nil] at h
      rw [followBand_alone hne (huw.trans hnil), h]
      exact ⟨hout, rfl⟩
    · exact keptBut_of_effect hg (keptBut_trans (keptBut_mono hu (by simp)) (by simp))
  case dqs =>
    have he : dqsTrack w (stampNow s) = forEach ((List.range 8).map (fun d => ⟨w.val, d, none⟩)) sendWait
        (onMed (fun m => { m with dieWait := [] }) (stampNow s)) := by
      have hwait : (stampNow s).med.dieWait = [] := hnil
      rw [dqsTrack, hin', if_pos rfl, sendWaits, onMed_med, hwait]
      rfl
    have hall : ∀ f : Nat → DieWait, (List.range 8).map f = f 0 :: (List.range 7).map (fun d => f (d + 1)) := fun _ => rfl
    have hbus : busFree (onMed (fun m => { m with dieWait := [] }) (stampNow s)) w.val 6 = busFree s w.val 6 := rfl
    have hkept : keptBut (stampNow s) (onMed (fun m => { m with dieWait := [] }) (stampNow s)) [.med] := by simp
    have hnone : (onMed (fun m => { m with dieWait := [] }) (stampNow s)).med.dieWait = [] := rfl
    generalize onMed (fun m => { m with dieWait := [] }) (stampNow s) = u at *
    have hw' : ∀ {n : Nat} {f : Nat → Nat}, ∀ x ∈ (List.range n).map (fun d => (⟨w.val, f d, none⟩ : DieWait)), x.w = w.val := by
      rintro n f x hx
      obtain ⟨d, -, rfl⟩ := List.mem_map.1 hx
      rfl
    refine ⟨_, (onWheel_of_ok hw _).trans (run_of_effect he), fun hf => ?_, fun hf => ?_, ?_⟩
    · have hbusy : busFree (sendDie 11 w.val 0 0 0 0 (useBus w.val 6 u)) w.val 6 = false :=
        (busFree_of_sched (s := useBus w.val 6 u) (by simp [sendDie, sendPacket]) (by simp [sendDie, sendPacket]) _ _).trans (busFree_useBus _ _)
      rw [hall, forEach_cons, sendWait_free_die (hbus.trans hf), forEach_sendWait_busy hbusy _ hw']
      refine ⟨⟨sealPacket { op := 11, bank := 0, row := 0, line := 0, tag := 0, band := 0, sl := false, id := dieId 11 0, arg := 0, crc := 0 },
        ?_, rfl⟩, ?_⟩
      · rw [settle_outbox, onMed_outbox, sendDie, sendPacket_outbox]
        exact congrArg (· ++ _) (agree_of_kept hkept .outbox)
      · rw [settle_med, onMed_med]
        exact congrArg (· ++ _) hnone
    · rw [forEach_sendWait_busy (hbus.trans hf) _ hw']
      refine ⟨agree_of_kept hkept .outbox, ?_⟩
      rw [settle_med, onMed_med]
      exact congrArg (· ++ _) hnone
    · have hone : ∀ d v, keptBut v (sendWait ⟨w.val, d, none⟩ v) [.stamp, .med, .sched, .outbox] := fun d v => by simp [sendWait, sendDie, sendPacket]
      have hsend := forEach_induct (P := fun v => keptBut u v [.stamp, .med, .sched, .outbox]) (fun d v h => keptBut_trans h (hone d v))
        (List.range 8)
        (keptBut_refl u _)
      rw [forEach, ← List.foldl_map (f := fun d => (⟨w.val, d, none⟩ : DieWait)) (g := fun v x => sendWait x v)] at hsend
      exact keptBut_of_effect hg (keptBut_trans (keptBut_mono hkept (by simp)) hsend)
  case ckpt =>
    have he : checkpointDue (stampNow s) = writeCkpt 1 255 (takeCkptSeq (onMed (fun m => { m with ckptDue := false }) (dueCkpt (stampNow s)))) := by
      have hc : ((dueCkpt (stampNow s)).med.ckptDue && inService (dueCkpt (stampNow s)) && !ckptBusy (dueCkpt (stampNow s))) = true := by
        rw [show inService (dueCkpt (stampNow s)) = true from hin, show ckptBusy (dueCkpt (stampNow s)) = false from hbusy]
        rfl
      rw [checkpointDue, hin', if_pos rfl, serviceCkpt, hc, if_pos rfl]
    have hk : ∀ (a : Nat) (u : State), keptBut u (ctrUpdate ctrCkpt a u) [.sbg] := fun a u => by simp
    have hmed : (takeCkptSeq (onMed (fun m => { m with ckptDue := false }) (dueCkpt (stampNow s)))).med
        = { s.med with ckptDue := false, ckptSeq := s.med.ckptSeq + 1 } := agree_of_kept (hk _ _) .med
    have hku : keptBut s (takeCkptSeq (onMed (fun m => { m with ckptDue := false }) (dueCkpt (stampNow s)))) [.med, .sbg, .stamp] := by simp
    generalize takeCkptSeq (onMed (fun m => { m with ckptDue := false }) (dueCkpt (stampNow s))) = u at *
    have hslot : ckptSlot u 1 = ckptSlot s 1 := by
      have hat : ∀ i, ckptAt u i = ckptAt s i := fun i => by rw [ckptAt, ckptAt, hmed]
      simp only [ckptSlot, hat]
    obtain ⟨w1, w2, w3, w4, w5⟩ := writeCkpt_spec 1 255 u
    have hkw : ∀ u, keptBut u (writeCkpt 1 255 u) [.med] := fun u => by simp
    refine ⟨_, run_of_effect he, ?_, ?_, ?_, ?_, ?_, ?_, ?_, ?_, ?_⟩
    · rw [settle_med, w5, hmed]
    · rw [settle_med, w5, hmed]
    · rw [ckptAt, settle_med, ← ckptAt, ← hslot, w1]
    · rw [ckptAt, settle_med, ← ckptAt, ← hslot, w2, hmed]
    · rw [ckptAt, settle_med, ← ckptAt, ← hslot, w3]
    · rw [settle_med, ← hslot, w4]
    · rw [settle_med, w5, hmed]
    · exact (agree_of_kept (hkw u) .cache).trans (agree_of_kept hku .cache)
    · exact (agree_of_kept (hkw u) .mode).trans (agree_of_kept hku .mode)

end Sys2Proof.Machine
end

section
/-! PROOF. What TAGCLR and TAGAGE leave of the media, and an epoch's advance (R158, R161, R164, R168). -/
namespace Sys2Proof.Machine

set_option Elab.async false

section
variable {s t u : State}

/-! ### Lines that a clear removes -/

theorem mlineAt_tabFilter {p : Nat → Bool} (h : t.med.lines = tabFilter p s.med.lines) (ma : Nat) :
    mlineAt t ma = if p ma then mlineAt s ma else none := by
  have hmap : ∀ l : Tab MLine, (tabFilter p l).map (fun x => (x.1, some x.2)) = tabFilter p (l.map (fun x => (x.1, some x.2))) := fun l => by
    induction l with
    | nil => rfl
    | cons x l ih =>
      rw [List.map_cons, tabFilter, tabFilter]
      split
      · rw [List.map_cons, ih]
      · exact ih
  rw [mlineAt, h, hmap, tabGet_tabFilter, mlineAt]

/-- Lines of the rows or dies that the filter takes out are unwritten, the others are as they were. -/
theorem mlineAt_cleared {p : Nat → Bool} (h : t.med.lines = tabFilter p s.med.lines) :
    (∀ ma, p ma = false → mlineAt t ma = none) ∧ ∀ ma, p ma = true → mlineAt t ma = mlineAt s ma :=
  ⟨fun ma hp => by rw [mlineAt_tabFilter h, hp]; rfl, fun ma hp => by rw [mlineAt_tabFilter h, hp]; rfl⟩

/-! ### The clears -/

theorem clrDone_spec (e : Nat) : (clrDone e s).med.lines = s.med.lines ∧ (clrDone e s).med.tags = s.med.tags
    ∧ tabGet 0 (clrDone e s).med.clrLeft e = tabGet 0 s.med.clrLeft e - 1 ∧ keptBut s (clrDone e s) [.med] := by
  rw [clrDone]
  split
  next h => exact ⟨rfl, rfl, by rw [h]; exact tabGet_tabDel_same .., by simp⟩
  next => exact ⟨rfl, rfl, tabGet_tabPut_same .., by simp⟩

/-- No operation of the mailbox ends while dies are still to be cleared. -/
theorem eraseEnd_of_dies (h : s.med.clrDies ≠ []) : eraseEnd s = s := by
  have hd : s.med.clrDies.isEmpty = false := List.isEmpty_eq_false_iff.2 h
  rw [eraseEnd]
  cases s.mbx.bg with
  | none => rfl
  | some b =>
    dsimp only
    rw [hd, Bool.and_false, Bool.false_and, if_neg Bool.false_ne_true]

/-! ### The end of a TAGAGE -/

/-- What the end of a bank's TAGAGE looks at: the lines, the epoch and the values whose TAGAGE remains. -/
def agingView (s : State) : List (Nat × MLine) × Nat × Option Nat × NSet := (s.med.lines, s.med.pe, s.med.aging, s.med.agingLeft)

theorem learn_aging (w d b k i : Nat) (a : Bool) : agingView (learn w d b k i a s) = agingView s
    ∧ fget (learn w d b k i a s) F.HUB_EPOCH_AGING 0 = fget s F.HUB_EPOCH_AGING 0 := by
  have hw : ∀ (c : Bool) (u : State), agingView (when c (wantReload w d b) u) = agingView u
      ∧ fget (when c (wantReload w d b) u) F.HUB_EPOCH_AGING 0 = fget u F.HUB_EPOCH_AGING 0 := fun c u => by cases c <;> exact ⟨rfl, rfl⟩
  have hc : ∀ (c : Bool) (u : State), agingView (when c (fset F.HUB_EPOCH_CLAMPED 0) u) = agingView u
      ∧ fget (when c (fset F.HUB_EPOCH_CLAMPED 0) u) F.HUB_EPOCH_AGING 0 = fget u F.HUB_EPOCH_AGING 0 := fun c u => by
    cases c
    · exact ⟨rfl, rfl⟩
    · exact ⟨rfl, fget_fset_other _ _ _ _ _ (by decide)⟩
  rw [learn]
  dsimp only
  split
  · exact ⟨(hw _ _).1.trans (hc _ _).1, (hw _ _).2.trans (hc _ _).2⟩
  · exact ⟨rfl, rfl⟩

theorem learnAll_aging (s : State) : agingView (learnAll s) = agingView s ∧ fget (learnAll s) F.HUB_EPOCH_AGING 0 = fget s F.HUB_EPOCH_AGING 0 :=
  forEach_induct (P := fun u => agingView u = agingView s ∧ fget u F.HUB_EPOCH_AGING 0 = fget s F.HUB_EPOCH_AGING 0)
    (fun _ _ h => ⟨(learn_aging ..).1.trans h.1, (learn_aging ..).2.trans h.2⟩) s.med.drift ⟨rfl, rfl⟩

/-- The next epoch is shown, stored and no longer awaited. -/
def epochTaken (s : State) : State :=
  s |> onMed (fun m => { m with pe := (s.med.pe + 1) % 2 ^ 32, aging := none }) |> fput F.HUB_EPOCH_PE 0 ((s.med.pe + 1) % 2 ^ 32)
    |> fclr F.HUB_EPOCH_AGING 0 |> ctrUpdate ctrEpoch ((s.med.pe + 1) % 2 ^ 32)

theorem epochTaken_aging (s : State) : agingView (epochTaken s) = (s.med.lines, (s.med.pe + 1) % 2 ^ 32, none, s.med.agingLeft)
    ∧ fget (epochTaken s) F.HUB_EPOCH_AGING 0 = 0 := by
  have hk : ∀ (n : Nat) (u : State), keptBut u (ctrUpdate ctrEpoch n u) [.sbg] := fun n u => by simp
  rw [epochTaken, agingView, agree_of_kept (hk _ _) .med, fget_of_kept (hk _ _)]
  exact ⟨rfl, fget_fput_same ..⟩

theorem agingDone_of_aging {a : Nat} (hr : (decide (s.mode = .recover) && decide (s.life.step = .sweep)) = false) (ha : s.med.aging = some a) :
    agingDone s = learnAll (epochTaken s) := by
  rw [agingDone, hr, if_neg Bool.false_ne_true, ha]
  rfl

theorem agingDone_keeps (s : State) : (agingDone s).med.lines = s.med.lines ∧ (agingDone s).med.agingLeft = s.med.agingLeft := by
  have hmed : ∀ {u : State}, u.med = s.med → u.med.lines = s.med.lines ∧ u.med.agingLeft = s.med.agingLeft := fun h => by rw [h]; exact ⟨rfl, rfl⟩
  cases hr : (decide (s.mode = .recover) && decide (s.life.step = .sweep))
  · cases ha : s.med.aging with
    | none =>
      refine hmed ?_
      rw [agingDone, hr, if_neg Bool.false_ne_true, ha]
      rfl
    | some a =>
      rw [agingDone_of_aging hr ha]
      have h := (learnAll_aging (epochTaken s)).1.trans (epochTaken_aging s).1
      exact ⟨congrArg (fun x => x.1) h, congrArg (fun x => x.2.2.2) h⟩
  · rw [agingDone, hr, if_pos rfl]
    exact hmed (agree_of_kept (ps := [.regs, .life, .sbg]) (by simp) .med)

/-- The epoch advances. -/
theorem agingDone_advances {a : Nat} (hm : s.mode ≠ .recover) (ha : s.med.aging = some a) : (agingDone s).med.pe = (s.med.pe + 1) % 2 ^ 32
    ∧ (agingDone s).med.aging = none ∧ fget (agingDone s) F.HUB_EPOCH_AGING 0 = 0 := by
  rw [agingDone_of_aging (by rw [decide_eq_false hm]; rfl) ha]
  obtain ⟨h1, h2⟩ := learnAll_aging (epochTaken s)
  obtain ⟨k1, k2⟩ := epochTaken_aging s
  exact ⟨congrArg (fun x => x.2.1) (h1.trans k1), congrArg (fun x => x.2.2.1) (h1.trans k1), h2.trans k2⟩

/-! ### TAGAGE to every bank -/

/-- AGING shows, and a TAGAGE of the value remains for every bank. -/
def ageAsked (v : Nat) (s : State) : State :=
  s |> onMed (fun m => { m with aging := some v, agingLeft := (List.range (Config.banks s.config)).map (fun n => n * 8 + v) })
      |> fset F.HUB_EPOCH_AGING 0

theorem epochAdvance_eq {pe : Nat} (hp : s.med.pe = pe) (h : (inService s && s.med.aging.isNone && s.med.agingLeft.isEmpty) = true) : epochAdvance s
    = forEach (List.range (Config.banks s.config)) (fun n s => sendDie 8 (bankWheel n) (bankDie n) (bankInDie n) 0 ((pe + 1) % 8) s)
        (ageAsked ((s.med.pe + 1) % 8) s) := by
  subst hp
  rw [epochAdvance, h, if_pos rfl]
  rfl

/-- A packet to each bank of the list, in order. -/
theorem forEach_sendDie_outbox (op v : Nat) (ns : List Nat) (s : State) :
    (forEach ns (fun n s => sendDie op (bankWheel n) (bankDie n) (bankInDie n) 0 v s) s).outbox
      = s.outbox ++ ns.map (fun n => .packet (bankWheel n) (bankDie n)
          (sealPacket { op := op, bank := bankInDie n, row := 0, line := 0, tag := 0, band := 0, sl := false, id := dieId op v, arg := v, crc := 0 })) := by
  induction ns generalizing s with
  | nil => simp [forEach]
  | cons n ns ih =>
    rw [forEach_cons, ih, sendDie, sendPacket_outbox, show ([] : List Byte).isEmpty = true from rfl, if_pos rfl]
    simp [List.append_assoc]

end

/-- Settles O26: the frame's identifier picks the operation; what each takes out of the media is one filter. -/
theorem tagOperationsClearAndAge : Obligations.TagOperationsClearAndAge := by
  unfold Obligations.TagOperationsClearAndAge
  refine ⟨fun s f hg hw hgood => ?_, fun s hg hin ha hl => ?_⟩
  · intro n id k
    have hbad : (!frameGood 5 f) = false := by rw [hgood]; rfl
    refine ⟨fun d e hid hop hkind => ?_, fun hid hhas hleft => ?_, fun v hv hid hhas => ?_⟩
    · have hid' : f.id.toNat = 7 := hid
      have he : tagDone f (stampNow s) = gates (clrDone e (clearRow d.ma (onBank n (fun b => { b with tagop := none }) (stampNow s)))) := by
        have h7 : f.id.toNat = cmdId 7 .tagClrSpare := hid'
        have hop' : (bankSt (stampNow s) (frameBank f)).tagop = some d := hop
        rw [tagDone, hbad, if_neg Bool.false_ne_true, if_pos h7, clrOpDone, hop']
        simp only [hkind]
        rfl
      have hcl : keptBut (stampNow s) (clearRow d.ma (onBank n (fun b => { b with tagop := none }) (stampNow s))) [.sched, .med] := by simp
      obtain ⟨h1, h2, h3, h4⟩ := clrDone_spec (s := clearRow d.ma (onBank n (fun b => { b with tagop := none }) (stampNow s))) e
      refine ⟨clrDone e (clearRow d.ma (onBank n (fun b => { b with tagop := none }) (stampNow s))), (onWheel_of_ok hw _).trans (run_of_effect he),
        fun ma hma => ?_, fun ma hma => ?_, ?_, ?_, h3, ?_, ?_⟩
      · exact (mlineAt_cleared (s := s) h1).1 ma (by simp [hma])
      · exact (mlineAt_cleared (s := s) h1).2 ma (by simp [hma])
      · rw [h2]
        exact tabGet_tabSet_same tagReset tagReset (d.ma / 16) s.med.tags
      · rw [bankSt, agree_of_kept h4 .sched]
        exact congrArg BankSt.tagop (tabGet_tabSet_same ..)
      · exact keptBut_trans (by simp) (keptBut_mono h4 (by simp))
      · rw [agree_of_kept h4 .sched]
        rfl
    · have hid' : f.id.toNat = 23 := hid
      have hhas' : nsHas (f.w.val * 8 + f.d.val) (stampNow s).med.clrDies = true := hhas
      have he : tagDone f (stampNow s) = dieCleared f.w.val f.d.val (stampNow s) := by
        have h7 : ¬ f.id.toNat = cmdId 7 .tagClrSpare := by rw [hid']; decide
        have h23 : f.id.toNat = dieId 7 255 := hid'
        rw [tagDone, hbad, if_neg Bool.false_ne_true, if_neg h7, if_pos h23, hhas', if_pos rfl]
        exact eraseEnd_of_dies hleft
      refine ⟨_, (onWheel_of_ok hw _).trans (run_of_effect he), rfl, fun ma hma => ?_, fun ma hma => ?_, keptBut_of_effect hg (by simp)⟩
      · exact (mlineAt_cleared (s := s) rfl).1 ma (by simpa using hma)
      · exact (mlineAt_cleared (s := s) rfl).2 ma (by simpa using hma)
    · have hid' : f.id.toNat = 8 + v := hid
      have hhas' : nsHas (n * 8 + v) (stampNow s).med.agingLeft = true := hhas
      have he : tagDone f (stampNow s) = ageDone n v (stampNow s) := by
        have h7 : ¬ f.id.toNat = cmdId 7 .tagClrSpare := by
          show ¬ f.id.toNat = 7
          omega
        have h23 : ¬ f.id.toNat = dieId 7 255 := by
          show ¬ f.id.toNat = 23
          omega
        have h8 : (decide (8 ≤ f.id.toNat) && decide (f.id.toNat < 16)) = true := by simp; omega
        rw [tagDone, hbad, if_neg Bool.false_ne_true, if_neg h7, if_neg h23, h8, if_pos rfl, hid', Nat.add_sub_cancel_left]
      rw [ageDone, hhas', if_pos rfl] at he
      dsimp only at he
      have hs1 : keptBut (stampNow s) (onMed (fun m => { m with agingLeft := nsDel (n * 8 + v) m.agingLeft })
        (settleTags n v (stampNow s))) [.med] := by simp
      have hmed : agingView (onMed (fun m => { m with agingLeft := nsDel (n * 8 + v) m.agingLeft }) (settleTags n v (stampNow s)))
          = (s.med.lines, s.med.pe, s.med.aging, nsDel (n * 8 + v) s.med.agingLeft) := rfl
      generalize onMed (fun m => { m with agingLeft := nsDel (n * 8 + v) m.agingLeft }) (settleTags n v (stampNow s)) = u at *
      obtain ⟨hlines, hpe, haging, hleft⟩ : u.med.lines = s.med.lines ∧ u.med.pe = s.med.pe ∧ u.med.aging = s.med.aging
          ∧ u.med.agingLeft = nsDel (n * 8 + v) s.med.agingLeft := by simpa [agingView] using hmed
      by_cases hlast : nsDel (n * 8 + v) s.med.agingLeft = []
      · have hemp : u.med.agingLeft.isEmpty = true := by rw [hleft, hlast]; rfl
        rw [hemp, if_pos rfl] at he
        refine ⟨_, (onWheel_of_ok hw _).trans (run_of_effect he), ?_, ?_, fun h => absurd hlast h, fun a _ hm ha => ?_⟩
        · exact (agingDone_keeps u).2.trans hleft
        · exact (agingDone_keeps u).1.trans hlines
        · obtain ⟨k1, k2, k3⟩ := agingDone_advances (s := u) (by rwa [agree_of_kept hs1 .mode]) (haging.trans ha)
          exact ⟨k1.trans (by rw [hpe]), k2, k3⟩
      · have hemp : u.med.agingLeft.isEmpty = false := List.isEmpty_eq_false_iff.2 (by rwa [hleft])
        rw [hemp, if_neg Bool.false_ne_true] at he
        exact ⟨_, (onWheel_of_ok hw _).trans (run_of_effect he), hleft, hlines, fun _ => ⟨hpe, keptBut_of_effect hg (keptBut_mono hs1 (by simp))⟩,
          fun a h => absurd h hlast⟩
  · have hin' : (inService (stampNow s) && (stampNow s).med.aging.isNone && (stampNow s).med.agingLeft.isEmpty) = true := by
      rw [show inService (stampNow s) = true from hin, show (stampNow s).med.aging = none from ha, show (stampNow s).med.agingLeft = [] from hl]
      rfl
    have he := epochAdvance_eq (s := stampNow s) (pe := s.med.pe) rfl hin'
    have hout := forEach_sendDie_outbox 8 ((s.med.pe + 1) % 8) (List.range (Config.banks s.config)) (ageAsked ((s.med.pe + 1) % 8) (stampNow s))
    obtain ⟨-, hk, hmed⟩ := sent_forEach (s := ageAsked ((s.med.pe + 1) % 8) (stampNow s)) (k := 1)
      (f := fun n s' => sendDie 8 (bankWheel n) (bankDie n) (bankInDie n) 0 ((s.med.pe + 1) % 8) s') (fun _ _ => sent_sendDie ..)
      (List.range (Config.banks s.config))
    generalize hb : forEach (List.range (Config.banks s.config))
      (fun n s' => sendDie 8 (bankWheel n) (bankDie n) (bankInDie n) 0 ((s.med.pe + 1) % 8) s') (ageAsked ((s.med.pe + 1) % 8) (stampNow s)) = u at *
    replace he : epochAdvance (stampNow s) = u := he.trans hb
    replace hout : u.outbox = s.outbox ++ (List.range (Config.banks s.config)).map (fun n => .packet (bankWheel n) (bankDie n) (sealPacket
        { op := 8, bank := bankInDie n, row := 0, line := 0, tag := 0, band := 0, sl := false, id := dieId 8 ((s.med.pe + 1) % 8),
          arg := (s.med.pe + 1) % 8, crc := 0 })) := hout
    refine ⟨_, run_of_effect he, ?_, ?_, ?_, ?_, ?_, fun n hn => ?_, ?_, ?_, ?_⟩
    · rw [fget_settle, fget_of_kept hk]
      exact fget_fput_same ..
    · rw [settle_med, hmed]
      rfl
    · rw [settle_med, hmed]
      rfl
    · rw [settle_med, hmed]
      rfl
    · rw [settle_outbox, hout, List.length_append, List.length_map, List.length_range]
    · rw [settle_outbox, hout, List.getElem?_append_right (Nat.le_add_right ..), Nat.add_sub_cancel_left, List.getElem?_map,
        List.getElem?_range hn]
      exact ⟨_, rfl, rfl, rfl, rfl⟩
    · rw [regsKept_iff_of_regs (settle_regs ..)]
      exact regsKept_trans (by simp [ageAsked]) (regsKept_of_kept hk)
    · exact keptBut_of_effect hg (keptBut_trans (by simp [ageAsked]) (keptBut_mono hk (by simp)))
    · rw [settle_med, hmed]
      rfl

end Sys2Proof.Machine
end

section
/-! PROOF. What a program that verifies or fails leaves (R85, R96, R155, R176). -/
namespace Sys2Proof.Machine

set_option Elab.async false

section
variable {s t u : State} {d : Desc}

/-! ### Lines as programmed -/

/-- Of the line's placement and cached copy only the media's key is read of the media. -/
theorem locate_of_key (hc : t.config = s.config) (hm : t.med.key = s.med.key) (hk : t.cache = s.cache) (hr : t.regs = s.regs) (line : Nat) :
    locate t line = locate s line := by
  have hmed : locate t line = locate { t with med := s.med } line := by
    simp only [locate, setOf, wheelOf, wheelOfBank, placeOf, quot, hm]
    rfl
  exact hmed.trans (locate_of_cache (t := { t with med := s.med }) hc rfl hk (by rw [scratchSteps, scratchSteps, fget, fget, hr]) line)

theorem slotOfLine_of_med (hc : t.config = s.config) (hm : t.med = s.med) (line : Nat) : slotOfLine t line = slotOfLine s line := by
  cases s
  cases t
  subst hc hm
  rfl

theorem mlineAt_tabPut {ma : Nat} {m : MLine} (h : t.med.lines = tabPut ma m s.med.lines) : mlineAt t ma = some m
    ∧ ∀ k, k ≠ ma → mlineAt t k = mlineAt s k := by
  have hmap : ∀ l : Tab MLine, (tabPut ma m l).map (fun x => (x.1, some x.2)) = tabPut ma (some m) (l.map (fun x => (x.1, some x.2))) := fun l => by
    induction l with
    | nil => rfl
    | cons x l ih =>
      rw [List.map_cons, tabPut, tabPut]
      split
      · rfl
      · split
        · rfl
        · rw [List.map_cons, ih]
  have hat : ∀ k, mlineAt t k = tabGet none (tabPut ma (some m) (s.med.lines.map (fun x => (x.1, some x.2)))) k := fun k => by rw [mlineAt, h, hmap]
  exact ⟨(hat ma).trans (tabGet_tabPut_same ..), fun k hk => (hat k).trans (tabGet_tabPut_ne _ _ hk _)⟩

/-! ### What a bank's end of a program leaves -/

theorem countLife_med (w : Nat) : (countLife w s).med = { s.med with lifeCount := (countLife w s).med.lifeCount } := by
  have hk : ∀ (a n : Nat) (u : State), (ctrUpdate a n u).med = u.med := fun a n u => agree_of_kept (ps := [.sbg]) (by simp) .med
  rw [countLife]
  dsimp only
  cases (tabGet 0 s.med.lifeCount w + 1 == 1048576)
  · rfl
  · rw [when, if_pos rfl, hk]
    rfl

theorem programEnds_spec (n : Nat) : (bankSt (programEnds n d s) n).prog = none ∧ (∃ x, (programEnds n d s).med = { s.med with lifeCount := x })
    ∧ (programEnds n d s).sched = { s.sched with banks := (programEnds n d s).sched.banks } ∧ keptBut s (programEnds n d s) [.sched, .med, .sbg] := by
  have hs : (programEnds n d s).sched = (onBank n (fun b => { b with prog := none }) s).sched := by
    rw [programEnds]
    cases !d.sl
    · rfl
    · exact agree_of_kept (ps := [.med, .sbg]) (by simp) .sched
  refine ⟨?_, ?_, by rw [hs]; rfl, by simp⟩
  · rw [bankSt, hs]
    exact congrArg BankSt.prog (tabGet_tabSet_same ..)
  · rw [programEnds]
    cases !d.sl
    · exact ⟨_, rfl⟩
    · exact ⟨_, countLife_med _⟩

/-! ### The line of a home program -/

/-- What the end of a write-back keeps of what its line's program wrote. -/
structure Wrote (d : Desc) (s t : State) : Prop where
  lines : t.med.lines = tabPut d.ma (mlineFor d) s.med.lines
  tags : t.med.tags = tabSet tagReset (d.ma / 16) ⟨d.pe % 8, false⟩ s.med.tags
  banks : t.sched.banks = s.sched.banks

theorem homeProgram_wrote : Wrote d s (homeProgram d s) ∧ (homeProgram d s).med.key = s.med.key ∧ keptBut s (homeProgram d s) [.sched, .med] :=
  ⟨⟨rfl, rfl, rfl⟩, rfl, by simp⟩

theorem Wrote.line (h : Wrote d s t) : mlineAt t d.ma = some (mlineFor d) ∧ (∀ ma, ma ≠ d.ma → mlineAt t ma = mlineAt s ma)
    ∧ tabGet tagReset t.med.tags (d.ma / 16) = ⟨d.pe % 8, false⟩ := by
  obtain ⟨h1, h2⟩ := mlineAt_tabPut h.lines
  refine ⟨h1, h2, ?_⟩
  rw [h.tags]
  exact tabGet_tabSet_same ..

/-! ### The progress of a drain -/

/-- What the drain's progress leaves as it is. -/
def progressView (s : State) : Tab MLine × Tab RowTag × Tab BankSt × List Ctx × Cache :=
  (s.med.lines, s.med.tags, s.sched.banks, s.sched.ctxs, s.cache)

theorem enqueue_view (e : Desc) : progressView (enqueue e s) = progressView s := by
  rw [enqueue]
  cases roomFor s e.bank e.cls with
  | none => cases h : (e.cls == .background) <;> simp [when, progressView]
  | some sh => rfl

theorem feedWheelIndex_view (w n : Nat) (s : State) : progressView (feedWheelIndex w n s) = progressView s := by
  induction n generalizing s with
  | zero => rfl
  | succ n ih =>
    rw [feedWheelIndex]
    split
    · exact (ih _).trans (enqueue_view _)
    · rfl

theorem feedIndex_view : progressView (feedIndex s) = progressView s := by
  rw [feedIndex]
  split
  · exact forEach_induct (P := fun u => progressView u = progressView s) (fun w u h => (feedWheelIndex_view w _ u).trans h) _ rfl
  · rfl

theorem toRecording_view : progressView (toRecording s) = progressView s := by
  have hk : keptBut s (toRecording s) [.fw, .host, .rcd] := by simp
  rw [progressView, agree_of_kept hk .med, agree_of_kept hk .sched, agree_of_kept hk .cache]
  rfl

theorem writeCkpt_view (k a : Nat) : progressView (writeCkpt k a s) = progressView s := rfl

theorem fwProgress_view : progressView (fwProgress s) = progressView s := by
  rw [fwProgress]
  split
  · split
    · exact feedIndex_view
    · rfl
  · split
    · rfl
    · split
      · exact toRecording_view
      · split
        · rfl
        · rfl
  · rfl

/-! ### The end of a write-back -/

theorem endRelease_med (line : Nat) : (endRelease line s).med = { s.med with released := (endRelease line s).med.released } := by
  rw [endRelease]
  dsimp only
  split <;> rfl

/-- A line made clean or dropped is not dirty. -/
theorem locDirty_cleaned (b : Bool) (loc : Nat) : locDirty ((if b then dropLoc loc else makeClean loc) s) loc = false := by
  have hdrop : ∀ u, locDirty (dropLoc loc u) loc = false := fun u => by
    rw [locDirty, dropLoc]
    split
    · exact congrArg DirEntry.dv (tabGet_tabSet_same dirReset dirReset loc _)
    · exact congrArg DirEntry.dv (tabGet_tabSet_same dirReset dirReset loc _)
  cases b
  · rw [if_neg Bool.false_ne_true, makeClean]
    split
    · exact hdrop s
    · exact congrArg DirEntry.dv (tabGet_tabSet_same dirReset dirReset loc _)
  · exact hdrop s

theorem cleanAfter_clean {loc : Nat} (hl : locate s d.line = some loc) (hd : (dirAt s loc).dv = true) (hp : locPinned s loc = false)
    (hs : sameAsProgrammed s loc d = true) : locDirty (cleanAfter d s) loc = false := by
  rw [cleanAfter, hl]
  dsimp only
  rw [hd, hp, hs]
  exact locDirty_cleaned _ loc

theorem cleanAfter_banks (d : Desc) : (cleanAfter d s).sched.banks = s.sched.banks := by
  have hc : ∀ (b : Bool) (loc : Nat), (dropDrain loc ((if b then dropLoc loc else makeClean loc) s)).sched.banks = s.sched.banks := fun b loc => by
    have hk : keptBut s ((if b then dropLoc loc else makeClean loc) s) [.cache] := by cases b <;> simp
    have hs : ((if b then dropLoc loc else makeClean loc) s).sched = s.sched := agree_of_kept hk .sched
    exact Eq.trans (b := ((if b then dropLoc loc else makeClean loc) s).sched.banks) rfl (congrArg Sched.banks hs)
  rw [cleanAfter]
  split
  · rfl
  · split
    · exact hc _ _
    · rfl

theorem keepFlush_dir (keep : Nat → Bool) : (keepFlush keep s).cache.dir = s.cache.dir := by
  have hk : ∀ (ps : List Nat) (u : State), (endBgStored ps u).cache = u.cache := fun ps u => agree_of_kept (ps := [.regs, .mbx, .outbox])
      (by simp) .cache
  have hst : ∀ u : State, (storeCacheState u).cache = u.cache := fun u => agree_of_kept (ps := [.sbg]) (by simp) .cache
  rw [keepFlush]
  split
  · rfl
  · rw [flushDone]
    split
    · rw [hk, hst]
      rfl
    · rfl

theorem ackProgram_answered (id : Nat) : ∀ c ∈ (ackProgram id s).sched.ctxs, c.carried = id + 1 → c.st ≠ .program := by
  intro c hc hcar
  obtain ⟨x, -, rfl⟩ := List.mem_map.1 hc
  split
  next => exact fun h => by cases h
  next h =>
    rw [if_neg h] at hcar
    intro hst
    rw [hst, hcar] at h
    exact h (by simp)

/-- A write-back that has verified: its line, its bank, and the line's copy if it has not changed. -/
theorem writeBackDone_spec : Wrote d s (writeBackDone d s) ∧ (∀ c ∈ (writeBackDone d s).sched.ctxs, c.carried = d.id + 1 → c.st ≠ .program)
    ∧ ∀ loc, locate s d.line = some loc → (dirAt s loc).dv = true → locPinned s loc = false → sameAsProgrammed s loc d = true →
      locDirty (writeBackDone d s) loc = false := by
  obtain ⟨h1, hkey, hkh⟩ := homeProgram_wrote (s := s) (d := d)
  have hrel := endRelease_med (s := homeProgram d s) d.line
  have hkr : keptBut (homeProgram d s) (endRelease d.line (homeProgram d s)) [.med] := by simp
  have hdone : writeBackDone d s = (onMed (fun m => { m with restoreLeft := nsDel d.line m.restoreLeft }) (endRelease d.line (homeProgram d s))
    |> cleanAfter d |> flushed d.line |> ackProgram d.id |> fwProgress) := rfl
  generalize endRelease d.line (homeProgram d s) = u at *
  have hmed : ∀ v, v = onMed (fun m => { m with restoreLeft := nsDel d.line m.restoreLeft }) u → v.med.lines = (homeProgram d s).med.lines
      ∧ v.med.tags = (homeProgram d s).med.tags ∧ v.med.key = (homeProgram d s).med.key ∧ keptBut (homeProgram d s) v [.med] := by
    rintro v rfl
    refine ⟨?_, ?_, ?_, by simpa using hkr⟩ <;> rw [onMed_med, hrel]
  generalize onMed (fun m => { m with restoreLeft := nsDel d.line m.restoreLeft }) u = v at *
  obtain ⟨hlines, htags, hvkey, hkv⟩ := hmed v rfl
  have hksv := keptBut_trans hkh (keptBut_mono hkv (by simp))
  have hcache : v.cache = s.cache := agree_of_kept hksv .cache
  have hloc : locate v d.line = locate s d.line := locate_of_key hksv.1 (hvkey.trans hkey) hcache (regs_of_kept hksv) _
  have hkc : keptBut v (v |> cleanAfter d |> flushed d.line |> ackProgram d.id) [.cache, .sched, .regs, .sbg, .mbx, .outbox] := by simp
  have hkf : keptBut (cleanAfter d v) (flushed d.line (cleanAfter d v)) [.cache, .regs, .sbg, .mbx, .outbox] := by simp
  have hview := fwProgress_view (s := v |> cleanAfter d |> flushed d.line |> ackProgram d.id)
  have hvm : (writeBackDone d s).med.lines = v.med.lines ∧ (writeBackDone d s).med.tags = v.med.tags := by
    rw [hdone, ← agree_of_kept hkc .med]
    exact ⟨congrArg (fun x => x.1) hview, congrArg (fun x => x.2.1) hview⟩
  have hbanks : (writeBackDone d s).sched.banks = v.sched.banks := by
    rw [hdone]
    refine (congrArg (fun x => x.2.2.1) hview).trans ?_
    exact (congrArg Sched.banks (agree_of_kept hkf .sched)).trans (cleanAfter_banks d)
  refine ⟨⟨hvm.1.trans (hlines.trans h1.lines), hvm.2.trans (htags.trans h1.tags),
    hbanks.trans ((congrArg Sched.banks (agree_of_kept hkv .sched)).trans h1.banks)⟩, ?_, fun loc hl hd hp hs => ?_⟩
  · rw [hdone, show (fwProgress _).sched.ctxs = _ from congrArg (fun x => x.2.2.2.1) hview]
    exact ackProgram_answered d.id
  · have hdir : (writeBackDone d s).cache.dir = (cleanAfter d v).cache.dir :=
      hdone ▸ (congrArg (fun x : Tab MLine × Tab RowTag × Tab BankSt × List Ctx × Cache => x.2.2.2.2.dir) hview).trans (keepFlush_dir _)
    rw [locDirty, dirAt, hdir]
    exact cleanAfter_clean (hloc.trans hl) (by rwa [dirAt, hcache]) (by rwa [locPinned, ovfAt, wayAt, hcache])
      (by rwa [sameAsProgrammed, locSv, locData, locSp, ovfAt, wayAt, hcache])

/-! ### Programs that fail -/

/-- A first or second failure of a line in a block that nothing holds: it is counted, and the write-back waits again. -/
theorem homeFails_again (ha : tabGet 0 s.med.attempts d.ma < 2) (hg : gapHolds s (slotOfLine s d.line).1 (slotOfLine s d.line).2 = false)
    (hr : retireHolds s (slotOfLine s d.line).1 (slotOfLine s d.line).2 = false) :
    homeFails d s = requeue d (onMed (fun m => { m with attempts := tabPut d.ma (tabGet 0 m.attempts d.ma + 1) m.attempts }) s) := by
  have h3 : thirdFailure s d.ma = false := decide_eq_false (by omega)
  have hcount : countFailure d.ma s = onMed (fun m => { m with attempts := tabPut d.ma (tabGet 0 m.attempts d.ma + 1) m.attempts }) s := by
    rw [countFailure, h3]
    rfl
  rw [homeFails, h3, hg, hr, hcount]
  rfl

end

/-- Settles O24: the program that the frame's bank runs ends, and its line is what was sent; a failed one is the first of the queue again. -/
theorem programsVerifyOrAreRetried : Obligations.ProgramsVerifyOrAreRetried := by
  unfold Obligations.ProgramsVerifyOrAreRetried
  intro s f p hg hmode hw hprog hruns
  have hframe : ∀ k, frameFor k 3 f = true → frameProg k f (stampNow s) = some p.op := fun k hk => by
    have hprog' : (bankSt (stampNow s) (frameBank f)).prog = some p := hprog
    rw [frameProg, hk, if_pos rfl, hprog', Option.filter_some, hruns, if_pos rfl]
    rfl
  obtain ⟨hfree, ⟨life, hmed⟩, hsched, hk⟩ := programEnds_spec (s := stampNow s) (d := p.op) (frameBank f)
  have hver : frameFor 0 3 f = true → programVerified f (stampNow s) = gates (verifiedOp p.op (programEnds (frameBank f) p.op (stampNow s))) := fun h => by
    rw [programVerified, hframe 0 h]
  have hfail : frameFor 1 3 f = true → verifyFailed f (stampNow s) = gates (failedOp p.op (programEnds (frameBank f) p.op (stampNow s))) := fun h => by
    rw [verifyFailed, hframe 1 h]
  generalize programEnds (frameBank f) p.op (stampNow s) = u at *
  refine ⟨fun hf hkind => ?_, fun loc hf hkind ha hgap hret => ?_⟩
  · have hend : ∃ v, verifiedOp p.op u = v ∧ Wrote p.op u v ∧ mlineFor p.op
        = ⟨if p.op.sp = 15 then zeroLine else p.op.data, p.op.key, p.op.line, p.op.sp, BitVec.ofNat 8 p.op.pe, false⟩ := by
      rcases hkind with ⟨loc, hloc⟩ | hrw
      · exact ⟨writeBackDone p.op u, by rw [verifiedOp, hloc], writeBackDone_spec.1, by rw [mlineFor, opTweak, hloc]; rfl⟩
      · exact ⟨homeProgram p.op u, by rw [verifiedOp, hrw], homeProgram_wrote.1, by rw [mlineFor, opTweak, hrw]; rfl⟩
    obtain ⟨v, hv, hwrote, hline⟩ := hend
    obtain ⟨w1, w2, w3⟩ := hwrote.line
    refine ⟨v, (onWheel_of_ok hw _).trans (run_of_effect ((hver hf).trans (by rw [hv]))), by rw [w1, hline], w3, ?_, fun ma hma => ?_,
      fun k loc hwb hl hd hp hsame => ?_⟩
    · rw [bankSt, hwrote.banks]
      exact hfree
    · rw [w2 ma hma, mlineAt, hmed]
      rfl
    · have hvb : v = writeBackDone p.op u := by rw [← hv, verifiedOp, hwb]
      obtain ⟨-, b1, b2⟩ := writeBackDone_spec (s := u) (d := p.op)
      have hcache : u.cache = s.cache := agree_of_kept hk .cache
      have hloc : locate u p.op.line = locate s p.op.line :=
        locate_of_key (t := u) (s := stampNow s) hk.1 (by rw [hmed]) hcache (regs_of_kept hk) _
      rw [hvb]
      exact ⟨b2 loc (hloc.trans hl) (by rwa [dirAt, hcache]) (by rwa [locPinned, ovfAt, wayAt, hcache])
        (by rwa [sameAsProgrammed, locSv, locData, locSp, ovfAt, wayAt, hcache]), b1⟩
  · have hslot : slotOfLine u p.op.line = slotOfLine s p.op.line := by
      refine (slotOfLine_of_med (s := { s with med := u.med }) hk.1 rfl _).trans ?_
      rw [hmed]
      rfl
    have hagain := homeFails_again (s := u) (d := p.op) (by rw [hmed]; exact ha) (by rw [hslot, gapHolds, gapOf, hmed]; exact hgap)
      (by rw [hslot, retireHolds, hmed]; exact hret)
    have he : verifyFailed f (stampNow s) = gates (requeue p.op
        (onMed (fun m => { m with attempts := tabPut p.op.ma (tabGet 0 m.attempts p.op.ma + 1) m.attempts }) u)) := by
      rw [hfail hf, failedOp, hkind]
      exact congrArg gates hagain
    refine ⟨_, (onWheel_of_ok hw _).trans (run_of_effect he), ?_, ?_, ?_, ?_, ?_, ?_, ?_, ?_⟩
    · exact (tabGet_tabPut_same ..).trans (by rw [hmed]; rfl)
    · rw [requeue, onSched_sched, onMed_sched, hsched]
      rfl
    · exact hfree
    · show u.med.lines = _
      rw [hmed]
      rfl
    · exact agree_of_kept hk .cache
    · exact agree_of_kept hk .host
    · exact agree_of_kept hk .outbox
    · exact agree_of_kept hk .gtc

end Sys2Proof.Machine
end

section
/-! PROOF. A row fault in a bank that is listed twice (R155). -/
namespace Sys2Proof.Machine

set_option Elab.async false

section
variable {s u : State}

/-! ### The gates admit no program -/

theorem prog_onBank {n : Nat} {f : BankSt → BankSt} (hf : (f (bankSt u n)).prog.isSome = (bankSt u n).prog.isSome) (m : Nat) :
    (bankSt (onBank n f u) m).prog.isSome = (bankSt u m).prog.isSome := by
  by_cases h : m = n
  · subst h
    exact (congrArg (fun b : BankSt => b.prog.isSome) (tabGet_tabSet_same ..)).trans hf
  · exact congrArg (fun b : BankSt => b.prog.isSome) (tabGet_tabSet_ne _ _ h _)

theorem prog_of_banks (h : u.sched.banks = s.sched.banks) (m : Nat) : (bankSt u m).prog.isSome = (bankSt s m).prog.isSome := by
  rw [bankSt, bankSt, h]

theorem sendOp_sched (op : Nat) (d : Desc) : (sendOp op d u).sched = u.sched := agree_of_kept (ps := [.med, .outbox]) (by simp) .sched

theorem startProgram_prog (n m : Nat) : (bankSt (startProgram fillProgram n s) m).prog.isSome = (bankSt s m).prog.isSome := by
  have hcarry : ∀ (d : Desc) (v : State), (carry d v).sched.banks = v.sched.banks := fun d v => by
    rw [carry]
    split <;> rfl
  rw [startProgram]
  split
  next p hp =>
    dsimp only
    split
    · rfl
    · have hset : ∀ (q : Prog) (d : Desc) (g : Nat), (bankSt (s |> onBank n (fun b => { b with prog := some q }) |> carry d |> engineUsed g
          |> sendOp 3 d) m).prog.isSome = (bankSt s m).prog.isSome := fun q d g => by
        refine (prog_of_banks ?_ m).trans (prog_onBank (n := n) (f := fun b => { b with prog := some q }) (by rw [hp]; rfl) m)
        rw [sendOp_sched]
        exact hcarry _ _
      exact hset _ _ _
  next => rfl

theorem startBankOp_prog (n m : Nat) : (bankSt (startBankOp n s) m).prog.isSome = (bankSt s m).prog.isSome := by
  have hbg : ∀ (b : Prop) [Decidable b] (w : Nat), (if b then useBg w s else s).sched.banks = s.sched.banks := fun b _ w => by split <;> rfl
  have hop : ∀ (op id g : Nat) (d : Desc) (v : State) (f : BankSt → BankSt), (∀ b, (f b).prog = b.prog) → v.sched.banks = s.sched.banks →
      (bankSt (v |> unqueue id |> onBank n f |> engineUsed g
        |> sendOp op d) m).prog.isSome = (bankSt s m).prog.isSome := fun op id g d v f hf hv => by
    refine (prog_of_banks ?_ m).trans ((prog_onBank (u := unqueue id v) (n := n) (f := f) (by rw [hf]) m).trans (prog_of_banks hv m))
    rw [sendOp_sched]
    rfl
  rw [startBankOp]
  split
  · rfl
  · split
    · rfl
    · dsimp only
      split
      · exact hop _ _ _ _ _ _ (fun _ => rfl) (hbg _ _)
      · split
        · exact hop _ _ _ _ _ _ (fun _ => rfl) (hbg _ _)
        · rfl

/-- A bank without a program has none after its gate has acted, and one with a program keeps one: programs are admitted elsewhere. -/
theorem gates_prog (m : Nat) : (bankSt (gates s) m).prog.isSome = (bankSt s m).prog.isSome := by
  have hone : ∀ (x : DieWait) (v : State), (sendWait x v).sched.banks = v.sched.banks := fun x v => by
    have hk : ∀ {v' : State}, keptBut (useBus x.w 6 v) v' [.med, .regs, .outbox] → v'.sched.banks = v.sched.banks := fun {v'} h => by
      have hs : v'.sched = (useBus x.w 6 v).sched := agree_of_kept h .sched
      rw [hs]
      rfl
    rw [sendWait]
    split
    · rcases x with ⟨w, d, _ | b⟩
      · exact hk (by simp)
      · exact hk (by simp)
    · rfl
  have hsend : (sendWaits s).sched.banks = s.sched.banks :=
    forEach_induct (P := fun v => v.sched.banks = s.sched.banks) (fun x v h => (hone x v).trans h) s.med.dieWait rfl
  rw [gates, gatesWith]
  split
  · refine forEach_induct (P := fun v => (bankSt v m).prog.isSome = (bankSt s m).prog.isSome) (fun n v h => (startBankOp_prog n m).trans h) _ ?_
    exact forEach_induct (P := fun v => (bankSt v m).prog.isSome = (bankSt s m).prog.isSome) (fun n v h => (startProgram_prog n m).trans h) _
      (prog_of_banks hsend m)
  · rfl

end

/-! ### The counterexample -/

/-- Die 0 of wheel 0 reports a row fault of the program in bank 0. -/
def rowZeroReport : EventFrame :=
  let f : EventFrame := { w := 0, d := 0, bank := 0, id := 3, detail := 0, crc := 0 }
  { f with crc := BitVec.ofNat 8 (crc8 (leBytes 3 (frameBits 9 f))) }

/-- A write-back that runs in the spare block at MA 1600. -/
def spareProgram : Prog := ⟨mkDesc (.writeBack 0) .write 0 0 1600 false false, false, 0, false, true⟩

/-- SERVICE with bank 0 listed twice: besides the program, its first entry holds only a rewrite of the same block in its latch. -/
def bankTwice : State :=
  Sys2Proof.Tests.svc |> onMed (fun m => { m with xtab := [⟨0, 5, false, 1600, 0⟩] })
    |> onSched (fun q => { q with banks :=
      [(0, { bankReset with prog := some spareProgram, latch := some (mkDesc .rewrite .background 0 0 1600 false false) }),
       (0, { bankReset with prog := some spareProgram })] })

theorem bankTwice_premises : bankTwice.gtc = 0 ∧ coreOn bankTwice = true ∧ wheelOk bankTwice rowZeroReport.w = true
    ∧ frameGood 9 rowZeroReport = true ∧ frameBank rowZeroReport = 0 ∧ (bankSt bankTwice 0).prog = some spareProgram
    ∧ spareProgram.runs = true ∧ slotAtMa bankTwice spareProgram.op.ma = some (0, 5) := by
  decide +kernel

/-- Once the latch is dropped the first entry says nothing more and goes, and the second one, with its program, is the bank's. -/
theorem bankTwice_keepsProgram : (bankSt (rowFault rowZeroReport (stampNow bankTwice)) 0).prog.isSome = true := by
  decide +kernel

/-- Refutes O25: where a bank stands twice in the table, ROW_FAULT of its write-back drops the first entry whole, and the program of
the second is then in the bank. -/
theorem not_dieFramesReissueAndReport : ¬ Obligations.DieFramesReissueAndReport := by
  unfold Obligations.DieFramesReissueAndReport
  intro h
  obtain ⟨hgtc, hcore, hw, hgood, hbank, hprog, hruns, hslot⟩ := bankTwice_premises
  have hg : gtcOk bankTwice := by unfold gtcOk; rw [hgtc]; decide
  obtain ⟨-, -, -, -, -, -, -, hrow, -⟩ := h bankTwice rowZeroReport hg hcore hw
  obtain ⟨t, he, -, hnone, -⟩ := hrow spareProgram 0 (0, 5) hgood rfl (by rw [hbank]; exact hprog) hruns rfl hslot
  have ht : settle bankTwice (rowFault rowZeroReport (stampNow bankTwice)) = settle bankTwice (gates t) := by
    have hrun := onWheel_of_ok hw (rowFault rowZeroReport)
    exact Host.Outcome.next.inj ((hrun.symm).trans he)
  have hsome : (bankSt t 0).prog.isSome = true := by
    rw [← gates_prog, bankSt, ← settle_sched bankTwice, ← ht, settle_sched]
    exact bankTwice_keepsProgram
  rw [hbank] at hnone
  rw [hnone] at hsome
  cases hsome

end Sys2Proof.Machine
end

section
/-! PROOF. A bank's transfers, decodes and timers (R95, R98, R100, R106, R108). -/
namespace Sys2Proof.Machine

set_option Elab.async false

section
variable {s t u v : State} {n : Nat}

theorem bankSt_onBank (n : Nat) (f : BankSt → BankSt) (m : Nat) : bankSt (onBank n f s) m = if m = n then f (bankSt s n) else bankSt s m := by
  split
  next h => rw [h]; exact tabGet_tabSet_same ..
  next h => exact tabGet_tabSet_ne _ _ h _

theorem bankSt_of_banks (h : t.sched.banks = s.sched.banks) (m : Nat) : bankSt t m = bankSt s m := by rw [bankSt, bankSt, h]

/-- A sealed packet's CRC is that of its own bits, which do not hold it. -/
theorem sealPacket_crc (p : MmbPacket) : (sealPacket p).crc = crc8 (leBytes 7 (packetBits (sealPacket p))) := by
  have hbits : ∀ c, packetBits { p with crc := c } = packetBits p := fun _ => rfl
  have hcrc : ∀ c, c = crc8 (leBytes 7 (packetBits p)) → ({ p with crc := c } : MmbPacket).crc = crc8 (leBytes 7 (packetBits { p with crc := c })) :=
    fun c hc => by rw [hbits]; exact hc
  exact hcrc _ rfl

/-- Sealing changes nothing but the CRC. -/
theorem sealPacket_fields (p : MmbPacket) : (sealPacket p).op = p.op ∧ (sealPacket p).bank = p.bank ∧ (sealPacket p).row = p.row
    ∧ (sealPacket p).line = p.line := by
  have hf : ∀ c, ({ p with crc := c } : MmbPacket).op = p.op ∧ ({ p with crc := c } : MmbPacket).bank = p.bank
      ∧ ({ p with crc := c } : MmbPacket).row = p.row ∧ ({ p with crc := c } : MmbPacket).line = p.line := fun _ => ⟨rfl, rfl, rfl, rfl⟩
  exact hf _

/-- A command without a burst: one packet to the die of its bank. -/
theorem sendOp_spec {op : Nat} (h : op ≠ 3) (d : Desc) : (∃ p, (sendOp op d s).outbox = s.outbox ++ [.packet (bankWheel d.bank) (bankDie d.bank) p]
      ∧ p.op = op ∧ p.bank = bankInDie d.bank ∧ p.row = maRow d.ma ∧ p.line = maLine d.ma ∧ p.crc = crc8 (leBytes 7 (packetBits p)))
    ∧ (sendOp op d s).med = { s.med with sent := (sendOp op d s).med.sent } ∧ keptBut s (sendOp op d s) [.med, .outbox] := by
  have he : ∃ p, sendOp op d s = sendPacket (bankWheel d.bank) (bankDie d.bank) p [] s ∧ p.op = op ∧ p.bank = bankInDie d.bank ∧ p.row = maRow d.ma
      ∧ p.line = maLine d.ma := by
    simp only [sendOp, if_neg h]
    exact ⟨_, rfl, rfl, rfl, rfl, rfl⟩
  obtain ⟨p, he, h1, h2, h3, h4⟩ := he
  obtain ⟨k1, k2, k3, k4⟩ := sealPacket_fields p
  refine ⟨⟨sealPacket p, ?_, k1.trans h1, k2.trans h2, k3.trans h3, k4.trans h4, sealPacket_crc p⟩, ?_, by simp⟩
  · rw [he, sendPacket_outbox]
    rfl
  · rw [he]
    rfl

/-- The bank's last line has been decoded, and its job is done. -/
def decodeTaken (n : Nat) (s : State) : State :=
  s |> onBank n (fun b => { b with decoding := none }) |> onSched (fun q => { q with jobs := q.jobs.filter (fun j => j != .softDecode n) })

theorem decodeTaken_spec (n : Nat) : bankSt (decodeTaken n s) n = { bankSt s n with decoding := none }
    ∧ (decodeTaken n s).sched.queue = s.sched.queue ∧ keptBut s (decodeTaken n s) [.sched] := by
  refine ⟨?_, rfl, by simp [decodeTaken]⟩
  refine (bankSt_of_banks (s := onBank n (fun b => { b with decoding := none }) s) rfl n).trans ?_
  rw [bankSt_onBank, if_pos rfl]

/-- A write-back's own read decodes: it is the first of the queue, with the line's data, ready to program. -/
theorem decodeBank_writeBack {d : Desc} {loc : Nat} {m : MLine} (soft : SoftMap) (hk : d.kind = .writeBack loc)
    (hr : lineReleased s d.line = false) (hm : mlineAt s d.ma = some m) : decodeBank n d .clean soft s
      = requeue { d with data := decrypt s d.line m, sp := m.sp, ready := true } (decodeNote d.ma .clean soft (decodeTaken n s)) := by
  simp only [decodeBank, hr, hm, readLine, hk]
  rfl

/-- A decode of at most 16 errors leaves only the drift jobs, and overflow counts. -/
theorem decodeNote_clean (ma : Nat) (soft : SoftMap) : keptBut s (decodeNote ma .clean soft s) [.regs, .sched]
    ∧ ∃ js, (decodeNote ma .clean soft s).sched = { s.sched with jobs := s.sched.jobs ++ js } := by
  have he : decodeNote ma .clean soft s = when soft.overflow (fun s => s |> finc F.WHLn_SOFT_OVF_COUNT (bankWheel (maBank ma))
      |> fset F.WHLn_ERR_SOFT_OVF (bankWheel (maBank ma))) (pushSoft ma soft s) := rfl
  rw [he]
  refine ⟨by simp, ?_⟩
  cases soft.overflow
  · exact ⟨_, rfl⟩
  · exact ⟨_, rfl⟩

end

/-- Settles O23: each is its bank's one change. -/
theorem bankGateTimersAndTransfers : Obligations.BankGateTimersAndTransfers := by
  unfold Obligations.BankGateTimersAndTransfers
  intro s b t hg hm ht hw n
  have hadv : ∀ x, advanceTo x (stampNow s) = { s with gtc := max s.gtc (x % 2 ^ 64), stamp := x % 2 ^ 64 } := advanceTo_of_on (s := stampNow s) hm
  have hmod : t % 2 ^ 64 = t := Nat.mod_eq_of_lt ht
  have hadvt := hadv t
  rw [hmod] at hadvt
  refine ⟨fun d hl => ?_, fun d hd hleft => ?_, fun p hp hs hlc => ?_, fun sp k hk => ?_, fun d loc errs soft m hd hkind herr hrel hm' => ?_⟩
  · intro free
    have hl' : (bankSt (stampNow s) n).latch = some d := hl
    have hbus : busFree (advanceTo t (stampNow s)) b.w.val 30 = (decide (tabGet 0 s.sched.busUntil b.w.val ≤ max s.gtc t)
        && (windowsOf (advanceTo t s) b.w.val).all (fun x => decide (max s.gtc t + 30 ≤ x.1))) := by
      rw [hadvt, advanceTo_of_on hm, hmod]
      rfl
    have hdec : bankSt (advanceTo t (stampNow s)) n = bankSt s n := rfl
    refine ⟨fun hf => ?_, fun hf => ?_⟩
    · obtain ⟨hb, hnone, hwin⟩ := hf
      have he : nonDemandTransfer b t (stampNow s) = (advanceTo t (stampNow s) |> useBus b.w.val 30 |> sendOp 2 d
          |> onBank n (fun b => { b with latch := none, decoding := some d })
          |> onSched (fun q => { q with jobs := q.jobs ++ [.softDecode n] }) |> engineUsed (engineOf (advanceTo t (stampNow s)) d) |> gates) := by
        have hc : (busFree (advanceTo t (stampNow s)) b.w.val 30 && (bankSt (advanceTo t (stampNow s)) n).decoding.isNone) = true := by
          rw [hbus, hdec, hnone, decide_eq_true hb, List.all_eq_true.2 fun x hx => decide_eq_true (hwin x hx)]
          rfl
        rw [nonDemandTransfer, hl']
        exact if_pos hc
      generalize engineOf (advanceTo t (stampNow s)) d = g at *
      obtain ⟨ha1, -, hak⟩ := advanced_spec hg hm t
      rw [hmod] at ha1
      generalize advanceTo t (stampNow s) = v at *
      obtain ⟨⟨p, hout, hop, -⟩, hmed, hk⟩ := sendOp_spec (s := useBus b.w.val 30 v) (op := 2) (by decide) d
      generalize sendOp 2 d (useBus b.w.val 30 v) = u at *
      have hks : keptBut s u [.gtc, .stamp, .sched, .med, .outbox] := keptBut_trans (keptBut_trans (keptBut_mono hak (by simp)) (by simp))
        (keptBut_mono hk (by simp))
      have hsched : u.sched = { s.sched with busUntil := tabSet 0 b.w.val (max s.gtc t + 30) s.sched.busUntil } := by
        rw [agree_of_kept hk .sched, useBus, onSched_sched, ha1, agree_of_kept hak .sched]
      have hbanks : ∀ m, bankSt u m = bankSt s m := bankSt_of_banks (by rw [hsched])
      refine ⟨u |> onBank n (fun b => { b with latch := none, decoding := some d }) |> onSched (fun q => { q with jobs := q.jobs ++ [.softDecode n] })
        |> engineUsed g, (onWheel_of_ok hw _).trans (run_of_effect he), ?_, fun m hmn => ?_, ?_, ?_, ⟨p, ?_, hop⟩, ?_, ?_, ?_⟩
      · refine (bankSt_of_banks (s := onBank n (fun b => { b with latch := none, decoding := some d }) u) rfl n).trans ?_
        rw [bankSt_onBank, if_pos rfl, hbanks]
      · refine (bankSt_of_banks (s := onBank n (fun b => { b with latch := none, decoding := some d }) u) rfl m).trans ?_
        rw [bankSt_onBank, if_neg hmn, hbanks]
      · show u.sched.jobs ++ _ = _
        rw [hsched]
      · refine (congrArg (fun q => tabGet 0 (Sched.busUntil q) b.w.val) hsched).trans ?_
        exact tabGet_tabSet_same 0 (max s.gtc t + 30) b.w.val s.sched.busUntil
      · exact hout.trans (congrArg (· ++ _) (agree_of_kept hak .outbox))
      · exact keptBut_trans hks (by simp)
      · have hvm : (useBus b.w.val 30 v).med = s.med := agree_of_kept hak .med
        rw [hvm] at hmed
        exact hmed
      · exact (agree_of_kept hk .gtc).trans ha1
    · refine (onWheel_of_ok hw _).trans (run_of_effect_at (u := { s with gtc := max s.gtc t }) (max_lt hg ht) ?_)
      have hc : (busFree (advanceTo t (stampNow s)) b.w.val 30 && (bankSt (advanceTo t (stampNow s)) n).decoding.isNone) = false := by
        rw [hbus, hdec]
        refine Bool.eq_false_iff.2 fun h => hf ?_
        simp only [Bool.and_eq_true, decide_eq_true_eq, List.all_eq_true, Option.isNone_iff_eq_none] at h
        exact ⟨h.1.1, h.2, h.1.2⟩
      have he : nonDemandTransfer b t (stampNow s) = advanceTo t (stampNow s) := by
        rw [nonDemandTransfer, hl']
        exact if_neg (by rw [hc]; exact Bool.false_ne_true)
      rw [he, hadvt]
  · have hd' : (stampNow s).sched.queue.find? (fun x => x.bank == bankNo b && x.cls == .background && !x.aged) = some d := hd
    have he : agePromotion b (stampNow s) = (advanceTo ((d.enq / 250 + 64) * 250) (stampNow s)
        |> onSched (fun q => { q with queue := q.queue.map (fun e => if e.id = d.id then { e with aged := true } else e) })) := by
      rw [agePromotion, hd']
      exact if_pos hleft
    exact ⟨_, (onWheel_of_ok hw _).trans (run_of_effect he), rfl, keptBut_settle_gtc (by simp)⟩
  · have hp' : (bankSt (stampNow s) (bankNo b)).prog = some p := hp
    have he : suspendLong b (stampNow s) = (advanceTo (p.suspAt + 100000) (stampNow s) |> finc F.SPKg_SUSP_LONG_COUNT (homeG n)
        |> onBank n (fun b => { b with prog := some { p with longCounted := true } })) := by
      have hc : (p.suspended && !p.longCounted) = true := by rw [hs, hlc]; rfl
      rw [suspendLong, hp']
      exact if_pos hc
    refine ⟨_, (onWheel_of_ok hw _).trans (run_of_effect he), ?_, ?_, ?_, keptBut_settle_gtc (by simp), rfl⟩
    · exact (bankSt_onBank (s := finc F.SPKg_SUSP_LONG_COUNT (homeG n) (advanceTo (p.suspAt + 100000) (stampNow s))) n
        (fun b => { b with prog := some { p with longCounted := true } }) n).trans (if_pos rfl)
    · exact fget_finc_same ..
    · rw [regsKept_iff_of_regs (settle_regs ..)]
      refine (regsKept_iff_of_regs (s := finc F.SPKg_SUSP_LONG_COUNT (homeG n) (advanceTo (p.suspAt + 100000) (stampNow s))) rfl).2 ?_
      exact (regsKept_finc_iff _ _ (by simp)).2 (regsKept_of_kept (advanced_spec hg hm _).2.2)
  · have hk' : tabGet none ((stampNow s).sched.running.map (fun x => (x.1, some x.2))) (16 * b.w.val + sp.val) = some (.softDecode k) := hk
    have he : jobDone (16 * b.w.val + sp.val)
      (stampNow s) = (onSched (fun q => { q with running := tabDel (16 * b.w.val + sp.val) q.running }) (stampNow s)
        |> engineUsed (16 * b.w.val + sp.val)) := by
      rw [jobDone, hk']
      rfl
    exact ⟨_, (onWheel_of_ok hw _).trans (run_of_effect he), keptBut_of_effect hg (by simp), rfl⟩
  · have hd' : (bankSt (stampNow s) (bankNo b)).decoding = some d := hd
    have hclean : decodeOf errs = .clean := if_pos herr
    obtain ⟨ha1, -, hak⟩ := advanced_spec hg hm t
    rw [hmod] at ha1
    have hlr : lineReleased (advanceTo t (stampNow s)) d.line = false := (congrArg (fun m => bmGet (Media.released m) _)
      (agree_of_kept hak .med)).trans hrel
    have hma : mlineAt (advanceTo t (stampNow s)) d.ma = some m := by rw [mlineAt, agree_of_kept hak .med]; exact hm'
    have hdc : decrypt (advanceTo t (stampNow s)) d.line m = decrypt s d.line m := by rw [decrypt, agree_of_kept hak .med]; rfl
    have he : decodeStep (.bank b) errs soft t (stampNow s) = gates (decodeBank n d .clean soft (advanceTo t (stampNow s))) := by
      rw [decodeStep, hd', ← hclean]
    generalize advanceTo t (stampNow s) = v at *
    have hbank := decodeBank_writeBack (n := n) soft hkind hlr hma
    rw [hdc] at hbank
    obtain ⟨hb1, hq1, hk1⟩ := decodeTaken_spec (s := v) n
    rw [bankSt_of_banks (s := s) (t := v) (by rw [agree_of_kept hak .sched])] at hb1
    rw [agree_of_kept hak .sched] at hq1
    generalize decodeTaken n v = v' at *
    obtain ⟨hk2, js, hs2⟩ := decodeNote_clean (s := v') d.ma soft
    generalize decodeNote d.ma .clean soft v' = u at *
    refine ⟨requeue { d with data := decrypt s d.line m, sp := m.sp, ready := true } u, run_of_effect (he.trans (by rw [hbank])), ?_, ?_, ?_, ?_⟩
    · rw [requeue, onSched_sched, hs2, hq1]
    · exact (bankSt_of_banks (s := v') (by rw [requeue, onSched_sched, hs2]) n).trans hb1
    · exact keptBut_trans (keptBut_trans (keptBut_mono hak (by simp)) (keptBut_mono hk1 (by simp)))
        (keptBut_trans (keptBut_mono hk2 (by simp)) (by simp))
    · exact (agree_of_kept hk2 .gtc).trans ((agree_of_kept hk1 .gtc).trans ha1)

end Sys2Proof.Machine
end

section
/-! PROOF. A demand read's way through its bank (R94, R102, R107, R108). -/
namespace Sys2Proof.Machine

set_option Elab.async false

section
variable {s t u v : State} {tag : BitVec 16} {c : Ctx}

/-! ### A context and its packets -/

/-- A change of one context that keeps its tag. -/
theorem ctxOf_onCtx {f : Ctx → Ctx} (hf : ∀ c, (f c).tag = c.tag) (h : ctxOf s tag = some c) : ctxOf (onCtx tag f s) tag = some (f c) := by
  have hc : c.tag = tag := by simpa using List.find?_some h
  have hp : ((fun x : Ctx => x.tag == tag) ∘ fun x => if x.tag = tag then f x else x) = fun x => x.tag == tag := by
    funext x
    dsimp only [Function.comp]
    split
    · rw [hf]
    · rfl
  rw [ctxOf, onCtx, onSched_sched, List.find?_map, hp, ← ctxOf, h, Option.map_some, if_pos hc]

theorem ctxOf_of_ctxs (h : t.sched.ctxs = s.sched.ctxs) (tag : BitVec 16) : ctxOf t tag = ctxOf s tag := by rw [ctxOf, ctxOf, h]

/-- A context with the window that it gets from `ready` on. -/
def windowed (n ready : Nat) (s : State) (c : Ctx) : Ctx :=
  let got := findWindow n (windowsOf s (bankWheel n)) ready 0
  { c with ready := ready, window := got.1, displaced := c.displaced + got.2 }

/-- A window is booked: of the contexts only the tag's changes. -/
theorem ctxOf_bookWindow (n ready : Nat) (h : ctxOf s tag = some c) : ctxOf (bookWindow tag n ready s) tag = some (windowed n ready s c) := by
  refine (ctxOf_of_ctxs ?_ tag).trans (ctxOf_onCtx (s := s) (f := windowed n ready s) (fun _ => rfl) h)
  unfold bookWindow
  dsimp only
  generalize ((findWindow n (windowsOf s (bankWheel n)) ready 0).1 != ready) = b
  cases b <;> rfl

theorem regsKept_bookWindow (n ready : Nat) : regsKept s (bookWindow tag n ready s) [(F.WHLn_DISPLACED_COUNT, bankWheel n)] := by
  have hregs : ∀ f, regsKept s (onCtx tag f s) [(F.WHLn_DISPLACED_COUNT,
      bankWheel n)] := fun f => (regsKept_iff_of_regs (s := s) rfl).2 (regsKept_refl _ _)
  simp [bookWindow, hregs]

/-- What is done to the queue does not touch the contexts, and what is sent neither. -/
theorem ctxOf_sendOp {op : Nat} (h : op ≠ 3) (d : Desc) : ctxOf (sendOp op d s) tag = ctxOf s tag :=
  ctxOf_of_ctxs (by rw [agree_of_kept (sendOp_spec h d).2.2 .sched]) tag

/-- A demand read before its SENSE is sent. -/
def dispatched (tag : BitVec 16) (d : Desc) (s : State) : State :=
  s |> bookWindow tag d.bank (readyTime s d.bank d.needSense) |> onCtx tag (fun c => { c with st := .sense })
    |> onSched (fun q => { q with queue := q.queue.map (fun e => if e.id = d.id then { e with ready := true } else e) })

theorem dispatched_spec {d : Desc} : keptBut s (dispatched tag d s) [.sched, .regs]
    ∧ (∀ c, ctxOf s tag = some c → ctxOf (dispatched tag d s) tag = some { windowed d.bank (readyTime s d.bank d.needSense) s c with st := .sense })
    ∧ regsKept s (dispatched tag d s) [(F.WHLn_DISPLACED_COUNT, bankWheel d.bank)] := by
  refine ⟨by simp [dispatched], fun c hc => ?_, ?_⟩
  · refine (ctxOf_of_ctxs (s := onCtx tag (fun c => { c with st := .sense })
      (bookWindow tag d.bank (readyTime s d.bank d.needSense) s)) rfl tag).trans ?_
    exact ctxOf_onCtx (fun _ => rfl) (ctxOf_bookWindow _ _ hc)
  · exact (regsKept_iff_of_regs (s := bookWindow tag d.bank (readyTime s d.bank d.needSense) s) rfl).2 (regsKept_bookWindow _ _)

/-- A demand read's sense has ended, and no read waits for its place: its descriptor is free. -/
theorem demandLatched_spec (h : ctxOf s c.tag = some c) (hq : ∀ x ∈ s.sched.ctxs,
      x.st ≠ .qwait) : ctxOf (demandLatched c s) c.tag = some { c with st := .window }
    ∧ (∀ d, demandDesc s c.tag = some d → ∀ x ∈ (demandLatched c s).sched.queue, x.id ≠ d.id) ∧ keptBut s (demandLatched c s) [.sched] := by
  have hnone : ∀ n (v : State), v.sched.ctxs = (onCtx c.tag (fun c => { c with st := .window }) s).sched.ctxs → admitWaiters n v = v := fun n v hv => by
    have hf : v.sched.ctxs.filter (fun c => c.st == .qwait && maBank c.ma == n) = [] := by
      rw [hv, List.filter_eq_nil_iff]
      intro x hx
      obtain ⟨y, hy, rfl⟩ := List.mem_map.1 hx
      split
      · simp
      · simp [hq y hy]
    rw [admitWaiters, hf]
    rfl
  have hset := ctxOf_onCtx (s := s) (tag := c.tag) (f := fun c => { c with st := .window }) (fun _ => rfl) h
  have hd : demandDesc (onCtx c.tag (fun c => { c with st := .window }) s) c.tag = demandDesc s c.tag := rfl
  rw [demandLatched, hd]
  cases hq' : demandDesc s c.tag with
  | none =>
    dsimp only
    rw [hnone _ (onCtx c.tag (fun c => { c with st := .window }) s) rfl]
    exact ⟨hset, fun d hd => (Option.some_ne_none d hd.symm).elim, by simp⟩
  | some d =>
    dsimp only
    rw [hnone _ (unqueue d.id (onCtx c.tag (fun c => { c with st := .window }) s)) rfl]
    refine ⟨(ctxOf_of_ctxs rfl _).trans hset, fun d' h x hx => ?_, by simp⟩
    cases h
    simpa using (List.mem_filter.1 hx).2

/-- The carve-out's register is none of those a decode counts in. -/
theorem scratchSteps_decodeNote (ma : Nat) (soft : SoftMap) : scratchSteps (decodeNote ma .clean soft s) = scratchSteps s := by
  have he : decodeNote ma .clean soft s = when soft.overflow (fun s => s |> finc F.WHLn_SOFT_OVF_COUNT (bankWheel (maBank ma))
      |> fset F.WHLn_ERR_SOFT_OVF (bankWheel (maBank ma))) (pushSoft ma soft s) := rfl
  have h1 : F.CCH_MODE_SCRATCH_STEPS.key 0 ≠ F.WHLn_SOFT_OVF_COUNT.key (bankWheel (maBank ma)) := by
    have hk : F.WHLn_SOFT_OVF_COUNT.key (bankWheel (maBank ma)) = (0x21014 + 0x1000 * bankWheel (maBank ma)) * 8 + 0 := rfl
    have hc : F.CCH_MODE_SCRATCH_STEPS.key 0 = 0x80000 * 8 + 3 := rfl
    omega
  have h2 : F.CCH_MODE_SCRATCH_STEPS.key 0 ≠ F.WHLn_ERR_SOFT_OVF.key (bankWheel (maBank ma)) := by
    have hk : F.WHLn_ERR_SOFT_OVF.key (bankWheel (maBank ma)) = (0x2101C + 0x1000 * bankWheel (maBank ma)) * 8 + 2 := rfl
    have hc : F.CCH_MODE_SCRATCH_STEPS.key 0 = 0x80000 * 8 + 3 := rfl
    omega
  rw [he]
  cases soft.overflow
  · rfl
  · exact (fget_fset_other _ _ _ _ _ h2).trans (fget_finc_other _ _ _ _ _ h1)

/-- A load's line decodes good, and no copy of it is in the cache. -/
theorem decodeDemand_load {m : MLine} (soft : SoftMap) (hop : c.op ≠ .storePtl) (hma : mlineAt s c.ma = some m)
    (hrel : lineReleased s (lineOf c.dpa) = false) (hloc : locate s (lineOf c.dpa) = none) : decodeDemand c .clean soft s
      = respond c.tag (lineGet (decrypt s (lineOf c.dpa) m) (sectorOf c.dpa)) (m.sp.getLsbD (sectorOf c.dpa))
        (fillLine (lineOf c.dpa) (decrypt s (lineOf c.dpa) m) m.sp (decodeNote c.ma .clean soft s)) := by
  have hk := (decodeNote_clean (s := s) c.ma soft).1
  have hnote : locate (decodeNote c.ma .clean soft s) (lineOf c.dpa) = none :=
    (locate_of_cache hk.1 (agree_of_kept hk .med) (agree_of_kept hk .cache) (scratchSteps_decodeNote _ _) _).trans hloc
  have hnow : ∀ (d : Line) (sp : BitVec 4), sectorNow (decodeNote c.ma .clean soft s) (lineOf c.dpa) (sectorOf c.dpa) d sp
      = (lineGet d (sectorOf c.dpa), sp.getLsbD (sectorOf c.dpa)) := fun d sp => by rw [sectorNow, hnote]
  have hgot : readLine s c.ma (lineOf c.dpa) = (decrypt s (lineOf c.dpa) m, m.sp) := by rw [readLine, hma]
  have hwhen : ∀ f : State → State, when true f s = f s := fun _ => rfl
  have hwhen' : ∀ (f : State → State) (v : State), when false f v = v := fun _ _ => rfl
  simp only [decodeDemand, hrel, hma, hgot, Option.isNone_some, Bool.not_false, Bool.and_true, hwhen, if_neg Bool.false_ne_true, if_neg hop]
  rw [show (DecodeOutcome.clean == DecodeOutcome.failed) = false from rfl, hwhen', if_neg Bool.false_ne_true, hnow]

end

/-- Settles O21: a read's sense, its window and its decode, each by its command. -/
theorem demandReadCrossesItsBank : Obligations.DemandReadCrossesItsBank := by
  unfold Obligations.DemandReadCrossesItsBank
  intro s tag t hg hm ht s1 sent
  have hadv : ∀ x, x < 2 ^ 64 → advanceTo x (stampNow s) = { s with gtc := max s.gtc x, stamp := x } := fun x hx => by
    rw [advanceTo_of_on (s := stampNow s) hm, Nat.mod_eq_of_lt hx]
    rfl
  have hsame : advanceTo t (stampNow s) = s1 := (advanceTo_of_on (s := stampNow s) hm t).trans (advanceTo_of_on hm t).symm
  have hsgtc : s1.gtc = max s.gtc t := by
    show (advanceTo t s).gtc = _
    rw [advanceTo_of_on hm, Nat.mod_eq_of_lt ht]
  have hsk : keptBut s s1 [.gtc, .stamp] := by simp [s1]
  have hsent : ∀ {op : Nat} {d : Desc} {v : State}, op ≠ 3 → keptBut s v [.gtc, .stamp, .sched, .regs] → sent (sendOp op d v) d.bank op d.ma := by
    intro op d v hop hk
    obtain ⟨⟨p, hout, h1, h2, h3, h4, h5⟩, hmed, -⟩ := sendOp_spec (s := v) hop d
    rw [agree_of_kept hk .outbox] at hout
    rw [agree_of_kept hk .med] at hmed
    exact ⟨p, hout, h1, h2, h3, h4, h5, hmed⟩
  have hqueued : ∀ {op : Nat} {d : Desc} {v : State},
      op ≠ 3 → (sendOp op d v).sched = v.sched := fun hop => agree_of_kept (sendOp_spec hop _).2.2 .sched
  refine ⟨fun d hd hn => ?_, fun b c hw hc hctx hq hr => ?_, fun c hc hst hwin => ?_, fun c errs soft m hc hst hop herr hma hrel hloc => ?_⟩
  · have he : dispatchStep tag t (stampNow s) = dispatchDemand tag d s1 := by
      have hd' : demandDesc (stampNow s) tag = some d := hd
      rw [dispatchStep, hd', ← hsame]
      exact if_pos hn
    obtain ⟨hk, hctx, hrk⟩ := dispatched_spec (s := s1) (tag := tag) (d := d)
    replace he : dispatchStep tag t (stampNow s) = sendOp 1 d (dispatched tag d s1) := he
    have hs := hsent (op := 1) (d := d) (by decide) (keptBut_trans (keptBut_mono hsk (by simp)) (keptBut_mono hk (by simp)))
    have hko := (sendOp_spec (s := dispatched tag d s1) (op := 1) (by decide) d).2.2
    have hout := ctxOf_sendOp (s := dispatched tag d s1) (tag := tag) (op := 1) (by decide) d
    refine ⟨_, run_of_effect he, fun c hc => ?_, hs, ?_, ?_, ?_⟩
    · exact hout.trans (hctx c hc)
    · rw [regsKept_iff_of_regs (settle_regs ..)]
      exact regsKept_trans (regsKept_of_kept hsk) (regsKept_trans hrk (regsKept_of_kept hko))
    · exact keptBut_settle_gtc (keptBut_trans (keptBut_mono hsk (by simp)) (keptBut_trans (keptBut_mono hk (by simp)) (keptBut_mono hko (by simp))))
    · rw [settle_gtc, agree_of_kept hko .gtc, agree_of_kept hk .gtc, hsgtc]
      exact Nat.mod_eq_of_lt (max_lt hg ht)
  · have hw0 : ctxOf (stampNow s) c.tag = some c := hctx
    have hc' : sensing (stampNow s) (bankNo b) = some c := hc
    have he : senseLatched b t (stampNow s) = gates (demandLatched c (advanceTo c.ready s1)) := by
      rw [senseLatched, hc', ← hsame]
    have hk1 : keptBut s (advanceTo c.ready s1) [.gtc, .stamp] := keptBut_trans hsk (by simp)
    have hgt : (advanceTo c.ready s1).gtc = max (max s.gtc t) c.ready := by
      rw [advanceTo_of_on (s := s1) hm, Nat.mod_eq_of_lt hr, hsgtc]
    generalize advanceTo c.ready s1 = v at *
    obtain ⟨h1, h2, h3⟩ := demandLatched_spec (s := v) (c := c) (by rw [ctxOf_of_ctxs (s := s) (by rw [agree_of_kept hk1 .sched])]; exact hctx)
      (by rw [agree_of_kept hk1 .sched]; exact hq)
    refine ⟨_, (onWheel_of_ok hw _).trans (run_of_effect he), h1, (agree_of_kept h3 .gtc).trans hgt, fun d hd => ?_, ?_⟩
    · exact h2 d (by rw [demandDesc, agree_of_kept hk1 .sched]; exact hd)
    · exact keptBut_trans (keptBut_mono hk1 (by simp)) (keptBut_mono h3 (by simp))
  · have hc' : ctxOf (stampNow s) tag = some c := hc
    have htag : c.tag = tag := by simpa using List.find?_some hc
    have he : windowStart tag t (stampNow s) = gates (onCtx tag (fun c => { c with st := .decode2 })
        (sendOp 2 (mkDesc (.demandRead tag) .demand (maBank c.ma) 0 c.ma false false) (advanceTo c.window s1))) := by
      rw [windowStart, hc', ← hsame]
      exact if_pos hst
    have hk1 : keptBut s (advanceTo c.window s1) [.gtc, .stamp] := keptBut_trans hsk (by simp)
    have hgt : (advanceTo c.window s1).gtc = max (max s.gtc t) c.window := by
      rw [advanceTo_of_on (s := s1) hm, Nat.mod_eq_of_lt hwin, hsgtc]
    generalize advanceTo c.window s1 = v at *
    have hs := hsent (op := 2) (d := mkDesc (.demandRead tag) .demand (maBank c.ma) 0 c.ma false false) (by decide) (keptBut_mono hk1 (by simp))
    have hko := (sendOp_spec (s := v) (op := 2) (by decide) (mkDesc (.demandRead tag) .demand (maBank c.ma) 0 c.ma false false)).2.2
    have hout := ctxOf_sendOp (s := v) (tag := tag) (op := 2) (by decide) (mkDesc (.demandRead tag) .demand (maBank c.ma) 0 c.ma false false)
    generalize sendOp 2 (mkDesc (.demandRead tag) .demand (maBank c.ma) 0 c.ma false false) v = u at *
    refine ⟨onCtx tag (fun c => { c with st := .decode2 }) u, run_of_effect he, ctxOf_onCtx (fun _ => rfl) (hout.trans ?_), ?_, hs, ?_⟩
    · rw [ctxOf_of_ctxs (s := s) (by rw [agree_of_kept hk1 .sched])]
      exact hc
    · exact (agree_of_kept hko .gtc).trans hgt
    · exact keptBut_trans (keptBut_trans (keptBut_mono hk1 (by simp)) (keptBut_mono hko (by simp))) (by simp)
  · have hc' : ctxOf (stampNow s) tag = some c := hc
    have htag : c.tag = tag := by simpa using List.find?_some hc
    have he : decodeStep (.demand tag) errs soft t (stampNow s) = decodeDemand c .clean soft s1 := by
      have hclean : decodeOf errs = .clean := if_pos herr
      rw [decodeStep, hc', ← hsame, ← hclean]
      exact if_pos hst
    have hcache : locate s1 (lineOf c.dpa) = none := (locate_of_cache (s := s) (t := s1) rfl rfl rfl rfl _).trans hloc
    have hload := decodeDemand_load (s := s1) soft hop hma hrel hcache
    have hdc : decrypt s1 (lineOf c.dpa) m = decrypt s (lineOf c.dpa) m := rfl
    have hctx1 : ctxOf s1 tag = some c := hc
    rw [hload, hdc, htag] at he
    obtain ⟨hk1, js, hs1⟩ := decodeNote_clean (s := s1) c.ma soft
    have hk2 : keptBut (decodeNote c.ma .clean soft s1) (fillLine (lineOf c.dpa)
      (decrypt s (lineOf c.dpa) m) m.sp (decodeNote c.ma .clean soft s1)) [.cache] := by simp
    generalize fillLine (lineOf c.dpa) (decrypt s (lineOf c.dpa) m) m.sp (decodeNote c.ma .clean soft s1) = v at *
    refine ⟨_, run_of_effect he, ctxOf_onCtx (fun _ => rfl) ((ctxOf_of_ctxs ?_ tag).trans hctx1), ?_, ?_⟩
    · rw [agree_of_kept hk2 .sched, hs1]
    · exact keptBut_settle_gtc (keptBut_trans (keptBut_trans (keptBut_mono hsk (by simp)) (keptBut_trans (keptBut_mono hk1 (by simp))
        (keptBut_mono hk2 (by simp)))) (by simp))
    · refine (congrArg (· % 2 ^ 64) ((agree_of_kept hk2 .gtc).trans ((agree_of_kept hk1 .gtc).trans hsgtc))).trans ?_
      exact Nat.mod_eq_of_lt (max_lt hg ht)

end Sys2Proof.Machine
end

section
/-! PROOF. The saddlebag's page stores, supply and refresh (R296 to R304). -/
namespace Sys2Proof.Machine

set_option Elab.async false

section
variable {s t u v : State} {b p : Nat} {r : StoreRun}

/-! ### The saddlebag's registers -/

/-- The keys of the saddlebag's registers. -/
abbrev sbgKey (k : Nat) : Prop := 0xC9000 * 8 ≤ k ∧ k < 0xC9020 * 8

/-- What a stored page completes shows in no register of the saddlebag. -/
theorem sbgKept_pageStored (p : Nat) (ok : Bool) : keptAt sbgKey s (pageStored p ok s) := by
  have hend : ∀ (r : RetCode) (u : State), keptAt sbgKey u (endBg r [] u) := fun r u => by
    rw [endBg]
    split
    · exact keptAt_refl
    · have hm : ∀ v, keptAt sbgKey v (msix 1 v) := fun v => keptAt_of_kept (ps := [.host, .outbox]) (by simp)
      exact keptAt.trans (by simp (disch := decide)) (hm _)
  have hbg : ∀ u, keptAt sbgKey u (bgStored p ok u) := fun u => by
    rw [bgStored]
    split
    · exact keptAt_refl
    · split
      · exact keptAt_refl
      · split
        · exact hend _ u
        · split
          · exact hend _ u
          · exact keptAt_of_regs rfl
  refine keptAt.trans (keptAt_of_kept (ps := [.mbx, .outbox, .host, .freeIx]) ?_) (hbg _)
  cases ok <;> simp

theorem sbgKept_drawCap {g : Fld} {i : Nat} (h : g.key i ≠ F.SBG_BANK_CAP_OK.key 0) : fget (drawCap b s) g i = fget s g i := by
  rw [drawCap]
  split
  · rfl
  · exact fget_fput_other _ _ _ _ _ _ h

/-! ### What a store's end changes -/

theorem ctrResume_of_nil (h : s.sbg.ctrWait = []) : ctrResume p s = s :=
  calc ctrResume p s = onSbg (fun g => { g with ctrWait := g.ctrWait.filter (fun c => c.addr / 256 != p) }) s := by
        rw [ctrResume, h]
        rfl
    _ = onSbg (fun g => { g with ctrWait := s.sbg.ctrWait.filter (fun c => c.addr / 256 != p) }) s := rfl
    _ = onSbg (fun g => { g with ctrWait := [] }) s := by
        rw [h]
        rfl
    _ = onSbg (fun g => { g with ctrWait := s.sbg.ctrWait }) s := by rw [h]
    _ = s := rfl

/-- A page of the LSA or the firmware's: nothing but what was held for it goes on. -/
theorem afterStore_of_low
    (hp : p < 512) (hc : s.rcd.clearing = none) (hw : s.sbg.ctrWait = []) : afterStore p s = when (!pageDirty s p) (pageStored p true) s := by
  have hk : keptBut s (when (!pageDirty s p) (pageStored p true) s) [.regs, .mbx, .outbox, .host, .freeIx] := by simp
  have hsbg := agree_of_kept hk .sbg
  have hrcd := agree_of_kept hk .rcd
  have h1 : (p == 3264 && s.sbg.journalWait) = false := by rw [beq_eq_false_iff_ne.2 (by omega)]; rfl
  have h2 : (p == 960) = false := beq_eq_false_iff_ne.2 (by omega)
  have h3 : (decide (512 ≤ p) && decide (p < 768)) = false := by rw [decide_eq_false (by omega)]; rfl
  have h4 : ∀ x : Bool, (decide (3200 ≤ p) && decide (p < 3264) && x) = false := fun x => by rw [decide_eq_false (by omega)]; rfl
  have h5 : (p == 4032) = false := beq_eq_false_iff_ne.2 (by omega)
  have hwhen : ∀ (f : State → State) (v : State), when false f v = v := fun _ _ => rfl
  generalize hv : when (!pageDirty s p) (pageStored p true) s = v at *
  have hres : ctrResume p v = v := ctrResume_of_nil (by rw [hsbg]; exact hw)
  rw [afterStore]
  simp only [hv, hres, h1, h2, h3, h4, h5, hwhen]
  rw [clearProgress, hrcd, hc]

/-- A store that verified, as the saddlebag then is. -/
def storeLanded (b : Nat) (r : StoreRun) (s : State) : State :=
  let same := pageCells s.sbg.work r.page = r.image
  s |> onSbg (fun g => { g with
        shadow := putPage r.page r.image g.shadow, written := nsAdd r.page g.written, ue := nsDel r.page g.ue
        running := tabDel b g.running, autoset := if same || r.auto then nsDel r.page g.autoset else g.autoset
        weak := nsDel r.page g.weak, lastPage := tabSet 0 b r.page g.lastPage
        since := if same then tabDel r.page g.since else tabPut r.page (s.gtc + 1) g.since
        reqs := if same then nsDel r.page g.reqs else g.reqs })
    |> finc F.SBG_STORES_COUNT 0
    |> when (nsHas r.page s.sbg.weak) (fun s => s |> finc F.SBG_REFRESH_WEAK 0 |> fset F.SBG_ERR_REFRESH_FIX 0)
    |> drawCap b

theorem storeGood_eq : storeGood b r s = afterStore r.page (storeLanded b r s) := rfl

theorem storeLanded_sbg : (storeLanded b r s).sbg = { s.sbg with
    shadow := putPage r.page r.image s.sbg.shadow, written := nsAdd r.page s.sbg.written, ue := nsDel r.page s.sbg.ue
    running := tabDel b s.sbg.running
    autoset := if pageCells s.sbg.work r.page = r.image || r.auto then nsDel r.page s.sbg.autoset else s.sbg.autoset
    weak := nsDel r.page s.sbg.weak, lastPage := tabSet 0 b r.page s.sbg.lastPage
    since := if pageCells s.sbg.work r.page = r.image then tabDel r.page s.sbg.since else tabPut r.page (s.gtc + 1) s.sbg.since
    reqs := if pageCells s.sbg.work r.page = r.image then nsDel r.page s.sbg.reqs else s.sbg.reqs } := by
  have hk : ∀ (c : Bool) (x : State), (drawCap b (when c (fun s => s |> finc F.SBG_REFRESH_WEAK 0 |> fset F.SBG_ERR_REFRESH_FIX 0) x)).sbg = x.sbg :=
    fun c x => agree_of_kept (ps := [.regs]) (by simp) .sbg
  exact (hk _ _).trans rfl

theorem storeLanded_count : fget (storeLanded b r s) F.SBG_STORES_COUNT 0 = min (fget s F.SBG_STORES_COUNT 0 + 1) (fmax F.SBG_STORES_COUNT) := by
  have hw : ∀ (c : Bool) (x : State), fget (when c (fun s => s |> finc F.SBG_REFRESH_WEAK 0 |> fset F.SBG_ERR_REFRESH_FIX 0) x) F.SBG_STORES_COUNT 0
      = fget x F.SBG_STORES_COUNT 0 := fun c x => by
    cases c
    · rfl
    · exact (fget_fset_other _ _ _ _ _ (by decide)).trans (fget_finc_other _ _ _ _ _ (by decide))
  refine (sbgKept_drawCap (by decide)).trans ((hw _ _).trans ?_)
  exact fget_finc_same ..

/-- The image of a store in the shadow. -/
theorem pageCells_putPage {img m : List Host.Cell} (h : ∀ x ∈ img, x.1 / 256 = p) : pageCells (putPage p img m) p = img := by
  have happ : ∀ a c : List Host.Cell, pageCells (a ++ c) p = pageCells a p ++ pageCells c p := fun a c => by
    induction a with
    | nil => rfl
    | cons x a ih =>
      simp only [pageCells, List.cons_append, tabFilter] at ih ⊢
      split
      · rw [ih, List.cons_append]
      · exact ih
  have hnone : ∀ (q : Nat → Bool), (∀ k, q k = true → k / 256 ≠ p) → pageCells (tabFilter q m) p = [] := fun q hq => by
    refine List.eq_nil_iff_forall_not_mem.2 fun x hx => ?_
    obtain ⟨h1, h2⟩ := mem_tabFilter _ _ x hx
    exact hq x.1 (mem_tabFilter _ _ x h2).1 (by simpa using h1)
  have hall : pageCells img p = img := by
    clear happ hnone
    induction img with
    | nil => rfl
    | cons x img ih =>
      rw [pageCells, tabFilter, if_pos (by simpa using h x (List.mem_cons_self ..)), ← pageCells, ih fun y hy => h y (List.mem_cons_of_mem _ hy)]
  rw [putPage, happ, happ, hall, hnone _ fun k hk => by simp only [decide_eq_true_eq] at hk; omega,
    hnone _ fun k hk => by simp only [decide_eq_true_eq] at hk; omega, List.nil_append, List.append_nil]

/-- The sum of a store that is good: what of the saddlebag stands after it. -/
theorem storeGood_of_low (hp : r.page < 512) (hc : s.rcd.clearing = none) (hw : s.sbg.ctrWait = []) :
    (storeGood b r s).sbg = (storeLanded b r s).sbg ∧ keptAt sbgKey (storeLanded b r s) (storeGood b r s) := by
  have hl : keptBut s (storeLanded b r s) [.sbg, .regs] := by simp [storeLanded]
  have hcw : (storeLanded b r s).sbg.ctrWait = [] := by rw [storeLanded_sbg]; exact hw
  have hrc : (storeLanded b r s).rcd.clearing = none := by rw [agree_of_kept hl .rcd]; exact hc
  rw [storeGood_eq, afterStore_of_low hp hrc hcw]
  refine ⟨agree_of_kept (ps := [.regs, .mbx, .outbox, .host, .freeIx]) (by simp) .sbg, ?_⟩
  cases !pageDirty (storeLanded b r s) r.page
  · exact keptAt_refl
  · exact sbgKept_pageStored _ _

theorem tabHas_tabPut_same {α : Type} (n : Nat) (v : α) (l : Tab α) : tabHas (tabPut n v l) n = true := by
  induction l with
  | nil => exact if_pos rfl
  | cons x l ih =>
    rw [tabPut]
    split
    · exact if_pos rfl
    · split
      · exact if_pos rfl
      next h => exact (if_neg (Ne.symm h)).trans ih

/-- A page is dirty when its working copy is not the image that was stored. -/
theorem pageDirty_storeLanded : pageDirty (storeLanded b r s) r.page = decide (pageCells s.sbg.work r.page ≠ r.image) := by
  rw [pageDirty, storeLanded_sbg]
  by_cases h : pageCells s.sbg.work r.page = r.image
  · rw [if_pos h, tabHas_tabDel_same, decide_eq_false (not_not.2 h)]
  · rw [if_neg h, tabHas_tabPut_same, decide_eq_true h]

/-- A bit that is clear can be added. -/
theorem add_bit_lt {c b : Nat} (hb : b < 16) (hc : c < 2 ^ 16) (hz : c / 2 ^ b % 2 = 0) : c + 2 ^ b < 2 ^ 16 := by
  have hpow : 2 ^ 16 = 2 ^ b * (2 * 2 ^ (15 - b)) := by rw [← Nat.pow_succ', ← Nat.pow_add]; congr 1; omega
  rw [hpow] at hc ⊢
  have hx : c / 2 ^ b < 2 * 2 ^ (15 - b) := Nat.div_lt_of_lt_mul hc
  have hx2 : c / 2 ^ b + 2 ≤ 2 * 2 ^ (15 - b) := by omega
  have hlt : c < 2 ^ b * (c / 2 ^ b + 1) := Nat.lt_mul_div_succ c (Nat.two_pow_pos b)
  calc c + 2 ^ b < 2 ^ b * (c / 2 ^ b + 1) + 2 ^ b := by omega
    _ = 2 ^ b * (c / 2 ^ b + 2) := by ring
    _ ≤ 2 ^ b * (2 * 2 ^ (15 - b)) := Nat.mul_le_mul_left _ hx2

/-! ### A refresh pass -/

/-- A pass begins with nothing read and nothing weak. -/
def passBegun (s : State) : State :=
  s |> fset F.SBG_STATUS_REFRESH 0 |> fclr F.SBG_REFRESH_WEAK 0
    |> onSbg (fun g => { g with refreshNext := [], weak := [], refreshDue := g.refreshDue + 86400000000000 })

theorem passBegun_shows : fget (passBegun s) F.SBG_STATUS_REFRESH 0 = 1 ∧ fget (passBegun s) F.SBG_REFRESH_WEAK 0 = 0 := by
  have h : fget (fclr F.SBG_REFRESH_WEAK 0 (fset F.SBG_STATUS_REFRESH 0 s)) F.SBG_STATUS_REFRESH 0 = 1 :=
    (fget_fput_other _ _ _ _ _ _ (by decide)).trans (fget_fset_same _ _ _ (by decide))
  have h0 : fget (fclr F.SBG_REFRESH_WEAK 0 (fset F.SBG_STATUS_REFRESH 0 s)) F.SBG_REFRESH_WEAK 0 = 0 := fget_fput_same ..
  exact ⟨h, h0⟩

/-- What a store into the working copy does not change. -/
def storeView (s : State) : Tab Nat × NSet × Nat × List Host.Cell × Tab (Option StoreRun) :=
  (s.sbg.refreshNext, s.sbg.weak, s.sbg.refreshDue, s.sbg.shadow, s.sbg.running)

theorem sbStore_view (a : Nat) (bs : List Byte) : storeView (sbStore a bs s) = storeView s := by
  have ht : ∀ q u, storeView (touchPage q u) = storeView u := fun q u => by
    rw [touchPage]
    split
    · rfl
    · split <;> rfl
  have hr : ∀ q u, storeView (sbRequest q u) = storeView u := fun q u => by
    rw [sbRequest]
    split <;> rfl
  refine (forEach_induct (P := fun u => storeView u = storeView (sbPut a bs s)) (fun q u h => (hr q u).trans h) _ rfl).trans ?_
  exact forEach_induct (P := fun u => storeView u = storeView s) (fun q u h => (ht q u).trans h) _ rfl

/-- The recorder's scrub repairs copies; the pass and all other registers are as they were. -/
theorem recScrub_view {P : Nat → Prop} (h1 : ¬ P (F.REC_COUNTS_REPAIRED.key 0)) (h2 : ¬ P (F.REC_ERR_REPAIRED.key 0))
      (s : State) : storeView (recScrub s) = storeView s ∧ keptAt P s (recScrub s) := by
  have hone : ∀ slot u, storeView (scrubSlot slot u) = storeView u ∧ keptAt P u (scrubSlot slot u) := fun slot u => by
    have hfix : ∀ n b bs, storeView (repairCopy n b bs u) = storeView u ∧ keptAt P u (repairCopy n b bs u) := fun n b bs => by
      have hst : ∀ a, keptAt P u (sbStore a bs u) := fun a g i _ => fget_sbStore ..
      rw [repairCopy]
      split
      · exact ⟨sbStore_view .., by simp [h1, h2, hst]⟩
      · exact ⟨rfl, keptAt_refl⟩
    rw [scrubSlot]
    split
    · split
      · exact ⟨rfl, keptAt_refl⟩
      · exact hfix _ _ _
    · split
      · exact ⟨rfl, keptAt_refl⟩
      · exact hfix _ _ _
    · exact ⟨rfl, keptAt_refl⟩
  exact forEach_induct (P := fun u => storeView u = storeView s ∧ keptAt P s u)
    (fun q u h => ⟨(hone q u).1.trans h.1, keptAt.trans h.2 (hone q u).2⟩) _ ⟨rfl, keptAt_refl⟩

/-- A page's shadow has been read, and found weak or not. -/
def pageRead (p : Nat) (weak : Bool) (s : State) : State :=
  onSbg (fun g => { g with refreshNext := tabPut (pageBank p) (p % 256 + 1) g.refreshNext, weak := if weak then nsAdd p g.weak else g.weak }) s

/-- The pass goes on while the bank's next page is clean. -/
theorem pageRead_goes {weak : Bool} (hlow : p % 256 < 254) (hclean : pageDirty s (p + 1) = false)
    (hp : p < 4096) : refreshOver (pageRead p weak s) = false := by
  have hnext : refreshPage (pageRead p weak s) (pageBank p) ≠ none := by
    have hk : tabGet 0 (pageRead p weak s).sbg.refreshNext (pageBank p) = p % 256 + 1 := tabGet_tabPut_same ..
    have hd : ∀ q, pageDirty (pageRead p weak s) q = pageDirty s q := fun _ => rfl
    have hpage : 256 * pageBank p + (p % 256 + 1) = p + 1 := by
      show 256 * (p / 256) + _ = _
      omega
    intro h
    rw [refreshPage, Option.map_eq_none_iff, List.find?_eq_none] at h
    refine h (p % 256 + 1) (List.mem_range.2 (by omega)) ?_
    rw [hk, hd, hpage, hclean, decide_eq_true (Nat.le_refl _)]
    rfl
  refine Bool.eq_false_iff.2 fun h => ?_
  have hb := List.all_eq_true.1 h (pageBank p) (List.mem_range.2 (by show p / 256 < 16; omega))
  exact hnext (Option.isNone_iff_eq_none.1 hb)

/-! ### The second failure -/

/-- A page whose store has failed twice, as the saddlebag then is. -/
def storeGivenUp (b : Nat) (r : StoreRun) (s : State) : State :=
  s |> onSbg (fun g => { g with
        running := tabDel b g.running, autoset := nsDel r.page g.autoset, weak := nsDel r.page g.weak, reqs := nsDel r.page g.reqs
        since := tabPut r.page (s.gtc + 1) g.since })
    |> fset F.SBG_ERR_STORE_FAIL 0 |> fput F.SBG_UE_PAGE_FAILPAGE 0 r.page |> fset F.SBG_UE_PAGE_FAIL_VALID 0

/-- The supply and the page that failed, after a store's second failure. -/
theorem storeFails_of_low (hp : r.page < 512) : pageDirty (storeFails b r s) r.page = true ∧ runningStore (storeFails b r s) b = none
    ∧ fget (storeFails b r s) F.SBG_ERR_STORE_FAIL 0 = 1 ∧ fget (storeFails b r s) F.SBG_UE_PAGE_FAILPAGE 0 = r.page
    ∧ (storeFails b r s).sbg.shadow = s.sbg.shadow ∧ (storeFails b r s).sbg.work = s.sbg.work := by
  have hr : (!(decide (1024 ≤ r.page) && decide (r.page < 3200))) = true := by rw [decide_eq_false (by omega)]; rfl
  have hl : decide (r.page < 512) = true := decide_eq_true hp
  have hwhen : ∀ (f : State → State) (v : State), when true f v = f v := fun _ _ => rfl
  have he : storeFails b r s = pageStored r.page false (drawCap b (postOrQueue 2 1 5 0 7 srcSaddlebag (storeGivenUp b r s))) := by
    simp only [storeFails, hr, hl, hwhen]
    rfl
  have hk : keptBut (storeGivenUp b r s) (drawCap b (postOrQueue 2 1 5 0 7 srcSaddlebag (storeGivenUp b r s))) [.regs, .host, .rcd,
      .outbox] := by simp
  have hreg : ∀ {g : Fld} {i : Nat}, g.key i ≠ F.SBG_BANK_CAP_OK.key 0 → sbgKey (g.key i) → fget (storeFails b r s) g i = fget (storeGivenUp b r s) g i := by
    intro g i h1 h2
    rw [he, (sbgKept_pageStored r.page false).fget h2, sbgKept_drawCap h1, fget_postOrQueue]
  have hsbg : (storeFails b r s).sbg = (storeGivenUp b r s).sbg := by
    rw [he]
    exact (agree_of_kept (ps := [.regs, .mbx, .outbox, .host, .freeIx]) (by simp) .sbg).trans (agree_of_kept hk .sbg)
  refine ⟨?_, ?_, (hreg (by decide) (by decide)).trans ?_, (hreg (by decide) (by decide)).trans ?_, by rw [hsbg]; rfl, by rw [hsbg]; rfl⟩
  · rw [pageDirty, hsbg]
    exact tabHas_tabPut_same ..
  · rw [runningStore, hsbg]
    exact tabGet_tabDel_same ..
  · exact (fget_fset_other _ _ _ _ _ (by decide)).trans ((fget_fput_other _ _ _ _ _ _ (by decide)).trans (fget_fput_same ..))
  · refine (fget_fset_other _ _ _ _ _ (by decide)).trans ((fget_fput_same ..).trans (Nat.mod_eq_of_lt ?_))
    show r.page < 2 ^ 12
    omega

end

/-- Settles O47: each by its command; a good store's page is the image, the second failure leaves the page dirty. -/
theorem saddlebagStoresPages : Obligations.SaddlebagStoresPages := by
  unfold Obligations.SaddlebagStoresPages
  intro s hg hmode hready hform
  have hm : s.mode ≠ .off := by rw [hmode]; decide
  have haon : aonOn (stampNow s) = true := by
    show (s.mode != .off) = true
    rw [hmode]
    rfl
  have hrdy : sbReady (stampNow s) = true := hready
  have hrm : refreshMode (stampNow s) = true := by
    simp [refreshMode, haon, hmode]
  refine ⟨fun p hd hq => ?lazy, fun b p hrun hnext => ⟨fun hall => ?start, fun hall => ?held⟩,
    fun b r hrun hp => ⟨fun hc hw => ?good, fun hf => ?again, fun hf => ?fails⟩, fun b hlt hz => ?cap, fun ok => ?supply, fun hno => ?pass,
    fun p differs hon hrun hnext hpage hlow hclean hweak => ?read⟩
  case lazy =>
    have hc : (aonOn (stampNow s) && sbReady (stampNow s) && pageDirty (stampNow s) p.val && !nsHas p.val (stampNow s).sbg.reqs) = true := by
      rw [haon, hrdy, show pageDirty (stampNow s) p.val = true from hd, show nsHas p.val (stampNow s).sbg.reqs = false from hq]
      rfl
    obtain ⟨hv1, hv2, hk⟩ := advanced_spec hg hm (tabGet 0 s.sbg.since p.val - 1 + max 1 (fget s F.SBG_CFG_LAZY_MS 0) * 1000000)
    have he : lazyExpiry p.val (stampNow s)
        = sbRequest p.val (advanceTo (tabGet 0 s.sbg.since p.val - 1 + max 1 (fget s F.SBG_CFG_LAZY_MS 0) * 1000000) (stampNow s)) := by
      rw [lazyExpiry, hc]
      rfl
    generalize advanceTo (tabGet 0 s.sbg.since p.val - 1 + max 1 (fget s F.SBG_CFG_LAZY_MS 0) * 1000000) (stampNow s) = v at *
    have hreq : sbRequest p.val v = onSbg (fun g => { g with reqs := nsAdd p.val g.reqs }) v :=
      if_pos (by rw [pageDirty, agree_of_kept hk .sbg]; exact hd)
    rw [hreq] at he
    refine ⟨_, run_of_effect he, ?_, ?_, keptBut_settle_gtc (keptBut_trans (keptBut_mono hk (by simp)) (by simp)), ?_⟩
    · rw [settle_sbg, onSbg_sbg]
      exact nsHas_nsAdd_same ..
    · rw [settle_sbg, onSbg_sbg, agree_of_kept hk .sbg]
    · rw [settle_gtc, onSbg_gtc, hv2]
  case start =>
    have hc : (!aonOn (stampNow s) || !sbReady (stampNow s) || (runningStore (stampNow s) b.val).isSome) = false := by
      rw [haon, hrdy, show runningStore (stampNow s) b.val = none from hrun]
      rfl
    have he : storeStart b.val (stampNow s) = onSbg (fun g => { g with
        running := tabPut b.val (some ⟨p, 0, pageCells g.work p, nsHas p g.autoset⟩) g.running }) (stampNow s) := by
      rw [storeStart, hc, if_neg Bool.false_ne_true, show nextStore (stampNow s) b.val = some p from hnext]
      exact if_pos hall
    exact ⟨_, run_of_effect he, tabGet_tabPut_same .., fun c hc => tabGet_tabPut_ne _ _ hc _, rfl, keptBut_of_effect hg (by simp)⟩
  case held =>
    have hc : (!aonOn (stampNow s) || !sbReady (stampNow s) || (runningStore (stampNow s) b.val).isSome) = false := by
      rw [haon, hrdy, show runningStore (stampNow s) b.val = none from hrun]
      rfl
    have he : storeStart b.val (stampNow s) = fset F.SBG_ERR_NO_SUPPLY 0 (stampNow s) := by
      rw [storeStart, hc, if_neg Bool.false_ne_true, show nextStore (stampNow s) b.val = some p from hnext]
      exact if_neg (by rw [show storeAllowed (stampNow s) b.val = false from hall]; exact Bool.false_ne_true)
    refine ⟨_, run_of_effect he, (fget_settle ..).trans (fget_fset_same _ _ _ (by decide)), ?_, keptBut_of_effect hg (by simp)⟩
    rw [regsKept_iff_of_regs (settle_regs ..)]
    simp
  case good =>
    have hrun' : runningStore (stampNow s) b.val = some r := hrun
    have he : storeComplete b.val true (stampNow s) = storeGood b.val r (stampNow s) := by
      rw [storeComplete, hrun']
      rfl
    obtain ⟨hsbg, hregs⟩ := storeGood_of_low (s := stampNow s) (b := b.val) hp hc hw
    have himg := (hform.2.2 b.val r hrun).2
    have hland := storeLanded_sbg (s := stampNow s) (b := b.val) (r := r)
    have hdirty := pageDirty_storeLanded (s := stampNow s) (b := b.val) (r := r)
    have hcount := storeLanded_count (s := stampNow s) (b := b.val) (r := r)
    generalize storeLanded b.val r (stampNow s) = v at *
    refine ⟨_, run_of_effect he, ?_, fun a ha => ?_, ?_, ?_, ?_, ?_, ?_⟩
    · rw [settle_sbg, hsbg, hland]
      exact pageCells_putPage himg
    · rw [settle_sbg, hsbg, hland]
      exact (tabGet_putPage r.page r.image s.sbg.shadow himg a).trans (if_neg ha)
    · rw [settle_sbg, hsbg, hland]
      rfl
    · rw [settle_sbg, hsbg, hland]
      exact nsHas_nsAdd_same ..
    · rw [runningStore, settle_sbg, hsbg, hland]
      exact tabGet_tabDel_same ..
    · rw [pageDirty, settle_sbg, hsbg, ← pageDirty, hdirty]
      rfl
    · rw [fget_settle, hregs.fget (by decide), hcount]
      rfl
  case again =>
    have hrun' : runningStore (stampNow s) b.val = some r := hrun
    have he : storeComplete b.val false (stampNow s) = (stampNow s |> fset F.SBG_ERR_STORE_RETRY 0
        |> onSbg (fun g => { g with running := tabPut b.val (some { r with fails := 1 }) g.running })) := by
      rw [storeComplete, hrun']
      exact if_pos hf
    refine ⟨_, run_of_effect he, tabGet_tabPut_same .., (fget_settle ..).trans (fget_fset_same _ _ _ (by decide)), rfl, rfl, ?_,
      keptBut_of_effect hg (by simp)⟩
    rw [regsKept_iff_of_regs (settle_regs ..)]
    simp
  case fails =>
    have hrun' : runningStore (stampNow s) b.val = some r := hrun
    have he : storeComplete b.val false (stampNow s) = storeFails b.val r (stampNow s) := by
      rw [storeComplete, hrun']
      exact if_neg hf
    obtain ⟨h1, h2, h3, h4, h5, h6⟩ := storeFails_of_low (s := stampNow s) (b := b.val) hp
    exact ⟨_, run_of_effect he, h2, h1, h3, h4, h5, h6⟩
  case cap =>
    have hc : (!aonOn (stampNow s) || decide (fget (stampNow s) F.SBG_BANK_CAP_OK 0 / 2 ^ b.val % 2 = 1)) = false := by
      rw [haon, show fget (stampNow s) F.SBG_BANK_CAP_OK 0 / 2 ^ b.val % 2 = 0 from hz]
      rfl
    have he : recharge b.val (stampNow s) = fput F.SBG_BANK_CAP_OK 0 (fget s F.SBG_BANK_CAP_OK 0 + 2 ^ b.val) (stampNow s) :=
      if_neg (by rw [hc]; exact Bool.false_ne_true)
    refine ⟨_, run_of_effect he, (fget_fput_same ..).trans (Nat.mod_eq_of_lt (add_bit_lt b.isLt hlt hz)), ?_, keptBut_of_effect hg (by simp)⟩
    rw [regsKept_iff_of_regs (settle_regs ..)]
    simp
  case supply =>
    have he : supplyThreshold ok (stampNow s) = fbit F.SBG_STATUS_SUPPLY_OK 0 ok (stampNow s) := if_pos haon
    refine ⟨_, run_of_effect he, ?_, ?_, keptBut_of_effect hg (by simp)⟩
    · refine (fget_fput_same ..).trans (Nat.mod_eq_of_lt ?_)
      cases ok <;> decide
    · rw [regsKept_iff_of_regs (settle_regs ..)]
      simp
  case pass =>
    have hc : (refreshMode (stampNow s) && sbReady (stampNow s) && !fon (stampNow s) F.SBG_STATUS_REFRESH 0) = true := by
      rw [hrm, hrdy, show fon (stampNow s) F.SBG_STATUS_REFRESH 0 = false from hno]
      rfl
    obtain ⟨hv1, hv2, hk⟩ := advanced_spec hg hm s.sbg.refreshDue
    have he : refreshStart (stampNow s) = (if scanning (passBegun (advanceTo s.sbg.refreshDue (stampNow s)))
        then passBegun (advanceTo s.sbg.refreshDue (stampNow s)) else recScrub (passBegun (advanceTo s.sbg.refreshDue (stampNow s)))) := by
      rw [refreshStart, hc, if_pos rfl]
      rfl
    have hbk : keptBut (advanceTo s.sbg.refreshDue (stampNow s)) (passBegun (advanceTo s.sbg.refreshDue (stampNow s))) [.sbg,
      .regs] := by simp [passBegun]
    have hbv : (passBegun (advanceTo s.sbg.refreshDue (stampNow s))).sbg
        = { s.sbg with refreshNext := [], weak := [], refreshDue := s.sbg.refreshDue + 86400000000000 } := rfl
    have hbr : regsKept s (passBegun (advanceTo s.sbg.refreshDue (stampNow s))) [(F.SBG_STATUS_REFRESH, 0), (F.SBG_REFRESH_WEAK, 0)] :=
      regsKept_trans (regsKept_of_kept hk) (by simp [passBegun])
    have hbs : scanning (passBegun (advanceTo s.sbg.refreshDue (stampNow s))) = scanning s := by
      have h : fget (passBegun (advanceTo s.sbg.refreshDue (stampNow s))) F.REC_STATUS_SCANNING 0 = fget s F.REC_STATUS_SCANNING 0 := hbr _ _ (by decide)
      rw [scanning, fon, h]
      rfl
    obtain ⟨hb1, hb2⟩ := passBegun_shows (s := advanceTo s.sbg.refreshDue (stampNow s))
    replace hbk := keptBut_trans (keptBut_mono hk (by simp : _ ⊆ [.gtc, .stamp, .sbg, .regs])) (keptBut_mono hbk (by simp))
    have hbg : (passBegun (advanceTo s.sbg.refreshDue (stampNow s))).gtc % 2 ^ 64 = max s.gtc (s.sbg.refreshDue % 2 ^ 64) := hv2
    generalize passBegun (advanceTo s.sbg.refreshDue (stampNow s)) = u at *
    obtain ⟨w, hw, hwv, hwr, hwk, hws⟩ : ∃ w, refreshStart (stampNow s) = w ∧ storeView w = storeView u ∧ keptAt sbgKey u w
      ∧ keptBut u w [.sbg, .regs]
        ∧ (scanning s = true → w = u) := by
      rw [he, hbs]
      cases scanning s
      · exact ⟨_, rfl, (recScrub_view (P := sbgKey) (by decide) (by decide) u).1, (recScrub_view (by decide) (by decide) u).2, by simp,
          fun h => by cases h⟩
      · exact ⟨u, rfl, rfl, keptAt_refl, keptBut_refl _ _, fun _ => rfl⟩
    obtain ⟨v1, v2, v3, v4, v5⟩ : w.sbg.refreshNext = [] ∧ w.sbg.weak = [] ∧ w.sbg.refreshDue = s.sbg.refreshDue + 86400000000000
        ∧ w.sbg.shadow = s.sbg.shadow ∧ w.sbg.running = s.sbg.running := by
      have h : storeView w = ([], [], s.sbg.refreshDue + 86400000000000, s.sbg.shadow, s.sbg.running) := by rw [hwv, storeView, hbv]
      simpa [storeView] using h
    refine ⟨_, run_of_effect hw, ?_, (hwr.fget (by decide)).trans hb1, (hwr.fget (by decide)).trans hb2, v1, v2, v3, v4, v5, ?_, fun hsc => ⟨?_, ?_⟩⟩
    · rw [settle_gtc, agree_of_kept hwk .gtc, hbg]
    · exact keptBut_settle_gtc (keptBut_trans (keptBut_mono hbk (by simp)) (keptBut_mono hwk (by simp)))
    · rw [settle_sbg, hws hsc, hbv]
    · rw [regsKept_iff_of_regs (settle_regs ..), hws hsc]
      exact hbr
  case read =>
    have hc : (refreshMode (stampNow s) && fon (stampNow s) F.SBG_STATUS_REFRESH 0 && (runningStore (stampNow s) (pageBank p.val)).isNone
        && (nextStore (stampNow s) (pageBank p.val)).isNone && decide (refreshPage (stampNow s) (pageBank p.val) = some p.val)) = true := by
      rw [hrm, show fon (stampNow s) F.SBG_STATUS_REFRESH 0 = true from hon, show runningStore (stampNow s) (pageBank p.val) = none from hrun,
        show nextStore (stampNow s) (pageBank p.val) = none from hnext, show refreshPage (stampNow s) (pageBank p.val) = some p.val from hpage]
      simp
    have hover := pageRead_goes (s := stampNow s) (p := p.val) (weak := differs || pageCells s.sbg.work p.val != pageCells s.sbg.shadow p.val)
      hlow hclean p.isLt
    have he : shadowRead p.val differs (stampNow s)
        = pageRead p.val (differs || pageCells s.sbg.work p.val != pageCells s.sbg.shadow p.val) (stampNow s) := by
      rw [shadowRead]
      dsimp only
      rw [hc, if_pos rfl]
      exact if_neg (by rw [Bool.not_eq_true]; exact hover)
    refine ⟨_, run_of_effect he, ?_, tabGet_tabPut_same .., rfl, keptBut_of_effect hg (by simp [pageRead])⟩
    have hne : (pageCells s.sbg.work p.val != pageCells s.sbg.shadow p.val) = decide (pageCells s.sbg.work p.val ≠ pageCells s.sbg.shadow p.val) := by
      rw [Bool.eq_iff_iff]
      simp
    rw [settle_sbg, pageRead, onSbg_sbg, hne]
    cases (differs || decide (pageCells s.sbg.work p.val ≠ pageCells s.sbg.shadow p.val))
    · exact hweak
    · exact nsHas_nsAdd_same ..

end Sys2Proof.Machine
end

section
/-! PROOF. The recorder's scan, capture, writing, verifying and forwarding (R270, R271, R275, R277 to R279, R317). -/
namespace Sys2Proof.Machine

set_option Elab.async false

section
variable {s t u v : State}

/-! ### A record's bytes and places -/

theorem rcdBytes_length (r : Rcd) : (rcdBytes r).length = 128 := by
  simp [rcdBytes, rcdBody]

/-- Bank A's slots, then bank B's, 128 bytes each. -/
theorem slotAddr_eq {slot b : Nat} (hb : b < 2) : slotAddr slot b = (if b = 0 then 262144 else 540672) + 128 * slot := by
  rw [slotAddr]
  split <;> omega

/-- Bytes that were stored read back. -/
theorem sbBytes_sbStore_same (a : Nat) (bs : List Byte) (s : State) : sbBytes (sbStore a bs s) a bs.length = bs := by
  simpa using sbBytes_sbStore a [] bs [] s

theorem sbBytes_sbStore_apart {a k n : Nat} {bs : List Byte} (h : k + n ≤ a ∨ a + bs.length ≤ k) (s : State) :
    sbBytes (sbStore a bs s) k n = sbBytes s k n := by
  refine List.map_congr_left fun i hi => ?_
  have := List.mem_range.1 hi
  exact sbByte_sbStore_outside (by omega) s

theorem copyUsed_of_regs (h : t.regs = s.regs) (b : Nat) : copyUsed t b = copyUsed s b := by rw [copyUsed, copyUsed, fon, fon, fget, fget, h]

/-- A slot that is written reads back in each copy in use. -/
theorem copyBytes_putSlot_same {slot b : Nat} {bs : List Byte} (hb : b < 2) (hu : copyUsed s b = true) (hs : slot < 2176) (hl : bs.length = 128) :
    copyBytes (putSlot slot bs s) slot b = bs := by
  have hsame : ∀ a v, sbBytes (sbStore a bs v) a 128 = bs := fun a v => hl ▸ sbBytes_sbStore_same a bs v
  have h0 := slotAddr_eq (slot := slot) (b := 0) (by decide)
  have h1 := slotAddr_eq (slot := slot) (b := 1) (by decide)
  simp only [if_pos, if_neg Nat.one_ne_zero] at h0 h1
  rw [copyBytes, putSlot]
  obtain rfl | rfl : b = 0 ∨ b = 1 := by omega
  · rw [hu]
    cases copyUsed s 1
    · exact hsame _ s
    · exact (sbBytes_sbStore_apart (by omega) _).trans (hsame _ s)
  · rw [hu]
    exact hsame _ _

theorem copyBytes_putSlot_other {k slot b : Nat} {bs : List Byte} (hb : b < 2) (hk : k < 2176) (hs : slot < 2176) (hne : k ≠ slot)
      (hl : bs.length = 128) :
    copyBytes (putSlot k bs s) slot b = copyBytes s slot b := by
  have hone : ∀ (c : Bool) (j : Nat) (v : State), j < 2 → sbBytes (when c (sbStore (slotAddr k j) bs) v) (slotAddr slot b) 128
      = sbBytes v (slotAddr slot b) 128 := fun c j v hj => by
    have h1 := slotAddr_eq (slot := k) hj
    have h2 := slotAddr_eq (slot := slot) hb
    cases c
    · rfl
    · refine sbBytes_sbStore_apart ?_ v
      rw [hl, h1, h2]
      split <;> split <;> omega
  exact (hone _ 1 _ (by decide)).trans (hone _ 0 s (by decide))

/-- The recorder's counter lies in no slot. -/
theorem copyBytes_ctrUpdate {slot b body : Nat} (hb : b < 2) : copyBytes (ctrUpdate ctrRecorder body s) slot b = copyBytes s slot b := by
  have h := slotAddr_eq (slot := slot) hb
  have hc : ctrRecorder = 245792 := rfl
  refine List.map_congr_left fun i hi => sbByte_ctrUpdate (.inr ?_)
  rw [h, hc]
  split <;> omega

/-! ### What a write begins -/

/-- The record goes to its slot, and to a permanent one that is free, with the counter. -/
def recordPut (r : Rcd) (slot perm : Nat) (s : State) : State :=
  s |> putSlot slot (rcdBytes r) |> when (decide (perm < 128)) (putSlot perm (rcdBytes r)) |> ctrUpdate ctrRecorder (r.seq % 2 ^ 32)

theorem recordPut_copies {r : Rcd} {slot perm b : Nat} (hb : b < 2) (hu : copyUsed s b = true) (hlow : 128 ≤ slot) (hs : slot < 2176) :
    copyBytes (recordPut r slot perm s) slot b = rcdBytes r := by
  rw [recordPut, copyBytes_ctrUpdate hb]
  cases hp : decide (perm < 128)
  · exact copyBytes_putSlot_same hb hu hs (rcdBytes_length r)
  · have := of_decide_eq_true hp
    exact (copyBytes_putSlot_other hb (by omega) hs (by omega) (rcdBytes_length r)).trans (copyBytes_putSlot_same hb hu hs (rcdBytes_length r))

/-! ### What a verified record shows -/

/-- A record that stands, of a type that nothing waits for. -/
theorem recordStands_spec {r : Rcd} (slot perm : Nat) (h3 : r.type ≠ 3) (h4 : r.type ≠ 4) (h10 : r.type ≠ 0x10) :
    (recordStands r slot perm s).rcd = { s.rcd with writing := none } ∧ fget (recordStands r slot perm s) F.REC_NEWEST_SEQ 0 = r.seq % 2 ^ 32
      ∧ fget (recordStands r slot perm s) F.REC_WP_SLOT 0 = nextCirc slot % 2 ^ 12
      ∧ (perm < 128 → fget (recordStands r slot perm s) F.REC_STATUS_PERM 0 = min (fget s F.REC_STATUS_PERM 0 + 1) (fmax F.REC_STATUS_PERM))
      ∧ keptBut s (recordStands r slot perm s) [.rcd, .regs]
      ∧ regsKept s (recordStands r slot perm s) [(F.REC_NEWEST_SEQ, 0), (F.REC_WP_SLOT, 0), (F.REC_STATUS_PERM, 0), (F.REC_OLDEST_SEQ, 0)] := by
  have he : recordStands r slot perm s = (s |> onRcd (fun x => { x with writing := none }) |> fput F.REC_NEWEST_SEQ 0 r.seq
      |> fput F.REC_WP_SLOT 0 (nextCirc slot) |> when (decide (perm < 128)) (finc F.REC_STATUS_PERM 0) |> refreshOldest) := by
    have h1 : (r.type == 0x10 && s.rcd.clearing.isSome) = false := by rw [beq_eq_false_iff_ne.2 h10]; rfl
    have hafter : ∀ u, afterRecord r.type u = u := fun u => by rw [afterRecord, decide_eq_false h3, decide_eq_false h4]; rfl
    rw [recordStands, h1, hafter]
    rfl
  have hold : ∀ (u : State) (g : Fld) (i : Nat), g.key i ≠ F.REC_OLDEST_SEQ.key 0 → fget (refreshOldest u) g i = fget u g i :=
    fun u g i h => fget_fput_other _ _ _ _ _ _ h
  have hinc : ∀ (c : Bool) (u : State) (g : Fld) (i : Nat),
      g.key i ≠ F.REC_STATUS_PERM.key 0 → fget (when c (finc F.REC_STATUS_PERM 0) u) g i = fget u g i :=
    fun c u g i h => by
      cases c
      · rfl
      · exact fget_finc_other _ _ _ _ _ h
  rw [he]
  refine ⟨?_, ?_, ?_, fun hp => ?_, by simp, by simp [refreshOldest]⟩
  · cases decide (perm < 128) <;> rfl
  · rw [hold _ _ _ (by decide), hinc _ _ _ _ (by decide), fget_fput_other _ _ _ _ _ _ (by decide)]
    exact fget_fput_same ..
  · rw [hold _ _ _ (by decide), hinc _ _ _ _ (by decide)]
    exact fget_fput_same ..
  · rw [hold _ _ _ (by decide), decide_eq_true hp]
    refine (fget_finc_same ..).trans ?_
    rw [fget_fput_other _ _ _ _ _ _ (by decide), fget_fput_other _ _ _ _ _ _ (by decide)]
    rfl

/-- Copy A fails. -/
theorem bankFault_shows (slot : Nat) : fget (bankFault 0 slot s) F.REC_STATUS_DEGRADED 0 = 1 ∧ fget (bankFault 0 slot s) F.REC_STATUS_BANK_A_BAD 0 = 1
    ∧ fget (bankFault 0 slot s) F.REC_ERR_VERIFY_A 0 = 1
    ∧ regsKept s (bankFault 0 slot s) [(F.REC_STATUS_DEGRADED, 0), (F.REC_STATUS_BANK_A_BAD, 0), (F.REC_ERR_VERIFY_A, 0)] := by
  have hr : (bankFault 0 slot s).regs = (s |> fset F.REC_STATUS_DEGRADED 0 |> fset F.REC_STATUS_BANK_A_BAD 0 |> fset F.REC_ERR_VERIFY_A 0).regs := rfl
  refine ⟨?_, ?_, ?_, by rw [regsKept_iff_of_regs hr]; simp⟩
  · rw [fget, hr, ← fget, fget_fset_other _ _ _ _ _ (by decide), fget_fset_other _ _ _ _ _ (by decide)]
    exact fget_fset_same _ _ _ (by decide)
  · rw [fget, hr, ← fget, fget_fset_other _ _ _ _ _ (by decide)]
    exact fget_fset_same _ _ _ (by decide)
  · rw [fget, hr]
    exact fget_fset_same _ _ _ (by decide)

/-- The fragments of a record, over a ring in use. -/
theorem sendFragments_length (r : Rcd) (h : fon s F.PEL_CFG_EN 0 = true) : (sendFragments r s).outbox.length = s.outbox.length + 22 := by
  have hone : ∀ (g : Nat → State → Nat) (xs : List Nat) (u : State), fon u F.PEL_CFG_EN 0 = true →
      (forEach xs (fun i v => ringOut 5 (g i v) v) u).outbox.length = u.outbox.length + xs.length := fun g xs => by
    induction xs with
    | nil => exact fun _ _ => rfl
    | cons x xs ih =>
      intro u hu
      have hr : (ringOut 5 (g x u) u).outbox.length = u.outbox.length + 1 := by
        rw [ringOut, if_pos hu]
        simp [emit]
      have hu' : fon (ringOut 5 (g x u) u) F.PEL_CFG_EN 0 = true := by
        rw [fon, fget_of_kept (s := u) (ps := [.outbox]) (by simp)]
        exact hu
      rw [forEach_cons, ih _ hu', hr, List.length_cons]
      omega
  exact (hone _ (List.range 22) s h).trans (by rw [List.length_range])

/-! ### The scan's end and a capture -/

/-- The records held follow AON_UP, and the copies are repaired. -/
def scanQueued (n : Nat) (up : Rcd) (s : State) : State :=
  s |> numberHeld n |> onRcd (fun x => { x with queue := up :: x.queue, lostSince := 0 })
    |> (fun s => fhigh F.REC_QUEUE_HWM 0 (min 32 s.rcd.queue.length) s) |> recScrub

/-- What the scan leaves: AON_UP goes ahead of the records held. -/
theorem scanEnd_eq (h : (!aonOn s || !sbReady s || !scanning s) = false) : ∃ u up, scanEnd s = scanQueued (scanNext s) up u
    ∧ u.rcd = s.rcd ∧ fget u F.REC_STATUS_SCANNING 0 = 0 ∧ up.type = 1 ∧ up.source = 0x700 ∧ up.cls = 7 ∧ up.seq = scanNext s := by
  rw [scanEnd, h, if_neg Bool.false_ne_true]
  refine ⟨_, _, rfl, ?_, fget_fput_same .., rfl, rfl, rfl, rfl⟩
  refine agree_of_kept (s := s) (ps := [.regs, .sbg]) ?_ .rcd
  simp

theorem scanQueued_rcd (n : Nat) (up : Rcd) : (scanQueued n up s).rcd
    = { (numberHeld n s).rcd with queue := up :: (numberHeld n s).rcd.queue, lostSince := 0 } := by
  have hk : ∀ v, keptBut v (fhigh F.REC_QUEUE_HWM 0 (min 32 v.rcd.queue.length) v |> recScrub) [.regs, .sbg] := fun v => by simp
  rw [scanQueued, agree_of_kept (hk _) .rcd, onRcd_rcd]

theorem scanQueued_scanning (n : Nat) (up : Rcd) : fget (scanQueued n up s) F.REC_STATUS_SCANNING 0 = fget s F.REC_STATUS_SCANNING 0 := by
  have hscrub : ∀ v, fget (recScrub v) F.REC_STATUS_SCANNING 0 = fget v F.REC_STATUS_SCANNING 0 := fun v =>
    (recScrub_view (P := fun k => k = F.REC_STATUS_SCANNING.key 0) (by decide) (by decide) v).2.fget rfl
  have hhigh : ∀ n v, fget (fhigh F.REC_QUEUE_HWM 0 n v) F.REC_STATUS_SCANNING 0 = fget v F.REC_STATUS_SCANNING 0 := fun n v =>
    fget_fput_other _ _ _ _ _ _ (by decide)
  rw [scanQueued, hscrub, hhigh, fget_onRcd, numberHeld, fget_fput_other _ _ _ _ _ _ (by decide), fget_onRcd]

theorem scanEnd_scanned (h : (!aonOn s || !sbReady s || !scanning s) = false) : scanning (scanEnd s) = false
    ∧ (∃ up, (scanEnd s).rcd.queue.head? = some up ∧ up.type = 1 ∧ up.source = 0x700 ∧ up.cls = 7 ∧ up.seq = scanNext s)
    ∧ (scanEnd s).rcd.queue.length = s.rcd.queue.length + 1 ∧ (scanEnd s).rcd.lostSince = 0 := by
  obtain ⟨u, up, he, hr, hs, hup⟩ := scanEnd_eq h
  have hheld : ∀ n u, (numberHeld n u).rcd.queue.length = u.rcd.queue.length := fun n u => by
    rw [numberHeld, fput_rcd, onRcd_rcd]
    exact List.length_map _
  rw [he, scanning, fon, scanQueued_scanning, hs, scanQueued_rcd]
  refine ⟨rfl, ⟨up, rfl, hup⟩, ?_, rfl⟩
  rw [List.length_cons, hheld, hr]

/-- One landed event is captured in the tick after its stamp. -/
theorem captureStep_single {l : Landed} (hl : s.rcd.landed = [l]) (ha : aonOn s = true) : captureStep s
    = captureOne l (onRcd (fun r => { r with landed := [] }) (advanceTo ((l.stamp / 250 + 1) * 250) s)) := by
  have hg : (!aonOn s) = false := by rw [ha]; rfl
  have hrest : (onRcd (fun r => { r with landed := r.landed.filter (fun x => x.stamp / 250 != l.stamp / 250) })
      (advanceTo ((l.stamp / 250 + 1) * 250) s))
      = onRcd (fun r => { r with landed := [] }) (advanceTo ((l.stamp / 250 + 1) * 250) s) := by
    have hn : (advanceTo ((l.stamp / 250 + 1) * 250) s).rcd.landed = [l] := hl
    simp only [onRcd, hn]
    simp
  rw [captureStep, hl]
  dsimp only [List.foldl_nil]
  rw [hg, if_neg Bool.false_ne_true, hrest]
  simp [sortBy, insertBy, forEach]

/-- A record is appended to the queue. -/
theorem captureOne_queued {l : Landed} (ht : l.type ≠ 2) (hs : scanning s = false) (hq : s.rcd.queue.length < 32) : captureOne l s
    = (s |> fput F.REC_SEQ_SEQ 0 ((fget s F.REC_SEQ_SEQ 0 + 1) % 2 ^ 32)
        |> onRcd (fun x => { x with queue := x.queue ++ [buildRcd s l (fget s F.REC_SEQ_SEQ 0)], lostSince := 0 })
        |> fhigh F.REC_QUEUE_HWM 0 (s.rcd.queue.length + 1)) := by
  have hn : nextNumber s = fget s F.REC_SEQ_SEQ 0 := by rw [nextNumber, hs, if_neg Bool.false_ne_true]
  have htk : takeNumber s = fput F.REC_SEQ_SEQ 0 ((fget s F.REC_SEQ_SEQ 0 + 1) % 2 ^ 32) s := by rw [takeNumber, hs, if_neg Bool.false_ne_true]
  have h2 : ¬ (decide (l.type = 2) && s.rcd.ffl.isNone) = true := by rw [decide_eq_false ht]; exact Bool.false_ne_true
  rw [captureOne, hn, htk]
  exact (if_neg h2).trans (if_pos hq)

theorem buildRcd_spec (l : Landed) (n : Nat) : (buildRcd s l n).type = l.type ∧ (buildRcd s l n).cls = l.cls ∧ (buildRcd s l n).source = l.source
    ∧ (buildRcd s l n).seq = n ∧ (buildRcd s l n).epoch = fget s F.PEL_STATUS_EPOCH 0 ∧ ∀ ws,
      l.fixed = some ws → (buildRcd s l n).snap = ws.take 26 := by
  rw [buildRcd]
  cases l.fixed with
  | none => exact ⟨rfl, rfl, rfl, rfl, rfl, fun ws h => by cases h⟩
  | some ws => exact ⟨rfl, rfl, rfl, rfl, rfl, fun ws' h => by cases h; rfl⟩

end

/-- Settles O45: each step of a record's way, from its capture to its stored copies or its partner. -/
theorem recordsAreCapturedWrittenAndVerified : Obligations.RecordsAreCapturedWrittenAndVerified := by
  unfold Obligations.RecordsAreCapturedWrittenAndVerified
  intro s hg hm hrdy
  have haon : aonOn (stampNow s) = true := by
    show (s.mode != .off) = true
    simpa using hm
  have hrdy' : sbReady (stampNow s) = true := hrdy
  refine ⟨fun hsc => ?scan, fun l hl ht hsc hlen => ?capture, fun r rest hq hf hsc hw hc hv hsup h10 => ?write,
    fun r slot perm hw h3 h4 h10 hu0 hu1 hp hs0 hs1 => ?verify, fun r n x hf hwait => ?timeout⟩
  case scan =>
    have hgo : (!aonOn (stampNow s) || !sbReady (stampNow s) || !scanning (stampNow s)) = false := by
      rw [haon, hrdy', show scanning (stampNow s) = true from hsc]
      rfl
    obtain ⟨h1, ⟨up, h2, h3, h4, h5, h6⟩, h7, h8⟩ := scanEnd_scanned hgo
    exact ⟨_, up, run_of_effect rfl, h1, h2, h3, h4, h5, h6, h7, h8⟩
  case capture =>
    obtain ⟨hv1, hv2, hk⟩ := advanced_spec hg hm ((l.stamp / 250 + 1) * 250)
    have he := captureStep_single (s := stampNow s) hl haon
    have hku : keptBut s (onRcd (fun r => { r with landed := [] }) (advanceTo ((l.stamp / 250 + 1) * 250) (stampNow s))) [.gtc, .stamp, .rcd] :=
      keptBut_trans (keptBut_mono hk (by simp)) (by simp)
    have hru : (onRcd (fun r => { r with landed := [] }) (advanceTo ((l.stamp / 250 + 1) * 250)
      (stampNow s))).rcd = { s.rcd with landed := [] } := rfl
    have hgu : (onRcd (fun r => { r with landed := [] }) (advanceTo ((l.stamp / 250 + 1) * 250) (stampNow s))).gtc % 2 ^ 64
        = max s.gtc ((l.stamp / 250 + 1) * 250 % 2 ^ 64) := hv2
    generalize onRcd (fun r => { r with landed := [] }) (advanceTo ((l.stamp / 250 + 1) * 250) (stampNow s)) = u at *
    have hfld : ∀ g i, fget u g i = fget s g i := fun g i => fget_of_kept hku g i
    rw [captureOne_queued ht (by rw [scanning, fon, hfld]; exact hsc) (by rw [hru]; exact hlen)] at he
    obtain ⟨b1, b2, b3, b4, b5, b6⟩ := buildRcd_spec (s := u) l (fget u F.REC_SEQ_SEQ 0)
    generalize buildRcd u l (fget u F.REC_SEQ_SEQ 0) = r at *
    refine ⟨_, r, run_of_effect he, ?_, ?_, b1, b2, b3, b4.trans (hfld _ _), b5.trans (hfld _ _), b6, ?_, ?_, ?_⟩
    · rw [settle_gtc, fhigh, fput_gtc, onRcd_gtc, fput_gtc, hgu]
    · rw [settle_rcd, fhigh, fput_rcd, onRcd_rcd, fput_rcd, hru]
    · rw [fget_settle, fhigh, fget_fput_other _ _ _ _ _ _ (by decide), fget_onRcd]
      refine (fget_fput_same ..).trans ?_
      rw [hfld]
      exact Nat.mod_mod _ _
    · rw [regsKept_iff_of_regs (settle_regs ..)]
      exact regsKept_trans (regsKept_of_kept hku) (by simp)
    · exact keptBut_settle_gtc (keptBut_trans (keptBut_mono hku (by simp)) (by simp))
  case write =>
    have hnext : nextRecord (stampNow s) = some (r, false) := by
      rw [nextRecord, show (stampNow s).rcd.queue = r :: rest from hq, show (stampNow s).rcd.ffl = none from hf]
    have hgo : (!aonOn (stampNow s) || !sbReady (stampNow s) || scanning (stampNow s) || (stampNow s).rcd.writing.isSome
        || ((stampNow s).rcd.clearing.isSome && !clearUnwritten (stampNow s))) = false := by
      rw [haon, hrdy', show scanning (stampNow s) = false from hsc, show (stampNow s).rcd.writing = none from hw,
        show (stampNow s).rcd.clearing = none from hc]
      rfl
    have hsup' : (!fon (stampNow s) F.SBG_STATUS_SUPPLY_OK 0) = false := by
      rw [show fon (stampNow s) F.SBG_STATUS_SUPPLY_OK 0 = true from hsup]
      rfl
    have he : writeStart (stampNow s) = recordPut r (fget s F.REC_WP_SLOT 0) (fget s F.REC_STATUS_PERM 0) (takeRecord false (stampNow s)
        |> onRcd (fun x => { x with writing := some (r, fget s F.REC_WP_SLOT 0, if fget s F.REC_STATUS_PERM 0 < 128 then fget s F.REC_STATUS_PERM 0 else 4096) })) := by
      have hslot : circSlotOf (stampNow s) r = fget s F.REC_WP_SLOT 0 := if_neg h10
      rw [writeStart, hnext]
      dsimp only
      rw [hgo, if_neg Bool.false_ne_true, show recVolatile (stampNow s) = false from hv, if_neg Bool.false_ne_true, hsup',
        if_neg Bool.false_ne_true, hslot]
      rfl
    have hk : ∀ u, keptBut u (recordPut r (fget s F.REC_WP_SLOT 0) (fget s F.REC_STATUS_PERM 0) u) [.sbg] := fun u => by simp [recordPut]
    refine ⟨_, run_of_effect he, ?_, fun b hb hu hlo hhi => ?_, keptBut_of_effect hg (keptBut_trans ?_ (keptBut_mono (hk _) (by simp)))⟩
    · have hdrop : s.rcd.queue.drop 1 = rest := by rw [hq]; rfl
      rw [settle_rcd, agree_of_kept (hk _) .rcd, ← hdrop]
      rfl
    · exact recordPut_copies hb hu hlo hhi
    · simp
  case verify =>
    intro stands
    have hw' : (stampNow s).rcd.writing = some (r, slot, perm) := hw
    have he : ∀ aOk, verifyStep aOk true (stampNow s) = (stampNow s |> when (!aOk) (bankFault 0 slot) |> recordStands r slot perm) := fun aOk => by
      have hwait : ∀ b, (copyPages slot perm b).any (storePending (stampNow s)) = false := hp
      have hs0' : copyStored (stampNow s) r slot perm 0 aOk = aOk := by
        cases aOk
        · rfl
        · exact hs0
      have hs1' : copyStored (stampNow s) r slot perm 1 true = true := hs1
      have hu0' : copyUsed (stampNow s) 0 = true := hu0
      have hu1' : copyUsed (stampNow s) 1 = true := hu1
      rw [verifyStep, hw']
      simp only [hwait, hs0', hs1', hu0', hu1']
      cases aOk <;> rfl
    have hst : ∀ u : State, u.sbg = s.sbg → fget u F.REC_STATUS_PERM 0 = fget s F.REC_STATUS_PERM 0 → stands (settle s (recordStands r slot perm u)) :=
      fun u hsb hpm => by
        obtain ⟨h1, h2, h3, h4, h5, -⟩ := recordStands_spec (s := u) (r := r) slot perm h3 h4 h10
        exact ⟨congrArg Recorder.writing h1, h2, h3, fun hlt => (h4 hlt).trans (by rw [hpm]), (agree_of_kept h5 .sbg).trans hsb⟩
    obtain ⟨-, -, -, -, k5, k6⟩ := recordStands_spec (s := stampNow s) (r := r) slot perm h3 h4 h10
    obtain ⟨-, -, -, -, -, f6⟩ := recordStands_spec (s := bankFault 0 slot (stampNow s)) (r := r) slot perm h3 h4 h10
    have hbk : keptBut (stampNow s) (bankFault 0 slot (stampNow s)) [.regs, .rcd] := by simp
    obtain ⟨b1, b2, b3, b4⟩ := bankFault_shows (s := stampNow s) slot
    have hshown : ∀ {g : Fld}, (∀ y ∈ [(F.REC_NEWEST_SEQ, 0), (F.REC_WP_SLOT, 0), (F.REC_STATUS_PERM, 0), (F.REC_OLDEST_SEQ, 0)],
      g.key 0 ≠ y.1.key y.2) →
        fget (settle s (recordStands r slot perm (bankFault 0 slot (stampNow s)))) g 0 = fget (bankFault 0 slot (stampNow s)) g 0 :=
      fun hg' => (fget_settle ..).trans (f6 _ _ hg')
    refine ⟨⟨_, run_of_effect (he true), hst (stampNow s) rfl rfl, keptBut_of_effect hg (keptBut_mono k5 (by simp)), ?_⟩,
      ⟨_, run_of_effect (he false), hst _ (agree_of_kept hbk .sbg) (b4 _ _ (by decide)), (hshown (by decide)).trans b1, (hshown (by decide)).trans b2,
        (hshown (by decide)).trans b3, (hshown (by decide)).trans ((b4 _ _ (by decide)).trans ?_)⟩⟩
    · rw [regsKept_iff_of_regs (settle_regs ..)]
      exact k6
    · simpa [copyUsed, fon] using hu1
  case timeout =>
    have hf' : (stampNow s).rcd.fwd = some (r, n, x) := hf
    obtain ⟨hv1, hv2, hk⟩ := advanced_spec hg hm (x + 100000)
    by_cases hn : n = 1
    · have he : recackTimeout (stampNow s) = sendFragments r (onRcd (fun y => { y with fwd := some (r, 2, max s.gtc ((x + 100000) % 2 ^ 64)) })
          (advanceTo (x + 100000) (stampNow s))) := by
        rw [recackTimeout, hf', ← hv1]
        exact if_pos hn
      have hks : ∀ u, keptBut u (sendFragments r u) [.outbox] := fun u => by simp
      refine ⟨_, run_of_effect he, ?_, fun _ => ⟨?_, fun hen => ?_, ?_⟩, fun h => absurd hn h⟩
      · rw [settle_gtc, agree_of_kept (hks _) .gtc, onRcd_gtc, hv2]
      · rw [settle_rcd, agree_of_kept (hks _) .rcd, onRcd_rcd, agree_of_kept hk .rcd, settle_gtc, agree_of_kept (hks _) .gtc, onRcd_gtc, hv2]
      · rw [settle_outbox, sendFragments_length]
        · exact congrArg (fun o => List.length o + 22) (agree_of_kept hk .outbox)
        · rw [fon, fget_onRcd, fget_of_kept hk]
          exact hen
      · exact keptBut_settle_gtc (keptBut_trans (keptBut_mono hk (by simp)) (keptBut_trans (by simp) (keptBut_mono (hks _) (by simp))))
    · have he : recackTimeout (stampNow s) = (advanceTo (x + 100000) (stampNow s) |> onRcd (fun y => { y with fwd := none })
          |> fset F.REC_ERR_FWD_FAIL 0) := by
        have hnil : ((advanceTo (x + 100000) (stampNow s) |> onRcd (fun y => { y with fwd := none })
          |> fset F.REC_ERR_FWD_FAIL 0)).rcd.fwdWait = [] := by
          rw [fset, fput_rcd, onRcd_rcd, agree_of_kept hk .rcd]
          exact hwait
        rw [recackTimeout, hf']
        refine (if_neg hn).trans ?_
        rw [forwardNext, hnil]
        split
        next h => cases h
        next => rfl
      refine ⟨_, run_of_effect he, ?_, fun h => absurd h hn, fun _ => ⟨?_, ?_, ?_⟩⟩
      · rw [settle_gtc, fset, fput_gtc, onRcd_gtc, hv2]
      · rw [settle_rcd, fset, fput_rcd, onRcd_rcd, agree_of_kept hk .rcd]
      · exact (fget_settle ..).trans (fget_fset_same _ _ _ (by decide))
      · exact agree_of_kept hk .outbox

end Sys2Proof.Machine
end

section
/-! PROOF. A margin in the tick of the rail's fault (R236). -/
namespace Sys2Proof.Machine

set_option Elab.async false

/-- MAINTENANCE with channel 31 on and good, its trim path stored and driven, and a fault of the channel in this very tick. -/
def marginInFaultTick : State :=
  onSeq (fun q => { q with faultAt := [(31, tickOf (Sys2Proof.Tests.marginable 1) + 1)] }) (Sys2Proof.Tests.marginable 1)

/-- It meets what the margin clause asks for. -/
theorem marginInFaultTick_meets : (marginInFaultTick.gtc = 0 ∧ Sys2Proof.Tests.canReach marginInFaultTick .primary 0xC014 .maintenance = true)
    ∧ gangOf marginInFaultTick 31 = none ∧ chanOn marginInFaultTick 31 = true ∧ powerGood marginInFaultTick 31 = true
    ∧ marginOf marginInFaultTick 31 = none
    ∧ fget (loadReg (regOf F.SEQ_CHn_MARGIN_PATH) 31 marginInFaultTick) F.SEQ_CHn_MARGIN_PATH 31 = 1
    ∧ fon marginInFaultTick F.SEQ_CHn_TRIM_DRIVING 31 = true := by
  decide +kernel

/-- The input of Margin Rail: channel 31, trim to code 512 within 0 to 1023, 4 ticks of settling. -/
def trimInput : List Byte := [31, 0] ++ leBytes 2 4 ++ leBytes 2 0 ++ leBytes 2 1023 ++ leBytes 2 512

/-- The command is refused: no margin begins. -/
theorem marginInFaultTick_refused :
    marginOf (settle marginInFaultTick
      (command .primary 0xC014 .maintenance (len 10) trimInput (marginRail .primary trimInput) (stampNow marginInFaultTick))) 31 = none := by
  decide +kernel

/-- Refutes O60: in the tick of a fault of the rail, a margin of it is refused with CONFLICT (R236), whatever else the clause asks for
holds; nothing in the statement bars that tick. -/
theorem not_railAndConverterCommandsBegin : ¬ Obligations.RailAndConverterCommandsBegin := by
  unfold Obligations.RailAndConverterCommandsBegin
  intro h
  obtain ⟨⟨hgtc, hcan⟩, hgang, hon, hgood, hnone, hpath, hdriving⟩ := marginInFaultTick_meets
  have hg : gtcOk marginInFaultTick := by unfold gtcOk; rw [hgtc]; decide
  obtain ⟨hmargin, -⟩ := h marginInFaultTick .primary 31 hg
  obtain ⟨htrim, -⟩ := hmargin 4 0 1023 512 (Sys2Proof.Tests.reaches_of_canReach hcan) (by decide) (by decide) (by decide) (by decide)
    (by decide) hgang hon hgood (fun m hm => nomatch hnone.symm.trans hm)
  obtain ⟨t, m, he, hm, -⟩ := htrim hpath hdriving
  have ht : settle marginInFaultTick
      (command .primary 0xC014 .maintenance (len 10) trimInput (marginRail .primary trimInput) (stampNow marginInFaultTick)) = t := by
    injection he
  have hrefused : marginOf t 31 = none := by
    rw [← ht]
    exact marginInFaultTick_refused
  exact nomatch hrefused.symm.trans hm

end Sys2Proof.Machine
end

section
/-! SUPPORT. Stores that a command asks for, and its answer once they are done (R295, R335). -/
namespace Sys2Proof.Machine

set_option Elab.async false

section
variable {s t u : State} {via : Transport} {op : Nat}

/-! ### Requested pages -/

theorem nsHas_nsAdd_of {n m : Nat} {l : NSet} (h : nsHas m l = true) : nsHas m (nsAdd n l) = true := by
  by_cases hn : m = n
  · rw [hn]
    exact nsHas_nsAdd_same n l
  · rw [nsHas_nsAdd_ne hn]
    exact h

theorem sbRequest_since (p : Nat) : (sbRequest p s).sbg.since = s.sbg.since := by
  rw [sbRequest]
  split <;> rfl

theorem sbRequest_keeps {p q : Nat} (h : nsHas q s.sbg.reqs = true) : nsHas q (sbRequest p s).sbg.reqs = true := by
  rw [sbRequest]
  split
  · exact nsHas_nsAdd_of h
  · exact h

theorem requestAll_since (ps : List Nat) : (forEach ps sbRequest s).sbg.since = s.sbg.since :=
  forEach_induct (P := fun u => u.sbg.since = s.sbg.since) (fun p _ h => (sbRequest_since p).trans h) _ rfl

/-- Of the pages asked for, every dirty one is in the list of requests. -/
theorem requestAll_requests (ps : List Nat) : ∀ u : State, ∀ p ∈ ps, pageDirty u p = true → nsHas p (forEach ps sbRequest u).sbg.reqs = true := by
  induction ps with
  | nil => exact fun _ _ hp => absurd hp List.not_mem_nil
  | cons q ps ih =>
    intro u p hp hd
    rcases List.mem_cons.1 hp with rfl | hp
    · show nsHas p (forEach ps sbRequest (sbRequest p u)).sbg.reqs = true
      refine forEach_induct (P := fun v => nsHas p v.sbg.reqs = true) (fun q v h => sbRequest_keeps h) _ ?_
      rw [sbRequest, if_pos hd]
      exact nsHas_nsAdd_same ..
    · refine ih (sbRequest q u) p hp ?_
      rw [pageDirty, sbRequest_since]
      exact hd

theorem sbStore_requests (a : Nat) (bs : List Byte) (p : Nat) (hp : p ∈ pagesOf a bs.length) (hd : pageDirty (sbStore a bs s) p = true) :
    nsHas p (sbStore a bs s).sbg.reqs = true := by
  refine requestAll_requests _ (sbPut a bs s) p hp ?_
  rw [pageDirty, sbStore, requestAll_since] at hd
  exact hd

/-- A store writes its bytes and asks for its dirty pages. -/
theorem wrote_sbStore (a : Nat) (bs : List Byte) : wrote s (sbStore a bs s) a bs := by
  obtain ⟨-, hshadow, hrunning⟩ := sbStore_bytes a bs s
  exact ⟨sbByte_sbStore a bs s, sbStore_requests a bs, hshadow, hrunning⟩

/-- What was written is a matter of the saddlebag alone. -/
theorem wrote_of_sbg {a : Nat} {bs : List Byte} (h : wrote s t a bs) (hs : s.sbg = u.sbg) {v : State} (ht : v.sbg = t.sbg) : wrote u v a bs := by
  simp only [wrote, sbByte, pageDirty, ht, ← hs]
  exact h

/-! ### The command's end -/

theorem mem_foldl_nsAdd {p : Nat} (ps : List Nat) : ∀ l : NSet, p ∈ ps.foldl (fun t p => nsAdd p t) l ↔ p ∈ ps ∨ p ∈ l := by
  induction ps with
  | nil => simp
  | cons q ps ih =>
    intro l
    rw [List.foldl_cons, ih, mem_nsAdd, List.mem_cons]
    tauto

/-- A command that waits for pages is answered at once when none of them is dirty, else held for those that are. -/
theorem finishStored_ends (pages : List Nat) (reload : List (Nat × Nat)) (out : List Byte) :
    endsStored s (finishStored via op pages reload out s) via op pages reload out := by
  have hkept : (finishStored via op pages reload out s).sbg = s.sbg :=
    agree_of_kept (s := s) (ps := [.mbx, .outbox]) (by simp) .sbg
  have hmem : ∀ p, p ∈ (pages.filter (pageDirty s)).foldl (fun t p => nsAdd p t) [] ↔ p ∈ pages ∧ pageDirty s p = true := fun p => by
    simp [mem_foldl_nsAdd]
  have hdirty : ∀ p, pageDirty (finishStored via op pages reload out s) p = pageDirty s p := fun p => by rw [pageDirty, hkept]; rfl
  simp only [endsStored, hdirty]
  rw [finishStored]
  generalize (pages.filter (pageDirty s)).foldl (fun t p => nsAdd p t) [] = ps at hmem
  cases ps with
  | nil =>
    have hclean : ∀ p ∈ pages, pageDirty s p = false := fun p hp => by
      simpa using fun hd : pageDirty s p = true => List.not_mem_nil ((hmem p).2 ⟨hp, hd⟩)
    rw [if_pos hclean, if_pos List.isEmpty_nil, succeed_eq]
    exact ⟨rfl, rfl⟩
  | cons q ps =>
    obtain ⟨hq, hd⟩ := (hmem q).1 List.mem_cons_self
    rw [if_neg fun h => Bool.false_ne_true ((h q hq).symm.trans hd)]
    exact ⟨rfl, _, rfl, rfl, rfl, rfl, rfl, hmem⟩

/-- How a command ends is a matter of the mailboxes, what was sent, and the dirty pages. -/
theorem endsStored_of_eq {pages : List Nat} {reload : List (Nat × Nat)} {out : List Byte} (h : endsStored s t via op pages reload out)
    (hs : (s.outbox, s.mbx, s.host) = (u.outbox, u.mbx, u.host)) {v : State} (ht : (v.outbox, v.mbx, v.sbg) = (t.outbox, t.mbx, t.sbg)) :
    endsStored u v via op pages reload out := by
  simp only [Prod.mk.injEq] at hs ht
  obtain ⟨h1, h2, h3⟩ := hs
  obtain ⟨k1, k2, k3⟩ := ht
  simp only [endsStored, pageDirty, sends, shows, k1, k2, k3, ← h1, ← h2, ← h3]
  exact h

/-- A command that stores bytes and ends with their pages. -/
theorem storeFor_stored (a : Nat) (bs : List Byte) (reload : List (Nat × Nat)) (out : List Byte) :
    wrote s (storeFor via op a bs reload out s) a bs ∧ endsStored s (storeFor via op a bs reload out s) via op (pagesOf a bs.length) reload out
      ∧ keptBut s (storeFor via op a bs reload out s) [.sbg, .mbx, .outbox] := by
  have hk : keptBut s (sbStore a bs s) [.sbg] := by simp
  have hf : keptBut (sbStore a bs s) (storeFor via op a bs reload out s) [.mbx, .outbox] := by simp [storeFor]
  have hmbx : s.mbx = (sbStore a bs s).mbx := (agree_of_kept hk .mbx).symm
  have hhost : s.host = (sbStore a bs s).host := (agree_of_kept hk .host).symm
  have hout : s.outbox = (sbStore a bs s).outbox := (agree_of_kept hk .outbox).symm
  refine ⟨wrote_of_sbg (wrote_sbStore a bs) rfl (agree_of_kept hf .sbg), ?_, by simp [storeFor]⟩
  exact endsStored_of_eq (finishStored_ends ..) (by rw [hmbx, hhost, hout]) rfl

/-- At its instant, a command that reaches its meaning is its body. -/
theorem command_body {acc : Accept} {lenOk : Nat → Bool} {input : List Byte} (body : State → State) (h : reaches s via op acc)
    (hlen : lenOk input.length = true) (hmax : via = .mctp → input.length ≤ payloadMax via) :
    command via op acc lenOk input body (stampNow s) = body (stampNow s) := command_of_reaches body (s := stampNow s) h hlen hmax

/-- So runs a command whose body stores bytes and waits for them. -/
theorem command_stores {acc : Accept} {lenOk : Nat → Bool} {input : List Byte} {body : State → State} {a : Nat} {bs : List Byte}
    {reload : List (Nat × Nat)} {out : List Byte} (h : reaches s via op acc) (hlen : lenOk input.length = true)
    (hmax : via = .mctp → input.length ≤ payloadMax via)
    (hb : body (stampNow s) = storeFor via op a bs reload out (stampNow s)) :
    ∃ u, run (command via op acc lenOk input body) s = .next u ∧ wrote s u a bs ∧ endsStored s u via op (pagesOf a bs.length) reload out
      ∧ keptBut s u [.sbg, .mbx, .outbox] := by
  obtain ⟨hw, he, hk⟩ := storeFor_stored (s := stampNow s) (via := via) (op := op) a bs reload out
  refine ⟨_, run_of_effect ((command_body body h hlen hmax).trans hb), ?_, ?_, ?_⟩
  · exact wrote_of_sbg hw rfl rfl
  · exact endsStored_of_eq he rfl rfl
  · exact keptBut_of_effect h.1 (keptBut_mono hk (by simp))

end
end Sys2Proof.Machine
end

section
/-! SUPPORT. What the stored settings' checks read (R11, R220, R334, R349): bytes of an input, images of registers, and the checks of the rails
as they do not see the stamp of the instant. -/
namespace Sys2Proof.Machine

set_option Elab.async false

section
variable {s u : State} {via : Transport} {op : Nat} {input : List Byte}

/-! ### Inputs -/

/-- The first four bytes of an input: what it starts with, and the rest. -/
theorem eq_head_append {b : Byte} (h : input.take 4 = [b, 0, 0, 0]) : input = b :: 0 :: 0 :: 0 :: input.drop 4 := by
  calc input = input.take 4 ++ input.drop 4 := (List.take_append_drop 4 input).symm
    _ = b :: 0 :: 0 :: 0 :: input.drop 4 := by rw [h]; rfl

theorem leAt_byte (b : Byte) (t : List Byte) : leAt 0 1 (b :: t) = b.toNat := by simp [leAt, ofLe]

/-- A number's low byte, and what is above it. -/
theorem leAt_split (off n : Nat) (bs : List Byte) : leAt off 1 bs = leAt off (n + 1) bs % 256 ∧ leAt (off + 1) n bs = leAt off (n + 1) bs / 256 := by
  have hd : bs.drop (off + 1) = (bs.drop off).drop 1 := by rw [List.drop_drop]
  simp only [leAt, hd]
  cases bs.drop off with
  | nil => simp [ofLe]
  | cons b t =>
    have hb := b.isLt
    simp only [List.take_succ_cons, List.drop_one, List.tail_cons, ofLe, List.take_zero]
    omega

/-- A selector in the first byte, with the next three reserved. -/
theorem selector_of_head {k : Nat} (hk : k < 256) (h : input.take 4 = [BitVec.ofNat 8 k, 0, 0, 0]) :
    leAt 0 1 input = k ∧ rsvOk 1 3 input = true := by
  rw [eq_head_append h]
  exact ⟨(leAt_byte _ _).trans (by simpa using hk), rfl⟩

theorem wordsOf_length (n : Nat) (bs : List Byte) : (wordsOf n bs).length = n := by
  induction n generalizing bs with
  | zero => rfl
  | succ n ih => rw [wordsOf, List.length_cons, ih]

theorem flatMap_leBytes_length {α : Type} (f : α → Nat) (n : Nat) (xs : List α) : (xs.flatMap (fun x => leBytes n (f x))).length = n * xs.length := by
  induction xs with
  | nil => rfl
  | cons x xs ih => rw [List.flatMap_cons, List.length_append, leBytes_length, ih, List.length_cons, Nat.mul_succ, Nat.add_comm]

/-- As many images are stored as there are registers. -/
theorem imagesRw_length {fs : List Fld} {n : Nat} (h : fs.length = n) (bs : List Byte) : (imagesRw fs (wordsOf n bs)).length = 4 * n := by
  rw [imagesRw, flatMap_leBytes_length (fun x : Fld × Nat => imageRw x.1 x.2), List.length_zip, wordsOf_length, h, Nat.min_self]

/-! ### The pages of a small store -/

/-- A store within a page is a store to that page. -/
theorem pagesOf_page {p off n : Nat} (hn : 0 < n) (h : off + n ≤ 256) : pagesOf (256 * p + off) n = [p] := by
  have h1 : (256 * p + off) / 256 = p := by omega
  have h2 : (256 * p + off + n - 1) / 256 = p := by omega
  rw [pagesOf, if_neg (by omega), h1, h2, Nat.sub_self]
  simp

theorem putWrap_eq (p : Nat) (bs : List Byte) : ∀ (off : Nat) (m : List Host.Cell), off + bs.length ≤ 256 →
    putWrap p off bs m = putBytes (256 * p + off) bs m := by
  induction bs with
  | nil => exact fun _ _ _ => rfl
  | cons b bs ih =>
    intro off m h
    rw [List.length_cons] at h
    rw [putWrap, putBytes, ih (off + 1) _ (by omega), Nat.mod_eq_of_lt (by omega), Nat.add_assoc]

/-- A write that does not reach the end of its page does not wrap. -/
theorem sbPutWrap_eq {p off : Nat} {bs : List Byte} (hn : 0 < bs.length) (h : off + bs.length ≤ 256) :
    sbPutWrap p off bs s = sbPut (256 * p + off) bs s := by
  rw [sbPutWrap, sbPut, pagesOf_page hn h]
  simp only [putWrap_eq p bs off _ h]
  rfl

/-! ### The checks of the rails, whatever the stamp -/

/-- A state with another stamp. -/
def withStamp (k : Nat) (s : State) : State := { s with stamp := k }

/-- A function that the stamp of the instant passes through. -/
def Unstamped (f : State → State) : Prop := ∀ (s : State) (k : Nat), f (withStamp k s) = withStamp k (f s)

theorem unstamped_forEach {α : Type} {f : α → State → State} (h : ∀ x, Unstamped (f x)) (xs : List α) : Unstamped (forEach xs f) := by
  induction xs with
  | nil => exact fun _ _ => rfl
  | cons x xs ih =>
    intro s k
    show forEach xs f (f x (withStamp k s)) = withStamp k (forEach xs f (f x s))
    rw [h x s k]
    exact ih (f x s) k

theorem unstamped_touchPage (p : Nat) : Unstamped (touchPage p) := fun s k => by
  have hd : pageDirty (withStamp k s) p = pageDirty s p := rfl
  have hc : (withStamp k s).sbg = s.sbg := rfl
  simp only [touchPage, hd, hc]
  split
  · rfl
  · split <;> rfl

theorem unstamped_sbPut (a : Nat) (bs : List Byte) : Unstamped (sbPut a bs) := fun s k =>
  unstamped_forEach unstamped_touchPage (pagesOf a bs.length) (onSbg (fun g => { g with work := putBytes a bs g.work }) s) k

theorem unstamped_asStored (a : Nat) (bs : List Byte) : Unstamped (asStored a bs) := fun s k => by
  rw [asStored, unstamped_sbPut]
  rfl

theorem unstamped_loadReg (r : RegDef) (i : Nat) : Unstamped (loadReg r i) := fun s k => by
  rw [loadReg, loadReg]
  cases regHome r i with
  | none => rfl
  | some a => exact unstamped_forEach (fun f s k => by simp only [show fldUnset (withStamp k s) f = fldUnset s f from rfl]; rfl) _ s k

theorem unstamped_seqLoaded : Unstamped seqLoaded :=
  unstamped_forEach (fun r => unstamped_forEach (unstamped_loadReg r) (List.range r.count)) _

theorem configAllowed_stamp (u : State) (k : Nat) : configAllowed (withStamp k u) = configAllowed u := by
  unfold configAllowed
  rfl

theorem longestPath_stamp (u : State) (k : Nat) (ws : List Nat) : longestPath (withStamp k u) ws = longestPath u ws := by
  have h : ∀ (ws : List Nat) (i : Nat), pathsFrom (withStamp k u) i ws = pathsFrom u i ws := fun ws => by
    induction ws with
    | nil => exact fun _ => rfl
    | cons w ws ih => exact fun i => by rw [pathsFrom, pathsFrom, ih (i + 1)]; rfl
  rw [longestPath, longestPath, h]

theorem tableAllowed_stamp (u : State) (k : Nat) (ws : List Nat) : tableAllowed (withStamp k u) ws = tableAllowed u ws := by
  rw [tableAllowed, tableAllowed, longestPath_stamp]
  rfl

theorem tableWords_stamp (u : State) (k t : Nat) : tableWords (withStamp k u) t = tableWords u t := by
  unfold tableWords
  rfl

theorem railsAllowed_stamp (t : State) (k : Nat) : railsAllowed (withStamp k t) = railsAllowed t := by
  simp only [railsAllowed, unstamped_seqLoaded t k, configAllowed_stamp, tableAllowed_stamp, tableWords_stamp]

theorem pathsOut_stamp (t : State) (k : Nat) : pathsOut (withStamp k t) = pathsOut t := by
  simp only [pathsOut, unstamped_seqLoaded t k, longestPath_stamp, tableWords_stamp]

/-- A rail command's store, when neither protection nor R220 is against it. -/
theorem storeRails_of_allowed {a : Nat} {bs : List Byte} (hp : rangeProtected s a bs.length = false) (ha : railsAllowed (asStored a bs s) = true) :
    storeRails via op a bs (stampNow s) = storeFor via op a bs [] (pathsOut (asStored a bs s)) (stampNow s) := by
  have hs : asStored a bs (stampNow s) = withStamp s.gtc (asStored a bs s) := unstamped_asStored a bs s s.gtc
  have hp' : rangeProtected (stampNow s) a bs.length = false := hp
  rw [storeRails, hs, railsAllowed_stamp, pathsOut_stamp, hp', ha]
  rfl

end
end Sys2Proof.Machine
end

section
/-! PROOF. Settings that commands store (R217, R245, R273, R302, R338, R346 to R357). -/
namespace Sys2Proof.Machine

set_option Elab.async false

section
variable {s u : State} {via : Transport} {op : Nat} {input : List Byte}

/-! ### The bodies, once their checks pass -/

theorem setService_of_ok (hok : imagesOk serviceRegs (wordsOf 7 input) = true)
    (hp : rangeProtected s (816 * 256) (imagesRw serviceRegs (wordsOf 7 input)).length = false) :
    setService via input s = storeFor via 0xC009 homeService (imagesRw serviceRegs (wordsOf 7 input)) [(homeService, 28)] [] s := by
  have hp' : rangeProtected s homeService 28 = false := by rw [← hp, imagesRw_length (fs := serviceRegs) (n := 7) rfl]; rfl
  simp [setService, hok, hp']

theorem setRailTable_of_ok {t : Nat} (ht : t < 2) (hin : input.take 4 = [BitVec.ofNat 8 t, 0, 0, 0])
      (hw : noneBlank (wordsOf 64 (input.drop 4)) = true) :
    setRailTable via input s = storeRails via 0xC011 (homeTable t) (input.drop 4) s := by
  obtain ⟨h0, hr⟩ := selector_of_head (by omega) hin
  simp [setRailTable, h0, hr, hw, Nat.not_lt.2 (Nat.le_of_lt_succ ht)]

theorem setRailChannel_of_ok {c : Nat} (hc : c < 32) (hin : input.take 4 = [BitVec.ofNat 8 c, 0, 0, 0])
    (hok : imagesOk chanRegs (wordsOf 6 (input.drop 4)) = true) :
    setRailChannel via input s = storeRails via 0xC012 (homeChan c) (imagesRw chanRegs (wordsOf 6 (input.drop 4))) s := by
  obtain ⟨h0, hr⟩ := selector_of_head (by omega) hin
  simp [setRailChannel, h0, hr, hok, Nat.not_lt.2 (Nat.le_of_lt_succ hc)]

theorem setRailGlobals_of_ok (hok : imagesOk globalRegs (wordsOf 11 input) = true) :
    setRailGlobals via input s = storeRails via 0xC013 homeGlobals (imagesRw globalRegs (wordsOf 11 input)) s := by
  simp [setRailGlobals, hok]

theorem homeList_pages {c : Nat} : pagesOf (homeList c) 106 = [homeList c / 256] := by
  have h : homeList c = 256 * (800 + c / 2) + 128 * (c % 2) := by rw [homeList]; omega
  rw [h, pagesOf_page (by decide) (by omega)]
  congr 1
  omega

theorem setSnapshotList_of_ok {c : Nat} (hc : c < 8) (hlen : input.length = 108) (hin : input.take 4 = [BitVec.ofNat 8 c, 0, 0, 0])
    (hes : ∀ e ∈ wordsOf 26 (input.drop 4), e = 0xFFFFFFFF ∨ e < 2 ^ 28)
    (hp : rangeProtected s (homeList c) (input.drop 4 ++ leBytes 2 (nextListId s c)).length = false) :
    setSnapshotList via input s
      = storeFor via 0xC024 (homeList c) (input.drop 4 ++ leBytes 2 (nextListId s c)) [] (leBytes 2 (nextListId s c)) s := by
  obtain ⟨h0, hr⟩ := selector_of_head (by omega) hin
  have hbad : (wordsOf 26 (input.drop 4)).any (fun e => e != 0xFFFFFFFF && decide (e / 2 ^ 28 ≠ 0)) = false := by
    simp only [List.any_eq_false, Bool.and_eq_true, bne_iff_ne, ne_eq, decide_eq_true_eq, not_and, not_not]
    exact fun e he hne => Nat.div_eq_of_lt ((hes e he).resolve_left hne)
  have hn : (input.drop 4 ++ leBytes 2 (nextListId s c)).length = 106 := by simp [hlen]
  have htake : (input.drop 4).take 104 = input.drop 4 := List.take_of_length_le (by simp [hlen])
  rw [hn] at hp
  simp only [setSnapshotList, storeFor, h0, hr, hbad, hp, htake, hn, homeList_pages, decide_eq_false (Nat.not_lt.2 (Nat.le_of_lt_succ hc))]
  rfl

theorem setSchedule_of_ok {n : Nat} (hn : n < 8) (h1 : n ≠ 0) (hin : input.take 4 = [BitVec.ofNat 8 n, 0, 0, 0])
    (hok : imagesOk ([F.MCVn_CFG_SPACING, F.MCVn_TRIG_SRC] ++ slotRegs) (wordsOf 34 (input.drop 4)) = true)
    (hmc : n = 1 → mc1Allowed (leAt 4 4 input) (leAt 12 4 input) = true)
    (hp : rangeProtected s (homeConv n) (imagesRw ([F.MCVn_CFG_SPACING, F.MCVn_TRIG_SRC] ++ slotRegs) (wordsOf 34 (input.drop 4))).length = false) :
    setSchedule via input s = storeFor via 0xC031 (homeConv n)
      (imagesRw ([F.MCVn_CFG_SPACING, F.MCVn_TRIG_SRC] ++ slotRegs) (wordsOf 34 (input.drop 4))) [(homeConv n, 136)]
      (leBytes 4 (cycleTicks (leAt 4 4 input)).1 ++ leBytes 4 (cycleTicks (leAt 4 4 input)).2) s := by
  obtain ⟨h0, hr⟩ := selector_of_head (by omega) hin
  have hp' : rangeProtected s (homeConv n) 136 = false := by
    rw [← hp, imagesRw_length (n := 34) (by simp [slotRegs])]
  have hcfg : (wordsOf 34 (input.drop 4)).headD 0 = leAt 4 4 input := rfl
  have hslot : (wordsOf 34 (input.drop 4)).getD 2 0 = leAt 12 4 input := by
    simp only [wordsOf, List.drop_drop, List.getD_cons_succ, List.getD_cons_zero]
    simp only [leAt, List.drop_drop, Nat.add_zero]
  have ht : (n == 1 && !mc1Allowed (leAt 4 4 input) (leAt 12 4 input)) = false := by
    by_cases h : n = 1
    · simp [hmc h]
    · simp [h]
  simp only [setSchedule, h0, hr, hok, hp', hcfg, hslot, ht, h1, decide_eq_false (Nat.not_lt.2 (Nat.le_of_lt_succ hn))]
  rfl

/-- A cycle's ticks, from the bytes of the CFG word. -/
theorem cycleTicks_bytes : cycleTicks (leAt 4 4 input) = ((leAt 4 4 input / 65536 % 64 + 1) * max 4 (leAt 4 1 input),
    (leAt 4 4 input / 65536 % 64 + 1) * max 32 (leAt 5 1 input)) := by
  have hlow := leAt_split 4 3 input
  have hhigh := leAt_split 5 2 input
  have h1 : fieldOf F.MCVn_CFG_SPACING (leAt 4 4 input) = leAt 4 1 input := by
    rw [hlow.1]
    exact congrArg (· % 256) (Nat.div_one _)
  have h2 : fieldOf F.MCVn_CFG_LP_SPACING (leAt 4 4 input) = leAt 5 1 input := by
    rw [hhigh.1, hlow.2]
    rfl
  rw [cycleTicks, h1, h2]
  rfl

theorem setInput_of_ok {k : Nat} (hk : k < 96) (hin : input.take 4 = [BitVec.ofNat 8 k, 0, 0, 0])
    (hok : imagesOk [F.MCV_INk_CFG_ORDER, F.MCV_INk_LIM_LO] (wordsOf 2 (input.drop 4)) = true)
    (hp : rangeProtected s (homeInput k) (imagesRw [F.MCV_INk_CFG_ORDER, F.MCV_INk_LIM_LO] (wordsOf 2 (input.drop 4))).length = false) :
    setInput via input s = storeFor via 0xC032 (homeInput k) (imagesRw [F.MCV_INk_CFG_ORDER, F.MCV_INk_LIM_LO] (wordsOf 2 (input.drop 4)))
      [(homeInput k, 8)] [] s := by
  obtain ⟨h0, hr⟩ := selector_of_head (by omega) hin
  have hne : k ≠ 0xFF := by omega
  have hle : ¬95 < k := by omega
  have hn : (imagesRw [F.MCV_INk_CFG_ORDER, F.MCV_INk_LIM_LO] (wordsOf 2 (input.drop 4))).length = 8 := imagesRw_length rfl _
  rw [hn] at hp
  simp [setInput, h0, hr, hok, hp, hne, hle, hn]

theorem setLedger_of_ok (hm : s.mode = .maintenance) (hok : imagesOk ledgerRegs (wordsOf 6 input) = true)
    (hp : rangeProtected s (808 * 256) (imagesRw ledgerRegs (wordsOf 6 input)).length = false) :
    setLedger via input s = storeFor via 0xC041 homeLedger (imagesRw ledgerRegs (wordsOf 6 input)) [(homeLedger, 24)] [] s := by
  have hp' : rangeProtected s homeLedger 24 = false := by rw [← hp, imagesRw_length (fs := ledgerRegs) (n := 6) rfl]; rfl
  simp [setLedger, hok, hm, hp']

end
end Sys2Proof.Machine
end

section
/-! PROOF. Settings that commands store, continued (R82, R302, R338, R343, R351, R353, R356, R357). -/
namespace Sys2Proof.Machine

set_option Elab.async false

section
variable {s u : State} {via : Transport} {op : Nat} {input : List Byte}

theorem setTjLimits_of_word {w : Nat} (hw : w < 2 ^ 24) (hp : rangeProtected s (795 * 256 + 32) (leBytes 4 w).length = false) :
    setInput via ([0xFF, 0, 0, 0] ++ leBytes 4 w ++ [0, 0, 0, 0]) s = storeFor via 0xC032 homeTjLim (leBytes 4 w) [(homeTjLim, 4)] [] s := by
  have h32 : w % 256 ^ 4 = w := Nat.mod_eq_of_lt (by omega)
  have hws : wordsOf 2 (([0xFF, 0, 0, 0] ++ leBytes 4 w ++ [0, 0, 0, 0]).drop 4) = [w, 0] := by
    show [leAt 0 4 (leBytes 4 w ++ [0, 0, 0, 0]), _] = _
    rw [leAt_head, h32]
    rfl
  have hlow : fieldOf F.MCV_TJ_LIM_WARN w = w % 4096 := congrArg (· % 4096) (Nat.div_one w)
  have hhigh : fieldOf F.MCV_TJ_LIM_SHUT w = w / 4096 := Nat.mod_eq_of_lt (Nat.div_lt_of_lt_mul hw)
  have himg : ∀ p : Fld → Bool, p F.MCV_TJ_LIM_WARN = true → p F.MCV_TJ_LIM_SHUT = true → imageOf p (regOf F.MCV_TJ_LIM_WARN) w = w := fun p h1 h2 => by
    have hr : (regOf F.MCV_TJ_LIM_WARN).fields = [F.MCV_TJ_LIM_WARN, F.MCV_TJ_LIM_SHUT] := by decide +kernel
    simp only [imageOf, hr, List.foldl_cons, List.foldl_nil, h1, h2, if_true, hlow, hhigh]
    show 0 + w % 4096 * 1 + w / 4096 * 4096 = w
    omega
  have hok : imagesOk [F.MCV_TJ_LIM_WARN] [w, 0] = true := by
    have hne : w ≠ 0xFFFFFFFF := by omega
    simp [imagesOk, noneBlank, imageOk, himg, hne]
  have hbs : imagesRw [F.MCV_TJ_LIM_WARN] [w, 0] = leBytes 4 w := by
    simp only [imagesRw, List.zip_cons_cons, List.zip_nil_left, List.flatMap_cons, List.flatMap_nil, List.append_nil, imageRw]
    rw [himg _ (by decide) (by decide)]
  have hp' : rangeProtected s homeTjLim 4 = false := by
    rw [leBytes_length] at hp
    exact hp
  have h0 : leAt 0 1 ([0xFF, 0, 0, 0] ++ leBytes 4 w ++ [0, 0, 0, 0]) = 0xFF := rfl
  have hr : rsvOk 1 3 ([0xFF, 0, 0, 0] ++ leBytes 4 w ++ [0, 0, 0, 0]) = true := rfl
  generalize [0xFF, 0, 0, 0] ++ leBytes 4 w ++ [0, 0, 0, 0] = input at h0 hr hws
  simp [setInput, h0, hr, hws, hok, hbs, hp']

theorem setPatrol_of_ok {hours thresh : Nat} (hh : hours < 256) (h0 : 0 < thresh) (ht : thresh ≤ 20) (en restart : Bool)
    (hp : rangeProtected s (816 * 256 + 28) (leBytes 4 (hours + thresh * 256 + en.toNat * 8192)).length = false) :
    setPatrol via [BitVec.ofNat 8 hours, BitVec.ofNat 8 thresh, BitVec.ofNat 8 (en.toNat + 2 * restart.toNat), 0] s
      = storeFor via 0xC063 homePatrol (leBytes 4 (hours + thresh * 256 + en.toNat * 8192))
          ((homePatrol, 4) :: if restart then [(homePatrol, 0)] else []) [] s := by
  have hbits : (BitVec.ofNat 8 (en.toNat + 2 * restart.toNat)).toNat = en.toNat + 2 * restart.toNat := by
    cases en <;> cases restart <;> rfl
  have b0 : leAt 0 1 [BitVec.ofNat 8 hours, BitVec.ofNat 8 thresh, BitVec.ofNat 8 (en.toNat + 2 * restart.toNat), 0] = hours :=
    (leAt_byte _ _).trans (by simpa using hh)
  have b1 : leAt 1 1 [BitVec.ofNat 8 hours, BitVec.ofNat 8 thresh, BitVec.ofNat 8 (en.toNat + 2 * restart.toNat), 0] = thresh :=
    (leAt_byte _ _).trans (by simp; omega)
  have b2 : leAt 2 1 [BitVec.ofNat 8 hours, BitVec.ofNat 8 thresh, BitVec.ofNat 8 (en.toNat + 2 * restart.toNat), 0]
      = en.toNat + 2 * restart.toNat := (leAt_byte _ _).trans hbits
  have hr : rsvOk 3 1 [BitVec.ofNat 8 hours, BitVec.ofNat 8 thresh, BitVec.ofNat 8 (en.toNat + 2 * restart.toNat), 0] = true := rfl
  have hp' : rangeProtected s homePatrol 4 = false := by
    rw [leBytes_length] at hp
    exact hp
  have hthresh : (decide (thresh = 0) || decide (20 < thresh)) = false := by simp; omega
  simp only [setPatrol, b0, b1, b2, hr, hp']
  cases en <;> cases restart <;> simp [hthresh]

theorem setPeloton_of_ok (hok : imageOk F.PEL_CFG_IN_DELAY (leAt 0 4 input) = true)
    (hp : rangeProtected s (848 * 256 + 32) (leBytes 4 (imageRw F.PEL_CFG_IN_DELAY (leAt 0 4 input))).length = false) :
    setPeloton via input s = storeFor via 0xC071 homePel (leBytes 4 (imageRw F.PEL_CFG_IN_DELAY (leAt 0 4 input))) [(homePel, 4)] [] s := by
  have hp' : rangeProtected s homePel 4 = false := by
    rw [leBytes_length] at hp
    exact hp
  simp [setPeloton, hok, hp']

theorem setLsa_of_ok (hl : 8 < input.length) (hr : leAt 0 4 input + (input.length - 8) ≤ 131072)
    (hp : rangeProtected s (leAt 0 4 input) (input.drop 8).length = false) :
    setLsa via input s = storeFor via 0x4103 (leAt 0 4 input) (input.drop 8) [] [] s := by
  have he : (input.drop 8).isEmpty = false := by
    rw [List.isEmpty_eq_false_iff, ← List.length_pos_iff]
    simp [hl]
  have hle : ¬131072 < leAt 0 4 input + (input.drop 8).length := by simpa using hr
  simp only [setLsa, if_neg hle, hp, he]
  rfl

theorem pagesOf_ops (k : Nat) (hk : k + 4 ≤ 256) : pagesOf (homeOps + k) 4 = [homeOps / 256] := by
  rw [show homeOps + k = 256 * 3280 + k from rfl, pagesOf_page (by decide) hk]
  rfl

theorem setShutdown_eq (b : Byte) : setShutdown via [b] s = storeFor via 0x4204 (homeOps + 4) [b, 0, 0, 0] [] [] s := by
  have hb : leBytes 4 (leAt 0 1 [b]) = [b, 0, 0, 0] := by
    rw [leAt_byte]
    have h := b.isLt
    have h1 : b.toNat / 256 = 0 := Nat.div_eq_of_lt h
    simp [leBytes, h1]
  rw [setShutdown, storeFor, hb, show ([b, 0, 0, 0] : List Byte).length = 4 from rfl, pagesOf_ops 4 (by decide)]

theorem activateFw_offline {slot : Nat} (hs : slot = 1 ∨ slot = 2) (hm : s.mode = .maintenance) :
    activateFw via [1, BitVec.ofNat 8 slot] s = storeFor via 0x0202 (homeOps + 8) (leBytes 4 (slot - 1)) [] [] s := by
  have h0 : leAt 0 1 [1, BitVec.ofNat 8 slot] = 1 := rfl
  have h1 : leAt 1 1 [1, BitVec.ofNat 8 slot] = slot := by rcases hs with rfl | rfl <;> rfl
  have hpages : pagesOf (homeOps + 8) (leBytes 4 (slot - 1)).length = [homeOps / 256] := by
    rw [leBytes_length, pagesOf_ops 8 (by decide)]
  rw [storeFor, hpages]
  simp only [activateFw, h0, h1, hm]
  rcases hs with rfl | rfl <;> rfl

end
end Sys2Proof.Machine
end

section
/-! PROOF. Settings that commands store, concluded: pages, the tandem, the cache's modes, the owner key (R80, R82, R343, R351, R357). -/
namespace Sys2Proof.Machine

set_option Elab.async false

section
variable {s u : State} {via : Transport} {op : Nat} {input : List Byte}

/-! ### Write Pages -/

theorem unstamped_afterPages (page off : Nat) (bs : List Byte) : Unstamped (afterPages page off bs) := fun s k => by
  rw [afterPages, afterPages]
  split
  · rw [sbPutWrap, sbPutWrap, show onSbg (fun g => { g with work := putWrap page off bs g.work }) (withStamp k s)
      = withStamp k (onSbg (fun g => { g with work := putWrap page off bs g.work }) s) from rfl, unstamped_touchPage]
    rfl
  · rw [unstamped_sbPut]
    rfl

theorem wordsStand_stamp (page off : Nat) (bs : List Byte) (t : State) (k : Nat) :
    wordsStand page off bs (withStamp k t) = wordsStand page off bs t := by
  unfold wordsStand
  rfl

theorem accessPages_page {page n : Nat} (hn : 0 < n) (h : n ≤ 256) : accessPages page n = [page] := by
  have hone : max 1 ((n + 255) / 256) = 1 := by omega
  rw [accessPages, hone]
  simp

theorem writePages_of_ok {page off : Nat} {data : List Byte} (hpage : page < 512 ∨ 800 ≤ page ∧ page < 960) (hn : 0 < data.length)
    (hoff : off + data.length ≤ 256) (hw : wordsStand page off data (afterPages page off data s) = true)
    (hp : rangeProtected s (256 * page + off) data.length = false) :
    writePages via (leBytes 2 page ++ leBytes 1 off ++ [0] ++ leBytes 4 data.length ++ data) s
      = storeFor via 0xC029 (256 * page + off) data [] [] s := by
  have h0 : leAt 0 2 (leBytes 2 page ++ leBytes 1 off ++ [0] ++ leBytes 4 data.length ++ data) = page := by
    simp only [List.append_assoc]
    rw [leAt_head, Nat.mod_eq_of_lt (by omega)]
  have h2 : leAt 2 1 (leBytes 2 page ++ leBytes 1 off ++ [0] ++ leBytes 4 data.length ++ data) = off := by
    simp only [List.append_assoc]
    rw [leAt_append (by simp), leBytes_length, leAt_head, Nat.mod_eq_of_lt (by omega)]
  have h4 : leAt 4 4 (leBytes 2 page ++ leBytes 1 off ++ [0] ++ leBytes 4 data.length ++ data) = data.length := by
    rw [List.append_assoc, leAt_append (by simp)]
    simp only [List.length_append, leBytes_length, List.length_cons, List.length_nil]
    rw [leAt_head, Nat.mod_eq_of_lt (by omega)]
  have hd : (leBytes 2 page ++ leBytes 1 off ++ [0] ++ leBytes 4 data.length ++ data).drop 8 = data := List.drop_left' (by simp)
  have hr : rsvOk 3 1 (leBytes 2 page ++ leBytes 1 off ++ [0] ++ leBytes 4 data.length ++ data) = true := rfl
  generalize leBytes 2 page ++ leBytes 1 off ++ [0] ++ leBytes 4 data.length ++ data = input at *
  have hle : data.length ≤ 256 := by omega
  have hok : accessOk page off data.length = true := by simp [accessOk, hn, hle]; omega
  have hwr : writablePage page = true := by simp [writablePage]; omega
  have hprot : pageProtected s page = false := by simpa [rangeProtected, pagesOf_page hn hoff] using hp
  have hrails : (decide (768 ≤ page) && decide (page ≤ 778)) = false := by simp; omega
  have hsched : (decide (784 ≤ page) && decide (page ≤ 791)) = false := by simp; omega
  have hstored : storeFor via 0xC029 (256 * page + off) data [] [] s
      = finishStored via 0xC029 [page] [] [] (forEach [page] sbRequest (sbPutWrap page off data s)) := by
    rw [storeFor, sbStore, pagesOf_page hn hoff, sbPutWrap_eq hn hoff]
  rw [hstored]
  simp [writePages, h0, h2, h4, hd, hr, accessPages_page hn hle, hok, hwr, hw, hprot, pagesAllowed, hrails, hsched, hle]

/-! ### The cache's modes -/

/-- What goes into the saddlebag after a change of the cache's modes. -/
theorem storeCacheState_ends (pages : List Nat) (out : List Byte) (hp : pages = [homeOps / 256]) :
    finishStored via op pages [] out (storeCacheState s) = storeFor via op homeOps
      (leBytes 4 ((if fget s F.CCH_MODE_STATE 0 = 2 then 2 else 0) + fget s F.CCH_MODE_SCRATCH_STEPS 0 * 8 + fget s F.CCH_MODE_SCRATCH_NEXT 0 * 256))
      [] out s := by
  have hpages : pagesOf homeOps 4 = [homeOps / 256] := pagesOf_ops 0 (by decide)
  rw [hp, storeFor, leBytes_length, hpages, storeCacheState]

/-- The cache back in normal mode, before that is stored: a bypass left serves on until the next tick. -/
def normalNext (s : State) : State :=
  s |> when (fget s F.CCH_MODE_STATE 0 == 2) (onCache (fun c => { c with bypassUntil := tickOf s + 1 })) |> fput F.CCH_MODE_STATE 0 0

theorem setCacheMode_normal (h : fget s F.CCH_MODE_STATE 0 ≠ 1) : setCacheMode via [0, 0, 0, 0] s
    = storeFor via 0xC051 (3280 * 256) (leBytes 4 (fget s F.CCH_MODE_SCRATCH_STEPS 0 * 8 + fget s F.CCH_MODE_SCRATCH_NEXT 0 * 256)) [] []
        (normalNext s) := by
  have hn : homeOps = 3280 * 256 := rfl
  have hf : (fget s F.CCH_MODE_STATE 0 == 1) = false := by simpa using h
  have hbody : setCacheMode via [0, 0, 0, 0] s = finishStored via 0xC051 [homeOps / 256] [] [] (cacheToNormal s) := by
    have h0 : leAt 0 1 [0, 0, 0, 0] = 0 := rfl
    have hr : rsvOk 1 3 [0, 0, 0, 0] = true := rfl
    generalize ([0, 0, 0, 0] : List Byte) = input at h0 hr
    simp [setCacheMode, h0, hr]
  have hnormal : cacheToNormal s = storeCacheState (normalNext s) := by
    rw [cacheToNormal, hf]
    rfl
  have hgets : ∀ g : Fld, g.key 0 ≠ F.CCH_MODE_STATE.key 0 → fget (normalNext s) g 0 = fget s g 0 := fun g hg => by
    rw [normalNext, fget_fput_other _ _ _ _ _ _ hg, when]
    split <;> rfl
  have hzero : fget (normalNext s) F.CCH_MODE_STATE 0 = 0 := fget_fput_same ..
  rw [hbody, hnormal, storeCacheState_ends _ _ rfl, hzero, hgets _ (by decide), hgets _ (by decide), if_neg (by decide), Nat.zero_add, hn]

/-- The carve-out set for the next entry to SERVICE, before that is stored. -/
theorem setCarveOut_of_ok {n : Nat} (hn : n ≤ 16) (hc : s.config = .s416) : setCarveOut via [BitVec.ofNat 8 n, 0, 0, 0] s
    = storeFor via 0xC054 (3280 * 256)
        (leBytes 4 ((if fget s F.CCH_MODE_STATE 0 = 2 then 2 else 0) + fget s F.CCH_MODE_SCRATCH_STEPS 0 * 8 + n * 256)) []
        [BitVec.ofNat 8 (scratchSteps s), BitVec.ofNat 8 n] (fput F.CCH_MODE_SCRATCH_NEXT 0 n s) := by
  have hops : homeOps = 3280 * 256 := rfl
  have h0 : leAt 0 1 [BitVec.ofNat 8 n, 0, 0, 0] = n := (leAt_byte _ _).trans (by simp; omega)
  have hr : rsvOk 1 3 [BitVec.ofNat 8 n, 0, 0, 0] = true := rfl
  have hnext : fget (fput F.CCH_MODE_SCRATCH_NEXT 0 n s) F.CCH_MODE_SCRATCH_NEXT 0 = n :=
    (fget_fput_same ..).trans (Nat.mod_eq_of_lt (Nat.lt_of_le_of_lt hn (by decide)))
  have hbody : setCarveOut via [BitVec.ofNat 8 n, 0, 0, 0] s = finishStored via 0xC054 [homeOps / 256] []
      [BitVec.ofNat 8 (scratchSteps s), BitVec.ofNat 8 n] (storeCacheState (fput F.CCH_MODE_SCRATCH_NEXT 0 n s)) := by
    have hcap : Config.lockCapable s.config = false := by rw [hc]; rfl
    have hone : leBytes 1 (scratchSteps s) ++ leBytes 1 n = [BitVec.ofNat 8 (scratchSteps s), BitVec.ofNat 8 n] := rfl
    generalize [BitVec.ofNat 8 n, 0, 0, 0] = input at h0 hr
    simp [setCarveOut, h0, hr, hcap, hone, Nat.not_lt.2 hn]
  rw [hbody, storeCacheState_ends _ _ rfl, hnext, fget_fput_other _ _ _ _ _ _ (by decide), fget_fput_other _ _ _ _ _ _ (by decide),
    hops]

theorem opsPage (v : Nat) : pagesOf (3280 * 256) (leBytes 4 v).length = [3280] := by
  rw [leBytes_length]
  exact pagesOf_ops 0 (by decide)

/-- So runs a command that stores bytes after changes of other parts. -/
theorem command_stores_after {acc : Accept} {lenOk : Nat → Bool} {body : State → State} {a : Nat} {bs : List Byte} {pages : List Nat}
    {reload : List (Nat × Nat)} {out : List Byte} {ps : List Part} (h : reaches s via op acc) (hlen : lenOk input.length = true)
    (hmax : via = .mctp → input.length ≤ payloadMax via) (hb : body (stampNow s) = storeFor via op a bs reload out u)
    (hp : pagesOf a bs.length = pages) (hk : keptBut (stampNow s) u ps)
    (hps : .sbg ∉ ps ∧ .outbox ∉ ps ∧ .mbx ∉ ps ∧ .host ∉ ps := by decide) :
    ∃ t, run (command via op acc lenOk input body) s = .next t ∧ wrote s t a bs ∧ endsStored s t via op pages reload out
      ∧ t.regs = u.regs ∧ t.cache = u.cache ∧ keptBut s t (.sbg :: .mbx :: .outbox :: ps) := by
  subst hp
  obtain ⟨h1, h2, h3, h4⟩ := hps
  have hsbg : u.sbg = s.sbg := agree_of_kept hk .sbg h1
  have hout : u.outbox = s.outbox := agree_of_kept hk .outbox h2
  have hmbx : u.mbx = s.mbx := agree_of_kept hk .mbx h3
  have hhost : u.host = s.host := agree_of_kept hk .host h4
  obtain ⟨hw, he, hf⟩ := storeFor_stored (s := u) (via := via) (op := op) a bs reload out
  have hkept : keptBut (stampNow s) (storeFor via op a bs reload out u) (.stamp :: .sbg :: .mbx :: .outbox :: ps) :=
    keptBut_trans (keptBut_mono hk (by simp +contextual)) (keptBut_mono hf (by simp +contextual))
  refine ⟨_, run_of_effect ((command_body body h hlen hmax).trans hb), ?_, ?_, ?_, ?_, keptBut_of_effect h.1 hkept⟩
  · exact wrote_of_sbg hw hsbg rfl
  · exact endsStored_of_eq he (by rw [hout, hmbx, hhost]) rfl
  · exact (settle_regs ..).trans (regs_of_kept hf)
  · exact (settle_cache ..).trans (agree_of_kept hf .cache)

/-! ### Two stores of one command -/

/-- The answer follows the last of two stores. -/
theorem twoStores_end {a b : Nat} {bs cs : List Byte} (pages : List Nat) (reload : List (Nat × Nat)) (out : List Byte) :
    endsStored s (settle s (finishStored via op pages reload out (sbStore b cs (sbStore a bs (stampNow s))))) via op pages reload out := by
  have hk : keptBut (stampNow s) (sbStore b cs (sbStore a bs (stampNow s))) [.sbg] := by simp
  have hmbx : (stampNow s).mbx = _ := (agree_of_kept hk .mbx).symm
  have hhost : (stampNow s).host = _ := (agree_of_kept hk .host).symm
  have hout : (stampNow s).outbox = _ := (agree_of_kept hk .outbox).symm
  exact endsStored_of_eq (finishStored_ends ..) (by rw [← hmbx, ← hhost, ← hout]; rfl) rfl

theorem finishStored_sbg (pages : List Nat) (reload : List (Nat × Nat)) (out : List Byte) :
    (finishStored via op pages reload out s).sbg = s.sbg := agree_of_kept (s := s) (ps := [.mbx, .outbox]) (by simp) .sbg

/-- What the working copy holds after two stores, one above the other. -/
theorem twoStores_bytes {a b : Nat} {bs cs : List Byte} (h : a + bs.length ≤ b) (pages : List Nat) (reload : List (Nat × Nat)) (out : List Byte) :
    sbBytes (finishStored via op pages reload out (sbStore b cs (sbStore a bs s))) a bs.length = bs
      ∧ sbBytes (finishStored via op pages reload out (sbStore b cs (sbStore a bs s))) b cs.length = cs
      ∧ ∀ k, ¬(a ≤ k ∧ k < a + bs.length) → ¬(b ≤ k ∧ k < b + cs.length) →
        sbByte (finishStored via op pages reload out (sbStore b cs (sbStore a bs s))) k = sbByte s k := by
  have hw : (finishStored via op pages reload out (sbStore b cs (sbStore a bs s))).sbg.work = (sbStore b cs (sbStore a bs s)).sbg.work := by
    rw [finishStored_sbg]
  refine ⟨?_, ?_, fun k h1 h2 => ?_⟩
  · rw [sbBytes_of_work hw, sbBytes_sbStore_apart (.inl h), sbBytes_sbStore_same]
  · rw [sbBytes_of_work hw, sbBytes_sbStore_same]
  · rw [sbByte_of_work hw, sbByte_sbStore_outside (by omega), sbByte_sbStore_outside (by omega)]

theorem setTandem_of_ok (hok : imageOk F.TND_CFG_PARTNER (leAt 0 4 input) = true)
    (htop : bitmapTop (input.drop 12) ≤ fieldOf F.TND_CFG_MIRROR_BASE (leAt 0 4 input))
    (hcap : fieldOf F.TND_CFG_MIRROR_BASE (leAt 0 4 input) < Config.capacity s.config / 2 ^ 30)
    (h2 : fget s F.TND_STATUS_LINK 0 ≠ 2) (h3 : fget s F.TND_STATUS_LINK 0 ≠ 3)
    (hp : rangeProtected s (849 * 256) 12 = false) (hq : rangeProtected s (850 * 256) 448 = false) :
    setTandem via input s = finishStored via 0xC073 [849, 850, 851] [(849 * 256, 704)] []
      (sbStore (850 * 256) (input.drop 12) (sbStore (849 * 256) (input.take 12) s)) := by
  have hn : homeTnd = 849 * 256 := rfl
  simp only [setTandem, hn, hok, decide_eq_false (Nat.not_le.2 hcap), h2, h3, hp, hq, Nat.not_lt.2 htop]
  rfl

theorem crcShiftRight_lt {poly : Nat} (hp : poly < 2 ^ 32) (n : Nat) : ∀ c < 2 ^ 32, crcShiftRight poly n c < 2 ^ 32 := by
  induction n with
  | zero => exact fun _ h => h
  | succ n ih =>
    intro c h
    refine ih _ ?_
    split
    · exact Nat.xor_lt_two_pow (by omega) hp
    · omega

theorem crc32_lt (bs : List Byte) : crc32 bs < 2 ^ 32 := by
  have h : ∀ (bs : List Byte), ∀ c < 2 ^ 32, crc32Go bs c < 2 ^ 32 := fun bs => by
    induction bs with
    | nil => exact fun _ h => h
    | cons b t ih =>
      exact fun c h => ih _ (crcShiftRight_lt (by decide) 8 _ (Nat.xor_lt_two_pow h (Nat.lt_of_lt_of_le b.isLt (by decide))))
  exact Nat.xor_lt_two_pow (h bs _ (by decide)) (by decide)

/-- The image of a key in one of its pages: the key, then its checksum. -/
theorem keyCopy_of_bytes {p : Nat} {key : List Byte} (hl : key.length = 32) (h : sbBytes s (p * 256) 36 = key ++ leBytes 4 (crc32 key)) :
    keyCopy s p = some key := by
  have hkey : sbBytes s (p * 256) 32 = key := by
    have ht : (sbBytes s (p * 256) 36).take 32 = sbBytes s (p * 256) 32 := by
      rw [sbBytes, sbBytes, ← List.map_take, List.take_range]
      rfl
    rw [← ht, h, List.take_left' hl]
  have hcrc : sbBytes s (p * 256 + 32) 4 = leBytes 4 (crc32 key) := by
    have hd : (sbBytes s (p * 256) 36).drop 32 = sbBytes s (p * 256 + 32) 4 := by
      rw [sbBytes, sbBytes, ← List.map_drop]
      show List.map _ [32, 33, 34, 35] = List.map _ [0, 1, 2, 3]
      simp only [List.map_cons, List.map_nil, Nat.add_assoc, Nat.add_zero]
    rw [← hd, h, List.drop_left' hl]
  have hm : crc32 key % 256 ^ 4 = crc32 key := Nat.mod_eq_of_lt (crc32_lt key)
  rw [keyCopy, hkey, hcrc, leAt_whole, hm, if_pos rfl]

/-- Both copies of a new owner key, and what else of the working copy changes: nothing. -/
theorem storeOwnerKey_bytes {key : List Byte} (hl : key.length = 32) :
    (∀ p ∈ [4033, 4034], sbBytes (storeOwnerKey via key s) (p * 256) 36 = key ++ leBytes 4 (crc32 key))
      ∧ ∀ k, k / 256 ≠ 4033 → k / 256 ≠ 4034 → sbByte (storeOwnerKey via key s) k = sbByte s k := by
  have hlen : (key ++ leBytes 4 (crc32 key)).length = 36 := by simp [hl]
  have hb := twoStores_bytes (s := s) (via := via) (op := 0xC003) (a := 4033 * 256) (b := 4034 * 256) (bs := key ++ leBytes 4 (crc32 key))
    (cs := key ++ leBytes 4 (crc32 key)) (by rw [hlen]; decide) [4033, 4034] [] []
  rw [hlen] at hb
  obtain ⟨h1, h2, h3⟩ := hb
  refine ⟨fun p hp => ?_, fun k n1 n2 => h3 k (by omega) (by omega)⟩
  rcases List.mem_cons.1 hp with rfl | hp
  · exact h1
  · rw [List.mem_singleton.1 hp]
    exact h2

theorem ownerKey_storeOwnerKey {key : List Byte} (hl : key.length = 32) : ownerKey (storeOwnerKey via key s) = some key := by
  rw [ownerKey, keyCopy_of_bytes hl ((storeOwnerKey_bytes hl).1 4033 (by simp))]

end
end Sys2Proof.Machine
end

section
/-! PROOF. The stored settings (R217, R245, R273, R302, R338, R343, R346 to R357). -/
namespace Sys2Proof.Machine

set_option Elab.async false

theorem setLsa_via {s : State} {via : Transport} {acc : Accept} (h : reaches s via 0x4103 acc) : via ≠ .mctp := by
  obtain ⟨-, -, ⟨-, ha⟩ | ⟨-, -, -, hm⟩⟩ := h
  · simp [aonServes] at ha
  · exact fun hv => absurd (hm hv) (by decide)

theorem normalNext_cache {s : State} : (normalNext s).cache = { s.cache with
    bypassUntil := if fget s F.CCH_MODE_STATE 0 = 2 then tickOf s + 1 else s.cache.bypassUntil } := by
  rw [normalNext, fput_cache, when]
  split_ifs with h1 h2 h2
  · rfl
  · exact absurd (beq_iff_eq.1 h1) h2
  · exact absurd (beq_iff_eq.2 h2) h1
  · rfl

/-- Settles O56: each command, its checks passed, is a store of its bytes that waits for their pages. -/
theorem storedSettingsAreWritten : Obligations.StoredSettingsAreWritten := by
  unfold Obligations.StoredSettingsAreWritten
  intro s via input may stored ws
  refine ⟨fun hl hok ⟨hr, hp⟩ => ?_, fun t ht hl hin hw ha ⟨hr, hp⟩ => ?_, fun c hc hl hin hok ha ⟨hr, hp⟩ => ?_,
    fun hl hok ha ⟨hr, hp⟩ => ?_, fun c hc hl hin hes => ?_, fun page off data hpage hn hoff hw ⟨hr, hp⟩ => ?_,
    fun n hn h1 hl hin hok hmc => ?_, fun k hk hl hin hok ⟨hr, hp⟩ => ?_, fun w hw ⟨hr, hp⟩ => ?_, fun hl hm hok ⟨hr, hp⟩ => ?_,
    fun hours thresh hh h0 ht en restart ⟨hr, hp⟩ => ?_, fun hl hok ⟨hr, hp⟩ => ?_, fun hr hl hok => ?_, fun hl hle ⟨hr, hp⟩ => ?_,
    fun b ⟨hr, _⟩ => ?_, fun hst hr => ?_, fun n hn hc hr => ?_, fun slot hs hm ⟨hr, _⟩ => ?_, fun hk hl he hg hi hr => ?_⟩
  · exact command_stores hr (by rw [hl]; rfl) (payload_fits hl) (setService_of_ok (s := stampNow s) hok hp)
  · exact command_stores hr (by rw [hl]; rfl) (payload_fits hl) ((setRailTable_of_ok ht hin hw).trans (storeRails_of_allowed hp ha))
  · exact command_stores hr (by rw [hl]; rfl) (payload_fits hl) ((setRailChannel_of_ok hc hin hok).trans (storeRails_of_allowed hp ha))
  · exact command_stores hr (by rw [hl]; rfl) (payload_fits hl) ((setRailGlobals_of_ok hok).trans (storeRails_of_allowed hp ha))
  · intro id ⟨hr, hp⟩
    have hid : nextListId s c = id := by
      simp only [nextListId, id, ← Nat.not_lt]
      by_cases h1 : listStored s c = true <;> by_cases h2 : listId s c < 0xFFFE <;> simp [h1, h2]
    rw [← hid] at hp ⊢
    exact command_stores hr (by rw [hl]; rfl) (payload_fits hl) (setSnapshotList_of_ok (s := stampNow s) hc hl hin hes hp)
  · have hw' : wordsStand page off data (afterPages page off data (stampNow s)) = true := by
      rw [show stampNow s = withStamp s.gtc s from rfl, unstamped_afterPages, wordsStand_stamp]
      exact hw
    have hlen : (leBytes 2 page ++ leBytes 1 off ++ [0] ++ leBytes 4 data.length ++ data).length = 8 + data.length := by
      simp
      omega
    exact command_stores hr (by rw [hlen]; exact decide_eq_true (by omega))
      (fun hv => by rw [hlen, hv]; exact Nat.le_trans (Nat.add_le_add_left (by omega : data.length ≤ 256) 8) (by decide))
      (writePages_of_ok (s := stampNow s) hpage hn hoff hw' hp)
  · intro cycle ⟨hr, hp⟩
    obtain ⟨u, he, hs⟩ := command_stores (lenOk := len 140) hr (by rw [hl]; rfl) (payload_fits hl)
      (setSchedule_of_ok (s := stampNow s) hn h1 hin hok hmc hp)
    rw [cycleTicks_bytes] at hs
    exact ⟨u, he, hs⟩
  · exact command_stores hr (by rw [hl]; rfl) (payload_fits hl) (setInput_of_ok (s := stampNow s) hk hin hok hp)
  · exact command_stores hr (by simp; rfl) (payload_fits (n := 12) (by simp)) (setTjLimits_of_word (s := stampNow s) hw hp)
  · exact command_stores hr (by rw [hl]; rfl) (payload_fits hl) (setLedger_of_ok (s := stampNow s) hm hok hp)
  · exact command_stores hr rfl (payload_fits (n := 4) rfl) (setPatrol_of_ok (s := stampNow s) hh h0 ht en restart hp)
  · exact command_stores hr (by rw [hl]; rfl) (payload_fits hl) (setPeloton_of_ok (s := stampNow s) hok hp)
  · intro base htop hcap h2 h3 hp hq
    have he := (command_body (lenOk := len 460) _ hr (by rw [hl]; rfl) (payload_fits hl)).trans
      (setTandem_of_ok (via := via) (s := stampNow s) hok htop hcap h2 h3 hp hq)
    have htake : (input.take 12).length = 12 := by simp [hl]
    have hdrop : (input.drop 12).length = 448 := by simp [hl]
    have hb := twoStores_bytes (s := stampNow s) (via := via) (op := 0xC073) (a := 849 * 256) (b := 850 * 256) (bs := input.take 12)
      (cs := input.drop 12) (by rw [htake]; decide) [849, 850, 851] [(849 * 256, 704)] []
    rw [htake, hdrop] at hb
    obtain ⟨hb1, hb2, hb3⟩ := hb
    exact ⟨_, run_of_effect he, hb1, hb2, hb3, twoStores_end .., keptBut_of_effect hr.1 (by simp)⟩
  · exact command_stores hr (decide_eq_true (Nat.le_of_lt hl)) (fun hv => absurd hv (setLsa_via hr)) (setLsa_of_ok (s := stampNow s) hl hle hp)
  · exact command_stores hr rfl (payload_fits (n := 1) rfl) (setShutdown_eq b)
  · have hk : keptBut (stampNow s) (normalNext (stampNow s)) [.regs, .cache] := by simp [normalNext]
    obtain ⟨t, he, hw, hends, hregs, hcache, hkept⟩ := command_stores_after (lenOk := len 4) (input := [0, 0, 0,
      0]) hr rfl (payload_fits (n := 4) rfl)
      (setCacheMode_normal (s := stampNow s) hst) (opsPage _) hk
    refine ⟨t, he, ?_, ?_, ?_, hw, hends, hkept⟩
    · rw [fget, hregs]
      exact fget_fput_same ..
    · rw [regsKept_iff_of_regs hregs]
      simp [normalNext]
    · rw [hcache]
      exact normalNext_cache
  · obtain ⟨t, he, hw, hends, hregs, -, hkept⟩ := command_stores_after (ps := [.regs]) (lenOk := len 4)
      (input := [BitVec.ofNat 8 n, 0, 0, 0]) hr rfl (payload_fits (n := 4) rfl)
      (setCarveOut_of_ok (s := stampNow s) hn hc) (opsPage _) (by simp)
    refine ⟨t, he, ?_, ?_, hw, hends, hkept⟩
    · rw [fget, hregs]
      exact (fget_fput_same ..).trans (Nat.mod_eq_of_lt (Nat.lt_of_le_of_lt hn (by decide)))
    · rw [regsKept_iff_of_regs hregs]
      simp
  · exact command_stores hr rfl (payload_fits (n := 2) rfl) (activateFw_offline (s := stampNow s) hs hm)
  · have hsome : (ownerKey s).isSome = false := by rw [hk]; rfl
    have hbody : setOwnerKey via input (stampNow s) = storeOwnerKey via input (stampNow s) := by
      have hk' : (ownerKey (stampNow s)).isSome = false := hsome
      have hg' : hubGate (stampNow s) via 0xC003 = 0 := hg
      have hi' : inService (stampNow s) = true := hi
      simp [setOwnerKey, hk', hg', hi']
    have he := (command_body (lenOk := len (if (ownerKey s).isSome then 48 else 32)) _ hr (by rw [hl, hsome]; rfl) (payload_fits hl)).trans hbody
    obtain ⟨h1, h2⟩ := storeOwnerKey_bytes (s := stampNow s) (via := via) hl
    exact ⟨_, run_of_effect he, ownerKey_storeOwnerKey hl, h1, h2, twoStores_end .., keptBut_of_effect hr.1 (by simp [storeOwnerKey])⟩

end Sys2Proof.Machine
end

section
/-! SUPPORT. Counters in the saddlebag (R300), and the checks of an authorised command (R340 to R344). -/
namespace Sys2Proof.Machine

set_option Elab.async false

section
variable {s t u : State} {via : Transport} {op : Nat} {input : List Byte}

/-! ### A counter, written and read back -/

theorem ctrBytes_length (addr body seq : Nat) : (ctrBytes addr body seq).length = 16 := by simp [ctrBytes]

/-- A slot that holds a counter's image reads as its bits. -/
theorem ctrSlot_of_bytes {addr k body seq : Nat} (hb : body + seq * 2 ^ seqBit addr < 256 ^ 12)
    (h : sbBytes s (addr + 16 * k) 16 = ctrBytes addr body seq) : ctrSlot s addr k = some (body + seq * 2 ^ seqBit addr) := by
  have htake : (ctrBytes addr body seq).take 12 = leBytes 12 (body + seq * 2 ^ seqBit addr) := List.take_left' (leBytes_length ..)
  have hcrc : leAt 12 4 (ctrBytes addr body seq) = crc32 (leBytes 12 (body + seq * 2 ^ seqBit addr)) := by
    rw [ctrBytes, leAt_append (by simp), leBytes_length, leAt_whole]
    exact Nat.mod_eq_of_lt (crc32_lt _)
  have hbits : leAt 0 12 (ctrBytes addr body seq) = body + seq * 2 ^ seqBit addr := by
    rw [ctrBytes, leAt_head, Nat.mod_eq_of_lt hb]
  rw [ctrSlot, h, htake, hcrc, hbits, if_pos rfl]

theorem ctrSlot_of_bytes_eq {addr k : Nat} (h : sbBytes t (addr + 16 * k) 16 = sbBytes s (addr + 16 * k) 16) :
    ctrSlot t addr k = ctrSlot s addr k := by
  rw [ctrSlot, ctrSlot, h]

/-- A number of 32 bits under its sequence number. -/
theorem ctrBits_read {body seq : Nat} (hb : body < 2 ^ 32) (hs : seq < 4096) :
    (body + seq * 2 ^ 32) % 2 ^ 32 = body ∧ (body + seq * 2 ^ 32) / 2 ^ 32 % 4096 = seq ∧ body + seq * 2 ^ 32 < 256 ^ 12 := by
  omega

/-- The next sequence number is the newer one, in either slot. -/
theorem pickSlot_next (q : Nat) (hq : q < 4096) : pickSlot q ((q + 1) % 4096) = (1, false) ∧ pickSlot ((q + 1) % 4096) q = (0, false) := by
  have h1 : ((q + 1) % 4096 + 4096 - q) % 4096 = 1 := by omega
  have h2 : (q + 4096 - (q + 1) % 4096) % 4096 = 4095 := by omega
  simp [pickSlot, h1, h2]

theorem ctrSlots_of_none {addr : Nat} (h : ctrRead s addr = none) : ctrSlot s addr 0 = none ∧ ctrSlot s addr 1 = none := by
  unfold ctrRead at h
  cases h0 : ctrSlot s addr 0 <;> cases h1 : ctrSlot s addr 1 <;> simp [h0, h1] at h ⊢

/-- The slot that a counter is read from holds its bits. -/
theorem ctrRead_slot {addr k bits : Nat} {odd : Bool} (h : ctrRead s addr = some (k, bits, odd)) : ctrSlot s addr k = some bits := by
  have hle := ctrRead_slot_le h
  unfold ctrRead at h
  cases h0 : ctrSlot s addr 0 with
  | none =>
    cases h1 : ctrSlot s addr 1 with
    | none => simp [h0, h1] at h
    | some b =>
      simp only [h0, h1, Option.some.injEq, Prod.mk.injEq] at h
      obtain ⟨rfl, rfl, -⟩ := h
      exact h1
  | some a =>
    cases h1 : ctrSlot s addr 1 with
    | none =>
      simp only [h0, h1, Option.some.injEq, Prod.mk.injEq] at h
      obtain ⟨rfl, rfl, -⟩ := h
      exact h0
    | some b =>
      simp only [h0, h1, Option.some.injEq, Prod.mk.injEq] at h
      obtain ⟨hk, hbits, -⟩ := h
      rw [hk] at hbits
      obtain rfl | rfl : k = 0 ∨ k = 1 := by omega
      · exact h0.trans (congrArg some hbits)
      · exact h1.trans (congrArg some hbits)

/-- A counter of 32 bits reads as what was written last. -/
theorem ctrValue_ctrWrite {addr body : Nat} (hbit : seqBit addr = 32) (hb : body < 2 ^ 32) : ctrValue (ctrWrite addr body s) addr = some body := by
  have hslot : ∀ (u : State) (k seq : Nat), seq < 4096 → sbBytes u (addr + 16 * k) 16 = ctrBytes addr body seq →
      ctrSlot u addr k = some (body + seq * 2 ^ 32) := fun u k seq hs hu => by
    have h := ctrSlot_of_bytes (by rw [hbit]; exact (ctrBits_read hb hs).2.2) hu
    rwa [hbit] at h
  have hput : ∀ k seq, sbBytes (sbStore (addr + 16 * k) (ctrBytes addr body seq) s) (addr + 16 * k) 16 = ctrBytes addr body seq := fun k seq => by
    have h := sbBytes_sbStore_same (addr + 16 * k) (ctrBytes addr body seq) s
    rwa [ctrBytes_length] at h
  have hother : ∀ k j seq, k ≠ j → ctrSlot (sbStore (addr + 16 * k) (ctrBytes addr body seq) s) addr j = ctrSlot s addr j := fun k j seq hk =>
    ctrSlot_of_bytes_eq (sbBytes_sbStore_apart (by rw [ctrBytes_length]; omega) s)
  have hseq : ∀ seq, seq < 4096 → ctrSeq addr (body + seq * 2 ^ 32) = seq := fun seq hs => by
    rw [ctrSeq, hbit]
    exact (ctrBits_read hb hs).2.1
  have hlow : ∀ seq, seq < 4096 → (body + seq * 2 ^ 32) % 2 ^ 32 = body := fun seq hs => (ctrBits_read hb hs).1
  rw [ctrWrite]
  cases hr : ctrRead s addr with
  | none =>
    obtain ⟨-, h1⟩ := ctrSlots_of_none hr
    have h0 := hslot _ 0 _ (Config.firstSeq addr).isLt (hput 0 _)
    have h1' := (hother 0 1 (Config.firstSeq addr).val (by decide)).trans h1
    simp only [Nat.mul_zero, Nat.add_zero] at h0 h1'
    simp only [ctrValue, ctrRead, h0, h1', Option.map_some, hlow _ (Config.firstSeq addr).isLt]
  | some x =>
    obtain ⟨k, bits, odd⟩ := x
    have hq : ctrSeq addr bits < 4096 := Nat.mod_lt _ (by decide)
    have hn : (ctrSeq addr bits + 1) % 4096 < 4096 := Nat.mod_lt _ (by decide)
    obtain ⟨hp1, hp0⟩ := pickSlot_next (ctrSeq addr bits) hq
    have hold := ctrRead_slot hr
    have hnew := hslot _ (1 - k) _ hn (hput (1 - k) _)
    have hkept := (hother (1 - k) k ((ctrSeq addr bits + 1) % 4096) (by omega)).trans hold
    obtain rfl | rfl : k = 0 ∨ k = 1 := by have := ctrRead_slot_le hr; omega
    · simp only [ctrValue, ctrRead, hkept, show ctrSlot _ addr 1 = _ from hnew, hseq _ hn, hp1, Option.map_some]
      simpa using hb
    · simp only [ctrValue, ctrRead, hkept, show ctrSlot _ addr 0 = _ from hnew, hseq _ hn, hp0, Option.map_some]
      simpa using hb

end
end Sys2Proof.Machine
end

section
/-! SUPPORT. What the checks of an authorised command leave behind (R340 to R344). -/
namespace Sys2Proof.Machine

set_option Elab.async false

section
variable {s t u : State} {via : Transport} {op : Nat} {input : List Byte}

/-! ### Past the checks -/

/-- The state in which an authorised command acts: its nonce consumed, no failure counted. -/
def tokenTaken (via : Transport) (s : State) : State := onMbx (fun m => { m with fails := 0 }) (dropNonce via s)

/-- The transport's nonce is gone, and no failure is counted. -/
def nonceSpent (via : Transport) (s : State) : Prop := nonceOf s (viaNo via) = none ∧ s.mbx.fails = 0

theorem nonceOf_of_nonces (h : t.mbx.nonces = s.mbx.nonces) (k : Nat) : nonceOf t k = nonceOf s k := by rw [nonceOf, nonceOf, h]

theorem tabGet_map_some {α : Type} (k : Nat) (l : Tab α) (h : ∀ x ∈ l, x.1 ≠ k) : tabGet none (l.map (fun x => (x.1, some x.2))) k = none := by
  induction l with
  | nil => rfl
  | cons x l ih =>
    obtain ⟨hx, hl⟩ := List.forall_mem_cons.1 h
    simp [tabGet, hx, ih hl]

theorem fst_ne_of_mem_tabDel {α : Type} {k : Nat} {l : Tab α} : ∀ x ∈ tabDel k l, x.1 ≠ k := by
  induction l with
  | nil => simp [tabDel]
  | cons y l ih =>
    rw [tabDel]
    split
    · exact ih
    · rename_i h
      exact fun x hx => (List.mem_cons.1 hx).elim (fun e => e ▸ fun hk => h hk.symm) (ih x)

theorem nonceOf_dropNonce : nonceOf (dropNonce via s) (viaNo via) = none := tabGet_map_some _ _ fst_ne_of_mem_tabDel

theorem tokenTaken_spent : nonceSpent via (tokenTaken via s) := ⟨nonceOf_dropNonce, rfl⟩

@[simp] theorem kept_tokenTaken {ps : List Part} {s₀ : State} (hp : .mbx ∈ ps) : keptBut s₀ (tokenTaken via s) ps ↔ keptBut s₀ s ps := by
  simp [tokenTaken, dropNonce, hp]

/-- Nonces and failures are the mailboxes' own. -/
theorem nonceSpent_of_mbx (h : nonceSpent via s) (hn : t.mbx.nonces = s.mbx.nonces) (hf : t.mbx.fails = s.mbx.fails) : nonceSpent via t :=
  ⟨(nonceOf_of_nonces hn _).trans h.1, hf.trans h.2⟩

/-- The record of an attempt: its type, and the opcode with the return code. -/
theorem authRecord_lands (op vs : Nat) (input : List Byte) (s : State) :
    ∃ l ∈ (authRecord op vs input s).rcd.landed, l.type = 0x0F ∧ (l.fixed.getD []).take 2 = [op, rcOf vs] :=
  ⟨_, List.mem_append_right _ (List.mem_singleton.2 rfl), rfl, rfl⟩

/-- An authorised command past its checks acts, and its record lands. -/
theorem authorised_acts {own : State → Nat} (act : State → State) (h : tokenGood s via op input) (hg : hubGate s via op = 0)
    (ho : own (tokenTaken via (stampNow s)) = 0) :
    authorised via op input own act (stampNow s) = authRecord op 0 input (act (tokenTaken via (stampNow s))) :=
  authorised_of_good (s := stampNow s) act h hg ho

/-- So runs a command with a good token, whose gate and conditions hold. -/
theorem authorised_runs {acc : Accept} {lenOk : Nat → Bool} {body act : State → State} {own : State → Nat} {ps : List Part}
    (hr : reaches s via op acc) (hlen : lenOk input.length = true) (hmax : via = .mctp → input.length ≤ payloadMax via)
    (hb : body (stampNow s) = authorised via op input own act (stampNow s)) (h : tokenGood s via op input) (hg : hubGate s via op = 0)
    (ho : own (tokenTaken via (stampNow s)) = 0) (hk : keptBut (tokenTaken via (stampNow s)) (act (tokenTaken via (stampNow s))) ps)
    (hm : nonceSpent via (act (tokenTaken via (stampNow s)))) :
    ∃ t, run (command via op acc lenOk input body) s = .next t
      ∧ (nonceOf t (viaNo via) = none ∧ t.mbx.fails = 0 ∧ ∃ l ∈ t.rcd.landed, l.type = 0x0F ∧ (l.fixed.getD []).take 2 = [op, 0])
      ∧ t = settle s (authRecord op 0 input (act (tokenTaken via (stampNow s)))) ∧ keptBut s t (.mbx :: .rcd :: ps) := by
  refine ⟨_, run_of_effect ((command_body body hr hlen hmax).trans (hb.trans (authorised_acts act h hg ho))), ⟨?_, hm.2, authRecord_lands ..⟩, rfl,
    keptBut_of_effect hr.1 ?_⟩
  · exact hm.1
  · have h1 : keptBut (tokenTaken via (stampNow s)) (act (tokenTaken via (stampNow s))) (.stamp :: .mbx :: .rcd :: ps) :=
      keptBut_mono hk (by simp +contextual)
    have h2 : keptBut (stampNow s) (tokenTaken via (stampNow s)) (.stamp :: .mbx :: .rcd :: ps) := by simp
    rw [authRecord, kept_land _ _ _ _ _ (by simp)]
    exact keptBut_trans h2 h1

/-- A gate that a command with a token meets is closed to all of them. -/
theorem hubGate_of_reaches {acc : Accept} (h : reaches s via op acc) : hubGate s via op = 0 := by
  obtain ⟨-, -, ⟨ha, -⟩ | ⟨-, hg, -⟩⟩ := h
  · simp [hubGate, ha]
  · exact hg

/-! ### Refused by a check -/

/-- A refusal is the answer of the state that refuses, whatever else has changed. -/
theorem refuse_answers (hop : 0xC000 ≤ op) (vs : Nat) (ho : u.outbox = s.outbox) (hh : u.host = s.host) (ha : u.mbx.answers = s.mbx.answers) :
    (refuse via op vs u).outbox = (declined s via op vs).outbox ∧ (refuse via op vs u).mbx.answers = (declined s via op vs).mbx.answers
      ∧ (refuse via op vs u).mbx = { u.mbx with answers := (refuse via op vs u).mbx.answers }
      ∧ keptBut u (refuse via op vs u) [.mbx, .outbox] := by
  have hk : keptBut u (refuse via op vs u) [.mbx, .outbox] := by simp
  refine ⟨?_, ?_, ?_, hk⟩ <;> rw [refuse_eq hop]
  all_goals simp only [ended, declined, sends, shows, ho, hh, ha]

/-- A check before the act refuses: the attempt is recorded, and the refusal answered. -/
theorem authorised_refuses {own : State → Nat} {act : State → State} {v : Nat} (hc : checkToken via op input s = (v, u)) (hv : v ≠ 0) :
    authorised via op input own act s = refuse via op v (authRecord op v input u) := by
  simp [authorised, hc, hv]

/-- The hub's gate refuses after a good token, whose nonce is gone all the same. -/
theorem authorised_gated {own : State → Nat} {act : State → State} (h : tokenGood s via op input) (hg : hubGate s via op ≠ 0) :
    authorised via op input own act s = refuse via op (hubGate s via op) (authRecord op (hubGate s via op) input (tokenTaken via s)) := by
  obtain ⟨hl, x, k, hn, hk, ht⟩ := h
  have hk' : ownerKey (dropNonce via s) = ownerKey s := rfl
  have hc : checkToken via op input s = (0, tokenTaken via s) := by simp [checkToken, hl, hn, hk, ht, tokenTaken]
  simp [authorised, hc, hg]

end
end Sys2Proof.Machine
end

section
/-! PROOF. Authorised commands (R185, R200, R202, R205, R285, R302, R326, R340 to R347). -/
namespace Sys2Proof.Machine

set_option Elab.async false

section
variable {s t u : State} {via : Transport} {op : Nat} {input : List Byte}

/-! ### The hold is left -/

/-- A register outside those that the way to STANDBY writes stays. -/
theorem fget_enterStandby {g : Fld} {i : Nat} (h : g.key i < 0xC5400 * 8) (h1 : g.key i ≠ F.LDG_STATUS_FW_ACTIVE.key 0)
    (h2 : g.key i ≠ F.SEQ_CTRL_STATE.key 0) (h3 : g.key i ≠ F.HUB_MODE_PREV.key 0) : fget (enterStandby s) g i = fget s g i := by
  rw [enterStandby, fget_setMode_of_below _ h h3]
  simp only [fget_onSeq]
  rw [fget_fput_other _ _ _ _ _ _ h2]
  simp only [hubStops, fget_onSeq, fget_onMbx, fget_onMcv, fget_onLife, fget_onHost, fget_onSched, fget_onPins, fget_onFw]
  exact fget_fclr_other _ _ _ _ _ h1

theorem setMode_pins (m : Mode) : (setMode m s).pins = s.pins :=
  agree_of_kept (s := s) (ps := [.mode, .regs, .life, .mcv, .rcd]) (by simp) .pins

theorem enterStandby_pins : (enterStandby s).pins.fault = s.pins.fault := by
  rw [enterStandby, setMode_pins]
  rfl

theorem enterStandby_toStandby : (enterStandby s).life.toStandby = s.life.toStandby := by
  rw [enterStandby, setMode_life]
  rfl

theorem leaveHold_leaves (hm : s.mode = .brake) (h : s.life.toStandby = true) : (leaveHold s).mode = .standby
      ∧ fget (leaveHold s) F.HUB_MODE_HOLD 0 = 0
    ∧ (leaveHold s).pins.fault = false ∧ (leaveHold s).life.toStandby = false ∧ (leaveHold s).med = s.med
    ∧ fget (leaveHold s) F.HUB_BRAKE_RELEASES 0 = min (fget s F.HUB_BRAKE_RELEASES 0 + 1) (fmax F.HUB_BRAKE_RELEASES) := by
  have he : leaveHold s = (s |> onPins (fun p => { p with fault := false }) |> finc F.HUB_BRAKE_RELEASES 0 |> fclr F.HUB_MODE_HOLD 0
      |> onFw (fun _ => fwReset) |> onLife (fun l => { l with toStandby := false }) |> enterStandby) := by
    simp [leaveHold, hm, h]
  rw [he]
  refine ⟨enterStandby_mode _, ?_, enterStandby_pins, enterStandby_toStandby, ?_, ?_⟩
  · rw [fget_enterStandby (by decide) (by decide) (by decide) (by decide)]
    simp only [fget_onLife, fget_onFw]
    exact fget_fput_same ..
  · rw [agree_of_kept (p := .med) (s := s) (ps := [.mode, .regs, .pins, .host, .sched, .fw, .life, .seq, .mcv, .rcd, .mbx]) (by simp)]
  · rw [fget_enterStandby (by decide) (by decide) (by decide) (by decide)]
    simp only [fget_onLife, fget_onFw]
    rw [fget_fclr_other _ _ _ _ _ (by decide), fget_finc_same]
    rfl

/-! ### What the commands do -/

/-- The condition that is Change Mode's own for MAINTENANCE, and what it then does. -/
def maintOwn (input : List Byte) (s : State) : Nat := if !rsvOk 1 3 input then vsBadArg else if s.mode = .service then 0 else vsWrongMode
def askMaintenance (via : Transport) (s : State) : State :=
  s |> onLife (fun l => { l with toMaintenance := true, acceptedAt := s.stamp }) |> awaitMode via

theorem changeMode_maintenance (he : endpoint s via = .hub) (h5 : leAt 0 1 input = 5) :
    changeMode via input s = authorised via 0xC001 input (maintOwn input) (askMaintenance via) s := by
  simp only [changeMode, he, h5]
  rfl

/-- The conditions of Clear Recorder, and what it does: the clear begins, and its record lands. -/
def clearOwn (input : List Byte) (s : State) : Nat :=
  if !accepted s .hub then vsWrongMode
  else if leAt 0 4 input ≠ (fget s F.REC_SEQ_SEQ 0 + (2 ^ 32 - 1)) % 2 ^ 32 then vsMismatch
  else if recVolatile s || s.rcd.clearing.isSome then vsConflict else 0
def clearBegins (via : Transport) (n : Option Nonce) (s : State) : State :=
  s |> onRcd (fun r => { r with clearing := some (some via) }) |> land 0x10 7 srcHub 0 (some (clearSnap s n))

theorem clearRecorder_eq : clearRecorder via input s = authorised via 0xC023 input (clearOwn input) (clearBegins via (liveNonce s via)) s := rfl

/-- The conditions of Set Saddlebag Protection, and what it does. -/
def protectOwn (input : List Byte) (s : State) : Nat :=
  if s.mode ≠ .maintenance then vsWrongMode else if 3 < leAt 0 1 input || !rsvOk 1 3 input then vsBadArg else 0
def protects (via : Transport) (bp : Nat) (s : State) : State :=
  s |> ctrUpdate ctrProtect bp |> finishStored via 0xC02B [4032] [(ctrProtect, 32)] (leBytes 1 (fget s F.SBG_STATUS_BP 0))

theorem setProtection_eq : setProtection via input s = authorised via 0xC02B input (protectOwn input) (protects via (leAt 0 1 input)) s := rfl

/-- The conditions of Promote Mirror. -/
def promoteOwn (input : List Byte) (s : State) : Nat :=
  if !inService s then vsWrongMode else if 1 < leAt 0 1 input || !rsvOk 1 3 input then vsBadArg
  else if leAt 0 1 input = 0 then promoteHolderOwn s else promoteOwnerOwn s

theorem promoteMirror_holder (h : leAt 0 1 input = 0) : promoteMirror via input s = authorised via 0xC074 input (promoteOwn input)
      (doPromoteHolder via) s := by
  show authorised via 0xC074 input (promoteOwn input) (if leAt 0 1 input = 0 then doPromoteHolder via else doPromoteOwner via) s = _
  rw [if_pos h]

theorem promoteMirror_owner (h : leAt 0 1 input = 1) : promoteMirror via input s = authorised via 0xC074 input (promoteOwn input)
      (doPromoteOwner via) s := by
  show authorised via 0xC074 input (promoteOwn input) (if leAt 0 1 input = 0 then doPromoteHolder via else doPromoteOwner via) s = _
  rw [if_neg (by rw [h]; decide)]

/-- A counter that waits for nothing takes its value at once. -/
theorem protects_value {bp : Nat} (hb : bp < 4) (hu : ctrUnstored s ctrProtect = false) (hw : s.sbg.ctrWait = []) :
    ctrValue (protects via bp s) ctrProtect = some bp := by
  have hwrite : ctrUpdate ctrProtect bp s = ctrWrite ctrProtect bp s := by simp [ctrUpdate, hu, hw]
  have hsbg : (protects via bp s).sbg = (ctrWrite ctrProtect bp s).sbg := by
    rw [protects, ← hwrite]
    exact agree_of_kept (s := ctrUpdate ctrProtect bp s) (ps := [.mbx, .outbox]) (by simp) .sbg
  have hread : ctrRead (protects via bp s) ctrProtect = ctrRead (ctrWrite ctrProtect bp s) ctrProtect :=
    ctrRead_of_bytes fun k _ _ => sbByte_of_work (congrArg Saddlebag.work hsbg) k
  rw [ctrValue, hread]
  exact ctrValue_ctrWrite rfl (Nat.lt_of_lt_of_le hb (by decide))

theorem modeLen_token (h5 : leAt 0 1 input = 5) (hl : input.length = 20) : modeLen input input.length = true := by
  simp [modeLen, h5, hl]

/-- A command that reaches its meaning outside STANDBY for Change Mode does so at the hub. -/
theorem endpoint_of_changeMode {acc : Accept} (h : reaches s via 0xC001 acc) (hm : s.mode ≠ .standby) : endpoint s via = .hub := by
  obtain ⟨-, -, ⟨-, ha⟩ | ⟨he, -⟩⟩ := h
  · simp [aonServes, hm] at ha
  · exact he

/-- An answer of success, whatever else has changed. -/
theorem succeed_tells {out : List Byte} (ho : u.outbox = s.outbox) (hh : u.host = s.host) (ha : u.mbx.answers = s.mbx.answers) :
    (succeed via op out u).outbox = s.outbox ++ sends s via op ⟨0, 0⟩ out ∧ (succeed via op out u).mbx.answers = shows s via op ⟨0, 0⟩ out := by
  rw [succeed_eq]
  simp only [ended, sends, shows, ho, hh, ha]
  exact ⟨trivial, trivial⟩

theorem succeed_spent {out : List Byte} (h : nonceSpent via u) : nonceSpent via (succeed via op out u) := by
  rw [succeed_eq]
  exact nonceSpent_of_mbx h rfl rfl

theorem finishStored_spent {pages : List Nat} {reload : List (Nat × Nat)} {out : List Byte} (h : nonceSpent via u) :
    nonceSpent via (finishStored via op pages reload out u) := by
  rw [finishStored]
  split
  · exact succeed_spent (nonceSpent_of_mbx h rfl rfl)
  · exact nonceSpent_of_mbx h rfl rfl

/-- A part outside the mailboxes leaves nonces and failures. -/
theorem nonceSpent_of_kept {ps : List Part} (h : nonceSpent via u) (hk : keptBut u t ps) (hp : Part.mbx ∉ ps := by decide) : nonceSpent via t :=
  nonceSpent_of_mbx h (by rw [agree_of_kept hk .mbx hp]) (by rw [agree_of_kept hk .mbx hp])

/-- The holder's promotion without a link. -/
theorem promoteHolder_shows (hc : fget s F.TND_STATUS_PEER_COPY 0 = 1 ∨ fget s F.TND_STATUS_PEER_COPY 0 = 2) (hl : fget s F.TND_STATUS_LINK 0 ≠ 6) :
    doPromoteHolder via s = succeed via 0xC074 [0] (promoteHolder s) ∧ fget (promoteHolder s) F.TND_STATUS_PEER_COPY 0 = 3
      ∧ (promoteHolder s).tnd.promoted = true ∧ fget (promoteHolder s) F.TND_ERR_PROMOTED 0 = 1 := by
  have hlink : fget (promoteHolder s) F.TND_STATUS_LINK 0 ≠ 6 := by
    simpa (disch := decide) [promoteHolder, tandemRecord, fget_setTnd_other, fget_fset_other] using hl
  refine ⟨?_, ?_, rfl, ?_⟩
  · have hcopy : (fget s F.TND_STATUS_PEER_COPY 0 = 1 || fget s F.TND_STATUS_PEER_COPY 0 = 2) = true := by simpa using hc
    simp only [doPromoteHolder, hcopy, endConflict, if_neg hlink, if_true]
  · simp (disch := decide) [promoteHolder, tandemRecord, fget_setTnd_same, fget_fset_other]
  · simp (disch := decide) [promoteHolder, tandemRecord, fget_fset_same]

/-- The owner's regions taken back without a link. -/
theorem promoteOwner_shows (hc : fget s F.TND_STATUS_OWN 0 = 2) (ho : s.tnd.own ≠ []) (hu : tndUp s = false) (hl : fget s F.TND_STATUS_LINK 0 ≠ 6) :
    doPromoteOwner via s = succeed via 0xC074 [0] (divergeOwn (setTnd F.TND_STATUS_OWN 0 s))
      ∧ fget (divergeOwn (setTnd F.TND_STATUS_OWN 0 s)) F.TND_STATUS_OWN 0 = 0
      ∧ (divergeOwn (setTnd F.TND_STATUS_OWN 0 s)).tnd.divergeAll = true
        ∧ fget (divergeOwn (setTnd F.TND_STATUS_OWN 0 s)) F.TND_STATUS_DIVERGED 0 = 1 := by
  have hlink : fget (divergeOwn (setTnd F.TND_STATUS_OWN 0 s)) F.TND_STATUS_LINK 0 ≠ 6 := by
    simpa (disch := decide) [divergeOwn, fget_setTnd_other] using hl
  have hset : ∀ (f : Fld) (v : Nat) (u : State), (setTnd f v u).tnd = u.tnd := fun f v u => agree_of_kept (s := u) (ps := [.regs, .sbg])
      (by simp) .tnd
  refine ⟨?_, ?_, ?_, ?_⟩
  · simp [doPromoteOwner, hc, hu, ho, endConflict, hlink]
  · simp (disch := decide) [divergeOwn, fget_setTnd_other, fget_setTnd_same]
  · rw [divergeOwn, hset]
    rfl
  · simp (disch := decide) [divergeOwn, fget_setTnd_same]

end
end Sys2Proof.Machine
end

section
/-! PROOF. Authorised commands, concluded (R340 to R347). -/
namespace Sys2Proof.Machine

set_option Elab.async false

section
variable {s t u : State} {via : Transport} {op : Nat} {input : List Byte}

theorem countAuthFail_shows : (countAuthFail s).mbx = s.mbx ∧ (countAuthFail s).outbox = s.outbox ∧ (countAuthFail s).host = s.host
    ∧ fget (countAuthFail s) F.MBX_ERR_AUTH_FAIL 0 = 1 := ⟨rfl, rfl, rfl, fget_fset_same _ _ _ (by decide)⟩

/-- A bad token: its nonce is gone, the failure counted. -/
theorem tokenFails_spec (hl : lockedOut s = false) : (s.mbx.fails ≠ 3 → (tokenFails s).mbx.fails = s.mbx.fails + 1 ∧ lockedOut (tokenFails s) = false)
    ∧ (s.mbx.fails = 3 → (tokenFails s).mbx.fails = 0 ∧ (tokenFails s).mbx.lockAt = s.gtc + 10000000000)
    ∧ (tokenFails s).mbx.nonces = s.mbx.nonces ∧ (tokenFails s).mbx.answers = s.mbx.answers
    ∧ keptBut s (tokenFails s) [.mbx, .regs] ∧ fget (tokenFails s) F.MBX_ERR_AUTH_FAIL 0 = fget s F.MBX_ERR_AUTH_FAIL 0 := by
  by_cases h : s.mbx.fails = 3
  · have he : tokenFails s = (s |> onMbx (fun m => { m with fails := 0, lockAt := s.gtc + 10000000000 }) |> fset F.MBX_ERR_LOCKOUT 0) := if_pos h
    rw [he]
    exact ⟨fun hn => absurd h hn, fun _ => ⟨rfl, rfl⟩, rfl, rfl, by simp, fget_fset_other _ _ _ _ _ (by decide)⟩
  · have he : tokenFails s = onMbx (fun m => { m with fails := m.fails + 1 }) s := if_neg h
    rw [he]
    exact ⟨fun _ => ⟨rfl, hl⟩, fun hn => absurd hn h, rfl, rfl, by simp, rfl⟩

theorem checkToken_locked (h : lockedOut s = true) : checkToken via op input s = (vsLockout, s) := by simp [checkToken, h]

theorem checkToken_none (h : lockedOut s = false) (hn : liveNonce s via = none) :
    checkToken via op input s = (vsNonceNone, countAuthFail (dropNonce via s)) := by
  simp [checkToken, h, hn]

theorem checkToken_bad {x : Nonce} {k : List Byte} (h : lockedOut s = false) (hn : liveNonce s via = some x) (hk : ownerKey s = some k)
    (ht : tokenFor k x op (input.take (input.length - 16)) ≠ input.drop (input.length - 16)) :
    checkToken via op input s = (vsTokenBad, tokenFails (countAuthFail (dropNonce via s))) := by
  have hk' : ownerKey (dropNonce via s) = ownerKey s := rfl
  simp [checkToken, h, hn, hk, ht]

theorem storeOwnerKey_spent {key : List Byte} (h : nonceSpent via s) : nonceSpent via (storeOwnerKey via key s) :=
  finishStored_spent (nonceSpent_of_kept (ps := [.sbg]) h (by simp))

theorem protects_spent {bp : Nat} (h : nonceSpent via s) : nonceSpent via (protects via bp s) :=
  finishStored_spent (nonceSpent_of_kept (ps := [.sbg]) h (by simp))

/-- At the hub, an authorised command with no gate of its own is its body in every mode. -/
theorem command_own {lenOk : Nat → Bool} (body : State → State) (hb : transportBusy s via = false) (he : endpoint s via = .hub)
    (hm : overMctp op = true) (hlen : lenOk input.length = true) (hmax : via = .mctp → input.length ≤ payloadMax via) :
    command via op .own lenOk input body s = body s := by
  have h2 : ¬(via = .mctp ∧ payloadMax via < input.length) := fun k => absurd (hmax k.1) (by omega)
  simp [command, hb, he, hm, hlen, accepted, h2]

/-- Change Mode for MAINTENANCE that a check refuses. -/
theorem changeMode_refuses {v : Nat} (hb : transportBusy s via = false) (he : endpoint s via = .hub) (hl : input.length = 20)
    (h5 : leAt 0 1 input = 5) (hc : checkToken via 0xC001 input (stampNow s) = (v, u)) (hv : v ≠ 0) :
    run (command via 0xC001 .own (modeLen input) input (changeMode via input)) s
      = .next (settle s (refuse via 0xC001 v (authRecord 0xC001 v input u))) := by
  refine run_of_effect ?_
  rw [command_own (s := stampNow s) _ hb he rfl (modeLen_token h5 hl) (payload_fits hl), changeMode_maintenance (s := stampNow s) he h5,
    authorised_refuses hc hv]

end

/-- Settles O59: past the checks of token and gate each command does what is its own; before them it is refused. -/
theorem authorisedCommandsCheckAndAct : Obligations.AuthorisedCommandsCheckAndAct := by
  unfold Obligations.AuthorisedCommandsCheckAndAct
  intro s via input hg waits passed tells turned
  have five : input.take 4 = [5, 0, 0, 0] → leAt 0 1 input = 5 ∧ rsvOk 1 3 input = true := fun h => selector_of_head (k := 5) (by decide) h
  refine ⟨fun hl hin hr htok hm hgate => ?_, fun hm hl hin _ hb he htok => ?_, fun hl hm hhold hin hc hr htok => ?_,
      fun hm h => leaveHold_leaves hm h,
    fun k hk hl hi hgate he hr htok => ?_, fun hl hacc hseq hvol hcl hgate he hr htok => ?_,
    fun bp hbp hl hin hm hgate he hun hw hr htok => ?_, fun hl hin hi hgate he hu hps hlink hc hr htok => ?_,
    fun hl hin hi hgate he hu hpp hown hreg hlink hr htok => ?_, fun hl hin he hr => ⟨fun hlock => ?_, fun hlock hn => ?_,
      fun x k hlock hn hk hbad => ?_⟩,
    fun hm hr => ⟨?_, fun he => ?_⟩, fun hm hmar hgate hr => ?_⟩
  · obtain ⟨h5, hrsv⟩ := five hin
    have he := endpoint_of_changeMode hr (by rw [hm]; decide)
    obtain ⟨t, hrun, hpass, rfl, hk⟩ := authorised_runs (own := maintOwn input) (act := askMaintenance via) (ps := [.mbx, .life]) hr
      (modeLen_token h5 hl) (payload_fits hl) (changeMode_maintenance (s := stampNow s) he h5) htok hgate
      (by simp [maintOwn, hrsv, tokenTaken, dropNonce, hm]) (by simp [askMaintenance, awaitMode])
      (nonceSpent_of_mbx tokenTaken_spent rfl rfl)
    exact ⟨_, hrun, hpass, rfl, ⟨_, rfl, rfl, rfl, rfl⟩, keptBut_mono hk (by simp)⟩
  · obtain ⟨h5, -⟩ := five hin
    have hgate : hubGate (stampNow s) via 0xC001 = 0x0101 := by
      simp [hubGate, he, hm, vsWrongMode]
    have hrun := command_own (s := stampNow s) (op := 0xC001) (lenOk := modeLen input) (changeMode via input) hb he rfl (modeLen_token h5 hl)
      (payload_fits hl)
    rw [changeMode_maintenance (s := stampNow s) he h5, authorised_gated (s := stampNow s) htok (by rw [hgate]; decide), hgate] at hrun
    obtain ⟨h1, h2, h3, hk⟩ := refuse_answers (s := s) (u := authRecord 0xC001 0x0101 input (tokenTaken via (stampNow s))) (via := via)
      (op := 0xC001) (by decide) 0x0101 rfl rfl rfl
    refine ⟨_, run_of_effect hrun, ?_, ⟨h1, h2⟩, ?_, ?_⟩
    · exact (nonceOf_of_nonces (by rw [settle_mbx, h3]; rfl) _).trans (tokenTaken_spent (s := stampNow s)).1
    · exact (agree_of_kept hk .mode).trans hm
    · exact agree_of_kept hk .life
  · obtain ⟨h0, hrsv⟩ := selector_of_head hc hin
    obtain ⟨t, hrun, hpass, rfl, hk⟩ := authorised_runs (ps := [.mbx, .life, .outbox]) (body := brakeRelease via input)
      (lenOk := len 20) hr (by rw [hl]; rfl)
      (payload_fits hl) rfl htok (hubGate_of_reaches hr) (by simp [tokenTaken, dropNonce, hm, hhold, hrsv, h0]) (by simp)
      (succeed_spent (nonceSpent_of_mbx tokenTaken_spent rfl rfl))
    refine ⟨_, hrun, hpass, succeed_tells rfl rfl rfl, ?_, keptBut_mono hk (by simp)⟩
    exact (agree_of_kept (ps := [.mbx, .outbox]) ((kept_succeed _ _ _ (by simp)).2 (keptBut_refl ..)) .life).trans rfl
  · have hsome : (ownerKey s).isSome = true := by rw [hk]; rfl
    have hbody : setOwnerKey via input (stampNow s) = authorised via 0xC003 input (fun s => if inService s then 0 else vsWrongMode)
        (storeOwnerKey via (input.take 32)) (stampNow s) := if_pos hsome
    have hl32 : (input.take 32).length = 32 := by simp [hl]
    have hkeeps : keptBut (tokenTaken via (stampNow s)) (storeOwnerKey via (input.take 32) (tokenTaken via (stampNow s))) [.sbg, .mbx, .outbox] := by
      simp [storeOwnerKey]
    obtain ⟨t, hrun, hpass, rfl, hk⟩ := authorised_runs (ps := [.sbg, .mbx, .outbox]) (lenOk := len (if (ownerKey s).isSome then 48 else 32)) hr
      (by rw [hl, hsome]; rfl) (payload_fits hl) hbody htok hgate (if_pos hi) hkeeps
      (storeOwnerKey_spent tokenTaken_spent)
    exact ⟨_, hrun, hpass, ownerKey_storeOwnerKey hl32, keptBut_mono hk (by simp)⟩
  · have ho : clearOwn input (tokenTaken via (stampNow s)) = 0 := by
      have hv : recVolatile (tokenTaken via (stampNow s)) = false := hvol
      have hc : (tokenTaken via (stampNow s)).rcd.clearing = none := hcl
      have ha : accepted (tokenTaken via (stampNow s)) .hub = true := hacc
      have hq : leAt 0 4 input = (fget (tokenTaken via (stampNow s)) F.REC_SEQ_SEQ 0 + (2 ^ 32 - 1)) % 2 ^ 32 := hseq
      rw [clearOwn, ha, if_neg (by decide), if_neg (not_not.2 hq), hv, hc]
      rfl
    obtain ⟨t, hrun, hpass, rfl, hk⟩ := authorised_runs (ps := [.rcd]) (lenOk := len 20) hr (by rw [hl]; rfl) (payload_fits hl) clearRecorder_eq
      htok hgate ho (by simp [clearBegins]) (nonceSpent_of_mbx tokenTaken_spent rfl rfl)
    exact ⟨_, hrun, hpass, rfl, ⟨_, List.mem_append_left _ (List.mem_append_right _ (List.mem_singleton.2 rfl)), rfl⟩, rfl, keptBut_mono hk (by simp)⟩
  · obtain ⟨h0, hrsv⟩ := selector_of_head (by omega) hin
    have ho : protectOwn input (tokenTaken via (stampNow s)) = 0 := by
      have hm' : (tokenTaken via (stampNow s)).mode = .maintenance := hm
      simp [protectOwn, hm', h0, hrsv, Nat.le_of_lt_succ hbp]
    have hbody : setProtection via input (stampNow s) = authorised via 0xC02B input (protectOwn input) (protects via bp) (stampNow s) := by
      rw [setProtection_eq, h0]
    obtain ⟨t, hrun, hpass, rfl, hk⟩ := authorised_runs (ps := [.sbg, .mbx, .outbox]) (lenOk := len 20) hr (by rw [hl]; rfl) (payload_fits hl) hbody
      htok hgate ho (by simp [protects]) (protects_spent tokenTaken_spent)
    refine ⟨_, hrun, hpass, protects_value (s := tokenTaken via (stampNow s)) hbp hun hw, ?_, keptBut_mono hk (by simp)⟩
    exact fget_of_kept (keptBut_mono hk (by simp) : keptBut s _ [.sbg, .mbx, .rcd, .outbox]) ..
  · obtain ⟨h0, hrsv⟩ := selector_of_head (k := 0) (by decide) hin
    have ho : promoteOwn input (tokenTaken via (stampNow s)) = 0 := by
      have hi' : inService (tokenTaken via (stampNow s)) = true := hi
      have hu' : tndUp (tokenTaken via (stampNow s)) = false := hu
      have hp' : partnerServes (tokenTaken via (stampNow s)) = false := hps
      simp [promoteOwn, hi', h0, hrsv, promoteHolderOwn, hu', hp']
    obtain ⟨hact, hcopy, hprom, herr⟩ := promoteHolder_shows (s := tokenTaken via (stampNow s)) (via := via) hc hlink
    have hkh : keptBut (tokenTaken via (stampNow s)) (promoteHolder (tokenTaken via (stampNow s))) [.regs, .rcd, .sbg, .tnd] := by simp
    have hks : keptBut (promoteHolder (tokenTaken via (stampNow s))) (doPromoteHolder via (tokenTaken via (stampNow s))) [.mbx, .outbox] := by
      rw [hact]; simp
    obtain ⟨t, hrun, hpass, rfl, hk⟩ := authorised_runs (ps := [.regs, .rcd, .sbg, .tnd, .mbx, .outbox]) (lenOk := len 20) hr (by rw [hl]; rfl)
      (payload_fits hl) (promoteMirror_holder h0) htok hgate ho (keptBut_trans (keptBut_mono hkh (by simp)) (keptBut_mono hks (by simp)))
      (by rw [hact]; exact succeed_spent (nonceSpent_of_kept tokenTaken_spent hkh))
    have htells := succeed_tells (s := s) (via := via) (op := 0xC074) (out := [0]) (u := promoteHolder (tokenTaken via (stampNow s)))
      (agree_of_kept hkh .outbox) (agree_of_kept hkh .host) (by rw [agree_of_kept hkh .mbx]; rfl)
    refine ⟨_, hrun, hpass, ?_, ?_, ?_, ?_, agree_of_kept hk .med⟩
    · exact (fget_of_kept hks ..).trans hcopy
    · exact (congrArg Tandem.promoted (agree_of_kept hks .tnd)).trans hprom
    · exact (fget_of_kept hks ..).trans herr
    · rw [← hact] at htells
      exact htells
  · obtain ⟨h0, hrsv⟩ := selector_of_head (k := 1) (by decide) hin
    have ho : promoteOwn input (tokenTaken via (stampNow s)) = 0 := by
      have hi' : inService (tokenTaken via (stampNow s)) = true := hi
      have hu' : tndUp (tokenTaken via (stampNow s)) = false := hu
      have hp' : (tokenTaken via (stampNow s)).tnd.peerPromoted = false := hpp
      simp [promoteOwn, hi', h0, hrsv, promoteOwnerOwn, hu', hp']
    obtain ⟨hact, hown', hall, hdiv⟩ := promoteOwner_shows (s := tokenTaken via (stampNow s)) (via := via) hown hreg hu hlink
    have hkh : keptBut (tokenTaken via (stampNow s)) (divergeOwn (setTnd F.TND_STATUS_OWN 0 (tokenTaken via (stampNow s)))) [.regs, .sbg, .tnd] := by
      simp
    have hks : keptBut (divergeOwn (setTnd F.TND_STATUS_OWN 0 (tokenTaken via (stampNow s)))) (doPromoteOwner via (tokenTaken via (stampNow s)))
        [.mbx, .outbox] := by
      rw [hact]; simp
    obtain ⟨t, hrun, hpass, rfl, hk⟩ := authorised_runs (ps := [.regs, .sbg, .tnd, .mbx, .outbox]) (lenOk := len 20) hr (by rw [hl]; rfl)
      (payload_fits hl) (promoteMirror_owner h0) htok hgate ho (keptBut_trans (keptBut_mono hkh (by simp)) (keptBut_mono hks (by simp)))
      (by rw [hact]; exact succeed_spent (nonceSpent_of_kept tokenTaken_spent hkh))
    have htells := succeed_tells (s := s) (via := via) (op := 0xC074) (out := [0])
      (u := divergeOwn (setTnd F.TND_STATUS_OWN 0 (tokenTaken via (stampNow s))))
      (agree_of_kept hkh .outbox) (agree_of_kept hkh .host) (by rw [agree_of_kept hkh .mbx]; rfl)
    refine ⟨_, hrun, hpass, ?_, ?_, ?_, ?_, agree_of_kept hk .med⟩
    · exact (fget_of_kept hks ..).trans hown'
    · exact (congrArg Tandem.divergeAll (agree_of_kept hks .tnd)).trans hall
    · exact (fget_of_kept hks ..).trans hdiv
    · rw [← hact] at htells
      exact htells
  · obtain ⟨h5, -⟩ := five hin
    have hrun := changeMode_refuses hr.2.1 he hl h5 (checkToken_locked (s := stampNow s) hlock) (by decide)
    obtain ⟨h1, h2, h3, hk⟩ := refuse_answers (s := s) (u := authRecord 0xC001 vsLockout input (stampNow s)) (via := via) (op := 0xC001)
      (by decide) vsLockout rfl rfl rfl
    exact ⟨_, hrun, ⟨h1, h2⟩, h3, agree_of_kept hk .mode, agree_of_kept hk .life⟩
  · obtain ⟨h5, -⟩ := five hin
    have hrun := changeMode_refuses hr.2.1 he hl h5 (checkToken_none (s := stampNow s) hlock hn) (by decide)
    obtain ⟨h1, h2, h3, hk⟩ := refuse_answers (s := s) (u := authRecord 0xC001 vsNonceNone input (countAuthFail (dropNonce via (stampNow s))))
      (via := via) (op := 0xC001) (by decide) vsNonceNone rfl rfl rfl
    exact ⟨_, hrun, ⟨h1, h2⟩, by rw [settle_mbx, h3]; rfl, agree_of_kept hk .mode, agree_of_kept hk .life⟩
  · obtain ⟨h5, -⟩ := five hin
    have hrun := changeMode_refuses hr.2.1 he hl h5 (checkToken_bad (s := stampNow s) hlock hn hk (by rw [hl]; exact hbad)) (by decide)
    obtain ⟨hmore, hfourth, hnonces, hanswers, hkt, hflag⟩ := tokenFails_spec (s := countAuthFail (dropNonce via (stampNow s))) hlock
    obtain ⟨h1, h2, h3, hkr⟩ := refuse_answers (s := s)
      (u := authRecord 0xC001 vsTokenBad input (tokenFails (countAuthFail (dropNonce via (stampNow s))))) (via := via) (op := 0xC001) (by decide)
      vsTokenBad (agree_of_kept hkt .outbox) (agree_of_kept hkt .host) hanswers
    refine ⟨_, hrun, ⟨h1, h2⟩, ?_, ?_, (agree_of_kept hkr .mode).trans (agree_of_kept hkt .mode),
      (agree_of_kept hkr .life).trans (agree_of_kept hkt .life), fun hne => ?_, fun heq => ?_⟩
    · refine (nonceOf_of_nonces ?_ _).trans (nonceOf_dropNonce (s := stampNow s))
      rw [settle_mbx, h3]
      exact hnonces
    · rw [fget_settle, fget_of_kept hkr]
      exact hflag.trans countAuthFail_shows.2.2.2
    · rw [lockedOut, settle_mbx, h3]
      exact hmore hne
    · rw [settle_mbx, h3]
      exact hfourth heq
  · refine run_of_effect_eq hg ?_
    have hgate : hubGate (stampNow s) via 0xC001 = 0 := hubGate_of_reaches (s := s) hr
    rw [command_body _ hr rfl (payload_fits (n := 4) rfl)]
    have hbody : changeMode via [2, 0, 0, 0] (stampNow s)
        = succeed via 0xC001 [1] (onLife (fun l => { l with rampRequest := true, acceptedAt := (stampNow s).stamp }) (stampNow s)) := by
      have h2 : leAt 0 1 [2, 0, 0, 0] = 2 := rfl
      have hrsv : rsvOk 1 3 [2, 0, 0, 0] = true := rfl
      generalize ([2, 0, 0, 0] : List Byte) = input at h2 hrsv
      simp [changeMode, h2, hrsv, hgate, hm]
    rw [hbody, succeed_eq]
    rfl
  · refine query_ends hr rfl (payload_fits (n := 4) rfl) ?_
    have h4 : leAt 0 1 [4, 0, 0, 0] = 4 := rfl
    have hbody : changeMode via [4, 0, 0, 0] (stampNow s) = refuse via 0xC001 vsNotReady (stampNow s) := by
      generalize ([4, 0, 0, 0] : List Byte) = input at h4
      simp [changeMode, h4, he]
    rw [hbody, refuse_eq (by decide), answer_eq]
    rfl
  · have he := endpoint_of_changeMode hr (by rw [hm]; decide)
    have hgate' : hubGate (stampNow s) via 0xC001 = 0 := hgate
    have hbody : changeMode via [4, 0, 0, 0] (stampNow s)
        = awaitMode via (onLife (fun l => { l with toService := true, acceptedAt := (stampNow s).stamp }) (stampNow s)) := by
      have h4 : leAt 0 1 [4, 0, 0, 0] = 4 := rfl
      have hrsv : rsvOk 1 3 [4, 0, 0, 0] = true := rfl
      have hhome : marginsHome (stampNow s) = stampNow s := by
        rw [marginsHome, show (stampNow s).seq.margins = [] from hmar]
        rfl
      generalize ([4, 0, 0, 0] : List Byte) = input at h4 hrsv
      simp [changeMode, h4, hrsv, hgate', hm, he, hhome]
    refine ⟨_, run_of_effect ((command_body (lenOk := modeLen [4, 0, 0, 0]) (input := [4, 0, 0,
      0]) _ hr rfl (payload_fits (n := 4) rfl)).trans hbody),
      rfl, ⟨_, rfl, rfl, rfl, rfl⟩, keptBut_of_effect hg (by simp [awaitMode])⟩

end Sys2Proof.Machine
end

section
/-! PROOF. Commands that act at once: events, time, alerts, aborts, nonces (R36, R41, R53, R335, R336, R340). -/
namespace Sys2Proof.Machine

set_option Elab.async false

section
variable {s t u : State} {via : Transport} {op : Nat} {input : List Byte}

/-! ### Event logs, time and alerts -/

/-- A log with nothing in it, its overflow over. -/
def logEmptied (log : Nat) (h : HostPort) : HostPort :=
  { h with logs := tabSet logReset log { tabGet logReset h.logs log with recs := [], overflow := false, lost := 0, firstLost := 0, lastLost := 0 } h.logs }

theorem clearEvents_all {log : Nat} (hl : log < 4) : clearEvents via [BitVec.ofNat 8 log, 1, 0, 0, 0, 0] s
    = succeed via 0x0101 [] (onHost (logEmptied log) s) := by
  have h0 : leAt 0 1 [BitVec.ofNat 8 log, 1, 0, 0, 0, 0] = log := (leAt_byte _ _).trans (by simp; omega)
  have h1 : leAt 1 1 [BitVec.ofNat 8 log, 1, 0, 0, 0, 0] % 2 = 1 := rfl
  generalize [BitVec.ofNat 8 log, 1, 0, 0, 0, 0] = input at h0 h1
  simp only [clearEvents, h0, h1, if_neg (Nat.not_lt.2 (Nat.le_of_lt_succ hl)), if_true]
  rfl

theorem setPolicy_of_ok {ps : List Byte} (h : ∀ b ∈ ps, b.toNat % 4 ≤ 1) :
    setPolicy via ps s = succeed via 0x0103 [] (onHost (fun h => { h with intPolicy := ps }) s) := by
  have hany : ps.any (fun b => decide (1 < b.toNat % 4)) = false := by simpa using h
  rw [setPolicy, hany]
  rfl

theorem setAlert_off {i off n : Nat} {c : List Byte} (h : leAt 0 1 input / 2 ^ i % 2 = 0) : setAlert input i off n c = c := by
  simp [setAlert, h]

/-- The first alert's byte, enabled as the second byte of the input says. -/
theorem enableBit (a en : Byte) : BitVec.ofNat 8 (a.toNat - a.toNat % 2 + (en &&& 1).toNat % 2) = (a &&& 0xFE ||| en &&& 1) := by
  have hbit : ∀ b : Byte, b &&& 1 = 0 ∨ b &&& 1 = 1 := by decide
  rcases hbit en with h | h
  · rw [h]
    revert a
    decide
  · rw [h]
    revert a
    decide

theorem setAlerts_first {en v : Byte} (c : List Byte) (hc : s.host.alertCfg ++ List.replicate (12 - s.host.alertCfg.length) 0 = c) :
    setAlerts via ([1, en &&& 1, v] ++ List.replicate 9 0) s
      = succeed via 0x4202 [] (onHost (fun h => { h with alertCfg := (c.getD 0 0 &&& 0xFE ||| en &&& 1) :: c.getD 1 0 :: v :: c.drop 3 }) s) := by
  have hen : ∀ b : Byte, (b &&& 1).toNat / 32 = 0 := by decide
  have h0 : leAt 0 1 ([1, en &&& 1, v] ++ List.replicate 9 0) = 1 := rfl
  have h1 : leAt 1 1 ([1, en &&& 1, v] ++ List.replicate 9 0) = (en &&& 1).toNat := leAt_byte _ _
  have hd : (([1, en &&& 1, v] ++ List.replicate 9 0).drop 2).take 1 = [v] := rfl
  generalize [1, en &&& 1, v] ++ List.replicate 9 0 = input at h0 h1 hd
  have hfirst : setAlert input 0 2 1 c = (c.getD 0 0 &&& 0xFE ||| en &&& 1) :: c.getD 1 0 :: v :: c.drop 3 := by
    have hone : leAt 0 1 c = (c.getD 0 0).toNat := by
      cases c with
      | nil => rfl
      | cons a c => exact leAt_byte a c
    have hlen : 2 ≤ c.length := by rw [← hc]; simp; omega
    obtain ⟨a, b, c', rfl⟩ : ∃ a b c', c = a :: b :: c' := by
      match c, hlen with
      | a :: b :: c', _ => exact ⟨a, b, c', rfl⟩
    have hbit := enableBit a en
    simp only [setAlert, h0, h1, hone, hd, List.getD_cons_zero, Nat.pow_zero, Nat.div_one, Nat.mul_one] at *
    rw [if_pos trivial]
    simp only [leBytes, hbit, List.getD_cons_succ, List.getD_cons_zero]
    rfl
  have hoff : ∀ i, 0 < i → leAt 0 1 input / 2 ^ i % 2 = 0 := fun i hi => by
    rw [h0, Nat.div_eq_of_lt (Nat.one_lt_two_pow (by omega)), Nat.zero_mod]
  simp only [setAlerts, hc, hfirst, setAlert_off (hoff _ (by decide : 0 < 1)), setAlert_off (hoff _ (by decide : 0 < 2)),
    setAlert_off (hoff _ (by decide : 0 < 3)), setAlert_off (hoff _ (by decide : 0 < 4)), h0, h1, hen]
  rfl

/-! ### Aborts -/

theorem requestAbort_barred (h : s.mbx.bg = none ∨ ∃ b, s.mbx.bg = some b ∧ b.opcode ∈ [0x0201, 0x0202, 0x4400, 0x4401, 0xC004]) :
    requestAbort via s = succeed via 0x0005 [] s := by
  rcases h with h | ⟨b, h, hop⟩
  · rw [requestAbort, h]
  · have hn : notAbortable b.opcode = true := by
      simp only [List.mem_cons, List.not_mem_nil, or_false] at hop
      rcases hop with h | h | h | h | h <;> simp [notAbortable, eraseOp, h]
    simp [requestAbort, h, hn]

theorem requestAbort_asks {b : Bg} (h : s.mbx.bg = some b) (hop : b.opcode ∈ [0x4304, 0xC042, 0xC052]) :
    requestAbort via s = succeed via 0x0005 [] (onMbx (fun m => { m with abortReq := true }) s) := by
  simp only [List.mem_cons, List.not_mem_nil, or_false] at hop
  rcases hop with hop | hop | hop <;> simp [requestAbort, h, hop, notAbortable, eraseOp]

theorem requestAbort_flush {b : Bg} (h : s.mbx.bg = some b) (hop : b.opcode = 0xC051) (hp : b.pages = []) :
    requestAbort via s = succeed via 0x0005 [] (endBg ⟨0x12, 0⟩ [] (stopFlush s)) := by
  simp [requestAbort, h, hop, hp, notAbortable, eraseOp]

/-- An operation that ends aborted. -/
theorem endBg_aborted {b : Bg} (out : List Byte) (h : s.mbx.bg = some b) :
    (endBg ⟨0x12, 0⟩ out s).mbx = { s.mbx with bg := none, last := some (b.opcode, ⟨0x12, 0⟩, out), abortReq := false }
      ∧ (endBg ⟨0x12, 0⟩ out s).regs = (fset F.MBX_ERR_BG_ABORTED 0 s).regs ∧ keptBut s (endBg ⟨0x12, 0⟩ out s) [.mbx, .regs, .outbox] := by
  have he : endBg ⟨0x12, 0⟩ out s = msix 1 (fset F.MBX_ERR_BG_ABORTED 0
      (onMbx (fun m => { m with bg := none, last := some (b.opcode, ⟨0x12, 0⟩, out), abortReq := false }) s)) := by
    rw [endBg, h]
    rfl
  have hm : ∀ u : State, (msix 1 u).mbx = u.mbx ∧ (msix 1 u).regs = u.regs := fun u =>
    ⟨agree_of_kept (s := u) (ps := [.outbox]) (by simp) .mbx, regs_of_kept (s := u) (ps := [.outbox]) (by simp)⟩
  rw [he]
  exact ⟨(hm _).1, (hm _).2, by simp⟩

end
end Sys2Proof.Machine
end

section
/-! PROOF. Commands that act at once, continued: locks, firmware, nonces (R189, R201, R335, R340). -/
namespace Sys2Proof.Machine

set_option Elab.async false

section
variable {s t u : State} {via : Transport} {op : Nat} {input : List Byte}

/-! ### Unlocking all lines -/

theorem unlockLines_all (hc : s.config ≠ .s416) : unlockLines via (List.replicate 8 0) s = succeed via 0xC053 (leBytes 4 s.cache.lockList.length)
    (onCache (fun c => { c with
      lockList := c.lockList.filter (fun l => !inRanges [] l)
      ways := tabMap wayReset (fun _ w => if w.l && inRanges [] w.line then { w with l := false } else w) c.ways }) s) := by
  have hcap : Config.lockCapable s.config = true := by
    cases h : s.config with
    | s416 => exact absurd h hc
    | s208 => rfl
    | s104 => rfl
  have hr : inputRanges (List.replicate 8 0) = [] := rfl
  have hok : rangesOk s 0 1024 256 (List.replicate 8 0) = true := rfl
  have hmine : s.cache.lockList.filter (inRanges []) = s.cache.lockList := List.filter_eq_self.2 fun _ _ => rfl
  simp only [unlockLines, hcap, hr, hok, hmine]
  rfl

/-! ### Firmware -/

theorem endBg_done {b : Bg} {r : RetCode} {out : List Byte} (h : s.mbx.bg = some b) (hr : r.rc ≠ 0x12) :
    endBg r out s = msix 1 (onMbx (fun m => { m with bg := none, last := some (b.opcode, r, out), abortReq := false }) s) := by
  have hb : (r.rc == 0x12) = false := by simpa using hr
  rw [endBg, h]
  simp only [hb]
  rfl

theorem mbx_msix (v : Nat) (s : State) : (msix v s).mbx = s.mbx := agree_of_kept (s := s) (ps := [.outbox]) (by simp) .mbx

/-- A whole image, transferred in one part by the primary mailbox. -/
theorem transferFw_whole {img : List Byte} (hi : img.length ≤ 65536) (hm : s.mode = .maintenance) (hr : s.life.fwRunning < 2)
    (hp : s.life.fwParts = 0) (hb : s.mbx.bg = none) :
    transferFw .primary ([0, BitVec.ofNat 8 (2 - s.life.fwRunning)] ++ List.replicate 126 0 ++ img) s
      = endBg ⟨0, 0⟩ [] (fwReceived (answer .primary 0x0201 ⟨1, 0⟩ []
          (onMbx (fun m => { m with bg := some (bgPlain .primary 0x0201), last := none, abortReq := false }) s))) := by
  have h0 : leAt 0 1 ([0, BitVec.ofNat 8 (2 - s.life.fwRunning)] ++ List.replicate 126 0 ++ img) = 0 := rfl
  have h1 : leAt 1 1 ([0, BitVec.ofNat 8 (2 - s.life.fwRunning)] ++ List.replicate 126 0 ++ img) = 2 - s.life.fwRunning :=
    (leAt_byte _ _).trans (by simp; omega)
  have hl : ([0, BitVec.ofNat 8 (2 - s.life.fwRunning)] ++ List.replicate 126 0 ++ img).length - 128 = img.length := by simp
  generalize [0, BitVec.ofNat 8 (2 - s.life.fwRunning)] ++ List.replicate 126 0 ++ img = input at h0 h1 hl
  simp [transferFw, h0, h1, hl, hm, hp, hb, Nat.not_lt.2 hi, startBg]

/-- The versions after an image is whole. -/
theorem fwReceived_versions (hr : s.life.fwRunning < 2) : fwVersionOf (fwReceived s) s.life.fwRunning = fwVersionOf s s.life.fwRunning
    ∧ fwVersionOf (fwReceived s) (1 - s.life.fwRunning) = Config.freeNat s.freeIx % 2 ^ 32 := by
  have hne : s.life.fwRunning ≠ 1 - s.life.fwRunning := by omega
  exact ⟨tabGet_tabPut_ne _ _ hne _, tabGet_tabPut_same ..⟩

/-! ### Nonces -/

theorem deviceStatus_length (s : State) : (deviceStatus s).length = 24 := by simp [deviceStatus]

theorem getDeviceStatus_nonce : ∃ st : List Byte, st.length = 24 ∧ getDeviceStatus via [1, 0, 0, 0] s
    = succeed via 0xC000 (st ++ leBytes 16 (Config.nonce s.freeIx).toNat ++ leBytes 8 s.gtc) (issueNonce via s) := by
  refine ⟨deviceStatus (issueNonce via s), deviceStatus_length _, ?_⟩
  have h0 : leAt 0 1 [1, 0, 0, 0] = 1 := rfl
  have hr : rsvOk 1 3 [1, 0, 0, 0] = true := rfl
  generalize ([1, 0, 0, 0] : List Byte) = input at h0 hr
  simp [getDeviceStatus, h0, hr]

end
end Sys2Proof.Machine
end

section
/-! PROOF. Commands that act at once: poison stored and cleared in a cached sector (R66, R338). -/
namespace Sys2Proof.Machine

set_option Elab.async false

section
variable {s t u : State} {via : Transport} {dpa loc line sector i : Nat} {data : Sector} {poison : Bool}

/-- Of the host's view a store to a held line changes the poison list alone. -/
theorem storeLine_host (h : heldAt s line loc) :
    ∃ ps, (storeLine line sector data poison s).1.host = { s.host with poisonList := ps } := by
  obtain ⟨h1, h2, h3⟩ := h
  rw [storeLine_of_located poison h1 h2 h3]
  dsimp only
  rw [unlistPoison_eq, locsMoved_writeSector]
  exact ⟨_, rfl⟩

/-- What a store to a location's sector leaves there. -/
def sectorStored (s t : State) (loc sector : Nat) (data : Sector) (poison : Bool) : Prop :=
  locHolds t loc = (locSv s loc ||| bit4 sector, (if poison then locSp s loc ||| bit4 sector else locSp s loc &&& ~~~(bit4 sector)),
      lineSet (locData s loc) sector data) ∧ locDirty t loc = true

theorem sectorStored_of_cache (h : sectorStored s t loc sector data poison) (hc : u.cache = t.cache) :
    sectorStored s u loc sector data poison := by
  unfold sectorStored at h ⊢
  rw [show locHolds u loc = locHolds t loc from locHolds_of_cache (by rw [wayAt, wayAt, hc]) (by rw [ovfAt, ovfAt, hc]),
    show locDirty u loc = locDirty t loc by rw [locDirty, locDirty, dirAt, dirAt, hc]]
  exact h

theorem sectorStored_shows (hs : sector < 4) (h : sectorStored s t loc sector data poison) :
    (locSv t loc).getLsbD sector = true ∧ (locSp t loc).getLsbD sector = poison ∧ locDirty t loc = true
      ∧ (∀ i < 4, i ≠ sector → lineGet (locData t loc) i = lineGet (locData s loc) i) ∧ lineGet (locData t loc) sector = data := by
  obtain ⟨h, hd⟩ := h
  simp only [locHolds, Prod.mk.injEq] at h
  obtain ⟨hsv, hsp, hdata⟩ := h
  rw [hsv, hsp, hdata]
  refine ⟨getLsbD_or_bit4 _ hs, ?_, hd, fun i hi hne => lineGet_lineSet_other _ hs hi hne _, lineGet_lineSet_same _ hs _⟩
  cases poison
  · exact getLsbD_and_not_bit4 _ hs
  · exact getLsbD_or_bit4 _ hs

/-- A sector of the persistent partition, its line held and not mirrored, is stored in its place. -/
theorem storeSector_held (hcap : dpa < Config.capacity s.config) (hm : lineMirrored s (lineOf dpa) = false) (h : heldAt s (lineOf dpa) loc) :
    ∃ t ps, storeSector dpa data poison s = some t ∧ sectorStored s t loc (sectorOf dpa) data poison
      ∧ t.host = { s.host with poisonList := ps } ∧ keptBut s t [.cache, .host] := by
  obtain ⟨t, hst, hholds, hdirty, -, -, hk, hregs⟩ := storeLine_held (data := data) (poison := poison) (sectorOf_lt dpa) h
  obtain ⟨ps, hhost⟩ := storeLine_host (sector := sectorOf dpa) (data := data) (poison := poison) h
  rw [hst] at hhost
  have hbase : ¬Config.scratchBase ≤ dpa := Nat.not_le.2 (Nat.lt_of_lt_of_le hcap (by cases s.config <;> decide))
  have hmt : lineMirrored t (lineOf dpa) = false := by
    rw [← hm, lineMirrored, lineMirrored, show t.tnd = s.tnd from agree_of_kept hk .tnd]
    congr 1
    simp [tndEn, fon, fget, hregs]
  refine ⟨t, ps, ?_, ⟨hholds, hdirty⟩, hhost, hk⟩
  simp [storeSector, if_neg hbase, hst, mirrorOwn, mustMirror, hmt]

/-- A whole sector below the capacity is one that poison may be asked for. -/
theorem dpaOk_of_lt (h64 : dpa % 64 = 0) (hcap : dpa < Config.capacity s.config) : dpaOk s dpa 64 = true := by
  have hle : dpa + 64 ≤ Config.capacity s.config := by
    cases hc : s.config <;> rw [hc] at hcap <;> simp only [Config.capacity, Config.capacityGiB] at * <;> omega
  simp [dpaOk, hle]

theorem capacity_lt (hcap : dpa < Config.capacity s.config) : dpa < 2 ^ 64 := Nat.lt_of_lt_of_le hcap (by cases s.config <;> decide)

section
variable (h64 : dpa % 64 = 0) (hcap : dpa < Config.capacity s.config) (hm : lineMirrored s (lineOf dpa) = false) (h : heldAt s (lineOf dpa) loc)
include h64 hcap hm h

theorem injectPoison_held (hlen : s.host.injected.length < 64) (hno : nsHas dpa s.host.injected = false) :
    ∃ t data, injectPoison via (leBytes 8 dpa) s = succeed via 0x4301 [] t ∧ sectorStored s t loc (sectorOf dpa) data true
      ∧ nsHas dpa t.host.injected = true ∧ t.host.linkUp = s.host.linkUp ∧ t.freeIx = s.freeIx + 1 ∧ keptBut s t [.cache, .host, .freeIx] := by
  obtain ⟨u, ps, hst, hsec, hhost, hk⟩ := storeSector_held (data := freeSector s 0) (poison := true) hcap hm h
  have hlink : u.host.linkUp = s.host.linkUp := by rw [hhost]
  have h0 : leAt 0 8 (leBytes 8 dpa) = dpa := (leAt_whole 8 dpa).trans (Nat.mod_eq_of_lt (capacity_lt hcap))
  have hadd : ∀ v : State, (addPoisonLine (lineOf dpa) 3 v).host.injected = v.host.injected
      ∧ (addPoisonLine (lineOf dpa) 3 v).host.linkUp = v.host.linkUp := fun v => by
    simp only [addPoisonLine, addPoison, onHost]
    split
    · exact ⟨rfl, rfl⟩
    · split <;> exact ⟨rfl, rfl⟩
  refine ⟨u |> useFree |> onHost (fun h => { h with injected := nsAdd dpa h.injected }) |> addPoisonLine (lineOf dpa) 3, freeSector s 0, ?_,
    sectorStored_of_cache hsec rfl, ?_, ?_, ?_, ?_⟩
  · simp [injectPoison, h0, h64, dpaOk_of_lt h64 hcap, hno, Nat.not_le.2 hlen, hst]
  · rw [(hadd _).1]
    exact nsHas_nsAdd_same _ _
  · rw [(hadd _).2]
    exact hlink
  · exact congrArg (· + 1) (agree_of_kept hk .freeIx)
  · exact keptBut_trans (keptBut_mono hk (by simp)) (by simp)

theorem clearPoison_held {d : List Byte} (hd : d.length = 64) :
    ∃ t, clearPoison via (leBytes 8 dpa ++ d) s = succeed via 0x4302 [] t
      ∧ sectorStored s t loc (sectorOf dpa) (BitVec.ofNat 512 (ofLe d)) false
      ∧ nsHas dpa t.host.injected = false ∧ t.host.linkUp = s.host.linkUp ∧ keptBut s t [.cache, .host] := by
  obtain ⟨u, ps, hst, hsec, hhost, hk⟩ := storeSector_held (data := BitVec.ofNat 512 (ofLe d)) (poison := false) hcap hm h
  have hlink : u.host.linkUp = s.host.linkUp := by rw [hhost]
  have h0 : leAt 0 8 (leBytes 8 dpa ++ d) = dpa := (leAt_head 8 dpa d).trans (Nat.mod_eq_of_lt (capacity_lt hcap))
  have h8 : leAt 8 64 (leBytes 8 dpa ++ d) = ofLe d := by
    rw [leAt_append (by simp), leAt]
    simp [List.take_of_length_le (Nat.le_of_eq hd)]
  refine ⟨u |> onHost (fun h => { h with injected := nsDel dpa h.injected }), ?_, sectorStored_of_cache hsec rfl, nsHas_nsDel_same _ _,
    hlink, by simpa using hk⟩
  simp [clearPoison, h0, h8, h64, dpaOk_of_lt h64 hcap, hst]

end

end
end Sys2Proof.Machine
end

section
/-! PROOF. Commands that act at once: an extent is released, and its lines that are not locked leave the cache (R81, R136). -/
namespace Sys2Proof.Machine

set_option Elab.async false

section
variable {s t u : State} {e loc n line : Nat}

/-- A location that holds a line of the extent which no lock keeps. -/
def holdsLoose (e : Nat) (s : State) (loc : Nat) : Prop :=
  (if locOvf loc then (ovfAt s loc).used else (wayAt s loc).v && !locScratch s loc) = true ∧ extentOf (locLine s loc) = e
    ∧ onLockList s (locLine s loc) = false

theorem holdsLoose_ovf (ho : locOvf n = true) : holdsLoose e s n ↔
    (ovfAt s n).used = true ∧ extentOf (ovfAt s n).line = e ∧ onLockList s (ovfAt s n).line = false := by
  simp only [holdsLoose, locLine, if_pos ho]

theorem holdsLoose_way (ho : locOvf n = false) : holdsLoose e s n ↔
    ((wayAt s n).v = true ∧ locScratch s n = false) ∧ extentOf (wayAt s n).line = e ∧ onLockList s (wayAt s n).line = false := by
  simp only [holdsLoose, locLine, ho, Bool.false_eq_true, if_false, Bool.and_eq_true, Bool.not_eq_true']

theorem holdsLoose_of_parts (hw : wayAt t n = wayAt s n) (ho : ovfAt t n = ovfAt s n) (hs : locScratch t n = locScratch s n)
    (hl : t.cache.lockList = s.cache.lockList) : holdsLoose e t n ↔ holdsLoose e s n := by
  simp only [holdsLoose, locLine, onLockList, hw, ho, hs, hl]

/-- A way that is emptied, or takes a locked line, leaves no loose line behind. -/
theorem holdsLoose_setWay {w : Way} (hw : w.v = false ∨ onLockList s w.line = true) (h : holdsLoose e (setWay loc w s) n) :
    holdsLoose e s n := by
  cases ho : locOvf n with
  | true =>
    rw [holdsLoose_ovf ho] at h ⊢
    exact h
  | false =>
    rw [holdsLoose_way ho] at h ⊢
    obtain ⟨⟨hv, hscr⟩, hext, hl⟩ := h
    by_cases hk : wayKey n = wayKey loc
    · have hat : wayAt (setWay loc w s) n = w := (congrArg (tabGet wayReset _) hk).trans (wayAt_setWay w)
      rw [hat] at hv hl
      rcases hw with hw | hw
      · rw [hw] at hv
        exact absurd hv (by decide)
      · exact absurd (hw.symm.trans hl) (by decide)
    · have hat : wayAt (setWay loc w s) n = wayAt s n := (otherLocsKept_setWay w).1 _ hk
      rw [hat] at hv hext hl
      exact ⟨⟨hv, hscr⟩, hext, hl⟩

theorem ovfAt_setOvf_key (o : OvfSlot) (hk : ovfKey n = ovfKey loc) : ovfAt (setOvf loc o s) n = o := by
  rw [ovfAt, hk]
  exact ovfAt_setOvf o

theorem holdsLoose_setOvf_of_way (o : OvfSlot) (ho : locOvf n = false) : holdsLoose e (setOvf loc o s) n ↔ holdsLoose e s n := by
  rw [holdsLoose_way ho, holdsLoose_way ho]
  rfl

theorem holdsLoose_setOvf {o : OvfSlot} (hu : o.used = false) (h : holdsLoose e (setOvf loc o s) n) : holdsLoose e s n := by
  cases ho : locOvf n with
  | false => exact (holdsLoose_setOvf_of_way o ho).1 h
  | true =>
    rw [holdsLoose_ovf ho] at h ⊢
    obtain ⟨hv, hext, hl⟩ := h
    by_cases hk : ovfKey n = ovfKey loc
    · rw [ovfAt_setOvf_key o hk, hu] at hv
      exact absurd hv Bool.false_ne_true
    · have hat : ovfAt (setOvf loc o s) n = ovfAt s n := (otherLocsKept_setOvf o).2.1 _ hk
      rw [hat] at hv hext hl
      exact ⟨hv, hext, hl⟩

theorem dropLoc_way (ho : locOvf loc = false) : dropLoc loc s = setWay loc (emptyWay (wayAt s loc)) (setDir loc dirReset s) := by
  simp only [dropLoc, ho, Bool.false_eq_true, if_false]

theorem dropLoc_ovf (ho : locOvf loc = true) : dropLoc loc s = setOvf loc ovfReset (setDir loc dirReset s) := by
  simp only [dropLoc, if_pos ho]

theorem holdsLoose_setDir {d : DirEntry} : holdsLoose e (setDir loc d s) n ↔ holdsLoose e s n := holdsLoose_of_parts rfl rfl rfl rfl

theorem holdsLoose_dropLoc (h : holdsLoose e (dropLoc loc s) n) : holdsLoose e s n := by
  cases ho : locOvf loc with
  | false =>
    rw [dropLoc_way ho] at h
    exact holdsLoose_setDir.1 (holdsLoose_setWay (.inl rfl) h)
  | true =>
    rw [dropLoc_ovf ho] at h
    exact holdsLoose_setDir.1 (holdsLoose_setOvf rfl h)

theorem not_holdsLoose_setOvf_same {o : OvfSlot} (ho : locOvf loc = true) (hu : o.used = false) : ¬holdsLoose e (setOvf loc o s) loc := by
  rw [holdsLoose_ovf ho, ovfAt_setOvf, hu]
  exact fun h => Bool.false_ne_true h.1

theorem not_holdsLoose_dropLoc_same : ¬holdsLoose e (dropLoc loc s) loc := by
  cases ho : locOvf loc with
  | false =>
    rw [dropLoc_way ho, holdsLoose_way ho, wayAt_setWay]
    exact fun h => Bool.false_ne_true h.1.1
  | true =>
    rw [dropLoc_ovf ho]
    exact not_holdsLoose_setOvf_same ho rfl

theorem holdsLoose_useWay : holdsLoose e (useWay loc s) n ↔ holdsLoose e s n := by
  rw [useWay_eq]
  exact holdsLoose_of_parts rfl rfl rfl rfl

theorem lockList_setWay (w : Way) : (setWay loc w s).cache.lockList = s.cache.lockList := rfl
theorem lockList_setOvf (o : OvfSlot) : (setOvf loc o s).cache.lockList = s.cache.lockList := rfl
theorem lockList_setDir (d : DirEntry) : (setDir loc d s).cache.lockList = s.cache.lockList := rfl

theorem lockList_dropLoc : (dropLoc loc s).cache.lockList = s.cache.lockList := by
  cases ho : locOvf loc with
  | false => rw [dropLoc_way ho, lockList_setWay, lockList_setDir]
  | true => rw [dropLoc_ovf ho, lockList_setOvf, lockList_setDir]

theorem lockList_useWay : (useWay loc s).cache.lockList = s.cache.lockList := by
  rw [useWay_eq]
  rfl

theorem holdsLoose_zeroLocked (hl : onLockList s line = true) (h : holdsLoose e (zeroLocked line s) n) : holdsLoose e s n := by
  rw [zeroLocked] at h
  split at h
  case h_1 loc _ =>
    have hw := holdsLoose_setWay (.inr (by rw [onLockList, placeWay, lockList_useWay]; exact hl)) h
    exact holdsLoose_setWay (.inr hl) (holdsLoose_useWay.1 hw)
  case h_2 => exact h

/-- What the release of one location does: nothing where it holds no loose line, the line dropped, or a locked line zeroed. -/
theorem releaseLoc_cases : (releaseLoc e loc s = s ∧ ¬holdsLoose e s loc) ∨ releaseLoc e loc s = dropLoc loc s
    ∨ onLockList s (locLine s loc) = true ∧ ((locOvf loc = true ∧ releaseLoc e loc s = zeroLocked (locLine s loc) (dropLoc loc s))
      ∨ locOvf loc = false ∧ ∃ w : Way, w.line = locLine s loc ∧ releaseLoc e loc s = setWay loc w (setDir loc dirReset s)) := by
  by_cases hlive : (if locOvf loc then (ovfAt s loc).used else (wayAt s loc).v && !locScratch s loc) = true ∧ extentOf (locLine s loc) = e
  · have hgo : (!(if locOvf loc then (ovfAt s loc).used else (wayAt s loc).v && !locScratch s loc) || extentOf (locLine s loc) != e) = false := by
      rw [hlive.1, hlive.2]
      simp
    cases hlock : onLockList s (locLine s loc) with
    | false => exact .inr (.inl (by simp only [releaseLoc, hgo, hlock, Bool.false_eq_true, if_false, Bool.not_false, if_true]))
    | true =>
      refine .inr (.inr ⟨rfl, ?_⟩)
      cases ho : locOvf loc with
      | true =>
        simp only [ho, if_true] at hgo
        exact .inl ⟨rfl, by simp only [releaseLoc, hgo, hlock, ho, Bool.not_true, Bool.false_eq_true, if_false, if_true]⟩
      | false =>
        simp only [ho, Bool.false_eq_true, if_false] at hgo
        refine .inr ⟨rfl, _, ?_, by simp only [releaseLoc, hgo, hlock, ho, Bool.not_true, Bool.false_eq_true, if_false]; rfl⟩
        simp only [locLine, ho, Bool.false_eq_true, if_false]
  · refine .inl ⟨?_, fun h => hlive ⟨h.1, h.2.1⟩⟩
    have hgo : (!(if locOvf loc then (ovfAt s loc).used else (wayAt s loc).v && !locScratch s loc) || extentOf (locLine s loc) != e) = true := by
      by_contra hn
      simp only [Bool.not_eq_true, Bool.or_eq_false_iff, Bool.not_eq_false', bne_eq_false_iff_eq] at hn
      exact hlive hn
    simp only [releaseLoc, if_pos hgo]

theorem holdsLoose_releaseLoc (h : holdsLoose e (releaseLoc e loc s) n) : holdsLoose e s n := by
  rcases releaseLoc_cases (e := e) (loc := loc) (s := s) with ⟨he, -⟩ | he | ⟨hlock, ⟨-, he⟩ | ⟨-, w, hw, he⟩⟩
  · rwa [he] at h
  · rw [he] at h
    exact holdsLoose_dropLoc h
  · rw [he] at h
    exact holdsLoose_dropLoc (holdsLoose_zeroLocked (by rw [onLockList, lockList_dropLoc]; exact hlock) h)
  · rw [he] at h
    exact holdsLoose_setDir.1 (holdsLoose_setWay (.inr (by rw [hw]; exact hlock)) h)

theorem not_holdsLoose_releaseLoc_same : ¬holdsLoose e (releaseLoc e loc s) loc := fun h => by
  have hs := holdsLoose_releaseLoc h
  rcases releaseLoc_cases (e := e) (loc := loc) (s := s) with ⟨-, hn⟩ | he | ⟨hlock, -⟩
  · exact hn hs
  · rw [he] at h
    exact not_holdsLoose_dropLoc_same h
  · exact absurd (hlock.symm.trans hs.2.2) (by decide)

/-- Once every location that may hold a loose line has been released, none does. -/
theorem holdsLoose_forEach {ls : List Nat} (h : holdsLoose e (forEach ls (releaseLoc e) s) n) : holdsLoose e s n ∧ n ∉ ls := by
  induction ls generalizing s with
  | nil => exact ⟨h, List.not_mem_nil⟩
  | cons l ls ih =>
    obtain ⟨h1, h2⟩ := ih h
    refine ⟨holdsLoose_releaseLoc h1, fun hm => ?_⟩
    rcases List.mem_cons.1 hm with rfl | hm
    · exact not_holdsLoose_releaseLoc_same h1
    · exact h2 hm

/-! ### Tables by their entries -/

theorem mem_of_tabGet_ne {α : Type} {d : α} {m : Tab α} {k : Nat} (h : tabGet d m k ≠ d) : ∃ v, (k, v) ∈ m := by
  induction m with
  | nil => exact absurd rfl h
  | cons x m ih =>
    by_cases hk : x.1 = k
    · exact ⟨x.2, by rw [← hk]; exact List.mem_cons_self⟩
    · obtain ⟨v, hv⟩ := ih (by simpa [tabGet, hk] using h)
      exact ⟨v, List.mem_cons_of_mem _ hv⟩

theorem lt_of_mem_of_tabAbove {α : Type} {n : Nat} {m : Tab α} (h : tabAbove n m = true) : ∀ x ∈ m, n < x.1 := by
  induction m with
  | nil => exact fun _ hx => absurd hx List.not_mem_nil
  | cons y m ih =>
    obtain ⟨k, v⟩ := y
    simp only [tabAbove, Bool.and_eq_true, decide_eq_true_eq] at h
    intro x hx
    rcases List.mem_cons.1 hx with rfl | hx
    · exact h.1
    · exact ih h.2 x hx

theorem tabGet_of_mem {α : Type} [DecidableEq α] {d : α} {m : Tab α} (hw : tabWf d m = true) {k : Nat} {v : α} (h : (k, v) ∈ m) :
    tabGet d m k = v := by
  induction m with
  | nil => exact absurd h List.not_mem_nil
  | cons y m ih =>
    obtain ⟨k', v'⟩ := y
    simp only [tabWf, Bool.and_eq_true] at hw
    rcases List.mem_cons.1 h with he | hm
    · cases he
      simp [tabGet]
    · have hlt := lt_of_mem_of_tabAbove hw.1.1 _ hm
      simp only [tabGet, if_neg (Nat.ne_of_lt hlt)]
      exact ih hw.2 hm

/-! ### The lines of the extent -/

theorem wayLoc_wayKey (h : locOvf loc = false) : wayLoc (wayKey loc / 65536) (wayKey loc % 65536 / 16) (wayKey loc % 16) = loc := by
  have hix : ¬65536 ≤ loc % 66048 := of_decide_eq_false h
  simp only [wayLoc, wayKey, locSlice, locIx]
  omega

theorem ovfLoc_ovfKey (h : locOvf loc = true) : ovfLoc (ovfKey loc / 512) (ovfKey loc % 512) = loc := by
  obtain ⟨r, hr⟩ : ∃ r, loc % 66048 = 65536 + r := Nat.exists_eq_add_of_le (of_decide_eq_true h)
  have hlt : r < 512 := by have := Nat.mod_lt loc (by decide : 66048 > 0); omega
  have hsub : loc % 66048 - 65536 = r := by rw [hr]; exact Nat.add_sub_cancel_left _ _
  have hkey : ovfKey loc = loc / 66048 * 512 + r := congrArg (loc / 66048 * 512 + ·) hsub
  have hdiv : (loc / 66048 * 512 + r) / 512 = loc / 66048 := by omega
  have hmod : (loc / 66048 * 512 + r) % 512 = r := by omega
  rw [hkey, hdiv, hmod, ovfLoc, Nat.add_assoc, ← hr, Nat.mul_comm]
  exact Nat.div_add_mod loc 66048

theorem not_holdsLoose_releaseLines : ¬holdsLoose e (releaseLines e s) n := fun h => by
  have h' : holdsLoose e (forEach (s.cache.ovf.map (fun x => ovfLoc (x.1 / 512) (x.1 % 512))) (releaseLoc e)
      (forEach (s.cache.ways.map (fun x => wayLoc (x.1 / 65536) (x.1 % 65536 / 16) (x.1 % 16))) (releaseLoc e) s)) n := h
  obtain ⟨h1, hovf⟩ := holdsLoose_forEach h'
  obtain ⟨h0, hways⟩ := holdsLoose_forEach h1
  cases ho : locOvf n with
  | false =>
    rw [holdsLoose_way ho] at h0
    have hne : wayAt s n ≠ wayReset := fun hr => by
      rw [hr] at h0
      exact Bool.false_ne_true h0.1.1
    obtain ⟨v, hv⟩ := mem_of_tabGet_ne hne
    exact hways (List.mem_map.2 ⟨_, hv, wayLoc_wayKey ho⟩)
  | true =>
    rw [holdsLoose_ovf ho] at h0
    have hne : ovfAt s n ≠ ovfReset := fun hr => by
      rw [hr] at h0
      exact Bool.false_ne_true h0.1
    obtain ⟨v, hv⟩ := mem_of_tabGet_ne hne
    exact hovf (List.mem_map.2 ⟨_, hv, ovfLoc_ovfKey ho⟩)

theorem ovfWf_setOvf (o : OvfSlot) (h : tabWf ovfReset s.cache.ovf = true) : tabWf ovfReset (setOvf loc o s).cache.ovf = true := tabSet_wf _ _ _ _ h

theorem ovf_setWay (w : Way) : (setWay loc w s).cache.ovf = s.cache.ovf := rfl
theorem ovf_setDir (d : DirEntry) : (setDir loc d s).cache.ovf = s.cache.ovf := rfl

theorem ovfWf_dropLoc (h : tabWf ovfReset s.cache.ovf = true) : tabWf ovfReset (dropLoc loc s).cache.ovf = true := by
  cases ho : locOvf loc with
  | false => rwa [dropLoc_way ho, ovf_setWay, ovf_setDir]
  | true =>
    rw [dropLoc_ovf ho]
    exact ovfWf_setOvf _ (by rwa [ovf_setDir])

theorem ovf_zeroLocked : (zeroLocked line s).cache.ovf = s.cache.ovf := by
  rw [zeroLocked]
  split
  · rw [placeWay, useWay_eq]
    rfl
  · rfl

theorem ovfWf_releaseLoc (h : tabWf ovfReset s.cache.ovf = true) : tabWf ovfReset (releaseLoc e loc s).cache.ovf = true := by
  rcases releaseLoc_cases (e := e) (loc := loc) (s := s) with ⟨he, -⟩ | he | ⟨-, ⟨-, he⟩ | ⟨-, w, -, he⟩⟩ <;> rw [he]
  · exact h
  · exact ovfWf_dropLoc h
  · rw [ovf_zeroLocked]
    exact ovfWf_dropLoc h
  · exact h

theorem ovfWf_releaseLines (h : tabWf ovfReset s.cache.ovf = true) : tabWf ovfReset (releaseLines e s).cache.ovf = true :=
  forEach_induct (P := fun u => tabWf ovfReset u.cache.ovf = true) (fun _ _ => ovfWf_releaseLoc) _
    (forEach_induct (P := fun u => tabWf ovfReset u.cache.ovf = true) (fun _ _ => ovfWf_releaseLoc) _ h)

theorem lockList_zeroLocked : (zeroLocked line s).cache.lockList = s.cache.lockList := by
  rw [zeroLocked]
  split
  · rw [lockList_setWay, placeWay, lockList_useWay, lockList_setWay]
  · rfl

theorem lockList_releaseLoc : (releaseLoc e loc s).cache.lockList = s.cache.lockList := by
  rcases releaseLoc_cases (e := e) (loc := loc) (s := s) with ⟨he, -⟩ | he | ⟨-, ⟨-, he⟩ | ⟨-, w, -, he⟩⟩ <;> rw [he]
  · exact lockList_dropLoc
  · rw [lockList_zeroLocked, lockList_dropLoc]
  · rfl

theorem lockList_releaseLines : (releaseLines e s).cache.lockList = s.cache.lockList :=
  forEach_induct (P := fun u => u.cache.lockList = s.cache.lockList) (fun _ _ h => lockList_releaseLoc.trans h) _
    (forEach_induct (P := fun u => u.cache.lockList = s.cache.lockList) (fun _ _ h => lockList_releaseLoc.trans h) _ rfl)

theorem locOvf_wayLoc {sl set w : Nat} (hs : set < 4096) (hw : w < 16) : locOvf (wayLoc sl set w) = false := by
  exact decide_eq_false (by unfold locIx wayLoc; omega)

/-- A line that no location holds loose is not found, unless it is locked. -/
theorem locate_none (hn : ∀ n, ¬holdsLoose (extentOf line) s n) (hw : tabWf ovfReset s.cache.ovf = true) (hl : onLockList s line = false) :
    locate s line = none := by
  have hset : setOf s line < 4096 := (Config.setHash s.med.key line).isLt
  have hways : (setLocs (wheelOf s line) (setOf s line)).find? (fun loc => wayLive s loc && (wayAt s loc).line == line) = none := by
    rw [List.find?_eq_none]
    intro loc hloc hlive
    obtain ⟨w, hw16, rfl⟩ := List.mem_map.1 hloc
    have ho := locOvf_wayLoc (sl := wheelOf s line) hset (List.mem_range.1 hw16)
    simp only [wayLive, Bool.and_eq_true, Bool.not_eq_true', beq_iff_eq] at hlive
    obtain ⟨⟨⟨hv, hscr⟩, -⟩, hline⟩ := hlive
    exact hn _ ((holdsLoose_way ho).2 ⟨⟨hv, hscr⟩, by rw [hline], by rw [hline]; exact hl⟩)
  have hovf : (ovfUsed s (wheelOf s line)).find? (fun loc => (ovfAt s loc).line == line) = none := by
    rw [List.find?_eq_none]
    intro loc hloc hline
    obtain ⟨x, hx, hx2⟩ := List.mem_filterMap.1 hloc
    split at hx2
    case isFalse => exact absurd hx2 (by simp)
    case isTrue hu =>
      obtain rfl := Option.some.inj hx2
      simp only [Bool.and_eq_true, decide_eq_true_eq, beq_iff_eq] at hu hline
      have hkey : ovfKey (ovfLoc (wheelOf s line) (x.1 % 512)) = x.1 := by
        rw [ovfKey_ovfLoc (Nat.mod_lt _ (by decide))]
        omega
      have hat : ovfAt s (ovfLoc (wheelOf s line) (x.1 % 512)) = x.2 := by
        rw [ovfAt, hkey]
        exact tabGet_of_mem hw hx
      have ho : locOvf (ovfLoc (wheelOf s line) (x.1 % 512)) = true := by
        exact decide_eq_true (by unfold locIx ovfLoc; omega)
      exact hn _ ((holdsLoose_ovf ho).2 ⟨by rw [hat]; exact hu.2, by rw [hline], by rw [hline]; exact hl⟩)
  rw [locate, findLine, hways]
  exact hovf

end
end Sys2Proof.Machine
end

section
/-! PROOF. Commands that act at once: the release of one extent (R136, R137, R358). -/
namespace Sys2Proof.Machine

set_option Elab.async false

section
variable {s t u : State} {via : Transport} {e n line : Nat}

theorem holdsLoose_of_cache (hc : t.cache = s.cache) (hcfg : t.config = s.config) (hr : t.regs = s.regs) :
    holdsLoose e t n ↔ holdsLoose e s n :=
  holdsLoose_of_parts (by rw [wayAt, wayAt, hc]) (by rw [ovfAt, ovfAt, hc])
    (locScratch_of hcfg (by rw [scratchSteps, scratchSteps, fget, fget, hr]) n) (by rw [hc])

/-- The ranges of an input that names one extent. -/
def extentInput (e : Nat) : List Byte := [1, 0, 0, 0, 0, 0, 0, 0] ++ leBytes 8 (2097152 * e) ++ leBytes 8 2097152

theorem extents_lt {c : DevConfig} (h : e < Config.extents c) : 2097152 * e + 2097152 ≤ Config.capacity c ∧ 2097152 * e < 2 ^ 64 := by
  cases c <;> simp only [Config.extents, Config.capacity, Config.capacityGiB] at * <;> omega

theorem inputRanges_extent (h : 2097152 * e < 2 ^ 64) : inputRanges (extentInput e) = [(2097152 * e, 2097152)] := by
  have h0 : leAt 0 2 (extentInput e) = 1 := rfl
  have hd : (extentInput e).drop 8 = leBytes 8 (2097152 * e) ++ leBytes 8 2097152 := rfl
  have h1 : leAt 0 8 (leBytes 8 (2097152 * e) ++ leBytes 8 2097152) = 2097152 * e := (leAt_head 8 _ _).trans (Nat.mod_eq_of_lt h)
  have h2 : leAt 8 8 (leBytes 8 (2097152 * e) ++ leBytes 8 2097152) = 2097152 := by
    rw [leAt_append (by simp)]
    exact (leAt_whole 8 _).trans rfl
  rw [inputRanges, h0, hd, rangesOf, h1, h2]
  rfl

theorem rangesOk_extent (h : e < Config.extents s.config) : rangesOk s 1 256 2097152 (extentInput e) = true := by
  obtain ⟨hcap, hlt⟩ := extents_lt h
  have h0 : leAt 0 2 (extentInput e) = 1 := rfl
  have hr : rsvOk 2 6 (extentInput e) = true := rfl
  simp only [rangesOk, inputRanges_extent hlt, h0, hr, rangeOk, List.all_cons, List.all_nil, Nat.mul_mod_right, Nat.mod_self, decide_eq_true hcap]
  rfl

theorem rangeExtents_one : rangeExtents [(2097152 * e, 2097152)] = [e] := by
  simp [rangeExtents]

/-- One extent released where no tandem mirrors it. -/
theorem releaseRange_one (h : e < Config.extents s.config) (hst : reachesStore s (2097152 * e, 2097152) = false) (ht : tndEn s = false) :
    releaseRange via (extentInput e) s = succeed via 0xC060 (if bmGet s.med.released e then [0, 0, 0, 0, 1, 0, 0, 0] else [1, 0, 0, 0, 0, 0, 0, 0])
      (when (!bmGet s.med.released e) dueCkpt (releaseExtent e s)) := by
  have hrel : mirrorRelease e (releaseExtent e s) = releaseExtent e s := by
    have htnd : tndEn (releaseExtent e s) = false := by
      rw [← ht, tndEn, tndEn, fon, fon, fget_of_kept (releaseExtent_released e).2.2]
    simp [mirrorRelease, htnd]
  simp only [releaseRange, rangesOk_extent h, inputRanges_extent (extents_lt h).2, rangeExtents_one, List.any_cons, List.any_nil, hst,
    List.foldl_cons, List.foldl_nil, hrel]
  cases hw : bmGet s.med.released e <;> rfl

/-- What the release of an extent leaves. -/
theorem releaseExtent_leaves : bmGet (releaseExtent e s).med.relPending e = true ∧ (releaseExtent e s).med.tags = s.med.tags
    ∧ (releaseExtent e s).cache = (releaseLines e s).cache ∧ (releaseExtent e s).regs = s.regs := by
  have h1 : ∀ u : State, (releaseLines e u).med = u.med := fun u => agree_of_kept (ps := [.cache, .sched]) (by simp) .med
  have h2 : ∀ (f : Desc → Bool) (u : State), (dropOps f u).med = u.med ∧ (dropOps f u).cache = u.cache := fun f u =>
    ⟨agree_of_kept (ps := [.sched]) (by simp) .med, agree_of_kept (ps := [.sched]) (by simp) .cache⟩
  refine ⟨?_, ?_, ?_, regs_of_kept (releaseExtent_released e).2.2⟩
  · simp [releaseExtent, queueClrs, (h2 _ _).1, bmGet_bmSet_same]
  · simp [releaseExtent, queueClrs, (h2 _ _).1, h1]
  · simp [releaseExtent, queueClrs, (h2 _ _).2]

theorem when_dueCkpt (b : Bool) : (when b dueCkpt u).med = { u.med with ckptDue := b || u.med.ckptDue } ∧ (when b dueCkpt u).cache = u.cache
    ∧ (when b dueCkpt u).regs = u.regs := by
  cases b <;> exact ⟨rfl, rfl, rfl⟩

/-- The release of one extent: its lines read zero and, unless they are locked, are not in the cache. -/
theorem releaseRange_effect (h : e < Config.extents s.config) (hst : reachesStore s (2097152 * e, 2097152) = false) (ht : tndEn s = false) :
    ∃ u, releaseRange via (extentInput e) s
        = succeed via 0xC060 (if bmGet s.med.released e then [0, 0, 0, 0, 1, 0, 0, 0] else [1, 0, 0, 0, 0, 0, 0, 0]) u
      ∧ u.med.released = bmSet s.med.released e true ∧ bmGet u.med.relPending e = true
      ∧ (tabWf ovfReset s.cache.ovf = true → ∀ l, extentOf l = e → onLockList s l = false → locate u l = none)
      ∧ u.med.lines = s.med.lines ∧ u.med.tags = s.med.tags ∧ keptBut s u [.cache, .sched, .med] := by
  have hk : keptBut s (when (!bmGet s.med.released e) dueCkpt (releaseExtent e s)) [.cache, .sched, .med] := by simp [dueCkpt]
  have hone := releaseRange_one (via := via) h hst ht
  obtain ⟨hrel, hlines, -⟩ := releaseExtent_released (s := s) e
  obtain ⟨hpend, htags, hce, hre⟩ := releaseExtent_leaves (s := s) (e := e)
  generalize releaseExtent e s = v at *
  obtain ⟨hmed, hcache, hregs⟩ := when_dueCkpt (u := v) (!bmGet s.med.released e)
  refine ⟨_, hone, ?_, ?_, fun hovf l hl hlock => ?_, ?_, ?_, hk⟩
  · rw [hmed]
    exact hrel
  · rw [hmed]
    exact hpend
  · have hkl : keptBut s (releaseLines e s) [.cache, .sched] := by simp
    refine locate_none (fun n hn => ?_) ?_ ?_
    · rw [hl, holdsLoose_of_cache (s := releaseLines e s) (hcache.trans hce) (hk.1.trans hkl.1.symm)
        ((hregs.trans hre).trans (regs_of_kept hkl).symm)] at hn
      exact not_holdsLoose_releaseLines hn
    · rw [hcache, hce]
      exact ovfWf_releaseLines hovf
    · rw [onLockList, hcache, hce, lockList_releaseLines]
      exact hlock
  · rw [hmed]
    exact hlines
  · rw [hmed]
    exact htags

end
end Sys2Proof.Machine
end

section
/-! PROOF. Commands that act at once: register writes (R9, R10, R12, R38, R358, R359). -/
namespace Sys2Proof.Machine

set_option Elab.async false

section
variable {s t u : State} {via : Transport} {r : RegDef} {f : Fld} {i value mask a v m : Nat}

/-! ### One register -/

/-- A register whose write has no consequence but its fields'. -/
def plainReg (r : RegDef) : Prop :=
  r.base ∉ [F.MCVn_SEL_INJ.base, F.MCVn_CAL_START.base, F.MCV_DIAG_START.base, F.MCV_ERR_LIMIT.base, F.SEQ_GANGg_MEMBERS.base]

theorem writeReg_plain (h : plainReg r) : writeReg value mask (r, i) s = forEach r.fields (writeField value mask i) s := by
  simp only [plainReg, List.mem_cons, List.not_mem_nil, or_false, not_or] at h
  obtain ⟨h1, h2, h3, h4, h5⟩ := h
  simp only [writeReg, afterWrite, writes1, beq_false_of_ne h1, beq_false_of_ne h2, beq_false_of_ne h3, beq_false_of_ne h4, beq_false_of_ne h5,
    Bool.false_and, when_false]

/-- A read-write field takes the bits that the mask covers. -/
theorem writeField_rw (ha : f.acc = .rw) (hm : fieldOf f mask ≠ 0) (hf : fixedField f i = false) :
    writeField value mask i f s = fput f i (mergeBits f.width (fget s f i) (fieldOf f value) (fieldOf f mask)) s := by
  simp [writeField, ha, hm, hf]

/-- A bit that a one clears, unless the hardware sets it in the tick. -/
theorem writeField_rw1c (ha : f.acc = .rw1c) (hv : fieldOf f value &&& fieldOf f mask ≠ 0) (ht : tabGet (2 ^ 64) s.setAt (f.key i) ≠ tickOf s) :
    writeField value mask i f s = fclr f i s := by
  simp only [writeField, ha, decide_eq_true hv, decide_eq_true ht]
  rfl

theorem writeField_rw1c_idle (ha : f.acc = .rw1c) (hv : fieldOf f value &&& fieldOf f mask = 0) : writeField value mask i f s = s := by
  simp [writeField, ha, hv]

/-! ### The registers that the statement writes -/

theorem regAt_bgAllow : ∃ r, regAt 0x20008 = some (r, 0) ∧ plainReg r ∧ r.fields = [F.WHL_BG_ALLOW_PER_TICK] := ⟨_, rfl,
      by unfold plainReg; decide, rfl⟩

theorem regAt_cacheErr : ∃ r, regAt 0x86020 = some (r, 5) ∧ plainReg r ∧ ∃ fs, r.fields = F.CCHn_ERR_SEC :: fs
    ∧ (∀ g ∈ fs, g.acc = .rw1c ∧ fieldOf g 1 = 0) ∧ setsReserved r 1 1 = false ∧ maskActs r 1 = true :=
  ⟨_, rfl, by unfold plainReg; decide, _, rfl, by decide, rfl, rfl⟩

theorem regAt_hptErr : ∃ r, regAt 0x6001C = some (r, 0) ∧ plainReg r ∧ ∃ fs, r.fields = fs ++ [F.HPT_ERR_STATUS_RETRAIN]
    ∧ ∀ g ∈ fs, g.acc = .rw1c ∧ fieldOf g 0x20 = 0 := ⟨_, rfl, by unfold plainReg; decide, [F.HPT_ERR_STATUS_DECODE_MISS,
      F.HPT_ERR_STATUS_REFUSED, F.HPT_ERR_STATUS_UNBACKED_SCRATCH, F.HPT_ERR_STATUS_VIRAL_RX,
    F.HPT_ERR_STATUS_LINK_DEGRADED], rfl, by decide⟩

theorem regAt_unmapped : regAt 0x50000 = none := rfl

/-! ### What writing them does -/

theorem forEach_writeField_idle {fs : List Fld} (h : ∀ g ∈ fs, g.acc = .rw1c ∧ fieldOf g value = 0) :
    forEach fs (writeField value mask i) s = s := by
  induction fs with
  | nil => rfl
  | cons g fs ih =>
    obtain ⟨ha, hv⟩ := h g List.mem_cons_self
    rw [forEach_cons, writeField_rw1c_idle ha (by rw [hv, Nat.zero_and])]
    exact ih fun x hx => h x (List.mem_cons_of_mem _ hx)

/-- The allowance takes the masked bits of what is written. -/
def allowed (v m : Nat) (s : State) : State :=
  fput F.WHL_BG_ALLOW_PER_TICK 0 (mergeBits 5 (fget s F.WHL_BG_ALLOW_PER_TICK 0) (v % 32) (m % 32)) s

theorem writeReg_bgAllow {r : RegDef} (hp : plainReg r) (hf : r.fields = [F.WHL_BG_ALLOW_PER_TICK]) (hm : m % 32 ≠ 0) :
    writeReg v m (r, 0) s = allowed v m s := by
  have hv : ∀ x, fieldOf F.WHL_BG_ALLOW_PER_TICK x = x % 32 := fun x => congrArg (· % 32) (Nat.div_one x)
  rw [writeReg_plain hp, hf, forEach_cons, forEach_nil, writeField_rw rfl (by rw [hv]; exact hm) rfl, hv, hv]
  rfl

theorem writeReg_cacheErr {r : RegDef} (hp : plainReg r) {fs : List Fld} (hf : r.fields = F.CCHn_ERR_SEC :: fs)
    (hi : ∀ g ∈ fs, g.acc = .rw1c ∧ fieldOf g 1 = 0) (ht : tabGet (2 ^ 64) s.setAt (F.CCHn_ERR_SEC.key 5) ≠ tickOf s) :
    writeReg 1 1 (r, 5) s = fclr F.CCHn_ERR_SEC 5 s := by
  rw [writeReg_plain hp, hf, forEach_cons, writeField_rw1c rfl (by decide) ht, forEach_writeField_idle hi]

theorem writeReg_hptErr {r : RegDef} (hp : plainReg r) {fs : List Fld} (hf : r.fields = fs ++ [F.HPT_ERR_STATUS_RETRAIN])
    (hi : ∀ g ∈ fs, g.acc = .rw1c ∧ fieldOf g 0x20 = 0) (ht : tabGet (2 ^ 64) s.setAt (F.HPT_ERR_STATUS_RETRAIN.key 0) ≠ tickOf s) :
    writeReg 0x20 0xFFFFFFFF (r, 0) s = fclr F.HPT_ERR_STATUS_RETRAIN 0 s := by
  rw [writeReg_plain hp, hf, forEach, List.foldl_append]
  exact (congrArg (writeField 0x20 0xFFFFFFFF 0 F.HPT_ERR_STATUS_RETRAIN) (forEach_writeField_idle hi)).trans (writeField_rw1c rfl (by decide) ht)

theorem fget_allowed : fget (allowed v m s) F.WHL_BG_ALLOW_PER_TICK 0
    = mergeBits 5 (fget s F.WHL_BG_ALLOW_PER_TICK 0) (v % 32) (m % 32) % 32 := fget_fput_same ..

theorem fget_allowed_all : fget (allowed v 0xFFFFFFFF s) F.WHL_BG_ALLOW_PER_TICK 0 = v % 32 := by
  have h0 : (2 ^ 5 - 1) ^^^ 0xFFFFFFFF % 32 = 0 := rfl
  have hand : v % 32 &&& 0xFFFFFFFF % 32 = v % 32 := by
    simpa using Nat.and_two_pow_sub_one_eq_mod (v % 32) 5
  rw [fget_allowed, mergeBits, h0, hand, Nat.and_zero, Nat.zero_or, Nat.mod_mod]

/-- Five bits of which a mask takes some. -/
theorem mergeBits_five {old : Nat} (hv : v < 32) (hm : m < 32) : mergeBits 5 old (v % 32) (m % 32) % 32 = ((old &&& (31 - m)) ||| (v &&& m)) := by
  have hx : ∀ m < 32, (2 ^ 5 - 1) ^^^ m = 31 - m := by decide
  rw [mergeBits, Nat.mod_eq_of_lt hv, Nat.mod_eq_of_lt hm, hx m hm]
  have h1 : old &&& (31 - m) < 2 ^ 5 := Nat.and_lt_two_pow _ (by omega)
  have h2 : v &&& m < 2 ^ 5 := Nat.and_lt_two_pow _ hm
  exact Nat.mod_eq_of_lt (Nat.or_lt_two_pow h1 h2)

/-! ### Write Registers -/

/-- An input of one entry. -/
def entryInput (a v m : Nat) : List Byte := [1, 0, 0, 0] ++ leBytes 4 a ++ leBytes 4 v ++ leBytes 4 m

/-- One well-formed entry is written, or skipped. -/
theorem writeRegisters_one (ha : a < 2 ^ 24) (h4 : a % 4 = 0) (hv : v < 2 ^ 32) (hm : m < 2 ^ 32) {w : WriteTally}
    (hw : writeEntry ⟨s, 0, 0, 0xFFFFFFFF, 0⟩ (0, a, v, m) = w) : writeRegisters via (entryInput a v m) s
      = succeed via 0xC0F1 (leBytes 4 w.applied ++ leBytes 4 w.skipped ++ leBytes 4 w.first ++ leBytes 4 w.rsv) w.s := by
  have h0 : leAt 0 2 (entryInput a v m) = 1 := rfl
  have hr : rsvOk 2 2 (entryInput a v m) = true := rfl
  have hl : (entryInput a v m).length = 16 := by simp [entryInput]
  have hd : (entryInput a v m).drop 4 = leBytes 4 a ++ (leBytes 4 v ++ leBytes 4 m) := rfl
  have he : writeEntries 0 1 ((entryInput a v m).drop 4) = [(0, a, v, m)] := by
    have e0 : leAt 0 4 (leBytes 4 a ++ (leBytes 4 v ++ leBytes 4 m)) = a := (leAt_head 4 _ _).trans (Nat.mod_eq_of_lt (by omega))
    have e1 : leAt 4 4 (leBytes 4 a ++ (leBytes 4 v ++ leBytes 4 m)) = v := by
      rw [leAt_append (by simp)]
      exact (leAt_head 4 _ _).trans (Nat.mod_eq_of_lt hv)
    have e2 : leAt 8 4 (leBytes 4 a ++ (leBytes 4 v ++ leBytes 4 m)) = m := by
      rw [leAt_append (by simp), leAt_append (by simp)]
      exact (leAt_whole 4 _).trans (Nat.mod_eq_of_lt hm)
    rw [hd, writeEntries, e0, e1, e2]
    rfl
  have hok : addrOk a = true := by rw [addrOk, decide_eq_true ha, h4]; rfl
  generalize entryInput a v m = input at h0 hr hl he
  simp [writeRegisters, h0, hr, hl, he, hok, hw]

theorem writeEntry_bgAllow (hp : addrPowered s 0x20008 = true) (hm0 : m ≠ 0) (hm : m < 32) :
    writeEntry ⟨s, 0, 0, 0xFFFFFFFF, 0⟩ (0, 0x20008, v, m) = ⟨allowed v m s, 1, 0, 0xFFFFFFFF, 0⟩ := by
  obtain ⟨r, hr, hplain, hf⟩ := regAt_bgAllow
  have hfield : ∀ x, fieldOf F.WHL_BG_ALLOW_PER_TICK x = x % 32 := fun x => congrArg (· % 32) (Nat.div_one x)
  have hmm : m % 32 = m := Nat.mod_eq_of_lt hm
  have hrsv : setsReserved r v m = false := by
    have hlt : v &&& m < 32 := Nat.lt_of_le_of_lt Nat.and_le_right hm
    simp [setsReserved, imageOf, hf, hfield, Nat.mod_eq_of_lt hlt, show F.WHL_BG_ALLOW_PER_TICK.lo = 0 from rfl]
  have hact : maskActs r m = true := by
    simp [maskActs, hf, hfield, hmm, hm0, show F.WHL_BG_ALLOW_PER_TICK.acc = .rw from rfl]
  simp only [writeEntry, hp, if_true, hr, hrsv, hact, Bool.false_eq_true, if_false, writeReg_bgAllow hplain hf (hmm ▸ hm0)]

theorem writeEntry_cacheErr (hp : addrPowered s 0x86020 = true) (ht : tabGet (2 ^ 64) s.setAt (F.CCHn_ERR_SEC.key 5) ≠ tickOf s) :
    writeEntry ⟨s, 0, 0, 0xFFFFFFFF, 0⟩ (0, 0x86020, 1, 1) = ⟨fclr F.CCHn_ERR_SEC 5 s, 1, 0, 0xFFFFFFFF, 0⟩ := by
  obtain ⟨r, hr, hplain, fs, hf, hi, hrsv, hact⟩ := regAt_cacheErr
  simp only [writeEntry, hp, if_true, hr, hrsv, hact, Bool.false_eq_true, if_false, writeReg_cacheErr hplain hf hi ht]

theorem writeEntry_unmapped : writeEntry ⟨s, 0, 0, 0xFFFFFFFF, 0⟩ (0, 0x50000, v, m) = ⟨s, 0, 1, 0, 0⟩ := by
  simp only [writeEntry, regAt_unmapped, ite_self, if_true]

theorem tally_applied : leBytes 4 1 ++ leBytes 4 0 ++ leBytes 4 0xFFFFFFFF ++ leBytes 4 0
    = [1, 0, 0, 0, 0, 0, 0, 0] ++ List.replicate 4 0xFF ++ [0, 0, 0, 0] := by decide

theorem tally_skipped : leBytes 4 0 ++ leBytes 4 1 ++ leBytes 4 0 ++ leBytes 4 0 = [0, 0, 0, 0, 1, 0, 0, 0] ++ List.replicate 8 0 := by decide

theorem writeRegisters_bgAllow (hp : addrPowered s 0x20008 = true) (hv : v < 2 ^ 32) (hm0 : m ≠ 0) (hm : m < 32) :
    writeRegisters via (entryInput 0x20008 v m) s
      = succeed via 0xC0F1 ([1, 0, 0, 0, 0, 0, 0, 0] ++ List.replicate 4 0xFF ++ [0, 0, 0, 0]) (allowed v m s) := by
  rw [writeRegisters_one (by decide) (by decide) hv (by omega) (writeEntry_bgAllow hp hm0 hm)]
  exact congrArg (succeed via 0xC0F1 · _) tally_applied

theorem writeRegisters_cacheErr (hp : addrPowered s 0x86020 = true) (ht : tabGet (2 ^ 64) s.setAt (F.CCHn_ERR_SEC.key 5) ≠ tickOf s) :
    writeRegisters via (entryInput 0x86020 1 1) s
      = succeed via 0xC0F1 ([1, 0, 0, 0, 0, 0, 0, 0] ++ List.replicate 4 0xFF ++ [0, 0, 0, 0]) (fclr F.CCHn_ERR_SEC 5 s) := by
  rw [writeRegisters_one (by decide) (by decide) (by decide) (by decide) (writeEntry_cacheErr hp ht)]
  exact congrArg (succeed via 0xC0F1 · _) tally_applied

theorem writeRegisters_unmapped (hv : v < 2 ^ 32) (hm : m < 2 ^ 32) : writeRegisters via (entryInput 0x50000 v m) s
      = succeed via 0xC0F1 ([0, 0, 0, 0, 1, 0, 0, 0] ++ List.replicate 8 0) s := by
  rw [writeRegisters_one (by decide) (by decide) hv hm writeEntry_unmapped]
  exact congrArg (succeed via 0xC0F1 · _) tally_skipped

end
end Sys2Proof.Machine
end

section
/-! PROOF. Commands that act at once: what they leave (R15, R189, R201, R335, R336, R340, R344). -/
namespace Sys2Proof.Machine

set_option Elab.async false

section
variable {s t u : State} {via : Transport} {op : Nat} {input : List Byte}

/-- A command that succeeds, whatever it has done outside mailboxes and link. -/
theorem command_tells {acc : Accept} {lenOk : Nat → Bool} {body : State → State} {out : List Byte} (h : reaches s via op acc)
    (hlen : lenOk input.length = true) (hmax : via = .mctp → input.length ≤ payloadMax via) (hb : body (stampNow s) = succeed via op out u)
    (hl : u.host.linkUp = s.host.linkUp) {ps : List Part} (hk : keptBut (stampNow s) u (.stamp :: ps))
    (hm : Part.mbx ∉ ps := by decide) (ho : Part.outbox ∉ ps := by decide) :
    run (command via op acc lenOk input body) s = .next (settle s (ended u via op ⟨0, 0⟩ out))
      ∧ ((settle s (ended u via op ⟨0, 0⟩ out)).outbox = s.outbox ++ sends s via op ⟨0, 0⟩ out
        ∧ (settle s (ended u via op ⟨0, 0⟩ out)).mbx = { s.mbx with answers := shows s via op ⟨0, 0⟩ out })
      ∧ keptBut s (settle s (ended u via op ⟨0, 0⟩ out)) (.mbx :: .outbox :: ps) := by
  have hmbx : u.mbx = s.mbx := agree_of_kept hk .mbx (by simpa using hm)
  have hout : u.outbox = s.outbox := agree_of_kept hk .outbox (by simpa using ho)
  refine ⟨run_of_effect ?_, ⟨?_, ?_⟩, ?_⟩
  · rw [command_body body h hlen hmax, hb, succeed_eq]
  · simp only [settle_outbox, ended, sends, hl, hout]
  · simp only [settle_mbx, ended, shows, hmbx]
  · refine keptBut_of_effect h.1 (keptBut_trans (keptBut_mono hk fun p hp => by simp at hp ⊢; tauto) ?_)
    rw [← succeed_eq]
    exact (kept_succeed _ _ _ (by simp)).2 (keptBut_refl ..)

theorem setTimestamp_eq {x : Nat} (hx : x < 2 ^ 64) : setTimestamp via (leBytes 8 x) s = succeed via 0x0301 []
    (land 0x13 7 srcHub 0 (some [x % 2 ^ 32, x / 2 ^ 32, s.gtc % 2 ^ 32, s.gtc / 2 ^ 32])
      (onHost (fun h => { h with timestamp := x, timestampGtc := s.gtc }) s)) := by
  have h0 : leAt 0 8 (leBytes 8 x) = x := (leAt_whole 8 x).trans (Nat.mod_eq_of_lt hx)
  simp only [setTimestamp, h0]

theorem abortStop_media {b : Bg} (h : s.mbx.bg = some b) (hop : b.opcode = 0x4304) (ha : s.mbx.abortReq = true) (hf : b.filling = false) :
    abortStop s = endBg ⟨0x12, 0⟩ [] s := by
  simp [abortStop, h, hop, ha, hf, bgOut]

/-! ### Firmware -/

/-- A whole image taken: its answer sent, its version known, the operation ended. -/
def imageTaken (s : State) : State :=
  msix 1 (onMbx (fun m => { m with bg := none, last := some (0x0201, ⟨0, 0⟩, []), abortReq := false })
    (fwReceived (ended (onMbx (fun m => { m with bg := some (bgPlain .primary 0x0201), last := none, abortReq := false }) s) .primary 0x0201 ⟨1, 0⟩ [])))

theorem imageTaken_eq : endBg ⟨0, 0⟩ [] (fwReceived (answer .primary 0x0201 ⟨1, 0⟩ []
    (onMbx (fun m => { m with bg := some (bgPlain .primary 0x0201), last := none, abortReq := false }) s))) = imageTaken s := by
  rw [answer_eq]
  exact endBg_done (b := bgPlain .primary 0x0201) (r := ⟨0, 0⟩) rfl (by decide)

theorem imageTaken_leaves : (imageTaken s).life = (fwReceived s).life
    ∧ (imageTaken s).mbx = { s.mbx with bg := none, last := some (0x0201, ⟨0, 0⟩, []), abortReq := false, answers := shows s .primary 0x0201 ⟨1, 0⟩ [] }
    ∧ (imageTaken s).freeIx = s.freeIx + 1 ∧ keptBut s (imageTaken s) [.life, .mbx, .outbox, .freeIx] := by
  have hm : ∀ u : State, (msix 1 u).life = u.life ∧ (msix 1 u).freeIx = u.freeIx := fun u =>
    ⟨agree_of_kept (s := u) (ps := [.outbox]) (by simp) .life, agree_of_kept (s := u) (ps := [.outbox]) (by simp) .freeIx⟩
  refine ⟨(hm _).1, mbx_msix _ _, (hm _).2, ?_⟩
  rw [imageTaken, ← answer_eq]
  simp

theorem fwVersionOf_of_life (h : t.life = u.life) (n : Nat) : fwVersionOf t n = fwVersionOf u n := by rw [fwVersionOf, fwVersionOf, h]

/-- The image of the slot that activation names runs, and the slot is stored. -/
def imageRuns (s : State) : State :=
  s |> onLife (fun l => { l with activating := false, fwRunning := l.actSlot, fwBad := nsDel l.actSlot l.fwBad })
    |> fput F.HUB_RESTART_FW_SLOT 0 s.life.actSlot |> storeSlot s.life.actSlot

theorem activationEnd_good (hm : s.mode = .maintenance) (ha : s.life.activating = true) :
    activationEnd true s = msix 6 (endBgStored [3280] (imageRuns s)) := by
  have hp : homeOps / 256 = 3280 := rfl
  rw [activationEnd, if_pos (by simp [hm, ha]), hp]
  simp only [if_true, imageRuns]
  rfl

theorem activationEnd_bad (hm : s.mode = .maintenance) (ha : s.life.activating = true) : activationEnd false s
    = endBg ⟨0x0C, 0⟩ [] (onLife (fun l => { l with activating := false, fwBad := nsAdd l.actSlot l.fwBad }) s) := by
  simp only [activationEnd, hm, ha]
  rfl

theorem kept_imageRuns : keptBut s (imageRuns s) [.life, .regs, .sbg] := by simp [imageRuns, storeSlot]

theorem imageRuns_leaves (h : s.life.actSlot < 2) : (imageRuns s).life.activating = false ∧ (imageRuns s).life.fwRunning = s.life.actSlot
    ∧ fget (imageRuns s) F.HUB_RESTART_FW_SLOT 0 = s.life.actSlot ∧ sbBytes (imageRuns s) (3280 * 256 + 8) 4 = leBytes 4 s.life.actSlot := by
  have hstore : ∀ u : State, keptBut u (storeSlot s.life.actSlot u) [.sbg] := fun u => by simp [storeSlot]
  have hlife : (imageRuns s).life = { s.life with activating := false, fwRunning := s.life.actSlot, fwBad := nsDel s.life.actSlot s.life.fwBad } :=
    agree_of_kept (hstore _) .life
  refine ⟨by rw [hlife], by rw [hlife], (fget_of_kept (hstore _) ..).trans ((fget_fput_same ..).trans (Nat.mod_eq_of_lt h)), ?_⟩
  have hb : ∀ u, sbBytes (storeSlot s.life.actSlot u) (3280 * 256 + 8) 4 = leBytes 4 s.life.actSlot := fun u => by
    have h := sbBytes_sbStore_same (homeOps + 8) (leBytes 4 s.life.actSlot) u
    rw [leBytes_length] at h
    rw [storeSlot]
    unfold homeOps at h ⊢
    exact h
  exact hb _

/-- An operation that waits for one page: held while it is dirty, else done. -/
theorem endBgStored_one {b : Bg} {p : Nat} (h : s.mbx.bg = some b) : (endBgStored [p] s).mbx
      = (if pageDirty s p then { s.mbx with bg := some { b with pages := [p] } }
        else { s.mbx with bg := none, last := some (b.opcode, ⟨0, 0⟩, []), abortReq := false })
    ∧ keptBut s (endBgStored [p] s) [.mbx, .outbox] := by
  cases hp : pageDirty s p with
  | true =>
    have he : endBgStored [p] s = onMbx (fun m => { m with bg := m.bg.map (fun b => { b with pages := [p] }) }) s := by
      simp [endBgStored, hp]
    rw [he]
    exact ⟨by simp [h], by simp⟩
  | false =>
    have he : endBgStored [p] s = endBg ⟨0, 0⟩ [] s := by simp [endBgStored, hp]
    rw [he, endBg_done h (by decide)]
    exact ⟨mbx_msix _ _, by simp⟩

/-- What a good activation leaves. -/
theorem activationEnd_good_leaves {b : Bg} (hm : s.mode = .maintenance) (ha : s.life.activating = true) (hb : s.mbx.bg = some b)
    (hop : b.opcode = 0x0202) (hs : s.life.actSlot < 2) : ∃ u, activationEnd true s = u ∧ u.life.activating = false
      ∧ u.life.fwRunning = s.life.actSlot ∧ fget u F.HUB_RESTART_FW_SLOT 0 = s.life.actSlot ∧ sbBytes u (3280 * 256 + 8) 4 = leBytes 4 s.life.actSlot
      ∧ u.mbx = (if pageDirty u 3280 then { s.mbx with bg := some { b with pages := [3280] } }
        else { s.mbx with bg := none, last := some (0x0202, ⟨0, 0⟩, []), abortReq := false })
      ∧ keptBut s u [.life, .mbx, .regs, .sbg, .outbox] := by
  obtain ⟨h1, h2, h3, h4⟩ := imageRuns_leaves hs
  have hki := kept_imageRuns (s := s)
  have hmi : (imageRuns s).mbx = s.mbx := agree_of_kept hki .mbx
  obtain ⟨hmbx, hk⟩ := endBgStored_one (p := 3280) ((congrArg Mailbox.bg hmi).trans hb)
  have hks : keptBut (imageRuns s) (msix 6 (endBgStored [3280] (imageRuns s))) [.mbx, .outbox] := by simpa using hk
  have hmm := mbx_msix 6 (endBgStored [3280] (imageRuns s))
  rw [activationEnd_good hm ha]
  generalize msix 6 (endBgStored [3280] (imageRuns s)) = u at hks hmm
  have hlife : u.life = (imageRuns s).life := agree_of_kept hks .life
  have hsbg : u.sbg = (imageRuns s).sbg := agree_of_kept hks .sbg
  refine ⟨u, rfl, by rw [hlife, h1], by rw [hlife, h2], (fget_of_kept hks ..).trans h3,
    (sbBytes_of_work (congrArg Saddlebag.work hsbg) _ _).trans h4, ?_, keptBut_trans (keptBut_mono hki (by simp)) (keptBut_mono hks (by simp))⟩
  have hd : pageDirty u 3280 = pageDirty (imageRuns s) 3280 := by rw [pageDirty, pageDirty, hsbg]
  rw [hmm, hmbx, hmi, hop, hd]

/-! ### Nonces -/

theorem map_some_tabPut {α : Type} (n : Nat) (x : α) (l : Tab α) :
    (tabPut n x l).map (fun y => (y.1, some y.2)) = tabPut n (some x) (l.map fun y => (y.1, some y.2)) := by
  induction l with
  | nil => rfl
  | cons y l ih =>
    obtain ⟨k, y⟩ := y
    simp only [tabPut, List.map_cons]
    split
    · rfl
    · split
      · rfl
      · rw [List.map_cons, ih]

theorem nonceOf_issueNonce : nonceOf (issueNonce via s) (viaNo via) = some ⟨Config.nonce s.freeIx, s.gtc⟩ :=
  (congrArg (tabGet none · _) (map_some_tabPut ..)).trans (tabGet_tabPut_same ..)

theorem nonceOf_issueNonce_other {k : Nat} (h : k ≠ viaNo via) : nonceOf (issueNonce via s) k = nonceOf s k :=
  (congrArg (tabGet none · _) (map_some_tabPut ..)).trans (tabGet_tabPut_ne _ _ h _)

/-! ### Writes without a command -/

theorem writeAt_of {a value i : Nat} {r : RegDef} (h : regAt a = some (r, i)) : writeAt a value s = writeReg value 0xFFFFFFFF (r, i) s := by
  rw [writeAt, h]

/-- Range 1's base, written in part. -/
def withRangeBase (f : Nat → Nat) (s : State) : State := { s with host := { s.host with rangeBase := f s.host.rangeBase } }

theorem run_withRangeBase {k : State → State} (f : Nat → Nat) (hg : gtcOk s) (h : k (stampNow s) = withRangeBase f (stampNow s)) :
    run k s = .next (withRangeBase f s) := run_of_effect_eq hg h

theorem registerWrite_rangeBaseHigh {a value : Nat} (hio : ioLink s = true) : registerWrite .rangeBaseHigh a value s
    = withRangeBase (fun b => b % 2 ^ 32 + value * 2 ^ 32) s := by
  rw [registerWrite, hio, when_true, rangeBaseWrite]
  simp only [if_true, onHost, withRangeBase]

/-- Bit 14 of the DVSEC's Control register is Viral_Enable. -/
theorem registerWrite_dvsecControl {a : Nat} (v : BitVec 32) (hio : ioLink s = true) : registerWrite .dvsecControl a v.toNat s
    = { s with host := { s.host with viralEnable := v.getLsbD 14 } } := by
  have hbit : decide (v.toNat / 2 ^ 14 % 2 = 1) = v.getLsbD 14 := by
    rw [BitVec.getLsbD, Nat.testBit_eq_decide_div_mod_eq]
  rw [registerWrite, hio, ← hbit]
  rfl

theorem registerWrite_hptErr (hio : ioLink s = true) (ht : tabGet (2 ^ 64) s.setAt (F.HPT_ERR_STATUS_RETRAIN.key 0) ≠ tickOf s) :
    registerWrite .bar0 0x6001C 0x20 s = fclr F.HPT_ERR_STATUS_RETRAIN 0 s := by
  obtain ⟨r, hr, hplain, fs, hf, hi⟩ := regAt_hptErr
  rw [registerWrite, hio, ← writeReg_hptErr hplain hf hi ht, ← writeAt_of hr]
  rfl

/-- The firmware writes every powered register. -/
theorem registerWrite_bgAllow {value : Nat} (hh : hubRuns s = true) (hc : coreOn s = true) :
    registerWrite .firmware 0x20008 value s = allowed value 0xFFFFFFFF s := by
  obtain ⟨r, hr, hplain, hf⟩ := regAt_bgAllow
  have hpow : (hubRuns s && addrPowered s 0x20008) = true := by rw [addrPowered_of_core hc, Bool.and_true, hh]
  rw [registerWrite, hpow, ← writeReg_bgAllow hplain hf (by decide), ← writeAt_of hr]
  rfl

/-! ### Write Registers by mode -/

theorem writeRegistersAt_maintenance (hm : s.mode = .maintenance) :
    run (writeRegistersAt via input) s = run (command via 0xC0F1 .maintenance (fun n => decide (4 ≤ n)) input (writeRegisters via input)) s := by
  have hb : writeRegistersAt via input (stampNow s)
      = command via 0xC0F1 .maintenance (fun n => decide (4 ≤ n)) input (writeRegisters via input) (stampNow s) :=
    if_neg (by simp [hm])
  rw [run_eq, run_eq, hb]

/-- A refusal outside MAINTENANCE is counted. -/
theorem writeRegistersAt_refused (hb : transportBusy s via = false) (he : endpoint s via = .hub) (hm : s.mode ≠ .maintenance) :
    writeRegistersAt via input s = ended (s |> finc F.MBX_PT_REFUSED_COUNT 0 |> fset F.MBX_ERR_PT_REFUSED 0) via 0xC0F1 ⟨rcOf 0x0101, 0x0101⟩
      (leBytes 4 0x0101) := by
  have hr : writeRegistersAt via input s = refuse via 0xC0F1 0x0101 (s |> finc F.MBX_PT_REFUSED_COUNT 0 |> fset F.MBX_ERR_PT_REFUSED 0) :=
    if_pos (by simp [hb, he, hm])
  rw [hr, refuse_eq (by decide)]

end
end Sys2Proof.Machine
end

section
/-! PROOF. Commands that act at once, concluded (R338, R340, R358, R359). -/
namespace Sys2Proof.Machine

set_option Elab.async false

/-- Settles O57: each command's body is brought to its effect on the state, and the answer follows. -/
theorem immediateCommandsAct : Obligations.ImmediateCommandsAct := by
  unfold Obligations.ImmediateCommandsAct
  intro s via hg tells
  have hk0 : keptBut s (stampNow s) [.stamp] := keptBut_stampNow s []
  refine ⟨fun log hr => ?_, fun ps hl hps hr => ?_, fun x hx hr => ?_, fun en v hr => ?_, fun hr => ⟨fun hb => ?_, fun b hb hop => ?_,
      fun b hb hop hp => ?_⟩,
    fun b hb hop ha hf => ?_, fun dpa loc h64 hcap hloc hdead hmir hres => ?_, fun hc hr => ?_, fun e he hst hr => ?_,
    fun img hi hm hrun hp hb hvia hr => ?_, fun b hm ha hb hop hslot => ⟨?_, ?_⟩, fun hr => ?_, fun n hm hn => ?_, fun hm hlock => ?_,
    fun a v m hv hm he => ?_, fun hlink hcore v => ?_⟩
  · obtain ⟨hrun, htells, hk⟩ := command_tells (input := [BitVec.ofNat 8 log.val, 1, 0, 0, 0, 0])
      (lenOk := fun n => decide (6 ≤ n) && n == 6 + 2 * leAt 2 1 [BitVec.ofNat 8 log.val, 1, 0, 0, 0, 0]) hr rfl (payload_fits (n := 6) rfl)
      (clearEvents_all (s := stampNow s) log.isLt) rfl (ps := [.host]) (by simp)
    exact ⟨_, hrun, tabGet_tabSet_same .., fun k hne => tabGet_tabSet_ne _ _ hne _, rfl, htells, keptBut_mono hk (by simp)⟩
  · refine run_of_effect_eq hg ?_
    rw [command_body _ hr (by rw [hl]; rfl) (payload_fits hl), setPolicy_of_ok hps, succeed_eq]
    rfl
  · obtain ⟨hrun, htells, hk⟩ := command_tells (lenOk := len 8) hr (by rw [leBytes_length]; rfl) (payload_fits (leBytes_length 8 x))
      (setTimestamp_eq (s := stampNow s) hx) rfl (ps := [.host, .rcd]) (by simp)
    exact ⟨_, _, hrun, rfl, rfl, rfl, rfl, htells, keptBut_mono hk (by simp)⟩
  · intro cfg
    obtain ⟨hrun, htells, hk⟩ := command_tells (input := [1, en &&& 1, v] ++ List.replicate 9 0) (lenOk := len 12) hr rfl
      (payload_fits (n := 12) rfl) (setAlerts_first (s := stampNow s) (en := en) (v := v) cfg rfl) rfl (ps := [.host]) (by simp)
    exact ⟨_, hrun, rfl, rfl, htells, keptBut_mono hk (by simp)⟩
  · refine run_of_effect_eq hg ?_
    rw [command_body _ hr rfl (payload_fits (n := 0) rfl), requestAbort_barred (s := stampNow s) hb, succeed_eq]
    rfl
  · refine run_of_effect_eq hg ?_
    rw [command_body _ hr rfl (payload_fits (n := 0) rfl), requestAbort_asks (s := stampNow s) hb hop, succeed_eq]
    rfl
  · obtain ⟨h1, h2, hk⟩ := endBg_aborted (s := stopFlush (stampNow s)) [] hb
    have hrun : command via 0x0005 .any (len 0) [] (requestAbort via) (stampNow s)
        = succeed via 0x0005 [] (endBg ⟨0x12, 0⟩ [] (stopFlush (stampNow s))) := by
      rw [command_body _ hr rfl (payload_fits (n := 0) rfl), requestAbort_flush (s := stampNow s) hb hop hp]
    have hks : keptBut (stampNow s) (stopFlush (stampNow s)) [.stamp, .cache, .regs] := by simp [stopFlush]
    generalize endBg ⟨0x12, 0⟩ [] (stopFlush (stampNow s)) = u at h1 h2 hk hrun
    have hf : ∀ g i, fget u g i = fget (fset F.MBX_ERR_BG_ABORTED 0 (stopFlush (stampNow s))) g i := fun g i => by rw [fget, fget, h2]
    refine ⟨_, run_of_effect (hrun.trans (succeed_eq ..)), (hf _ _).trans ?_, (hf _ _).trans ?_, (hf _ _).trans ?_,
      (agree_of_kept hk .cache).trans rfl,
      (hf _ _).trans (fget_fset_same _ _ _ (by decide)), ?_, ?_, ?_⟩
    · simp (disch := decide) [stopFlush, fget_fset_other, fget_fput_other, fget_fput_same]
    · simp (disch := decide) [stopFlush, fget_fset_other, fget_fput_other, fget_fset_same]
    · simp (disch := decide) [stopFlush, fget_fset_other, fget_fput_same]
    · simp only [settle_mbx, ended, shows, h1, hop]
      rfl
    · rw [regsKept_iff_of_regs (t := settle s (ended u via 0x0005 ⟨0, 0⟩ [])) h2]
      simp [stopFlush]
    · rw [← succeed_eq]
      refine keptBut_of_effect hg ((kept_succeed _ _ _ (by simp)).2 ?_)
      exact keptBut_trans (keptBut_mono hks (by simp)) (keptBut_mono hk (by simp))
  · obtain ⟨h1, h2, hk⟩ := endBg_aborted (s := stampNow s) [] hb
    have hrun := abortStop_media (s := stampNow s) hb hop ha hf
    generalize endBg ⟨0x12, 0⟩ [] (stampNow s) = u at h1 h2 hk hrun
    refine ⟨_, run_of_effect hrun, by rw [settle_mbx, h1, hop]; rfl, ?_, ?_, keptBut_of_effect hg (keptBut_mono hk (by simp))⟩
    · rw [fget_settle, fget, h2]
      exact fget_fset_same _ _ _ (by decide)
    · rw [regsKept_iff_of_regs (t := settle s u) h2]
      simp
  · intro stored
    have hheld : heldAt (stampNow s) (lineOf dpa) loc := heldAt_of_kept ⟨hloc, hdead, hres⟩ hk0 rfl
    refine ⟨fun hlen hno hr => ?_, fun d hd hr => ?_⟩
    · obtain ⟨u, data, hbody, hsec, hin, hl, hix, hk⟩ := injectPoison_held (via := via) (s := stampNow s) h64 hcap hmir hheld hlen hno
      obtain ⟨hrun, htells, hkt⟩ := command_tells (lenOk := len 8) hr (by rw [leBytes_length]; rfl) (payload_fits (leBytes_length 8 dpa)) hbody hl
        (ps := [.cache, .host, .freeIx]) (keptBut_mono hk (by simp))
      obtain ⟨h1, h2, h3, h4, -⟩ := sectorStored_shows (sectorOf_lt dpa) hsec
      exact ⟨_, hrun, ⟨h1, h2, h3, h4, agree_of_kept hk .med⟩, hin, hix, htells, keptBut_mono hkt (by simp)⟩
    · obtain ⟨u, hbody, hsec, hin, hl, hk⟩ := clearPoison_held (via := via) (s := stampNow s) h64 hcap hmir hheld hd
      have hlen : (leBytes 8 dpa ++ d).length = 72 := by rw [List.length_append, leBytes_length, hd]
      obtain ⟨hrun, htells, hkt⟩ := command_tells (lenOk := len 72) hr (by rw [hlen]; rfl) (payload_fits hlen) hbody hl
        (ps := [.cache, .host]) (keptBut_mono hk (by simp))
      obtain ⟨h1, h2, h3, h4, h5⟩ := sectorStored_shows (sectorOf_lt dpa) hsec
      exact ⟨_, hrun, ⟨h1, h2, h3, h4, agree_of_kept hk .med⟩, h5, hin, htells, keptBut_mono hkt (by simp)⟩
  · obtain ⟨hrun, htells, hk⟩ := command_tells (input := List.replicate 8 0) (lenOk := rangesLen (List.replicate 8 0)) hr rfl
      (payload_fits (n := 8) rfl) (unlockLines_all (s := stampNow s) hc) rfl (ps := [.cache]) (by simp)
    exact ⟨_, hrun, List.filter_eq_nil_iff.2 fun _ _ => by simp [inRanges], rfl, rfl, htells, keptBut_mono hk (by simp)⟩
  · intro input ht
    obtain ⟨u, hbody, hrel, hpend, hgone, hlines, htags, hk⟩ := releaseRange_effect (via := via) (s := stampNow s) he hst ht
    obtain ⟨hrun, htells, -⟩ := command_tells (input := extentInput e) (lenOk := rangesLen (extentInput e)) hr (by simp [rangesLen]; rfl)
      (payload_fits (n := 24) (by simp [extentInput])) hbody (by rw [agree_of_kept hk .host]; rfl) (ps := [.cache, .sched, .med])
      (keptBut_mono hk (by simp))
    refine ⟨_, hrun, ?_, hpend, fun k hne => ?_, fun _ hovf l hl hlock => ?_, hlines, htags, htells⟩
    · exact (congrArg (bmGet · e) hrel).trans (bmGet_bmSet_same ..)
    · exact (congrArg (bmGet · k) hrel).trans (bmGet_bmSet_ne hne ..)
    · exact (locate_of_cache (s := u) (t := settle s (ended u via 0xC060 _ _)) hk.1.symm rfl rfl rfl l).trans (hgone hovf l hl hlock)
  · subst hvia
    have hlen : ([0, BitVec.ofNat 8 (2 - s.life.fwRunning)] ++ List.replicate 126 0 ++ img).length = 128 + img.length := by simp; omega
    have hends : command .primary 0x0201 .any (fun n => decide (128 ≤ n)) ([0, BitVec.ofNat 8 (2 - s.life.fwRunning)] ++ List.replicate 126 0 ++ img)
        (transferFw .primary ([0, BitVec.ofNat 8 (2 - s.life.fwRunning)] ++ List.replicate 126 0 ++ img)) (stampNow s) = imageTaken (stampNow s) := by
      rw [command_body _ hr (by rw [hlen]; exact decide_eq_true (Nat.le_add_right ..)) (fun h => by cases h)]
      exact (transferFw_whole (s := stampNow s) hi hm hrun hp hb).trans imageTaken_eq
    obtain ⟨hlife, hmbx, hix, hk⟩ := imageTaken_leaves (s := stampNow s)
    obtain ⟨hold, hnew⟩ := fwReceived_versions (s := stampNow s) hrun
    refine ⟨_, run_of_effect hends, ?_, ?_, ?_, hix, hmbx, keptBut_of_effect hg (keptBut_mono hk (by simp))⟩
    · rw [settle_life, hlife]
      rfl
    · exact (fwVersionOf_of_life (hlife.trans rfl) _).trans hold
    · exact (fwVersionOf_of_life (hlife.trans rfl) _).trans hnew
  · obtain ⟨u, hrun, h1, h2, h3, h4, hmbx, hk⟩ := activationEnd_good_leaves (s := stampNow s) hm ha hb hop hslot
    exact ⟨_, run_of_effect hrun, h1, h2, h3, (sbBytes_of_work (t := settle s u) rfl _ _).trans h4, hmbx,
      keptBut_of_effect hg (keptBut_mono hk (by simp))⟩
  · have hrun := (activationEnd_bad (s := stampNow s) hm ha).trans (endBg_done hb (by decide))
    have hlife : ∀ u : State, (msix 1 u).life = u.life := fun u => agree_of_kept (s := u) (ps := [.outbox]) (by simp) .life
    refine ⟨_, run_of_effect hrun, ?_, ?_, ?_, ?_, keptBut_of_effect hg (by simp)⟩
    · rw [settle_life, hlife]
      rfl
    · rw [settle_life, hlife]
      rfl
    · rw [settle_mbx, mbx_msix]
      rfl
    · rw [settle_mbx, mbx_msix, ← hop]
      rfl
  · obtain ⟨st, hst, hbody⟩ := getDeviceStatus_nonce (s := stampNow s) (via := via)
    have hends := (command_body (lenOk := len 4) (input := [1, 0, 0, 0]) _ hr rfl (payload_fits (n := 4) rfl)).trans (hbody.trans (succeed_eq ..))
    have hn : (Config.nonce s.freeIx).toNat < 256 ^ 16 := (Config.nonce s.freeIx).isLt
    refine ⟨_, _, run_of_effect hends, ?_, rfl, rfl, ?_, ?_, nonceOf_issueNonce (s := stampNow s),
      fun k hk => nonceOf_issueNonce_other (s := stampNow s) hk,
      rfl, ?_⟩
    · simp [hst]
    · rw [List.append_assoc, leAt_append (le_of_eq hst), hst]
      exact (leAt_head 16 _ _).trans (Nat.mod_eq_of_lt hn)
    · have hlen : (st ++ leBytes 16 (Config.nonce (stampNow s).freeIx).toNat).length = 40 := by simp [hst]
      rw [leAt_append (le_of_eq hlen), hlen]
      exact (leAt_whole 8 _).trans (Nat.mod_eq_of_lt hg)
    · rw [← succeed_eq]
      exact keptBut_of_effect hg ((kept_succeed _ _ _ (by simp)).2 (by simp [issueNonce]))
  · refine ⟨dropNonce via { s with gtc := max s.gtc ((n.issued + 60000000000) % 2 ^ 64) }, run_of_effect_at (laterOf_lt hg _) ?_,
      nonceOf_dropNonce, rfl, by simp [dropNonce]⟩
    have hn' : nonceOf (stampNow s) (viaNo via) = some n := hn
    simp only [nonceExpiry, hn', advanceTo_of_on (s := stampNow s) hm]
    rfl
  · refine ⟨onMbx (fun m => { m with lockAt := 0 }) { s with gtc := max s.gtc (s.mbx.lockAt % 2 ^ 64) }, run_of_effect_at (laterOf_lt hg _) ?_,
      rfl, rfl, rfl, by simp⟩
    have hl : lockedOut (stampNow s) = true := bne_iff_ne.2 hlock
    simp only [lockoutEnd, hl, advanceTo_of_on (s := stampNow s) hm]
    rfl
  · intro input
    have hcore : coreOn (stampNow s) = true := coreOn_of_hub he
    have hlen : (entryInput a v m).length = 16 := by simp [entryInput]
    refine ⟨fun hmode hr => ⟨fun ha hv5 hm0 hm5 => ?_, fun ha hv1 hm1 ht => ?_, fun ha => ?_⟩, fun hmode hbusy => ?_⟩
    · subst ha
      obtain ⟨hrun, htells, hk⟩ := command_tells (lenOk := fun n => decide (4 ≤ n)) hr (by rw [hlen]; rfl) (payload_fits hlen)
        (writeRegisters_bgAllow (addrPowered_of_core hcore _) hv hm0 hm5) rfl (ps := [.regs]) (by simp [allowed])
      refine ⟨_, (writeRegistersAt_maintenance hmode).trans hrun, fget_allowed.trans (mergeBits_five hv5 hm5), ?_, htells, keptBut_mono hk (by simp)⟩
      rw [regsKept_iff_of_regs (t := settle s _) (s := allowed v m (stampNow s)) rfl]
      simp [allowed]
    · subst ha hv1 hm1
      obtain ⟨hrun, -, hk⟩ := command_tells (lenOk := fun n => decide (4 ≤ n)) hr (by rw [hlen]; rfl) (payload_fits hlen)
        (writeRegisters_cacheErr (addrPowered_of_core hcore _) ht) rfl (ps := [.regs]) (by simp)
      refine ⟨_, (writeRegistersAt_maintenance hmode).trans hrun, fget_fclr_same .., ?_, keptBut_mono hk (by simp)⟩
      rw [regsKept_iff_of_regs (t := settle s _) (s := fclr F.CCHn_ERR_SEC 5 (stampNow s)) rfl]
      simp
    · subst ha
      exact (writeRegistersAt_maintenance hmode).trans (query_ends (input := entryInput 0x50000 v m) hr (by rw [hlen]; rfl) (payload_fits hlen)
        (writeRegisters_unmapped hv hm))
    · have hrun := writeRegistersAt_refused (s := stampNow s) (input := input) hbusy he (by rw [stampNow_mode, hmode]; decide)
      refine ⟨_, run_of_effect hrun, ?_, ?_, ?_, rfl, rfl, ?_⟩
      · exact (fget_fset_other F.MBX_ERR_PT_REFUSED F.MBX_PT_REFUSED_COUNT 0 0 _ (by decide)).trans (fget_finc_same ..)
      · exact fget_fset_same _ _ _ (by decide)
      · rw [regsKept_iff_of_regs (t := settle s _) (s := s |> finc F.MBX_PT_REFUSED_COUNT 0 |> fset F.MBX_ERR_PT_REFUSED 0) rfl]
        simp
      · rw [← refuse_eq (by decide)]
        exact keptBut_of_effect hg (by simp)
  · have hio : ioLink (stampNow s) = true := by simp [ioLink, hlink, hcore]
    refine ⟨fun ht => ?_, ?_, ?_, run_withRangeBase (fun b => b % 2 ^ 32 + v.toNat * 2 ^ 32) hg (registerWrite_rangeBaseHigh hio),
      run_of_effect_eq hg (registerWrite_dvsecControl v hio), fun hhub => ?_⟩
    · refine ⟨_, run_of_effect (registerWrite_hptErr (s := stampNow s) hio ht), fget_fclr_same .., ?_, keptBut_of_effect hg (by simp)⟩
      rw [regsKept_iff_of_regs (t := settle s _) (s := fclr F.HPT_ERR_STATUS_RETRAIN 0 (stampNow s)) rfl]
      simp
    · refine run_of_effect_eq hg ?_
      rw [registerWrite, hio]
      rfl
    · refine run_of_effect_eq hg ?_
      rw [registerWrite, hio]
      rfl
    · refine ⟨_, run_of_effect (registerWrite_bgAllow (s := stampNow s) hhub hcore), fget_allowed_all, ?_, keptBut_of_effect hg (by simp [allowed])⟩
      rw [regsKept_iff_of_regs (t := settle s _) (s := allowed v.toNat 0xFFFFFFFF (stampNow s)) rfl]
      simp [allowed]

end Sys2Proof.Machine
end
